-- ==== Sys2Proof/Word.lean ====
section
/-!
DEFINITION. The word types of the module: a register word is 32 bits (R350), a position or a timestamp is 64 bits
(R33, R35), memory is addressed in bytes.
-/

namespace Sys2Proof

/-- A register word (R350). -/
abbrev Word := BitVec 32

/-- A byte of memory or of a message. -/
abbrev Byte := BitVec 8

/-- A 64-bit value: a position in the LAC.ANGLE format (R33), a calendar stamp, an old or new value of R200. -/
abbrev DWord := BitVec 64

end Sys2Proof
end

