-- ==== Sys2Proof/Syntax.lean ====
section
/-!
DEFINITION. The commands of the module: one constructor of `Instr` for every row of the opcode table, with the row's
operands, and the small types those operands use.
-/

namespace Sys2Proof

/-- The service classes of R12. -/
inductive Cls where
  | safety | control | operator | tenant | bulk
  deriving DecidableEq, Repr

/-- The initiators of R20 and of the origin format of R188. -/
inductive Who where
  | host
  | service
  | core (n : Fin 2)
  | opx (slot : Fin 2048)
  | hw (page : Fin 128)
  | loom
  | loop (n : Fin 256)
  deriving DecidableEq, Repr

/-- Who sends a request, and the class it carries (R12). The host's accesses take the class of HOSTP.CTRL.CLASS
whatever stands here (R354). -/
structure Init where
  who : Who
  cls : Cls
  deriving DecidableEq, Repr

/-- The type field T of an instruction, an input slot or a point (R93, R188). -/
inductive Ty where
  | bool | int32 | q16 | float32
  deriving DecidableEq, Repr

/-- A working register W0–W63 of a lane (R92). -/
abbrev Wr := Fin 64

/-- One of the four execution lanes of Loom. -/
abbrev LaneNo := Fin 4

/-- A multi-drop bus frame (the frame record of chapter 10). -/
structure BusFrame where
  id : BitVec 29
  ide : Bool
  fdf : Bool
  brs : Bool
  dlc : BitVec 4
  data : List Byte
  deriving DecidableEq, Repr

/-- How a bus transmission ended (R246). -/
inductive BusEnd where
  | sent | lostArb | error
  deriving DecidableEq, Repr

/-- An element of the fault manager: the element word of R300 comes from these. A DRAM page stands under PAGE 0xFF and
LEVEL 0 (log 22). -/
structure Element where
  level : Fin 4
  region : Fin 4
  page : Fin 256
  cell : BitVec 20
  deriving DecidableEq, Repr

/-- What the tracker measures of a reference (R38, R41, R57): the magnitude of its fundamental in mV, its frequency in mHz, and its
phase error in au. -/
structure RefSeen where
  mag : Nat
  freq : Nat
  ph : Int
  deriving DecidableEq, Repr

/-- How a start-up step ends, and what it meets (R310, R337, R338): whether it succeeds, BOOT1 and BOOT0 as step 2 samples them, the full image that the service
port gives a recovery start in step 3, and the elements that fail their power-on tests in steps 5 and 6. -/
structure StartUp where
  ok : Bool
  boot : BitVec 2
  image : List Byte
  bad : List Element
  deriving DecidableEq, Repr

/-- The commands, in the order of the opcode table. -/
inductive Instr where
  -- registers, TOLL, the line-angle clock
  | registerWrite (i : Init) (addr : BitVec 20) (be : BitVec 4) (v : Word)
  | rcRead (i : Init) (addr : BitVec 20)
  | accountingWindowStart (pos : Nat)
  | requestGrant (res : Fin 9)
  | delayBudgetExpiry (res : Fin 9)
  | angleEventFire (pos : Nat)
  | angleEventDeferredFire
  | pulseEnd (pin : Fin 9)
  | angleLoRead (i : Init) (wide : Bool)
  | angleHiRead (i : Init)
  | aetWord0Stage (i : Init) (n : Fin 512) (v : Word)
  | aetEntryCommit (i : Init) (n : Fin 512) (v : Word)
  | lacCtrlWrite (i : Init) (v : Word)
  | lacNetSessionWrite (i : Init) (v : Word)
  | syncPulse (rising : Bool)
  | syncMissing
  | netrefLost
  | referenceInvalid
  | referenceValid (x : RefSeen)
  | trackerConverged (refAngle : BitVec 16) (freq : Nat)
  | acquireTimeout
  | flyLimit
  -- the scan engine
  | scanRun (i : Init)
  | scanStop (i : Init)
  | scandbgHold (i : Init)
  | scandbgResume (i : Init)
  | scandbgStepSeg (i : Init)
  | scandbgStepScan (i : Init)
  | segmentStart (l : LaneNo) (depth : Fin 3) (seg : BitVec 14)
  -- the instructions of a segment
  | lmNop (l : LaneNo)
  | lmEnd (l : LaneNo)
  | lmLdp (l : LaneNo) (t : Ty) (d : Wr) (x : BitVec 16)
  | lmLdq (l : LaneNo) (d : Wr) (x : BitVec 16)
  | lmLdst (l : LaneNo) (d : Wr) (x : BitVec 16)
  | lmStp (l : LaneNo) (t : Ty) (d : Wr) (x : BitVec 16)
  | lmStpc (l : LaneNo) (t : Ty) (d : Wr) (x : BitVec 16)
  | lmRls (l : LaneNo) (x : BitVec 16)
  | lmLds (l : LaneNo) (d : Wr) (x : BitVec 16)
  | lmSts (l : LaneNo) (d : Wr) (x : BitVec 16)
  | lmLdi (l : LaneNo) (t : Ty) (d : Wr) (imm : BitVec 16)
  | lmLdih (l : LaneNo) (d : Wr) (imm : BitVec 16)
  | lmMov (l : LaneNo) (d a : Wr)
  | lmSel (l : LaneNo) (d a b x : Wr)
  | lmCvt (l : LaneNo) (t : Ty) (d a : Wr) (src : Ty)
  | lmAdd (l : LaneNo) (t : Ty) (d a b : Wr)
  | lmSub (l : LaneNo) (t : Ty) (d a b : Wr)
  | lmMul (l : LaneNo) (t : Ty) (d a b : Wr)
  | lmDiv (l : LaneNo) (t : Ty) (d a b : Wr)
  | lmMod (l : LaneNo) (d a b : Wr)
  | lmNeg (l : LaneNo) (t : Ty) (d a : Wr)
  | lmAbs (l : LaneNo) (t : Ty) (d a : Wr)
  | lmMin (l : LaneNo) (t : Ty) (d a b : Wr)
  | lmMax (l : LaneNo) (t : Ty) (d a b : Wr)
  | lmAddi (l : LaneNo) (t : Ty) (d : Wr) (imm : BitVec 16)
  | lmCeq (l : LaneNo) (t : Ty) (d a b : Wr)
  | lmCne (l : LaneNo) (t : Ty) (d a b : Wr)
  | lmClt (l : LaneNo) (t : Ty) (d a b : Wr)
  | lmCle (l : LaneNo) (t : Ty) (d a b : Wr)
  | lmCgt (l : LaneNo) (t : Ty) (d a b : Wr)
  | lmCge (l : LaneNo) (t : Ty) (d a b : Wr)
  | lmAnd (l : LaneNo) (t : Ty) (d a b : Wr)
  | lmOr (l : LaneNo) (t : Ty) (d a b : Wr)
  | lmXor (l : LaneNo) (t : Ty) (d a b : Wr)
  | lmNot (l : LaneNo) (t : Ty) (d a : Wr)
  | lmShl (l : LaneNo) (t : Ty) (d a b : Wr)
  | lmShr (l : LaneNo) (t : Ty) (d a b : Wr)
  | lmBtst (l : LaneNo) (d a : Wr) (x : BitVec 5)
  | lmAndi (l : LaneNo) (t : Ty) (d : Wr) (imm : BitVec 16)
  | lmOri (l : LaneNo) (t : Ty) (d : Wr) (imm : BitVec 16)
  | lmLim (l : LaneNo) (t : Ty) (d a b x : Wr)
  | lmScl (l : LaneNo) (t : Ty) (d a b x : Wr)
  | lmIntp (l : LaneNo) (t : Ty) (d : Wr) (x : BitVec 16)
  | lmTon (l : LaneNo) (d a : Wr) (inst : BitVec 14)
  | lmTof (l : LaneNo) (d a : Wr) (inst : BitVec 14)
  | lmTp (l : LaneNo) (d a : Wr) (inst : BitVec 14)
  | lmCtu (l : LaneNo) (d a : Wr) (inst : BitVec 14)
  | lmCtd (l : LaneNo) (d a : Wr) (inst : BitVec 14)
  | lmRtrig (l : LaneNo) (d a : Wr) (inst : BitVec 14)
  | lmFtrig (l : LaneNo) (d a : Wr) (inst : BitVec 14)
  | lmLspw (l : LaneNo) (d : Wr) (x : BitVec 16)
  | lmLstr (l : LaneNo) (d : Wr) (x : BitVec 16)
  | lmLout (l : LaneNo) (d : Wr) (x : BitVec 16)
  | lmEmit (l : LaneNo) (d : Wr) (imm : BitVec 16)
  | lmRdf (l : LaneNo) (d : Wr)
  | lmClf (l : LaneNo)
  -- program banks, forces
  | pgmxLoad (i : Init)
  | pgmxCopyDone
  | pgmxVerifyDone
  | pgmxSwitch (i : Init)
  | pgmxCancel (i : Init)
  | programSwitch
  | forceWord0Stage (i : Init) (n : Fin 256) (v : Word)
  | forceEntryCommit (i : Init) (n : Fin 256) (v : Word)
  -- loops
  | loopSample (n : Fin 256) (pos : Nat)
  | loopComputation (n : Fin 256)
  | loopOutput (n : Fin 256) (pos : Nat)
  | loopCtrlWrite (i : Init) (n : Fin 256) (v : Word)
  | loopSpWrite (i : Init) (n : Fin 256) (v : Word)
  -- metering
  | converterSample (ch : Fin 24) (x1 x32 : Int)
  | returnToX32 (ch : Fin 24)
  | gridSample (pos : Nat)
  | sampleAccumulate
  | measurandPublish
  | demandIntervalEnd
  | snap (i : Init)
  | clearEnergy (i : Init)
  | clearMaxdem (i : Init)
  | hselWrite (i : Init) (v : Word)
  | checkpointDone (ok : Bool)
  | checkpointRetry
  | powerFailTrigger
  | finalSaveDone
  | powerRestored
  -- the dispatch solver
  | sqTail (i : Init) (q : Fin 2) (v : Word)
  | cqHead (i : Init) (q : Fin 2) (v : Word)
  | solve
  | register
  | confirm
  | factorisationDone (pivots : List Word)
  | admmIteration
  | residualCheck
  | maxIterReached
  | timeLimitReached
  | solveResume
  | periodBoundary (pos : Nat)
  -- points and the Daybook
  | commandedWrite (i : Init) (p : BitVec 16) (v : Word) (level : BitVec 5)
  | setRelinquish (i : Init) (p : BitVec 16) (v : Word)
  | relinquish (i : Init) (p : BitVec 16) (level : BitVec 5)
  | defSel (i : Init) (v : Word)
  | defStage (i : Init) (relq : Bool) (v : Word)
  | defCfg (i : Init) (v : Word)
  | dayEntryWrite
  | drainSeqLo (i : Init) (v : Word)
  | drainSeqHi (i : Init) (v : Word)
  -- Ethernet
  | frameReceive (port : Fin 18) (bytes : List Byte) (fcsOk symErr : Bool)
  | pauseRepeat (port : Fin 18)
  | pauseExpiry (port : Fin 18)
  | pauseWatchdog (port : Fin 18)
  | holdoffEnd (port : Fin 18)
  | txFrameStart (port : Fin 18)
  | txFrameEnd (port : Fin 18)
  | txUnderrun (port : Fin 18)
  | ethTxrTail (i : Init) (port : Fin 18) (v : Word)
  | ethRxrTail (i : Init) (port : Fin 18) (v : Word)
  -- the point exchange
  | opxFrameTake (port : Fin 18)
  | reassemblyTimeout (slot : Fin 2048) (sq : Word)
  | inputImage (slot : Fin 2048) (sq : Word)
  | pointRead (slot : Fin 2048) (sq : Word)
  | pointWrite (slot : Fin 2048) (sq : Word)
  | regWindowRead (slot : Fin 2048) (sq : Word)
  | regWindowWrite (slot : Fin 2048) (sq : Word)
  | solveData (slot : Fin 2048) (sq : Word)
  | updateChunk (slot : Fin 2048) (sq : Word)
  | status (slot : Fin 2048) (sq : Word)
  | statusPeriodSend
  | leaseTake (slot : Fin 2048) (sq : Word)
  | leaseRenew (slot : Fin 2048) (sq : Word)
  | leaseRelease (slot : Fin 2048) (sq : Word)
  | openSession (port : Fin 18)
  | close (slot : Fin 2048) (sq : Word)
  | timeRef (slot : Fin 2048) (sq : Word)
  | timeRefSend
  | sessionIdleTimeout (slot : Fin 2048)
  | sessClose (i : Init) (v : Word)
  -- multi-drop buses
  | mbFrameReceive (bus : Fin 8) (f : BusFrame)
  | objectTimeout (bus : Fin 8) (o : Fin 16)
  | mbQHead (i : Init) (bus : Fin 8) (q : Fin 2) (v : Word)
  | txobjStage (i : Init) (bus : Fin 8) (o : Fin 16) (w : Fin 20) (v : Word)
  | txobjCommit (i : Init) (bus : Fin 8) (o : Fin 16) (v : Word)
  | mbTxrTail (i : Init) (bus : Fin 8) (v : Word)
  | mbFrameSend (bus : Fin 8)
  | mbTxDone (bus : Fin 8) (r : BusEnd)
  | busOffRecovery (bus : Fin 8)
  | mbEnable (i : Init) (bus : Fin 8) (v : Word)
  | mbSleep (i : Init) (bus : Fin 8)
  | mbWake (i : Init) (bus : Fin 8)
  | mbRecover (i : Init) (bus : Fin 8)
  | clearQ0 (i : Init) (bus : Fin 8)
  | clearQ1 (i : Init) (bus : Fin 8)
  | busWakeEvent (bus : Fin 8) (f : Option BusFrame)
  -- serial field ports
  | sfTxStart (port : Fin 4)
  | sfTxDone (port : Fin 4)
  | characterReceive (port : Fin 4) (c : Byte) (parityErr framingErr brk : Bool)
  | idleGap (port : Fin 4)
  | sfTxrTail (i : Init) (port : Fin 4) (v : Word)
  | sfRxrHead (i : Init) (port : Fin 4) (v : Word)
  -- field I/O
  | diFilterAccept (n : Fin 16) (v : Bool)
  | wireBreak (n : Fin 16)
  | wireBreakClear (n : Fin 16)
  | countEdge (n : Fin 16)
  | cntClr (i : Init) (v : Word)
  | doCmdWrite (i : Init) (v : Word)
  | doThermalShutdown (c : Fin 8)
  | doShutdownRelease (c : Fin 8)
  | groupFault (g : Fin 3)
  | fieldUndervoltage
  | fieldSupplyRestored
  -- the display driver
  | frameStart
  | frameEnd
  | epdPgoodRise
  | pgoodTimeout
  | pgoodLost
  | panelPowerOff
  | temperatureRead (t : Option Int)
  | regionStage (i : Init) (r : Fin 32) (w : Fin 6) (v : Word)
  | regionGo (i : Init) (r : Fin 32) (v : Word)
  | loadLut (i : Init)
  | balance (i : Init)
  -- the vault
  | locksmithReady
  | remask
  | lockStage (i : Init)
  | lockCommit (i : Init)
  | lockCancel (i : Init)
  | lockErase (i : Init)
  | derive (i : Init)
  | attest (i : Init)
  | lcOwn (i : Init)
  | lcRetire (i : Init)
  | tamperTrip (cause : BitVec 10)
  | backupPowerOn
  | vbakLow
  | secondBoundary
  | trimCorrection
  | calendarWrite (i : Init) (f : Fin 7) (v : Word)
  | calSecRead (i : Init)
  | calYearRead (i : Init)
  | tornRead (who : Who)
  | wakeTimer
  | ponSet (i : Init)
  | ponRelease (i : Init)
  | clearLost (i : Init)
  | clearTamper (i : Init)
  -- faults and recording
  | errorDetected (e : Element) (kind : Byte) (detail : BitVec 24)
  | eccCorr (page : Fin 128) (group : BitVec 20)
  | discardComplete
  | assayerTestStart (e : Element)
  | assayerTestDone (e : Element) (pass : Bool)
  | transientWindowClose (e : Element)
  | patrolTest (e : Element) (pass : Bool)
  | selftestStart (i : Init) (page : Fin 128) (v : Word)
  | fltmAck (i : Init)
  | fire (i : Init)
  | capture
  | recordWrite
  | freeze (i : Init)
  | unfreeze (i : Init)
  | freezeTimeout
  | clearPerm (i : Init)
  -- modes, start-up, update
  | modeWrite (i : Init) (v : Word)
  | sealedWrite (i : Init)
  | unsealCmd (i : Init)
  | unlock (i : Init)
  | protLock (i : Init)
  | fptGo (i : Init) (v : Word)
  | resetNLow
  | startUp (step : Fin 9) (x : StartUp)
  | vholdExhausted
  | pfwResetDeferred
  | updTakeLease (i : Init)
  | updRenew (i : Init)
  | updRelease (i : Init)
  | updSubmit (i : Init)
  | updCancel (i : Init)
  | updConfirm (i : Init)
  | updFail (i : Init)
  | patchBuildDone (nandOk : Bool)
  | leaseExpiry
  | actTimeReached
  | checkTimeout
  -- the host port, the service port, interrupts
  | perst
  | hostwinCAccess (off : BitVec 26) (wr : Option (List Byte)) (len : Nat)
  | svcAttach
  | regRead (cls : Cls) (tag : Word) (addr : DWord) (count : Nat)
  | regWrite (cls : Cls) (tag : Word) (addr : DWord) (vs : List Word)
  | memRead (cls : Cls) (tag : Word) (addr : DWord) (count : Nat)
  | memWrite (cls : Cls) (tag : Word) (addr : DWord) (vs : List Word)
  | winRead (cls : Cls) (tag : Word) (addr : DWord) (count : Nat)
  | irqPendSet (i : Init) (page : Fin 128) (v : Word)
  | irqPendClr (i : Init) (page : Fin 128) (v : Word)
  | irqMaskSet (i : Init) (page : Fin 128) (v : Word)
  | irqMaskClr (i : Init) (page : Fin 128) (v : Word)
  | pageEnable (i : Init) (page : Fin 128) (on : Bool)
  | softReset (i : Init) (page : Fin 128)
  | intcPendSet (i : Init) (k : Fin 8) (v : Word)
  | intcPendClr (i : Init) (k : Fin 8) (v : Word)
  | intcMaskSet (i : Init) (k : Fin 8) (v : Word)
  | intcMaskClr (i : Init) (k : Fin 8) (v : Word)
  | sleepGo (i : Init)
  | wakeFromSleep (src : BitVec 8)
  | ppsIn
  | correctionCycleEnd
  | ethLinkChange (port : Fin 18) (up : Bool)
  | hostLinkChange (up : Bool) (speed width : BitVec 2)
  | svcDetach
  | ppsOutEnd
  | pcieWakeTimeout
  deriving DecidableEq, Repr

end Sys2Proof
end

