-- ==== Sys2Proof/Decode.lean ====
section
/-!
DEFINITION. Decoding by the table's bits: no row of the opcode table has any.
-/

namespace Sys2Proof

/-- The command that a word spells by the bits of the opcode table: its rows give no bits, so no word spells one. -/
def decodeTableWord (_nbits _w : Nat) : Option Instr := none

end Sys2Proof
end

