-- ==== Sys2Proof/Machine/Bits.lean ====
section
/-!
DEFINITION. Bit fields, sign extension, byte order and rounding: the helpers that every block of the module uses.
Multi-byte fields are little-endian throughout (R188, R200, R223).
-/

namespace Sys2Proof.Machine

/-- Bits `[lo + n - 1 : lo]` of a register word, as a number. -/
def fld (w : Word) (lo n : Nat) : Nat := w.toNat / 2 ^ lo % 2 ^ n

/-- Bit `i` of a register word. -/
def bit (w : Word) (i : Nat) : Bool := w.toNat / 2 ^ i % 2 == 1

/-- `w` with bits `[lo + n - 1 : lo]` replaced by the low `n` bits of `v`. -/
def setFld (w : Word) (lo n v : Nat) : Word :=
  BitVec.ofNat 32 (w.toNat - fld w lo n * 2 ^ lo + v % 2 ^ n * 2 ^ lo)

/-- A Bool as a one-bit number. -/
def b2n (b : Bool) : Nat := if b then 1 else 0

/-- A register word from a number. -/
def w32 (n : Nat) : Word := BitVec.ofNat 32 n

/-- The low half of a 64-bit value. -/
def lo32 (n : Nat) : Word := BitVec.ofNat 32 n

/-- The high half of a 64-bit value. -/
def hi32 (n : Nat) : Word := BitVec.ofNat 32 (n / 2 ^ 32)

/-- Two halves put together. -/
def cat64 (hi lo : Word) : Nat := hi.toNat * 2 ^ 32 + lo.toNat

/-- The value of the low `n` bits of `v` read as two's complement. -/
def sgn (n v : Nat) : Int :=
  let m := v % 2 ^ n
  if m < 2 ^ (n - 1) then (m : Int) else (m : Int) - 2 ^ n

/-- A register word as a signed number. -/
def sw (w : Word) : Int := w.toInt

/-- An integer in 32-bit two's complement. -/
def i32 (x : Int) : Word := BitVec.ofInt 32 x

/-- `x` limited to `[lo, hi]`. -/
def clampI (lo hi x : Int) : Int := if x < lo then lo else if hi < x then hi else x

/-- `x` limited to `[lo, hi]`. -/
def clampN (lo hi x : Nat) : Nat := if x < lo then lo else if hi < x then hi else x

/-- `a / b` rounded up; 0 when `b` is 0. -/
def ceilDiv (a b : Nat) : Nat := if b = 0 then 0 else (a + b - 1) / b

/-- `a / b` rounded to nearest, ties away from zero (R33, R121); 0 when `b` is 0. -/
def roundAway (a : Int) (b : Nat) : Int :=
  if b = 0 then 0
  else if 0 ≤ a then (2 * a + b) / (2 * b) else -((2 * (-a) + b) / (2 * b))

/-- The little-endian number of a list of bytes. -/
def leNat : List Byte → Nat
  | [] => 0
  | b :: bs => b.toNat + 256 * leNat bs

/-- `n` bytes of `v`, least significant first. -/
def leBytes : Nat → Nat → List Byte
  | 0, _ => []
  | n + 1, v => BitVec.ofNat 8 v :: leBytes n (v / 256)

/-- `n` bytes of a byte list from offset `off`; bytes beyond its end read 0. -/
def slice (bs : List Byte) (off n : Nat) : List Byte :=
  (List.range n).map fun i => (bs.drop (off + i)).headD 0

/-- The little-endian field of `n` bytes at offset `off` of a byte list. -/
def leAt (bs : List Byte) (off n : Nat) : Nat := leNat (slice bs off n)

/-- Element `i` of a list, or `d` beyond its end. -/
def nthD {α : Type} (l : List α) (i : Nat) (d : α) : α := (l.drop i).headD d

/-- A list with its element `i` replaced; unchanged beyond its end. -/
def setNth {α : Type} : List α → Nat → α → List α
  | [], _, _ => []
  | _ :: xs, 0, v => v :: xs
  | x :: xs, i + 1, v => x :: setNth xs i v

end Sys2Proof.Machine
end

