-- ==== Sys2Proof/Machine/Crypto.lean ====
section
/-!
DEFINITION. The cryptographic functions that the spec names by their standards: SHA-256 and SHA-512, HMAC-SHA-256, CRC-32,
AES-256-GCM and Ed25519 verification (log 6). A digest, a tag or a key stands as the little-endian number of its bytes.
-/

namespace Sys2Proof.Crypto

open Sys2Proof.Machine

/-- `n` bytes of `v`, most significant first. -/
def bigBytes (n v : Nat) : List Byte := (leBytes n v).reverse

/-- The big-endian number of a byte list. -/
def bigNat (bs : List Byte) : Nat := leNat bs.reverse

/-- A byte list cut into pieces of `n` bytes, the last one as it is; `fuel` bounds their number. -/
def pieces (n : Nat) : Nat → List Byte → List (List Byte)
  | 0, _ => []
  | fuel + 1, bs => if bs.isEmpty then [] else bs.take n :: pieces n fuel (bs.drop n)

/-! ### SHA-256 and SHA-512 -/

/-- What tells the two hashes apart: the rotations of the two Σ, the rotations and the shift of the two σ. -/
structure ShaRule where
  big0 : Nat × Nat × Nat
  big1 : Nat × Nat × Nat
  small0 : Nat × Nat × Nat
  small1 : Nat × Nat × Nat
  deriving DecidableEq, Repr

/-- Σ: three rotations. -/
def shaBig {n : Nat} (r : Nat × Nat × Nat) (x : BitVec n) : BitVec n :=
  x.rotateRight r.1 ^^^ x.rotateRight r.2.1 ^^^ x.rotateRight r.2.2

/-- σ: two rotations and a shift. -/
def shaSmall {n : Nat} (r : Nat × Nat × Nat) (x : BitVec n) : BitVec n :=
  x.rotateRight r.1 ^^^ x.rotateRight r.2.1 ^^^ (x >>> r.2.2)

/-- One round on the eight working words. -/
def shaRound {n : Nat} (q : ShaRule) (st : List (BitVec n)) (k w : BitVec n) : List (BitVec n) :=
  match st with
  | [a, b, c, d, e, f, g, h] =>
    let t1 := h + shaBig q.big1 e + ((e &&& f) ^^^ (~~~e &&& g)) + k + w
    let t2 := shaBig q.big0 a + ((a &&& b) ^^^ (a &&& c) ^^^ (b &&& c))
    [t1 + t2, a, b, c, d + t1, e, f, g]
  | _ => st

/-- The rounds of one block: `win` holds the next sixteen words of its schedule. -/
def shaRounds {n : Nat} (q : ShaRule) : List (BitVec n) → List (BitVec n) → List (BitVec n) → List (BitVec n)
  | [], _, st => st
  | k :: ks, win, st =>
    let w (i : Nat) : BitVec n := nthD win i 0
    let next := shaSmall q.small1 (w 14) + w 9 + shaSmall q.small0 (w 1) + w 0
    shaRounds q ks (win.drop 1 ++ [next]) (shaRound q st k (w 0))

/-- The digest of a message, as its bytes: padded to whole blocks of sixteen words of `n` bits, each block in turn. -/
def shaDigest {n : Nat} (q : ShaRule) (ks h0 : List (BitVec n)) (msg : List Byte) : List Byte :=
  let wb := n / 8
  let blk := 16 * wb
  let zeros := (blk - (msg.length + 1 + 2 * wb) % blk) % blk
  let padded := msg ++ [0x80] ++ List.replicate zeros 0 ++ bigBytes (2 * wb) (8 * msg.length)
  let words (b : List Byte) : List (BitVec n) := (pieces wb 17 b).map fun x => BitVec.ofNat n (bigNat x)
  let out := (pieces blk (padded.length / blk + 1) padded).foldl
    (fun h b => h.zipWith (· + ·) (shaRounds q ks (words b) h)) h0
  out.flatMap fun x => bigBytes wb x.toNat

/-- The round constants of SHA-256. -/
def sha256K : List (BitVec 32) :=
    [0x428A2F98, 0x71374491, 0xB5C0FBCF, 0xE9B5DBA5, 0x3956C25B, 0x59F111F1, 0x923F82A4, 0xAB1C5ED5] ++
    [0xD807AA98, 0x12835B01, 0x243185BE, 0x550C7DC3, 0x72BE5D74, 0x80DEB1FE, 0x9BDC06A7, 0xC19BF174] ++
    [0xE49B69C1, 0xEFBE4786, 0x0FC19DC6, 0x240CA1CC, 0x2DE92C6F, 0x4A7484AA, 0x5CB0A9DC, 0x76F988DA] ++
    [0x983E5152, 0xA831C66D, 0xB00327C8, 0xBF597FC7, 0xC6E00BF3, 0xD5A79147, 0x06CA6351, 0x14292967] ++
    [0x27B70A85, 0x2E1B2138, 0x4D2C6DFC, 0x53380D13, 0x650A7354, 0x766A0ABB, 0x81C2C92E, 0x92722C85] ++
    [0xA2BFE8A1, 0xA81A664B, 0xC24B8B70, 0xC76C51A3, 0xD192E819, 0xD6990624, 0xF40E3585, 0x106AA070] ++
    [0x19A4C116, 0x1E376C08, 0x2748774C, 0x34B0BCB5, 0x391C0CB3, 0x4ED8AA4A, 0x5B9CCA4F, 0x682E6FF3] ++
    [0x748F82EE, 0x78A5636F, 0x84C87814, 0x8CC70208, 0x90BEFFFA, 0xA4506CEB, 0xBEF9A3F7, 0xC67178F2]

/-- The initial hash of SHA-256. -/
def sha256H : List (BitVec 32) :=
    [0x6A09E667, 0xBB67AE85, 0x3C6EF372, 0xA54FF53A, 0x510E527F, 0x9B05688C, 0x1F83D9AB, 0x5BE0CD19]

/-- The round constants of SHA-512. -/
def sha512K : List (BitVec 64) :=
    [0x428A2F98D728AE22, 0x7137449123EF65CD, 0xB5C0FBCFEC4D3B2F, 0xE9B5DBA58189DBBC] ++
    [0x3956C25BF348B538, 0x59F111F1B605D019, 0x923F82A4AF194F9B, 0xAB1C5ED5DA6D8118] ++
    [0xD807AA98A3030242, 0x12835B0145706FBE, 0x243185BE4EE4B28C, 0x550C7DC3D5FFB4E2] ++
    [0x72BE5D74F27B896F, 0x80DEB1FE3B1696B1, 0x9BDC06A725C71235, 0xC19BF174CF692694] ++
    [0xE49B69C19EF14AD2, 0xEFBE4786384F25E3, 0x0FC19DC68B8CD5B5, 0x240CA1CC77AC9C65] ++
    [0x2DE92C6F592B0275, 0x4A7484AA6EA6E483, 0x5CB0A9DCBD41FBD4, 0x76F988DA831153B5] ++
    [0x983E5152EE66DFAB, 0xA831C66D2DB43210, 0xB00327C898FB213F, 0xBF597FC7BEEF0EE4] ++
    [0xC6E00BF33DA88FC2, 0xD5A79147930AA725, 0x06CA6351E003826F, 0x142929670A0E6E70] ++
    [0x27B70A8546D22FFC, 0x2E1B21385C26C926, 0x4D2C6DFC5AC42AED, 0x53380D139D95B3DF] ++
    [0x650A73548BAF63DE, 0x766A0ABB3C77B2A8, 0x81C2C92E47EDAEE6, 0x92722C851482353B] ++
    [0xA2BFE8A14CF10364, 0xA81A664BBC423001, 0xC24B8B70D0F89791, 0xC76C51A30654BE30] ++
    [0xD192E819D6EF5218, 0xD69906245565A910, 0xF40E35855771202A, 0x106AA07032BBD1B8] ++
    [0x19A4C116B8D2D0C8, 0x1E376C085141AB53, 0x2748774CDF8EEB99, 0x34B0BCB5E19B48A8] ++
    [0x391C0CB3C5C95A63, 0x4ED8AA4AE3418ACB, 0x5B9CCA4F7763E373, 0x682E6FF3D6B2B8A3] ++
    [0x748F82EE5DEFB2FC, 0x78A5636F43172F60, 0x84C87814A1F0AB72, 0x8CC702081A6439EC] ++
    [0x90BEFFFA23631E28, 0xA4506CEBDE82BDE9, 0xBEF9A3F7B2C67915, 0xC67178F2E372532B] ++
    [0xCA273ECEEA26619C, 0xD186B8C721C0C207, 0xEADA7DD6CDE0EB1E, 0xF57D4F7FEE6ED178] ++
    [0x06F067AA72176FBA, 0x0A637DC5A2C898A6, 0x113F9804BEF90DAE, 0x1B710B35131C471B] ++
    [0x28DB77F523047D84, 0x32CAAB7B40C72493, 0x3C9EBE0A15C9BEBC, 0x431D67C49C100D4C] ++
    [0x4CC5D4BECB3E42B6, 0x597F299CFC657E2A, 0x5FCB6FAB3AD6FAEC, 0x6C44198C4A475817]

/-- The initial hash of SHA-512. -/
def sha512H : List (BitVec 64) :=
    [0x6A09E667F3BCC908, 0xBB67AE8584CAA73B, 0x3C6EF372FE94F82B, 0xA54FF53A5F1D36F1] ++
    [0x510E527FADE682D1, 0x9B05688C2B3E6C1F, 0x1F83D9ABFB41BD6B, 0x5BE0CD19137E2179]

/-- The digest bytes of SHA-256. -/
def sha256Bytes (msg : List Byte) : List Byte :=
  shaDigest ⟨(2, 13, 22), (6, 11, 25), (7, 18, 3), (17, 19, 10)⟩ sha256K sha256H msg

/-- The digest bytes of SHA-512. -/
def sha512Bytes (msg : List Byte) : List Byte :=
  shaDigest ⟨(28, 34, 39), (14, 18, 41), (1, 8, 7), (19, 61, 6)⟩ sha512K sha512H msg

/-- SHA-256 (R88, R200, R342; log 6). -/
@[irreducible] def sha256 (msg : List Byte) : BitVec 256 := BitVec.ofNat 256 (leNat (sha256Bytes msg))

/-- HMAC-SHA-256 of a key and a message (R228, R283, R285; log 6). -/
@[irreducible] def hmac (key msg : List Byte) : BitVec 256 :=
  let k := if 64 < key.length then sha256Bytes key else key
  let k := k ++ List.replicate (64 - k.length) 0
  let inner := sha256Bytes (k.map (fun x => x ^^^ 0x36) ++ msg)
  BitVec.ofNat 256 (leNat (sha256Bytes (k.map (fun x => x ^^^ 0x5C) ++ inner)))

/-! ### CRC-32 -/

/-- A CRC shifted by `k` bits, the reflected polynomial 0xEDB88320. -/
def crcShift : Nat → Word → Word
  | 0, c => c
  | k + 1, c => crcShift k (if bit c 0 then (c >>> 1) ^^^ 0xEDB88320#32 else c >>> 1)

/-- CRC-32 of ISO-HDLC and IEEE 802.3 (R200, R271, R317; log 6). -/
@[irreducible] def crc32 (bs : List Byte) : Word :=
  ~~~(bs.foldl (fun c b => crcShift 8 (c ^^^ w32 b.toNat)) 0xFFFFFFFF#32)

/-! ### AES-256-GCM -/

/-- A byte doubled in GF(2^8). -/
def gfDouble (x : Byte) : Byte := if x.msb then (x <<< 1) ^^^ 0x1B#8 else x <<< 1

/-- The product in GF(2^8), by the low `k` bits of `b`. -/
def gfMul : Nat → Byte → Byte → Byte
  | 0, _, _ => 0
  | k + 1, a, b => (if b.getLsbD 0 then a else 0) ^^^ gfMul k (gfDouble a) (b >>> 1)

/-- `a` to the power `2^(k+1) - 2`; the inverse for `k` = 7. -/
def gfPow : Nat → Byte → Byte
  | 0, _ => 1
  | k + 1, a => let s := gfMul 8 a a; gfMul 8 s (gfPow k s)

/-- The substitution of AES: the inverse under the affine map. -/
def aesSub (x : Byte) : Byte :=
  let y := gfPow 7 x
  y ^^^ y.rotateLeft 1 ^^^ y.rotateLeft 2 ^^^ y.rotateLeft 3 ^^^ y.rotateLeft 4 ^^^ 0x63#8

/-- A word of the AES-256 key schedule from the eight words before it, oldest first; `i` is its number. -/
def aesNext (prev : List (List Byte)) (i : Nat) : List Byte :=
  let t := nthD prev 7 []
  let rcon : Byte := 1#8 <<< (i / 8 - 1)
  let t :=
    if i % 8 = 0 then ((t.drop 1 ++ t.take 1).map aesSub).zipWith (· ^^^ ·) [rcon, 0, 0, 0]
    else if i % 8 = 4 then t.map aesSub
    else t
  (nthD prev 0 []).zipWith (· ^^^ ·) t

/-- The key schedule: `k` words more, from word `i` on. -/
def aesExpand : Nat → Nat → List (List Byte) → List (List Byte)
  | 0, _, _ => []
  | k + 1, i, prev =>
    let w := aesNext prev i
    w :: aesExpand k (i + 1) (prev.drop 1 ++ [w])

/-- The fifteen round keys of AES-256. -/
def aesKeys (key : List Byte) : List (List Byte) :=
  let k0 := pieces 4 9 (slice key 0 32)
  pieces 16 16 (k0 ++ aesExpand 52 8 k0).flatten

/-- The rows of a block shifted: byte `r + 4c` comes from column `c + r`. -/
def aesShift (b : List Byte) : List Byte := (List.range 16).map fun i => nthD b ((i + 4 * (i % 4)) % 16) 0

/-- A column mixed. -/
def aesMix (c : List Byte) : List Byte :=
  (List.range 4).map fun i =>
    let x (j : Nat) : Byte := nthD c ((i + j) % 4) 0
    gfDouble (x 0) ^^^ (gfDouble (x 1) ^^^ x 1) ^^^ x 2 ^^^ x 3

/-- The rounds of AES after the first key: the last one mixes no columns. -/
def aesRounds : List (List Byte) → List Byte → List Byte
  | [], b => b
  | k :: ks, b =>
    let b := aesShift (b.map aesSub)
    let b := if ks.isEmpty then b else (pieces 4 5 b).flatMap aesMix
    aesRounds ks (b.zipWith (· ^^^ ·) k)

/-- One block of AES-256. -/
def aesBlock (key b : List Byte) : List Byte :=
  match aesKeys key with
  | [] => b
  | k :: ks => aesRounds ks (b.zipWith (· ^^^ ·) k)

/-- The product of GCM in GF(2^128), by the low `k` bits of `x` from bit 127 down; `v` is halved at each. -/
def ghashMul (x : BitVec 128) : Nat → BitVec 128 → BitVec 128
  | 0, _ => 0
  | k + 1, v =>
    (if x.getLsbD k then v else 0) ^^^
      ghashMul x k (if v.getLsbD 0 then (v >>> 1) ^^^ (0xE1#128 <<< 120) else v >>> 1)

/-- GHASH of byte strings padded to whole blocks. -/
def ghash (h : BitVec 128) (bs : List Byte) : BitVec 128 :=
  (pieces 16 (bs.length / 16 + 1) bs).foldl (fun y b => ghashMul (y ^^^ BitVec.ofNat 128 (bigNat b)) 128 h) 0

/-- A byte string padded with zeros to whole blocks of 16. -/
def pad16 (bs : List Byte) : List Byte := bs ++ List.replicate ((16 - bs.length % 16) % 16) 0

/-- The bytes of a fragment sealed or opened with AES-256-GCM: key, nonce of 12 bytes, bytes (R225; log 6). -/
@[irreducible] def gcmText (key nonce bs : List Byte) : List Byte :=
  (((pieces 16 (bs.length / 16 + 1) bs).zipIdx).map fun e =>
    e.1.zipWith (· ^^^ ·) (aesBlock key (nonce ++ bigBytes 4 (e.2 + 2)))).flatten

/-- The tag of AES-256-GCM: key, additional data, nonce of 12 bytes, sealed bytes (R225; log 6). -/
@[irreducible] def gcmTag (key aad nonce ct : List Byte) : BitVec 128 :=
  let h := BitVec.ofNat 128 (bigNat (aesBlock key (List.replicate 16 0)))
  let y := ghash h (pad16 aad ++ pad16 ct ++ bigBytes 8 (8 * aad.length) ++ bigBytes 8 (8 * ct.length))
  BitVec.ofNat 128 (leNat ((bigBytes 16 y.toNat).zipWith (· ^^^ ·) (aesBlock key (nonce ++ bigBytes 4 1))))

/-! ### Ed25519 (RFC 8032) -/

/-- The prime of the field. -/
def edP : Nat := 2 ^ 255 - 19

/-- The order of the base point. -/
def edL : Nat := 2 ^ 252 + 27742317777372353535851937790883648493

/-- `a` to the power of the low `k` bits of `e`, modulo the prime. -/
def edPow (a e : Nat) : Nat → Nat
  | 0 => 1
  | k + 1 =>
    let r := edPow a (e / 2) k
    r * r % edP * (if e % 2 = 1 then a else 1) % edP

/-- The inverse modulo the prime. -/
def edInv (a : Nat) : Nat := edPow (a % edP) (edP - 2) 255

/-- The constant d of the curve. -/
def edD : Nat := (edP - 121665) * edInv 121666 % edP

/-- A point in extended coordinates. -/
structure EdPoint where
  x : Nat
  y : Nat
  z : Nat
  t : Nat
  deriving DecidableEq, Repr

/-- The sum of two points. -/
def edAdd (p q : EdPoint) : EdPoint :=
  let a := (p.y + edP - p.x) * (q.y + edP - q.x) % edP
  let b := (p.y + p.x) * (q.y + q.x) % edP
  let c := p.t * 2 % edP * edD % edP * q.t % edP
  let d := p.z * 2 % edP * q.z % edP
  let e := b + edP - a
  let f := d + edP - c
  let g := d + c
  let h := b + a
  ⟨e * f % edP, g * h % edP, f * g % edP, e * h % edP⟩

/-- A point times the low `k` bits of `n`. -/
def edMul (p : EdPoint) (n : Nat) : Nat → EdPoint
  | 0 => ⟨0, 1, 1, 0⟩
  | k + 1 =>
    let r := edMul p (n / 2) k
    let r2 := edAdd r r
    if n % 2 = 1 then edAdd r2 p else r2

/-- Two points are the same. -/
def edSame (p q : EdPoint) : Bool :=
  p.x * q.z % edP == q.x * p.z % edP && p.y * q.z % edP == q.y * p.z % edP

/-- The point that 32 bytes encode, if they encode one. -/
def edPoint (bs : List Byte) : Option EdPoint :=
  let n := leNat (slice bs 0 32)
  let y := n % 2 ^ 255
  let sign := n / 2 ^ 255
  if edP ≤ y then none
  else
    let u := (y * y + edP - 1) % edP
    let v := (edD * (y * y % edP) + 1) % edP
    let v3 := v * v % edP * v % edP
    let x := u * v3 % edP * edPow (u * v3 % edP * v3 % edP * v % edP) ((edP - 5) / 8) 255 % edP
    let vxx := v * (x * x % edP) % edP
    let x := if vxx = u then x else x * edPow 2 ((edP - 1) / 4) 255 % edP
    if v * (x * x % edP) % edP ≠ u ∨ (x = 0 ∧ sign = 1) then none
    else
      let x := if x % 2 = sign then x else edP - x
      some ⟨x, y, 1, x * y % edP⟩

/-- The base point: y = 4/5, x even. -/
def edBase : Option EdPoint := edPoint (leBytes 32 (4 * edInv 5 % edP))

/-- Whether an Ed25519 signature verifies: key, message, signature; the group equation with its cofactor, as RFC 8032 states
it (R88, R335, R342; log 6). -/
@[irreducible] def edVerify (key msg sig : List Byte) : Bool :=
  let r := slice sig 0 32
  let s := leNat (slice sig 32 32)
  match edPoint key, edPoint r, edBase with
  | some a, some rp, some b =>
    let k := leNat (sha512Bytes (r ++ slice key 0 32 ++ msg)) % edL
    decide (s < edL) && edSame (edMul (edMul b s 253) 8 4) (edMul (edAdd rp (edMul a k 253)) 8 4)
  | _, _, _ => false

end Sys2Proof.Crypto
end

