-- ==== Sys2Proof/Config.lean ====
section
/-!
DEFINITION. What the part fixes and what the spec leaves open. A constant with a value is a figure of the spec; an
`opaque` constant is a FREE VALUE: nothing in Lean can evaluate it or prove a value of it, so a statement about it
holds for every value it may have. Each names the log entry that declares it.
-/

namespace Sys2Proof.Config

/-- Fabric cycles per second (R33). -/
def fabricHz : Nat := 400000000

/-- The fractional bits of the phase accumulator (R33). -/
def accOne : Nat := 4294967296

/-- Bytes of DRAM (R306 keeps the top 1 MiB as a spare area, outside the addressable DRAM of R349). -/
def dramBytes : Nat := 4294967296 - 1048576

/-- What a byte of DRAM that nothing has written reads as. DESIGN CHOICE, unsafe (log 2). -/
def dramUnlisted : Byte := 0

/-- The vendor identifier of HOSTP.PCI_ID, from OTP (R347): a free value (log 3). -/
opaque pciVendor : BitVec 16

/-- The module identity of the OTP (R335): a free value (log 3). -/
opaque moduleIdentity : BitVec 128

/-- The root in force, a public key of the OTP or of the owner (R286): a free value (log 3). -/
opaque rootKey : Nat → BitVec 256

/-- A fresh free value: the word that the n-th open choice of a run gives (log 4). -/
opaque freeWord : Nat → Word

/-- A fresh free value of 64 bits (log 4). -/
opaque freeDWord : Nat → DWord

/-- A fresh free choice between two outcomes the spec leaves open (log 4). -/
opaque freeBool : Nat → Bool

/-- The random source of Locksmith: the n-th draw (R280): a free value (log 3). -/
opaque randomBytes : Nat → BitVec 256

/-- The 32-bit layout of the station status word that LDST loads: source cycle, AGE, MISSED. R63 names the three
parts and no layout: a free value of them (log 7). -/
opaque stationWord : Nat → Nat → Nat → Word

/-- A choice of the part where the spec states a formula and not its rounding: by what is computed and its exact data (log 5). -/
opaque pick : Nat → List Int → Nat

/-- The resampled value of a channel at a fabric cycle, from its selected samples, newest first, each with the fabric cycle it
stands at: the filter of R143 is given by its response alone (log 5). -/
opaque resample : Nat → Nat → List (Int × Int) → Int

/-- The DC filter of R139: last output, last input, input. No rounding is stated (log 5). -/
opaque highPass : Int → Int → Int → Int

/-- The row and column of the k-th value of P (upper triangle) and of A in a pattern, and the places of L below its diagonal, row
and column in permuted order: OFF_STRUCT and OFF_LSTRUCT are given no layout, a free value (R164, log 20). -/
opaque structP : List Byte → Nat → Nat × Nat
opaque structA : List Byte → Nat → Nat × Nat
opaque structL : List Byte → List (Nat × Nat)

/-- The solution of step 1 of R173 as FP32 words, x̃ then ν: from the entries of K (row, column, numerator, denominator), the
permutation and the right side. The elimination has no stated rounding: a free value (log 20). -/
opaque kktSolve : List (Nat × Nat × Int × Nat) → List Nat → List Word → List Word

/-- A byte of the streamed numeric factor of a solve, by its number and the byte's offset: its layout is not given (R166,
log 20). -/
opaque factorByte : Nat → Nat → Byte

/-- The first-step setpoints of a period's result x, by point, and the priority level they are written at: both are configured in
the supervisor's runtime (R184, log 57). -/
opaque setpoints : List Word → List (Nat × Word)
opaque setpointLevel : Nat

/-- How many requests beyond one the service port's queue holds (R358): the spec gives it no size, a free value (log 50). -/
opaque svcQueueMore : Nat

/-- What the tracker measures of the voltage reference at the n-th sample of its channel: fundamental magnitude in mV, frequency in
mHz, phase error in au (R38, R41). The spec gives no estimator: a free value (log 54). -/
opaque refSeen : Nat → Nat × Nat × Int

/-- The frequency in µHz that the tracker steers towards while LOCKED, from the reference's frequency in mHz and the phase error
in au (R48): the spec gives no control law. FREE VALUE (log 54). -/
opaque steer : Nat → Int → Nat

/-- The INPUT point that a digital input channel feeds, by the point map compiled with the program (R247, R257): no
table of the spec gives the map, a free value (log 12). -/
opaque diPoint : Nat → Option Nat

/-- The INPUT point that the counter or frequency of a digital input feeds (log 12). -/
opaque cntPoint : Nat → Option Nat

/-- The INPUT point that the frequency of a digital input feeds (R61, log 12). -/
opaque freqPoint : Nat → Option Nat

/-- The transmit objects that make up the output slot of a bus station, by the entry's identity field (R80): no table of the
spec names them, a free value (log 32). -/
opaque stationObjects : Nat → List Nat

/-- The INPUT point that a Weighhouse measurand feeds (log 12). -/
opaque measPoint : Nat → Option Nat

/-- The bus (0–7) and frame group (0–7) that a station table entry of source 1 names: the spec gives the field no layout
(R89, log 12). -/
opaque stationGroup : Nat → Nat × Nat

/-- The point values of a frame group's image: bus, group and the members' data (R247, log 12). -/
opaque groupMap : Nat → Nat → List (List Byte) → List (Nat × Word)

/-- The DRAM address of a buffer that the runtime has declared for SOLVE_DATA (R232): the spec gives no declaration, a
free value (log 23). -/
opaque solveBuffer : Nat → Option Nat

end Sys2Proof.Config
end

