-- ==== Sys2Proof/Machine/Sparse.lean ====
section
/-!
DEFINITION. Sparse maps held as lists of key and value pairs with strictly rising keys: memory, the register file,
the point store and every other table of the module. `look` and `put` keep no entry equal to what an unlisted key
reads as, so that equal contents are equal lists.
-/

namespace Sys2Proof.Machine

variable {α : Type}

/-- The value listed under a key, if one is. -/
def get? : List (Nat × α) → Nat → Option α
  | [], _ => none
  | (k, v) :: m, a => if k = a then some v else get? m a

/-- `m` with `v` listed under `a`, in key order. -/
def ins : List (Nat × α) → Nat → α → List (Nat × α)
  | [], a, v => [(a, v)]
  | (k, x) :: m, a, v =>
    if a < k then (a, v) :: (k, x) :: m
    else if a = k then (a, v) :: m
    else (k, x) :: ins m a v

/-- `m` with nothing listed under `a`. -/
def del : List (Nat × α) → Nat → List (Nat × α)
  | [], _ => []
  | (k, x) :: m, a => if k = a then del m a else (k, x) :: del m a

/-- What key `a` reads as, `d` being what an unlisted key reads as. -/
def look (d : α) (m : List (Nat × α)) (a : Nat) : α := (get? m a).getD d

/-- `m` with key `a` reading as `v`; the entry is dropped when `v` is what an unlisted key reads as. -/
def put [DecidableEq α] (d : α) (m : List (Nat × α)) (a : Nat) (v : α) : List (Nat × α) :=
  if v = d then del m a else ins m a v

/-- An element put into a list before the first that a measure does not place before it. -/
def insBy (f : α → Nat) (x : α) : List α → List α
  | [] => [x]
  | y :: ys => if f x ≤ f y then x :: y :: ys else y :: insBy f x ys

/-- A list in the order of a measure; elements of one measure keep their order. -/
def sortBy (f : α → Nat) (l : List α) : List α := l.foldr (insBy f) []

/-- The keys rise strictly. -/
def rising : List (Nat × α) → Bool
  | [] => true
  | (k, _) :: m => (match m with | [] => true | (j, _) :: _ => decide (k < j)) && rising m

/-- The canonical form: keys rise strictly and no entry equals what an unlisted key reads as. -/
def Memory.wf [DecidableEq α] (d : Nat → α) (m : List (Nat × α)) : Bool :=
  rising m && m.all fun e => e.2 != d e.1

end Sys2Proof.Machine
end

