-- ==== Sys2Proof/Machine/RegMap.lean ====
section
/-!
DEFINITION. The register pages (the page maps of every chapter and the page list of chapter 15): which offsets of a
page hold a register, which of its bits are RW, WO, W1C or W1S, what it holds after module reset, and whether it is a
statistics counter (R334).
-/

namespace Sys2Proof.Machine

/-- One row of a page map: `n` words from offset `off`, `stride` bytes apart. -/
structure RegRow where
  off : Nat
  n : Nat := 1
  stride : Nat := 4
  rw : Nat := 0
  wo : Nat := 0
  w1c : Nat := 0
  w1s : Nat := 0
  rst : Nat := 0
  stat : Bool := false
  rc : Bool := false
  deriving DecidableEq, Repr

/-- All 32 bits. -/
def full : Nat := 0xFFFFFFFF

/-- Read-only words. -/
def rRO (off : Nat) (n : Nat := 1) (rst : Nat := 0) : RegRow := { off, n, rst }
/-- Read-write words with their writable bits and reset value. -/
def rRW (off mask : Nat) (rst : Nat := 0) (n : Nat := 1) (stride : Nat := 4) : RegRow :=
  { off, n, stride, rw := mask, rst }
/-- A write-only word. -/
def rWO (off mask : Nat) (n : Nat := 1) : RegRow := { off, n, wo := mask }
/-- A W1C word. -/
def rC (off mask : Nat) (n : Nat := 1) : RegRow := { off, n, w1c := mask }
/-- A W1S word. -/
def rS (off mask : Nat) (n : Nat := 1) : RegRow := { off, n, w1s := mask }
/-- Statistics counters (R334). -/
def rCnt (off : Nat) (n : Nat := 1) : RegRow := { off, n, stat := true }

/-- The page header (chapter 15, "Page header registers"). -/
def headerRows : List RegRow :=
  [ rRO 0x000, rRO 0x004, { off := 0x008, rw := 0x1, wo := 0x2 }, rRO 0x00C, rRO 0x010, rS 0x014 full, rC 0x018 full,
    rRO 0x01C 1 0xFFFFFFFF, rS 0x020 full, rC 0x024 full, rRO 0x028, rRO 0x02C, rRO 0x030, rRO 0x034,
    { off := 0x038, rw := 0x1FFFFF, wo := 0x80000000 }, rRO 0x03C, rCnt 0x040 ]

/-- MOD (R346). -/
def modRows : List RegRow :=
  [ rRW 0x080 0xFF, rRO 0x084, rC 0x088 0x3F, rRW 0x08C 0xFF 0x1, rWO 0x090 0x1, rRW 0x094 full, rRW 0x098 full,
    rRW 0x09C 0x1FFF, rRO 0x0A0, rRO 0x0A4, rRO 0x0A8 ]
/-- PROT (R340, R386). -/
def protRows : List RegRow :=
  [ rS 0x080 0x1, rRO 0x084, rC 0x088 0x1, rRW 0x08C 0x77 0x22, rRW 0x090 0x1FF 0x2F, rRW 0x094 0x1FF 0xF,
    rRW 0x098 0xFFFFFF, { off := 0x09C, rw := 0x4000FFFF, wo := 0x80000000 }, rRW 0x0A0 0x1 0x1, rRW 0x0A4 0xFF,
    rRO 0x0A8 ]
/-- INTC (R361–R365). -/
def intcRows : List RegRow :=
  [ rRO 0x080 8, rS 0x0A0 full 8, rC 0x0C0 full 8, rRO 0x0E0 8, rS 0x100 full 8, rC 0x120 full 8,
    rRW 0x140 full 0 8, rRO 0x160 2 0x3FF, rRW 0x168 0xF 0 2, rWO 0x170 0x1, rRO 0x174, rRW 0x400 0x1F 0 256 ]
/-- FLTM (R322). -/
def fltmRows : List RegRow :=
  [ rRW 0x080 0xFF, rRO 0x084, rC 0x088 0x7F, rWO 0x08C 0x1, rRO 0x090, rCnt 0x094, rCnt 0x098, rRO 0x09C 2,
    rRO 0x0A4, rRO 0x100 128 ]
/-- TOLL (R366). -/
def tollRows : List RegRow :=
  [ rRW 0x080 0xFFFF 0x280A 5, rRW 0x094 0xFFFFFF 0x142828, rRW 0x098 0xFF 0x4, rRO 0x09C, rC 0x0A0 0xF,
    rCnt 0x200 15, rCnt 0x240 15, rCnt 0x280 15, rCnt 0x2C0 15, rCnt 0x300 15 ]
/-- LAC (R57). -/
def lacRows : List RegRow :=
  [ rRW 0x080 0x0FFF0F73 0x0A280000, rRO 0x084, rC 0x088 0x1FF, rRO 0x08C, rRO 0x090, rRO 0x094, rRO 0x098, rRO 0x09C,
    rCnt 0x0A0, rCnt 0x0A4, rRW 0x0A8 0xFFFF 0xA, rRW 0x0AC full, rRO 0x0B0 ]
/-- AET (R53): entry words 0 and 1 of 256 entries. -/
def aetRows : List RegRow :=
  [ rC 0x080 full 8, rRW 0x800 full 0x40000000 256 8, rRW 0x804 0xFFFFFF 0 256 8 ]
/-- SCAN (R86). -/
def scanRows : List RegRow :=
  [ rRW 0x080 0x7FFF7F 0x3013, rRW 0x084 0xFFFFFF 0x2000, rRW 0x088 0x7FFFFF 0x1000, rWO 0x08C full, rRO 0x090,
    rC 0x094 0x1FF, rRO 0x098 6, { off := 0x0B0, rc := true }, rCnt 0x0B4 5 ]
/-- SCANDBG (R87). -/
def scandbgRows : List RegRow :=
  [ rWO 0x080 0x7, rRO 0x084, rC 0x088 0x7, rRO 0x08C, rRW 0x090 0xC0003FFF 0 8, rRW 0x0B0 0xFFFF, rRO 0x0B4 7 ]
/-- PGMX (R110). -/
def pgmxRows : List RegRow :=
  [ rRW 0x080 0x3F 0x1, rWO 0x084 full, rRO 0x088, rC 0x08C 0xF, rRW 0x090 full 0 2, rRW 0x098 0x1FFFFFF,
    rRW 0x09C full 0 2, rRO 0x0A4 4, rC 0x0B4 0xF, rRO 0x0B8 2 ]
/-- FORCE (R111). -/
def forceRows : List RegRow :=
  [ rRO 0x080, rC 0x084 0x7, rRO 0x088 8, rRW 0x800 0x8003FFFF 0 256 8, rRW 0x804 full 0 256 8 ]
/-- LOOP (R131). -/
def loopRows : List RegRow :=
  [ rRO 0x080, rC 0x084 0x7F, rRO 0x088, rCnt 0x08C 2, rRO 0x0A0 8, rRO 0x0C0 8 ]
/-- LOOPBANK1–8 (R132): 32 loop records of 128 B, no page header. -/
def loopbankRows : List RegRow :=
  [ rRW 0x00 0x80001F3F 0x1000 32 128, rRW 0x04 0x7FF 0 32 128, rRW 0x08 0xFFFFFF 0 32 128,
    rRW 0x0C 0xFFFFFF 0xA0 32 128, rRW 0x10 0xF007FFFF 0 32 128, rRW 0x14 0xF007FFFF 0 32 128,
    rRW 0x18 0xF007FFFF 0 32 128, rRW 0x1C 0xF007FFFF 0 32 128, rRW 0x20 0xF007FFFF 0 32 128,
    rRW 0x24 full 0 32 128, rRW 0x28 full 0 32 128, rRW 0x2C full 0 32 128, rRW 0x30 full 0 32 128,
    rRW 0x34 full 0 32 128, rRW 0x38 full 0 32 128, rRW 0x3C full 0x10000 32 128, rRW 0x40 full 0 32 128,
    rRW 0x44 full 0 32 128, rRW 0x48 full 0 32 128, rRW 0x4C full 0 32 128, rRW 0x50 full 0x640000 32 128,
    rRW 0x54 full 0 32 128, rRW 0x58 full 0x40000000 32 128, rRW 0x5C full 0 32 128, rRW 0x60 full 0 32 128,
    rRW 0x64 full 0 32 128, rRW 0x68 full 0 32 128, rRW 0x6C full 0 32 128,
    { off := 0x70, n := 32, stride := 128 }, { off := 0x74, n := 32, stride := 128 },
    { off := 0x78, n := 32, stride := 128, w1c := 0x1FF }, { off := 0x7C, n := 32, stride := 128 } ]
/-- WGH (R160). -/
def wghRows : List RegRow :=
  [ rRO 0x080, rC 0x084 0xFF, rRO 0x088 4, rCnt 0x098 2, rRO 0x0A0 3 ]
/-- A channel record word of WGHCH, by its offset in the record. -/
def chRow (off mask rst : Nat) (n : Nat) (first : Nat) : RegRow :=
  { off := 0x100 + 0x100 * first + off, n, stride := 0x100, rw := mask, rst }
/-- WGHCH (R160): page 0x29 holds channels 1–8, the first six of them voltage channels. -/
def wghchRows (page : Nat) : List RegRow :=
  (if page = 0x29 then
     [ chRow 0x00 0x1F 0x9 6 0, chRow 0x00 0x1F 0xA 2 6, chRow 0x18 0 0 6 0, chRow 0x18 0 1 2 6 ]
   else [ chRow 0x00 0x1F 0xA 8 0, chRow 0x18 0 1 8 0 ]) ++
  [ chRow 0x04 full 0x3F800000 8 0, chRow 0x08 full 0x43660000 8 0, chRow 0x0C full 0x40000000 8 0,
    chRow 0x10 full 0x40000000 8 0, chRow 0x14 full 0 8 0,
    { off := 0x11C, n := 8, stride := 0x100, stat := true }, { off := 0x120, n := 8, stride := 0x100, stat := true },
    chRow 0x24 0 0 8 0, chRow 0x28 0 0 8 0, chRow 0x2C 0 0 8 0, chRow 0x30 0 0 8 0, chRow 0x34 0 0 8 0 ]
/-- WGHCIR (R160): 18 circuit records. -/
def wghcirRows : List RegRow :=
  { off := 0x100, n := 18, stride := 0x80, rw := 0x7FFFFFFF } ::
  ((List.range 16).map fun j => { off := 0x104 + 4 * j, n := 18, stride := 0x80 })
/-- WGHEN (R160). -/
def wghenRows : List RegRow :=
  [ rWO 0x080 full, rRO 0x084, rRW 0x088 0x7 0x2, rRO 0x08C 3, rRO 0x100 756, rRO 0xCD0 72 ]
/-- WGHPQ (R160). -/
def wghpqRows : List RegRow :=
  [ rRW 0x080 full 0x02056E5A, rRW 0x084 0x1FFF 0x2, rRO 0x088 3, rRO 0x200 128, rRO 0x800 512 ]
/-- FACT (R186). -/
def factRows : List RegRow :=
  [ rRW 0x080 0xFF01 0x1901, rRO 0x084 1 0x400000, rC 0x088 0xFF, rRW 0x08C 0xFFFF 0x2EE, rRW 0x090 0xFFF00000,
    rRW 0x094 full, rRO 0x098, rRW 0x09C 0x1, rRO 0x0A0, rCnt 0x0A4 5, rRO 0x100 16 ]
/-- FACTQ (R187): two queues. -/
def factqRows : List RegRow :=
  [ rRW 0x080 0xFFFFFF80 0 2 0x40, rRW 0x084 full 0 2 0x40, rRW 0x088 0xF 0x4 2 0x40, rRW 0x08C 0xFF 0 2 0x40,
    { off := 0x090, n := 2, stride := 0x40 }, rRW 0x094 0xFFFFFFC0 0 2 0x40, rRW 0x098 full 0 2 0x40,
    rRW 0x09C 0xFF 0 2 0x40, { off := 0x0A0, n := 2, stride := 0x40 }, { off := 0x0A4, n := 2, stride := 0x40 },
    rC 0x100 0x1F ]
/-- PTS (R207). -/
def ptsRows : List RegRow :=
  [ rRO 0x080, rC 0x084 0xF, rRW 0x088 0xFFFF, rRW 0x08C 0x37FF, rRW 0x090 full, rRW 0x094 full, rCnt 0x098 2,
    rRO 0x0A0, rCnt 0x0A4, rRO 0x0A8 ]
/-- TEN (R198). -/
def tenRows : List RegRow :=
  [ rC 0x080 0x3, rRW 0x084 0xFF, rRO 0x088, rCnt 0x08C, rRW 0x800 0xBF0FFFFF 0xBF001800,
    rRW 0x804 0x1FFFFFFF 0x01000000, rRW 0x808 0xBF0FFFFF 0x87001008 255 8, rRW 0x80C 0x1FFFFFFF 0x08000000 255 8 ]
/-- DAYB (R207). -/
def daybRows : List RegRow :=
  [ rRO 0x080 1 0x4000, rC 0x084 0x1F, rRW 0x088 0x7FFF 0x2000, rRO 0x08C 2, rRW 0x094 full 0 2, rCnt 0x09C 2,
    rRO 0x0A4 ]
/-- ETHn (R239, R222). -/
def ethRows : List RegRow :=
  [ rRW 0x080 0x3FFF003F 0x05EE0008, rRO 0x084, rC 0x088 0x1FF, rRW 0x08C full, rRW 0x090 0xFFFF, rRW 0x094 full 0 5,
    rRW 0x0A8 0xFFFFFF 0x00801030, rRW 0x0AC full 0x1432FFFF, rRW 0x0B0 0x3F 0x1, rC 0x0B4 full, rC 0x0B8 0x1FF,
    rRW 0x0C0 0xFFFFFFE0, rRW 0x0C4 full, rRW 0x0C8 0xF 0x6, rRW 0x0CC 0xFFF, rRO 0x0D0, rRW 0x0D4 0xFFFFFFE0,
    rRW 0x0D8 full, rRW 0x0DC 0xF 0x6, rRW 0x0E0 0xFFF, rRO 0x0E4, rCnt 0x200 46 ]
/-- OPX (R239). -/
def opxRows : List RegRow :=
  [ rRW 0x080 0x3FFFF 0x3C03A, rRO 0x084, rC 0x088 0xFF, rRW 0x08C 0xFFFFFF 0x32323C, rRW 0x090 0x1FFFFFF 0x320000,
    rRW 0x094 0xFFFF, rRW 0x098 0x7FF, rRO 0x09C 2, rWO 0x0A4 0x800007FF, rCnt 0x0A8 7 ]
/-- MBn (R264). -/
def mbRows : List RegRow :=
  [ rRW 0x080 0x7F 0x8, rWO 0x084 full, rRO 0x088, rC 0x08C 0x1FFF, rRW 0x090 0x7F7FFFFF 0x1F1F7E00,
    rRW 0x094 0x0F0F1F1F 0x07071E00, rRO 0x098, rRW 0x09C 0x1FFFFF, rRW 0x0A0 0x3FFFFFFF 0x1, rRW 0x0A4 0x3FFFFFFF,
    rRW 0x0A8 0x1FFFFFFF, rRW 0x0AC 0xF, rRW 0x0B0 full 0 4, rCnt 0x0C0 8, rRW 0x0E0 0x3F, rRW 0x0E4 0x1F,
    rRW 0x0E8 full 0 2, rRW 0x0F0 0xF 0x4, rRW 0x0F4 0x3FF, rRO 0x0F8, rRW 0x100 0x8001070F 0 8, rRO 0x120 40,
    rRW 0x200 0xBFFFFFFF 0 64 16, rRW 0x204 0x1FFFFFFF 0 64 16, rRW 0x208 0xF3 0 64 16,
    rRW 0x600 full 0 16 0x50, rRW 0x604 0xF 0 16 0x50, { off := 0x608, n := 16, stride := 0x50 },
    { off := 0x60C, n := 16, stride := 0x50 } ] ++
  ((List.range 16).map fun j => rRW (0x610 + 4 * j) full 0 16 0x50) ++
  [ { off := 0xB00, n := 16, stride := 0x50 },
    { off := 0xB04, n := 16, stride := 0x50, rw := 0xFFFF0000, w1c := 0x100 } ] ++
  ((List.range 18).map fun j => { off := 0xB08 + 4 * j, n := 16, stride := 0x50 })
/-- SFn (R264). -/
def sfRows : List RegRow :=
  [ rRW 0x080 0xFFFF 0x4D02, rRW 0x084 0xFFFFFF 0x100516, rRW 0x088 0xFFFFFF 0x40808, rRO 0x08C, rC 0x090 0x7F,
    rRW 0x094 full 0 2, rRW 0x09C 0xF, rRW 0x0A0 0xFFF, rRO 0x0A4, rRW 0x0A8 full 0 2, rRW 0x0B0 0xF, rRW 0x0B4 0xFFF,
    rRO 0x0B8, rCnt 0x0BC 4 ]
/-- FIO (R264). -/
def fioRows : List RegRow :=
  [ rRO 0x080, rC 0x084 0x7, rRO 0x088 3, rRW 0x094 0xFFFF, rRW 0x098 0xFF, rRW 0x09C 0xFFFF, rRW 0x0A0 0x3FF 0x32 16,
    rRW 0x0E0 full 0 8, rRO 0x100 24, rRO 0x160 16, rRO 0x1A0 16, rWO 0x1E0 0xFFFF, rCnt 0x1E4 ]
/-- SGN (R276). -/
def sgnRows : List RegRow :=
  [ rRW 0x080 0xFFFF1F 0xA1404, rRW 0x084 0x07FF07FF 0x05FF07FF, rRW 0x088 0x7F7F7F 0x0A3202, rRW 0x08C 0xFFF 0x400,
    rRW 0x090 0xFF7F 0x48, rRW 0x094 0xFFFF0000, rRW 0x098 full, rRW 0x09C 0xFFF00000, rRW 0x0A0 full, rRO 0x0A4,
    rWO 0x0A8 0x3, rRO 0x0AC, rC 0x0B0 0x3FF, rCnt 0x0B4 2, rRO 0x0BC 2 ]
/-- SGNRG (R276): 32 region records. -/
def sgnrgRows : List RegRow :=
  [ rRO 0x080, rC 0x084 full, rRW 0x100 0x07FF07FF 0 32 0x20, rRW 0x104 0x0FFF0FFF 0 32 0x20, rRW 0x108 full 0 32 0x20,
    rRW 0x10C full 0 32 0x20, rRW 0x110 0xFFFF 0x400 32 0x20, rRW 0x114 full 0 32 0x20,
    { off := 0x118, n := 32, stride := 0x20, rw := 0x3, wo := 0x4 }, { off := 0x11C, n := 32, stride := 0x20 } ]
/-- LOCK (R299). -/
def lockRows : List RegRow :=
  [ rRW 0x080 0xFFF03 0x3C03, rRO 0x084, rC 0x088 0x1F, rRW 0x08C 0x3F, rWO 0x090 0xF, rRW 0x094 0x3FFFFF0F, rRO 0x098,
    rRO 0x09C, rRO 0x0A0 2, rRW 0x0A8 full 0 2, rRW 0x0B0 0x1FF, rWO 0x0C0 full 8, rRO 0x0E0 8, rRO 0x100 64 ]
/-- WTCH (R299). -/
def wtchRows : List RegRow :=
  [ rRW 0x080 0x800003FF, rRW 0x084 0xFFFF 0x7DCE, rRO 0x088, rC 0x08C 0x3, rRO 0x090, rRO 0x100 64 ]
/-- CAL (R299). -/
def calRows : List RegRow :=
  [ rRW 0x080 0x3F, rRW 0x084 0x3F, rRW 0x088 0x1F, rRW 0x08C 0x7, rRW 0x090 0x1F 0x1, rRW 0x094 0xF 0x1,
    rRW 0x098 0xFFF 0x7D0, rRO 0x09C, rRO 0x0A0, rC 0x0A4 0x3F, rRW 0x0A8 0xFF, rRW 0x0B0 0x071F3F3F,
    rRW 0x0B4 0x0FFF0F1F, rRW 0x0B8 0x77F 0x7F, rRW 0x0BC 0x071F3F3F, rRW 0x0C0 0x0FFF0F1F, rRW 0x0C4 0x77F 0x7F ]
/-- BKP (R299). -/
def bkpRows : List RegRow :=
  [ rRO 0x080 1 0x5, rC 0x084 0x7, rWO 0x088 0x7, rRW 0x08C full, rRO 0x090 4, rRW 0x100 full 0 16 ]
/-- SCRV (R322). -/
def scrvRows : List RegRow :=
  [ rRW 0x080 0xFF 0xA, rWO 0x084 0x7, rRO 0x088, rC 0x08C 0x1F, rRO 0x090, rRO 0x094 1 0x800, rCnt 0x098 2,
    rRW 0x0A0 0x3F, rRW 0x0A4 0x8000FF1F, rRW 0x100 0xFFFFC 0 24 ]
/-- UPD (R386). -/
def updRows : List RegRow :=
  [ rRW 0x080 0xFFFF 0xA3C, rWO 0x084 0x7, rRO 0x088, rC 0x08C 0x1F, rRW 0x090 full 0 2, rRW 0x098 0x7FFFFFF,
    rRO 0x09C 7 ]
/-- HOSTP (R366). -/
def hostpRows : List RegRow :=
  [ rRW 0x080 0x7 0x2, rRO 0x084, rC 0x088 0x3F, rRO 0x08C 4, rRW 0x09C 0xFC000000, rRW 0x0A0 full,
    rRO 0x0A4, rCnt 0x0A8 3 ]

/-- The block types of the page list; `none` for a page index without a block (R357). -/
def pageType (p : Nat) : Option Nat :=
  if p = 0x00 then some 0x0001 else if p = 0x01 then some 0x0002 else if p = 0x02 then some 0x0003
  else if p = 0x03 then some 0x0004 else if p = 0x04 then some 0x0005 else if p = 0x08 then some 0x0010
  else if p = 0x09 ∨ p = 0x0A then some 0x0011 else if p = 0x10 then some 0x0020 else if p = 0x11 then some 0x0021
  else if p = 0x12 then some 0x0022 else if p = 0x13 then some 0x0023 else if p = 0x18 then some 0x0028
  else if 0x19 ≤ p ∧ p ≤ 0x20 then some 0 else if p = 0x28 then some 0x0030
  else if 0x29 ≤ p ∧ p ≤ 0x2B then some 0x0031 else if p = 0x2C then some 0x0032 else if p = 0x2D then some 0x0033
  else if p = 0x2E then some 0x0034 else if p = 0x30 then some 0x0038 else if p = 0x31 then some 0x0039
  else if p = 0x38 then some 0x0040 else if p = 0x39 then some 0x0041 else if p = 0x3A then some 0x0042
  else if 0x40 ≤ p ∧ p ≤ 0x51 then some 0x0048 else if p = 0x58 then some 0x0049
  else if 0x60 ≤ p ∧ p ≤ 0x67 then some 0x0050 else if 0x68 ≤ p ∧ p ≤ 0x6B then some 0x0051
  else if p = 0x6C then some 0x0052 else if p = 0x70 then some 0x0058 else if p = 0x71 then some 0x0059
  else if p = 0x78 then some 0x0060 else if p = 0x79 then some 0x0061 else if p = 0x7A then some 0x0062
  else if p = 0x7B then some 0x0063 else if p = 0x7C then some 0x0064 else if p = 0x7E then some 0x0068
  else if p = 0x7F then some 0x0070 else none

/-- The 1-based number of a page among the pages of its block type. -/
def pageNumber (p : Nat) : Nat :=
  if p = 0x0A then 2 else if 0x29 ≤ p ∧ p ≤ 0x2B then p - 0x28 else if 0x40 ≤ p ∧ p ≤ 0x51 then p - 0x3F
  else if 0x60 ≤ p ∧ p ≤ 0x67 then p - 0x5F else if 0x68 ≤ p ∧ p ≤ 0x6B then p - 0x67 else 1

/-- Whether a page's PG_CTRL.ENABLE is writable (the page list). -/
def enableWritable (p : Nat) : Bool :=
  p == 0x18 || p == 0x30 || (0x40 ≤ p && p ≤ 0x51) || p == 0x58 || (0x60 ≤ p && p ≤ 0x6C) || p == 0x70

/-- LOOPBANK1–8, which have no page header (R132). -/
def isLoopbank (p : Nat) : Bool := 0x19 ≤ p && p ≤ 0x20

/-- A page of feature D (R2). -/
def featureD (p : Nat) : Bool := p == 0x30 || p == 0x31
/-- A page of feature M (R2). -/
def featureM (p : Nat) : Bool := 0x28 ≤ p && p ≤ 0x2E
/-- A page of feature E (R2). -/
def featureE (p : Nat) : Bool := p == 0x70 || p == 0x71

/-- The block-specific rows of a page. -/
def blockRows (p : Nat) : List RegRow :=
  if p = 0x00 then modRows else if p = 0x01 then protRows else if p = 0x02 then intcRows
  else if p = 0x03 then fltmRows else if p = 0x04 then tollRows else if p = 0x08 then lacRows
  else if p = 0x09 ∨ p = 0x0A then aetRows else if p = 0x10 then scanRows else if p = 0x11 then scandbgRows
  else if p = 0x12 then pgmxRows else if p = 0x13 then forceRows else if p = 0x18 then loopRows
  else if isLoopbank p then loopbankRows else if p = 0x28 then wghRows
  else if 0x29 ≤ p ∧ p ≤ 0x2B then wghchRows p else if p = 0x2C then wghcirRows else if p = 0x2D then wghenRows
  else if p = 0x2E then wghpqRows else if p = 0x30 then factRows else if p = 0x31 then factqRows
  else if p = 0x38 then ptsRows else if p = 0x39 then tenRows else if p = 0x3A then daybRows
  else if 0x40 ≤ p ∧ p ≤ 0x51 then ethRows else if p = 0x58 then opxRows
  else if 0x60 ≤ p ∧ p ≤ 0x67 then mbRows else if 0x68 ≤ p ∧ p ≤ 0x6B then sfRows else if p = 0x6C then fioRows
  else if p = 0x70 then sgnRows else if p = 0x71 then sgnrgRows else if p = 0x78 then lockRows
  else if p = 0x79 then wtchRows else if p = 0x7A then calRows else if p = 0x7B then bkpRows
  else if p = 0x7C then scrvRows else if p = 0x7E then updRows else if p = 0x7F then hostpRows else []

/-- All rows of a page. -/
def pageRows (p : Nat) : List RegRow :=
  if isLoopbank p then loopbankRows else if (pageType p).isSome then headerRows ++ blockRows p else []

/-- A row covers an offset. -/
def RegRow.covers (r : RegRow) (off : Nat) : Bool :=
  decide (r.off ≤ off) && (off - r.off) % r.stride == 0 && decide ((off - r.off) / r.stride < r.n)

/-- The page of a register address, page × 0x1000 + offset. -/
def pageOf (a : Nat) : Nat := a / 4096
/-- The offset of a register address in its page. -/
def offOf (a : Nat) : Nat := a % 4096
/-- The address of an offset of a page. -/
def reg (page off : Nat) : Nat := page * 4096 + off

/-- The row of a register address; `none` at a reserved offset (R6). -/
def rowOf (a : Nat) : Option RegRow := (pageRows (pageOf a)).find? fun r => r.covers (offOf a)

/-- PG_ID (R3, the page list). -/
def pgId (p : Nat) : Word := w32 ((pageType p).getD 0 * 65536 + pageNumber p * 256 + 1)

/-- What a register holds after module reset. -/
def resetVal (a : Nat) : Word :=
  match rowOf a with
  | none => 0
  | some r =>
    if isLoopbank (pageOf a) then w32 r.rst
    else if offOf a = 0x000 then pgId (pageOf a)
    else if offOf a = 0x004 then 1
    else if offOf a = 0x008 then (if enableWritable (pageOf a) then 0 else 1)
    else if a = reg 0x7F 0x0A4 then w32 (0x4816 * 65536 + Config.pciVendor.toNat)
    else w32 r.rst

/-- The write-1-to-clear events register of a page (R359); `none` for a page without one. -/
def evtAddr (p : Nat) : Option Nat :=
  if p = 0x00 ∨ p = 0x01 ∨ p = 0x03 ∨ p = 0x08 ∨ p = 0x11 ∨ p = 0x30 ∨ p = 0x58 ∨ p = 0x78 ∨ p = 0x7F
     ∨ (0x40 ≤ p ∧ p ≤ 0x51) then some (reg p 0x088)
  else if p = 0x04 then some (reg p 0x0A0)
  else if p = 0x10 then some (reg p 0x094)
  else if p = 0x12 ∨ p = 0x79 ∨ p = 0x7C ∨ p = 0x7E ∨ (0x60 ≤ p ∧ p ≤ 0x67) then some (reg p 0x08C)
  else if p = 0x13 ∨ p = 0x18 ∨ p = 0x28 ∨ p = 0x38 ∨ p = 0x3A ∨ p = 0x6C ∨ p = 0x7B then some (reg p 0x084)
  else if p = 0x31 then some (reg p 0x100)
  else if p = 0x39 then some (reg p 0x080)
  else if 0x68 ≤ p ∧ p ≤ 0x6B then some (reg p 0x090)
  else if p = 0x70 then some (reg p 0x0B0)
  else if p = 0x7A then some (reg p 0x0A4)
  else none

/-- The page index of each name of the page list that the model uses. -/
def pMOD : Nat := 0x00
def pPROT : Nat := 0x01
def pINTC : Nat := 0x02
def pFLTM : Nat := 0x03
def pTOLL : Nat := 0x04
def pLAC : Nat := 0x08
def pAET : Nat := 0x09
def pSCAN : Nat := 0x10
def pSCANDBG : Nat := 0x11
def pPGMX : Nat := 0x12
def pFORCE : Nat := 0x13
def pLOOP : Nat := 0x18
def pWGH : Nat := 0x28
def pWGHEN : Nat := 0x2D
def pWGHPQ : Nat := 0x2E
def pFACT : Nat := 0x30
def pFACTQ : Nat := 0x31
def pPTS : Nat := 0x38
def pTEN : Nat := 0x39
def pDAYB : Nat := 0x3A
def pETH : Nat := 0x40
def pOPX : Nat := 0x58
def pMB : Nat := 0x60
def pSF : Nat := 0x68
def pFIO : Nat := 0x6C
def pSGN : Nat := 0x70
def pSGNRG : Nat := 0x71
def pLOCK : Nat := 0x78
def pWTCH : Nat := 0x79
def pCAL : Nat := 0x7A
def pBKP : Nat := 0x7B
def pSCRV : Nat := 0x7C
def pUPD : Nat := 0x7E
def pHOSTP : Nat := 0x7F
/-- TEN.QREF_COUNT of tenant t stands at offset 4·t under this number, which no access path names: the register shows
the one of TEN.SEL (R198). -/
def pTENQ : Nat := 0x100

end Sys2Proof.Machine
end

