-- ==== Sys2Proof/Machine/State.lean ====
section
/-!
DEFINITION. The state of the module as plain data: everything the spec names, one structure per block, and the queue
of commands that wait. `State.reset` is the module right after a module reset, before start-up step 1 (log 8).
-/

namespace Sys2Proof.Machine

/-- Why the module would stop. The spec gives every command an effect, so no meaning answers one (see NOTES.md,
'## Stops'). -/
inductive Fault where
  /-- Raised by no meaning: the module reports its errors in registers and goes on (R301–R313). Safe. -/
  | none
  deriving DecidableEq, Repr

/-- Why the model would decline a command. -/
inductive Refusal where
  /-- Raised by an arm of `exec` whose command has no meaning yet, with the command's mnemonic. Safe. -/
  | notModelled (mnemonic : String)
  deriving DecidableEq, Repr

/-- The phase accumulator and the fabric clock (R33, R48). -/
structure Clock where
  /-- the accumulator, in units of 2^-32 au; its integer part is LAC.ANGLE -/
  acc : Nat
  /-- fabric cycles since module reset -/
  fabric : Nat
  /-- the tracked frequency in µHz -/
  freq : Nat
  /-- the frequency the tracker moves to under the slew limit of R39 -/
  target : Nat
  /-- the fabric cycle up to which the slew limit has been spent -/
  slewAt : Nat
  /-- the correction of the cycle in progress in au: positive quickens, negative slows -/
  corrNow : Int
  /-- what of the correction is left for the cycles after it -/
  corrLeft : Int
  /-- the position at which the correction of the cycle in progress ends -/
  corrEnd : Nat
  deriving DecidableEq, Repr

/-- What only a few commands may change: the mode flags, the locks, the life-cycle, the counters that never fall and
the part's fuses. -/
structure Guard where
  /-- MOD.MODE (R323, R324) -/
  mode : BitVec 8
  /-- PROT.LOCK (R340) -/
  protLock : Bool
  /-- MOD.STAT.OPERATIONAL (R337) -/
  operational : Bool
  /-- the start-up step in progress, 1–9; 0 after OPERATIONAL (R337) -/
  step : Nat
  /-- DEAD and its record in the boot configuration (R345) -/
  dead : Bool
  /-- the module safe state (R313) -/
  safe : Bool
  /-- the LOCKDOWN record of the boot configuration (R325) -/
  lockdownRec : Bool
  /-- UNLOCK_ARMED of the boot configuration (R335) -/
  unlockArmed : Bool
  /-- both copies of the boot configuration fail their CRC (R339) -/
  bootBad : Bool
  /-- MOD.BOOT_MODE, held in MRAM (R339) -/
  bootMode : BitVec 8
  /-- UPD.ARB, the anti-rollback sequence (R344) -/
  arb : Nat
  /-- MOD.SCMD_CTR, held in MRAM (R335) -/
  scmdCtr : Nat
  /-- LOCK.ATT_CTR, held in MRAM (R285) -/
  attCtr : Nat
  /-- the life-cycle of OTP: 0 BLANK, 1 MANUFACTURED, 2 OWNED, 3 RETIRED (R286) -/
  lifecycle : Nat
  /-- feature D, the dispatch solver (R2) -/
  fD : Bool
  /-- feature M, billing metering (R2) -/
  fM : Bool
  /-- feature E, the evacuation display (R2) -/
  fE : Bool
  /-- sleep (R365) -/
  asleep : Bool
  /-- PGOOD (R337, R378) -/
  pgood : Bool
  /-- RESET_N low (R377) -/
  inReset : Bool
  /-- the start that BOOT1 and BOOT0 selected: 0 normal, 1 recovery, 2 factory test (R338) -/
  boot : Nat
  deriving DecidableEq, Repr

/-- Where the answer of a request goes. -/
inductive Sink where
  | none
  /-- a host access at a window offset; `wr` for a write (R353) -/
  | host (off : Nat) (wr : Bool)
  /-- word `idx` of the service request `tag` (R358) -/
  | svc (tag idx : Nat)
  /-- entry `idx` of OPX message `sq` of a session slot (R232) -/
  | opx (slot sq idx : Nat)
  /-- an initiator's own access of a register or window address -/
  | own (w : Who) (addr : Nat)
  deriving DecidableEq, Repr

/-- What a request asks for. -/
inductive Body where
  | regRead (addr : Nat)
  | regWrite (addr : Nat) (v : Word)
  /-- a register write with partial byte enables (R350) -/
  | regWritePart (addr : Nat)
  /-- a read of HOSTWIN_A beyond the register pages -/
  | winRead (off : Nat)
  /-- a write to a read-only window or to the reserved range (R349) -/
  | winWrite (off : Nat)
  /-- a POINT_READ entry (R232) -/
  | pointRead (p : Nat)
  /-- a commanded write: the COMMAND word of R193 -/
  | command (p : Nat) (w : Nat)
  | dramRead (addr : Nat) (len : Nat)
  | dramWrite (addr : Nat) (bytes : List Byte)
  /-- a complete OPX message at the session service (R234) -/
  | message (slot sq : Nat)
  deriving DecidableEq, Repr

/-- A request on its way through the stages of R30. -/
structure Req where
  who : Who
  cls : Cls
  body : Body
  sink : Sink
  /-- the TOLL resources still to pass before visibility, the one it waits at first -/
  path : List Nat
  /-- it has passed visibility and rights and waits for admission to the Daybook (R201) -/
  logging : Bool
  /-- the count and the fabric cycle at its arrival at the resource it waits at -/
  arrived : Nat
  cyc : Nat
  /-- the accounting window of that arrival -/
  arrWin : Nat
  /-- the waits at the resources before, in au (R24) -/
  waited : Nat
  /-- some resource granted it in a later window than that of its arrival (R29) -/
  later : Bool
  deriving DecidableEq, Repr

/-- A reply of a read or write: outcome word and data. -/
structure Answer where
  outcome : Nat
  data : List Word
  deriving DecidableEq, Repr

/-- A multi-word message whose answers are being collected (R232, R358). -/
structure Assembly where
  svc : Bool
  /-- session slot, or 0 -/
  slot : Nat
  /-- TAG or SEQ -/
  tag : Nat
  /-- OP of R358 or message type of R232 -/
  op : Nat
  cls : Cls
  /-- the message's own outcome word (R232) -/
  outcome : Nat
  need : Nat
  got : List (Nat × Answer)
  /-- the entries not yet sent on, in order: each waits for the answer of the one before (R232) -/
  todo : List Body
  deriving DecidableEq, Repr

/-- An answer that has left the module: whom it is for, its tag, outcome word and data. -/
structure Reply where
  to_ : Who
  tag : Nat
  outcome : Nat
  data : List Word
  deriving DecidableEq, Repr

/-- TOLL, the service-class arbiter (R14–R32). Resource keys: 0–4 the fabric ports of the field, network, compute and
vault regions and of the module level, 5 DRAM, 6 OPX session service, 7 the point-store port, 8 the Daybook. -/
structure Toll where
  /-- accounting windows started since module reset -/
  win : Nat
  /-- the count at the start of the window -/
  winStart : Nat
  /-- grants of the window by resource key × 8 + class -/
  used : List (Nat × Nat)
  /-- grants of the window to tenants within class TENANT, by resource key × 256 + tenant -/
  tenUsed : List (Nat × Nat)
  /-- point-store requests started in the window, by tenant (R198) -/
  rate : List (Nat × Nat)
  /-- the requests that wait, in order of arrival -/
  waiting : List Req
  /-- the requests that the host port and the service port hold at their own interfaces, in order of arrival (R25, R355,
  R358) -/
  held : List Req
  /-- budget faults of the window, by resource number × 2^16 + class × 2^8 + issuer (R26) -/
  faulted : List Nat
  /-- the BUDGET words in force, by resource number (R366) -/
  budget : List (Nat × Word)
  /-- the WEIGHTS in force -/
  weights : Word
  /-- the DELAY in force, in scan periods -/
  delay : Nat
  /-- the tenant table words in force (R198) -/
  ten : List (Nat × Word)
  /-- messages whose answers are being collected -/
  asm : List Assembly
  deriving DecidableEq, Repr

/-- The tracker's states (R44). -/
inductive Track where
  | acquire | locked | flywheel | synthetic
  deriving DecidableEq, Repr

/-- Where ACQUIRE was entered from (R44). -/
inductive From where
  | reset | locked | synthetic
  deriving DecidableEq, Repr

/-- An action due to fire: its entry, the nominal position it carries, whether it is LATE (R49, R50, R55), and the entry's words
as they stood when the position was reached (R53). -/
structure Fire where
  entry : Nat
  pos : Nat
  late : Bool
  w0 : Word
  w1 : Word
  deriving DecidableEq, Repr

/-- Millwheel, the line-angle clock, beside its count (R33–R57). -/
structure Lac where
  /-- the tracker has started (R44) -/
  started : Bool
  track : Track
  from_ : From
  inService : Bool
  /-- the reference in use is valid (R41–R43) -/
  refValid : Bool
  /-- the fabric cycle at which the tracker last left LOCKED, while the flywheel time runs -/
  fly : Option Nat
  /-- the last position evaluated for angle events (R45, R49) -/
  evald : Nat
  /-- actions deferred to following fabric cycles (R55) -/
  deferred : List Fire
  /-- the fabric cycle of the last sync pulse, its compensated position, and the good pulses in a row (R42) -/
  syncAt : Option Nat
  syncGood : Nat
  /-- the fabric cycle of the last accepted TIME_REF and the good ones in a row (R43) -/
  netAt : Option Nat
  netGood : Nat
  /-- the arrival of the last TIME_REF at its MAC, as a count (R237) -/
  netArr : Option Nat
  /-- the master's position minus the local one, as last observed (R46, R237) -/
  netOff : Int
  /-- the voltage channel of the reference in force, 0–5 = MV1–MV6 (R38) -/
  refch : Nat
  /-- the voltage reference has become invalid: it is valid again under the hysteresis of R41 -/
  sagged : Bool
  /-- what the tracker has measured last of its reference (R38, R41, R57) -/
  seen : RefSeen
  /-- the fabric cycle at which the tracker started (R44) -/
  startAt : Nat
  /-- the cycle period held at the last sync pulse, in fabric cycles (R42) -/
  syncPer : Nat
  /-- the counts before and after the last forward step: the positions between were skipped (R49, R118, R142) -/
  stepFrom : Nat
  stepTo : Nat
  /-- the position from which the tracker has been LOCKED to VOLTAGE with no step, and the last spans in which it was (R145) -/
  syncFrom : Option Nat
  spans : List (Nat × Nat)
  deriving DecidableEq, Repr

/-- A point record (R188). `pa` holds the entries of the occupied levels. -/
structure Point where
  cls : Nat
  ty : Ty
  tenant : Nat
  priv : Bool
  forceable : Bool
  retired : Bool
  value : Word
  level : Nat
  qual : Nat
  seq : Word
  ts : Nat
  writer : Word
  pa : List (Nat × Word)
  relq : Word
  eu : Word
  /-- the value of an output force that stands on the point (R192) -/
  forced : Option Word
  deriving DecidableEq, Repr

/-- A record that does not exist: CLASS NONE and every field 0. -/
def Point.absent : Point :=
  ⟨0, .bool, 0, false, false, false, 0, 0, 0, 0, 0, 0, [], 0, 0, none⟩

/-- A Daybook entry (R200), without its CRC. -/
structure DayEntry where
  seq : Nat
  cal : DWord
  pos : Nat
  origin : Word
  kind : Nat
  target : Nat
  old : DWord
  new : DWord
  outcome : Nat
  hashed : Bool
  gap : Bool
  level : Nat
  cls : Cls
  deriving DecidableEq, Repr

/-- The Daybook (R200–R206). -/
structure Dayb where
  /-- HEAD_SEQ -/
  head : Nat
  /-- DRAIN_SEQ -/
  drain : Nat
  /-- the ring, by slot -/
  ring : List (Nat × DayEntry)
  /-- reserved slots whose entries are still to be written, in SEQ order -/
  reserved : List DayEntry
  /-- hardware entries lost since the last entry written (R204, R205) -/
  lost : Nat
  /-- admission limited to SAFETY and CONTROL (R206) -/
  powerFail : Bool
  /-- retired slots (R206) -/
  retired : List Nat
  deriving DecidableEq, Repr

/-- A function-block record of 16 bytes (R97–R99). -/
structure Fb where
  /-- bytes 0–7: START, or CV in its low half -/
  lo : DWord
  /-- bytes 8–11: ET -/
  et : Word
  /-- byte 12: IN_PREV or INPUT_PREV or PREV, Q, RUNNING -/
  fl : Byte
  /-- byte 13: UNIT -/
  unit : Byte
  deriving DecidableEq, Repr

/-- An instance whose record is all zero. -/
def Fb.zero : Fb := ⟨0, 0, 0, 0⟩

/-- A value of an input image with its type and quality word (R64). -/
structure Slot where
  ty : Ty
  val : Word
  qual : Nat
  deriving DecidableEq, Repr

/-- A source that a write, an arrival or a result has changed, with what it was before: kind 0 a point (`sub` its level), 1 a
word of a loop record (`sub` its offset), 2 a measurand, a digital input or a counter (`sub` which of the three), 3 a
word of an angle event table entry (R53); the count and the fabric cycle of the change, and its place in the order of R20 (R37, R113, R191). -/
structure Past where
  kind : Nat
  idx : Nat
  sub : Nat
  pos : Nat
  cyc : Nat
  ord : Nat
  old : Slot
  deriving DecidableEq, Repr

/-- What a segment stages for a point: a value, or a relinquish (R95). -/
inductive Stg where
  | value (v : Word)
  | relinquish
  deriving DecidableEq, Repr

/-- What one execution of a segment leaves: its flags, writes, staged outputs, setpoints and events (R95, R96). -/
structure SegRes where
  fl : Nat
  words : List (Nat × Word)
  fbs : List (Nat × Fb)
  outs : List (Nat × Stg)
  sps : List (Nat × Word)
  evts : List (Nat × Word)
  deriving DecidableEq, Repr

/-- No effect yet. -/
def SegRes.empty : SegRes := ⟨0, [], [], [], [], []⟩

/-- One scan in Loom: the last latched one, or one in speculation (R66–R75). -/
structure Scan where
  latched : Bool
  /-- nominal timestamp (R68) -/
  nom : Nat
  /-- the count at the latch -/
  latchAt : Nat
  ready : Bool
  /-- au from latch to ready -/
  readyAfter : Nat
  /-- the values the segments read, by point index -/
  image : List (Nat × Slot)
  /-- the true latched values, by point index (R74) -/
  truth : List (Nat × Slot)
  /-- the predicted values, by point index (R70) -/
  pred : List (Nat × Slot)
  /-- the inputs that mismatched (R73) -/
  mism : List Nat
  /-- station statuses: source cycle, AGE, MISSED, by station table index (R63) -/
  stat : List (Nat × (Nat × Nat × Nat))
  /-- loop status and output words as latched, by loop number × 2 and × 2 + 1 (R94) -/
  loops : List (Nat × Word)
  /-- executed segments with their results, by segment index -/
  res : List (Nat × SegRes)
  /-- segments replayed at the latch (R75) -/
  replayed : List Nat
  /-- speculation stopped before this segment (R72) -/
  stall : Option Nat
  deriving DecidableEq, Repr

/-- An execution lane (R92). -/
structure Lane where
  active : Bool
  /-- 0 the latched scan, 1 and 2 the scans ahead of it -/
  depth : Nat
  seg : Nat
  /-- instructions executed since FIRST -/
  pc : Nat
  w : List (Nat × Word)
  cf : Bool
  fl : Nat
  res : SegRes
  deriving DecidableEq, Repr

/-- A lane that executes no segment. -/
def Lane.idle : Lane := ⟨false, 0, 0, 0, [], false, 0, SegRes.empty⟩

/-- A segment descriptor with its lists (R89). A list entry is kind × 2^20 + index. -/
structure SegDesc where
  first : Nat
  len : Nat
  base : Nat
  reads : List Nat
  writes : List Nat
  succ : List Nat
  deriving DecidableEq, Repr

/-- An input table entry (R88). -/
structure InSlot where
  point : Nat
  ty : Ty
  policy : Nat
  substEn : Bool
  deadband : Word
  station : Nat
  subst : Word
  deriving DecidableEq, Repr

/-- An output table entry. -/
structure OutSlot where
  point : Nat
  dest : Nat
  ty : Ty
  failSafe : Bool
  fsVal : Word
  idx : Nat
  deriving DecidableEq, Repr

/-- A station table entry. -/
structure StationT where
  num : Nat
  src : Nat
  period : Nat
  limit : Nat
  id : Nat
  deriving DecidableEq, Repr

/-- A symbol table entry. -/
structure Symbol where
  ident : Nat
  ty : Nat
  count : Nat
  loc : Nat
  init : Word
  deriving DecidableEq, Repr

/-- A program as its image binds it (R88–R90, R388). -/
structure Program where
  id : Nat
  prio : Nat
  stateBytes : Nat
  fbCount : Nat
  hash : Nat
  segs : List SegDesc
  ins : List InSlot
  outs : List OutSlot
  stations : List StationT
  syms : List Symbol
  code : List Word
  deriving DecidableEq, Repr

/-- The states of a bank (R101), in the order of PGMX.STAT. -/
inductive BankSt where
  | empty | loading | verifying | verified | rejected | active
  deriving DecidableEq, Repr

/-- A program bank: its state, the image copied into it, and the program of a verified image. -/
structure Bank where
  st : BankSt
  image : List Byte
  prog : Option Program
  deriving DecidableEq, Repr

/-- Loom's engine states (R81), in the order of SCAN.STAT. -/
inductive Engine where
  | stop | run | hold
  deriving DecidableEq, Repr

/-- A complete station image: its arrival, source cycle and point values (R62). -/
structure StImage where
  arrived : Nat
  src : Nat
  vals : List (Nat × (Word × Nat))
  deriving DecidableEq, Repr

/-- A station of the input image, by its index in the station table (R62, R63, R79). -/
structure Station where
  /-- the latched image; none before the first complete one -/
  cur : Option StImage
  /-- complete images received and not yet latched -/
  open_ : List StImage
  stale : Bool
  deriving DecidableEq, Repr

/-- A station that has delivered nothing. -/
def Station.absent : Station := ⟨none, [], false⟩

/-- Loom, the scan engine, with its program banks (R58–R111). -/
structure Loom where
  eng : Engine
  /-- the stop image is still to be committed (R81, R82) -/
  stopPending : Bool
  /-- a scan is paused (R83) -/
  paused : Bool
  /-- the next segment of the paused scan -/
  pauseSeg : Nat
  /-- the segment a pause ended at: its breakpoint does not hit again in the scan (R84) -/
  resumed : Option Nat
  /-- the latched scan has been paused, and the commit positions that have passed since without commit (R85) -/
  held : Bool
  heldN : Nat
  /-- STEP_SEG or STEP_SCAN in progress: 0 none, 1 one segment, 2 one scan (R81) -/
  stepping : Nat
  /-- L2C as clamped at the entry into RUN (R60) -/
  l2c : Nat
  /-- SCAN.HOLD_OFF (R85) -/
  holdOff : Nat
  /-- the last latched scan, until the next latch -/
  cur : Option Scan
  /-- it has committed or been dropped -/
  curDone : Bool
  /-- a scan whose commit position a forward step has skipped together with the next latch: its LATE commit fires after that
  latch on the same fabric cycle (R55, R78) -/
  prev : Option Scan
  ahead1 : Option Scan
  ahead2 : Option Scan
  /-- true latched values of the last two latches: v_L and v_(L−1) (R70) -/
  vL : List (Nat × Slot)
  vP : Option (List (Nat × Slot))
  /-- no scan has latched since RUN was entered (R79) -/
  first : Bool
  /-- segments replayed in the previous scan (R75) -/
  prevReplayed : List Nat
  /-- committed state words and instances -/
  words : List (Nat × Word)
  fbs : List (Nat × Fb)
  lanes : List (Nat × Lane)
  stations : List (Nat × Station)
  /-- committed output slots, by destination × 2^16 + destination index, then point: value and quality (R66, R80) -/
  slots : List (Nat × List (Nat × (Word × Nat)))
  /-- the last committed value of each output point, and whether a relinquish has been committed since -/
  lastOut : List (Nat × (Word × Bool))
  /-- the output forces of points that stand at their destinations (R107) -/
  forcedOut : List (Nat × Word)
  /-- the image shown through SCANDBG for the last committed scan -/
  shown : Option Scan
  bankA : Bank
  bankB : Bank
  /-- a switch is pending; it may complete now (R102) -/
  swPending : Bool
  swReady : Bool
  /-- the initiator of the pending switch -/
  swBy : Word
  /-- the initiator of the last accepted LOAD -/
  loadBy : Word
  /-- the next latch is the first of a new program (R78, R102) -/
  newProg : Bool
  /-- events delivered to the supervisor at commits: code, value, nominal timestamp (R95) -/
  events : List (Nat × Word × Nat)
  deriving DecidableEq, Repr

/-- An empty bank. -/
def Bank.empty : Bank := ⟨.empty, [], none⟩

/-- Loom after module reset (R81, R101). -/
def Loom.reset : Loom :=
  { eng := .stop, stopPending := false, paused := false, pauseSeg := 0, resumed := none, held := false, heldN := 0,
    stepping := 0, l2c := 0, holdOff := 0,
    cur := none, curDone := true, prev := none, ahead1 := none, ahead2 := none, vL := [], vP := none, first := true,
    prevReplayed := [], words := [], fbs := [], lanes := [], stations := [], slots := [], lastOut := [], forcedOut := [],
    shown := none, bankA := .empty, bankB := .empty, swPending := false, swReady := false, swBy := 0, loadBy := 0,
    newProg := false, events := [] }

/-- A sample taken and not yet computed (R113): its position, the record's words at the sample, and the values read. -/
structure LoopSample where
  pos : Nat
  rec_ : List Word
  r : Int
  y : Int
  f : Int
  track : Int
  good : Bool
  /-- omitted positions or a late sample have been counted for it (R118) -/
  late : Bool
  /-- an open mode was written since the sample before it (R125) -/
  closing : Bool
  deriving DecidableEq, Repr

/-- A computed result waiting for its output position (R114). -/
structure LoopResult where
  /-- nominal output position -/
  pos : Nat
  u : Int
  late : Bool
  /-- the law state before the sample, for a discard (R130) -/
  prev : List Int
  /-- the count when it was ready, STATUS and INTEG before it, and the flags that it has newly set (R118, R130) -/
  ready : Nat
  status : Word
  integW : Word
  newFl : Nat
  deriving DecidableEq, Repr

/-- The law state of a loop (R119, R121): accumulators in units of 2^-32, signals in units of 2^-16. -/
structure LoopSt where
  sample : Option LoopSample
  result : Option LoopResult
  /-- the last sample position taken -/
  lastPos : Option Nat
  integ : Int
  d : Int
  ed : Int
  v1 : Int
  v2 : Int
  w1 : Int
  w2 : Int
  /-- the next sample computed in CLOSED is a closing sample (R125) -/
  closing : Bool
  /-- the next good sample takes e_d(n−1) = e_d(n) (R128) -/
  afterFault : Bool
  /-- retired (R130) -/
  retired : Bool
  /-- the position of an open mode written since the last sample (R123, R125) -/
  opened : Option Nat
  deriving DecidableEq, Repr

/-- A loop that has not been enabled since module reset. -/
def LoopSt.zero : LoopSt :=
  ⟨none, none, none, 0, 0, 0, 0, 0, 0, 0, true, true, false, none⟩
/-- A channel of Weighhouse beside its registers (R138–R141). -/
structure Chan where
  /-- the ×32 path is selected -/
  x32 : Bool
  /-- consecutive samples that allow the ×32 path -/
  run : Nat
  /-- the last samples of both paths after calibration, in units of the ×32 path -/
  last1 : Int
  last32 : Int
  /-- selected samples, filtered, newest first, each with the fabric cycle at which it stands after its path's DELAY (R139) -/
  recent : List (Int × Int)
  /-- the DC filter's and the integrator's last input and output (R139, R140), the integrator's output in units of 2^-32 of a
  sample's -/
  hpX : Int
  hpY : Int
  inX : Int
  inY : Int
  /-- the half-cycles in which the channel has overloaded, newest first: positions over 32,768 (R138, R148) -/
  ovld : List Nat
  /-- an ADC reference injection runs: on the ×32 path, and whether the ×32 path was selected before it (R141) -/
  test : Option (Bool × Bool)
  deriving DecidableEq, Repr

/-- A channel after reset: it starts on ×1 (R138). -/
def Chan.reset : Chan := ⟨false, 0, 0, 0, [], 0, 0, 0, 0, [], none⟩

/-- A grid sample (R142, R143): its position, the fabric cycle on which it was reached, its duration in fabric cycles, its
demand interval, the channels whose sample is substituted (R141), and the channels' values in primary units, in units of 2^-177
of them: a sample's 2^-28 of full scale times SCALE, a multiple of 2^-149. -/
structure GridS where
  pos : Nat
  fab : Nat
  dt : Nat
  iv : Nat
  sub : List Nat
  xs : List (Nat × Int)
  deriving DecidableEq, Repr

/-- An open power-quality event (R150). -/
structure PqEvent where
  start : Nat
  half : Nat
  extreme : Word
  deriving DecidableEq, Repr

/-- The running demand interval (R153, R154): its code in force, its start as a calendar word, in calendar seconds and in fabric
cycles, the fabric cycles of it that lie before that last one, and whether it is irregular. -/
structure DemIv where
  code : Nat
  cal : Word
  sec : Nat
  fab : Nat
  before : Nat
  irr : Bool
  deriving DecidableEq, Repr

/-- A demand interval that has ended and waits for its last samples: its duration in fabric cycles, its code, its start as a
calendar word, and whether it is irregular. -/
structure DemEnd where
  fab : Nat
  code : Nat
  cal : Word
  irr : Bool
  deriving DecidableEq, Repr

/-- What a checkpoint slot of MRAM holds (R157): the raw accumulators, the demand state (the interval's energy, the interval
itself, one that waits to be closed), demand values and maximum demands, open events, the position of the last included sample,
a sequence number, the calendar seconds, whether it is the final save, and a CRC-32. -/
structure Ckpt where
  raws : List (Nat × Nat)
  demand : List (Nat × Nat)
  iv : DemIv
  ivEnd : Option DemEnd
  maxdem : List (Nat × Word)
  events : List (Nat × PqEvent)
  pos : Nat
  seq : Nat
  cal : Nat
  final : Bool
  crc : Word
  deriving DecidableEq, Repr

/-- The progress of the power-fail save (R158). -/
inductive SaveSt where
  | none | triggered | saved
  deriving DecidableEq, Repr

/-- Weighhouse (R133–R160). -/
structure Wgh where
  chans : List (Nat × Chan)
  /-- grid samples captured and not yet accumulated, oldest first -/
  queue : List GridS
  /-- accumulated grid samples, newest first -/
  hist : List GridS
  /-- the fabric cycle of the last produced grid position -/
  lastFab : Option Nat
  lastPos : Nat
  /-- the position from which the grid runs -/
  startPos : Nat
  /-- the last window boundaries published: half-cycle, aggregated -/
  pubHalf : Nat
  pubAgg : Nat
  /-- changes of calibration and composition, newest first: the register, the cycle from which its later value applies, and its
  value before (R152) -/
  eff : List (Nat × Nat × Word)
  /-- the position of the last accumulated sample (R155, R157) -/
  incl : Nat
  /-- measurand indices whose last value came from a window with an overload (R148) -/
  qbad : List (Nat × Bool)
  /-- raw accumulators, by circuit × 8 + a, circuits from 0 (R152) -/
  raws : List (Nat × Nat)
  /-- raw import and export energy of the demand interval, by circuit × 2 + (0 import, 1 export) -/
  demand : List (Nat × Nat)
  /-- the number of the demand interval, the interval, and the one that has ended and waits for its last samples -/
  iv : Nat
  dem0 : DemIv
  ivEnd : Option DemEnd
  /-- DEM_IMP, DEM_EXP, MAXDEM_IMP, MAXDEM_CAL live, by circuit × 4 + j -/
  dem : List (Nat × Word)
  pq : List (Nat × PqEvent)
  /-- checkpoint slots A, B, F of MRAM, by 1, 2, 3 -/
  slots : List (Nat × Ckpt)
  /-- the intent word of MRAM: the trigger position of a power-fail save, with the sequence number of the checkpoints at it -/
  intent : Option (Nat × Nat)
  /-- a checkpoint being written: its slot, its content, and the retries made -/
  writing : Option (Nat × Ckpt × Nat)
  /-- a failed checkpoint that waits for its retry: slot, content and retries made -/
  retry : Option (Nat × Ckpt × Nat)
  ckSeq : Nat
  save : SaveSt
  /-- accumulators as captured at the first grid position after the trigger -/
  capture : Option Ckpt
  /-- checkpoints are stopped by a power-fail trigger (R158) -/
  stopped : Bool
  /-- the calendar second of the restored position, until the first sample after start (R159) -/
  outageFrom : Option Nat
  deriving DecidableEq, Repr

/-- Weighhouse with nothing metered and no checkpoint. -/
def Wgh.reset : Wgh :=
  { chans := [], queue := [], hist := [], lastFab := none, lastPos := 0, startPos := 0, pubHalf := 0, pubAgg := 0,
    eff := [], incl := 0, qbad := [], raws := [], demand := [], iv := 0, dem0 := ⟨2, 0, 0, 0, 0, false⟩, ivEnd := none,
    dem := [], pq := [], slots := [], intent := none, writing := none, retry := none, ckSeq := 0, save := .none,
    capture := none, stopped := false, outageFrom := none }

/-- A registered pattern (chapter 7, "Pattern handles"): the sizes of its header and its bytes. -/
structure Pattern where
  n : Nat
  m : Nat
  nnzP : Nat
  nnzA : Nat
  factorBytes : Nat
  bytes : List Byte
  deriving DecidableEq, Repr

/-- What a completion record says beside TAG and positions (R169). -/
structure Compl where
  status : Nat
  confirm : Nat := 0
  outcome : Nat := 0
  iter : Nat := 0
  refact : Nat := 0
  cause : Nat := 0
  flags : Nat := 0
  rho : Word := 0
  obj : Nat := 0
  rPrim : Nat := 0
  rDual : Nat := 0
  deriving DecidableEq, Repr

/-- A completion that waits to be posted: its queue, TAG and record, the position at which execution began, its class, and whether it
completes a SOLVE or a CONFIRM descriptor (R169, R182, R186). -/
structure Post where
  q : Nat
  tag : Nat
  compl : Compl
  start : Nat
  cls : Cls
  counts : Bool
  deriving DecidableEq, Repr

/-- What Factor does with the descriptor it executes. -/
inductive FactPhase where
  | factorising | iterating | checking
  deriving DecidableEq, Repr

/-- A solve in execution or suspended (R171–R178). -/
structure Solve where
  /-- its number among the solves begun, and the fabric cycle of its doorbell (R170, R171) -/
  id : Nat
  age : Nat
  q : Nat
  desc : List Byte
  /-- addresses of P, A, q, l, u, X_OUT and Y_OUT, in this order -/
  addrs : List Nat
  /-- settings after R168: EPS_ABS, EPS_REL, EPS_PINF, EPS_DINF, SIGMA, ALPHA as FLOAT32 words -/
  eps : List Word
  maxIter : Nat
  timeLimit : Nat
  check : Nat
  mu : Nat
  tau : Nat
  adapt : Bool
  handle : Nat
  tag : Nat
  cls : Cls
  /-- 0 a SOLVE, 1 an anticipatory SOLVE, 2 the re-solve of a rejected CONFIRM -/
  kind : Nat
  phase : FactPhase
  rho : Word
  iter : Nat
  refact : Nat
  /-- checks since ρ last changed -/
  sinceAdapt : Nat
  clamped : Bool
  suspended : Bool
  x : List Word
  z : List Word
  y : List Word
  xPrev : List Word
  yPrev : List Word
  rPrim : Nat
  rDual : Nat
  start : Nat
  /-- au executed before the position `since` -/
  spent : Nat
  since : Nat
  /-- au that its requests have waited at TOLL, as kept while it is suspended (R169) -/
  waited : Nat
  deriving DecidableEq, Repr

/-- A held anticipatory context (R179): its solve as it ended, and its completion record. -/
structure HeldCtx where
  job : Solve
  rec_ : Compl
  deriving DecidableEq, Repr

/-- Factor beside its registers (R161–R187). -/
structure Fact where
  handles : List (Nat × Pattern)
  /-- pending entries of a queue, by queue: ring index and fabric cycle of the doorbell, oldest first -/
  pend : List (Nat × List (Nat × Nat))
  /-- completion entries in use, by queue -/
  cqUsed : List (Nat × Nat)
  run : Option Solve
  susp : Option Solve
  held : List HeldCtx
  /-- the handle whose factor the cache holds, and the solve whose factor that is; the solve whose factor is streamed (R166,
  R171) -/
  resident : Option Nat
  owner : Nat
  streamed : Option Nat
  /-- the number of the next solve -/
  nextId : Nat
  /-- every factor streams: a cache word group has retired (R182) -/
  cacheBad : Bool
  /-- completions that wait for space in their ring or for DRAM, in order -/
  posts : List Post
  /-- a descriptor taken whose first requests wait for DRAM: its queue, the fabric cycle of its doorbell, its bytes (R161, R169) -/
  begun : Option (Nat × Nat × List Byte)
  /-- requests issued for the step that waits, and Factor's requests in an accounting window, with its number (R161) -/
  paid : Nat
  winUsed : Nat
  winNo : Nat
  /-- the position from which a step's requests have waited, and the au waited so far by the present work (R169) -/
  waitFrom : Option Nat
  waited : Nat
  /-- a result of the supervisor's that its runtime has still to apply: TAG and x (R184, R333) -/
  ready : Option (Nat × List Word)
  /-- PERIOD in force, and the last boundary taken -/
  period : Nat
  lastB : Option Nat
  /-- the vector window: addresses of x and y, n and m -/
  win : Option (Nat × Nat × Nat × Nat)
  deriving DecidableEq, Repr

/-- Factor after module reset. -/
def Fact.reset : Fact :=
  { handles := [], pend := [], cqUsed := [], run := none, susp := none, held := [], resident := none, owner := 0, streamed := none
    nextId := 0, cacheBad := false, posts := [], begun := none, paid := 0, winUsed := 0, winNo := 0, waitFrom := none, waited := 0
    ready := none, period := 750, lastB := none, win := none }


/-- A message received complete and not yet carried out: its header fields and payload (R223, R232). -/
structure OpxMsg where
  type_ : Nat
  flags : Nat
  cls : Cls
  slot : Nat
  sq : Nat
  srcCycle : Nat
  srcAngle : Nat
  body : List Byte
  /-- the count at the arrival of the frame that completed it (R35) -/
  arr : Nat
  deriving DecidableEq, Repr

/-- A message being reassembled (R227). -/
structure Reasm where
  sq : Nat
  type_ : Nat
  flags : Nat
  cls : Nat
  srcCycle : Nat
  srcAngle : Nat
  last : Option Nat
  frags : List (Nat × List Byte)
  deriving DecidableEq, Repr

/-- An OPX session slot (R228–R231). -/
structure Session where
  open_ : Bool
  gen : Nat
  tenant : Nat
  rights : Nat
  ceiling : Cls
  keySlot : Nat
  port : Nat
  /-- the peer's address, as the bytes of the frame that carries it -/
  peer : List Byte
  key : List Byte
  /-- highest SEQ accepted and the 64-bit window below it (R226) -/
  rxTop : Nat
  rxMask : BitVec 64
  txSeq : Nat
  reasm : List Reasm
  /-- the session subscribes to TIME_REF (R233) -/
  tref : Bool
  /-- it has sent an authenticated message since module reset at this fabric cycle (R231) -/
  lastAuth : Nat
  /-- the position at which the last TIME_REF to it left the MAC (R237) -/
  trefTx : Option Nat
  deriving DecidableEq, Repr

/-- A free session slot. -/
def Session.free : Session :=
  ⟨false, 0, 0, 0, .bulk, 0, 0, [], [], 0, 0, 0, [], false, 0, none⟩

/-- A message of the engine to a session: its type, flags, class, session slot, SEQ, outcome and payload. -/
structure OpxOut where
  type_ : Nat
  flags : Nat
  cls : Cls
  slot : Nat
  sq : Nat
  outcome : Nat
  body : List Byte
  deriving DecidableEq, Repr

/-- An OPEN not yet carried out: its port, its frame, and the count and window in which it came to the Daybook (R201). -/
structure OpenReq where
  port : Nat
  frame : List Byte
  at_ : Option (Nat × Nat)
  deriving DecidableEq, Repr

/-- The OPX protocol engine (R223–R238). -/
structure Opx where
  sess : List (Nat × Session)
  /-- messages received complete, in order of arrival -/
  inbox : List OpxMsg
  /-- OPEN frames received and not yet carried out -/
  opens : List OpenReq
  /-- messages handed to the ports for the open sessions, oldest first (log 9) -/
  outq : List OpxOut
  deriving DecidableEq, Repr

/-- Where a frame to transmit comes from (R215). -/
inductive TxSrc where
  /-- a PAUSE frame of the port's own, with its quanta -/
  | pause (quanta : Nat)
  /-- a descriptor of the transmit ring -/
  | ring (index : Nat)
  /-- a message of the OPX engine, for a session slot -/
  | opx (slot : Nat)
  /-- a TIME_REF of the OPX engine, for a session slot -/
  | tref (slot : Nat)
  deriving DecidableEq, Repr

/-- A descriptor or message being sent: its frames still to send, padded or not, and those sent (R214, R216). -/
structure TxJob where
  src : TxSrc
  cls : Cls
  seg : Bool
  frames : List (List Byte)
  sent : Nat
  deriving DecidableEq, Repr

/-- An Ethernet MAC beside its registers (R208–R222). -/
structure EthPort where
  /-- accepted frames for the OPX engine, with the count at their arrival (R35, R237) -/
  rxq : List (Nat × List Byte)
  /-- accepted frames that wait for a receive descriptor -/
  rxHold : List (List Byte)
  link : Bool
  /-- transmission is paused by the peer, since this fabric cycle -/
  paused : Option Nat
  /-- the fabric cycle from which the present pause quanta run, and the quanta -/
  pauseFrom : Nat
  pauseQ : Nat
  holdoff : Bool
  rxPausing : Bool
  /-- the jobs waiting or in part sent, in order of arrival -/
  jobs : List TxJob
  /-- the job whose frame is on the wire -/
  onWire : Option TxJob
  /-- the loopback test of the port's first enabling has passed (R310) -/
  tested : Bool
  deriving DecidableEq, Repr

/-- A port after module reset. -/
def EthPort.reset : EthPort := ⟨[], [], false, none, 0, 0, false, false, [], none, false⟩
/-- A frame in a receive queue: the frame and its start-of-frame position (R242). -/
structure BusRec where
  frame : BusFrame
  ts : Nat
  deriving DecidableEq, Repr

/-- What a bus has on the wire: a time reference, a transmit object, the head of the transmit ring (R246). -/
inductive BusTx where
  | tref
  | obj (n : Nat)
  | ring
  deriving DecidableEq, Repr

/-- A multi-drop bus beside its registers (R240–R252). -/
structure Bus where
  q0 : List BusRec
  q1 : List BusRec
  /-- receive objects that have received a frame since the bus was enabled -/
  got : List Nat
  /-- members of each frame group received since it last completed, by group (R247) -/
  group : List (Nat × List Nat)
  onBus : Option BusTx
  /-- the object on the wire has been replaced since its frame began (R245) -/
  again : Bool
  /-- objects that failed once under ONESHOT (R246) -/
  failed : List Nat
  /-- the time reference waiting to be sent: nominal position and data (R248) -/
  tref : Option (Nat × List Byte)
  /-- the last reference sent: nominal position and start-of-frame position -/
  trefPrev : Option (Nat × Nat)
  sleeping : Bool
  sleepReq : Bool
  busOff : Bool
  recovering : Bool
  /-- the position at which the bus was last enabled (R244) -/
  since : Nat
  deriving DecidableEq, Repr

/-- A bus after module reset. -/
def Bus.reset : Bus := ⟨[], [], [], [], none, false, [], none, none, false, false, false, false, 0⟩

/-- A serial field port beside its registers (R253–R256). -/
structure SfPort where
  /-- a descriptor is being sent -/
  sending : Bool
  /-- the receive ring entry of the last character, until its gap -/
  lastChar : Option Nat
  /-- the fabric instant of the last received stop bit (R254) -/
  lastRx : Option Nat
  deriving DecidableEq, Repr

/-- A serial port after module reset. -/
def SfPort.reset : SfPort := ⟨false, none, none⟩

/-- The field I/O beside its registers (R257–R263). -/
structure Fio where
  /-- Loom's committed values, by channel 1–8 -/
  loom : List (Nat × Bool)
  /-- values of owner REGISTER, by channel 1–8 -/
  cmd : List (Nat × Bool)
  /-- output forces in effect, by channel 1–8 (R107) -/
  forced : List (Nat × Bool)
  /-- the outputs as switched, bit c − 1 -/
  out : BitVec 8
  /-- channels off by thermal shutdown -/
  thermal : BitVec 8
  /-- edge times of the counting inputs in fabric cycles, newest first, by channel 1–16 -/
  edges : List (Nat × List Nat)
  /-- FIO has been enabled since module reset: from then on it drives its outputs (R260, R369) -/
  live : Bool
  deriving DecidableEq, Repr

/-- The field I/O after module reset. -/
def Fio.reset : Fio := ⟨[], [], [], 0, 0, [], false⟩

/-- A committed request of a display region (R272). -/
structure RgnReq where
  region : Nat
  x : Nat
  y : Nat
  w : Nat
  h : Nat
  img : Nat
  stride : Nat
  id : Word
  safety : Bool
  merge : Bool
  /-- order of commit -/
  seq : Nat
  deriving DecidableEq, Repr

/-- A value that a busy pixel will take (R272). -/
structure PxWait where
  px : Nat
  val : Nat
  region : Nat
  safety : Bool
  seq : Nat
  deriving DecidableEq, Repr

/-- An update record of MRAM (R274). -/
structure UpdRec where
  x : Nat
  y : Nat
  w : Nat
  h : Nat
  old : Word
  new : Word
  frame : Nat
  safety : Bool
  interrupted : Bool
  deriving DecidableEq, Repr

/-- A balancing pass (R273): its phase, whether a SAFETY request has entered it (the divider is then back to normal), and its
pixels with their level and V. -/
structure Balance where
  phase : Nat
  entered : Bool
  pixels : List (Nat × Nat × Nat)
  deriving DecidableEq, Repr

/-- Signwright beside its registers (R265–R276). -/
structure Sgn where
  /-- requests of the running regions, by region -/
  running : List (Nat × RgnReq)
  /-- the queued request of a region (POLICY QUEUE) -/
  queued : List (Nat × RgnReq)
  /-- requests that join at the next frame (POLICY MERGE or SAFETY) -/
  joining : List RgnReq
  /-- pixels in a waveform -/
  busy : List Nat
  waits : List PxWait
  seq : Nat
  /-- the image shown in a region -/
  shown : List (Nat × Word)
  /-- the last completed request of a region (R327) -/
  done : List (Nat × RgnReq)
  /-- ticks since the last frame was due, and the divider in force -/
  ticks : Nat
  div : Nat
  due : Bool
  /-- a frame is in scan-out: the drive codes of its pixels -/
  scan : Option (List (Nat × Nat))
  /-- the fabric instant of the frame tick of the frame in scan-out (R266) -/
  scanAt : Nat
  /-- the fabric instant at which EPD_PWRUP last rose, and that of the last frame due (R267) -/
  pwrAt : Nat
  dueAt : Nat
  balReq : Bool
  bal : Option Balance
  pwrup : Bool
  pgood : Bool
  /-- the recovery of R275: its step -/
  recov : Nat
  /-- a SAFETY request for the image SAFE_ID has completed since the recovery began (R275 step 3) -/
  recovSafe : Bool
  /-- a power-fail trigger has stopped the frames (R274) -/
  stopped : Bool
  /-- update records of MRAM, by region, and SAFE_ID -/
  recs : List (Nat × UpdRec)
  safeId : Word
  deriving DecidableEq, Repr

/-- Signwright with no update. -/
def Sgn.reset : Sgn :=
  { running := [], queued := [], joining := [], busy := [], waits := [], seq := 0, shown := [], done := [], ticks := 0, div := 2
    due := false, scan := none, scanAt := 0, pwrAt := 0, dueAt := 0, balReq := false, bal := none, pwrup := false, pgood := false, recov := 0, recovSafe := false
    stopped := false, recs := [], safeId := 0 }


/-- A Locksmith slot (R279, R281): its kind, metadata, generation, value, and the staged content. -/
structure KeySlot where
  kind : Nat
  tenant : Nat
  rights : Nat
  gen : Nat
  val : List Byte
  /-- staged KIND, TENANT, RIGHTS and value -/
  stage : Option (Nat × Nat × Nat × List Byte)
  /-- the mask share of the value (R280) -/
  mask : List Byte
  deriving DecidableEq, Repr

/-- An EMPTY slot. -/
def KeySlot.empty : KeySlot := ⟨0, 0, 0, 0, [], none, []⟩

/-- The calendar shadows of an initiator (R295): SEC, MIN, HOUR, WDAY, DAY, MONTH, YEAR and TICK as frozen. -/
structure Shadow where
  vals : List Word
  /-- the fabric instant of the freezing read -/
  since : Nat
  deriving DecidableEq, Repr

/-- The vault blocks beside their registers (R277–R298). -/
structure Vault where
  slots : List (Nat × KeySlot)
  /-- cell scrambling is complete (R280) -/
  ready : Bool
  /-- the scrambling key drawn at this start (R280) -/
  scramble : List Byte
  /-- draws taken from the random source -/
  draws : Nat
  /-- LOCK.DATA0–7 as written (R281) -/
  data : List (Nat × Word)
  /-- commands that wait for READY (R280): each with the SEQ of its Daybook entry -/
  waiting : List (Nat × Nat)
  /-- the SHA-256 measurement of the runtime taken at start-up (R285) -/
  measure : List Byte
  /-- the owner root written to OTP (R286) -/
  ownerRoot : List Byte
  /-- the life-cycle state whose root is in force (R286) -/
  rootOf : Nat
  /-- staged calendar fields, by field 0–6: applied at the next boundary, and at the one after (R294) -/
  calNext : List (Nat × Word)
  calAfter : List (Nat × Word)
  /-- frozen calendar shadows, by initiator (R295) -/
  shadows : List (Nat × Shadow)
  /-- WAKE_S has counted down to 0 (R298) -/
  wakeDue : Bool
  /-- the fabric cycle of the last second boundary, and the tick that stood at it with the trim corrections since: TICK is counted
  from them (R292, log 24) -/
  tickAt : Nat
  tickBase : Int
  /-- the calendar tick in which a wake source last set the PON latch: the cycle of its second's boundary, and TICK (R298) -/
  wokeAt : Option (Nat × Nat)
  /-- calendar ticks from the last trim correction to the last second boundary (R292) -/
  trimFrom : Int
  /-- the fabric instant of READY, or of the last re-masking since (R280) -/
  remaskAt : Nat
  deriving DecidableEq, Repr

/-- The vault right after the backup domain powers on (R278). -/
def Vault.reset : Vault := ⟨[], false, [], 0, [], [], [], [], 0, [], [], [], false, 0, 0, none, 0, 0⟩
/-- A firing of a Scrivener trigger that waits for its capture (R316, R317). -/
structure Firing where
  trig : Nat
  cls : Cls
  pos : Nat
  late : Bool
  at_ : Nat
  deriving DecidableEq, Repr

/-- A Scrivener record (R318), without its CRC; `flags` in the bit order of its FLAGS byte. -/
structure ScrvRec where
  seq : Nat
  trig : Nat
  flags : Nat
  count : Nat
  cls : Cls
  cal : DWord
  pos : Nat
  delay : Nat
  lost : Nat
  words : List Word
  deriving DecidableEq, Repr

/-- Scrivener beside its registers (R316–R321). -/
structure Scrv where
  /-- TCFG by trigger, and LIST words by trigger × 24 + k -/
  tcfg : List (Nat × Word)
  lists : List (Nat × Word)
  /-- the cycle of each trigger's last recorded firing -/
  last : List (Nat × Nat)
  queue : List Firing
  hold : List ScrvRec
  /-- the recorder area of MRAM, by slot -/
  slots : List (Nat × ScrvRec)
  frozen : Bool
  /-- firings lost since the previous record -/
  lost : Nat
  /-- a power-fail trigger has stopped capturing and writing (R321) -/
  off : Bool
  /-- retired slots (R321) -/
  bad : List Nat
  /-- the fabric cycle from which the capture path is free (R317) -/
  pathAt : Nat
  /-- the fabric instant of the FREEZE in force (R320) -/
  frozenAt : Nat
  deriving DecidableEq, Repr

/-- Scrivener with no trigger configured and an empty recorder area. -/
def Scrv.reset : Scrv := ⟨[], [], [], [], [], [], false, 0, false, [], 0, 0⟩

/-- The phases of an element under the fault manager (R303, R306). -/
inductive Phase where
  | service | fenced | testing | retired
  deriving DecidableEq, Repr

/-- An element that the fault manager knows of (R303, R304). -/
structure ElemSt where
  phase : Phase
  /-- kind and position of the error being handled; a requested test has kind 0 -/
  kind : Nat
  pos : Nat
  /-- the fabric cycle of its detection -/
  at_ : Nat
  /-- items discarded for it -/
  disc : Nat
  /-- an error during its test: the test fails (R305) -/
  failed : Bool
  /-- transients in the open window; none when no window is open (R304) -/
  win : Option Nat
  /-- the fabric instant at which that window opened -/
  winAt : Nat
  deriving DecidableEq, Repr

/-- An element without an error. -/
def ElemSt.ok : ElemSt := ⟨.service, 0, 0, 0, 0, false, none, 0⟩

/-- The fault manager and Assayer beside their registers (R300–R315). -/
structure Fltm where
  /-- by element word -/
  elems : List (Nat × ElemSt)
  /-- elements that wait for a test, in order of detection -/
  queue : List Nat
  /-- corrected errors of a word group within their window, and the fabric instant of the first, by element word (R302) -/
  corr : List (Nat × (Nat × Nat))
  /-- the registers of retired blocks as they read at retirement (R307) -/
  frozen : List (Nat × Word)
  deriving DecidableEq, Repr

/-- No error since module reset. -/
def Fltm.reset : Fltm := ⟨[], [], [], []⟩

/-- The update lease (R343). -/
structure Lease where
  holder : Who
  /-- the holder's origin in the format of R188 -/
  origin : Word
  id : Nat
  /-- the fabric cycle of the take, of the last renewal or of the last accepted chunk -/
  at_ : Nat
  deriving DecidableEq, Repr

/-- Cobbler, the update engine, beside its registers (R341–R345). -/
structure Upd where
  lease : Option Lease
  /-- leases granted since module reset -/
  leases : Nat
  /-- bytes of the patch received, by offset (R342) -/
  patch : List (Nat × Byte)
  /-- the image built in NAND staging -/
  staged : Option (List Byte)
  /-- SEQUENCE, GROUP_ID and ACT_TIME of the patch that is built or armed -/
  sq : Nat
  group : Nat
  actTime : Nat
  /-- the fabric cycle of the activation, while CHECKING -/
  since : Nat
  /-- the running image of NAND, and the one that the next module reset starts -/
  image : List Byte
  next : Option (List Byte)
  deriving DecidableEq, Repr

/-- Cobbler with no lease and an empty image. -/
def Upd.reset : Upd := ⟨none, 0, [], none, 0, 0, 0, 0, [], none⟩


/-- The pins the module drives, and those it reads, beside the blocks' own (R51, R314, R377–R381, R386). -/
structure Pins where
  /-- GPIO pulses in progress, bit n − 1 = GPIOn -/
  gpioPulse : BitVec 8
  /-- the fabric cycles at which pulses end, by pin: 0–7 GPIO1–GPIO8, 8 ANG_SYNC_OUT (R51) -/
  pulseEnd : List (Nat × Nat)
  /-- levels driven from outside at the GPIO inputs -/
  gpioIn : BitVec 8
  syncOut : Bool
  ppsOut : Bool
  pcieWakeN : Bool
  clkreqN : Bool
  faultN : Bool
  /-- the position of the last rising edge of PPS_IN (R381) -/
  ppsAt : Option Nat
  /-- MSI messages sent since module reset (R364) -/
  msi : Nat
  /-- RSTOUT_N -/
  rstoutN : Bool
  /-- the fabric cycle of the power-fail trigger, while the supply is away; a RESET_N fall after it waits (R379) -/
  pfwAt : Option Nat
  resetWait : Bool
  /-- T0's request line -/
  t0 : Bool
  /-- INTA asserted (R364) -/
  inta : Bool
  /-- SVC_VBUS present: the service port is attached (R358) -/
  svc : Bool
  /-- the fabric instant at which MB_STBY last fell (R251) -/
  stbyFell : Option Nat
  /-- the fabric instant at which a wake drove PCIE_WAKE_N low (R365) -/
  wakeAt : Nat
  deriving DecidableEq, Repr

/-- The state of the module. -/
structure State where
  clk : Clock
  guard : Guard
  /-- the register file by address, page × 0x1000 + offset; an unlisted register holds its reset value -/
  regs : List (Nat × Word)
  /-- staged words of R351, by initiator × 2^20 + register address -/
  staged : List (Nat × Word)
  /-- the high halves latched by reads of R36, by initiator × 2^20 + the address of the high half -/
  latch : List (Nat × Word)
  /-- DRAM, by byte address -/
  dram : List Host.Cell
  toll : Toll
  lac : Lac
  loom : Loom
  loops : List (Nat × LoopSt)
  pts : List (Nat × Point)
  /-- PTS.DEF_SEL of each initiator (R199) -/
  defSel : List (Nat × Nat)
  dayb : Dayb
  eth : List (Nat × EthPort)
  opx : Opx
  bus : List (Nat × Bus)
  sf : List (Nat × SfPort)
  fio : Fio
  vault : Vault
  wgh : Wgh
  fact : Fact
  sgn : Sgn
  scrv : Scrv
  fltm : Fltm
  upd : Upd
  pins : Pins
  /-- what the sources of latches and samples were before the last changes, newest first (R37, R113, R191) -/
  past : List Past
  /-- the fabric cycle that last set sticky bits, and by register what it set and what of that was 0 before (R359, R361, R363) -/
  fresh : Nat × List (Nat × (Word × Word))
  /-- answers that have left the module, oldest first (log 9) -/
  replies : List Reply
  /-- open choices taken so far; the model's own counter for the free values (log 4) -/
  free : Nat
  /-- the commands that wait, first in first out -/
  pending : List Instr
  deriving DecidableEq, Repr

/-- The clock right after a module reset: cycle 0, angle 0, nominal 50 Hz (R33). -/
def Clock.reset : Clock :=
  { acc := 0, fabric := 0, freq := 50000000, target := 50000000, slewAt := 0, corrNow := 0, corrLeft := 0, corrEnd := 0 }

/-- The guard right after a module reset of a part with every feature, in life-cycle BLANK (log 8). -/
def Guard.reset : Guard :=
  { mode := 0, protLock := false, operational := false, step := 1, dead := false, safe := false, lockdownRec := false
    unlockArmed := false, bootBad := false, bootMode := 1, arb := 0, scmdCtr := 0, attCtr := 0, lifecycle := 0
    fD := true, fM := true, fE := true, asleep := false, pgood := false, inReset := true, boot := 0 }

/-- TOLL right after a module reset: no window has started, the budgets of the reset values are in force (R17–R19). -/
def Toll.reset : Toll :=
  { win := 0, winStart := 0, used := [], tenUsed := [], rate := [], waiting := [], held := [], faulted := [], budget := []
    weights := 0x142828, delay := 4, ten := [], asm := [] }

/-- Millwheel right after a module reset: the tracker has not started (R33, R44). -/
def Lac.reset : Lac :=
  { started := false, track := .acquire, from_ := .reset, inService := false, refValid := false, fly := none, evald := 0
    deferred := [], syncAt := none, syncGood := 0, netAt := none, netGood := 0, netArr := none
    netOff := 0, refch := 0, sagged := false, seen := ⟨0, 0, 0⟩, startAt := 0, syncPer := 0, stepFrom := 0, stepTo := 0,
    syncFrom := none, spans := [] }

/-- A Daybook that has never logged. -/
def Dayb.reset : Dayb :=
  { head := 0, drain := 0, ring := [], reserved := [], lost := 0, powerFail := false, retired := [] }

/-- The pins right after a module reset (R314, R368, R369). -/
def Pins.reset : Pins :=
  { gpioPulse := 0, pulseEnd := [], gpioIn := 0, syncOut := false, ppsOut := false, pcieWakeN := true, clkreqN := true, faultN := false
    ppsAt := none, msi := 0, rstoutN := false, pfwAt := none, resetWait := false, t0 := false, inta := false
    svc := false, stbyFell := none, wakeAt := 0 }

/-- The module right after a module reset, before start-up step 1, with nothing in its non-volatile memories and no
command waiting (R337, log 8). -/
def State.reset : State :=
  { clk := .reset, guard := .reset, regs := [], staged := [], latch := [], dram := [], toll := .reset, lac := .reset
    loom := .reset, loops := [], pts := [], defSel := [], dayb := .reset, eth := [], opx := ⟨[], [], [], []⟩, bus := []
    sf := [], fio := .reset, vault := .reset, wgh := .reset, fact := .reset, sgn := .reset, scrv := .reset
    fltm := .reset, upd := .reset, pins := .reset, past := [], fresh := (0, []), replies := [], free := 0, pending := [] }

end Sys2Proof.Machine
end

