-- ==== Sys2Proof/Machine/Ops.lean ====
section
/-!
DEFINITION. The operations that every block shares: the register file, the count, the counters of R334, interrupts,
initiators and outcome words, memory, and how a command ends.
-/

namespace Sys2Proof.Machine

/-! ### The register file -/

/-- What a register holds. -/
def rd (s : State) (a : Nat) : Word := look (resetVal a) s.regs a

/-- A register set to a value. -/
def wr (s : State) (a : Nat) (v : Word) : State := { s with regs := put (resetVal a) s.regs a v }

/-- A field of a register. -/
def rdF (s : State) (a lo n : Nat) : Nat := fld (rd s a) lo n

/-- A bit of a register. -/
def rdB (s : State) (a i : Nat) : Bool := bit (rd s a) i

/-- A register with one field replaced. -/
def wrF (s : State) (a lo n v : Nat) : State := wr s a (setFld (rd s a) lo n v)

/-- A register with one bit set or cleared. -/
def wrB (s : State) (a i : Nat) (b : Bool) : State := wrF s a i 1 (b2n b)

/-- What this fabric cycle has set in a register: the bits set, and those of them that were 0 before (R359, R361, R363). -/
def freshOf (s : State) (a : Nat) : Word × Word := if s.fresh.1 = s.clk.fabric then look (0, 0) s.fresh.2 a else (0, 0)

/-- The bits of a register that this fabric cycle has set: a clear on the same cycle leaves them (R359, R361). -/
def freshBits (s : State) (a : Nat) : Word := (freshOf s a).1

/-- A register as the fabric cycle before left it, so far as its sticky bits go (R363). -/
def rdBefore (s : State) (a : Nat) : Word := rd s a &&& ~~~(freshOf s a).2

/-- Sticky bits of a register set (R359, R361). -/
def setBits (s : State) (a : Nat) (v : Word) : State :=
  let m := if s.fresh.1 = s.clk.fabric then s.fresh.2 else []
  let x := look (0, 0) m a
  wr { s with fresh := (s.clk.fabric, put (0, 0) m a (x.1 ||| v, x.2 ||| (v &&& ~~~(rd s a)))) } a (rd s a ||| v)

/-- Sticky bits of a register cleared, but for those set on the same fabric cycle (R359, R361). -/
def clearBits (s : State) (a : Nat) (v : Word) : State := wr s a (rd s a &&& ~~~(v &&& ~~~(freshBits s a)))

/-- Event bit `b` of a page set; event bits are sticky until cleared by W1C (R57, R346, R366). -/
def ev (s : State) (page b : Nat) : State :=
  match evtAddr page with
  | some a => setBits s a (w32 (2 ^ b))
  | none => s

/-- An event bit set when a condition holds. -/
def evIf (c : Bool) (s : State) (page b : Nat) : State := if c then ev s page b else s

/-- A 64-bit register pair, low half first, set to a value. -/
def wr64 (s : State) (a : Nat) (v : Nat) : State := wr (wr s a (lo32 v)) (a + 4) (hi32 v)

/-- What a 64-bit register pair holds. -/
def rd64 (s : State) (a : Nat) : Nat := cat64 (rd s (a + 4)) (rd s a)

/-- A fresh free word, and the state with the choice taken (log 4). -/
def freshWord (s : State) : Word × State := (Config.freeWord s.free, { s with free := s.free + 1 })

/-! ### The count -/

/-- LAC.ANGLE, the integer part of the accumulator (R33). -/
def count (s : State) : Nat := s.clk.acc / Config.accOne

/-- The angle of a position in au (R33). -/
def angleOf (p : Nat) : Nat := p % 65536

/-- The cycle number of a position (R33). -/
def cycleOf (p : Nat) : Nat := p / 65536

/-- The accumulator's step per fabric cycle, rounded to nearest at its 32nd fractional bit, ties away from zero (R33);
a cycle being quickened or slowed by e au runs 65,536 − e au of reference time (R48). -/
def Clock.step (c : Clock) : Nat :=
  (roundAway (c.freq * 65536 * Config.accOne * 65536)
    (Config.fabricHz * 1000000 * (65536 - c.corrNow).toNat)).toNat

/-- The tracked frequency moved towards its target by at most 0.5 Hz/s since the limit was last spent, 1 µHz in 800
fabric cycles (R39, log 11). -/
def Clock.slew (c : Clock) : Clock :=
  let k := (c.fabric - c.slewAt) / 800
  if c.freq = c.target then { c with slewAt := c.fabric }
  else if c.freq < c.target then { c with freq := min c.target (c.freq + k), slewAt := c.slewAt + 800 * k }
  else { c with freq := max c.target (c.freq - k), slewAt := c.slewAt + 800 * k }

/-- `n` fabric cycles later at one rate; the frequency then follows its target (log 11). -/
def Clock.run (c : Clock) (n : Nat) : Clock :=
  Clock.slew { c with acc := c.acc + n * c.step, fabric := c.fabric + n }

/-- The first fabric cycle on which the count has reached a position, at one rate. -/
def Clock.runTo (c : Clock) (pos : Nat) : Clock :=
  if pos * Config.accOne ≤ c.acc then c else c.run (ceilDiv (pos * Config.accOne - c.acc) c.step)

/-- The correction of a cycle ends, and that of the next begins: at most 655 au in each (R48). -/
def Clock.endCorr (c : Clock) : Clock :=
  let k := clampI (-655) 655 c.corrLeft
  { c with corrNow := k, corrLeft := c.corrLeft - k, corrEnd := c.corrEnd + 65536 }

/-- `n` fabric cycles later, of which a cycle being quickened or slowed runs at its own rate to its end (R48); at most
`fuel` such cycles end. -/
def Clock.advanceIn : Nat → Clock → Nat → Clock
  | 0, c, n => c.run n
  | fuel + 1, c, n =>
    let k := ceilDiv (c.corrEnd * Config.accOne - c.acc) c.step
    if c.corrNow = 0 ∨ n < k then c.run n else advanceIn fuel (c.run k).endCorr (n - k)

/-- `n` fabric cycles later: a correction below −655 au ends within 51 cycles (R48). -/
def Clock.advance (c : Clock) (n : Nat) : Clock := c.advanceIn 64 n

/-- The clock where the count has reached a position; at most `fuel` corrected cycles end on the way. -/
def Clock.reachIn : Nat → Clock → Nat → Clock
  | 0, c, pos => c.runTo pos
  | fuel + 1, c, pos =>
    if c.corrNow = 0 ∨ pos < c.corrEnd then c.runTo pos else reachIn fuel (c.runTo c.corrEnd).endCorr pos

/-- The clock on the first fabric cycle on which the count has reached a position (R34); unchanged when it has. -/
def Clock.reach (c : Clock) (pos : Nat) : Clock := if pos * Config.accOne ≤ c.acc then c else c.reachIn 64 pos

/-- The clock at a fabric cycle, or unchanged when that has passed. -/
def Clock.untilFabric (c : Clock) (f : Nat) : Clock := c.advance (f - c.fabric)

/-- The state on the first fabric cycle on which the count has reached a position. -/
def reachPos (s : State) (pos : Nat) : State := { s with clk := s.clk.reach pos }

/-- The nominal frequency of LAC.CTRL.NOMINAL in µHz (R33, R44). -/
def nominalFreq (s : State) : Nat := if rdB s (reg pLAC 0x080) 8 then 60000000 else 50000000

/-- Fabric cycles in a number of milliseconds. -/
def msFabric (n : Nat) : Nat := n * 400000

/-- The scan period in au, T = 32,768 × 2^p (R58, R27). -/
def scanT (s : State) : Nat := 32768 * 2 ^ (min 8 (rdF s (reg pSCAN 0x080) 0 4))

/-! ### What a source was (R37, R53, R113, R191) -/

/-- A change of a source noted with what it was before. Changes are kept while a position that the count has reached and whose
events have not been evaluated can ask for what they replaced, and for the fabric cycles on which LATE and deferred actions
still fire (R49, R55). -/
def notePast (s : State) (kind idx sub ord : Nat) (old : Slot) : State :=
  { s with past := ⟨kind, idx, sub, count s, s.clk.fabric, ord, old⟩ ::
    s.past.filter fun e =>
      e.pos == count s || decide (s.clk.fabric ≤ e.cyc + 64) || (s.lac.inService && decide (s.lac.evald < e.pos)) }

/-- A source as it was before the changes that `late` names: before the first of them, or as it is. -/
def pastSlot (s : State) (kind idx : Nat) (late : Past → Bool) (now : Slot) : Slot :=
  match (s.past.filter fun e => e.kind == kind && e.idx == idx && late e).getLast? with
  | some e => e.old
  | none => now

/-- A source as it was before a position was reached: a change stamped at it or after it is none of its own (R37, R53). -/
def beforePos (s : State) (kind idx sub pos : Nat) (now : Slot) : Slot :=
  pastSlot s kind idx (fun e => e.sub == sub && decide (pos ≤ e.pos)) now

/-! ### Modes -/

/-- MOD.MODE.FLOOR -/
def mFLOOR (s : State) : Bool := s.guard.mode.getLsbD 0
/-- MOD.MODE.DISTRICT -/
def mDISTRICT (s : State) : Bool := s.guard.mode.getLsbD 1
/-- MOD.MODE.METER -/
def mMETER (s : State) : Bool := s.guard.mode.getLsbD 2
/-- MOD.MODE.COMMISSION -/
def mCOMM (s : State) : Bool := s.guard.mode.getLsbD 3
/-- MOD.MODE.DEBUG -/
def mDEBUG (s : State) : Bool := s.guard.mode.getLsbD 4
/-- MOD.MODE.ISLAND -/
def mISLAND (s : State) : Bool := s.guard.mode.getLsbD 5
/-- MOD.MODE.ECONOMY -/
def mECON (s : State) : Bool := s.guard.mode.getLsbD 6
/-- MOD.MODE.LOCKDOWN -/
def mLOCK (s : State) : Bool := s.guard.mode.getLsbD 7
/-- FLOOR or DISTRICT is set: the module is not quiet. -/
def roleSet (s : State) : Bool := mFLOOR s || mDISTRICT s

/-- Whether a page's block is fused off (R3). -/
def fusedOff (s : State) (p : Nat) : Bool :=
  (featureD p && !s.guard.fD) || (featureM p && !s.guard.fM) || (featureE p && !s.guard.fE)

/-- FLT_STAT.FENCED of a page (R303). -/
def fenced (s : State) (p : Nat) : Bool := !isLoopbank p && rdB s (reg p 0x028) 1
/-- FLT_STAT.RETIRED of a page (R303). -/
def retiredPg (s : State) (p : Nat) : Bool := !isLoopbank p && rdB s (reg p 0x028) 2
/-- PG_CTRL.ENABLE of a page (R360). -/
def enabled (s : State) (p : Nat) : Bool := rdB s (reg p 0x008) 0

/-- Whether the mode flags let a page's block run (R326, R313, R345); Signwright always finishes its waveforms. -/
def modeRuns (s : State) (p : Nat) : Bool :=
  if p = pLOOP ∨ p = pSCAN then mFLOOR s && !s.guard.safe && !s.guard.dead
  else if p = pFACT then mDISTRICT s && !mLOCK s && !s.guard.safe && !s.guard.dead
  else if (pETH ≤ p ∧ p ≤ 0x51) ∨ p = pOPX ∨ (pMB ≤ p ∧ p ≤ pFIO) then
    roleSet s && !s.guard.safe && !s.guard.dead
  else if p = pWGH then roleSet s || mMETER s
  else true

/-- A page's block runs: enabled, neither fenced nor retired, present, and let run by the mode. -/
def runs (s : State) (p : Nat) : Bool :=
  enabled s p && !fenced s p && !retiredPg s p && !fusedOff s p && modeRuns s p

/-! ### Elements (R300) -/

/-- The first page of a page's block: its rank and its name in faults (R20, R300). -/
def blockPage (p : Nat) : Nat :=
  if p = 0x0A then pAET else if pWGH ≤ p ∧ p ≤ pWGHPQ then pWGH else if p = pFACTQ then pFACT
  else if p = pSGNRG then pSGN else if isLoopbank p then pLOOP else p

/-- The element word of a level, region, page and cell. -/
def elemOf (level region page cell : Nat) : Nat := cell + level * 2 ^ 20 + region * 2 ^ 22 + page * 2 ^ 24

/-- The number of a page's region in element words; 0 for a module-level block (R8). -/
def regionOf (p : Nat) : Nat :=
  if (pETH ≤ p ∧ p ≤ 0x51) ∨ p = pOPX then 1
  else if (0x10 ≤ p ∧ p ≤ 0x13) ∨ p = pFACT ∨ p = pFACTQ ∨ p = pPTS ∨ p = pTEN then 2
  else if p = pPROT ∨ p = pDAYB ∨ (pLOCK ≤ p ∧ p ≤ pSCRV) ∨ p = pUPD then 3
  else 0

/-- A block stands directly under the module (R8). -/
def moduleLevel (p : Nat) : Bool := p == pMOD || p == pINTC || p == pFLTM || p == pTOLL || p == pHOSTP

/-- The element word of a cell of a page. -/
def cellWord (p c : Nat) : Nat := elemOf 0 (regionOf p) p c

/-- What the fault manager knows of an element. -/
def elemSt (s : State) (e : Nat) : ElemSt := look .ok s.fltm.elems e

/-- A cell of a page is out of service: fenced, under test or retired (R303, R306). -/
def cellOut (s : State) (p c : Nat) : Bool := (elemSt s (cellWord p c)).phase != .service

/-! ### Statistics counters -/

/-- Clear-on-read mode of a page's statistics counters (R334). -/
def corMode (s : State) (p : Nat) : Bool :=
  !s.guard.operational || (mCOMM s && !mLOCK s) || fenced s p

/-- A counter of `width` bits after `k` more events: saturating in clear-on-read mode, else wrapping (R334). -/
def countUp (cor : Bool) (width v k : Nat) : Nat :=
  if cor then min (v + k) (2 ^ width - 1) else (v + k) % 2 ^ width

/-- Whether an address holds a statistics counter. -/
def isStat (a : Nat) : Bool :=
  if pageOf a = pTENQ then true
  else
    match rowOf a with
    | some r => r.stat
    | none => false

/-- The page whose statistics rules a counter follows. -/
def statPage (a : Nat) : Nat := if pageOf a = pTENQ then pTEN else pageOf a

/-- A 32-bit statistics counter counts `k` events. -/
def bumpBy (s : State) (a k : Nat) : State := wr s a (w32 (countUp (corMode s (statPage a)) 32 (rd s a).toNat k))

/-- A 32-bit statistics counter counts one event. -/
def bump (s : State) (a : Nat) : State := bumpBy s a 1

/-- A counter that rolls over and is never cleared by reading. -/
def tally (s : State) (a : Nat) : State := wr s a (rd s a + 1)

/-- A field that counts up and saturates. -/
def satF (s : State) (a lo n k : Nat) : State := wrF s a lo n (min (rdF s a lo n + k) (2 ^ n - 1))

/-- A page's statistics counters cleared: on the fabric cycle on which they enter clear-on-read mode (R334). -/
def clearStats (s : State) (p : Nat) : State :=
  { s with regs := s.regs.filter fun e => !(statPage e.1 == p && isStat e.1) }

/-- Every page's statistics counters cleared. -/
def clearAllStats (s : State) : State := { s with regs := s.regs.filter fun e => !isStat e.1 }

/-- SCAN.STAT: STATE, DEPTH, STOP_PENDING, CONSEC_OVR (chapter 3). -/
def scanStat (s : State) : Word :=
  let st := match s.loom.eng with | .stop => 0 | .run => 1 | .hold => 2
  let depth := if s.loom.ahead2.isSome then 2 else if s.loom.ahead1.isSome then 1 else 0
  w32 (st + depth * 4 + b2n s.loom.stopPending * 16 + rdF s (reg pSCAN 0x090) 8 8 * 256)

/-! ### Interrupts (R359–R364) -/

/-- IRQ_PEND of a page: its event register ORed with its software bits (R359). -/
def irqPend (s : State) (p : Nat) : Word :=
  (match evtAddr p with | some a => rd s a | none => 0) ||| rd s (reg p 0x010)

/-- The interrupt request of a page (R359). -/
def pageReq (s : State) (p : Nat) : Bool :=
  !isLoopbank p && (pageType p).isSome && decide (irqPend s p &&& ~~~(rd s (reg p 0x01C)) ≠ 0)

/-- Whether INTC source `n` is pending: a page request or software bit, or an edge latch (R361). -/
def srcPending (s : State) (n : Nat) : Bool :=
  rdB s (reg pINTC (0x080 + 4 * (n / 32))) (n % 32) || (decide (n < 128) && pageReq s n)

/-- Whether source `n` is masked at INTC. -/
def srcMasked (s : State) (n : Nat) : Bool := rdB s (reg pINTC (0x0E0 + 4 * (n / 32))) (n % 32)

/-- The priority of source `n`. -/
def srcPrio (s : State) (n : Nat) : Nat := rdF s (reg pINTC (0x400 + 4 * n)) 0 4

/-- Whether source `n` is a candidate of target `t` (R362). -/
def candidate (s : State) (t n : Nat) : Bool :=
  srcPending s n && !srcMasked s n && decide (rdF s (reg pINTC (0x400 + 4 * n)) 4 1 = t) &&
    decide (rdF s (reg pINTC (0x168 + 4 * t)) 0 4 < srcPrio s n)

/-- The request line of a target (R362). -/
def intLine (s : State) (t : Nat) : Bool := (List.range 256).any (candidate s t)

/-- Whether source `n` was pending as the previous fabric cycle left it (R363). -/
def srcBefore (s : State) (n : Nat) : Bool :=
  let pend := (match evtAddr n with | some a => rdBefore s a | none => 0) ||| rdBefore s (reg n 0x010)
  bit (rdBefore s (reg pINTC (0x080 + 4 * (n / 32)))) (n % 32) ||
    (decide (n < 128) && !isLoopbank n && (pageType n).isSome && decide (pend &&& ~~~(rd s (reg n 0x01C)) ≠ 0))

/-- INTC.TOPn: the candidate of highest priority, the lower source number on a tie, with its priority; a source that has become
pending on this fabric cycle appears from the next read (R363). -/
def topSource (s : State) (t : Nat) : Word :=
  let best := (List.range 256).foldl (fun (b : Option Nat) n =>
    if candidate s t n && srcBefore s n then
      match b with
      | none => some n
      | some m => if srcPrio s m < srcPrio s n then some n else some m
    else b) none
  match best with
  | none => 0x3FF
  | some n => w32 (n + srcPrio s n * 65536)

/-- A RAISE action: the edge latch of source 0x80 + n set (R361). -/
def raiseSrc (s : State) (n : Nat) : State :=
  setBits s (reg pINTC (0x080 + 4 * ((128 + n) / 32))) (w32 (2 ^ ((128 + n) % 32)))

/-! ### Initiators -/

/-- The class as its number in R12. -/
def clsN : Cls → Nat
  | .safety => 0
  | .control => 1
  | .operator => 2
  | .tenant => 3
  | .bulk => 4

/-- The class that a number names; 5–7 act as 4 (PROT.CEIL, HOSTP.CTRL.CLASS). -/
def clsOf (n : Nat) : Cls :=
  match n with
  | 0 => .safety
  | 1 => .control
  | 2 => .operator
  | 3 => .tenant
  | _ => .bulk

/-- A number of its own for each initiator, for the latches and staged words of R36 and R351. -/
def whoIdx : Who → Nat
  | .host => 0
  | .service => 1
  | .core n => 2 + n.val
  | .opx n => 16 + n.val
  | .hw p => 4096 + p.val
  | .loom => 8192
  | .loop n => 8448 + n.val

/-- A session slot's state. -/
def session (s : State) (slot : Nat) : Session := look .free s.opx.sess slot

/-- The bound tenant of an initiator (R195). -/
def tenantOf (s : State) : Who → Nat
  | .opx n => (session s n.val).tenant
  | _ => 0

/-- The class ceiling of an initiator (R13). -/
def ceiling (s : State) : Who → Cls
  | .host => clsOf (rdF s (reg pPROT 0x08C) 0 3)
  | .service => clsOf (rdF s (reg pPROT 0x08C) 4 3)
  | .core _ => .safety
  | .opx n => (session s n.val).ceiling
  | .hw p => if p.val = pFACT ∨ p.val = pOPX ∨ p.val = pUPD then .control else .safety
  | .loom => .safety
  | .loop _ => .safety

/-- The class a request of an initiator carries: the host's is HOSTP.CTRL.CLASS (R354). -/
def clsFor (s : State) (i : Init) : Cls :=
  match i.who with
  | .host => clsOf (rdF s (reg pHOSTP 0x080) 0 3)
  | _ => i.cls

/-- The rights bits of R230 of an initiator: PROT's for the host and the service port, the session's own over OPX, all
for the supervisor and for hardware. Bit 8 is KEY. -/
def rightsOf (s : State) : Who → Nat
  | .host => rdF s (reg pPROT 0x090) 0 9
  | .service => rdF s (reg pPROT 0x094) 0 9
  | .opx n => (session s n.val).rights
  | _ => 511

/-- Whether an initiator holds right `n`. -/
def hasRight (s : State) (w : Who) (n : Nat) : Bool := rightsOf s w / 2 ^ n % 2 == 1

/-- An initiator is external: neither Loom, nor a loop, nor hardware (R200). -/
def external : Who → Bool
  | .hw _ => false
  | .loom => false
  | .loop _ => false
  | _ => true

/-- An initiator is a supervisor core. -/
def isCore : Who → Bool
  | .core _ => true
  | _ => false

/-- The origin format of R188. -/
def origin (s : State) (w : Who) : Word :=
  let (ini, ident) : Nat × Nat :=
    match w with
    | .host => (0, 0)
    | .core n => (1, n.val)
    | .opx n => (2, n.val)
    | .service => (3, 0)
    | .loom => (4, 0)
    | .hw p => (5, p.val)
    | .loop n => (6, n.val)
  w32 (ini * 2 ^ 28 + tenantOf s w * 2 ^ 20 + ident)

/-- The page index an initiator ranks by (R20), a block's the lowest of its pages; cores after the service port. -/
def issuerPage : Who → Nat
  | .host => 0x7F
  | .service => 0x80
  | .core n => 0xF0 + n.val
  | .opx _ => 0x58
  | .hw p => blockPage p.val
  | .loom => 0x10
  | .loop _ => 0x18

/-! ### Outcome words (R29) -/

def oSERVED : Nat := 0
def oDELAYED : Nat := 1
def oLOAD : Nat := 2
def oBULK : Nat := 3
def oLOG : Nat := 4
def oRIGHTS : Nat := 5
def oABSENT : Nat := 6
def oDISCARDED : Nat := 7
def oTAMPERED : Nat := 8

/-- The outcome word of a code and a delay (R29). -/
def outWord (code delay : Nat) : Nat := code + 256 * delay

/-! ### DRAM -/

/-- A byte of DRAM; beyond the addressable DRAM bytes read 0 (R349). -/
def ramByte (s : State) (a : Nat) : Byte :=
  if a < Config.dramBytes then look Config.dramUnlisted s.dram a else 0

/-- A byte written to DRAM; writes beyond the addressable DRAM are ignored (R349). -/
def ramPut (s : State) (a : Nat) (b : Byte) : State :=
  if a < Config.dramBytes then { s with dram := put Config.dramUnlisted s.dram a b } else s

/-- `n` bytes of DRAM from an address. -/
def ramBytes (s : State) (a n : Nat) : List Byte := (List.range n).map fun i => ramByte s (a + i)

/-- Bytes written to DRAM from an address. -/
def ramWrite (s : State) (a : Nat) : List Byte → State
  | [] => s
  | b :: bs => ramWrite (ramPut s a b) (a + 1) bs

/-- A little-endian number of `n` bytes in DRAM. -/
def ramNat (s : State) (a n : Nat) : Nat := leNat (ramBytes s a n)

/-! ### How a command ends -/

/-- FAULT_N is driven low (R314): until start-up step 5 has completed, in the module safe state, in DEAD (R345), and on
an unacknowledged retirement under LASTING_PIN. -/
def faultLow (s : State) : Bool :=
  (!s.guard.operational && decide (s.guard.step ≤ 5)) || s.guard.safe || s.guard.dead ||
    (rdB s (reg pFLTM 0x080) 7 && rdB s (reg pFLTM 0x084) 1)

/-- The module after the lines have followed the state: T0's line, the MSI sent at its rising edge, INTA (R364) and
FAULT_N (R314). -/
def settle (old new : State) : State :=
  let line := intLine new 0
  let msiEn := rdB new (reg pHOSTP 0x084) 6
  { new with pins := { new.pins with
      faultN := !faultLow new
      t0 := line
      inta := line && !msiEn
      msi := new.pins.msi + b2n (line && !old.pins.t0 && msiEn) } }

/-- What of the guard a command other than a module reset may not undo: PROT.LOCK stays set (R340), METER stays set
but for an accepted signed command (R324), UPD.ARB, SCMD_CTR and ATT_CTR never fall (R344, R335, R285), the life-cycle never
goes back (R286), DEAD stands (R345), and the fuses are fixed (R2). -/
def Guard.advance (old new : Guard) : Guard :=
  { new with
    mode := if old.scmdCtr < new.scmdCtr then new.mode else new.mode ||| (old.mode &&& 4)
    protLock := old.protLock || new.protLock
    operational := old.operational || new.operational
    dead := old.dead || new.dead
    arb := max old.arb new.arb
    scmdCtr := max old.scmdCtr new.scmdCtr
    attCtr := max old.attCtr new.attCtr
    lifecycle := max old.lifecycle new.lifecycle
    fD := old.fD
    fM := old.fM
    fE := old.fE }

/-- The end of a command that moves neither the clock nor the guard. -/
def finish (s t : State) : Host.Outcome State Fault Refusal :=
  .next { settle s t with clk := s.clk, guard := s.guard, pending := s.pending }

/-- The end of a command that may change the guard. -/
def finishGuard (s t : State) : Host.Outcome State Fault Refusal :=
  .next { settle s t with clk := s.clk, guard := s.guard.advance t.guard, pending := s.pending }

/-- The later of two clocks: the count never decreases (R47). -/
def Clock.later (old new : Clock) : Clock := if old.acc ≤ new.acc then new else { new with acc := old.acc }

/-- The end of a command that may move the clock and change the guard. -/
def finishClock (s t : State) : Host.Outcome State Fault Refusal :=
  .next { settle s t with
    clk := s.clk.later t.clk, guard := s.guard.advance t.guard, pending := s.pending }

/-- The end of a module reset: clock and guard as it leaves them. -/
def finishReset (s t : State) : Host.Outcome State Fault Refusal :=
  .next { settle s t with pending := s.pending }

end Sys2Proof.Machine
end

