-- ==== Sys2Proof/Machine/Accounts.lean ====
section
/-!
DEFINITION. TOLL's accounts (R14–R18, R22, R32): the capacity of a resource in a window, its grants by class and tenant, and
the counters of the TOLL page.
-/

namespace Sys2Proof.Machine

/-- The number of a resource in the TOLL page: 0 fabric, 1 DRAM, 2 OPX session service, 3 point-store port, 4 Daybook. -/
def resNum (k : Nat) : Nat := if k < 5 then 0 else k - 4

/-- The capacity per second of a resource in grant units; DRAM's is 34 GB/s in bursts of 64 B. -/
def capPerSec (k : Nat) : Nat :=
  match resNum k with
  | 0 => 400000000
  | 1 => 531250000
  | 2 => 3000000
  | 3 => 200000000
  | _ => 500000

/-- The capacity of a resource in a window of 8,192 au at the current frequency (R15). -/
def capacity (s : State) (k : Nat) : Nat := capPerSec k * 1000000 / (8 * s.clk.freq)

/-- Grants of the window at a resource to a class. -/
def usedOf (s : State) (k c : Nat) : Nat := look 0 s.toll.used (k * 8 + c)

/-- Grants of the window at a resource. -/
def usedAll (s : State) (k : Nat) : Nat := ((List.range 5).map (usedOf s k)).sum

/-- The percentage of SAFETY (0) or CONTROL (1) in force at a resource (R16, R17). -/
def budgetPct (s : State) (k c : Nat) : Nat := fld (look 0x280A s.toll.budget (resNum k)) (8 * c) 8

/-- STAT.CONGESTED of a resource (R22). -/
def congested (s : State) (k : Nat) : Bool := rdB s (reg pTOLL 0x09C) (resNum k)

/-- The counter of a resource and class counts `n`: 0 served, 4 delayed, 8 refused (R32). -/
def tollCount (s : State) (k : Nat) (c : Cls) (o n : Nat) : State :=
  bumpBy s (reg pTOLL (0x200 + 0x40 * resNum k + 0x0C * clsN c + o)) n

/-- `n` grants to an initiator entered in the window's accounts. -/
def tollUse (s : State) (w : Who) (c : Cls) (k n : Nat) : State :=
  let key := k * 8 + clsN c
  let t := k * 256 + tenantOf s w
  { s with toll := { s.toll with
    used := put 0 s.toll.used key (look 0 s.toll.used key + n)
    tenUsed := if c = .tenant then put 0 s.toll.tenUsed t (look 0 s.toll.tenUsed t + n) else s.toll.tenUsed } }

/-- The key of a budget fault: resource, class and issuer (R26). -/
def budgetKey (w : Who) (c : Cls) (k : Nat) : Nat := resNum k * 2 ^ 16 + clsN c * 2 ^ 8 + issuerPage w

/-- `n` SAFETY or CONTROL grants take their class beyond its budget in the window, for the first time of their issuer at
the resource (R26). -/
def overBudget (s : State) (w : Who) (c : Cls) (k n : Nat) : Bool :=
  decide (clsN c < 2) && decide (budgetPct s k (clsN c) * capacity s k / 100 < usedOf s k (clsN c) + n) &&
    !s.toll.faulted.contains (budgetKey w c k)

/-- A budget fault's marks at TOLL: EVT.BUDGET_FAULT, and resource, class and issuer in FLT_CAPT_A (R26). -/
def budgetMark (s : State) (w : Who) (c : Cls) (k : Nat) : State :=
  let t := { s with toll := { s.toll with faulted := budgetKey w c k :: s.toll.faulted } }
  wr (ev t pTOLL 0) (reg pTOLL 0x02C) (w32 (resNum k + clsN c * 16 + issuerPage w * 256))

/-- The rank of R20: page, then session or loop. Sessions rank by their slot, the part of a session ID that other chapters
match by (R224): whether the generation in SESSION [31:11] takes part is open in R20. DESIGN CHOICE, unsafe (log 51). -/
def rankOf (w : Who) : Nat :=
  issuerPage w * 4096 + (match w with | .opx n => n.val | .loop n => n.val | _ => 0)

/-- The order of R20 of a write among those on its fabric cycle: the more urgent class first, then the rank of the
initiator. -/
def orderOf (w : Who) (c : Cls) : Nat := clsN c * 2 ^ 24 + rankOf w

/-- `n` grants at once, of requests that their block makes without a queue of its own (log 52). -/
def tollServed (s : State) (w : Who) (c : Cls) (k n : Nat) : State :=
  if n = 0 then s else tollCount (tollUse s w c k n) k c 0 n

/-- The region a page stands in; none for a module-level block (R8). -/
def pageRegion (p : Nat) : Option Nat := if moduleLevel p then none else some (regionOf p)

/-- The region an initiator's requests come from: sessions from the OPX engine's; none for the host port, the service port
and the cores (R8). -/
def srcRegion : Who → Option Nat
  | .opx _ => some 1
  | .hw p => pageRegion p.val
  | .loom => some 2
  | .loop _ => some 0
  | _ => none

/-- The fabric ports between two ends (R9): the port of the region at each, none within one region, the module's own where
neither end stands in a region (log 51). -/
def fabricPath : Option Nat → Option Nat → List Nat
  | some a, some b => if a = b then [] else [a, b]
  | some a, none => [a]
  | none, some b => [b]
  | none, none => [4]

/-- The resources between an initiator and the point store: the fabric's ports and the point-store port (R9, R10). -/
def ptPath (w : Who) : List Nat := fabricPath (srcRegion w) (some 2) ++ [7]

/-- `n` requests of a hardware block, Loom or a loop, granted on arrival at a resource, of which they pass `ks` next (R12, R16,
R26, R32, log 52): entered in the accounts and counted, with the marks of a budget fault. The two ports of a transfer between
regions are one resource, counted at the second. -/
def hwGrant (s : State) (w : Who) (c : Cls) (k : Nat) (ks : List Nat) (n : Nat) : State :=
  let t := tollUse (if overBudget s w c k n then budgetMark s w c k else s) w c k n
  if k < 5 ∧ ks.any (fun j => decide (j < 5)) then t else tollCount t k c 0 n

/-- `n` requests granted at the resources of a path. -/
def hwGrants (s : State) (w : Who) (c : Cls) : List Nat → Nat → State
  | [], _ => s
  | k :: ks, n => if n = 0 then s else hwGrants (hwGrant s w c k ks n) w c ks n

/-- A hardware block's transfer of some bytes to or from DRAM, in bursts of 64 B (R9, R14). -/
def dramUse (s : State) (w : Who) (c : Cls) (bytes : Nat) : State :=
  hwGrants s w c (fabricPath (srcRegion w) none ++ [5]) (ceilDiv bytes 64)

/-- `n` accesses to the point store that a hardware block, Loom or a loop makes of its own: class CONTROL (R12, R59). -/
def ptUse (s : State) (w : Who) (n : Nat) : State := hwGrants s w .control (ptPath w) n

end Sys2Proof.Machine
end

