-- ==== Sys2Proof/Machine/Daybook.lean ====
section
/-!
DEFINITION. The Daybook's operations (R200–R206): free slots, admission, reserving slots with the gap entry of R205,
and writing reserved entries to the ring.
-/

namespace Sys2Proof.Machine

/-- The slots of the ring (R202). -/
def ringSlots : Nat := 16384

/-- A slot lies among those of the entries from DRAIN_SEQ up to HEAD_SEQ. -/
def dayHeld (s : State) (r : Nat) : Bool :=
  decide ((r + ringSlots - s.dayb.drain % ringSlots) % ringSlots < s.dayb.head - s.dayb.drain)

/-- F, the number of free slots (R203): those not held by entries from DRAIN_SEQ on, nor retired (R206). -/
def dayFree (s : State) : Nat :=
  ringSlots - (s.dayb.retired.filter fun r => !dayHeld s r).length - (s.dayb.head - s.dayb.drain)

/-- The free count a request is judged against: after the gap entry's slot when one precedes it (R205). -/
def dayFreeFor (s : State) : Nat := dayFree s - (if s.dayb.lost = 0 then 0 else 1)

/-- The threshold of R203 below which a class is refused. -/
def dayThr : Cls → Nat
  | .bulk => 2048
  | .tenant => 1024
  | .operator => 256
  | .safety => 0
  | .control => 0

/-- Whether a class is admitted on a free count (R203); from a power-fail trigger only SAFETY and CONTROL (R206). -/
def dayAdmits (s : State) (c : Cls) (f : Nat) : Bool :=
  decide (dayThr c < f) && (!s.dayb.powerFail || c == .safety || c == .control)

/-- Whether a request of a class finds a slot at the logging stage (R203, R205). -/
def logOk (s : State) (c : Cls) : Bool := dayAdmits s c (dayFreeFor s)

/-- CAL.TICK: the ticks of 32,768 Hz since the last second boundary, as the trim has corrected them (R292, log 24). -/
def calTick (s : State) : Nat :=
  clampN 0 32767 (s.vault.tickBase + ((s.clk.fabric - s.vault.tickAt) * 32768 / Config.fabricHz : Nat)).toNat

/-- The calendar time of a change in the format of R200, bit 0 on: tick, second, minute, hour, day, month, year. -/
def calStamp (s : State) : DWord :=
  BitVec.ofNat 64
    (calTick s * 2 ^ 11 + rdF s (reg pCAL 0x080) 0 6 * 2 ^ 26 +
     rdF s (reg pCAL 0x084) 0 6 * 2 ^ 32 + rdF s (reg pCAL 0x088) 0 5 * 2 ^ 38 +
     rdF s (reg pCAL 0x090) 0 5 * 2 ^ 43 + rdF s (reg pCAL 0x094) 0 4 * 2 ^ 48 +
     rdF s (reg pCAL 0x098) 0 12 * 2 ^ 52)

/-- What a change says of itself; the Daybook adds SEQ, calendar time and position. -/
structure Change where
  origin : Word
  kind : Nat
  target : Nat
  old : DWord
  new : DWord
  outcome : Nat
  hashed : Bool := false
  level : Nat := 0
  cls : Cls
  deriving DecidableEq, Repr

/-- The next SEQ whose slot is not retired (R206). -/
def nextSeq (retired : List Nat) (q : Nat) : Nat → Nat
  | 0 => q
  | n + 1 => if retired.contains (q % ringSlots) then nextSeq retired (q + 1) n else q

/-- An entry of the ring. -/
def mkEntry (s : State) (c : Change) (q : Nat) : DayEntry :=
  { seq := q, cal := calStamp s, pos := count s, origin := c.origin, kind := c.kind, target := c.target, old := c.old,
    new := c.new, outcome := c.outcome, hashed := c.hashed, gap := false, level := c.level, cls := c.cls }

/-- The gap entry that precedes an entry after losses (R205). -/
def gapEntry (s : State) (c : Change) (q : Nat) : DayEntry :=
  { seq := q, cal := calStamp s, pos := count s, origin := w32 (5 * 2 ^ 28 + pDAYB), kind := 15, target := 0,
    old := BitVec.ofNat 64 s.dayb.lost, new := 0, outcome := oSERVED, hashed := false, gap := true, level := 0,
    cls := c.cls }

/-- EVT.LOW when F falls to LOW_THR or below on the way from one state to the next. -/
def dayLow (s t : State) : State :=
  let thr := min ringSlots (rdF s (reg pDAYB 0x088) 0 15)
  evIf (decide (thr < dayFree s) && decide (dayFree t ≤ thr)) t pDAYB 0

/-- Slots reserved for a change, and for the gap entry before it; EVT.LOW when F falls to LOW_THR (R201, R205). -/
def dayReserve (s : State) (c : Change) : State :=
  let n := s.dayb.retired.length
  let q0 := nextSeq s.dayb.retired s.dayb.head n
  let (es, hd) :=
    if s.dayb.lost = 0 then ([mkEntry s c q0], q0 + 1)
    else
      let q1 := nextSeq s.dayb.retired (q0 + 1) n
      ([gapEntry s c q0, mkEntry s c q1], q1 + 1)
  dayLow s { s with dayb := { s.dayb with head := hd, reserved := s.dayb.reserved ++ es, lost := 0 } }

/-- A change of external origin that completed, logged (the logging stage has found a slot). -/
def logChange (s : State) (c : Change) : State := dayReserve s c

/-- A refusal: logged when R203 leaves a slot, else counted in UNLOGGED_COUNT (R201). -/
def logRefusal (s : State) (c : Change) : State :=
  if logOk s c.cls then dayReserve s c else bump s (reg pDAYB 0x0A0)

/-- A change that no initiator asks admission for, entered with an origin: made in any case, logged when a slot is free, else
lost (R204); from a power-fail trigger the entries of SAFETY and CONTROL alone are admitted (R206). Its admission is a grant
of resource 4 (R201, R32, log 52). -/
def logMade (s : State) (w : Who) (c : Change) : State :=
  if 0 < dayFreeFor s ∧ (!s.dayb.powerFail ∨ c.cls = .safety ∨ c.cls = .control) then
    dayReserve (tollServed s w c.cls 8 1) c
  else ev (tally { s with dayb := { s.dayb with lost := s.dayb.lost + 1 } } (reg pDAYB 0x0A4)) pDAYB 2

/-- A change of HARDWARE origin (R204). -/
def logHw (s : State) (page kind target : Nat) (old new : DWord) (c : Cls := .safety) (out : Nat := oSERVED) : State :=
  logMade s (.hw (Fin.ofNat 128 page))
    { origin := w32 (5 * 2 ^ 28 + page), kind, target, old, new, outcome := out, cls := c }

/-- The Daybook refuses a change of a class: its counts and EVT.REFUSED (R32, R201, R203). -/
def admitRefused (s : State) (c : Cls) : State :=
  bump (ev (bump (tollCount s 8 c 8 1) (reg pDAYB 0x09C)) pDAYB 1) (reg pDAYB 0x0A0)

/-- Admission for a change that its block makes at once, of an initiator and class: the grant and the reserved slot, or the
refusal (R201, R203). -/
def logAdmit (s : State) (w : Who) (c : Change) : State × Bool :=
  if logOk s c.cls then (dayReserve (tollServed s w c.cls 8 1) c, true) else (admitRefused s c.cls, false)

/-- The first reserved entry written to its slot of the ring (R201); EVT.GAP with a gap entry. -/
def dayWrite (s : State) : State :=
  match s.dayb.reserved with
  | [] => s
  | e :: es =>
    evIf e.gap { s with dayb := { s.dayb with reserved := es, ring := ins s.dayb.ring (e.seq % ringSlots) e } } pDAYB 4

/-- The entry of a SEQ takes the code that its change ended with, and NEW (R280, R281). -/
def dayEnd (s : State) (q code : Nat) (new : Option DWord) : State :=
  let f (e : DayEntry) : DayEntry :=
    if e.seq = q then { e with outcome := e.outcome / 16 * 16 + code, new := new.getD e.new } else e
  { s with dayb := { s.dayb with reserved := s.dayb.reserved.map f, ring := s.dayb.ring.map fun e => (e.1, f e.2) } }

/-- The first 8 bytes of a hash as OLD and NEW carry it (R200). -/
def hash8 (bs : List Byte) : DWord := BitVec.ofNat 64 (Crypto.sha256 bs).toNat

/-- The bytes of an entry as they stand in its slot (R200): little-endian, with its CRC-32. -/
def dayBytes (e : DayEntry) : List Byte :=
  let body := leBytes 8 e.seq ++ leBytes 8 e.cal.toNat ++ leBytes 8 e.pos ++ leBytes 4 e.origin.toNat ++
    leBytes 4 (e.kind * 2 ^ 28 + e.target) ++ leBytes 8 e.old.toNat ++ leBytes 8 e.new.toNat ++ leBytes 2 e.outcome ++
    leBytes 1 (b2n e.hashed + 2 * b2n e.gap) ++ leBytes 1 e.level ++ leBytes 1 (clsN e.cls) ++ leBytes 3 0
  body ++ leBytes 4 (Crypto.crc32 body).toNat ++ leBytes 4 0

/-- DRAIN_SEQ committed: a value that would lower it or pass HEAD_SEQ is ignored in full and sets DRAIN_ERR (R202). -/
def drainCommit (s : State) (v : Nat) : State :=
  if s.dayb.drain ≤ v ∧ v ≤ s.dayb.head then { s with dayb := { s.dayb with drain := v } } else ev s pDAYB 3

end Sys2Proof.Machine
end

