-- ==== Sys2Proof/Machine/Flags.lean ====
section
/-!
DEFINITION. The arithmetic of R93 with its flags: BOOL, INT32, Q16.16 and FLOAT32. Every operation is formed exactly,
on integers or on fractions of integers, and rounded once.
-/

namespace Sys2Proof.Machine

/-- The type that a two-bit code names (R93). -/
def tyOfCode (n : Nat) : Ty :=
  match n % 4 with
  | 0 => .bool
  | 1 => .int32
  | 2 => .q16
  | _ => .float32

/-- The two-bit code of a type (R93). -/
def tyCode : Ty → Nat
  | .bool => 0
  | .int32 => 1
  | .q16 => 2
  | .float32 => 3

/-- The arithmetic flags of a segment (R96): bit 0 S, bit 1 Z, bit 2 I, bit 3 E. -/
structure AFlags where
  s : Bool := false
  z : Bool := false
  i : Bool := false
  e : Bool := false
  deriving DecidableEq, Repr

/-- Flags of two executions together (R96). -/
def AFlags.or (a b : AFlags) : AFlags := ⟨a.s || b.s, a.z || b.z, a.i || b.i, a.e || b.e⟩

/-- The flags as the word that RDF reads (R96). -/
def AFlags.word (a : AFlags) : Word := w32 (b2n a.s + 2 * b2n a.z + 4 * b2n a.i + 8 * b2n a.e)

/-- No flag. -/
def noFl : AFlags := {}
/-- The flag S alone. -/
def flS : AFlags := { s := true }
/-- The flag Z alone. -/
def flZ : AFlags := { z := true }
/-- The flag I alone. -/
def flI : AFlags := { i := true }

/-- A result and the flags it sets. -/
abbrev Res := Word × AFlags

/-- An integer result clamped to 32 bits, with SAT when it was beyond the range (R93). -/
def satI (x : Int) : Res :=
  if x < -2147483648 then (i32 (-2147483648), flS)
  else if 2147483647 < x then (i32 2147483647, flS)
  else (i32 x, noFl)

/-- A BOOL result: a result other than 0 is stored as 1 (R93). -/
def boolRes (x : Int) : Res := (if x = 0 then 0 else 1, noFl)

/-! ### FLOAT32 -/

/-- A FLOAT32 operand, subnormals taken as zero of the same sign (R93). `fin neg m e` is ±m·2^e. -/
inductive F32 where
  | nan
  | inf (neg : Bool)
  | fin (neg : Bool) (m : Nat) (e : Int)
  deriving DecidableEq, Repr

/-- The canonical NaN (R93). -/
def nanWord : Word := 0x7FC00000#32

/-- The operand that a word holds (R93). -/
def F32.of (w : Word) : F32 :=
  let neg := bit w 31
  let ex := fld w 23 8
  let fr := fld w 0 23
  if ex = 255 then (if fr = 0 then .inf neg else .nan)
  else if ex = 0 then .fin neg 0 0
  else .fin neg (8388608 + fr) ((ex : Int) - 150)

/-- A zero of a sign. -/
def zeroF (neg : Bool) : Word := if neg then 0x80000000#32 else 0#32

/-- An infinity of a sign. -/
def infF (neg : Bool) : Word := if neg then 0xFF800000#32 else 0x7F800000#32

/-- `n / d` at or above `2^e`, for `d` not 0. -/
def geTwoPow (n d : Nat) (e : Int) : Bool :=
  if 0 ≤ e then decide (d * 2 ^ e.toNat ≤ n) else decide (d ≤ n * 2 ^ (-e).toNat)

/-- A quotient rounded to nearest, ties to even. -/
def roundEven (n d : Nat) : Nat :=
  if d = 0 then 0
  else
    let q := n / d
    let r := n % d
    if 2 * r < d then q else if d < 2 * r then q + 1 else if q % 2 = 0 then q else q + 1

/-- The binary32 word nearest to ±n/d, ties to even, subnormal results taken as zero of the same sign (R93).
Whether a result below 2^−126 that rounds up to it counts as subnormal R93 does not say: the rounding to 24 bits is judged with
an unbounded exponent. DESIGN CHOICE, unsafe (log 56). -/
def roundF (neg : Bool) (n d : Nat) : Word :=
  if n = 0 ∨ d = 0 then zeroF neg
  else
    let g : Int := (Nat.log2 n : Int) - (Nat.log2 d : Int)
    let e : Int := if geTwoPow n d g then g else g - 1
    let sh : Int := 23 - e
    let q := if 0 ≤ sh then roundEven (n * 2 ^ sh.toNat) d else roundEven n (d * 2 ^ (-sh).toNat)
    let (q, e) := if q = 16777216 then (8388608, e + 1) else (q, e)
    if e < -126 then zeroF neg
    else if 127 < e then infF neg
    else w32 (b2n neg * 2147483648 + (e + 127).toNat * 8388608 + (q - 8388608))

/-- A fraction of integers, its denominator not 0. -/
structure Frac where
  num : Int
  den : Nat
  deriving DecidableEq, Repr

/-- The value of a finite operand as a fraction. -/
def fracOf (neg : Bool) (m : Nat) (e : Int) : Frac :=
  let v : Int := if neg then -(m : Int) else m
  if 0 ≤ e then ⟨v * 2 ^ e.toNat, 1⟩ else ⟨v, 2 ^ (-e).toNat⟩

/-- Sum of fractions. -/
def Frac.add (a b : Frac) : Frac := ⟨a.num * b.den + b.num * a.den, a.den * b.den⟩
/-- Difference of fractions. -/
def Frac.sub (a b : Frac) : Frac := ⟨a.num * b.den - b.num * a.den, a.den * b.den⟩
/-- Product of fractions. -/
def Frac.mul (a b : Frac) : Frac := ⟨a.num * b.num, a.den * b.den⟩
/-- Quotient of fractions; the divisor's numerator is not 0. -/
def Frac.div (a b : Frac) : Frac :=
  if b.num < 0 then ⟨-(a.num * b.den), a.den * b.num.natAbs⟩ else ⟨a.num * b.den, a.den * b.num.natAbs⟩
/-- Order of fractions. -/
def Frac.lt (a b : Frac) : Bool := decide (a.num * b.den < b.num * a.den)
/-- The binary32 word of a fraction; an exact zero takes the sign given. -/
def Frac.toF (a : Frac) (zneg : Bool) : Word :=
  if a.num = 0 then zeroF zneg else roundF (decide (a.num < 0)) a.num.natAbs a.den

/-- A NaN result, with INV (R93). -/
def nanRes : Res := (nanWord, flI)

/-- FLOAT32 sum. -/
def addF (x y : F32) : Res :=
  match x, y with
  | .nan, _ => nanRes
  | _, .nan => nanRes
  | .inf a, .inf b => if a = b then (infF a, noFl) else nanRes
  | .inf a, _ => (infF a, noFl)
  | _, .inf b => (infF b, noFl)
  | .fin a m e, .fin b n f => ((Frac.add (fracOf a m e) (fracOf b n f)).toF (a && b), noFl)

/-- The negated operand. -/
def F32.neg : F32 → F32
  | .nan => .nan
  | .inf a => .inf (!a)
  | .fin a m e => .fin (!a) m e

/-- FLOAT32 product. -/
def mulF (x y : F32) : Res :=
  match x, y with
  | .nan, _ => nanRes
  | _, .nan => nanRes
  | .inf a, .inf b => (infF (a != b), noFl)
  | .inf a, .fin b n _ => if n = 0 then nanRes else (infF (a != b), noFl)
  | .fin a m _, .inf b => if m = 0 then nanRes else (infF (a != b), noFl)
  | .fin a m e, .fin b n f => ((Frac.mul (fracOf a m e) (fracOf b n f)).toF (a != b), noFl)

/-- FLOAT32 quotient. -/
def divF (x y : F32) : Res :=
  match x, y with
  | .nan, _ => nanRes
  | _, .nan => nanRes
  | .inf _, .inf _ => nanRes
  | .inf a, .fin b _ _ => (infF (a != b), noFl)
  | .fin a _ _, .inf b => (zeroF (a != b), noFl)
  | .fin a m e, .fin b n f =>
    if n = 0 then (if m = 0 then nanRes else (infF (a != b), noFl))
    else ((Frac.div (fracOf a m e) (fracOf b n f)).toF (a != b), noFl)

/-- FLOAT32 `x × y + z`, rounded once (SCL of R94). -/
def fmaF (x y z : F32) : Res :=
  match x, y with
  | .fin a m e, .fin b n f =>
    match z with
    | .nan => nanRes
    | .inf c => (infF c, noFl)
    | .fin c k g =>
      let p := Frac.mul (fracOf a m e) (fracOf b n f)
      ((Frac.add p (fracOf c k g)).toF ((a != b) && c), noFl)
  | _, _ =>
    let p := mulF x y
    if p.1 = nanWord then nanRes else addF (F32.of p.1) z

/-- FLOAT32 order: `none` with a NaN operand, else whether x < y and whether x = y. -/
def cmpF (x y : F32) : Option (Bool × Bool) :=
  match x, y with
  | .nan, _ => none
  | _, .nan => none
  | .inf a, .inf b => some (a && !b, a == b)
  | .inf a, _ => some (a, false)
  | _, .inf b => some (!b, false)
  | .fin a m e, .fin b n f =>
    let p := fracOf a m e
    let q := fracOf b n f
    some (Frac.lt p q, decide (p.num * q.den = q.num * p.den))

/-- The word of an operand, subnormals flushed (R93). -/
def F32.word : F32 → Word
  | .nan => nanWord
  | .inf a => infF a
  | .fin a m e => (fracOf a m e).toF a

/-! ### The typed operations -/

/-- The number a BOOL register stands for (R93). -/
def boolOf (w : Word) : Int := if w = 0 then 0 else 1

/-- ADD. -/
def opAdd (t : Ty) (a b : Word) : Res :=
  match t with
  | .bool => boolRes (boolOf a + boolOf b)
  | .int32 => satI (sw a + sw b)
  | .q16 => satI (sw a + sw b)
  | .float32 => addF (F32.of a) (F32.of b)

/-- SUB. -/
def opSub (t : Ty) (a b : Word) : Res :=
  match t with
  | .bool => boolRes (boolOf a - boolOf b)
  | .int32 => satI (sw a - sw b)
  | .q16 => satI (sw a - sw b)
  | .float32 => addF (F32.of a) (F32.neg (F32.of b))

/-- MUL: a Q16.16 product is formed exactly, rounded to nearest with ties away from zero, then clamped. -/
def opMul (t : Ty) (a b : Word) : Res :=
  match t with
  | .bool => boolRes (boolOf a * boolOf b)
  | .int32 => satI (sw a * sw b)
  | .q16 => satI (roundAway (sw a * sw b) 65536)
  | .float32 => mulF (F32.of a) (F32.of b)

/-- DIV by zero in INT32 or Q16.16: the clamp value with the dividend's sign, or 0 for a zero dividend, with DIV0. -/
def divZero (a : Word) : Res :=
  if sw a = 0 then (0, flZ) else if sw a < 0 then (i32 (-2147483648), flZ) else (i32 2147483647, flZ)

/-- DIV: quotients are truncated toward zero. A BOOL division by zero is stated nowhere: it gives the free value `fr`
(log 4). -/
def opDiv (fr : Word) (t : Ty) (a b : Word) : Res :=
  match t with
  | .bool => if b = 0 then (if fr = 0 then 0 else 1, noFl) else boolRes (boolOf a)
  | .int32 => if b = 0 then divZero a else satI (Int.tdiv (sw a) (sw b))
  | .q16 => if b = 0 then divZero a else satI (Int.tdiv (sw a * 65536) (sw b))
  | .float32 => divF (F32.of a) (F32.of b)

/-- MOD: the INT32 remainder with the dividend's sign; by zero 0 with DIV0. -/
def opMod (a b : Word) : Res :=
  if b = 0 then (0, flZ) else (i32 (Int.tmod (sw a) (sw b)), noFl)

/-- NEG; its row of R94 lists S alone, so the NaN of a FLOAT32 sets no flag (log 27). -/
def opNeg (t : Ty) (a : Word) : Res :=
  match t with
  | .bool => boolRes (-(boolOf a))
  | .int32 => satI (-(sw a))
  | .q16 => satI (-(sw a))
  | .float32 =>
    match F32.of a with
    | .nan => (nanWord, noFl)
    | x => (F32.word (F32.neg x), noFl)

/-- ABS; flags as NEG. -/
def opAbs (t : Ty) (a : Word) : Res :=
  match t with
  | .bool => boolRes (boolOf a)
  | .int32 => satI (sw a).natAbs
  | .q16 => satI (sw a).natAbs
  | .float32 =>
    match F32.of a with
    | .nan => (nanWord, noFl)
    | .inf _ => (infF false, noFl)
    | .fin _ m e => (F32.word (.fin false m e), noFl)

/-- Order of two operands of a type: `none` with a NaN operand, else whether a < b and whether a = b. -/
def opCmp (t : Ty) (a b : Word) : Option (Bool × Bool) :=
  match t with
  | .bool => some (decide (boolOf a < boolOf b), decide (boolOf a = boolOf b))
  | .int32 => some (decide (sw a < sw b), decide (a = b))
  | .q16 => some (decide (sw a < sw b), decide (a = b))
  | .float32 => cmpF (F32.of a) (F32.of b)

/-- An operand as the type holds it: BOOL 0 or 1, FLOAT32 with subnormals flushed (R93). -/
def normT (t : Ty) (a : Word) : Word :=
  match t with
  | .bool => if a = 0 then 0 else 1
  | .int32 => a
  | .q16 => a
  | .float32 => F32.word (F32.of a)

/-- An operand as a result of its type: a NaN is the one NaN, with INV (R93). -/
def valRes (t : Ty) (a : Word) : Res := if t = .float32 ∧ F32.of a = .nan then nanRes else (normT t a, noFl)

/-- MIN; a NaN operand gives NaN and INV. -/
def opMin (t : Ty) (a b : Word) : Res :=
  match opCmp t a b with
  | none => nanRes
  | some (lt, eq) => (normT t (if lt || eq then a else b), noFl)

/-- MAX; a NaN operand gives NaN and INV. -/
def opMax (t : Ty) (a b : Word) : Res :=
  match opCmp t a b with
  | none => nanRes
  | some (lt, _) => (normT t (if lt then b else a), noFl)

/-- LIM: `min(max(a, lo), hi)`. -/
def opLim (t : Ty) (a lo hi : Word) : Res :=
  let r := opMax t a lo
  if r.2.i then nanRes else opMin t r.1 hi

/-- SCL: `a × b + c`, rounded once. -/
def opScl (t : Ty) (a b c : Word) : Res :=
  match t with
  | .bool => boolRes (boolOf a * boolOf b + boolOf c)
  | .int32 => satI (sw a * sw b + sw c)
  | .q16 => satI (roundAway (sw a * sw b + sw c * 65536) 65536)
  | .float32 => fmaF (F32.of a) (F32.of b) (F32.of c)

/-- The six comparisons. -/
inductive Rel where
  | eq | ne | lt | le | gt | ge
  deriving DecidableEq, Repr

/-- A comparison's truth and flags: with a NaN operand only CNE is 1, and INV is set. -/
def opRel (r : Rel) (t : Ty) (a b : Word) : Bool × AFlags :=
  match opCmp t a b with
  | none => (decide (r = .ne), flI)
  | some (lt, eq) =>
    (match r with
     | .eq => eq
     | .ne => !eq
     | .lt => lt
     | .le => lt || eq
     | .gt => !(lt || eq)
     | .ge => !lt, noFl)

/-- A bit pattern as a result of a type: a BOOL result other than 0 is stored as 1 (R93). -/
def storeT (t : Ty) (w : Word) : Word :=
  match t with
  | .bool => if w = 0 then 0 else 1
  | _ => w

/-- NOT; BOOL gives 1 − WA. -/
def opNot (t : Ty) (a : Word) : Word :=
  match t with
  | .bool => if a = 0 then 1 else 0
  | _ => ~~~a

/-- SHL by WB[5:0]; 32 or more gives 0. -/
def opShl (a b : Word) : Word := if 32 ≤ fld b 0 6 then 0 else a <<< fld b 0 6

/-- SHR by WB[5:0], sign-filling for INT32 and Q16.16. -/
def opShr (t : Ty) (a b : Word) : Word :=
  match t with
  | .int32 => a.sshiftRight (fld b 0 6)
  | .q16 => a.sshiftRight (fld b 0 6)
  | _ => if 32 ≤ fld b 0 6 then 0 else a >>> fld b 0 6

/-! ### Conversions (R93) -/

/-- A finite FLOAT32 operand times `k`, rounded to nearest, ties to even. -/
def roundFrac (f : Frac) (k : Nat) : Int :=
  let n := f.num.natAbs * k
  let q := roundEven n f.den
  if f.num < 0 then -(q : Int) else q

/-- FLOAT32 to INT32 (k = 1) or Q16.16 (k = 65536): nearest even, clamped with SAT; NaN gives 0 and INV. -/
def floatToInt (k : Nat) (w : Word) : Res :=
  match F32.of w with
  | .nan => (0, flI)
  | .inf neg => if neg then (i32 (-2147483648), flS) else (i32 2147483647, flS)
  | .fin neg m e => satI (roundFrac (fracOf neg m e) k)

/-- A signed integer over `d` as FLOAT32, nearest even. -/
def intToFloat (x : Int) (d : Nat) : Word := (Frac.toF ⟨x, d⟩ false)

/-- The conversion of a value from one type to another (R93). -/
def conv (src dst : Ty) (w : Word) : Res :=
  match src, dst with
  | .bool, .bool => (w, noFl)
  | .bool, .int32 => (if w = 0 then 0 else 1, noFl)
  | .bool, .q16 => (if w = 0 then 0 else 65536, noFl)
  | .bool, .float32 => (if w = 0 then 0 else 0x3F800000#32, noFl)
  | .int32, .bool => (if w = 0 then 0 else 1, noFl)
  | .int32, .int32 => (w, noFl)
  | .int32, .q16 => satI (sw w * 65536)
  | .int32, .float32 => (intToFloat (sw w) 1, noFl)
  | .q16, .bool => (if w = 0 then 0 else 1, noFl)
  | .q16, .int32 => satI (roundAway (sw w) 65536)
  | .q16, .q16 => (w, noFl)
  | .q16, .float32 => (intToFloat (sw w) 65536, noFl)
  | .float32, .bool =>
    (match F32.of w with
     | .nan => 0
     | .inf _ => 1
     | .fin _ m _ => if m = 0 then 0 else 1, noFl)
  | .float32, .int32 => floatToInt 1 w
  | .float32, .q16 => floatToInt 65536 w
  | .float32, .float32 => (w, noFl)

/-! ### INTP -/

/-- The outcome of an interpolation: a result with flags, or no result stated by the spec. -/
inductive Interp where
  | res (r : Res)
  | unstated
  deriving DecidableEq, Repr

/-- The x values rise or stay (R94: x ascending). -/
def ascending (t : Ty) : List (Word × Word) → Bool
  | [] => true
  | p :: ps =>
    (match ps with
     | [] => (opCmp t p.1 p.1).isSome
     | q :: _ =>
       match opCmp t p.1 q.1 with
       | none => false
       | some (lt, eq) => lt || eq) && ascending t ps

/-- A finite operand of a type as a fraction. -/
def fracT (t : Ty) (w : Word) : Option Frac :=
  match t with
  | .bool => some ⟨boolOf w, 1⟩
  | .int32 => some ⟨sw w, 1⟩
  | .q16 => some ⟨sw w, 1⟩
  | .float32 =>
    match F32.of w with
    | .fin neg m e => some (fracOf neg m e)
    | _ => none

/-- A fraction rounded once to a type (R94, INTP). -/
def fracRes (t : Ty) (f : Frac) : Res :=
  match t with
  | .bool => boolRes f.num
  | .int32 => satI (roundAway f.num f.den)
  | .q16 => satI (roundAway f.num f.den)
  | .float32 => (f.toF false, noFl)

/-- The value between two table points. -/
def interpBetween (t : Ty) (x : Word) (p q : Word × Word) : Interp :=
  match fracT t x, fracT t p.1, fracT t q.1 with
  | some fx, some x0, some x1 =>
    match fracT t p.2, fracT t q.2 with
    | some y0, some y1 =>
      if (Frac.sub x1 x0).num = 0 then .res (normT t q.2, noFl)
      else .res (fracRes t (Frac.add y0 (Frac.div (Frac.mul (Frac.sub y1 y0) (Frac.sub fx x0)) (Frac.sub x1 x0))))
    | _, _ =>
      if t = .float32 ∧ (F32.of p.2 = .nan ∨ F32.of q.2 = .nan) then .res nanRes else .unstated
  | _, _, _ => .unstated

/-- The search through the table: the first interval whose upper x is at or above `x`. -/
def interpFind (t : Ty) (x : Word) : List (Word × Word) → Interp
  | [] => .unstated
  | p :: ps =>
    match ps with
    | [] => .res (valRes t p.2)
    | q :: _ =>
      match opCmp t x q.1 with
      | none => .res nanRes
      | some (lt, eq) => if eq then interpLast t x q ps else if lt then interpBetween t x p q else interpFind t x ps
where
  /-- At a table x, the last of the equal x values decides: where x(k+1) = x(k) the result is y(k+1). -/
  interpLast (t : Ty) (x : Word) (cur : Word × Word) : List (Word × Word) → Interp
    | [] => .res (valRes t cur.2)
    | r :: rs =>
      match opCmp t x r.1 with
      | some (_, true) => interpLast t x r rs
      | _ => .res (valRes t cur.2)

/-- INTP over a table of points of a type (R94): clamps to the end values; NaN gives NaN and INV. A table whose x do
not ascend, or an infinite value inside it, has no stated result (log 4). -/
def opIntp (t : Ty) (x : Word) (tab : List (Word × Word)) : Interp :=
  if t = .float32 ∧ F32.of x = .nan then .res nanRes
  else if !ascending t tab then .unstated
  else
    match tab with
    | [] => .unstated
    | p :: _ =>
      match opCmp t x p.1 with
      | none => .unstated
      | some (lt, eq) =>
        if lt then .res (valRes t p.2)
        else if eq then interpFind.interpLast t x p tab
        else interpFind t x tab

end Sys2Proof.Machine
end

