-- ==== Sys2Proof/Machine/Points.lean ====
section
/-!
DEFINITION. The point store's operations (R188–R199, R387): the priority array, visibility, writes and drops.
-/

namespace Sys2Proof.Machine

/-- A point record. -/
def point (s : State) (i : Nat) : Point := look Point.absent s.pts i

/-- A point record replaced. -/
def setPoint (s : State) (i : Nat) (p : Point) : State := { s with pts := put Point.absent s.pts i p }

/-- The record exists: its CLASS is not NONE (R188). -/
def Point.present (p : Point) : Bool := p.cls != 0

/-- The quality word GOOD (R64). -/
def qGOOD : Nat := 1
/-- The quality bit STALE (R64). -/
def qSTALE : Nat := 2
/-- The quality bit BAD (R64). -/
def qBAD : Nat := 4
/-- The quality bit FORCED (R64). -/
def qFORCED : Nat := 8
/-- The quality bit SUBSTITUTED (R64). -/
def qSUBST : Nat := 16

/-- The quality word of parts: GOOD when neither STALE nor BAD stands, bits [15:5] 0 (R64). -/
def qualOf (q : Nat) : Nat := let r := q % 32 / 2; if r % 4 = 0 then r * 2 + 1 else r * 2

/-- The value that readers see: a standing output force's, else VALUE (R192); 0 of a RETIRED record (R194). -/
def Point.seen (p : Point) : Word := if p.retired then 0 else p.forced.getD p.value

/-- The quality that readers see: FORCED under an output force (R192), BAD of a RETIRED record (R194). -/
def Point.seenQ (p : Point) : Nat :=
  if p.retired then qBAD else if p.forced.isSome then p.qual ||| qFORCED else p.qual

/-- The lowest-numbered occupied level of a priority array, with its entry (R190). -/
def lowest : List (Nat × Word) → Option (Nat × Word)
  | [] => none
  | e :: m =>
    match lowest m with
    | none => some e
    | some f => if f.1 < e.1 then some f else some e

/-- VALUE and LEVEL of an OUTPUT or VALUE point from its priority array (R190). -/
def Point.resolve (p : Point) : Point :=
  if p.cls = 1 then p
  else
    match lowest p.pa with
    | some (l, v) => { p with value := v, level := l, qual := qGOOD }
    | none => { p with value := p.relq, level := 0, qual := qGOOD }

/-- TIMESTAMP set when, and only when, the VALUE, QUALITY or LEVEL that readers see has changed (R192). R66 has every record
that a commit writes carry the commit position; of a write that changes nothing readers see, R192 alone is followed and the
old stamp stands. DESIGN CHOICE, unsafe (log 53). -/
def Point.stamp (old new : Point) (pos : Nat) : Point :=
  if old.seen = new.seen ∧ old.seenQ = new.seenQ ∧ old.level = new.level then { new with ts := old.ts }
  else { new with ts := pos }

/-- An accepted write: CHANGE_SEQ and LAST_WRITER, VALUE resolved, TIMESTAMP (R189, R190, R192). -/
def Point.accept (old new : Point) (w : Word) (pos : Nat) : Point :=
  Point.stamp old { new.resolve with seq := old.seq + 1, writer := w } pos

/-- A write at level L occupies L and sets its entry (R190). -/
def Point.atLevel (p : Point) (l : Nat) (v : Word) : Point := { p with pa := ins p.pa l v }

/-- A relinquish at level L frees L (R190). -/
def Point.free (p : Point) (l : Nat) : Point := { p with pa := del p.pa l }

/-- PA_MASK (R188). -/
def Point.mask (p : Point) : Nat := p.pa.foldl (fun m e => m + 2 ^ (e.1 - 1)) 0

/-- Whether a record is visible to an initiator (R196): reads and, but for tag 255, writes. -/
def visible (s : State) (w : Who) (p : Point) : Bool :=
  p.present &&
  (let t := tenantOf s w
   if p.tenant = 0 then t == 0
   else if p.tenant = 255 then true
   else if t = 0 then !p.priv || isCore w
   else t == p.tenant)

/-- The PA entry of R200's OLD and NEW for kind 1: the entry, or all ones when unoccupied. -/
def paEntry (p : Point) (l : Nat) : DWord :=
  match get? p.pa l with
  | some v => BitVec.ofNat 64 v.toNat
  | none => 0xFFFFFFFFFFFFFFFF#64

/-- A Loom commit's or a loop output's write to a point that cannot take it: counted and captured (R387). -/
def dropWrite (s : State) (w : Who) (i cause : Nat) : State :=
  let (ini, lp) : Nat × Nat := match w with | .loop n => (6, n.val) | _ => (4, 0)
  ev (wr (bump s (reg pPTS 0x0A4)) (reg pPTS 0x0A8)
    (w32 (i % 65536 + cause * 2 ^ 16 + lp * 2 ^ 20 + ini * 2 ^ 28))) pPTS 3

/-- Why an internal write is dropped: the point does not exist, is an INPUT point, or is RETIRED (R387). -/
def dropCause (p : Point) : Nat :=
  if !p.present then 1 else if p.cls = 1 then 2 else if p.retired then 3 else 0

/-- A point read as a Loom or loop source: its type, the value readers see, its quality; a point that does not exist
reads 0 with quality BAD (log 10). -/
def ptSource (s : State) (i : Nat) : Slot :=
  let p := point s i
  if p.present then ⟨p.ty, p.seen, p.seenQ⟩ else ⟨.int32, 0, qBAD⟩

/-! ### Points as they were (R37, R113, R191) -/

/-- A point as it was before a position: an update stamped at it belongs to the next window (R37, R61). -/
def pointBefore (s : State) (i pos : Nat) : Slot := pastSlot s 0 i (fun e => decide (pos ≤ e.pos)) (ptSource s i)

/-- A point as it was before the present fabric cycle (R113). -/
def pointCycle (s : State) (i : Nat) : Slot := pastSlot s 0 i (fun e => e.cyc == s.clk.fabric) (ptSource s i)

/-- A write at a level of a point is followed in R20's order by one of the same fabric cycle at the same level, which
stands (R191). -/
def overruled (s : State) (i level ord : Nat) : Bool :=
  s.past.any fun e => e.kind == 0 && e.idx == i && e.sub == level && e.cyc == s.clk.fabric && decide (ord < e.ord)

/-- LAST_WRITER after a write: that of the last write of the fabric cycle in R20's order (R188, R191). -/
def lastWriter (s : State) (i ord : Nat) (w : Word) : Word :=
  if s.past.any fun e => e.kind == 0 && e.idx == i && e.cyc == s.clk.fabric && decide (ord < e.ord) then (point s i).writer
  else w

/-- A record replaced, its last state noted. -/
def changePoint (s : State) (i level ord : Nat) (p : Point) : State :=
  setPoint (notePast s 0 i level ord (ptSource s i)) i p

/-- An accepted write at a level (R190, R191). -/
def writePoint (s : State) (i level ord : Nat) (w : Word) (q : Point) (pos : Nat) : State :=
  let p := point s i
  let q := if overruled s i level ord then p else q
  changePoint s i level ord (Point.accept p q (lastWriter s i ord w) pos)

/-- A write or relinquish by Loom or a loop at a priority level, carrying a position (R95, R129, R387): an access through the
point-store port (R10). -/
def ptInternal (s : State) (w : Who) (i level : Nat) (v : Option Word) (pos : Nat) : State :=
  let s := ptUse s w 1
  let p := point s i
  if dropCause p ≠ 0 then dropWrite s w i (dropCause p)
  else
    let q := match v with | some x => p.atLevel level x | none => p.free level
    writePoint s i level (orderOf w .control) (origin s w) q pos

/-- A source update of an INPUT point: value and quality from its source, an accepted write (R189). -/
def ptInput (s : State) (w : Word) (i : Nat) (v : Word) (q : Nat) (pos : Nat) : State :=
  let p := point s i
  if p.cls = 1 ∧ !p.retired then
    changePoint s i 17 0
      (Point.stamp p { p with value := v, qual := q, level := 0xFF, seq := p.seq + 1, writer := w } pos)
  else s

/-- A source update that a hardware block sends through the point-store port (R10, R189). -/
def ptFeed (s : State) (page : Nat) (i : Nat) (v : Word) (q : Nat) : State :=
  let w : Who := .hw (Fin.ofNat 128 page)
  ptInput (ptUse s w 1) (origin s w) i v q (count s)

/-- The fields of a COMMAND word (R193): value, level, set-relinquish-default, relinquish. -/
def cmdLevel (w : Nat) : Nat := w / 2 ^ 32 % 32
def cmdRelqDef (w : Nat) : Bool := w / 2 ^ 38 % 2 == 1
def cmdRelq (w : Nat) : Bool := w / 2 ^ 39 % 2 == 1
def cmdValue (w : Nat) : Word := w32 w

/-- TOP_LEVEL of a tenant's entry in force (R198): 0 acts as 1, above 16 as 16. -/
def topLevel (s : State) (t : Nat) : Nat :=
  clampN 1 16 (fld (look (resetVal (reg pTEN (0x804 + 8 * t))) s.toll.ten (reg pTEN (0x804 + 8 * t))) 24 5)

/-- The rights check of a commanded write (R194). -/
def cmdAllowed (s : State) (w : Who) (p : Point) (c : Nat) : Bool :=
  p.cls != 1 && hasRight s w 1 &&
  (cmdRelqDef c || (decide (1 ≤ cmdLevel c) && decide (cmdLevel c ≤ 16) &&
     decide (topLevel s (tenantOf s w) ≤ cmdLevel c))) &&
  (p.tenant != 255 || tenantOf s w == 0) && (!cmdRelqDef c || tenantOf s w == 0) &&
  !(cmdRelqDef c && cmdRelq c)

/-- A commanded write carried out (R190, R193), of a class. -/
def cmdApply (s : State) (w : Who) (cl : Cls) (i c : Nat) : State :=
  let p := point s i
  let q := if cmdRelqDef c then { p with relq := cmdValue c }
    else if cmdRelq c then p.free (cmdLevel c) else p.atLevel (cmdLevel c) (cmdValue c)
  let l := if cmdRelqDef c then 0 else cmdLevel c
  bump (writePoint s i l (orderOf w cl) (origin s w) q (count s)) (reg pPTS 0x098)

end Sys2Proof.Machine
end

