-- ==== Sys2Proof/Machine/Measure.lean ====
section
/-!
DEFINITION. The numbers behind Weighhouse's measurands (R146, R147): square roots, the discrete Fourier transform of a window,
and the FLOAT32 that a measurand is published as. The spec states the formulas and no rounding, so a published value is one of
those within one part in 2^40 and one FLOAT32 of the exact one, by a choice of the part (log 5).
-/

namespace Sys2Proof.Machine

/-! ### Published values -/

/-- The largest word, subnormals apart, at or below `n / d` in a binary format of `mb` fraction bits and an exponent bias; and
whether it is `n / d`. -/
def fltFloor (mb bias n d : Nat) : Nat × Bool :=
  if n = 0 ∨ d = 0 then (0, true)
  else
    let e0 : Int := (Nat.log2 n : Int) - Nat.log2 d
    let up (e : Int) : Nat × Nat := (n * 2 ^ ((mb : Int) - e).toNat, d * 2 ^ (e - (mb : Int)).toNat)
    let e := if (up e0).1 / (up e0).2 < 2 ^ mb then e0 - 1 else e0
    let m := (up e).1 / (up e).2
    if e + (bias : Int) < 1 then (0, false)
    else if (bias : Int) < e then ((2 * bias + 1) * 2 ^ mb - 1, false)
    else ((e + (bias : Int)).toNat * 2 ^ mb + (m - 2 ^ mb), decide (m * (up e).2 = (up e).1))

/-- The smallest word, subnormals apart, at or above `n / d`. -/
def fltCeil (mb bias n d : Nat) : Nat :=
  let r := fltFloor mb bias n d
  if r.2 then r.1 else if r.1 = 0 then 2 ^ mb else r.1 + 1

/-- The largest FLOAT32 word, subnormals apart, at or below `n / d`; and whether it is `n / d`. -/
def f32Floor (n d : Nat) : Nat × Bool := fltFloor 23 127 n d

/-- The smallest FLOAT32 word, subnormals apart, at or above `n / d`. -/
def f32Ceil (n d : Nat) : Nat := fltCeil 23 127 n d

/-- The FLOAT32 published for an exact value (log 5); `key` names the measurand. -/
def measured (key : Nat) (x : Frac) : Word :=
  if x.num = 0 then 0
  else
    let n := x.num.natAbs
    let lo := (f32Floor (n * (2 ^ 40 - 1)) (x.den * 2 ^ 40)).1
    let hi := f32Ceil (n * (2 ^ 40 + 1)) (x.den * 2 ^ 40)
    w32 (lo + Config.pick key [x.num, x.den] % (hi - lo + 1) + (if x.num < 0 then 2 ^ 31 else 0))

/-- A whole number published for an exact value that is not negative: it or the next, by a choice of the part (log 5). -/
def whole (key : Nat) (x : Frac) : Nat :=
  let q := x.num.natAbs / x.den
  if q * x.den = x.num.natAbs then q else q + Config.pick key [x.num, x.den] % 2

/-- The square root of a fraction that is not negative, to within one part in 2^96. -/
def Frac.sqrt (x : Frac) : Frac := ⟨(Nat.sqrt (x.num.natAbs * x.den * 2 ^ 192) : Nat), x.den * 2 ^ 96⟩

/-! ### Angles -/

/-- π in units of 2^-128. -/
def piFix : Int := 1069028584064966747859680373161870783300

/-- The rest of the cosine's series from term `i` on, the term being `t` and the square of the angle `x2`. -/
def cosTail (x2 : Int) : Nat → Nat → Int → Int
  | 0, _, _ => 0
  | k + 1, i, t => t + cosTail x2 k (i + 1) (-(t * x2 / 2 ^ 128 / ((2 * i + 1) * (2 * i + 2) : Nat)))

/-- cos(2π j / k) in units of 2^-128. -/
def cosFix (j k : Nat) : Int :=
  let x := 2 * piFix * (j % k : Nat) / (k : Nat)
  cosTail (x * x / 2 ^ 128) 48 0 (2 ^ 128)

/-- sin(2π j / k) in units of 2^-128, for a `k` that 4 divides. -/
def sinFix (j k : Nat) : Int := cosFix (j + 3 * k / 4) k

/-- The angle of a direction in au, rounded down, below 2^b: bits from b - 1 down. -/
def angleFind : Nat → Int → Int → Nat
  | 0, _, _ => 0
  | b + 1, re, im =>
    let c := cosFix (2 ^ b) 65536
    let s := sinFix (2 ^ b) 65536
    let beyond := if b = 15 then decide (im < 0) || (decide (im = 0) && decide (re < 0)) else decide (re * s ≤ im * c)
    if beyond then 2 ^ b + angleFind b (re * c + im * s) (im * c - re * s) else angleFind b re im

/-- The angle of a direction in au as published: the au it lies in or the next, by a choice of the part; of no direction a
choice of its own (log 5). -/
def phaseAu (key : Nat) (z : Int × Int) : Nat :=
  if z = (0, 0) then Config.pick key [] % 65536
  else (angleFind 16 z.1 z.2 + Config.pick key [z.1, z.2] % 2) % 65536

/-! ### The transform of a window -/

/-- Bin `b` of the transform of samples numbered within a window of `k`, in units of 2^-128. -/
def dftBin (k b : Nat) (xs : List (Nat × Int)) : Int × Int :=
  xs.foldl (fun acc e => (acc.1 + e.2 * cosFix (b * e.1) k, acc.2 - e.2 * sinFix (b * e.1) k)) (0, 0)

/-- The square of the RMS magnitude of a bin. -/
def binSq (k b : Nat) (xs : List (Nat × Int)) : Frac :=
  let z := dftBin k b xs
  ⟨2 * (z.1 * z.1 + z.2 * z.2), k * k * 2 ^ 256⟩

/-- The square of X_h over a window of `n` cycles of 256 samples (R147): of bin h × n, or of the harmonic group of an order 2–63. -/
def harmSq (n h : Nat) (group : Bool) (xs : List (Nat × Int)) : Frac :=
  let k := 256 * n
  if group ∧ 2 ≤ h then
    let inner := (List.range (n - 1)).foldl (fun acc j => Frac.add acc (binSq k (h * n - n / 2 + 1 + j) xs)) ⟨0, 1⟩
    let edge := Frac.add (binSq k (h * n - n / 2) xs) (binSq k (h * n + n / 2) xs)
    Frac.add inner (Frac.mul ⟨1, 2⟩ edge)
  else binSq k (h * n) xs

end Sys2Proof.Machine
end

