-- ==== Sys2Proof/Machine/Solver.lean ====
section
/-!
DEFINITION. The numbers of Factor (R162, R163, R173–R178): the problem on a registered pattern, one ADMM iteration, residuals,
infeasibility, certificates and the objective. Stored values are FP32 words, and residuals, norms, dot products and the
objective FP64 words (R162). The spec states the formulas and neither an order of operations nor a rounding, so a result is one
of the words that lie as near to the exact value of its formula as any order of the format's operations brings it, by a choice
of the part (log 20).
-/

namespace Sys2Proof.Machine

/-! ### Numbers -/

/-- The value of a finite FP32 word in units of 2^-149. -/
def fx (w : Word) : Int :=
  let e := fld w 23 8
  let v : Nat := if e = 0 then fld w 0 23 else (fld w 0 23 + 2 ^ 23) * 2 ^ (e - 1)
  if bit w 31 then -(v : Int) else v

/-- The value of a finite FP32 word. -/
def fv (w : Word) : Frac := ⟨fx w, 2 ^ 149⟩

/-- A word is neither NaN nor infinite. -/
def finiteF (w : Word) : Bool := fld w 23 8 != 255
/-- A word is a NaN. -/
def nanF (w : Word) : Bool := fld w 23 8 == 255 && fld w 0 23 != 0

/-- The magnitude of a fraction. -/
def Frac.abs (x : Frac) : Frac := ⟨(x.num.natAbs : Nat), x.den⟩

/-- The place of a value among the words of a format in the order of their values, −0 apart: of the greatest word at or below
it, or of the least at or above it. -/
def fltPlace (mb bias : Nat) (up : Bool) (x : Frac) : Int :=
  let n := x.num.natAbs
  let lo : Int := (fltFloor mb bias n x.den).1
  let hi : Int := fltCeil mb bias n x.den
  if 0 ≤ x.num then (if up then hi else lo) else (if up then -lo else -hi)

/-- The word at a place, the sign bit given. -/
def fltAt (sign : Nat) (k : Int) : Nat := if k < 0 then sign + k.natAbs else k.natAbs

/-- A place within an error of a value, by a choice of the part (log 20). -/
def nearPlace (mb bias key : Nat) (x err : Frac) : Int :=
  let lo := fltPlace mb bias false (x.sub err)
  let hi := fltPlace mb bias true (x.add err)
  lo + (Config.pick key [x.num, x.den] % ((hi - lo).toNat + 1) : Nat)

/-- An FP32 result of a formula whose terms add up to a magnitude: within 2^-20 of it, which eight operations of FP32 keep, and
the underflow of 2^-126 (log 20). -/
def near32 (key : Nat) (x mag : Frac) : Word :=
  w32 (fltAt (2 ^ 31) (nearPlace 23 127 key x ((mag.mul ⟨1, 2 ^ 20⟩).add ⟨1, 2 ^ 126⟩)))

/-- An FP64 result of a formula whose terms add up to a magnitude: within 2^-28 of it, which a sum of 2^24 terms keeps in any
order (log 20). -/
def near64 (key : Nat) (x mag : Frac) : Nat := fltAt (2 ^ 63) (nearPlace 52 1023 key x (mag.mul ⟨1, 2 ^ 28⟩))

/-- A comparison a ≤ b made in FP64 of sums whose terms add up to a magnitude: the part's choice where rounding decides
(log 20). -/
def near64Le (key : Nat) (a b mag : Frac) : Bool :=
  let e := mag.mul ⟨1, 2 ^ 28⟩
  if b.lt (a.sub e) then false else if b.lt (a.add e) then Config.pick key [a.num, a.den, b.num, b.den] % 2 == 1 else true

/-- A NaN of each format. -/
def nan32 : Word := 0x7FC00000
def nan64 : Nat := 0x7FF8000000000000

/-- A vector of `n` words from a list. -/
def fitVec (n : Nat) (l : List Word) : List Word := (List.range n).map fun k => nthD l k 0

/-! ### The problem -/

/-- A sparse matrix by its entries: row, column, value in units of 2^-149. -/
abbrev Coo := List (Nat × Nat × Int)

/-- The problem of a solve (R162): P with both triangles, A, and the words of q, l and u. -/
structure Problem where
  n : Nat
  m : Nat
  p : Coo
  a : Coo
  q : List Word
  l : List Word
  u : List Word
  deriving DecidableEq, Repr

/-- P from the values of its upper triangle, in the pattern's order. -/
def cooP (pat : Pattern) (v : List Word) : Coo :=
  (List.range pat.nnzP).flatMap fun k =>
    let e := Config.structP pat.bytes k
    let x := fx (nthD v k 0)
    if e.1 = e.2 then [(e.1, e.2, x)] else [(e.1, e.2, x), (e.2, e.1, x)]

/-- A from its values, in the pattern's order. -/
def cooA (pat : Pattern) (v : List Word) : Coo :=
  (List.range pat.nnzA).map fun k => let e := Config.structA pat.bytes k; (e.1, e.2, fx (nthD v k 0))

/-- The transpose of a matrix. -/
def cooT (m : Coo) : Coo := m.map fun e => (e.2.1, e.1, e.2.2)

/-- The problem that the words of P_VAL, A_VAL, Q, L and U make on a pattern. -/
def problemOf (pat : Pattern) (dat : List (List Word)) : Problem :=
  { n := pat.n, m := pat.m, p := cooP pat (nthD dat 0 []), a := cooA pat (nthD dat 1 []), q := nthD dat 2 []
    l := nthD dat 3 [], u := nthD dat 4 [] }

/-- The values of a vector's words in units of 2^-149. -/
def fxs (v : List Word) : List Int := v.map fx

/-- A matrix times a vector, by rows, in units of 2^-298, each with the sum of the magnitudes of its terms. -/
def mulVec (rows : Nat) (m : Coo) (x : List Int) : List (Int × Int) :=
  (List.range rows).map fun i => m.foldl (fun acc e =>
    if e.1 = i then
      let t := e.2.2 * nthD x e.2.1 0
      (acc.1 + t, acc.2 + (t.natAbs : Int))
    else acc) (0, 0)

/-- The largest magnitude of a list. -/
def maxAbs (l : List Int) : Nat := l.foldl (fun a x => max a x.natAbs) 0

/-- A vector's values in units of 2^-298, each with its magnitude. -/
def wide (x : List Int) : List (Int × Int) := x.map fun v => (v * 2 ^ 149, (v * 2 ^ 149).natAbs)

/-- Two lists of sums added. -/
def addSums (a b : List (Int × Int)) : List (Int × Int) := (a.zip b).map fun e => (e.1.1 + e.2.1, e.1.2 + e.2.2)

/-- The largest magnitude of a list of sums, and of their magnitudes, as fractions. -/
def normOf (l : List (Int × Int)) : Frac × Frac :=
  (⟨(maxAbs (l.map (·.1)) : Nat), 2 ^ 298⟩, ⟨(maxAbs (l.map (·.2)) : Nat), 2 ^ 298⟩)

/-! ### Row classes (R163) -/

/-- A bound that acts as −∞. -/
def negInf (w : Word) : Bool := match opCmp .float32 w 0xE0AD78EC with | some (lt, eq) => lt || eq | none => false
/-- A bound that acts as +∞. -/
def posInf (w : Word) : Bool := match opCmp .float32 w 0x60AD78EC with | some (lt, _) => !lt | none => false

/-- The weight of a row by its bounds: EQUALITY 512, FREE 1 / 1,024, INEQUALITY 1. A row with lᵢ > uᵢ, which the table leaves
out, weighs 1 (log 20). -/
def rowWeight (l u : Word) : Frac :=
  if negInf l && posInf u then ⟨1, 1024⟩
  else if !negInf l && !posInf l && !negInf u && !posInf u && fx l == fx u then ⟨512, 1⟩
  else ⟨1, 1⟩

/-- ρᵢ of every row. -/
def rhoRows (pr : Problem) (rho : Word) : List Frac :=
  (List.range pr.m).map fun i => (rowWeight (nthD pr.l i 0) (nthD pr.u i 0)).mul (fv rho)

/-- Some row has lᵢ > uᵢ. -/
def crossed (dat : List (List Word)) : Bool :=
  ((nthD dat 3 []).zip (nthD dat 4 [])).any fun e =>
    match opCmp .float32 e.2 e.1 with | some (lt, _) => lt | none => false

/-- The data checks of R173: no NaN or infinity in P, A and q, no NaN in l and u. -/
def dataOk (dat : List (List Word)) : Bool :=
  ((dat.take 3).all fun v => v.all finiteF) && ((dat.drop 3).all fun v => v.all fun w => !nanF w)

/-! ### The iteration (R173) -/

/-- The KKT matrix K = [P + σI, Aᵀ; A, −diag(1/ρᵢ)], by its entries: row, column, numerator and denominator; entries of one place
add up. -/
def kktOf (pr : Problem) (sigma rho : Word) : List (Nat × Nat × Int × Nat) :=
  let d (i : Nat) : Frac := (⟨-1, 1⟩ : Frac).div (nthD (rhoRows pr rho) i ⟨1, 1⟩)
  pr.p.map (fun e => (e.1, e.2.1, e.2.2, 2 ^ 149)) ++ (List.range pr.n).map (fun i => (i, i, fx sigma, 2 ^ 149)) ++
    pr.a.flatMap (fun e => [(pr.n + e.1, e.2.1, e.2.2, 2 ^ 149), (e.2.1, pr.n + e.1, e.2.2, 2 ^ 149)]) ++
    (List.range pr.m).map fun i => (pr.n + i, pr.n + i, (d i).num, (d i).den)

/-- An FP32 result of finite words; of others a NaN. -/
def from32 (ws : List Word) (w : Word) : Word := if ws.all finiteF then w else nan32

/-- The projection Π onto [lᵢ, uᵢ]; an infinite bound limits nothing (R163, R173). -/
def project (l u w : Word) : Word :=
  let below := match opCmp .float32 w l with | some (lt, _) => lt && !negInf l | none => false
  let above := match opCmp .float32 u w with | some (lt, _) => lt && !posInf u | none => false
  if below then l else if above then u else w

/-- z⁰ = Ax⁰ of a warm start (R173). -/
def warmZ (pr : Problem) (x : List Word) : List Word :=
  (mulVec pr.m pr.a (fxs x)).map fun e => from32 x (near32 0x702 ⟨e.1, 2 ^ 298⟩ ⟨e.2, 2 ^ 298⟩)

/-- The right side of step 1: σx − q, then z − diag(1/ρᵢ) y. -/
def stepRhs (pr : Problem) (sigma rho : Word) (x z y : List Word) : List Word :=
  (List.range pr.n).map (fun i =>
    let a := (fv sigma).mul (fv (nthD x i 0))
    let b := fv (nthD pr.q i 0)
    from32 [nthD x i 0, nthD pr.q i 0] (near32 0x710 (a.sub b) (a.abs.add b.abs))) ++
  (List.range pr.m).map fun i =>
    let a := fv (nthD z i 0)
    let b := (fv (nthD y i 0)).div (nthD (rhoRows pr rho) i ⟨1, 1⟩)
    from32 [nthD z i 0, nthD y i 0] (near32 0x711 (a.sub b) (a.abs.add b.abs))

/-- Step 2: z̃ᵢ = zᵢ + (νᵢ − yᵢ) / ρᵢ. -/
def stepZt (r : Frac) (z nu y : Word) : Word :=
  let a := fv z
  let b := (fv nu).div r
  let c := (fv y).div r
  from32 [z, nu, y] (near32 0x712 ((a.add b).sub c) ((a.abs.add b.abs).add c.abs))

/-- Step 3: α·x̃ᵢ + (1 − α)·xᵢ. -/
def stepX (al xt x : Word) : Word :=
  let a := (fv al).mul (fv xt)
  let b := ((⟨1, 1⟩ : Frac).sub (fv al)).mul (fv x)
  from32 [xt, x] (near32 0x713 (a.add b) (a.abs.add b.abs))

/-- Step 4: Π(α·z̃ᵢ + (1 − α)·zᵢ + yᵢ / ρᵢ). -/
def stepZ (al : Word) (r : Frac) (l u zt z y : Word) : Word :=
  let a := (fv al).mul (fv zt)
  let b := ((⟨1, 1⟩ : Frac).sub (fv al)).mul (fv z)
  let c := (fv y).div r
  project l u (from32 [zt, z, y] (near32 0x714 ((a.add b).add c) ((a.abs.add b.abs).add c.abs)))

/-- Step 5: yᵢ + ρᵢ·(α·z̃ᵢ + (1 − α)·zᵢ − zᵢ'). -/
def stepY (al : Word) (r : Frac) (y zt z z' : Word) : Word :=
  let a := r.mul ((fv al).mul (fv zt))
  let b := r.mul (((⟨1, 1⟩ : Frac).sub (fv al)).mul (fv z))
  let c := r.mul (fv z')
  let d := fv y
  from32 [y, zt, z, z'] (near32 0x715 ((d.add (a.add b)).sub c) ((d.abs.add (a.abs.add b.abs)).add c.abs))

/-- One iteration: x, z and y after steps 1 to 5, with settings σ, α and ρ. Step 1, the substitution in the factor, has no stated
rounding: x̃ and ν are free words of K, the permutation and the right side (log 20). -/
def admmStep (pat : Pattern) (pr : Problem) (sigma al rho : Word) (x z y : List Word) : List Word × List Word × List Word :=
  let perm := (List.range (pr.n + pr.m)).map fun k => leAt pat.bytes (leAt pat.bytes 0x28 4 + 4 * k) 4
  let sol := Config.kktSolve (kktOf pr sigma rho) perm (stepRhs pr sigma rho x z y)
  let r (i : Nat) : Frac := nthD (rhoRows pr rho) i ⟨1, 1⟩
  let zt := (List.range pr.m).map fun i => stepZt (r i) (nthD z i 0) (nthD sol (pr.n + i) 0) (nthD y i 0)
  let x' := (List.range pr.n).map fun i => stepX al (nthD sol i 0) (nthD x i 0)
  let z' := (List.range pr.m).map fun i =>
    stepZ al (r i) (nthD pr.l i 0) (nthD pr.u i 0) (nthD zt i 0) (nthD z i 0) (nthD y i 0)
  let y' := (List.range pr.m).map fun i => stepY al (r i) (nthD y i 0) (nthD zt i 0) (nthD z i 0) (nthD z' i 0)
  (x', z', y')

/-! ### Residuals, infeasibility, certificates, objective (R162, R174, R175, R178) -/

/-- ‖Ax − z‖∞ and ‖Px + q + Aᵀy‖∞, each with the magnitude of its terms. -/
def residualNorms (pr : Problem) (x z y : List Word) : (Frac × Frac) × (Frac × Frac) :=
  let ax := mulVec pr.m pr.a (fxs x)
  let px := mulVec pr.n pr.p (fxs x)
  let aty := mulVec pr.n (cooT pr.a) (fxs y)
  let minus (v : List Word) : List (Int × Int) := (wide (fxs v)).map fun e => (-e.1, e.2)
  (normOf (addSums ax (minus z)), normOf (addSums (addSums px (wide (fxs pr.q))) aty))

/-- A threshold of R174: ε_abs + ε_rel times the greatest of some norms. -/
def threshold (key : Nat) (ea er : Word) (ns : List (Frac × Frac)) : Nat :=
  let top := ns.foldl (fun a b => if a.1.lt b.1 then (b.1, if a.2.lt b.2 then b.2 else a.2)
    else (a.1, if a.2.lt b.2 then b.2 else a.2)) (⟨0, 1⟩, ⟨0, 1⟩)
  near64 key ((fv ea).add ((fv er).mul top.1)) ((fv ea).add ((fv er).mul top.2))

/-- r_prim, e_prim, r_dual and e_dual as FP64 words (R174); of vectors that are not finite the residuals are NaN. -/
def residuals (pr : Problem) (ea er : Word) (x z y : List Word) : Nat × Nat × Nat × Nat :=
  if !(x ++ z ++ y).all finiteF then (nan64, nan64, nan64, nan64)
  else
    let r := residualNorms pr x z y
    let ax := normOf (mulVec pr.m pr.a (fxs x))
    let px := normOf (mulVec pr.n pr.p (fxs x))
    let aty := normOf (mulVec pr.n (cooT pr.a) (fxs y))
    (near64 0x720 r.1.1 r.1.2 % 2 ^ 63, threshold 0x721 ea er [ax, normOf (wide (fxs z))],
     near64 0x722 r.2.1 r.2.2 % 2 ^ 63, threshold 0x723 ea er [px, aty, normOf (wide (fxs pr.q))])

/-- The difference of two vectors, in units of 2^-149. -/
def diffs (a b : List Word) : List Int := (a.zip b).map fun e => fx e.1 - fx e.2

/-- The primal infeasibility test (R175): infinite bounds take part only where the matching component of δy is 0. -/
def primalInf (pr : Problem) (eps : Word) (y y0 : List Word) : Bool :=
  let dy := diffs y y0
  let at_ := normOf (mulVec pr.n (cooT pr.a) dy)
  let lim := (fv eps).mul ⟨(maxAbs dy : Nat), 2 ^ 149⟩
  let rows := dy.zip (pr.l.zip pr.u)
  let terms := rows.map fun e => if 0 < e.1 then fx e.2.2 * e.1 else if e.1 < 0 then fx e.2.1 * e.1 else 0
  (y ++ y0).all finiteF && decide (maxAbs dy ≠ 0) && near64Le 0x730 at_.1 lim (at_.2.add lim) &&
    (rows.all fun e => !(decide (0 < e.1) && posInf e.2.2) && !(decide (e.1 < 0) && negInf e.2.1)) &&
    near64Le 0x731 ⟨terms.sum, 2 ^ 298⟩ lim (Frac.add ⟨((terms.map Int.natAbs).sum : Nat), 2 ^ 298⟩ lim)

/-- The dual infeasibility test (R175). -/
def dualInf (pr : Problem) (eps : Word) (x x0 : List Word) : Bool :=
  let dx := diffs x x0
  let px := normOf (mulVec pr.n pr.p dx)
  let lim := (fv eps).mul ⟨(maxAbs dx : Nat), 2 ^ 149⟩
  let qs := (pr.q.zip dx).map fun e => fx e.1 * e.2
  let ax := (mulVec pr.m pr.a dx).zip (pr.l.zip pr.u)
  (x ++ x0).all finiteF && decide (maxAbs dx ≠ 0) && near64Le 0x732 px.1 lim (px.2.add lim) &&
    near64Le 0x733 ⟨qs.sum, 2 ^ 298⟩ lim (Frac.add ⟨((qs.map Int.natAbs).sum : Nat), 2 ^ 298⟩ lim) &&
    ax.all fun e =>
      let v : Frac := ⟨e.1.1, 2 ^ 298⟩
      let mag := Frac.add ⟨e.1.2, 2 ^ 298⟩ lim
      (posInf e.2.2 || near64Le 0x734 v lim mag) &&
        (negInf e.2.1 || near64Le 0x735 ⟨-v.num, v.den⟩ lim mag)

/-- A certificate: the difference of two iterates scaled so that its largest magnitude is 1 (R178). -/
def certificate (a b : List Word) : List Word :=
  let d := diffs a b
  let top := maxAbs d
  d.map fun v =>
    if v.natAbs = top ∧ top ≠ 0 then (if v < 0 then 0xBF800000 else 0x3F800000)
    else near32 0x740 ⟨v, max 1 top⟩ ⟨v.natAbs, max 1 top⟩

/-- The objective ½xᵀPx + qᵀx as an FP64 word (R162). -/
def objective (pr : Problem) (x : List Word) : Nat :=
  if !x.all finiteF then nan64
  else
    let xs := fxs x
    let px := (mulVec pr.n pr.p xs).zip xs
    let qs := (pr.q.zip xs).map fun e => fx e.1 * e.2
    let v : Frac := ⟨(px.map fun e => e.1.1 * e.2).sum + qs.sum * 2 ^ 150, 2 ^ 448⟩
    let mag : Frac := ⟨(px.map fun e => e.1.2 * (e.2.natAbs : Int)).sum + ((qs.map Int.natAbs).sum : Nat) * 2 ^ 150, 2 ^ 448⟩
    near64 0x750 v mag

/-! ### Pattern checks (R164) -/

/-- The lower entries of the KKT structure in permuted order: row above column. The entry of OFF_PERM at a permuted place is the
KKT index that stands there. -/
def kktLower (pat : Pattern) : List (Nat × Nat) :=
  let perm := (List.range (pat.n + pat.m)).map fun k => leAt pat.bytes (leAt pat.bytes 0x28 4 + 4 * k) 4
  let place (i : Nat) : Nat := perm.idxOf i
  let low (i j : Nat) : Nat × Nat := (max (place i) (place j), min (place i) (place j))
  (((List.range pat.nnzP).map fun k => let e := Config.structP pat.bytes k; low e.1 e.2) ++
    (List.range pat.nnzA).map fun k => let e := Config.structA pat.bytes k; low (pat.n + e.1) e.2).filter fun e => e.2 < e.1

/-- The symbolic factor of a structure: column by column, the rows of a column are joined with one another. -/
def symbolic (k : Nat) (es : List (Nat × Nat)) : List (Nat × Nat) :=
  (List.range k).foldl (fun l j =>
    let rows := ((l.filter fun e => e.2 == j).map (·.1)).eraseDups
    (l ++ rows.flatMap fun a => (rows.filter (· < a)).map fun b => (a, b)).eraseDups) es

/-- The structure of L contains the symbolic factor of the KKT structure. -/
def lStructOk (pat : Pattern) : Bool :=
  let l := Config.structL pat.bytes
  (symbolic (pat.n + pat.m) (kktLower pat)).all fun e => l.contains e

/-- A pivot fault (R177): of the first n permuted positions one at or below 0, of the last m one at or above 0, or any of a
magnitude below 1.0 × 10⁻³⁰, or that is no finite number. -/
def pivotFault (n m : Nat) (ps : List Word) : Bool :=
  (List.range (n + m)).any fun k =>
    let w := nthD ps k 0
    let v := fx w
    !finiteF w || (if k < n then decide (v ≤ 0) else decide (0 ≤ v)) || decide (v.natAbs * 10 ^ 30 < 2 ^ 149)

end Sys2Proof.Machine
end

