-- ==== Sys2Proof/Machine/FactOps.lean ====
section
/-!
DEFINITION. Factor, the dispatch solver (R161–R187): rings, descriptors, pattern handles, the course of a solve,
anticipatory contexts, completions, the private region, its requests to DRAM and period boundaries.
-/

namespace Sys2Proof.Machine

/-! ### Registers and rings -/

/-- A register of queue `q`. -/
def fq (q off : Nat) : Nat := reg pFACTQ (off + 0x40 * q)

/-- Entries of a queue's rings (R187). -/
def fqSize (s : State) (q : Nat) : Nat := 2 ^ min 8 (rdF s (fq q 0x088) 0 4)

/-- The pending entries of a queue: ring index and age, oldest first. -/
def fqPend (s : State) (q : Nat) : List (Nat × Nat) := look [] s.fact.pend q

/-- Completion entries in use. -/
def cqUsed (s : State) (q : Nat) : Nat := look 0 s.fact.cqUsed q

/-- No free completion entry (R170). -/
def cqFull (s : State) (q : Nat) : Bool := decide (fqSize s q ≤ cqUsed s q)

/-- FACTQ.QSTAT. -/
def qstat (s : State) (q : Nat) : Word := w32 ((fqPend s q).length + b2n (cqFull s q) * 512)

/-- The ring indices from SQ_HEAD up to a tail (R187). -/
def ringFrom (s : State) (q tail : Nat) : List Nat :=
  let sz := fqSize s q
  let hd := rdF s (fq q 0x090) 0 8 % sz
  (List.range ((tail % sz + sz - hd) % sz)).map fun j => (hd + j) % sz

/-- A doorbell (R187): the entries from SQ_HEAD up to the new tail are pending. One that was pending keeps its age, and one that
Factor has taken out of order stays taken. -/
def sqTailOp (s : State) (q : Nat) (v : Word) : State :=
  let was := ringFrom s q (rdF s (fq q 0x08C) 0 8)
  let l := (ringFrom s q (fld v 0 8)).filterMap fun i =>
    match (fqPend s q).find? fun e => e.1 == i with
    | some e => some e
    | none => if was.contains i then none else some (i, s.clk.fabric)
  { wr s (fq q 0x08C) (w32 (fld v 0 8)) with
    fact := { s.fact with pend := put [] s.fact.pend q (sortBy (·.2) l) } }

/-- The bytes of a pending descriptor (R167). -/
def descAt (s : State) (q idx : Nat) : List Byte := ramBytes s (rd64 s (fq q 0x080) + 128 * idx) 128

/-- A descriptor's CLASS: 1 CONTROL; every other value queues with OPERATOR. -/
def descControl (d : List Byte) : Bool := leAt d 2 1 == 1

/-- The oldest of a queue's pending descriptors of one urgency. -/
def oldestOf (s : State) (q : Nat) (ctl : Bool) : Option (Nat × Nat) :=
  (fqPend s q).find? fun e => descControl (descAt s q e.1) == ctl

/-- The oldest pending descriptor of one urgency of either queue; on the same cycle queue 1 comes first (R170). -/
def oldestAny (s : State) (ctl : Bool) : Option (Nat × Nat) :=
  match oldestOf s 0 ctl, oldestOf s 1 ctl with
  | some a, some b => if a.2 < b.2 then some (0, a.1) else some (1, b.1)
  | some a, none => some (0, a.1)
  | none, some b => some (1, b.1)
  | none, none => none

/-- The descriptor that Factor takes next: queue and ring index (R170, R171). -/
def factNext (s : State) : Option (Nat × Nat) :=
  match oldestAny s true with
  | some e => some e
  | none => if s.fact.susp.isSome then none else oldestAny s false

/-- The fabric cycle of the doorbell that made an entry pending (R170). -/
def ageOf (s : State) (q idx : Nat) : Nat := (((fqPend s q).find? fun e => e.1 == idx).map (·.2)).getD 0

/-- A taken entry leaves its queue; SQ_HEAD is the first entry not yet taken. -/
def sqTake (s : State) (q idx : Nat) : State :=
  let l := (fqPend s q).filter fun e => e.1 != idx
  let hd := match (ringFrom s q (rdF s (fq q 0x08C) 0 8)).find? fun i => l.any (·.1 == i) with
    | some i => i
    | none => rdF s (fq q 0x08C) 0 8 % fqSize s q
  wr { s with fact := { s.fact with pend := put [] s.fact.pend q l } } (fq q 0x090) (w32 hd)

/-! ### Requests to DRAM (R161, R169) -/

/-- Factor as an initiator. -/
def whoFact : Who := .hw (Fin.ofNat 128 pFACT)

/-- Factor's requests to DRAM in the present accounting window. -/
def factUsed (s : State) : Nat := if s.fact.winNo = s.toll.win then s.fact.winUsed else 0

/-- The requests of 64 B that Factor may still issue in the window: up to CTRL.DRAM_PCT of its capacity, and for OPERATOR work
what is left of the window (R161, R16). -/
def factLeft (s : State) (c : Cls) : Nat :=
  let l := rdF s (reg pFACT 0x080) 8 8 * capacity s 5 / 100 - factUsed s
  if clsN c < 2 then l else min l (capacity s 5 - usedAll s 5)

/-- Requests issued into the fabric and DRAM in the class of the work (R161). -/
def factIssue (s : State) (c : Cls) (n : Nat) : State :=
  let t := hwGrants s whoFact c (fabricPath (srcRegion whoFact) none ++ [5]) n
  { t with fact := { t.fact with winUsed := factUsed s + n, winNo := s.toll.win } }

/-- A step that takes `n` requests: carried out by `f` when the last of them is issued; the others are issued as the windows allow
it, and the wait counts for DELAY (R161, R169, log 57). -/
def factStep (s : State) (c : Cls) (n : Nat) (f : State → State) : State :=
  let need := n - s.fact.paid
  let left := factLeft s c
  if need ≤ left then
    let t := factIssue s c need
    let w := match s.fact.waitFrom with | some p => count s - p | none => 0
    f { t with fact := { t.fact with paid := 0, waitFrom := none, waited := s.fact.waited + w } }
  else
    let t := factIssue s c left
    { t with fact := { t.fact with paid := s.fact.paid + left, waitFrom := some (s.fact.waitFrom.getD (count s)) } }

/-- The OUTCOME word of the present work, with DELAY in scan periods (R29, R169). -/
def factOut (s : State) (code : Nat) : Nat :=
  let d := if s.fact.waited = 0 then 0 else clampN 1 255 (ceilDiv s.fact.waited (scanT s))
  outWord (if code = oSERVED ∧ 0 < d then oDELAYED else code) d

/-! ### Completions (R169, the completion record) -/

/-- The bytes of a completion record (R169). -/
def complBytes (s : State) (p : Post) : List Byte :=
  let c := p.compl
  leBytes 4 p.tag ++ leBytes 1 c.status ++ leBytes 1 c.confirm ++ leBytes 2 c.outcome ++ leBytes 4 c.iter ++
    leBytes 2 c.refact ++ leBytes 1 c.cause ++ leBytes 1 c.flags ++ leBytes 4 c.rho.toNat ++ leBytes 4 0 ++
    leBytes 8 c.obj ++ leBytes 8 c.rPrim ++ leBytes 8 c.rDual ++ leBytes 8 p.start ++ leBytes 8 (count s)

/-- A completion record posted to its queue (R169, R186). -/
def postOne (s : State) (p : Post) : State :=
  let q := p.q
  let a := rd64 s (fq q 0x094) + 64 * (rdF s (fq q 0x0A0) 0 8 % fqSize s q)
  let s := ramWrite (factIssue s p.cls 1) a (complBytes s p)
  let s := wr s (fq q 0x0A0) (w32 ((rdF s (fq q 0x0A0) 0 8 + 1) % fqSize s q))
  let s := { s with fact := { s.fact with cqUsed := put 0 s.fact.cqUsed q (cqUsed s q + 1) } }
  ev (ev (if p.counts then bump s (reg pFACT 0x0A4) else s) pFACT 0) pFACTQ q

/-- A completion can be posted: its ring has a free entry, and Factor a request to DRAM left (R161, R170). -/
def postable (s : State) (p : Post) : Bool := !cqFull s p.q && decide (0 < factLeft s p.cls)

/-- Waiting completions posted in their order as space allows (R170, R182, R311). -/
def postFlush (s : State) : Nat → State
  | 0 => s
  | k + 1 =>
    match s.fact.posts.find? (postable s) with
    | none => s
    | some p => postFlush (postOne { s with fact := { s.fact with posts := s.fact.posts.erase p } } p) k

/-- Completions put at the end of those that wait. -/
def postAll (s : State) (ps : List Post) : State :=
  let s := { s with fact := { s.fact with posts := s.fact.posts ++ ps } }
  postFlush s s.fact.posts.length

/-- A descriptor's record counts in SOLVE_COUNT: of a SOLVE or a CONFIRM (R186). -/
def descCounts (d : List Byte) : Bool := leAt d 0 1 == 1 || leAt d 0 1 == 2

/-- A descriptor completes (R169): its record is posted as soon as space allows. -/
def complete (s : State) (q : Nat) (d : List Byte) (c : Compl) (start : Nat) : State :=
  postAll s [⟨q, leAt d 4 4, c, start, clsOf (leAt d 2 1), descCounts d⟩]

/-- CQ_HEAD written (R170, R187): entries freed. -/
def cqHeadOp (s : State) (q : Nat) (v : Word) : State :=
  let sz := fqSize s q
  let k := (fld v 0 8 % sz + sz - rdF s (fq q 0x09C) 0 8 % sz) % sz
  let s := wr s (fq q 0x09C) (w32 (fld v 0 8))
  postFlush { s with fact := { s.fact with cqUsed := put 0 s.fact.cqUsed q (cqUsed s q - k) } } s.fact.posts.length

/-- Entries of a completion ring that are used or kept for work begun: for records that wait and for the suspended solve
(R170). -/
def cqKept (s : State) (q : Nat) : Nat :=
  cqUsed s q + (s.fact.posts.filter fun p => p.q == q).length +
    match s.fact.susp with | some j => b2n (j.q == q) | none => 0

/-- An INVALID completion (the INVALID causes); `d` is the descriptor. -/
def invalid (s : State) (q : Nat) (d : List Byte) (cause : Nat) : State :=
  let outcome := if cause = 3 ∨ cause = 5 then oABSENT else if cause = 9 then oLOG else oRIGHTS
  complete s q d { status := 7, outcome := factOut s outcome, cause := cause } (count s)

/-! ### Handles and addresses -/

/-- The private region's base (R166). -/
def privBase (s : State) : Nat := rd64 s (reg pFACT 0x090)

/-- STAT.PRIV_VALID. -/
def privValid (s : State) : Bool := rdB s (reg pFACT 0x084) 3

/-- A vector of `k` FP32 words at an address is allowed: 64-byte aligned, in DRAM, outside the private region. -/
def vecOk (s : State) (a k : Nat) : Bool :=
  a % 64 == 0 && decide (a + 4 * k ≤ Config.dramBytes) &&
    (decide (a + 4 * k ≤ privBase s) || decide (privBase s + 268435456 ≤ a))

/-- A vector of FP32 words in DRAM. -/
def vec (s : State) (a k : Nat) : List Word := (List.range k).map fun j => w32 (ramNat s (a + 4 * j) 4)

/-- A vector written to DRAM. -/
def vecWrite (s : State) (a : Nat) (v : List Word) : State := ramWrite s a (v.flatMap fun w => leBytes 4 w.toNat)

/-- The handles that a pending, running, suspended or held descriptor refers to (R165). -/
def handleInUse (s : State) (h : Nat) : Bool :=
  let job (o : Option Solve) : Bool := match o with | some j => j.handle == h | none => false
  job s.fact.run || job s.fact.susp ||
    (match s.fact.begun with | some (_, _, d) => leAt d 0 1 == 1 && leAt d 3 1 == h | none => false) ||
    (s.fact.held.any fun c => c.job.handle == h) ||
    [0, 1].any fun q => (fqPend s q).any fun e =>
      let d := descAt s q e.1
      leAt d 0 1 == 1 && leAt d 3 1 == h

/-- FACT.HANDLEk. -/
def handleWord (s : State) (h : Nat) : Word :=
  match get? s.fact.handles h with
  | some p => w32 (1 + b2n (decide (p.factorBytes ≤ 16777216)) * 2 + b2n (handleInUse s h) * 4)
  | none => 0

/-- FACT.STAT. -/
def factStat (s : State) : Word :=
  let st := match s.fact.run, s.fact.begun with
    | some j, _ => if j.phase = .factorising then 2 else 1
    | none, some (_, _, d) => let ty := leAt d 0 1; if ty = 2 then 3 else if ty = 1 then 1 else 0
    | none, none => 0
  let k := s.fact.held.length
  w32 (st + b2n s.fact.susp.isSome * 4 + b2n (privValid s) * 8 + s.fact.resident.getD 0 * 16 +
    b2n s.fact.resident.isSome * 256 + min 3 k * 512 + b2n (decide (k = 4)) * 2048 +
    rdF s (reg pFACT 0x084) 16 7 * 65536)

/-- The permutation of a pattern is one (R164). -/
def permOk (d : List Byte) (off k : Nat) : Bool :=
  let p := (List.range k).map fun j => leAt d (off + 4 * j) 4
  (p.all fun x => decide (x < k)) && decide p.Nodup

/-- Every elimination-tree parent is greater than its child (R164). -/
def etreeOk (d : List Byte) (off k : Nat) : Bool :=
  (List.range k).all fun j => let p := leAt d (off + 4 * j) 4; p == 0xFFFFFFFF || decide (j < p)

/-- A pattern as its header gives it. -/
def patternOf (d : List Byte) : Pattern :=
  { n := leAt d 8 4, m := leAt d 12 4, nnzP := leAt d 0x10 4, nnzA := leAt d 0x14 4, factorBytes := leAt d 0x1C 4
    bytes := d }

/-- The checks of R164 on a pattern's bytes. -/
def patternOk (d : List Byte) : Bool :=
  let n := leAt d 8 4
  let m := leAt d 12 4
  let len := leAt d 0x20 4
  leAt d 0 4 == 0x4F584650 && leAt d 4 2 == 1 && decide (n ≤ 524288) && decide (m ≤ 1048576) &&
    decide (leAt d 0x18 4 ≤ 8388608) && decide (96 ≤ len) &&
    decide ((Crypto.sha256 (d.take (len - 32))).toNat = leAt d (len - 32) 32) &&
    permOk d (leAt d 0x28 4) (n + m) && etreeOk d (leAt d 0x2C 4) (n + m) && lStructOk (patternOf d)

/-- The pattern that a descriptor names, as DRAM holds it. -/
def patternBytes (s : State) (a : Nat) : List Byte := ramBytes s a (ramNat s (a + 0x20) 4)

/-- Bytes of the patterns registered, `h` apart. -/
def patternTotal (s : State) (h : Nat) : Nat :=
  ((s.fact.handles.filter fun e => e.1 != h).map fun e => e.2.bytes.length).sum

/-- The class of a descriptor and its queue's ceiling (R13): the supervisor's, or the host port's. -/
def descClassOk (s : State) (q : Nat) (d : List Byte) : Bool :=
  let c := leAt d 2 1
  (c == 1 || c == 2) && decide (clsN (if q = 0 then .safety else ceiling s .host) ≤ c)

/-- Factor is stopped by the mode rules, or has no private region (cause 6). -/
def factStopped (s : State) : Bool := !modeRuns s pFACT || !privValid s

/-- The issuer a queue stands for, for the Daybook: the supervisor's core 0, or the host port. -/
def queueOwner (q : Nat) : Who := if q = 0 then .core 0 else .host

/-! ### REGISTER (R164–R166) -/

/-- The hash of a pattern as the Daybook takes it: over its bytes before the hash (R164). -/
def patHash (s : State) (h : Nat) : DWord :=
  match get? s.fact.handles h with
  | some p => hash8 (p.bytes.take (p.bytes.length - 32))
  | none => 0

/-- Offsets in the private region (R166): the patterns from 0, one after the other in the order of their handles, the streamed
factor, and the state of the suspended solve. The spec gives the region no layout (log 57). -/
def privFactor : Nat := 167772160
def privState : Nat := 251658240

/-- The registered patterns as the private region holds them. -/
def privPatterns (s : State) : State :=
  (s.fact.handles.foldl (fun (e : State × Nat) p =>
    (ramWrite e.1 (privBase s + e.2) p.2.bytes, e.2 + ceilDiv p.2.bytes.length 64 * 64)) (s, 0)).1

/-- The state of a solve written to the private region (R171). -/
def privSave (s : State) (j : Solve) : State :=
  ramWrite s (privBase s + privState) ((j.x ++ j.z ++ j.y ++ [j.rho]).flatMap fun w => leBytes 4 w.toNat)

/-- The state of a suspended solve as the private region holds it: x, z, y and ρ (R171). -/
def privLoad (s : State) (j : Solve) : Solve :=
  let a := privBase s + privState
  let n := j.x.length
  let m := j.y.length
  { j with x := vec s a n, z := vec s (a + 4 * n) m, y := vec s (a + 4 * (n + m)) m
           rho := w32 (ramNat s (a + 4 * (n + 2 * m)) 4) }

/-- A pattern registered under a handle and logged. -/
def registerDo (s : State) (q : Nat) (d : List Byte) (h : Nat) (pat : List Byte) : State :=
  let old := patHash s h
  let s := { s with fact := { s.fact with
    handles := ins s.fact.handles h (patternOf pat)
    resident := if s.fact.resident = some h then none else s.fact.resident } }
  let s := privPatterns s
  let s := dayReserve (tollServed s (queueOwner q) (clsOf (leAt d 2 1)) 8 1)
    { origin := origin s (queueOwner q), kind := 0, target := reg pFACT (0x100 + 4 * h), old := old, new := patHash s h
      outcome := oSERVED, hashed := true, cls := clsOf (leAt d 2 1) }
  complete s q d { status := 8, outcome := factOut s oSERVED } (count s)

/-- A REGISTER descriptor executed. -/
def registerDesc (s : State) (q _age : Nat) (d : List Byte) : State :=
  let h := leAt d 3 1
  let a := leAt d 8 8
  let pat := patternBytes s a
  if !descClassOk s q d then invalid s q d 2
  else if a % 64 ≠ 0 ∨ Config.dramBytes < a + 64 ∨ !vecOk s a (ceilDiv pat.length 4) then invalid s q d 4
  else if factStopped s then invalid s q d 6
  else if 16 ≤ h ∨ !patternOk pat ∨ 167772160 < patternTotal s h + pat.length then invalid s q d 7
  else if handleInUse s h then invalid s q d 8
  else if !logOk s (clsOf (leAt d 2 1)) then invalid (admitRefused s (clsOf (leAt d 2 1))) q d 9
  else registerDo s q d h pat

/-- The requests that a descriptor's data take, what is read and written as it executes (R161, log 57). -/
def descCost (s : State) (d : List Byte) : Nat :=
  let words (l : List Nat) : Nat := (l.map fun k => ceilDiv (4 * k) 64).sum
  let data (p : Pattern) : Nat := words [p.nnzP, p.nnzA, p.n, p.m, p.m]
  let ty := leAt d 0 1
  if ty = 0 then 2 * ceilDiv (ramNat s (leAt d 8 8 + 0x20) 4) 64
    else if ty = 2 then
      match s.fact.held.find? fun h => h.job.tag == leAt d 0x78 4 with
      | some h => match get? s.fact.handles h.job.handle with
        | some p => 2 * data p + words [p.n, p.m]
        | none => 0
      | none => 0
    else
      match get? s.fact.handles (leAt d 3 1) with
      | some p => data p + (if leAt d 1 1 % 2 = 1 then words [p.n, p.m] else 0)
      | none => 0

/-- Factor is in service. -/
def factLive (s : State) : Bool := enabled s pFACT && !fenced s pFACT && !retiredPg s pFACT && !fusedOff s pFACT

/-- A descriptor taken goes on: its data's requests, then its execution by `f` (R161). -/
def factWork (s : State) (f : State → Nat → Nat → List Byte → State) : State :=
  match s.fact.begun with
  | some (q, age, d) =>
    factStep s (clsOf (leAt d 2 1)) (descCost s d) fun t => f { t with fact := { t.fact with begun := none } } q age d
  | none => s

/-- A pending descriptor read whole and taken from its ring (R169). -/
def factBegin (s : State) (q i : Nat) : State :=
  let d := descAt s q i
  let t := factIssue (sqTake s q i) (clsOf (leAt d 2 1)) 2
  { t with fact := { t.fact with begun := some (q, ageOf s q i, d), paid := 0, waitFrom := none, waited := 0 } }

/-- Factor is free and takes its next descriptor, when it is of a TYPE wanted and its completion ring has an entry that is not
kept for other work, else EVT.CQ_WAIT (R170); it is executed by `f`. -/
def factRunDesc (s : State) (want : Nat → Bool) (f : State → Nat → Nat → List Byte → State) : State :=
  if s.fact.run.isSome ∨ !factLive s then s
  else
    match s.fact.begun, factNext s with
    | some (_, _, d), _ => if want (leAt d 0 1) then factWork s f else s
    | none, none => s
    | none, some (q, i) =>
      let d := descAt s q i
      if !want (leAt d 0 1) then s
      else if fqSize s q ≤ cqKept s q then ev s pFACTQ 2
      else if factLeft s (clsOf (leAt d 2 1)) < 2 then s
      else factWork (factBegin s q i) f

/-- REGISTER. -/
def registerOp (s : State) : State := factRunDesc s (· == 0) registerDesc

/-! ### SOLVE (R167–R178) -/

/-- A FLOAT32 setting after R168: its value, and whether it was clamped. -/
def setF (w dflt lo hi : Word) : Word × Bool :=
  match opCmp .float32 w 0 with
  | none => (dflt, false)
  | some (neg, zero) =>
    if neg || zero then (dflt, false)
    else
      match opCmp .float32 w lo, opCmp .float32 w hi with
      | some (below, _), some (under, eq) =>
        if below then (lo, true) else if under || eq then (w, false) else (hi, true)
      | _, _ => (w, false)

/-- An unsigned setting after R168. -/
def setN (v dflt lo hi : Nat) : Nat × Bool :=
  if v = 0 then (dflt, false) else (clampN lo hi v, decide (clampN lo hi v ≠ v))

/-- FLOAT32 words of the settings table. -/
def f1em9 : Word := 0x3089705F
/-- 1.0 × 10⁻⁶ -/
def f1em6 : Word := 0x358637BD
/-- 1.0 × 10⁶ -/
def f1e6 : Word := 0x49742400

/-- The settings of a descriptor: EPS_ABS, EPS_REL, EPS_PINF, EPS_DINF, SIGMA, ALPHA; ρ; MAX_ITER, CHECK, ADAPT_MU,
ADAPT_TAU; and whether one was clamped (R168). -/
def settings (d : List Byte) : List Word × Word × List Nat × Bool :=
  let w (o : Nat) : Word := w32 (leAt d o 4)
  let ea := setF (w 0x50) 0x3A03126F f1em9 0x3F800000
  let er := setF (w 0x54) 0x3A03126F f1em9 0x3F800000
  let ep := setF (w 0x58) 0x3951B717 f1em9 0x3F800000
  let ed := setF (w 0x5C) 0x3951B717 f1em9 0x3F800000
  let rho := setF (w 0x60) 0x3E4CCCCD f1em6 f1e6
  let sg := setF (w 0x64) 0x33D6BF95 f1em9 0x3DCCCCCD
  let al := setF (w 0x68) 0x3FC00000 0x3D4CCCCD 0x3FF9999A
  let mi := setN (leAt d 0x6C 4) 5000 1 1000000
  let ck := setN (leAt d 0x74 2) 16 1 1000
  let mu := setN (leAt d 0x76 1) 10 2 64
  let ta := setN (leAt d 0x77 1) 4 2 16
  ([ea.1, er.1, ep.1, ed.1, sg.1, al.1], rho.1, [mi.1, ck.1, mu.1, ta.1],
   ea.2 || er.2 || ep.2 || ed.2 || rho.2 || sg.2 || al.2 || mi.2 || ck.2 || mu.2 || ta.2)

/-- The problem data of a job: P, A, q, l and u as DRAM holds them. -/
def jobData (s : State) (j : Solve) : List (List Word) :=
  match get? s.fact.handles j.handle with
  | none => []
  | some p =>
    [vec s (nthD j.addrs 0 0) p.nnzP, vec s (nthD j.addrs 1 0) p.nnzA, vec s (nthD j.addrs 2 0) p.n,
     vec s (nthD j.addrs 3 0) p.m, vec s (nthD j.addrs 4 0) p.m]

/-- The problem of a job. -/
def jobProblem (s : State) (j : Solve) : Problem :=
  match get? s.fact.handles j.handle with
  | some p => problemOf p (jobData s j)
  | none => ⟨0, 0, [], [], [], [], []⟩

/-- The record of a job that ends with a STATUS (R169): OBJ at the x that is returned. -/
def jobCompl (s : State) (j : Solve) (status : Nat) (xo : List Word) : Compl :=
  { status := status, confirm := if j.kind = 1 then 1 else if j.kind = 2 then 3 else 0
    outcome := if status = 6 then factOut s oDISCARDED else factOut s oSERVED, iter := j.iter, refact := j.refact
    flags := b2n j.clamped + 2 * b2n j.suspended + 4 * b2n (decide (status = 3 ∨ status = 4)), rho := j.rho
    obj := objective (jobProblem s j) xo, rPrim := j.rPrim, rDual := j.rDual }

/-- The entry of a period's applied result (R184): TAG and period index in OLD, the hash of X_OUT in NEW. The spec gives it no kind
and no layout: kind 1, no TARGET (log 57). -/
def resultChange (s : State) (tag : Nat) (x : List Word) : Change :=
  { origin := origin s (.core 0), kind := 1, target := 0
    old := BitVec.ofNat 64 (rd s (reg pFACT 0x098)).toNat <<< 32 ||| BitVec.ofNat 64 tag
    new := hash8 (x.flatMap fun w => leBytes 4 w.toNat), outcome := oSERVED, hashed := true, cls := .control }

/-- A setpoint written by the supervisor's runtime at class CONTROL, where the point takes it (R184). -/
def setpointWrite (s : State) (e : Nat × Word) : State :=
  let c := e.2.toNat + Config.setpointLevel % 32 * 2 ^ 32
  let p := point s e.1
  if p.present && !p.retired && cmdAllowed s (.core 0) p c then cmdApply s (.core 0) .control e.1 c else s

/-- The supervisor's runtime applies the newest result that waits (R184, R333): one Daybook entry, then the setpoints; where the
entry cannot be logged, nothing. With FLOOR, a result waits while Loom is in HOLD. -/
def districtApply (s : State) : State :=
  match s.fact.ready with
  | none => s
  | some (tag, x) =>
    if mDISTRICT s && mFLOOR s && decide (s.loom.eng = .hold) then s
    else
      let s := { s with fact := { s.fact with ready := none } }
      if !mDISTRICT s then s
      else
        let r := logAdmit s (.core 0) (resultChange s tag x)
        let es := Config.setpoints x
        if r.2 then es.foldl setpointWrite (ptUse r.1 (.core 0) es.length) else r.1

/-- A result that is usable (R184, R185): the vector window shows it, and a CONTROL result of the supervisor's queue waits for its
runtime to apply it. -/
def showResult (s : State) (j : Solve) (q tag : Nat) (c : Cls) : State :=
  match get? s.fact.handles j.handle with
  | some p =>
    let s := wr { s with fact := { s.fact with win := some (nthD j.addrs 5 0, nthD j.addrs 6 0, p.n, p.m) } }
      (reg pFACT 0x0A0) (w32 tag)
    if q = 0 ∧ c = .control then
      districtApply { s with fact := { s.fact with ready := some (tag, vec s (nthD j.addrs 5 0) p.n) } }
    else s
  | none => s

/-- A certificate of a solve that ends at iteration 0 (R163, R178): no iterates give it, so a free vector, scaled. -/
def freeCert (s : State) : Nat → List Word × State
  | 0 => ([], s)
  | k + 1 => let (w, s) := freshWord s; let r := freeCert s k; (w :: r.1, r.2)

/-- X_OUT and Y_OUT of a job that ends with a STATUS (the statuses, R178). -/
def jobOut (s : State) (j : Solve) (status : Nat) : List Word × List Word × State :=
  if status = 4 then (fitVec j.x.length (certificate j.x j.xPrev), j.y, s)
  else if status = 3 ∧ j.iter = 0 then
    let r := freeCert s j.y.length
    (j.x, fitVec j.y.length (certificate r.1 (j.y.map fun _ => 0)), r.2)
  else if status = 3 then (j.x, fitVec j.y.length (certificate j.y j.yPrev), s)
  else (j.x, j.y, s)

/-- A job ends with a STATUS (R169, R178, R179, R181): results written, then the record posted. -/
def jobEnd (s : State) (j : Solve) (status : Nat) : State :=
  let (xo, yo, s) := jobOut s j status
  let c := jobCompl s j status xo
  let s := if status = 5 ∨ status = 6 then s else vecWrite (vecWrite s (nthD j.addrs 5 0) xo) (nthD j.addrs 6 0) yo
  let s := evIf (decide (status = 5)) { s with fact := { s.fact with run := none } } pFACT 4
  let s := if j.kind = 1 ∧ status ≠ 6 then { s with fact := { s.fact with held := s.fact.held ++ [⟨j, c⟩] } } else s
  let s := if j.kind = 2 ∧ status ≠ 6 then ev (bump s (reg pFACT 0x0B4)) pFACT 3 else s
  let s := if status = 0 ∧ j.kind ≠ 1 then showResult s j j.q j.tag j.cls else s
  complete s j.q j.desc c j.start

/-- A job begins (R173): its data checked, its KKT matrix factorised. -/
def jobStart (s : State) (j : Solve) : State :=
  let s := evIf j.clamped s pFACT 6
  let s := { s with fact := { s.fact with run := some j, nextId := s.fact.nextId + 1 } }
  if dataOk (jobData s j) then s else jobEnd s j 5

/-- The vectors of a SOLVE lie where they may (cause 4). -/
def solveAddrsOk (s : State) (d : List Byte) (p : Pattern) : Bool :=
  let a (o : Nat) : Nat := leAt d o 8
  vecOk s (a 0x08) p.nnzP && vecOk s (a 0x10) p.nnzA && vecOk s (a 0x18) p.n && vecOk s (a 0x20) p.m &&
    vecOk s (a 0x28) p.m && vecOk s (a 0x40) p.n && vecOk s (a 0x48) p.m &&
    (leAt d 1 1 % 2 == 0 || (vecOk s (a 0x30) p.n && vecOk s (a 0x38) p.m))

/-- The job of a SOLVE descriptor, pending since a fabric cycle. -/
def solveJob (s : State) (age q : Nat) (d : List Byte) (p : Pattern) : Solve :=
  let (e, rho, ns, cl) := settings d
  let fl := leAt d 1 1
  let pr := problemOf p [[], vec s (leAt d 0x10 8) p.nnzA]
  let x := if fl % 2 = 1 then vec s (leAt d 0x30 8) p.n else List.replicate p.n 0
  let y := if fl % 2 = 1 then vec s (leAt d 0x38 8) p.m else List.replicate p.m 0
  { id := s.fact.nextId, age := age, q := q, desc := d
    addrs := [leAt d 0x08 8, leAt d 0x10 8, leAt d 0x18 8, leAt d 0x20 8, leAt d 0x28 8, leAt d 0x40 8, leAt d 0x48 8]
    eps := e, maxIter := nthD ns 0 0, timeLimit := leAt d 0x70 4, check := nthD ns 1 0, mu := nthD ns 2 0
    tau := nthD ns 3 0, adapt := fl / 4 % 2 == 1, handle := leAt d 3 1, tag := leAt d 4 4, cls := clsOf (leAt d 2 1)
    kind := if fl / 2 % 2 = 1 then 1 else 0, phase := .factorising, rho := rho, iter := 0, refact := 0
    sinceAdapt := 4, clamped := cl, suspended := false, x := x
    z := if fl % 2 = 1 then fitVec p.m (warmZ pr x) else List.replicate p.m 0, y := y, xPrev := x, yPrev := y
    rPrim := 0, rDual := 0, start := count s, spent := 0, since := count s, waited := 0 }

/-- Anticipatory contexts held, and one more for a suspended solve that will hold one (R179). -/
def heldCount (s : State) : Nat :=
  s.fact.held.length + match s.fact.susp with | some j => b2n (j.kind == 1) | none => 0

/-- A SOLVE descriptor, or one of no TYPE, executed. -/
def solveDesc (s : State) (q age : Nat) (d : List Byte) : State :=
  if leAt d 0 1 ≠ 1 then invalid s q d 1
  else if !descClassOk s q d then invalid s q d 2
  else
    match get? s.fact.handles (leAt d 3 1) with
    | none => invalid s q d 3
    | some p =>
      if !solveAddrsOk s d p then invalid s q d 4
      else if factStopped s then invalid s q d 6
      else if leAt d 1 1 / 2 % 2 = 1 ∧ 4 ≤ heldCount s then invalid s q d 10
      else jobStart s (solveJob s age q d p)

/-- SOLVE: a descriptor of TYPE 1, or of a TYPE that does not exist. -/
def solveOp (s : State) : State := factRunDesc s (fun t => t != 0 && t != 2) solveDesc

/-- A job's execution time in au (R172). -/
def jobTime (s : State) (j : Solve) : Nat := j.spent + (count s - j.since)

/-- A job's factor fits the cache, all of which is in service (R166, R182). -/
def factFits (s : State) (j : Solve) : Bool :=
  match get? s.fact.handles j.handle with
  | some p => decide (p.factorBytes ≤ 16777216) && !s.fact.cacheBad
  | none => false

/-- The pattern of a job. -/
def jobPattern (s : State) (j : Solve) : Pattern := (get? s.fact.handles j.handle).getD ⟨0, 0, 0, 0, 0, []⟩

/-- A numeric factorisation done: the factor is resident, or stands in the private region to be streamed (R166, R173). -/
def factored (s : State) (j : Solve) : State :=
  let s := { s with fact := { s.fact with run := some { j with phase := .iterating } } }
  if factFits s j then { s with fact := { s.fact with resident := some j.handle, owner := j.id } }
  else
    let n := min 83886080 (jobPattern s j).factorBytes
    let s := { s with fact := { s.fact with resident := none, streamed := some j.id } }
    ramWrite s (privBase s + privFactor) ((List.range n).map (Config.factorByte j.id))

/-- FACTORISATION_DONE (R173, R176–R178) with the pivots of the factorisation in permuted order: a pivot fault ends the solve, and
at iteration 0 a row with lᵢ > uᵢ. -/
def factorDone (s : State) (pivots : List Word) : State :=
  match s.fact.run with
  | none => s
  | some j =>
    if j.phase ≠ .factorising then s
    else
      let p := jobPattern s j
      factStep s j.cls (ceilDiv p.bytes.length 64 + if factFits s j then 0 else ceilDiv p.factorBytes 64) fun t =>
        if pivotFault p.n p.m pivots then jobEnd t j 5
        else if j.iter = 0 ∧ crossed (jobData t j) then jobEnd t j 3
        else factored t j

/-- A pending CONTROL descriptor preempts the OPERATOR solve at an iteration boundary (R171). -/
def preempts (s : State) (j : Solve) : Bool :=
  j.cls == .operator && rdB s (reg pFACT 0x080) 0 && (oldestAny s true).isSome && s.fact.susp.isNone && j.phase != .checking

/-- The OPERATOR solve suspended for a pending CONTROL descriptor: its state goes to the private region (R171). -/
def preempt (s : State) : State :=
  match s.fact.run with
  | none => s
  | some j =>
    if preempts s j then
      let s := privSave s j
      ev { s with fact := { s.fact with
        run := none, susp := some { j with suspended := true, spent := jobTime s j, waited := s.fact.waited } } } pFACT 2
    else s

/-- Requests that a solve's state takes. -/
def stateCost (j : Solve) : Nat := ceilDiv (4 * (j.x.length + 2 * j.y.length + 1)) 64

/-- MAX_ITER or TIME_LIMIT is reached (R172, R174). -/
def limitHit (s : State) (j : Solve) : Bool :=
  decide (j.maxIter ≤ j.iter) || (decide (j.timeLimit ≠ 0) && decide (j.timeLimit ≤ jobTime s j))

/-- The job after one iteration: a check is due after every CHECK-th and at a limit (R173, R174). -/
def iterated (s : State) (j : Solve) : Solve :=
  let r := admmStep (jobPattern s j) (jobProblem s j) (nthD j.eps 4 0) (nthD j.eps 5 0) j.rho j.x j.z j.y
  let j := { j with x := r.1, z := r.2.1, y := r.2.2, xPrev := j.x, yPrev := j.y, iter := j.iter + 1 }
  { j with phase := if j.iter % j.check = 0 ∨ limitHit s j then .checking else .iterating }

/-- ADMM_ITERATION (R173): one iteration; a streamed factor is read once (R166, log 57). -/
def iterate (s : State) : State :=
  match s.fact.run with
  | none => s
  | some j =>
    if j.phase ≠ .iterating then s
    else
      let i := iterated s j
      let k := (if s.fact.resident = some j.handle then 0 else ceilDiv (jobPattern s j).factorBytes 64) +
        (if preempts s i then stateCost j else 0)
      factStep s j.cls k fun t => preempt (bump { t with fact := { t.fact with run := some i } } (reg pFACT 0x0A8))

/-- A finite FP64 word as a fraction of non-negative value. -/
def frac64 (w : Nat) : Frac :=
  let e : Nat := w / 2 ^ 52 % 2048
  let m : Nat := w % 2 ^ 52
  if e = 0 then ⟨(m : Nat), 2 ^ 1074⟩ else ⟨((m + 2 ^ 52) * 2 ^ e : Nat), 2 ^ 1075⟩

/-- An FP64 word is a NaN or an infinity. -/
def bad64 (w : Nat) : Bool := w / 2 ^ 52 % 2048 == 2047

/-- ρ after the balance of R176: what it becomes, and whether it changes. -/
def rhoNext (j : Solve) (rp ep rd_ ed : Nat) : Word × Bool :=
  let a := (frac64 rp).mul (frac64 ed)
  let b := (frac64 rd_).mul (frac64 ep)
  let lim (w : Word) : Word := (opLim .float32 w f1em6 f1e6).1
  let up := ((⟨j.mu, 1⟩ : Frac).mul b).lt a
  let down := ((⟨j.mu, 1⟩ : Frac).mul a).lt b
  let w := if up then lim (opMul .float32 j.rho (intToFloat j.tau 1)).1
    else if down then lim (opDiv 0 .float32 j.rho (intToFloat j.tau 1)).1 else j.rho
  (w, decide (w ≠ j.rho))

/-- r_prim, e_prim, r_dual and e_dual of a job, as FP64 words (R174). -/
def residualsOf (s : State) (j : Solve) : Nat × Nat × Nat × Nat :=
  residuals (jobProblem s j) (nthD j.eps 0 0) (nthD j.eps 1 0) j.x j.z j.y

/-- The outcome of a check, the first of the table of R178 that holds; none when the solve goes on. -/
def checkStatus (s : State) (j : Solve) : Option Nat :=
  let pr := jobProblem s j
  let (rp, ep, rd_, ed) := residualsOf s j
  if bad64 rp || bad64 rd_ then some 5
  else if rp ≤ ep ∧ rd_ ≤ ed then some 0
  else if primalInf pr (nthD j.eps 2 0) j.y j.yPrev then some 3
  else if dualInf pr (nthD j.eps 3 0) j.x j.xPrev then some 4
  else if j.timeLimit ≠ 0 ∧ j.timeLimit ≤ jobTime s j then some 2
  else if j.maxIter ≤ j.iter then some 1
  else none

/-- A solve that goes on after a check (R176): ρ balanced, and K refactorised when it changes. -/
def checkOn (s : State) (j : Solve) : State :=
  let (rp, ep, rd_, ed) := residualsOf s j
  let (rho, changes) := rhoNext j rp ep rd_ ed
  let put_ (j : Solve) : State := { s with fact := { s.fact with run := some j } }
  preempt (if j.adapt && changes && decide (4 ≤ j.sinceAdapt) then
      bump (put_ { j with rho := rho, refact := j.refact + 1, sinceAdapt := 1, phase := .factorising }) (reg pFACT 0x0AC)
    else put_ { j with sinceAdapt := j.sinceAdapt + 1, phase := .iterating })

/-- The check of R174–R178 on the running job: it ends by the first outcome that holds, its results being written, or goes on. -/
def checkJob (s : State) (j : Solve) : State :=
  let words (k : Nat) : Nat := ceilDiv (4 * k) 64
  let k := match checkStatus s j with
    | some st => if st = 5 then 0 else words j.x.length + words j.y.length
    | none => if preempts s { j with phase := .iterating } then stateCost j else 0
  factStep s j.cls k fun t =>
    let r := residualsOf t j
    let j := { j with rPrim := r.1, rDual := r.2.2.1 }
    match checkStatus s j with
    | some st => jobEnd { t with fact := { t.fact with run := some j } } j st
    | none => checkOn t j

/-- RESIDUAL_CHECK: a check that is due (R174). -/
def residualOp (s : State) : State :=
  match s.fact.run with
  | some j => if j.phase = .checking then checkJob s j else s
  | none => s

/-- MAX_ITER_REACHED (R178). -/
def maxIterOp (s : State) : State :=
  match s.fact.run with
  | some j => if j.phase = .checking ∧ j.maxIter ≤ j.iter then checkJob s j else s
  | none => s

/-- TIME_LIMIT_REACHED (R172): tested at an iteration boundary. -/
def timeLimitOp (s : State) : State :=
  match s.fact.run with
  | some j =>
    if j.phase ≠ .factorising ∧ j.timeLimit ≠ 0 ∧ j.timeLimit ≤ jobTime s j ∧ 0 < j.iter then checkJob s j else s
  | none => s

/-- The factor at hand is the solve's own (R171). -/
def ownFactor (s : State) (j : Solve) : Bool :=
  if factFits s j then decide (s.fact.resident = some j.handle) && decide (s.fact.owner = j.id)
  else decide (s.fact.streamed = some j.id)

/-- A suspended solve resumed: its state read back, its matrix refactorised when the factor is no longer its own; a
refactorisation that ρ has asked for goes on (R171, R176). -/
def resumed (s : State) (j : Solve) : State :=
  let j := privLoad s j
  let own := ownFactor s j || j.phase == .factorising
  let j := { j with
    since := count s, phase := if own then j.phase else .factorising, refact := j.refact + b2n (!own) }
  let s := { s with fact := { s.fact with run := some j, susp := none, waited := j.waited + s.fact.waited } }
  if own then s else bump s (reg pFACT 0x0AC)

/-- SOLVE_RESUME (R171). -/
def resumeOp (s : State) : State :=
  match s.fact.run, s.fact.susp with
  | none, some j =>
    if (oldestAny s true).isSome ∨ s.fact.begun.isSome ∨ factStopped s then s
    else
      let s := if s.fact.waitFrom.isSome then s else { s with fact := { s.fact with waited := 0 } }
      factStep s j.cls (stateCost j) fun t => resumed t j
  | _, _ => s

/-! ### CONFIRM (R179–R181) -/

/-- Two bounds agree in which of them is infinite, and finite ones lie within a tolerance (R180). -/
def withinTol (exact : Bool) (tol a b : Word) : Bool :=
  if exact then decide (a = b)
  else
    match fracT .float32 a, fracT .float32 b, fracT .float32 tol with
    | some x, some y, some t => let d := Frac.sub x y; !Frac.lt t ⟨d.num.natAbs, d.den⟩
    | _, _, _ => decide (a = b)

/-- A bound pair of R180. -/
def boundOk (exact : Bool) (tol a b : Word) : Bool :=
  (negInf a == negInf b) && (posInf a == posInf b) &&
    (if (negInf a || posInf a) && !exact then true else withinTol exact tol a b)

/-- The comparison of R180: actual and forecast data. -/
def confirmMatch (exact : Bool) (tq tl tu : Word) (act fc : List (List Word)) : Bool :=
  decide (nthD act 0 [] = nthD fc 0 []) && decide (nthD act 1 [] = nthD fc 1 []) &&
    (((nthD act 2 []).zip (nthD fc 2 [])).all fun e => withinTol exact tq e.1 e.2) &&
    (((nthD act 3 []).zip (nthD fc 3 [])).all fun e => boundOk exact tl e.1 e.2) &&
    ((nthD act 4 []).zip (nthD fc 4 [])).all fun e => boundOk exact tu e.1 e.2

/-- The re-solve of a rejected CONFIRM (R181): actual data, held settings, warm start from the held result. -/
def reSolve (s : State) (age q : Nat) (d : List Byte) (h : HeldCtx) (p : Pattern) : Solve :=
  let j := h.job
  let x := vec s (nthD j.addrs 5 0) p.n
  let y := vec s (nthD j.addrs 6 0) p.m
  let pr := problemOf p [[], vec s (leAt d 0x10 8) p.nnzA]
  { j with
    id := s.fact.nextId, age := age, q := q, desc := d, kind := 2, phase := .factorising, tag := leAt d 4 4, cls := clsOf (leAt d 2 1)
    addrs := [leAt d 0x08 8, leAt d 0x10 8, leAt d 0x18 8, leAt d 0x20 8, leAt d 0x28 8, leAt d 0x40 8, leAt d 0x48 8]
    rho := (settings j.desc).2.1, iter := 0, refact := 0, sinceAdapt := 4, suspended := false, x := x
    z := fitVec p.m (warmZ pr x), y := y, xPrev := x, yPrev := y, rPrim := 0, rDual := 0, start := count s, spent := 0
    since := count s }

/-- A kept CONFIRM (R181): the held record's fields under the CONFIRM's TAG. -/
def keepHeld (s : State) (q : Nat) (d : List Byte) (h : HeldCtx) : State :=
  let s := showResult (bump s (reg pFACT 0x0B0)) h.job q (leAt d 4 4) (clsOf (leAt d 2 1))
  complete s q d { h.rec_ with confirm := 2 } h.job.start

/-- A CONFIRM descriptor executed. -/
def confirmDesc (s : State) (q age : Nat) (d : List Byte) : State :=
  if !descClassOk s q d then invalid s q d 2
  else
    match s.fact.held.find? fun h => h.job.tag == leAt d 0x78 4 with
    | none => invalid s q d 5
    | some h =>
      match get? s.fact.handles h.job.handle with
      | none => invalid s q d 3
      | some p =>
        if !solveAddrsOk s (setNth d 1 0) p then invalid s q d 4
        else if factStopped s then invalid s q d 6
        else
          let exact := leAt d 1 1 / 8 % 2 == 0
          let tol (o : Nat) : Word := w32 (leAt d o 4)
          let j := reSolve s age q d h p
          let same := confirmMatch exact (tol 0x50) (tol 0x54) (tol 0x58) (jobData s j) (jobData s h.job)
          let s := { s with fact := { s.fact with held := s.fact.held.erase h } }
          if same ∧ h.rec_.status = 0 then keepHeld s q d h else jobStart s j

/-- CONFIRM. -/
def confirmOp (s : State) : State := factRunDesc s (· == 2) confirmDesc

/-! ### Periods, configuration, faults -/

/-- PERIOD_BOUNDARY (R183): a written PERIOD takes effect from here on. -/
def periodOp (s : State) (pos : Nat) : State :=
  let done : Bool := match s.fact.lastB with | some p => decide (pos ≤ p) | none => false
  if !s.lac.inService ∨ fusedOff s pFACT ∨ pos % 65536 ≠ 0 ∨ cycleOf pos % max 1 s.fact.period ≠ 0 ∨ done then s
  else
    let s := tally (reachPos s pos) (reg pFACT 0x098)
    ev { s with fact := { s.fact with lastB := some pos, period := max 1 (rdF s (reg pFACT 0x08C) 0 16) } } pFACT 1

/-- PRIV can be written (R186): no handle registered, nothing pending, running or suspended. -/
def privFree (s : State) : Bool :=
  s.fact.handles.isEmpty && (fqPend s 0).isEmpty && (fqPend s 1).isEmpty && s.fact.begun.isNone &&
    s.fact.run.isNone && s.fact.susp.isNone

/-- PRIV_LO or PRIV_HI written: STAT.PRIV_VALID follows (R186). -/
def privSet (s : State) (a : Nat) (v : Word) : State :=
  let s := wr s a (if a = reg pFACT 0x090 then v &&& 0xFFF00000 else v)
  wrB s (reg pFACT 0x084) 3 (decide (privBase s + 268435456 ≤ Config.dramBytes))

/-- A queue's ring configuration can be written (R187). -/
def queueFree (s : State) (q : Nat) : Bool :=
  let mine (o : Option Solve) : Bool := match o with | some j => j.q == q | none => false
  (fqPend s q).isEmpty && (match s.fact.begun with | some e => e.1 != q | none => true) && !mine s.fact.run &&
    !mine s.fact.susp && !(s.fact.held.any fun h => h.job.q == q)

/-- The completion DISCARDED of a descriptor that has not begun to execute (R182). -/
def discardPost (s : State) (q : Nat) (d : List Byte) : Post :=
  ⟨q, leAt d 4 4, { status := 6, outcome := oDISCARDED }, count s, clsOf (leAt d 2 1), descCounts d⟩

/-- The solve in flight discarded (R182): a lane or cache error. -/
def factDiscard (s : State) : State :=
  let s := { s with fact := { s.fact with resident := none, paid := 0, waitFrom := none } }
  match s.fact.run, s.fact.begun with
  | some j, _ => bump (jobEnd s { j with kind := 0 } 6) (reg pFACT 0x040)
  | none, some (q, _, d) =>
    bump (postAll { s with fact := { s.fact with begun := none } } [discardPost s q d]) (reg pFACT 0x040)
  | none, none => s

/-- A lane retired (R182). -/
def laneRetire (s : State) : State :=
  ev (wrF s (reg pFACT 0x084) 16 7 (rdF s (reg pFACT 0x084) 16 7 - 1)) pFACT 5

/-- A cache word group retired (R182). -/
def cacheRetire (s : State) : State := ev { s with fact := { s.fact with cacheBad := true, resident := none } } pFACT 5

/-- A block fault (R182): pending descriptors, the suspended solve and each held context complete DISCARDED, in the order of their
doorbells (R170), as completion space frees. -/
def factBlockFault (s : State) : State :=
  let s := factDiscard s
  let old (j : Solve) (c : Compl) (counts : Bool) : Nat × Post :=
    (2 * j.age + b2n (j.q == 0), ⟨j.q, j.tag, { c with status := 6, outcome := oDISCARDED }, j.start, j.cls, counts⟩)
  let jobs := (match s.fact.susp with | some j => [old j (jobCompl s j 6 j.x) true] | none => []) ++
    s.fact.held.map fun h => old h.job h.rec_ false
  let pend := [0, 1].flatMap fun q => (fqPend s q).map fun e =>
    (2 * e.2 + b2n (q == 0), discardPost s q (descAt s q e.1))
  let all := (sortBy (·.1) (jobs ++ pend)).map fun e => e.2
  let s := [0, 1].foldl (fun t q => (fqPend t q).foldl (fun u e => sqTake u q e.1) t) s
  let s := bumpBy { s with fact := { s.fact with susp := none, held := [], paid := 0, waitFrom := none, waited := 0 } }
    (reg pFACT 0x040) all.length
  postAll s all

/-- A word of the solver vector window (R185). -/
def vectorWord (s : State) (off : Nat) : Word :=
  match s.fact.win with
  | none => 0
  | some (xa, ya, n, m) =>
    if off < 0x200000 then (if off / 4 < n then w32 (ramNat s (xa + off) 4) else 0)
    else
      let j := (off - 0x200000) / 4 + (if rdB s (reg pFACT 0x09C) 0 then 524288 else 0)
      if j < m then w32 (ramNat s (ya + 4 * j) 4) else 0

end Sys2Proof.Machine
end

