-- ==== Sys2Proof/Machine/AetOps.lean ====
section
/-!
DEFINITION. The angle event table (R52–R56): its entries, which of them match a position, and the placing of reserved
entries by their owning blocks.
-/

namespace Sys2Proof.Machine

/-- The address of word `w` of entry `n`. -/
def aetAddr (n w : Nat) : Nat := reg (pAET + n / 256) (0x800 + 8 * (n % 256) + 4 * w)

/-- Word 0 of an entry. -/
def aetW0 (s : State) (n : Nat) : Word := rd s (aetAddr n 0)

/-- Word 1 of an entry. -/
def aetW1 (s : State) (n : Nat) : Word := rd s (aetAddr n 1)

/-- A word of an entry as it stood when a position was reached: a commit on the fabric cycle on which it is reached, or
after, does not apply to it (R53). -/
def aetWas (s : State) (n w pos : Nat) : Word :=
  (beforePos s 3 n w pos ⟨.int32, rd s (aetAddr n w), 0⟩).val

/-- Both words of an entry replaced, what they were noted. -/
def aetSet (s : State) (n : Nat) (w0 w1 : Word) : State :=
  let note (t : State) (w : Nat) : State := notePast t 3 n w 0 ⟨.int32, rd s (aetAddr n w), 0⟩
  wr (wr (note (note s 0) 1) (aetAddr n 0) w0) (aetAddr n 1) w1

/-- Whether a word 0 matches a position (R52). -/
def w0Matches (w : Word) (pos : Nat) : Bool :=
  let m := 2 ^ min 8 (fld w 24 4)
  bit w 31 && fld w 0 16 == angleOf pos && cycleOf pos % m == fld w 16 8 % m

/-- Actions in firing order: SAFETY class first, then all others, each group in entry order (R55). -/
def aetOrder (l : List Fire) : List Fire :=
  (l.filter fun f => fld f.w0 28 3 == 0) ++ l.filter fun f => fld f.w0 28 3 != 0

/-- Every entry number. -/
def aetAll : List Nat := List.range 512

/-- The actions due at a position, in order (R52, R55). -/
def aetDue (s : State) (pos : Nat) : List Fire :=
  aetOrder ((aetAll.map fun n => ⟨n, pos, false, aetWas s n 0 pos, aetWas s n 1 pos⟩).filter fun f => w0Matches f.w0 pos)

/-- The first position after `a` at an angle. -/
def nextAt (a angle : Nat) : Nat := a + 1 + (angle + 65536 - (a + 1) % 65536) % 65536

/-- The actions due at a forward step from `a` to `b` (R49): entries of skipped positions, LATE, and entries matching
`b`, in one order. -/
def aetStepDue (s : State) (a b : Nat) : List Fire :=
  aetOrder ((aetAll.map fun n =>
    let p := nextAt a (fld (aetW0 s n) 0 16)
    ⟨n, p, decide (p < b), aetW0 s n, aetW1 s n⟩).filter fun f => decide (f.pos ≤ b) && w0Matches f.w0 f.pos)

/-- A reserved entry placed by its owning block: angle, residue, log2 of M, class, action and target. -/
def aetPlace (s : State) (n angle residue lg cls action target : Nat) : State :=
  aetSet s n (w32 (angle % 65536 + residue % 256 * 2 ^ 16 + lg % 16 * 2 ^ 24 + cls % 8 * 2 ^ 28 + 2 ^ 31))
    (w32 (action % 256 + target % 65536 * 256))

/-- A reserved entry disabled. -/
def aetDisable (s : State) (n : Nat) : State := aetSet s n (setFld (aetW0 s n) 31 1 0) (aetW1 s n)

/-- An entry word 0 as it acts and reads: MOD_LOG2 9–15 as 8, CLASS 5–7 as 4. -/
def aetClean (w : Word) : Word :=
  let w := setFld w 24 4 (min 8 (fld w 24 4))
  setFld w 28 3 (min 4 (fld w 28 3))

end Sys2Proof.Machine
end

