-- ==== Sys2Proof/Machine/UpdOps.lean ====
section
/-!
DEFINITION. Cobbler, the update engine (R341–R345): the lease, the patch and its checks, building the target, arming,
activating and confirming it.
-/

namespace Sys2Proof.Machine

/-- UPD.STAT. -/
def updStatA : Nat := reg pUPD 0x088

/-- UPD.STAT.STATE: 0 IDLE, 1 RECEIVING, 2 BUILDING, 3 ARMED, 4 CHECKING, 5 DEAD. -/
def updState (s : State) : Nat := rdF s updStatA 0 3

/-- A state of Cobbler entered. -/
def updGo (s : State) (st : Nat) : State := wrF s updStatA 0 3 st

/-- A step that no request waits on, logged as a kind-6 change of HARDWARE origin (R342, R204). -/
def updLog (old s : State) : State :=
  logHw s pUPD 6 updStatA (BitVec.ofNat 64 (rd old updStatA).toNat) (BitVec.ofNat 64 (rd s updStatA).toNat) .control

/-- The root in force (R286): the vendor's, the owner's, or the retire root. -/
def rootForce (s : State) : List Byte :=
  if s.vault.rootOf = 2 then s.vault.ownerRoot else leBytes 32 (Config.rootKey s.vault.rootOf).toNat

/-! ### The lease (R343) -/

/-- LEASE_HELD on both pages, and OPX.EVT.LEASE_CHANGED. -/
def leaseShow (s : State) : State :=
  let held := s.upd.lease.isSome
  ev (wrB (wrB s updStatA 3 held) (reg pOPX 0x084) 12 held) pOPX 6

/-- The initiator holds the lease. -/
def leaseHolder (s : State) (w : Who) : Bool :=
  match s.upd.lease with
  | some l => l.holder == w
  | none => false

/-- A free lease granted with a new lease ID (R343); IDLE becomes RECEIVING. -/
def leaseTake (s : State) (w : Who) (org : Word) : State :=
  if s.upd.lease.isSome then s
  else
    let n := s.upd.leases + 1
    let s := { s with upd := { s.upd with
      lease := some ⟨w, org, n % 2 ^ 32, s.clk.fabric⟩, leases := n, patch := [], staged := none } }
    let s := wr (wr (wr s (reg pUPD 0x09C) (w32 n)) (reg pUPD 0x0A0) org) (reg pUPD 0x0A4) 0
    leaseShow (if updState s = 0 then updGo s 1 else s)

/-- The lease is over: its registers read 0. -/
def leaseGone (s : State) : State :=
  let s := { s with upd := { s.upd with lease := none } }
  leaseShow (wr (wr (wr s (reg pUPD 0x09C) 0) (reg pUPD 0x0A0) 0) (reg pUPD 0x0A4) 0)

/-- Patch and staging discarded. -/
def updClear (s : State) : State := { s with upd := { s.upd with patch := [], staged := none } }

/-- A lease ends (R342, R343): RECEIVING and BUILDING give up their patch. -/
def leaseEnd (s : State) : State :=
  if s.upd.lease.isNone then s
  else
    let s' := ev (leaseGone s) pUPD 3
    if updState s = 1 ∨ updState s = 2 then updGo (updClear (wrF s' updStatA 8 4 8)) 0 else s'

/-- The lease renewed by its holder. -/
def leaseRenew (s : State) : State :=
  match s.upd.lease with
  | some l => { s with upd := { s.upd with lease := some { l with at_ := s.clk.fabric } } }
  | none => s

/-- The lease has gone LEASE_MIN minutes without a renewal or an accepted chunk; 0 acts as 1 (R343). -/
def leaseOver (s : State) : Bool :=
  s.upd.lease.any fun l => decide (l.at_ + max 1 (rdF s (reg pUPD 0x080) 8 8) * (60 * Config.fabricHz) ≤ s.clk.fabric)

/-- LEASE_EXPIRY (R343): not while ARMED or CHECKING. -/
def leaseExpire (s : State) : State :=
  if updState s = 3 ∨ updState s = 4 ∨ !leaseOver s then s else updLog s (leaseEnd s)

/-! ### The patch (R341, R342) -/

/-- The bytes of a patch received so far, when they stand without a gap from offset 0. -/
def patchBytes (s : State) : List Byte := s.upd.patch.map Prod.snd

/-- Why a patch of `b` is turned away, if it is: STAT.CAUSE (R342). A full image carries a zero BASE_HASH. -/
def patchCause (s : State) (b : List Byte) (full : Bool) : Nat :=
  let body := b.take (b.length - 64)
  let base := leAt b 8 32
  if b.length < 192 ∨ leAt b 0 4 ≠ 0x4F585550 ∨ leAt b 4 2 ≠ 1 ∨ b.length ≠ 192 + leAt b 0x58 4 ∨
      2 ^ 26 < leAt b 0x5C 4 then 4
  else if !Crypto.edVerify (rootForce s) body (b.drop (b.length - 64)) then 1
  else if base ≠ 0 ∧ (full ∨ base ≠ (Crypto.sha256 s.upd.image).toNat) then 2
  else if leAt b 0x48 4 ≤ s.guard.arb then 3
  else 0

/-- A patch rejected: back to RECEIVING, or staying in DEAD (R342). -/
def patchReject (s : State) (cause : Nat) : State :=
  let s := ev (wrF s updStatA 8 4 cause) pUPD 2
  updClear (if updState s = 5 then s else updGo s 1)

/-- A whole patch checked: BUILDING, or rejected (R342). -/
def patchCheck (s : State) (b : List Byte) : State :=
  let c := patchCause s b (updState s == 5)
  if c ≠ 0 then patchReject s c
  else
    let s := { s with upd := { s.upd with
      patch := (b.zipIdx.map fun e => (e.2, e.1)), sq := leAt b 0x48 4, group := leAt b 0x4C 4, actTime := leAt b 0x50 8 } }
    let s := wr s (reg pUPD 0x0A4) (w32 (leAt b 0x48 4))
    wrF (if updState s = 5 then s else updGo s 2) updStatA 8 4 0

/-- Bytes of an UPDATE_CHUNK put at their offset; a header that is complete shows its SEQUENCE; the last chunk starts
the checks (R342). -/
def patchChunk (s : State) (off : Nat) (bs : List Byte) : State :=
  let m := (bs.zipIdx).foldl (fun m e => ins m (off + e.2) e.1) s.upd.patch
  let s := leaseRenew { s with upd := { s.upd with patch := m } }
  let whole := m.map Prod.snd
  let head := decide (128 ≤ m.length) && decide ((nthD m 127 (0, 0)).1 = 127)
  let s := if head then wr s (reg pUPD 0x0A4) (w32 (leAt whole 0x48 4)) else s
  let n := 192 + leAt whole 0x58 4
  if head ∧ n ≤ m.length ∧ (nthD m (n - 1) (0, 0)).1 = n - 1 then patchCheck s (whole.take n) else s

/-- The operations of a patch applied (R341): the target, or none when an operation is bad. -/
def patchRun (base : List Byte) (len : Nat) : Nat → List Byte → List Byte → Option (List Byte)
  | 0, _, _ => none
  | fuel + 1, ops, out =>
    match ops with
    | [] => none
    | c :: r =>
      let a := leAt r 0 4
      let l := leAt r 4 4
      if c = 0 then (if out.length = len then some out else none)
      else if c = 1 then
        if base.length < a + l ∨ len < out.length + l ∨ r.length < 8 then none
        else patchRun base len fuel (r.drop 8) (out ++ slice base a l)
      else if c = 2 then
        if base.length < a + l ∨ len < out.length + l ∨ r.length < 8 + l then none
        else patchRun base len fuel (r.drop (8 + l))
          (out ++ (slice base a l).zipWith (· + ·) ((r.drop 8).take l))
      else if c = 3 then
        if len < out.length + a ∨ r.length < 5 then none
        else patchRun base len fuel (r.drop 5) (out ++ List.replicate a (nthD r 4 0))
      else none

/-- The base of a patch: the running image, or zero bytes for a full image (R341). -/
def patchBase (s : State) (b : List Byte) : List Byte :=
  if leAt b 8 32 = 0 then List.replicate (leAt b 0x5C 4) 0 else s.upd.image

/-- PATCH_BUILD_DONE (R342): the target stands in NAND staging with its hash, or the patch is rejected; while DEAD the
full image is written for the next module reset (R345). -/
def buildDone (s : State) (nandOk : Bool) : State :=
  let b := patchBytes s
  let ops := (b.drop 128).take (leAt b 0x58 4)
  if updState s ≠ 2 ∧ !(updState s == 5 && !b.isEmpty) then s
  else
    let t :=
      match patchRun (patchBase s b) (leAt b 0x5C 4) (ops.length + 1) ops [] with
      | none => patchReject s 5
      | some img =>
        if (Crypto.sha256 img).toNat ≠ leAt b 0x28 32 then patchReject s 6
        else if !nandOk then patchReject s 7
        else if updState s = 5 then { updClear s with upd := { (updClear s).upd with next := some img } }
        else
          let s := ev (updGo { s with upd := { s.upd with staged := some img } } 3) pUPD 0
          let s := wr s (reg pUPD 0x0B4) (w32 s.upd.group)
          if s.upd.actTime = 0 then aetPlace s 42 0 0 0 1 0xB 0 else s
    updLog s t

/-- ACT_TIME_REACHED (R344): entry 42 enabled on the fabric cycle on which the calendar reaches ACT_TIME. -/
def actTimeOp (s : State) : State :=
  if updState s = 3 ∧ s.upd.actTime / 2 ^ 11 ≤ (calStamp s).toNat / 2 ^ 11 then aetPlace s 42 0 0 0 1 0xB 0 else s

/-- UPD_ACTIVATE fires (R344): the new image is valid, UPD.ARB takes SEQUENCE, the position is recorded. -/
def updActivate (s : State) (pos : Nat) : State :=
  match updState s, s.upd.staged with
  | 3, some img =>
    let t := { s with
      guard := { s.guard with arb := max s.guard.arb s.upd.sq }
      upd := { s.upd with image := img, staged := none, patch := [], since := s.clk.fabric } }
    let t := updGo (wr64 (aetDisable t 42) (reg pUPD 0x0AC) pos) 4
    updLog s t
  | _, _ => s

/-- CONFIRM from the new runtime (R342). -/
def updConfirmed (s : State) : State :=
  if updState s ≠ 4 then s else ev (updGo (leaseGone s) 0) pUPD 1

/-- CANCEL from the holder (R342). -/
def updCancelled (s : State) : State :=
  if updState s ≠ 3 then s
  else updGo (leaseGone (updClear (wr (aetDisable s 42) (reg pUPD 0x0B4) 0))) 0

end Sys2Proof.Machine
end

