-- ==== Sys2Proof/Machine/VaultOps.lean ====
section
/-!
DEFINITION. The vault's operations (R277–R298): key slots, Locksmith's commands, the destruction of keys, the tamper
record, the calendar with its staged fields, shadows and alarms, and the PON latch.
-/

namespace Sys2Proof.Machine

/-- A key slot. -/
def slot (s : State) (n : Nat) : KeySlot := look .empty s.vault.slots n

/-- A key slot replaced. -/
def setSlot (s : State) (n : Nat) (k : KeySlot) : State :=
  { s with vault := { s.vault with slots := put .empty s.vault.slots n k } }

/-- A draw of Locksmith's random source (log 3). -/
def draw (s : State) : List Byte × State :=
  (leBytes 32 (Config.randomBytes s.vault.draws).toNat, { s with vault := { s.vault with draws := s.vault.draws + 1 } })

/-- The next generation of a slot; it rolls over (R279). -/
def nextGen (g : Nat) : Nat := (g + 1) % 65536

/-- The value of LOCK.DATA0–7: DATA0 bits [31:0] are bytes 0–3, least significant first. -/
def lockData (s : State) : List Byte :=
  (List.range 8).flatMap fun j => leBytes 4 (look 0 s.vault.data j).toNat

/-- A value put into LOCK.OUT0–7. -/
def lockOut (s : State) (bs : List Byte) : State :=
  (List.range 8).foldl (fun t j => wr t (reg pLOCK (0x0E0 + 4 * j)) (w32 (leAt bs (4 * j) 4))) s

/-- LOCK.SEL.SLOT -/
def lockSel (s : State) : Nat := rdF s (reg pLOCK 0x08C) 0 6

/-- LOCK.META.DST -/
def lockDst (s : State) : Nat := rdF s (reg pLOCK 0x094) 24 6

/-- The slot a Locksmith command writes or uses. -/
def lockTarget (s : State) (cmd : Nat) : Nat := if cmd = 5 then lockDst s else lockSel s

/-- The outcome of a Locksmith command before its effect: REFUSED_RIGHTS or ABSENT as R281, R283, R285 and R286 give,
DISCARDED on a slot or a block out of service (R303, R306), else SERVED. -/
def lockCheck (s : State) (cmd : Nat) : Nat :=
  let k := slot s (lockSel s)
  let kind := rdF s (reg pLOCK 0x094) 0 4
  if fenced s pLOCK ∨ retiredPg s pLOCK ∨ (cmd < 7 ∧ cellOut s pLOCK (lockTarget s cmd)) then oDISCARDED
  else if cmd = 1 then (if kind = 0 ∨ 6 ≤ kind then oRIGHTS else oSERVED)
  else if cmd = 2 then (if k.stage.isNone then oRIGHTS else oSERVED)
  else if cmd = 3 ∨ cmd = 4 then oSERVED
  else if cmd = 5 then
    (if k.kind = 1 ∨ k.kind = 5 ∨ k.kind = 2 then oSERVED else oABSENT)
  else if cmd = 6 then (if k.kind = 4 then oSERVED else oABSENT)
  else if cmd = 7 then (if s.guard.lifecycle = 1 then oSERVED else oRIGHTS)
  else if cmd = 8 then (if s.guard.lifecycle = 2 then oSERVED else oRIGHTS)
  else oSERVED

/-- SESS_INFO of a session slot: 0 while it is not open. -/
def sessInfo (s : State) (n : Nat) : Word :=
  let x := session s n
  if x.open_ then
    w32 (x.tenant + 2 ^ 8 + x.port % 32 * 2 ^ 9 + clsN x.ceiling * 2 ^ 14 + x.keySlot % 64 * 2 ^ 17)
  else 0

/-- What the close of a session does (R231): its messages in reassembly or awaiting service, its staged words and latches are
discarded, its update lease ends (R343). -/
def closeFree (s : State) (n : Nat) : State :=
  let ss := session s n
  if !ss.open_ then s
  else
    let mine : Nat → Bool := fun k => k / 2 ^ 20 == 16 + n
    let t := { s with
      opx := { s.opx with
        sess := put .free s.opx.sess n { Session.free with gen := ss.gen }
        inbox := s.opx.inbox.filter fun m => m.slot != n
        outq := s.opx.outq.filter fun m => m.slot != n }
      staged := s.staged.filter fun e => !mine e.1
      latch := s.latch.filter fun e => !mine e.1
      toll := { s.toll with
        waiting := s.toll.waiting.filter fun r => r.who != .opx (Fin.ofNat 2048 n)
        asm := s.toll.asm.filter fun a => a.svc || a.slot != n } }
    ev (if leaseHolder t (.opx (Fin.ofNat 2048 n)) then updLog t (leaseEnd t) else t) pOPX 1

/-- The entry of a session's close: the change of SESS_INFO by an initiator (R229). -/
def closeEntry (s : State) (n : Nat) (w : Who) (c : Cls) : Change :=
  { origin := origin s w, kind := 0, target := reg pOPX 0x09C, old := (sessInfo s n).setWidth 64, new := 0
    outcome := oSERVED, cls := c }

/-- A session closed by an initiator, and the change logged with his origin. -/
def closeAs (s : State) (n : Nat) (w : Who) (c : Cls) : State :=
  if (session s n).open_ then logMade (closeFree s n) w (closeEntry s n w c) else s

/-- A session closed by the module itself. -/
def closeSession (s : State) (n : Nat) : State := closeAs s n (.hw (Fin.ofNat 128 pOPX)) .control

/-- A session closed by a write to OPX.SESS_CLOSE (R231). -/
def closeBy (s : State) (n : Nat) (w : Who) : State := closeAs s n w .operator

/-- The engine's frames for a session that have not started taken from the ports: nothing is sent after the destruction of
its keys (R238). -/
def dropFrames (s : State) (n : Nat) : State :=
  { s with eth := (List.range 18).foldl (fun m k =>
      let p := look EthPort.reset m k
      put EthPort.reset m k { p with jobs := p.jobs.filter fun j => j.src != .opx n && j.src != .tref n }) s.eth }

/-- A session closed with what it has not yet sent (R238). -/
def closeMute (s : State) (n : Nat) : State := dropFrames (closeSession s n) n

/-- Every session closed, as under R238. -/
def closeAll (s : State) : State := (s.opx.sess.map Prod.fst).foldl closeMute s

/-- The sessions opened with a slot closed (R284). -/
def closeBySlot (s : State) (k : Nat) : State :=
  ((s.opx.sess.filter fun e => e.2.open_ && e.2.keySlot == k).map Prod.fst).foldl closeMute s

/-- Every slot value, stage, mask and share, the scrambling key and the session key store zeroised; every slot EMPTY, its
generation advanced once; every session closed (R289). -/
def zeroKeys (s : State) : State :=
  let slots := (List.range 64).foldl (fun m j =>
    put KeySlot.empty m j { KeySlot.empty with gen := nextGen (look .empty s.vault.slots j).gen }) []
  let t := { s with vault := { s.vault with slots := slots, scramble := [], data := [] } }
  ev (closeAll (wrB t (reg pLOCK 0x084) 4 true)) pLOCK 1

/-- The destruction line (R289). -/
def destroyKeys (s : State) : State :=
  ev (zeroKeys { s with vault := { s.vault with waiting := [] } }) pWTCH 0

/-- The effect of a Locksmith command on slots and registers (R281–R286), its check passed. -/
def lockEffect (s : State) (cmd : Nat) : State :=
  let n := lockSel s
  let k := slot s n
  if cmd = 1 then
    let m := rd s (reg pLOCK 0x094)
    let t := setSlot s n { k with stage := some (fld m 0 4, fld m 8 8, fld m 16 8, lockData s) }
    { t with vault := { t.vault with data := [] } }
  else if cmd = 2 then
    match k.stage with
    | some (kind, ten, rt, v) =>
      let t := setSlot s n
        { kind := kind, tenant := ten, rights := rt, gen := nextGen k.gen, val := v, stage := none, mask := k.mask }
      if k.kind = 2 then closeBySlot t n else t
    | none => s
  else if cmd = 3 then setSlot s n { k with stage := none }
  else if cmd = 4 then
    let t := setSlot s n { KeySlot.empty with gen := nextGen k.gen }
    if k.kind = 2 then closeBySlot t n else t
  else if cmd = 5 then
    let d := lockDst s
    let arg := ramBytes s (rd64 s (reg pLOCK 0x0A8)) (rdF s (reg pLOCK 0x0B0) 0 9)
    let out := leBytes 32 (Crypto.hmac k.val (beDword 1 ++ arg ++ beDword 256)).toNat
    let o := slot s d
    let t := setSlot { s with free := s.free + 1 } d
      { kind := 5, tenant := k.tenant, rights := (Config.freeWord s.free).toNat % 256, gen := nextGen o.gen, val := out
        stage := none, mask := o.mask }
    if o.kind = 2 then closeBySlot t d else t
  else if cmd = 6 then
    let c := s.guard.attCtr + 1
    let msg := lockData s ++ leBytes 16 Config.moduleIdentity.toNat ++ leBytes 1 s.guard.lifecycle ++
      s.vault.measure ++ (leBytes 8 c).reverse
    wr64 (lockOut { s with guard := { s.guard with attCtr := c } } (leBytes 32 (Crypto.hmac k.val msg).toNat)) (reg pLOCK 0x0A0) c
  else if cmd = 7 then
    let t := { s with
      guard := { s.guard with lifecycle := 2 }
      vault := { s.vault with ownerRoot := lockData s } }
    wrB t (reg pLOCK 0x084) 6 true
  else if cmd = 8 then
    zeroKeys (wrB { s with guard := { s.guard with lifecycle := 3 } } (reg pLOCK 0x084) 6 true)
  else s
where
  /-- A 32-bit big-endian number. -/
  beDword (v : Nat) : List Byte := (leBytes 4 v).reverse

/-- LOCK.RESULT and EVT.DONE when a command ends (R281). -/
def lockEnd (s : State) (cmd sl outcome : Nat) : State :=
  ev (wr s (reg pLOCK 0x09C) (w32 (outcome + cmd * 2 ^ 16 + sl * 2 ^ 24))) pLOCK 0

/-- A command that has waited for READY ends (R280): in LOCK.RESULT, and in its Daybook entry, whose NEW is the generation
that its slot is left with (R200). -/
def lockEndWait (s : State) (e : Nat × Nat) (code : Nat) : State :=
  let n := lockTarget s e.1
  dayEnd (lockEnd s e.1 n code) e.2 code (if e.1 = 6 then none else some (BitVec.ofNat 64 (slot s n).gen))

/-- The random source can be drawn from: its health tests hold, and Locksmith is in service (R280). -/
def rngOk (s : State) : Bool := rdB s (reg pLOCK 0x084) 5 && !fenced s pLOCK && !retiredPg s pLOCK

/-! ### Tamper record -/

/-- The sensors that take part: armed and enabled (R287); causes MESH1, MESH2, SW1, SW2 at 0–3 and VBAK, VIN, TEMP,
XTAL at 6–9. -/
def armedCauses (s : State) (c : Nat) : Nat :=
  if rdB s (reg pWTCH 0x080) 31 then c &&& (rdF s (reg pWTCH 0x080) 0 10) &&& 0x3CF else 0

/-- The record of a trip: BKP.TMP_CAUSE, TMP_CAL, TMP_COUNT and WTCH.LOG (R289). -/
def tamperRecord (s : State) (c situation : Nat) : State :=
  let cal := (calStamp s).toNat
  let s := if rd s (reg pBKP 0x090) = 0 then wr64 s (reg pBKP 0x094) cal else s
  let s := wr s (reg pBKP 0x090) (rd s (reg pBKP 0x090) ||| w32 c)
  let s := wr s (reg pBKP 0x09C) (w32 (countUp true 32 (rd s (reg pBKP 0x09C)).toNat 1))
  let s := wrB s (reg pBKP 0x080) 3 true
  let next := rdF s (reg pWTCH 0x090) 0 4
  let total := rdF s (reg pWTCH 0x090) 16 16
  let last := reg pWTCH (0x100 + 0x10 * ((next + 15) % 16))
  if 0 < total ∧ rd64 s last = cal then wr s (last + 8) (rd s (last + 8) ||| w32 c)
  else
    let a := reg pWTCH (0x100 + 0x10 * next)
    let s := wr s (a + 8) (w32 (c + situation * 65536))
    let s := wr64 s a cal
    wr s (reg pWTCH 0x090) (w32 ((next + 1) % 16 + (total + 1) % 65536 * 65536))

/-! ### Calendar (R292–R297) -/

/-- Register of calendar field 0–6: SEC, MIN, HOUR, WDAY, DAY, MONTH, YEAR. -/
def calReg (f : Nat) : Nat := reg pCAL (0x080 + 4 * f)

/-- The calendar fields as they stand. -/
def calVals (s : State) : List Nat := (List.range 7).map fun f => (rd s (calReg f)).toNat

/-- The length of a month (R293). -/
def monthLen (month year : Nat) : Nat :=
  if month = 2 then (if (year % 4 = 0 ∧ year % 100 ≠ 0) ∨ year % 400 = 0 then 29 else 28)
  else if month = 4 ∨ month = 6 ∨ month = 9 ∨ month = 11 then 30 else 31

/-- The fields one second later (R293): SEC, MIN, HOUR, WDAY, DAY, MONTH, YEAR. -/
def calAdvance (v : List Nat) : List Nat :=
  let sec := nthD v 0 0; let mi := nthD v 1 0; let hr := nthD v 2 0; let wd := nthD v 3 0
  let dy := nthD v 4 0; let mo := nthD v 5 0; let yr := nthD v 6 0
  if sec + 1 ≠ 60 ∧ sec ≠ 63 then [sec + 1, mi, hr, wd, dy, mo, yr]
  else if mi + 1 ≠ 60 ∧ mi ≠ 63 then [0, mi + 1, hr, wd, dy, mo, yr]
  else if hr + 1 ≠ 24 ∧ hr ≠ 31 then [0, 0, hr + 1, wd, dy, mo, yr]
  else
    let wd' := if wd + 1 = 7 ∨ wd = 7 then 0 else wd + 1
    if dy ≠ monthLen mo yr ∧ dy ≠ 31 then [0, 0, 0, wd', dy + 1, mo, yr]
    else if mo ≠ 12 ∧ mo ≠ 0 ∧ mo < 13 then [0, 0, 0, wd', 1, mo + 1, yr]
    else if mo = 12 then [0, 0, 0, wd', 1, 1, if yr = 4095 then 0 else yr + 1]
    else [0, 0, 0, wd', 1, 1, yr]

/-- The number (YEAR, MONTH, DAY, HOUR, MIN, SEC) by which values are compared (R297). -/
def calKey (v : List Nat) : Nat :=
  ((((nthD v 6 0 * 16 + nthD v 5 0) * 32 + nthD v 4 0) * 32 + nthD v 2 0) * 64 + nthD v 1 0) * 64 + nthD v 0 0

/-- Whether alarm `n` matches a value: every unmasked field is equal to the alarm's (R296). -/
def alarmMatch (s : State) (n : Nat) (v : List Nat) : Bool :=
  let a := rd s (reg pCAL (0x0B0 + 12 * n))
  let b := rd s (reg pCAL (0x0B4 + 12 * n))
  let m := rd s (reg pCAL (0x0B8 + 12 * n))
  let want := [fld a 0 6, fld a 8 6, fld a 16 5, fld a 24 3, fld b 0 5, fld b 8 4, fld b 16 12]
  bit m 8 && (List.range 7).all fun f => bit m f || nthD v f 0 == nthD want f 0

/-- Whether an alarm matches some value met on the way from `v` up to but excluding the key `k` (R297); the fuel is more than the
seconds of a full count of the calendar when it starts at `k` + 2^26. -/
def skipMatch (s : State) (n k : Nat) : Nat → List Nat → Bool
  | 0, _ => false
  | fuel + 1, v => calKey v < k && (alarmMatch s n v || skipMatch s n k fuel (calAdvance v))

/-- The PON latch set (R298). -/
def ponSetLatch (s : State) : State := wrB s (reg pBKP 0x080) 2 true

/-- The present calendar tick: the cycle of its second's boundary, and TICK. -/
def tickNow (s : State) : Nat × Nat := (s.vault.tickAt, calTick s)

/-- A wake source sets the PON latch: a PON_RELEASE in the same calendar tick leaves it set (R298). -/
def ponWake (s : State) : State :=
  ponSetLatch { s with vault := { s.vault with wokeAt := some (tickNow s) } }

/-- Alarm `n` fires: CAL.EVT.ALARMn, and with PON_EN the PON latch (R296). -/
def alarmFire (s : State) (n : Nat) (skipped : Bool) : State :=
  let s := ev s pCAL n
  let s := evIf skipped s pCAL (2 + n)
  if rdB s (reg pCAL (0x0B8 + 12 * n)) 10 then ev (ponWake s) pBKP 1 else s

/-- The evaluation of alarm `n` at a boundary (R296, R297). -/
def alarmEval (s : State) (n : Nat) (adv new : List Nat) (set : Bool) : State :=
  let here := alarmMatch s n new
  let skipped := set && rdB s (reg pCAL (0x0B8 + 12 * n)) 9 &&
    skipMatch s n (calKey new) (calKey new + 67108864) adv
  if skipped then alarmFire s n true else if here then alarmFire s n false else s

/-- A second boundary (R293–R297, R298): the calendar advances, staged fields replace theirs, alarms are evaluated,
WAKE_S counts down. -/
def calSecond (s : State) : State :=
  let adv := calAdvance (calVals s)
  let st := s.vault.calNext
  let new := (List.range 7).map fun f => match get? st f with | some w => w.toNat | none => nthD adv f 0
  let set := !st.isEmpty
  let s := (List.range 7).foldl (fun t f => wr t (calReg f) (w32 (nthD new f 0))) s
  let s := { s with vault := { s.vault with
    calNext := s.vault.calAfter, calAfter := [], tickAt := s.clk.fabric, tickBase := 0
    trimFrom := s.vault.trimFrom + 32768 } }
  let s := if set then ev (wrB s (reg pCAL 0x0A0) 0 true) pCAL 5 else s
  let s := wrB s (reg pCAL 0x0A0) 1 (!s.vault.calNext.isEmpty)
  let s := alarmEval (alarmEval s 0 adv new set) 1 adv new set
  let w := rd s (reg pBKP 0x08C)
  if w = 0 then s
  else
    let s := wr s (reg pBKP 0x08C) (w - 1)
    { s with vault := { s.vault with wakeDue := s.vault.wakeDue || decide (w = 1) } }

/-- A calendar field staged (R294): for the next boundary, or the one after when it arrives in tick 32,767. -/
def calStage (s : State) (f : Nat) (v : Word) : State :=
  let v := v &&& w32 (2 ^ nthD [6, 6, 5, 3, 5, 4, 12] f 0 - 1)
  let s := if calTick s = 32767 then
      { s with vault := { s.vault with calAfter := ins s.vault.calAfter f v } }
    else { s with vault := { s.vault with calNext := ins s.vault.calNext f v } }
  wrB s (reg pCAL 0x0A0) 1 true

/-- A calendar register as it stands: the fields, and TICK. -/
def calLive (s : State) (j : Nat) : Word := if j = 7 then w32 (calTick s) else rd s (reg pCAL (0x080 + 4 * j))

/-- A calendar register as an initiator reads it: its shadow while frozen, else live; CAL.SEC, whose read freezes anew, live
(R295). -/
def calRead (s : State) (w : Who) (j : Nat) : Word :=
  match get? s.vault.shadows (whoIdx w) with
  | some sh => if j = 0 then calLive s 0 else nthD sh.vals j 0
  | none => calLive s j

/-- A read of CAL.SEC freezes the initiator's shadows (R295). -/
def calFreeze (s : State) (w : Who) : State :=
  { s with vault := { s.vault with
    shadows := ins s.vault.shadows (whoIdx w) ⟨(List.range 8).map (calLive s), s.clk.fabric⟩ } }

/-- The initiator's shadows released. -/
def calRelease (s : State) (w : Who) : State :=
  { s with vault := { s.vault with shadows := del s.vault.shadows (whoIdx w) } }

/-- CAL.TRIM, signed (R292). -/
def calTrim (s : State) : Int := sgn 8 (rdF s (reg pCAL 0x0A8) 0 8)

/-- The calendar ticks since the last trim correction have reached ⌊1,048,576 / |t|⌋ (R292). -/
def trimDue (s : State) : Bool :=
  decide (calTrim s ≠ 0 ∧ ((1048576 / (calTrim s).natAbs : Nat) : Int) ≤ s.vault.trimFrom + calTick s)

/-- TRIM_CORRECTION (R292): a tick is added for a negative trim, omitted for a positive one. -/
def trimTick (s : State) : State :=
  if !trimDue s then s
  else { s with vault := { s.vault with
    tickBase := s.vault.tickBase + (if calTrim s < 0 then 1 else -1), trimFrom := -(calTick s : Int) } }

/-- TORN_READ (R295): shadows that have stood for 1 s without their read of CAL.YEAR are released. -/
def tornRelease (s : State) (w : Who) : State :=
  match get? s.vault.shadows (whoIdx w) with
  | some sh => if sh.since + Config.fabricHz ≤ s.clk.fabric then ev (calRelease s w) pCAL 4 else s
  | none => s

/-- WAKE_TIMER (R298): WAKE_S has reached 0. -/
def wakeTimerOp (s : State) : State :=
  if s.vault.wakeDue then ev (ponWake { s with vault := { s.vault with wakeDue := false } }) pBKP 0 else s

/-- VBAK_LOW (R278). -/
def vbakLowOp (s : State) : State := ev (wrB s (reg pBKP 0x080) 1 true) pBKP 2

/-- BACKUP_POWER_ON (R278): every vault cell reads 0, the registers of the backup domain take their reset values. -/
def backupOnOp (s : State) : State :=
  { s with
    regs := s.regs.filter fun e => !(pageOf e.1 == pWTCH || pageOf e.1 == pCAL || pageOf e.1 == pBKP)
    vault := { s.vault with
      slots := [], calNext := [], calAfter := [], shadows := [], wakeDue := false, wokeAt := none, tickAt := s.clk.fabric, tickBase := 0
      trimFrom := 0 } }

/-- REMASK_S in seconds: 0 acts as 1, above 3,600 as 3,600 (R280). -/
def remaskPeriod (s : State) : Nat := clampN 1 3600 (rdF s (reg pLOCK 0x080) 8 12)

/-- REMASK (R280): every REMASK_S seconds a new mask for every slot, when re-masking is selected and the random source is
sound. -/
def remaskAll (s : State) : State :=
  if !s.vault.ready ∨ !rdB s (reg pLOCK 0x080) 1 ∨ !rngOk s ∨
      s.clk.fabric < s.vault.remaskAt + remaskPeriod s * Config.fabricHz then s
  else (List.range 64).foldl (fun t j =>
    let (m, t) := draw t
    setSlot t j { slot t j with mask := m })
    { s with vault := { s.vault with remaskAt := s.clk.fabric } }

end Sys2Proof.Machine
end

