-- ==== Sys2Proof/Machine/LoomProg.lean ====
section
/-!
DEFINITION. Loom's program image: its tables (R88–R90, R388) and the checks it must pass before it can become active
(R91).
-/

namespace Sys2Proof.Machine

/-- The kind of a list entry (R89). -/
def entKind (e : Nat) : Nat := e / 2 ^ 20
/-- The index of a list entry (R89). -/
def entIdx (e : Nat) : Nat := e % 2 ^ 20
/-- The list entry of a kind and an index. -/
def entOf (kind idx : Nat) : Nat := kind * 2 ^ 20 + idx

/-- A read or write entry of the image: [31:30] kind, [19:0] index. -/
def entAt (b : List Byte) (off : Nat) : Nat := entOf (leAt b off 4 / 2 ^ 30) (leAt b off 4 % 2 ^ 20)

/-- Offset and entry count of table `k` of the header: segment, input, output, station, symbol table, list area. -/
def tabOff (b : List Byte) (k : Nat) : Nat := leAt b (0x20 + 8 * k) 4
/-- The entry count of table `k`. -/
def tabN (b : List Byte) (k : Nat) : Nat := leAt b (0x24 + 8 * k) 4

/-- The descriptor of segment `n` with its lists, at byte offsets in the list area (R88, R89, log 13). -/
def segAt (b : List Byte) (n : Nat) : SegDesc :=
  let o := tabOff b 0 + 32 * n
  let la := tabOff b 5
  let ro := la + leAt b (o + 0x0C) 4
  let rn := leAt b (o + 0x10) 2
  let wn := leAt b (o + 0x12) 2
  let so := la + leAt b (o + 0x14) 4
  { first := leAt b o 4, len := leAt b (o + 4) 2, base := leAt b (o + 8) 4
    reads := (List.range rn).map fun j => entAt b (ro + 4 * j)
    writes := (List.range wn).map fun j => entAt b (ro + 4 * rn + 4 * j)
    succ := (List.range (leAt b (o + 0x18) 2)).map fun j => leAt b (so + 2 * j) 2 }

/-- An input table entry. -/
def inAt (b : List Byte) (o : Nat) : InSlot :=
  { point := leAt b o 2, ty := tyOfCode (leAt b (o + 2) 1), policy := leAt b (o + 3) 1 % 4
    substEn := leAt b (o + 3) 1 / 4 % 2 == 1, deadband := w32 (leAt b (o + 4) 4), station := leAt b (o + 8) 2
    subst := w32 (leAt b (o + 12) 4) }

/-- An output table entry. -/
def outAt (b : List Byte) (o : Nat) : OutSlot :=
  { point := leAt b o 2, dest := leAt b (o + 2) 1, ty := tyOfCode (leAt b (o + 3) 1)
    failSafe := leAt b (o + 3) 1 / 128 == 1, fsVal := w32 (leAt b (o + 4) 4), idx := leAt b (o + 8) 2 }

/-- A station table entry. -/
def staAt (b : List Byte) (o : Nat) : StationT :=
  { num := leAt b o 2, src := leAt b (o + 2) 1, period := leAt b (o + 3) 1, limit := leAt b (o + 4) 1
    id := leAt b (o + 8) 4 }

/-- A symbol table entry. -/
def symAt (b : List Byte) (o : Nat) : Symbol :=
  { ident := leAt b o 4, ty := leAt b (o + 4) 1, count := leAt b (o + 5) 1 + 1, loc := leAt b (o + 8) 4
    init := w32 (leAt b (o + 12) 4) }

/-- The program that an image binds (R88). -/
def parseProg (b : List Byte) : Program :=
  { id := leAt b 8 4, prio := leAt b 0x0C 1, stateBytes := leAt b 0x18 4, fbCount := leAt b 0x1C 4, hash := leAt b 0x80 32
    segs := (List.range (leAt b 0x10 4)).map (segAt b)
    ins := (List.range (tabN b 1)).map fun j => inAt b (tabOff b 1 + 16 * j)
    outs := (List.range (tabN b 2)).map fun j => outAt b (tabOff b 2 + 16 * j)
    stations := (List.range (tabN b 3)).map fun j => staAt b (tabOff b 3 + 16 * j)
    syms := (List.range (tabN b 4)).map fun j => symAt b (tabOff b 4 + 16 * j)
    code := (List.range (leAt b 0x14 4)).map fun j => w32 (leAt b (leAt b 0x50 4 + 4 * j) 4) }

/-! ### The fields of an instruction word (the format table of chapter 4) -/

/-- OP -/
def insOp (w : Word) : Nat := fld w 26 6
/-- IMM or INDEX of formats I and P -/
def insIdx (w : Word) : Nat := fld w 0 16
/-- INST of format F -/
def insInst (w : Word) : Nat := fld w 0 14
/-- T of formats I and P -/
def insTi (w : Word) : Ty := tyOfCode (fld w 18 2)
/-- T of format A -/
def insTa (w : Word) : Ty := tyOfCode (fld w 6 2)

/-- The words of a segment. -/
def segCode (p : Program) (d : SegDesc) : List Word := (p.code.drop d.first).take d.len

/-- Check 1 of R91. An image shorter than its header and its signature fails it too, for which R91 names no check. DESIGN
CHOICE, safe (log 56). -/
def chk1 (b : List Byte) : Bool :=
  leAt b 0 4 == 0x4F585047 && leAt b 4 2 == 1 && decide (b.length ≤ 16777216) && leAt b 0x54 4 == b.length &&
    decide (320 ≤ b.length)

/-- Check 2: the hash over the image without its signature, HASH read as 0. -/
def chk2 (b : List Byte) : Bool :=
  (Crypto.sha256 ((b.take (b.length - 64)).take 0x80 ++ List.replicate 32 0 ++ (b.take (b.length - 64)).drop 0xA0)).toNat ==
    leAt b 0x80 32

/-- Check 3: the signature against the key of slot PGMX.CTRL.KEYSLOT; a slot of another kind than VERIFY fails. -/
def chk3 (s : State) (b : List Byte) : Bool :=
  let k := slot s (rdF s (reg pPGMX 0x080) 0 6)
  k.kind == 3 && Crypto.edVerify k.val (b.take (b.length - 64)) (b.drop (b.length - 64))

/-- The lists of segment `n` lie within the list area. -/
def listsOk (b : List Byte) (n : Nat) : Bool :=
  let o := tabOff b 0 + 32 * n
  decide (leAt b (o + 0x0C) 4 + 4 * (leAt b (o + 0x10) 2 + leAt b (o + 0x12) 2) ≤ tabN b 5) &&
    decide (leAt b (o + 0x14) 4 + 2 * leAt b (o + 0x18) 2 ≤ tabN b 5)

/-- Check 4: counts and table sizes. -/
def chk4 (b : List Byte) : Bool :=
  let segN := leAt b 0x10 4
  let insN := leAt b 0x14 4
  let lim := b.length - 64
  decide (1 ≤ segN) && decide (segN ≤ 16384) && decide (1 ≤ insN) && decide (insN ≤ 4194304) &&
  decide (1 ≤ leAt b 0x0C 1) && decide (leAt b 0x0C 1 ≤ 16) && decide (leAt b 0x18 4 ≤ 1048576) &&
  leAt b 0x18 4 % 4 == 0 && decide (leAt b 0x1C 4 ≤ 16384) && tabN b 0 == segN &&
  decide (tabOff b 0 + 32 * segN ≤ lim) &&
  [1, 2, 3, 4].all (fun k => decide (tabOff b k + 16 * tabN b k ≤ lim)) &&
  decide (tabOff b 5 + tabN b 5 ≤ lim) && decide (leAt b 0x50 4 + 4 * insN ≤ lim) &&
  (List.range segN).all (listsOk b)

/-- An instruction word that check 5 accepts, END apart. -/
def insOk (w : Word) : Bool :=
  let op := insOp w
  decide (op < 0x38) &&
  (!(op == 0x18 || op == 0x26 || op == 0x27) || insTi w != .float32) &&
  (!(op == 0x23 || op == 0x24 || op == 0x25) || insTa w != .float32) && (op != 0x13 || insTa w == .int32)

/-- Check 5 for one segment. -/
def segOk (p : Program) (d : SegDesc) : Bool :=
  let ws := segCode p d
  decide (1 ≤ d.len) && decide (d.len ≤ 1024) && ws.length == d.len && ws.all insOk &&
    (ws.dropLast.all fun w => insOp w != 1) && insOp (ws.getLastD 0) == 1

/-- Check 6 for one instruction of a segment. -/
def operandOk (p : Program) (d : SegDesc) (w : Word) : Bool :=
  let op := insOp w
  let st := d.base + insIdx w
  let rdHas (k i : Nat) : Bool := d.reads.contains (entOf k i)
  let wrHas (k i : Nat) : Bool := d.writes.contains (entOf k i)
  if op = 0x02 ∨ op = 0x03 then rdHas 0 (insIdx w)
  else if op = 0x04 then p.stations.any fun t => t.num == insIdx w
  else if op = 0x05 ∨ op = 0x06 ∨ op = 0x07 then wrHas 0 (insIdx w)
  else if op = 0x08 then rdHas 1 st && decide (4 * st + 4 ≤ p.stateBytes)
  else if op = 0x09 then wrHas 1 st && decide (4 * st + 4 ≤ p.stateBytes)
  else if op = 0x2A then
    (List.range 65).all fun j => rdHas 1 (st + j) && decide (4 * (st + j) + 4 ≤ p.stateBytes)
  else if 0x2B ≤ op ∧ op ≤ 0x31 then wrHas 2 (insInst w) && decide (insInst w < p.fbCount)
  else if op = 0x32 then wrHas 3 (insIdx w) && decide (insIdx w < 256)
  else if op = 0x33 ∨ op = 0x34 then rdHas 3 (insIdx w) && decide (insIdx w < 256)
  else true

/-- A list has no repeats. -/
def noRepeats : List Nat → Bool
  | [] => true
  | x :: xs => !xs.contains x && noRepeats xs

/-- The segments with an entry in their reads (`both`: or writes), in ascending order. -/
def readersOf (p : Program) (e : Nat) (both : Bool) : List Nat :=
  (List.range p.segs.length).filter fun n =>
    match p.segs.drop n with
    | d :: _ => d.reads.contains e || (both && d.writes.contains e)
    | [] => false

/-- A reader list of the image: `n` two-byte segment indices at an offset. -/
def readerList (b : List Byte) (off n : Nat) : List Nat := (List.range n).map fun j => leAt b (off + 2 * j) 2

/-- The list entry of a state-reader key: bit 31 and [19:0] hold 0 and a state word, or 1 and an instance. -/
def keyEnt (k : Nat) : Nat := if 2 ^ 31 ≤ k then entOf 2 (k % 2 ^ 20) else entOf 1 (k % 2 ^ 20)

/-- Every state word and instance with readers, as directory keys. -/
def stateKeys (p : Program) : List Nat :=
  (p.segs.flatMap fun d =>
    ((d.reads.filter fun e => entKind e == 1).map entIdx) ++
    (((d.reads ++ d.writes).filter fun e => entKind e == 2).map fun e => entIdx e + 2 ^ 31)).dedup

/-- Check 7: successor order, single writer of a point, both reader directories. -/
def chk7 (p : Program) (b : List Byte) : Bool :=
  let nseg := p.segs.length
  let la := tabOff b 5
  let le := la + tabN b 5
  let io := leAt b 0x58 4
  let so := leAt b 0x5C 4
  let sn := leAt b 0x60 4
  let within (o n : Nat) : Bool := decide (la ≤ o) && decide (o + n ≤ le)
  ((List.range nseg).all fun n =>
    match p.segs.drop n with
    | d :: _ => d.succ.all fun m => decide (n < m) && decide (m < nseg)
    | [] => false) &&
  noRepeats (p.segs.flatMap fun d => ((d.writes.filter fun e => entKind e == 0).dedup)) &&
  within io (8 * p.ins.length) && within so (12 * sn) &&
  ((List.range p.ins.length).all fun j =>
    let o := io + 8 * j
    let n := leAt b (o + 4) 2
    within (leAt b o 4) (2 * n) && leAt b (o + 6) 2 == 0 &&
      (match p.ins.drop j with
       | i :: _ => readerList b (leAt b o 4) n == readersOf p (entOf 0 i.point) false
       | [] => false)) &&
  ((List.range sn).all fun j =>
    let o := so + 12 * j
    let k := leAt b o 4
    let n := leAt b (o + 8) 2
    within (leAt b (o + 4) 4) (2 * n) && leAt b (o + 10) 2 == 0 && (j == 0 || decide (leAt b (o - 12) 4 < k)) &&
      (stateKeys p).contains k && readerList b (leAt b (o + 4) 4) n == readersOf p (keyEnt k) (decide (2 ^ 31 ≤ k))) &&
  (stateKeys p).length == sn

/-- The symbol types of chapter 4. -/
def symTyOk (t : Nat) : Bool := decide (t ≤ 3) || (decide (8 ≤ t) && decide (t ≤ 14))

/-- Check 8: the tables. -/
def chk8 (p : Program) : Bool :=
  (p.ins.all fun i => i.station == 0xFFFF || decide (i.station < p.stations.length)) &&
  (p.outs.all fun o => decide (o.dest = 0) || (decide (o.dest = 1) && decide (o.idx < p.stations.length)) ||
    (decide (o.dest = 2) && decide (1 ≤ o.idx) && decide (o.idx ≤ 8)) || (decide (o.dest = 3) && decide (o.idx < 128))) &&
  (p.syms.all fun y => symTyOk y.ty &&
    (if y.ty < 8 then decide (4 * (y.loc + y.count) ≤ p.stateBytes) else decide (y.loc + y.count ≤ p.fbCount))) &&
  noRepeats (p.syms.map Symbol.ident) && noRepeats (p.stations.map StationT.num) &&
  noRepeats (p.ins.map InSlot.point) &&
  noRepeats ((p.outs.filter fun o => o.dest != 0).map fun o => o.dest * 65536 + o.idx) &&
  noRepeats ((p.outs.filter fun o => o.dest == 0).map OutSlot.point)

/-- The cause of the first failed check of R91; 0 when all pass. -/
def verifyCause (s : State) (b : List Byte) : Nat :=
  let p := parseProg b
  if !chk1 b then 1 else if !chk2 b then 2 else if !chk3 s b then 3 else if !chk4 b then 4
  else if !p.segs.all (segOk p) then 5
  else if !(p.segs.all fun d => (segCode p d).all (operandOk p d)) then 6
  else if !chk7 p b then 7 else if !chk8 p then 8 else 0

end Sys2Proof.Machine
end

