-- ==== Sys2Proof/Machine/LoomOps.lean ====
section
/-!
DEFINITION. Loom's lanes and the instruction set (R92–R99): what a segment reads, in program order, and what each
instruction leaves in its lane.
-/

namespace Sys2Proof.Machine

/-- A lane. -/
def lane (s : State) (l : LaneNo) : Lane := look .idle s.loom.lanes l.val

/-- A lane replaced. -/
def setLane (s : State) (l : LaneNo) (x : Lane) : State :=
  { s with loom := { s.loom with lanes := put .idle s.loom.lanes l.val x } }

/-- The program of the active bank. -/
def activeProg (s : State) : Option Program :=
  if s.loom.bankA.st = .active then s.loom.bankA.prog
  else if s.loom.bankB.st = .active then s.loom.bankB.prog else none

/-- The scan of a depth: 0 the latched one until it has committed or been dropped, 1 and 2 the scans ahead. -/
def scanAt (s : State) (d : Nat) : Option Scan :=
  if d = 0 then (if s.loom.curDone then none else s.loom.cur)
  else if d = 1 then s.loom.ahead1 else s.loom.ahead2

/-- The scan of a depth replaced. -/
def setScan (s : State) (d : Nat) (x : Scan) : State :=
  if d = 0 then { s with loom := { s.loom with cur := some x } }
  else if d = 1 then { s with loom := { s.loom with ahead1 := some x } }
  else { s with loom := { s.loom with ahead2 := some x } }

/-- The results of the scans a lane's scan follows, the newest first (R72). -/
def olderRes (s : State) (d : Nat) : List (List (Nat × SegRes)) :=
  let at_ (k : Nat) : List (Nat × SegRes) := match scanAt s k with | some x => x.res | none => []
  let p : List (Nat × SegRes) := match s.loom.prev with | some x => if x.ready then x.res else [] | none => []
  if d = 0 then [p] else if d = 1 then [at_ 0, p] else [at_ 1, at_ 0, p]

/-- The newest value that segments below `lim` wrote, by `f` (program order, R90). -/
def newest {α : Type} (f : SegRes → Option α) (lim : Nat) (res : List (Nat × SegRes)) : Option α :=
  res.foldl (fun acc e => if e.1 < lim then (match f e.2 with | some v => some v | none => acc) else acc) none

/-- The first answer of a list of answers. -/
def firstSome {α : Type} : List (Option α) → Option α
  | [] => none
  | some v :: _ => some v
  | none :: r => firstSome r

/-- What a lane reads of what segments write: its own writes, the scan's earlier segments, the scans before, then what
is committed. -/
def laneRead {α : Type} (s : State) (x : Lane) (f : SegRes → Option α) (committed : α) : α :=
  let own := match scanAt s x.depth with | some c => newest f x.seg c.res | none => none
  let old := (olderRes s x.depth).map (newest f 16384)
  (firstSome (f x.res :: own :: old)).getD committed

/-- A state word as a lane reads it. -/
def readWord (s : State) (x : Lane) (w : Nat) : Word := laneRead s x (fun r => get? r.words w) (look 0 s.loom.words w)

/-- An instance as a lane reads it. -/
def readFb (s : State) (x : Lane) (n : Nat) : Fb := laneRead s x (fun r => get? r.fbs n) (look .zero s.loom.fbs n)

/-- The descriptor of a segment. -/
def segDesc (s : State) (n : Nat) : Option SegDesc :=
  match activeProg s with
  | some p => (p.segs.drop n).head?
  | none => none

/-- The absolute state word of an operand. -/
def stateWord (s : State) (x : Lane) (idx : Nat) : Nat :=
  (match segDesc s x.seg with | some d => d.base | none => 0) + idx

/-- The input slot of the lane's scan for a point. -/
def imageOf (s : State) (x : Lane) (p : Nat) : Slot :=
  match scanAt s x.depth with
  | some c => (get? c.image p).getD ⟨.int32, 0, qBAD⟩
  | none => ⟨.int32, 0, qBAD⟩

/-- The nominal timestamp of the lane's scan (R68). -/
def laneNom (s : State) (x : Lane) : Nat := match scanAt s x.depth with | some c => c.nom | none => 0

/-- The flags as a number: S, Z, I, E (R96). -/
def flNat (a : AFlags) : Nat := b2n a.s + 2 * b2n a.z + 4 * b2n a.i + 8 * b2n a.e

/-- A working register of a lane. -/
def Lane.get (x : Lane) (r : Wr) : Word := look 0 x.w r.val

/-- A working register of a lane written. -/
def Lane.set (x : Lane) (r : Wr) (v : Word) : Lane := { x with w := put 0 x.w r.val v }

/-- Flags set in a lane's segment. -/
def Lane.flag (x : Lane) (a : AFlags) : Lane := { x with fl := x.fl ||| flNat a }

/-- A result written with its flags. -/
def Lane.res2 (x : Lane) (r : Wr) (v : Res) : Lane := (x.set r v.1).flag v.2

/-- An instruction on a lane: it runs on a lane that executes a segment, and the lane moves to the next instruction. -/
def onLane (s : State) (l : LaneNo) (f : Lane → Lane) : State :=
  let x := lane s l
  if x.active then setLane s l { f x with pc := x.pc + 1 } else s

/-- An instruction that draws a free value (log 4). -/
def onLaneFree (s : State) (l : LaneNo) (f : Lane → Word → Lane) : State :=
  let x := lane s l
  if x.active then
    let (v, t) := freshWord s
    setLane t l { f x v with pc := x.pc + 1 }
  else s

/-- The type an output value of a point is staged in: its output slot's, else the point's (R94, STP). Of several output slots
of a point the first gives it, which R94 does not say. DESIGN CHOICE, unsafe (log 55). -/
def outType (s : State) (p : Nat) : Ty :=
  match activeProg s with
  | some pr =>
    match pr.outs.find? fun o => o.point == p with
    | some o => o.ty
    | none => (point s p).ty
  | none => (point s p).ty

/-- A value staged for a point. -/
def stageVal (x : Lane) (p : Nat) (v : Word) : Lane := { x with res := { x.res with outs := ins x.res.outs p (.value v) } }

/-- STP of a value. -/
def stageOut (s : State) (x : Lane) (t : Ty) (p : Nat) (v : Word) : Lane :=
  let r := conv t (outType s p) v
  (stageVal x p r.1).flag r.2

/-- A state word staged by a lane. -/
def stageWord (s : State) (x : Lane) (idx : Nat) (v : Word) : Lane :=
  { x with res := { x.res with words := ins x.res.words (stateWord s x idx) v } }

/-- An instance staged by a lane. -/
def stageFb (x : Lane) (n : Nat) (f : Fb) : Lane := { x with res := { x.res with fbs := ins x.res.fbs n f } }

/-- The register after WD, as in R97 and R98. -/
def nextWr (r : Wr) : Wr := Fin.ofNat 64 (r.val + 1)

/-- LDI's value (R94). -/
def immOf (t : Ty) (imm : BitVec 16) : Word :=
  match t with
  | .bool => if imm = 0 then 0 else 1
  | .int32 => imm.signExtend 32
  | .q16 => w32 (imm.toNat * 65536)
  | .float32 => w32 (imm.toNat * 65536)

/-- The status word of a station, LDST (R63): source cycle, AGE and MISSED, in a layout the spec does not give
(log 7). -/
def stationStat (s : State) (x : Lane) (num : Nat) : Word :=
  match activeProg s, scanAt s x.depth with
  | some p, some c =>
    match (List.range p.stations.length).find? fun k => (p.stations.drop k).head?.any fun t => t.num == num with
    | some k => let (a, b, d) := look (0, 255, 0) c.stat k; Config.stationWord a b d
    | none => 0
  | _, _ => 0

/-! ### Timers, counters, edge detectors (R97–R99) -/

/-- Bits IN_PREV, Q and RUNNING of an instance's flags byte. -/
def fbByte (inp q run : Bool) : Byte := BitVec.ofNat 8 (b2n inp + 2 * b2n q + 4 * b2n run)
/-- IN_PREV, INPUT_PREV or PREV of an instance. -/
def Fb.inPrev (f : Fb) : Bool := f.fl.getLsbD 0
/-- RUNNING of an instance. -/
def Fb.running (f : Fb) : Bool := f.fl.getLsbD 2

/-- ET: the time since START in the instance's unit, saturating (R97). -/
def elapsed (f : Fb) (nom start : Nat) : Nat :=
  let sh := if f.unit = 0 then 0 else if f.unit = 1 then 8 else 16
  min 0x7FFFFFFF ((nom - start) / 2 ^ sh)

/-- A preset: negative acts as 0. -/
def preset (w : Word) : Nat := if sw w < 0 then 0 else w.toNat

/-- The outcome of a timer: its record, Q and ET. -/
abbrev FbOut := Fb × Bool × Nat

/-- TON (R97). -/
def tonRule (f : Fb) (nom : Nat) (inp : Bool) (pt : Nat) : FbOut :=
  let start := if inp && !f.inPrev then nom else f.lo.toNat
  let et := if inp then elapsed f nom start else 0
  let q := inp && decide (pt ≤ et)
  (⟨BitVec.ofNat 64 start, w32 et, fbByte inp q f.running, f.unit⟩, q, et)

/-- TOF (R97). -/
def tofRule (f : Fb) (nom : Nat) (inp : Bool) (pt : Nat) : FbOut :=
  let falls := !inp && f.inPrev
  let start := if falls then nom else f.lo.toNat
  let run := if inp then false else if falls then true else f.running
  let et := if !inp && run then elapsed f nom start else 0
  let q := inp || (run && decide (et < pt))
  (⟨BitVec.ofNat 64 start, w32 et, fbByte inp q run, f.unit⟩, q, et)

/-- TP (R97). -/
def tpRule (f : Fb) (nom : Nat) (inp : Bool) (pt : Nat) : FbOut :=
  let begins := inp && !f.inPrev && !f.running
  let start := if begins then nom else f.lo.toNat
  let run := begins || f.running
  let e := elapsed f nom start
  let ends := run && decide (pt ≤ e)
  let run' := run && !ends
  let et := if run' then e else if ends then pt else if inp then pt else 0
  (⟨BitVec.ofNat 64 start, w32 et, fbByte inp run' run', f.unit⟩, run', et)

/-- The counters' CV. -/
def Fb.cv (f : Fb) : Int := sgn 32 f.lo.toNat
/-- A counter's record with a CV and INPUT_PREV. -/
def Fb.withCv (f : Fb) (cv : Int) (inp : Bool) : Fb :=
  ⟨BitVec.ofNat 64 (f.lo.toNat / 2 ^ 32 * 2 ^ 32 + (i32 cv).toNat), f.et, fbByte inp (f.fl.getLsbD 1) f.running, f.unit⟩

/-- CTU (R98): record, Q, CV and whether it saturated. -/
def ctuRule (f : Fb) (inp r : Bool) (pv : Int) : Fb × Bool × Res :=
  let c : Res := if r then (0, noFl) else if inp && !f.inPrev then satI (f.cv + 1) else (i32 f.cv, noFl)
  (f.withCv (sw c.1) inp, decide (pv ≤ sw c.1), c)

/-- CTD (R98). -/
def ctdRule (f : Fb) (inp ld : Bool) (pv : Int) : Fb × Bool × Res :=
  let c : Res := if ld then (i32 pv, noFl) else if inp && !f.inPrev then satI (f.cv - 1) else (i32 f.cv, noFl)
  (f.withCv (sw c.1) inp, decide (sw c.1 ≤ 0), c)

/-- A timer instruction: W(D) receives Q, W(D + 1) receives ET. -/
def timerOp (s : State) (rule : Fb → Nat → Bool → Nat → FbOut) (d a : Wr) (inst : Nat) (x : Lane) : Lane :=
  let o := rule (readFb s x inst) (laneNom s x) (decide (x.get a ≠ 0)) (preset (x.get d))
  ((stageFb x inst o.1).set d (w32 (b2n o.2.1))).set (nextWr d) (w32 o.2.2)

/-- A counter instruction: W(A + 1) is R or LD, W(D) receives Q, W(D + 1) receives CV. -/
def counterOp (s : State) (rule : Fb → Bool → Bool → Int → Fb × Bool × Res) (d a : Wr) (inst : Nat) (x : Lane) : Lane :=
  let o := rule (readFb s x inst) (decide (x.get a ≠ 0)) (decide (x.get (nextWr a) ≠ 0)) (sw (x.get d))
  (((stageFb x inst o.1).set d (w32 (b2n o.2.1))).set (nextWr d) o.2.2.1).flag o.2.2.2

/-- An edge detector (R99): WD reports the edge, PREV takes the input. -/
def edgeOp (s : State) (rise : Bool) (d a : Wr) (inst : Nat) (x : Lane) : Lane :=
  let f := readFb s x inst
  let v := decide (x.get a ≠ 0)
  let q := if rise then v && !f.inPrev else f.inPrev && !v
  (stageFb x inst { f with fl := fbByte v (f.fl.getLsbD 1) f.running }).set d (w32 (b2n q))

/-- The table of an INTP: its points, or none when the count is outside 2–32. -/
def intpTable (s : State) (x : Lane) (idx : Nat) : Option (List (Word × Word)) :=
  let b := stateWord s x idx
  let n := sw (readWord s x b)
  if n < 2 ∨ 32 < n then none
  else some ((List.range n.toNat).map fun k => (readWord s x (b + 1 + 2 * k), readWord s x (b + 2 + 2 * k)))

/-- INTP with a free value for what the spec states no result of (log 4). -/
def intpOp (s : State) (t : Ty) (d : Wr) (idx : Nat) (x : Lane) (fr : Word) : Lane :=
  match intpTable s x idx with
  | none => x.res2 d (0, flI)
  | some tab =>
    match opIntp t (x.get d) tab with
    | .res r => x.res2 d r
    | .unstated => x.set d fr

/-- Events staged in a lane's scan by the segments before it and by itself (R95). -/
def eventCount (s : State) (x : Lane) : Nat :=
  (match scanAt s x.depth with
   | some c => ((c.res.filter fun e => e.1 < x.seg).map fun e => e.2.evts.length).sum
   | none => 0) + x.res.evts.length

/-- EMIT: an event staged, or flag E beyond 256 (R95). -/
def emitOp (s : State) (code : Nat) (v : Word) (x : Lane) : Lane :=
  if eventCount s x < 256 then { x with res := { x.res with evts := x.res.evts ++ [(code, v)] } }
  else x.flag { e := true }

/-- A loop's status or output word as latched (R94, LSTR and LOUT). -/
def loopWord (s : State) (x : Lane) (k : Nat) : Word :=
  match scanAt s x.depth with
  | some c => look 0 c.loops k
  | none => 0

/-! ### The end of a segment -/

/-- The indices of the program's segments. -/
def segNos (s : State) : List Nat :=
  match activeProg s with
  | some p => List.range p.segs.length
  | none => []

/-- The segments of a scan still to execute. -/
def pendingSegs (s : State) (c : Scan) : List Nat := (segNos s).filter fun n => (get? c.res n).isNone

/-- The latched scan marked ready once every segment has executed on its final inputs (R66). -/
def markReady (s : State) : State :=
  match scanAt s 0 with
  | some c =>
    if c.ready ∨ !(pendingSegs s c).isEmpty then s
    else setScan s 0 { c with ready := true, readyAfter := count s - c.latchAt }
  | none => s

/-- A lane executes a segment of the latched scan. -/
def busyNow (s : State) : Bool := s.loom.lanes.any fun e => e.2.active && e.2.depth == 0

/-- The latched scan pauses before its next segment (R81, R84): SCANDBG.STAT.CAUSE and EVT.PAUSED. -/
def pauseAt (s : State) (seg cause : Nat) : State :=
  let s := { s with loom := { s.loom with paused := true, pauseSeg := seg, held := true, stepping := 0 } }
  ev (wrF s (reg pSCANDBG 0x084) 17 2 cause) pSCANDBG 0

/-- The pause at a segment boundary in HOLD: after a HOLD command or a STEP_SEG. -/
def holdBoundary (s : State) : State :=
  if s.loom.eng ≠ .hold ∨ s.loom.paused ∨ s.loom.stepping = 2 ∨ busyNow s then s
  else
    match scanAt s 0 with
    | none => s
    | some c =>
      match pendingSegs s c with
      | [] => { s with loom := { s.loom with stepping := 0 } }
      | n :: _ => pauseAt s n (if s.loom.stepping = 1 then 3 else 1)

/-- END: the segment's results recorded in its scan, the lane free. -/
def segEnd (s : State) (l : LaneNo) : State :=
  let x := lane s l
  if !x.active then s
  else
    match scanAt s x.depth with
    | none => setLane s l .idle
    | some c =>
      let s := setLane (setScan s x.depth { c with res := ins c.res x.seg { x.res with fl := x.fl } }) l .idle
      holdBoundary (markReady s)

end Sys2Proof.Machine
end

