-- ==== Sys2Proof/Machine/LoomXchg.lean ====
section
/-!
DEFINITION. Program exchange and forcing (R100–R111): loading and verifying a bank, the switch with its carry-over and
report, and the force table.
-/

namespace Sys2Proof.Machine

/-- The target bank of R100: 0 A, 1 B. -/
def targetBank (s : State) : Nat := if s.loom.bankA.st = .active then 1 else 0

/-- A bank. -/
def bank (s : State) (n : Nat) : Bank := if n = 0 then s.loom.bankA else s.loom.bankB

/-- A bank replaced. -/
def setBank (s : State) (n : Nat) (b : Bank) : State :=
  if n = 0 then { s with loom := { s.loom with bankA := b } } else { s with loom := { s.loom with bankB := b } }

/-- The hash of a bank's image as the Daybook's OLD and NEW take it: its first 8 bytes. -/
def bankHash (b : Bank) : DWord := BitVec.ofNat 64 (leAt b.image 0x80 8)

/-- The bank in state ACTIVE, or an empty one. -/
def activeBank (s : State) : Bank :=
  if s.loom.bankA.st = .active then s.loom.bankA else if s.loom.bankB.st = .active then s.loom.bankB else .empty

/-- A PGMX command ignored: CMD_CAUSE and EVT.CMD_REJECTED (R100, R102). -/
def pgmxReject (s : State) (cause : Nat) : State := ev (wrF s (reg pPGMX 0x088) 16 4 cause) pPGMX 3

/-- PGMX.CMD = LOAD (R100, R101): the image is copied from DRAM into the target bank. -/
def pgmxLoadOp (s : State) (who : Word) : State :=
  let t := targetBank s
  let len := rdF s (reg pPGMX 0x098) 0 25
  if (bank s t).st = .loading ∨ (bank s t).st = .verifying ∨ s.loom.swPending then pgmxReject s 1
  else if 16777216 < len then pgmxReject s 3
  else
    let s := setBank s t ⟨.loading, ramBytes s (rd64 s (reg pPGMX 0x090)) len, none⟩
    { s with loom := { s.loom with loadBy := who } }

/-- PGMX.CMD = SWITCH (R102). -/
def pgmxSwitchOp (s : State) (who : Word) : State :=
  if s.loom.swPending then pgmxReject s 1
  else if (bank s (targetBank s)).st ≠ .verified then pgmxReject s 2
  else { s with loom := { s.loom with swPending := true, swReady := decide (s.loom.eng = .stop), swBy := who } }

/-- PGMX.CMD = CANCEL (R102). -/
def pgmxCancelOp (s : State) : State := { s with loom := { s.loom with swPending := false, swReady := false } }

/-- The bank in a state, if one is. -/
def bankIn (s : State) (x : BankSt) : Option Nat :=
  if s.loom.bankA.st = x then some 0 else if s.loom.bankB.st = x then some 1 else none

/-- The copy of a LOADING bank is complete (R101): its PROGRAM_ID shows. Loom has read the image from DRAM (R59). -/
def pgmxCopied (s : State) : State :=
  match bankIn s .loading with
  | none => s
  | some n =>
    let b := bank s n
    let s := dramUse s .loom .control b.image.length
    wr (setBank s n { b with st := .verifying }) (reg pPGMX (0x0A4 + 4 * n)) (w32 (leAt b.image 8 4))

/-- An exchange step that no request waits on: logged with an initiator's origin while a slot is free (R100, R204). -/
def logStep (s : State) (c : Change) : State :=
  if 0 < dayFreeFor s then dayReserve s c
  else ev (tally { s with dayb := { s.dayb with lost := s.dayb.lost + 1 } } (reg pDAYB 0x0A4)) pDAYB 2

/-- The verification of a VERIFYING bank ends (R91, R101). -/
def pgmxVerified (s : State) : State :=
  match bankIn s .verifying with
  | none => s
  | some n =>
    let b := bank s n
    let c := verifyCause s b.image
    if c = 0 then ev (setBank s n { b with st := .verified, prog := some (parseProg b.image) }) pPGMX 0
    else
      let s := ev (wrF (setBank s n { b with st := .rejected }) (reg pPGMX 0x088) 8 8 c) pPGMX 1
      logStep s {
        origin := s.loom.loadBy, kind := 5, target := n, old := bankHash (activeBank s), new := bankHash b
        outcome := oSERVED, hashed := true, cls := .operator }

/-! ### The carry-over (R103) -/

/-- The class of a symbol type for conversion: scalar, timer, counter, edge. -/
def symFamily (t : Nat) : Nat := if t < 8 then 0 else if t ≤ 10 then 1 else if t ≤ 12 then 2 else 3

/-- A scalar converted at an exchange: none when NaN initialises, else the value and whether it clamped (R103). -/
def carryScalar (old new : Nat) (v : Word) : Option (Word × Bool) :=
  let r := conv (tyOfCode old) (tyOfCode new) v
  if r.2.i then none else some (r.1, r.2.s)

/-- A scalar conversion that the table of R103 lists. -/
def scalarCompatible (old new : Nat) : Bool :=
  (old == 0 && 1 ≤ new && new ≤ 3) || (old == 1 && (new == 2 || new == 3)) || (old == 2 && (new == 1 || new == 3)) ||
    (old == 3 && (new == 1 || new == 2))

/-- The record an initialised instance holds: the symbol's initial value gives a timer's UNIT, a counter's CV and an
edge detector's PREV (log 13). -/
def initFb (t : Nat) (v : Word) : Fb :=
  if symFamily t = 1 then ⟨0, 0, 0, BitVec.ofNat 8 v.toNat⟩
  else if symFamily t = 2 then ⟨BitVec.ofNat 64 v.toNat, 0, 0, 0⟩
  else ⟨0, 0, BitVec.ofNat 8 (v.toNat % 2), 0⟩

/-- A carried instance (R103): a timer keeps START, IN_PREV and RUNNING under the new unit, a counter CV and
INPUT_PREV, an edge detector PREV. -/
def carryFb (t : Nat) (old : Fb) (v : Word) : Fb :=
  if symFamily t = 1 then ⟨old.lo, old.et, fbByte old.inPrev (old.fl.getLsbD 1) old.running, BitVec.ofNat 8 v.toNat⟩
  else if symFamily t = 2 then ⟨old.lo, 0, fbByte old.inPrev false false, 0⟩
  else ⟨0, 0, fbByte old.inPrev false false, 0⟩

/-- What becomes of a symbol at an exchange: 0 copied, 1 converted, 2 clamped, 3 initialised, 4 added (R104). -/
structure Carry where
  words : List (Nat × Word)
  fbs : List (Nat × Fb)
  /-- symbol, code and old type of the new program's symbols, in order -/
  recs : List (Symbol × Nat × Nat)

/-- The code of a scalar symbol's elements: initialised before clamped before converted. -/
def scalarCode (old new : Nat) (vals : List Word) : Nat :=
  let rs := vals.map (carryScalar old new)
  if old = new then 0
  else if rs.any Option.isNone then 3
  else if rs.any fun r => r.any Prod.snd then 2
  else 1

/-- One symbol of the new program carried over from the old symbols, words and instances. -/
def carrySym (oldSyms : List Symbol) (ow : List (Nat × Word)) (ofb : List (Nat × Fb)) (c : Carry) (y : Symbol) : Carry :=
  let m := oldSyms.find? fun o => o.ident == y.ident
  let scalar := decide (y.ty < 8)
  let usable : Bool := match m with
    | some o =>
      if scalar then decide (o.ty < 8) && (o.ty == y.ty || scalarCompatible o.ty y.ty)
      else decide (8 ≤ o.ty) && symFamily o.ty == symFamily y.ty
    | none => false
  let code := match m with
    | none => 4
    | some o =>
      if !usable then 3
      else if scalar then
        scalarCode o.ty y.ty ((List.range (min o.count y.count)).map fun j => look 0 ow (o.loc + j))
      else if o.ty = y.ty then 0 else 1
  let c := { c with recs := c.recs ++ [(y, code, match m with | some o => o.ty | none => 255)] }
  (List.range y.count).foldl (fun c j =>
    match m with
    | some o =>
      if usable && decide (j < o.count) then
        (if scalar then
           let v := look 0 ow (o.loc + j)
           let v' := if o.ty = y.ty then v else ((carryScalar o.ty y.ty v).map Prod.fst).getD y.init
           { c with words := put 0 c.words (y.loc + j) v' }
         else { c with fbs := put .zero c.fbs (y.loc + j) (carryFb y.ty (look .zero ofb (o.loc + j)) y.init) })
      else if scalar then { c with words := put 0 c.words (y.loc + j) y.init }
      else { c with fbs := put .zero c.fbs (y.loc + j) (initFb y.ty y.init) }
    | none =>
      if scalar then { c with words := put 0 c.words (y.loc + j) y.init }
      else { c with fbs := put .zero c.fbs (y.loc + j) (initFb y.ty y.init) }) c

/-- The carry-over of a switch: the new program's state and the report's records. -/
def carryOver (old : List Symbol) (ow : List (Nat × Word)) (ofb : List (Nat × Fb)) (new : List Symbol) : Carry :=
  new.foldl (carrySym old ow ofb) ⟨[], [], []⟩

/-- The old symbols without a match. -/
def removedSyms (old new : List Symbol) : List Symbol := old.filter fun o => !new.any fun y => y.ident == o.ident

/-- A saturating count of records with a code, in 16 bits. -/
def codeCount (recs : List (Symbol × Nat × Nat)) (c : Nat) : List Byte :=
  leBytes 2 (min 65535 (recs.filter fun r => r.2.1 == c).length)

/-- The exchange report (R104). -/
def reportBytes (oldId newId swpos : Nat) (recs : List (Symbol × Nat × Nat)) (removed : List Symbol) : List Byte :=
  let listed := recs.filter fun r => r.2.1 != 0
  leBytes 4 oldId ++ leBytes 4 newId ++ leBytes 8 swpos ++ codeCount recs 0 ++ codeCount recs 1 ++ codeCount recs 2 ++
    codeCount recs 3 ++ codeCount recs 4 ++ leBytes 2 (min 65535 removed.length) ++
    leBytes 4 (listed.length + removed.length) ++
    (listed.flatMap fun r => leBytes 4 r.1.ident ++ leBytes 1 r.2.1 ++ leBytes 1 r.2.2 ++ leBytes 1 r.1.ty ++ [0]) ++
    (removed.flatMap fun o => leBytes 4 o.ident ++ [5] ++ leBytes 1 o.ty ++ [255, 0])

/-- Station state carried to the new program's station table by station number (R63). -/
def carryStations (s : State) (old new : List StationT) : List (Nat × Station) :=
  (List.range new.length).foldl (fun m k =>
    match new.drop k with
    | t :: _ =>
      match (List.range old.length).find? fun j => (old.drop j).head?.any fun o => o.num == t.num with
      | some j => put Station.absent m k (look Station.absent s.loom.stations j)
      | none => m
    | [] => m) []

/-- The pending switch completes (R102–R105). -/
def switchDone (s : State) : State :=
  let n := targetBank s
  let nb := bank s n
  match nb.prog with
  | none => s
  | some p =>
    let ob := activeBank s
    let oldSyms := (ob.prog.map Program.syms).getD []
    let c := carryOver oldSyms s.loom.words s.loom.fbs p.syms
    let rep := reportBytes ((ob.prog.map Program.id).getD 0) p.id (rd64 s (reg pPGMX 0x0AC)) c.recs
      (removedSyms oldSyms p.syms)
    let s := if n = 0 then s else setBank s 0 { s.loom.bankA with st := .verified }
    let s := if n = 0 ∧ s.loom.bankB.st = .active then setBank s 1 { s.loom.bankB with st := .verified } else s
    let s := setBank s n { nb with st := .active }
    let s := { s with loom := { s.loom with
      words := c.words, fbs := c.fbs, swPending := false, swReady := false, newProg := true, ahead1 := none
      ahead2 := none, vL := [], vP := none, prevReplayed := []
      stations := carryStations s ((ob.prog.map Program.stations).getD []) p.stations } }
    let s := (List.range 8).foldl (fun t k => wrB t (reg pSCANDBG (0x090 + 4 * k)) 31 false) s
    let s := ramWrite (dramUse s .loom .control rep.length) (rd64 s (reg pPGMX 0x09C)) rep
    ev (tally (wrF s (reg pPGMX 0x088) 0 1 n) (reg pPGMX 0x0BC)) pPGMX 2

/-- A pending switch completes when it may: after a commit in RUN, or in STOP (R102). -/
def programSwitchOp (s : State) : State :=
  if s.loom.swPending ∧ (s.loom.swReady ∨ s.loom.eng = .stop) ∧ (bank s (targetBank s)).st = .verified then switchDone s
  else s

/-! ### Forces (R106–R111) -/

/-- The address of word `w` of force entry `n`. -/
def forceAddr (n w : Nat) : Nat := reg pFORCE (0x800 + 8 * n + 4 * w)

/-- Force entry `n` is enabled. -/
def forceOn (s : State) (n : Nat) : Bool := rdB s (forceAddr n 0) 31

/-- FORCE.STAT.COUNT and ACTIVEk follow the entries. -/
def forceRefresh (s : State) : State :=
  let on := (List.range 256).map (forceOn s)
  let s := wr s (reg pFORCE 0x080) (w32 ((on.filter id).length))
  (List.range 8).foldl (fun t k =>
    wr t (reg pFORCE (0x088 + 4 * k))
      (w32 (((List.range 32).map fun j => b2n (nthD on (32 * k + j) false) * 2 ^ j).sum))) s

/-- The value of an enabled force entry of a kind and index (R106, R107). -/
def forceOf (s : State) (kind idx : Nat) : Option Word :=
  ((List.range 256).find? fun n =>
    forceOn s n && rdF s (forceAddr n 0) 16 2 == kind && rdF s (forceAddr n 0) 0 16 == idx).map fun n =>
      rd s (forceAddr n 1)

/-- Another enabled entry has the kind and index of a word 0. -/
def forceClash (s : State) (n : Nat) (w0 : Word) : Bool :=
  (List.range 256).any fun k => k != n && forceOn s k && decide (fld (rd s (forceAddr k 0)) 0 18 = fld w0 0 18)

/-- The output force of a point brought to its record (R107, R192): its readers see the force's value, FORCED. -/
def forcePoint (s : State) (p pos : Nat) : State :=
  let r := point s p
  let f := forceOf s 1 p
  if !r.present ∨ r.forced = f then s else setPoint s p (Point.stamp r { r with forced := f } pos)

/-- Every output force brought to its point (R107): at a commit, or at once while Loom is in STOP. -/
def forcePoints (s : State) (pos : Nat) : State :=
  let held := (s.pts.filter fun e => e.2.forced.isSome).map Prod.fst
  let want := ((List.range 256).filter fun n => forceOn s n && rdF s (forceAddr n 0) 16 2 == 1).map fun n =>
    rdF s (forceAddr n 0) 0 16
  (held ++ want).foldl (fun t p => forcePoint t p pos) s

/-- A force entry committed, its checks passed (R106, R111). -/
def forceCommitOp (s : State) (n : Nat) (w0 w1 : Word) : State :=
  let old := (rd s (forceAddr n 0), rd s (forceAddr n 1))
  let w0 := w0 &&& 0x8003FFFF#32
  let s := forceRefresh (wr (wr s (forceAddr n 0) w0) (forceAddr n 1) w1)
  evIf (decide (old ≠ (w0, w1)) && (bit old.1 31 || bit w0 31)) s pFORCE 2

/-- Every enabled entry disabled on a mode change (R109). -/
def forceRelease (s : State) : State :=
  let on := (List.range 256).filter (forceOn s)
  if on.isEmpty then s
  else
    let s := on.foldl (fun t n =>
      let o := BitVec.ofNat 64 (cat64 (rd t (forceAddr n 1)) (rd t (forceAddr n 0)))
      let u := wrB t (forceAddr n 0) 31 false
      logHw u pFORCE 4 n o (BitVec.ofNat 64 (cat64 (rd u (forceAddr n 1)) (rd u (forceAddr n 0))))) s
    ev (ev (forceRefresh s) pFORCE 1) pFORCE 2

end Sys2Proof.Machine
end

