-- ==== Sys2Proof/Machine/LoomScan.lean ====
section
/-!
DEFINITION. Loom's scans (R58–R87): placing its reserved entries, the latch with matching and replay, run-ahead, the
engine states, breakpoints and single-scan operation. The commit stands in Commit.lean.
-/

namespace Sys2Proof.Machine

/-- SCAN.CTRL.AHEAD as it acts: at most 2. -/
def dMax (s : State) : Nat := min 2 (rdF s (reg pSCAN 0x080) 4 2)

/-- Loom's engine state changed: EVT.STATE_CHANGED. -/
def setEngine (s : State) (e : Engine) : State :=
  if s.loom.eng = e then s else ev { s with loom := { s.loom with eng := e } } pSCAN 8

/-! ### Entries 0–3 and RUN (R59, R60, R81) -/

/-- The scan period code, at most 8. -/
def periodCode (s : State) : Nat := min 8 (rdF s (reg pSCAN 0x080) 0 4)

/-- L2C as RUN takes it: between 1,024 au and T − 1,024 au (R60). -/
def l2cClamped (s : State) : Nat := clampN 1024 (scanT s - 1024) (rdF s (reg pSCAN 0x088) 0 23)

/-- The reserved entries of R59. -/
def placeScan (s : State) (l2c : Nat) : State :=
  let phi := rdF s (reg pSCAN 0x084) 0 16
  let res := rdF s (reg pSCAN 0x084) 16 8
  let p := periodCode s
  if p = 0 then
    let b := (phi + 32768) % 65536
    let s := aetPlace s 0 phi 0 0 1 4 0
    let s := aetPlace s 1 ((phi + l2c) % 65536) 0 0 1 5 0
    let s := aetPlace s 2 b 0 0 1 4 0
    aetPlace s 3 ((b + l2c) % 65536) 0 0 1 5 0
  else
    let m := 2 ^ (p - 1)
    let s := aetPlace s 0 phi (res % m) (p - 1) 1 4 0
    let s := aetPlace s 1 ((phi + l2c) % 65536) ((res + (phi + l2c) / 65536) % m) (p - 1) 1 5 0
    aetDisable (aetDisable s 2) 3

/-- RUN is accepted: FLOOR set, a verified program active, and the block free to run (R81, R303, R313). -/
def runAllowed (s : State) : Bool :=
  mFLOOR s && (activeProg s).isSome && !s.guard.safe && !s.guard.dead && !fenced s pSCAN && !retiredPg s pSCAN

/-- SCAN.CMD = RUN in STOP (R81). CONSEC_OVR begins at 0: R77 names only a commit as what returns it to 0, so that this is
the model's own. DESIGN CHOICE, unsafe (log 55). -/
def scanRun (s : State) : State :=
  if s.loom.eng ≠ .stop then s
  else if !runAllowed s then ev s pSCAN 7
  else
    let l := l2cClamped s
    let s := if l = rdF s (reg pSCAN 0x088) 0 23 then s else ev (wrF s (reg pSCAN 0x088) 0 23 l) pSCAN 4
    let s := wrF (placeScan s l) (reg pSCAN 0x090) 8 8 0
    setEngine { s with loom := { s.loom with
      l2c := l, holdOff := 0, cur := none, curDone := true, prev := none, ahead1 := none, ahead2 := none, vP := none, first := true
      prevReplayed := [], lanes := [], stopPending := false, paused := false, held := false, heldN := 0, resumed := none
      stepping := 0 } } .run

/-- All speculation discarded, with the lanes that execute it. -/
def dropAhead (s : State) : State :=
  { s with loom := { s.loom with
    ahead1 := none, ahead2 := none, lanes := s.loom.lanes.filter fun e => e.2.depth == 0 } }

/-- Every uncommitted scan discarded. -/
def dropScans (s : State) : State :=
  { s with loom := { s.loom with curDone := true, ahead1 := none, ahead2 := none, lanes := [], prevReplayed := [] } }

/-- STOP entered from RUN or HOLD (R81): the stop image commits at the next commit position. -/
def scanHalt (s : State) : State :=
  if s.loom.eng = .stop then s
  else
    let s := dropScans s
    let s := setEngine { s with loom := { s.loom with
      prev := none, stopPending := true, paused := false, held := false, heldN := 0, stepping := 0, resumed := none
      swReady := s.loom.swPending } } .stop
    wrF s (reg pSCANDBG 0x084) 17 2 0

/-! ### HOLD and single steps (R81–R85) -/

/-- SCANDBG.CMD = HOLD (R81): run-ahead discarded, the latched scan pauses at its next segment boundary. -/
def scanHold (s : State) : State :=
  if s.loom.eng ≠ .run then s
  else
    let s := setEngine (wr (dropAhead s) (reg pSCANDBG 0x08C) 0) .hold
    holdBoundary { s with loom := { s.loom with stepping := 0 } }

/-- SCANDBG.CMD = RESUME, or DEBUG cleared in HOLD (R81, R85). -/
def scanResume (s : State) : State :=
  if s.loom.eng ≠ .hold then s
  else
    let r := if s.loom.paused then some s.loom.pauseSeg else s.loom.resumed
    let s := setEngine { s with loom := { s.loom with paused := false, stepping := 0, resumed := r } } .run
    wrF s (reg pSCANDBG 0x084) 17 2 0

/-- SCANDBG.CMD = STEP_SEG: one segment of the paused scan executes (R81). -/
def scanStepSeg (s : State) : State :=
  if s.loom.eng = .hold ∧ s.loom.paused then
    { s with loom := { s.loom with paused := false, stepping := 1, resumed := some s.loom.pauseSeg } }
  else s

/-- SCANDBG.CMD = STEP_SCAN: the paused scan finishes and commits, the next one latches and pauses (R81). -/
def scanStepScan (s : State) : State :=
  if s.loom.eng = .hold then
    { s with loom := { s.loom with
      paused := false, stepping := 2, resumed := if s.loom.paused then some s.loom.pauseSeg else s.loom.resumed } }
  else s

/-! ### Breakpoints (R84) -/

/-- The enabled breakpoint at a segment, while DEBUG is set. -/
def breakAt (s : State) (seg : Nat) : Option Nat :=
  if mDEBUG s && !mLOCK s then
    (List.range 8).find? fun k =>
      rdB s (reg pSCANDBG (0x090 + 4 * k)) 31 && rdF s (reg pSCANDBG (0x090 + 4 * k)) 0 14 == seg
  else none

/-- A breakpoint reached: HOLD, paused before the segment; with ONCE it disables itself (R81, R84). -/
def breakHit (s : State) (k seg : Nat) : State :=
  let a := reg pSCANDBG (0x090 + 4 * k)
  let s := if rdB s a 30 then wrB s a 31 false else s
  let s := setEngine (wr (dropAhead s) (reg pSCANDBG 0x08C) 0) .hold
  ev (wrF (pauseAt s seg 2) (reg pSCANDBG 0x084) 24 3 k) pSCANDBG 1

/-! ### Prediction (R70) -/

/-- The absolute step of a ramp: `v + d × (v − v')` in a type, saturating or rounded to nearest. -/
def rampVal (t : Ty) (d : Nat) (v v' : Word) : Word :=
  match t with
  | .bool => v
  | .int32 => (satI (sw v + d * (sw v - sw v'))).1
  | .q16 => (satI (sw v + d * (sw v - sw v'))).1
  | .float32 =>
    match fracT .float32 v, fracT .float32 v' with
    | some a, some b => (Frac.add a (Frac.mul ⟨d, 1⟩ (Frac.sub a b))).toF false
    | _, _ => (opAdd .float32 v (opSub .float32 v v').1).1

/-- The prediction of an input slot for depth `d` from the last latched values (R70); none under WAIT. -/
def predict (s : State) (i : InSlot) (d : Nat) : Option Slot :=
  match get? s.loom.vL i.point with
  | none => none
  | some v =>
    if i.policy = 2 then none
    else if i.policy = 1 ∧ v.qual % 2 = 1 then
      match s.loom.vP.bind fun m => get? m i.point with
      | some w => if w.qual % 2 = 1 then some { v with val := rampVal i.ty d v.val w.val } else some v
      | none => some v
    else some v

/-- The predicted slots of a scan ahead. -/
def predictAll (s : State) (p : Program) (d : Nat) : List (Nat × Slot) :=
  p.ins.foldl (fun m i => match predict s i d with | some v => ins m i.point v | none => m) []

/-- A scan ahead at a depth: its nominal timestamp, its predicted inputs, nothing executed. -/
def newAhead (s : State) (p : Program) (d : Nat) : Scan :=
  let pr := predictAll s p d
  let nom := (match s.loom.cur with | some c => c.nom | none => 0) + d * scanT s
  { latched := false, nom := nom, latchAt := 0, ready := false, readyAfter := 0, image := pr, truth := [], pred := pr
    mism := [], stat := [], loops := [], res := [], replayed := [], stall := none }

/-! ### Starting a segment (R69, R71, R72, R92) -/

/-- A segment depends on another of its scan: it follows it, or reads a state word or uses an instance that it writes (R71). -/
def dependsOn (d m : SegDesc) (n : Nat) : Bool :=
  m.succ.contains n ||
  m.writes.any fun e =>
    (entKind e == 1 || entKind e == 2) && (d.reads.contains e || (entKind e == 2 && d.writes.contains e))

/-- A segment that R71 holds back for itself: it reads a point without a prediction, a station status or a loop, a breakpoint
stands at it, or the scan's speculation has stalled before it (R72). -/
def noAheadSelf (s : State) (p : Program) (d : SegDesc) (n : Nat) (c : Scan) : Bool :=
  (d.reads.any fun e => if entKind e = 0 then (get? c.pred (entIdx e)).isNone else entKind e == 3) ||
  ((segCode p d).any fun w => insOp w == 4) || (breakAt s n).isSome ||
  (match c.stall with | some k => decide (k ≤ n) | none => false)

/-- A segment depends on one that does not run ahead (R71). -/
def noAheadAfter (p : Program) (held : List Nat) (d : SegDesc) (n : Nat) : Bool :=
  held.any fun k => k != n && (match p.segs.drop k with | m :: _ => dependsOn d m n | [] => false)

/-- The segments that do not run ahead, wherever they stand in program order: `n` rounds of R71's conditions. -/
def noAhead (s : State) (p : Program) (c : Scan) : Nat → List Nat
  | 0 => (List.range p.segs.length).filter fun n =>
      match p.segs.drop n with | d :: _ => noAheadSelf s p d n c | [] => false
  | r + 1 =>
    let h := noAhead s p c r
    (List.range p.segs.length).filter fun n =>
      h.contains n || (match p.segs.drop n with | d :: _ => noAheadAfter p h d n | [] => false)

/-- A segment may run ahead (R71). -/
def mayRunAhead (s : State) (p : Program) (n : Nat) (c : Scan) : Bool :=
  !(noAhead s p c p.segs.length).contains n

/-- Every earlier segment that a segment depends on has executed in the scan. -/
def depsDone (p : Program) (c : Scan) (d : SegDesc) (n : Nat) : Bool :=
  (List.range n).all fun k =>
    match p.segs.drop k with
    | m :: _ => !dependsOn d m n || (get? c.res k).isSome
    | [] => true

/-- Entries that a segment's results take in a speculation buffer (R72). -/
def SegRes.entries (r : SegRes) : Nat := r.words.length + r.fbs.length + r.outs.length + r.sps.length

/-- Entries of a depth's speculation buffer in use: those of its finished segments, and for a segment that a lane executes the
length of its write list (R72). DEDUCED: the check keeps room for what has started (log 55). -/
def bufUsed (s : State) (p : Program) (dep : Nat) (c : Scan) : Nat :=
  (c.res.map fun e => e.2.entries).sum +
    ((s.loom.lanes.filter fun e => e.2.active && e.2.depth == dep).map fun e =>
      match p.segs.drop e.2.seg with | d :: _ => d.writes.length | [] => 0).sum

/-- A lane takes a segment: W0–W63 are 0, CF and the flags clear (R92). -/
def takeLane (s : State) (l : LaneNo) (d n : Nat) : State :=
  setLane s l { Lane.idle with active := true, depth := d, seg := n }

/-- Some lane already executes the segment at the depth. -/
def inLane (s : State) (d n : Nat) : Bool := s.loom.lanes.any fun e => e.2.active && e.2.depth == d && e.2.seg == n

/-- A segment of the latched scan started: in RUN, or in HOLD while stepping (R81, R84). -/
def startNow (s : State) (p : Program) (l : LaneNo) (n : Nat) (d : SegDesc) : State :=
  match scanAt s 0 with
  | none => s
  | some c =>
    let may := s.loom.eng == .run ||
      (s.loom.eng == .hold && !s.loom.paused &&
        (s.loom.stepping == 2 || (s.loom.stepping == 1 && s.loom.pauseSeg == n)))
    if !may ∨ (get? c.res n).isSome ∨ inLane s 0 n ∨ !depsDone p c d n then s
    else
      match breakAt s n with
      | some k => if s.loom.eng = .run ∧ s.loom.resumed ≠ some n then breakHit s k n else takeLane s l 0 n
      | none => takeLane s l 0 n

/-- Run-ahead at a depth is open (R69, R78): the latched scan is ready or dropped, and at depth 2 the scan before has executed
as far as it may. -/
def aheadOpen (s : State) (d : Nat) : Bool :=
  s.loom.eng == .run && !s.loom.first && !s.loom.newProg && decide (d ≤ dMax s) &&
  (match scanAt s 0 with | some c => c.ready | none => true) &&
  (d == 1 ||
    match s.loom.ahead1, activeProg s with
    | some c, some p => (List.range p.segs.length).all fun n => (get? c.res n).isSome || !mayRunAhead s p n c
    | _, _ => false)

/-- A segment started ahead of its scan's latch; a full buffer stalls the scan before it (R72). -/
def startAhead (s : State) (p : Program) (l : LaneNo) (dep n : Nat) (d : SegDesc) : State :=
  if !aheadOpen s dep then s
  else
    let c := (scanAt s dep).getD (newAhead s p dep)
    if (get? c.res n).isSome ∨ inLane s dep n ∨ !depsDone p c d n ∨ !mayRunAhead s p n c then s
    else if 65536 - bufUsed s p dep c < d.writes.length then
      ev (bump (setScan s dep { c with stall := some n }) (reg pSCAN 0x0C4)) pSCAN 2
    else takeLane (setScan s dep c) l dep n

/-- SEGMENT_START (R92). -/
def segmentStartOp (s : State) (l : LaneNo) (dep n : Nat) : State :=
  match activeProg s with
  | none => s
  | some p =>
    match p.segs.drop n with
    | [] => s
    | d :: _ =>
      if (lane s l).active ∨ cellOut s pSCAN l.val then s
      else if dep = 0 then startNow s p l n d else startAhead s p l dep n d

/-! ### The input image (R61–R64, R79) -/

/-- The signed difference of two source cycles' low 32 bits (R62). -/
def cycDiff (a b : Nat) : Int := sgn 32 (a % 2 ^ 32 + 2 ^ 32 - b % 2 ^ 32)

/-- The better of two complete images: the later source cycle, and of equal ones the later to arrive (R62). -/
def betterImage (old new : StImage) : StImage := if 0 ≤ cycDiff new.src old.src then new else old

/-- The complete image that a latch takes: of those received before a position (R37, R62), the latch's own, or for a LATE one
where the step stands (R78). -/
def latchStation (x : Station) (pos : Nat) : Station :=
  let now := x.open_.filter fun i => i.arrived < pos
  let cur := now.foldl (fun c i => match c with | none => some i | some o => some (betterImage o i)) x.cur
  { x with cur := cur, open_ := x.open_.filter fun i => !decide (i.arrived < pos) }

/-- Source cycle, AGE and MISSED of a station at a latch cycle (R63). -/
def stationStatus (x : Station) (period latchCycle : Nat) : Nat × Nat × Nat :=
  match x.cur with
  | none => (0, 255, 255 / max 1 period - 1)
  | some i =>
    let age := clampI 0 255 (cycDiff latchCycle i.src)
    (i.src % 2 ^ 32, age.toNat, age.toNat / max 1 period - 1)

/-- A station's inputs are STALE (R63, R79). -/
def stationStale (s : State) (t : StationT) (x : Station) (missed : Nat) : Bool :=
  let lim := if t.limit = 0 then max 1 (rdF s (reg pSCAN 0x080) 12 4) else t.limit
  x.cur.isNone || decide (lim ≤ missed)

/-- An input slot fed by a station (R62, R63, R79). -/
def stationSlot (i : InSlot) (x : Station) (stale : Bool) : Slot :=
  let subst (q : Nat) : Slot := if i.substEn then ⟨i.ty, i.subst, qualOf (q ||| qSUBST)⟩ else ⟨i.ty, 0, qualOf q⟩
  match x.cur with
  | none => subst qSTALE
  | some im =>
    match get? im.vals i.point with
    | none => subst (if stale then qSTALE ||| qBAD else qBAD)
    | some (v, q) =>
      if stale then
        (if i.substEn then ⟨i.ty, i.subst, qualOf (q ||| qSTALE ||| qSUBST)⟩ else ⟨i.ty, v, qualOf (q ||| qSTALE)⟩)
      else ⟨i.ty, v, qualOf q⟩

/-- The input force that stands on a point: KIND 0, or KIND 2 on the channel that feeds it (R107). Which wins where both stand
R107 does not say: KIND 0. DESIGN CHOICE, unsafe (log 55). -/
def inputForce (s : State) (p : Nat) : Option Word :=
  match forceOf s 0 p with
  | some v => some v
  | none =>
    match (List.range 16).find? fun c => Config.diPoint (c + 1) == some p && (forceOf s 2 (c + 1)).isSome with
    | some c => (forceOf s 2 (c + 1)).map fun v => v &&& 1
    | none => none

/-- Every point the program reads: its input slots, and the points of read lists without a slot. -/
def readPoints (p : Program) : List Nat :=
  (p.ins.map InSlot.point ++
    (p.segs.flatMap fun d => (d.reads.filter fun e => entKind e == 0).map entIdx)).dedup

/-- A point of the input image that no station feeds: as it was before the latch, its quality word as R64 has it. -/
def localSlot (s : State) (q pos : Nat) : Slot :=
  let v := pointBefore s q pos
  { v with qual := qualOf v.qual }

/-- The true input image of a latch (R61): what was updated at the position `cut` or after it is the next scan's (R37). A
local source's value takes the type that the input table declares for its slot, its bits unchanged: R61 does not say how a
source of another TYPE comes to the slot. DESIGN CHOICE, unsafe (log 55). -/
def trueImage (s : State) (p : Program) (cut : Nat) : List (Nat × Slot) :=
  (readPoints p).foldl (fun m q =>
    let v : Slot :=
      match p.ins.find? fun i => i.point == q with
      | none => localSlot s q cut
      | some i =>
        match p.stations.drop i.station with
        | _ :: _ =>
          let x := look Station.absent s.loom.stations i.station
          stationSlot i x x.stale
        | [] => { localSlot s q cut with ty := i.ty }
    let v := match inputForce s q with | some f => { v with val := f, qual := qGOOD ||| qFORCED } | none => v
    ins m q v) []

/-- The points that the latch takes from the point store: those that no station feeds (R10, R61). -/
def localReads (p : Program) : Nat :=
  ((readPoints p).filter fun q =>
    match p.ins.find? fun i => i.point == q with
    | some i => (p.stations.drop i.station).isEmpty
    | none => true).length

/-- The stations at a latch: images taken, STALE set, EVT.STATION_STALE at each that turns STALE (R62, R79). -/
def latchStations (s : State) (p : Program) (pos cut : Nat) : State :=
  (List.range p.stations.length).foldl (fun t k =>
    match p.stations.drop k with
    | d :: _ =>
      let x := latchStation (look Station.absent t.loom.stations k) cut
      let st := stationStatus x d.period (cycleOf pos)
      let stale := stationStale t d x st.2.2
      let was := x.stale && !t.loom.first
      let t := { t with loom := { t.loom with stations := put Station.absent t.loom.stations k { x with stale := stale } } }
      evIf (stale && !was) t pSCAN 6
    | [] => t) s

/-- Station status words at a latch, by station table index. -/
def statusAll (s : State) (p : Program) (pos : Nat) : List (Nat × (Nat × Nat × Nat)) :=
  (List.range p.stations.length).foldl (fun m k =>
    match p.stations.drop k with
    | d :: _ => ins m k (stationStatus (look Station.absent s.loom.stations k) d.period (cycleOf pos))
    | [] => m) []

/-- A status or output word of a loop record, as it was before a position (R61, R37). -/
def loopBefore (s : State) (n o pos : Nat) : Word :=
  (beforePos s 1 n o pos ⟨.int32, rd s (reg (0x19 + n / 32) (128 * (n % 32) + o)), 0⟩).val

/-- The status and output words of every loop the program reads, as latched (R94). -/
def loopsAll (s : State) (p : Program) (cut : Nat) : List (Nat × Word) :=
  ((p.segs.flatMap fun d => (d.reads.filter fun e => entKind e == 3).map entIdx).dedup).foldl (fun m n =>
    put 0 (put 0 m (2 * n) (loopBefore s n 0x74 cut)) (2 * n + 1) (loopBefore s n 0x70 cut)) []

/-! ### Matching and replay (R73–R75) -/

/-- The distance of two values in a type is at most a deadband; BOOL and deadband 0 match exactly (R73). -/
def withinBand (t : Ty) (a b db : Word) : Bool :=
  if a = b then true
  else
    match t with
    | .bool => false
    | .float32 =>
      match fracT .float32 a, fracT .float32 b, fracT .float32 db with
      | some x, some y, some d =>
        let f := Frac.sub x y
        decide (d.num ≠ 0) && !Frac.lt d ⟨f.num.natAbs, f.den⟩
      | _, _, _ => false
    | _ => decide (db ≠ 0) && decide (((sw a - sw b).natAbs : Int) ≤ sw db)

/-- A predicted slot matches its latched value (R73). -/
def slotMatches (s : State) (i : InSlot) (p v : Slot) : Bool :=
  decide (p.qual = v.qual) &&
    (if rdB s (reg pSCAN 0x080) 6 then withinBand i.ty p.val v.val i.deadband else decide (p.val = v.val))

/-- The segments reached from a set through the successor lists; successors have higher indices (R90). -/
def closure (p : Program) (from_ : List Nat) : List Nat :=
  (List.range p.segs.length).foldl (fun acc n =>
    if acc.contains n || (List.range n).any (fun k =>
        acc.contains k && (match p.segs.drop k with | m :: _ => m.succ.contains n | [] => false)) then
      (if acc.contains n then acc else acc ++ [n])
    else acc) from_

/-- The dirty set of a scan that ran ahead (R75). -/
def dirtySet (s : State) (p : Program) (mism : List Nat) : List Nat :=
  let wrote := (s.loom.prevReplayed.flatMap fun k =>
    match p.segs.drop k with
    | m :: _ => m.writes.filter fun e => entKind e == 1 || entKind e == 2
    | [] => [])
  closure p ((List.range p.segs.length).filter fun n =>
    match p.segs.drop n with
    | d :: _ =>
      (mism.any fun q => d.reads.contains (entOf 0 q)) ||
      (wrote.any fun e => d.reads.contains e || (entKind e == 2 && d.writes.contains e))
    | [] => false)

/-- The input slots of a program that a scan ran ahead on and whose prediction does not match (R73). -/
def mismatches (s : State) (p : Program) (a : Scan) (truth : List (Nat × Slot)) : List Nat :=
  (p.ins.filter fun i =>
    match get? a.pred i.point, get? truth i.point with
    | some x, some v => !slotMatches s i x v
    | _, _ => false).map InSlot.point

/-- The slots accepted within their deadband but not bit for bit (R74). -/
def tolerated (s : State) (p : Program) (a : Scan) (truth : List (Nat × Slot)) : List Nat :=
  (p.ins.filter fun i =>
    match get? a.pred i.point, get? truth i.point with
    | some x, some v => slotMatches s i x v && decide (x.val ≠ v.val)
    | _, _ => false).map InSlot.point

/-- The segments of a scan ahead that a dirty set discards, finished or still in a lane (R75). -/
def replayedOf (s : State) (a : Scan) (dirty : List Nat) : List Nat :=
  (a.res.filter fun e => dirty.contains e.1).map Prod.fst ++
    (s.loom.lanes.filter fun e => e.2.active && e.2.depth == 1 && dirty.contains e.2.seg).map fun e => e.2.seg

/-- Lanes moved one depth nearer at a latch; those that execute a dirty segment of the latching scan are dropped. -/
def shiftLanes (s : State) (dirty : List Nat) : List (Nat × Lane) :=
  (s.loom.lanes.filter fun e => e.2.depth != 0 && !(e.2.depth == 1 && dirty.contains e.2.seg)).map fun e =>
    (e.1, { e.2 with depth := e.2.depth - 1 })

/-- The latch of a scan that has run ahead: matched, its dirty segments discarded (R73–R75). -/
def latchAhead (s : State) (p : Program) (a : Scan) (truth : List (Nat × Slot)) (pos cut : Nat) :
    State :=
  let mism := mismatches s p a truth
  let tol := tolerated s p a truth
  let dirty := dirtySet s p mism
  let replay := replayedOf s a dirty
  let image := truth.map fun e => if tol.contains e.1 then (e.1, (get? a.pred e.1).getD e.2) else e
  let c : Scan := { a with
    latched := true, latchAt := count s, image := image, truth := truth, mism := mism, stat := statusAll s p pos
    loops := loopsAll s p cut, res := a.res.filter fun e => !dirty.contains e.1, replayed := replay, stall := none }
  let s := bumpBy (bumpBy (bumpBy s (reg pSCAN 0x0B8) replay.length) (reg pSCAN 0x0BC) mism.length)
    (reg pSCAN 0x0C0) tol.length
  { s with loom := { s.loom with
    lanes := shiftLanes s dirty, cur := some c, curDone := false, ahead1 := s.loom.ahead2, ahead2 := none
    prevReplayed := replay } }

/-- The latch of a scan that has not run ahead. -/
def latchFresh (s : State) (p : Program) (truth : List (Nat × Slot)) (nom pos cut : Nat) : State :=
  let c : Scan :=
    { latched := true, nom := nom, latchAt := count s, ready := false, readyAfter := 0, image := truth, truth := truth
      pred := [], mism := [], stat := statusAll s p pos, loops := loopsAll s p cut, res := [], replayed := [], stall := none }
  { s with loom := { s.loom with
    lanes := [], cur := some c, curDone := false, ahead1 := none, ahead2 := none, prevReplayed := [] } }

/-- The true values of the last two latches moved on (R70). -/
def latchHistory (s : State) (truth : List (Nat × Slot)) : State :=
  let old := if s.loom.first ∨ s.loom.newProg then none else some s.loom.vL
  { s with loom := { s.loom with vP := old, vL := truth, first := false } }

/-- A scan latched at a nominal position (R61, R68): the image as it stood before that position, or LATE as it stands at the
step (R78). -/
def latchScan (s : State) (p : Program) (pos : Nat) (late : Bool) : State :=
  let cut := if late then count s else pos
  let s := ptUse (latchStations s p pos cut) .loom (localReads p)
  let truth := trueImage s p cut
  let s :=
    if s.loom.eng = .run ∧ !s.loom.curDone then { s with loom := { s.loom with prev := s.loom.cur } } else s
  let nom := pos - s.loom.holdOff
  let isNew := s.loom.newProg
  let s := latchHistory s truth
  let s :=
    match s.loom.ahead1 with
    | some a => if a.nom = nom then latchAhead s p a truth pos cut else latchFresh s p truth nom pos cut
    | none => latchFresh s p truth nom pos cut
  let s := { s with loom := { s.loom with newProg := false, resumed := none, held := false, heldN := 0 } }
  let s :=
    if isNew then
      ramWrite (wr64 (dramUse s .loom .control 8) (reg pPGMX 0x0AC) pos) (rd64 s (reg pPGMX 0x09C) + 8) (leBytes 8 pos)
    else s
  let s := markReady s
  if s.loom.eng = .hold then
    match s.loom.cur.map (pendingSegs s) with
    | some (n :: _) => pauseAt s n (if s.loom.stepping = 2 then 3 else 1)
    | _ => s
  else s

/-- SCAN_LATCH fires (R61, R78, R83). A LATE one sets EVT.LATE_PHASE while a scan is paused too, and so does a commit: the
event's own words name the firing, R83 says that it does nothing. DESIGN CHOICE, unsafe (log 55). -/
def scanLatch (s : State) (pos : Nat) (late : Bool) : State :=
  let s := programSwitchOp (evIf late s pSCAN 5)
  match activeProg s with
  | none => s
  | some p => if s.loom.eng = .stop ∨ (s.loom.held ∧ !s.loom.curDone) then s else latchScan s p pos late

end Sys2Proof.Machine
end

