-- ==== Sys2Proof/Machine/FieldOps.lean ====
section
/-!
DEFINITION. The field region's buses, serial ports and field I/O (R240–R263): filters, queues, objects, frame groups,
time references, bus transmission, rings of characters, digital inputs and outputs.
-/

namespace Sys2Proof.Machine

/-! ### Multi-drop buses -/

/-- The page of bus `n` (0–7). -/
def mbPg (n : Nat) : Nat := pMB + n

/-- A bus. -/
def bus (s : State) (n : Nat) : Bus := look .reset s.bus n

/-- A bus replaced. -/
def setBus (s : State) (n : Nat) (b : Bus) : State := { s with bus := put .reset s.bus n b }

/-- A bus is enabled and its page lets it run. -/
def busOn (s : State) (n : Nat) : Bool := rdB s (reg (mbPg n) 0x080) 0 && runs s (mbPg n)

/-- MB_STBY is high, to standby: every bus is asleep or disabled (R251). -/
def mbStandby (s : State) : Bool :=
  (List.range 8).all fun n => !busOn s n || (bus s n).sleeping

/-- MBn.STAT (chapter 10). -/
def busStat (s : State) (n : Nat) : Word :=
  let b := bus s n
  let st := if !rdB s (reg (mbPg n) 0x080) 0 then 0 else if b.busOff then 3 else if b.sleeping then 2 else 1
  let tec := rdF s (reg (mbPg n) 0x098) 0 8
  let rec_ := rdF s (reg (mbPg n) 0x098) 8 8
  w32 (st + 4 * b2n (decide (128 ≤ tec) || decide (128 ≤ rec_)) + b.q0.length * 65536 + b.q1.length * 2 ^ 24)

/-- Data bytes of a data length code (ISO 11898-1 FD frames). -/
def dlcBytes (d : Nat) : Nat :=
  if d ≤ 8 then d else if d = 9 then 12 else if d = 10 then 16 else if d = 11 then 20 else if d = 12 then 24
  else if d = 13 then 32 else if d = 14 then 48 else 64

/-- Word 0x00 of a frame record. -/
def frameId (f : BusFrame) : Word :=
  w32 (f.id.toNat + b2n f.ide * 2 ^ 29 + b2n f.fdf * 2 ^ 30 + b2n f.brs * 2 ^ 31)

/-- DATA word `j` of a frame. -/
def frameData (f : BusFrame) (j : Nat) : Word := w32 (leAt f.data (4 * j) 4)

/-- The first filter that matches a frame: its ACTION and OBJ (R242). -/
def filterFor (s : State) (n : Nat) (f : BusFrame) : Option (Nat × Nat) :=
  ((List.range 64).find? fun k =>
    let a := reg (mbPg n) (0x200 + 16 * k)
    rdB s a 31 && (rdB s a 29 == f.ide) &&
      decide ((f.id ^^^ BitVec.ofNat 29 (rdF s a 0 29)) &&& BitVec.ofNat 29 (rdF s (a + 4) 0 29) = 0)).map fun k =>
        let c := rd s (reg (mbPg n) (0x208 + 16 * k))
        (fld c 0 2, fld c 4 4)

/-- The members of a frame group (R247): those beyond object 15 act as ending at 15. -/
def groupMembers (s : State) (n g : Nat) : List Nat :=
  let w := rd s (reg (mbPg n) (0x100 + 4 * g))
  (List.range (fld w 8 3 + 1)).filterMap fun j => if fld w 0 4 + j ≤ 15 then some (fld w 0 4 + j) else none

/-- The base address of receive object `o`. -/
def rxObj (n o : Nat) : Nat := reg (mbPg n) (0xB00 + 0x50 * o)
/-- The base address of transmit object `o`. -/
def txObj (n o : Nat) : Nat := reg (mbPg n) (0x600 + 0x50 * o)

/-- The data bytes of a receive object. -/
def rxData (s : State) (n o : Nat) : List Byte :=
  (List.range 16).flatMap fun j => leBytes 4 (rd s (rxObj n o + 0x10 + 4 * j)).toNat

/-- A station has dropped out, as its images stand now: none received, or the newest MISSED up to the limit (R79, R80). -/
def stationOut (s : State) (t : StationT) (x : Station) : Bool :=
  let x := latchStation x (count s + 1)
  stationStale s t x (stationStatus x t.period (cycleOf (count s))).2.2

/-- The stations that have dropped out, of those that `sel` names. -/
def stationsOut (s : State) (sel : StationT → Bool) : List StationT :=
  match activeProg s with
  | none => []
  | some p =>
    (p.stations.zipIdx.filter fun e => sel e.1 && stationOut s e.1 (look Station.absent s.loom.stations e.2)).map Prod.fst

/-- A complete image put before Loom for the stations that `sel` names (R62). -/
def stationArrive (s : State) (sel : StationT → Bool) (im : StImage) : State :=
  match activeProg s with
  | none => s
  | some p =>
    (List.range p.stations.length).foldl (fun t k =>
      match p.stations.drop k with
      | d :: _ =>
        if sel d then
          let x := look Station.absent t.loom.stations k
          { t with loom := { t.loom with
            stations := put Station.absent t.loom.stations k { x with open_ := x.open_ ++ [im] } } }
        else t
      | [] => t) s

/-- The INPUT points of an image take their values (R189). -/
def imagePoints (s : State) (who : Word) (vals : List (Nat × (Word × Nat))) : State :=
  vals.foldl (fun t e => ptInput t who e.1 e.2.1 e.2.2 (count t)) s

/-- MB_STBY as a change of a bus leaves it: the fabric instant of its fall is kept (R251). It falls with the waking itself,
within the 1 µs of the rule (log 59). -/
def stbyFollow (old s : State) : State :=
  if mbStandby old ∧ !mbStandby s then { s with pins := { s.pins with stbyFell := some s.clk.fabric } } else s

/-- No frame is offered within 50 µs, 20,000 fabric cycles, of the fall of MB_STBY (R251). -/
def stbySettled (s : State) : Bool := s.pins.stbyFell.all fun t => decide (t + 20000 ≤ s.clk.fabric)

/-- The bus wakes (R252): EVT.WAKE. -/
def busWake (s : State) (n : Nat) : State :=
  let b := bus s n
  if b.sleeping then
    stbyFollow s (ev (setBus s n { b with sleeping := false, sleepReq := false, trefPrev := none }) (mbPg n) 8)
  else s

/-- A transmit object becomes pending (R245); with AUTO_WAKE a sleeping bus wakes (R251). -/
def objPending (s : State) (n o : Nat) : State :=
  let b := bus s n
  let s := setBus s n { b with
    failed := b.failed.filter (· != o), again := b.again || decide (b.onBus = some (.obj o)) }
  let s := wrB s (txObj n o + 4) 8 true
  if rdB s (reg (mbPg n) 0x080) 6 then busWake s n else s

/-- A frame group completes: its image goes to Loom and to the INPUT points (R247), and to stations that had dropped out the
current content of their transmit objects (R80). -/
def groupDone (s : State) (n g : Nat) : State :=
  let ms := groupMembers s n g
  let w := rd s (reg (mbPg n) (0x100 + 4 * g))
  let first := ms.headD 0
  let src := if bit w 16 then leAt (rxData s n first) 0 4
    else cycleOf (rd64 s (rxObj n first + 8)) - 1
  let vals := (Config.groupMap n g (ms.map (rxData s n))).map fun e => (e.1, (e.2, qGOOD))
  let mine (t : StationT) : Bool := t.src == 1 && Config.stationGroup t.id == (n, g)
  let back := (stationsOut s mine).flatMap fun t => Config.stationObjects t.id
  let s := stationArrive s mine ⟨count s, src, vals⟩
  let s := ev (imagePoints (ptUse s (.hw (Fin.ofNat 128 (mbPg n))) vals.length) (w32 (5 * 2 ^ 28 + mbPg n)) vals) (mbPg n) 12
  back.foldl (fun t o => objPending t n (o % 16)) s

/-- Receive object `o` has received a frame: its groups follow (R247). -/
def groupStep (s : State) (n o : Nat) : State :=
  (List.range 8).foldl (fun t g =>
    let ms := groupMembers t n g
    if rdB t (reg (mbPg n) (0x100 + 4 * g)) 31 && ms.contains o then
      let b := bus t n
      let have_ := o :: look [] b.group g
      if ms.all have_.contains then groupDone (setBus t n { b with group := put [] b.group g [] }) n g
      else setBus t n { b with group := put [] b.group g have_ }
    else t) s

/-- A bus receive object as a loop source (R244): bytes 0–3 in Q16.16, STALE, or BAD before the first frame or in
bus-off. -/
def busSource (s : State) (n o : Nat) : Slot :=
  let b := bus s n
  let v := rd s (rxObj n o + 0x10)
  if b.busOff ∨ !b.got.contains o then ⟨.q16, v, qBAD⟩
  else if rdB s (rxObj n o + 4) 9 then ⟨.q16, v, qSTALE⟩
  else ⟨.q16, v, qGOOD⟩

/-- A frame held in receive object `o`, replaced whole (R244). -/
def rxStore (s : State) (n o : Nat) (f : BusFrame) (ts : Nat) : State :=
  let a := rxObj n o
  let s := notePast s 2 (16 * n + o) 2 0 (busSource s n o)
  let s := wr s a (frameId f)
  let s := wr s (a + 4) (w32 (f.dlc.toNat + 256 + rdF s (a + 4) 16 16 * 65536))
  let s := wr64 s (a + 8) ts
  let s := (List.range 16).foldl (fun t j => wr t (a + 0x10 + 4 * j) (frameData f j)) s
  let b := bus s n
  groupStep (setBus s n { b with got := if b.got.contains o then b.got else o :: b.got }) n o

/-- A frame put into a receive queue, or dropped at a full one (R242). -/
def queuePut (s : State) (n q : Nat) (f : BusFrame) (ts : Nat) : State :=
  let b := bus s n
  let l := if q = 0 then b.q0 else b.q1
  if (if q = 0 then 64 else 32) ≤ l.length then ev (bump s (reg (mbPg n) 0x0CC)) (mbPg n) 2
  else
    let l := l ++ [⟨f, ts⟩]
    ev (setBus s n (if q = 0 then { b with q0 := l } else { b with q1 := l })) (mbPg n) q

/-- A received frame routed by the filters (R242). -/
def mbRoute (s : State) (n : Nat) (f : BusFrame) : State :=
  let s := bump s (reg (mbPg n) 0x0C0)
  let rec_ := rdF s (reg (mbPg n) 0x098) 8 8
  let s := wrF s (reg (mbPg n) 0x098) 8 8 (rec_ - 1)
  let ts := count s
  match filterFor s n f with
  | some (1, _) => queuePut s n 0 f ts
  | some (2, _) => queuePut s n 1 f ts
  | some (3, o) => rxStore s n o f ts
  | some _ => bump s (reg (mbPg n) 0x0C8)
  | none => if rdB s (reg (mbPg n) 0x080) 4 then queuePut s n 1 f ts else bump s (reg (mbPg n) 0x0C8)

/-- A frame on the bus received (R240, R242). -/
def mbReceive (s : State) (n : Nat) (f : BusFrame) : State :=
  let b := bus s n
  if !busOn s n ∨ b.sleeping ∨ b.busOff ∨ (f.fdf ∧ !rdB s (reg (mbPg n) 0x080) 1) then s else mbRoute s n f

/-- The position since which a receive object has been without a frame: its last frame, or the enabling of the bus. -/
def rxSince (s : State) (n o : Nat) : Nat :=
  if (bus s n).got.contains o then rd64 s (rxObj n o + 8) else (bus s n).since

/-- A receive object has gone without a frame for its TIMEOUT, in whole cycles of 65,536 au (R244, log 59). -/
def mbStale (s : State) (n o : Nat) : State :=
  let t := rdF s (rxObj n o + 4) 16 16
  if t = 0 ∨ !busOn s n ∨ count s < rxSince s n o + t * 65536 then s
  else ev (wrB (notePast s 2 (16 * n + o) 2 0 (busSource s n o)) (rxObj n o + 4) 9 true) (mbPg n) 11

/-- The frames before a head index removed from a queue (R243). -/
def mbHead (s : State) (n q : Nat) (v : Word) : State :=
  let size := if q = 0 then 64 else 32
  let a := reg (mbPg n) (0x0E0 + 4 * q)
  let k := (v.toNat % size + size - (rd s a).toNat % size) % size
  let b := bus s n
  wr (setBus s n (if q = 0 then { b with q0 := b.q0.drop k } else { b with q1 := b.q1.drop k })) a (w32 (v.toNat % size))

/-- A queue emptied: its head passes every frame (CLEAR_Q0, CLEAR_Q1). -/
def mbClear (s : State) (n q : Nat) : State :=
  let b := bus s n
  let a := reg (mbPg n) (0x0E0 + 4 * q)
  let size := if q = 0 then 64 else 32
  let k := if q = 0 then b.q0.length else b.q1.length
  wr (setBus s n (if q = 0 then { b with q0 := [] } else { b with q1 := [] })) a (w32 (((rd s a).toNat + k) % size))

/-- Word `j` of a queue window: the head frame in the frame-record layout, VALID in word 0x04 (R243). -/
def queueWord (s : State) (n q j : Nat) : Word :=
  let b := bus s n
  match (if q = 0 then b.q0 else b.q1) with
  | [] => 0
  | r :: _ =>
    if j = 0 then frameId r.frame
    else if j = 1 then w32 (r.frame.dlc.toNat + 256)
    else if j = 2 then lo32 r.ts
    else if j = 3 then hi32 r.ts
    else frameData r.frame (j - 4)

/-- A Loom commit's value for a transmit object: bytes 0–3, those within the DLC (R245, log 14). -/
def objCommitLoom (s : State) (n o : Nat) (v : Word) : State :=
  let dlc := rdF s (txObj n o + 4) 0 4
  let k := min 4 (dlcBytes dlc)
  let old := rd s (txObj n o + 0x10)
  objPending (wr s (txObj n o + 0x10) (setFld old 0 (8 * k) (v.toNat % 2 ^ (8 * k)))) n o

/-- A loop's output for a transmit object (R129): whether it was clamped for a DLC of 1–3. -/
def objCommitLoop (s : State) (n o : Nat) (u : Word) : State × Bool :=
  let dlc := rdF s (txObj n o + 4) 0 4
  if 4 ≤ dlc then (objPending (wr s (txObj n o + 0x10) u) n o, false)
  else if dlc = 0 then (objPending s n o, false)
  else
    let x := roundAway (sw u) 65536
    let c := clampI (-(2 ^ (8 * dlc - 1))) (2 ^ (8 * dlc - 1) - 1) x
    (objPending (wrF s (txObj n o + 0x10) 0 (8 * dlc) (i32 c).toNat) n o, decide (c ≠ x))

/-- A register commit of a transmit object: the staged words and DLC together (R245). -/
def objCommit (s : State) (n o : Nat) (staged : List (Nat × Word)) (dlc : Nat) : State :=
  let s := staged.foldl (fun t e => wr t (txObj n o + 4 * e.1) e.2) s
  objPending (wrF s (txObj n o + 4) 0 4 dlc) n o

/-- The arbitration field of an identifier word as a number: the lower wins (ISO 11898-1). -/
def arbKey (w : Word) : Nat :=
  if bit w 29 then (fld w 18 11) * 2 ^ 19 + 2 ^ 18 + fld w 0 18 else (fld w 0 11) * 2 ^ 19

/-- Entries of the transmit ring. -/
def mbRing (s : State) (n : Nat) : Nat := 2 ^ min 10 (rdF s (reg (mbPg n) 0x0F0) 0 4)

/-- The address of the record at the ring's head, when the ring holds one. -/
def ringHead (s : State) (n : Nat) : Option Nat :=
  let h := rdF s (reg (mbPg n) 0x0F8) 0 10 % mbRing s n
  if h = rdF s (reg (mbPg n) 0x0F4) 0 10 % mbRing s n then none else some (rd64 s (reg (mbPg n) 0x0E8) + 80 * h)

/-- A frame with this identifier word may be sent: an FD frame only while FD_EN is 1 (R241, log 59). -/
def fdOk (s : State) (n : Nat) (w : Word) : Bool := !bit w 30 || rdB s (reg (mbPg n) 0x080) 1

/-- What the controller offers to the bus next (R246). -/
def mbNext (s : State) (n : Nat) : Option BusTx :=
  let b := bus s n
  if b.tref.isSome then some .tref
  else
    let objs := (List.range 16).filter fun o =>
      rdB s (txObj n o + 4) 8 && !b.failed.contains o && fdOk s n (rd s (txObj n o))
    let best := objs.foldl (fun (acc : Option (Nat × Nat)) o =>
      let k := arbKey (rd s (txObj n o))
      match acc with
      | none => some (k, o)
      | some (k', o') => if k < k' then some (k, o) else some (k', o')) none
    match (ringHead s n).filter (fun a => fdOk s n (w32 (ramNat s a 4))), best with
    | some a, some (k, o) => if arbKey (w32 (ramNat s a 4)) < k then some .ring else some (.obj o)
    | some _, none => some .ring
    | none, some (_, o) => some (.obj o)
    | none, none => none

/-- The next frame starts on the bus (R246). -/
def mbStart (s : State) (n : Nat) : State :=
  let b := bus s n
  if !busOn s n ∨ b.sleeping ∨ b.busOff ∨ b.onBus.isSome ∨ !stbySettled s then s
  else
    match mbNext s n with
    | none => s
    | some x =>
      let b := { b with onBus := some x, again := false }
      match x, b.tref with
      | .tref, some (nom, _) => setBus s n { b with trefPrev := some (nom, count s) }
      | _, _ => setBus s n b

/-- A pending SLEEP takes effect once the frame in progress has ended (R251). -/
def sleepSettle (s : State) (n : Nat) : State :=
  let b := bus s n
  if b.sleepReq ∧ b.onBus.isNone then setBus s n { b with sleeping := true, sleepReq := false } else s

/-- The head record of the transmit ring completes with a status (R246). -/
def ringDone (s : State) (n status : Nat) : State :=
  match ringHead s n with
  | none => s
  | some a =>
    let w := ramNat s (a + 4) 4
    let s := ramWrite s (a + 4) (leBytes 4 (w - w / 2 ^ 12 % 16 * 2 ^ 12 + status * 2 ^ 12))
    let h := rdF s (reg (mbPg n) 0x0F8) 0 10 % mbRing s n
    wr s (reg (mbPg n) 0x0F8) (w32 ((h + 1) % mbRing s n))

/-- TEC moved to a value: error-passive from 128, bus-off from 256 (R250, ISO 11898-1, log 15). -/
def tecTo (s : State) (n v : Nat) : State :=
  let old := rdF s (reg (mbPg n) 0x098) 0 8
  let s := evIf (decide (old < 128) && decide (128 ≤ v)) s (mbPg n) 5
  let s := wrF s (reg (mbPg n) 0x098) 0 8 (min 255 v)
  if 256 ≤ v then
    let b := bus s n
    ev (bump (setBus s n { b with busOff := true, recovering := rdB s (reg (mbPg n) 0x080) 3 }) (reg (mbPg n) 0x0DC))
      (mbPg n) 6
  else s

/-- A frame that was sent (R246, R248). -/
def mbSent (s : State) (n : Nat) (x : BusTx) : State :=
  let b := bus s n
  let s := setBus s n { b with onBus := none, again := false }
  let s := match x with
    | .tref => setBus s n { b with onBus := none, again := false, tref := if b.again then b.tref else none }
    | .obj o => wrB s (txObj n o + 4) 8 b.again
    | .ring => ringDone s n 0
  let s := ev (bump s (reg (mbPg n) 0x0C4)) (mbPg n) 3
  tecTo s n (rdF s (reg (mbPg n) 0x098) 0 8 - 1)

/-- A time reference replaced before it was sent (R249): the next one's bytes 6–7 read 0xFFFF. -/
def trefMissed (s : State) (n : Nat) : State :=
  let b := bus s n
  let t := b.tref.map fun e => (e.1, e.2.take 6 ++ [0xFF, 0xFF])
  ev (bump (setBus s n { b with trefPrev := none, tref := t }) (reg (mbPg n) 0x0D8)) (mbPg n) 9

/-- A frame that lost arbitration or failed: retried, or under ONESHOT not repeated (R246). -/
def mbFailed (s : State) (n : Nat) (x : BusTx) : State :=
  let b := bus s n
  let once := rdB s (reg (mbPg n) 0x080) 2
  let b' := { b with onBus := none, again := false }
  match x with
  | .tref =>
    if b.again then trefMissed (setBus s n b') n
    else setBus s n { b' with trefPrev := none, tref := if once then none else b.tref }
  | .obj o =>
    if once ∧ !b.again then ev (setBus s n { b' with failed := o :: b.failed }) (mbPg n) 4 else setBus s n b'
  | .ring => if once then ev (ringDone (setBus s n b') n 1) (mbPg n) 4 else setBus s n b'

/-- A bus transmission ends (R246, R250). -/
def mbEnd (s : State) (n : Nat) (r : BusEnd) : State :=
  match (bus s n).onBus with
  | none => s
  | some x =>
    sleepSettle (match r with
      | .sent => mbSent s n x
      | .lostArb => bump (mbFailed s n x) (reg (mbPg n) 0x0D4)
      | .error =>
        tecTo (bump (mbFailed s n x) (reg (mbPg n) 0x0D0)) n (rdF s (reg (mbPg n) 0x098) 0 8 + 8)) n

/-- Bus-off recovery completes (R250). -/
def mbRecovered (s : State) (n : Nat) : State :=
  let b := bus s n
  if b.busOff ∧ b.recovering ∧ busOn s n then
    ev (wr (setBus s n { b with busOff := false, recovering := false }) (reg (mbPg n) 0x098) 0) (mbPg n) 7
  else s

/-- The reserved entry of a bus's time reference (R248): placed while TREF.EN and CTRL.EN are 1. -/
def trefPlace (s : State) (n : Nat) : State :=
  let w := rd s (reg (mbPg n) 0x09C)
  if bit w 20 ∧ rdB s (reg (mbPg n) 0x080) 0 then
    aetPlace s (14 + n) (fld w 0 16) 0 (min 8 (fld w 16 4)) 1 8 n
  else aetDisable s (14 + n)

/-- BUS_TREF fires for a bus (R248, R249). A reference on the wire is finished with its old content, and the new one waits
behind it. -/
def trefFire (s : State) (n pos : Nat) : State :=
  let b := bus s n
  if !busOn s n ∨ !rdB s (reg (mbPg n) 0x09C) 20 then s
  else if b.sleeping then
    ev (bump (setBus s n { b with trefPrev := none }) (reg (mbPg n) 0x0D8)) (mbPg n) 9
  else
    let missed := b.tref.isSome && decide (b.onBus ≠ some .tref)
    let prev := if missed then none else b.trefPrev
    let dly := match prev with | some (nom, sof) => min 0xFFFE (sof - nom) | none => 0xFFFF
    let data := (leBytes 4 (cycleOf pos)).reverse ++ (leBytes 2 (angleOf pos)).reverse ++ (leBytes 2 dly).reverse
    let s := setBus s n { b with
      tref := some (pos, data), trefPrev := prev, again := b.again || decide (b.onBus = some .tref) }
    if missed then ev (bump s (reg (mbPg n) 0x0D8)) (mbPg n) 9 else s

/-- The nominal bit rate's period in protocol clocks of 80 MHz (R240). -/
def nbtClocks (w : Word) : Nat := (fld w 0 8 + 1) * (1 + (fld w 8 8 + 1) + (fld w 16 7 + 1))
/-- The data-phase bit rate's period in protocol clocks. -/
def dbtClocks (w : Word) : Nat := (fld w 0 5 + 1) * (1 + (fld w 8 5 + 1) + (fld w 16 4 + 1))

/-- NBT and DBT are within the ranges of R240: 125 kbit/s to 1 Mbit/s, and from the nominal rate to 5 Mbit/s. -/
def ratesOk (s : State) (n : Nat) : Bool :=
  let a := nbtClocks (rd s (reg (mbPg n) 0x090))
  let d := dbtClocks (rd s (reg (mbPg n) 0x094))
  decide (80 ≤ a) && decide (a ≤ 640) && decide (16 ≤ d) && decide (d ≤ a)

/-- A write to MBn.CTRL (R241, R251). -/
def mbCtrl (s : State) (n : Nat) (v : Word) : State :=
  let a := reg (mbPg n) 0x080
  let was := rd s a
  let old := s
  let v := v &&& 0x7F
  let b := bus s n
  if bit was 0 then
    let s' := if bit v 1 = bit was 1 then wr s a v else ev (wr s a (setFld v 1 1 (b2n (bit was 1)))) (mbPg n) 10
    if bit v 0 then s'
    else trefPlace (setBus s' n { b with onBus := none, again := false, sleeping := false, sleepReq := false }) n
  else if !bit v 0 then wr s a v
  else if !ratesOk s n then ev (wr s a (setFld v 0 1 0)) (mbPg n) 10
  else
    let s := wr (wr s a v) (reg (mbPg n) 0x098) 0
    stbyFollow old (trefPlace (setBus s n { b with
      onBus := none, again := false, got := [], group := [], tref := none, trefPrev := none, sleeping := false
      sleepReq := false, busOff := false, recovering := false, since := count s }) n)

/-- NBT, DBT and the filter table are locked while EN is 1 (R241). -/
def mbLocked (s : State) (n off : Nat) : Bool :=
  rdB s (reg (mbPg n) 0x080) 0 && (off == 0x090 || off == 0x094 || (decide (0x200 ≤ off) && decide (off < 0x600)))

/-- MBn.CMD (R250–R252, R242). -/
def mbCmd (s : State) (n cmd : Nat) : State :=
  let b := bus s n
  let on := rdB s (reg (mbPg n) 0x080) 0
  if cmd = 1 then (if on ∧ !b.sleeping then sleepSettle (setBus s n { b with sleepReq := true }) n else s)
  else if cmd = 2 then busWake s n
  else if cmd = 3 then (if b.busOff then setBus s n { b with recovering := true } else s)
  else if cmd = 4 then mbClear s n 0
  else if cmd = 5 then mbClear s n 1
  else s

/-- A frame matches the wake pattern (R252). -/
def wakeMatch (s : State) (n : Nat) (f : BusFrame) : Bool :=
  let id := rd s (reg (mbPg n) 0x0A4)
  let len := min 8 (rdF s (reg (mbPg n) 0x0AC) 0 4)
  let dat := leBytes 8 (rd64 s (reg (mbPg n) 0x0B0))
  let msk := leBytes 8 (rd64 s (reg (mbPg n) 0x0B8))
  !f.fdf && (bit id 29 == f.ide) &&
    decide ((f.id ^^^ BitVec.ofNat 29 (fld id 0 29)) &&& BitVec.ofNat 29 (rdF s (reg (mbPg n) 0x0A8) 0 29) = 0) &&
    decide (len ≤ f.data.length) && (List.range len).all fun j =>
      decide ((nthD f.data j 0 ^^^ nthD dat j 0) &&& nthD msk j 0 = 0)

/-- A dominant level or a frame on a sleeping bus (R252). -/
def mbWakeEvent (s : State) (n : Nat) (f : Option BusFrame) : State :=
  let b := bus s n
  if !b.sleeping ∨ !rdB s (reg (mbPg n) 0x080) 0 then s
  else if !rdB s (reg (mbPg n) 0x080) 5 then busWake s n
  else
    match f with
    | none => s
    | some f => if wakeMatch s n f then mbRoute (busWake s n) n f else s

/-- A write to MBn.TXR_TAIL hands frames to the ring; with AUTO_WAKE it wakes the bus (R246, R251). -/
def mbTail (s : State) (n : Nat) (v : Word) : State :=
  let s := wr s (reg (mbPg n) 0x0F4) (w32 (fld v 0 10))
  if rdB s (reg (mbPg n) 0x080) 6 ∧ (ringHead s n).isSome then busWake s n else s

/-- Owned ring records completed DISCARDED (R250). -/
def ringDiscard (s : State) (n : Nat) : Nat → State
  | 0 => s
  | k + 1 => match ringHead s n with | none => s | some _ => ringDiscard (ringDone s n 3) n k

/-- The images of a bus's frame groups that no latch has taken, discarded with the group buffers (R250). -/
def groupDrop (s : State) (n : Nat) : State :=
  match activeProg s with
  | none => s
  | some p =>
    let mine (k : Nat) : Bool := match p.stations.drop k with
      | t :: _ => t.src == 1 && (Config.stationGroup t.id).1 == n
      | [] => false
    { s with loom := { s.loom with
      stations := s.loom.stations.map fun e => if mine e.1 then (e.1, { e.2 with open_ := [] }) else e } }

/-- A fault in the controller (R250): queues and group buffers discarded, owned ring records DISCARDED. -/
def mbFault (s : State) (n : Nat) : State :=
  let b := bus s n
  ringDiscard (groupDrop (setBus s n { b with q0 := [], q1 := [], group := [], onBus := none, again := false }) n) n 1024

/-- A bus receive object as it was before a position (R113). -/
def busBefore (s : State) (n o pos : Nat) : Slot := beforePos s 2 (16 * n + o) 2 pos (busSource s n o)

/-! ### Serial field ports -/

/-- The page of serial port `n` (0–3). -/
def sfPg (n : Nat) : Nat := pSF + n

/-- A serial port. -/
def sfPort (s : State) (n : Nat) : SfPort := look .reset s.sf n

/-- A serial port replaced. -/
def setSf (s : State) (n : Nat) (p : SfPort) : State := { s with sf := put .reset s.sf n p }

/-- A serial port is enabled and its page lets it run. -/
def sfOn (s : State) (n : Nat) : Bool := rdB s (reg (sfPg n) 0x080) 0 && runs s (sfPg n)

/-- Entries of a serial ring. -/
def sfRing (s : State) (n off : Nat) : Nat := 2 ^ min 12 (rdF s (reg (sfPg n) off) 0 4)

/-- The address of the transmit descriptor at the head, when one is owned. -/
def sfHead (s : State) (n : Nat) : Option Nat :=
  let sz := sfRing s n 0x09C
  let h := rdF s (reg (sfPg n) 0x0A4) 0 12 % sz
  if h = rdF s (reg (sfPg n) 0x0A0) 0 12 % sz then none else some (rd64 s (reg (sfPg n) 0x094) + 16 * h)

/-- DE.TURN in fabric cycles of 400 MHz, at the bit rate OVS × (DIV + FRAC / 16) (R253, R254). -/
def sfTurn (s : State) (n : Nat) : Nat :=
  let w := rd s (reg (sfPg n) 0x084)
  let ovs := if rdB s (reg (sfPg n) 0x080) 6 then 8 else 16
  (rdF s (reg (sfPg n) 0x088) 16 8 * ovs * (fld w 0 20 * 16 + fld w 20 4) + 15) / 16

/-- The line has been free of characters for DE.TURN bit times, or a transmission already holds DE (R254). -/
def sfTurned (s : State) (n : Nat) : Bool :=
  rdB s (reg (sfPg n) 0x08C) 0 || (sfPort s n).lastRx.all fun t => decide (t + sfTurn s n ≤ s.clk.fabric)

/-- A transmission starts: DE is asserted (R254). -/
def sfStart (s : State) (n : Nat) : State :=
  if !sfOn s n ∨ (sfPort s n).sending ∨ !sfTurned s n then s
  else
    match sfHead s n with
    | none => s
    | some _ => wrB (setSf s n { sfPort s n with sending := true }) (reg (sfPg n) 0x08C) 0 true

/-- The head descriptor completed with a status and the position of completion (R256). -/
def sfDesc (s : State) (n status : Nat) : State :=
  match sfHead s n with
  | none => s
  | some d =>
    let s := ramWrite s (d + 11) (leBytes 1 status ++ leBytes 4 (count s))
    let sz := sfRing s n 0x09C
    wr s (reg (sfPg n) 0x0A4) (w32 ((rdF s (reg (sfPg n) 0x0A4) 0 12 % sz + 1) % sz))

/-- A transmit descriptor completes (R254, R256): DE is released unless HOLD_DE or a queued descriptor keeps it. -/
def sfDone (s : State) (n : Nat) : State :=
  if !(sfPort s n).sending then s
  else
    match sfHead s n with
    | none => setSf s n { sfPort s n with sending := false }
    | some d =>
      let len := ramNat s (d + 8) 2
      let keep := ramNat s (d + 10) 1 % 2 = 1
      let s := sfDesc s n 0
      let s := ev (bumpBy s (reg (sfPg n) 0x0C0) len) (sfPg n) 2
      let s := setSf s n { sfPort s n with sending := false }
      if keep ∨ (sfHead s n).isSome then s else wrB s (reg (sfPg n) 0x08C) 0 false

/-- A character received (R254, R256). -/
def sfReceive (s : State) (n : Nat) (c : Byte) (pe fe br : Bool) : State :=
  let pg := sfPg n
  let s := if sfOn s n then setSf s n { sfPort s n with lastRx := some s.clk.fabric } else s
  if !sfOn s n ∨ (rdB s (reg pg 0x08C) 0 ∧ !rdB s (reg pg 0x080) 5) then s
  else
    let s := if pe ∨ fe then ev (bump s (reg pg 0x0C4)) pg 4 else s
    let s := evIf br s pg 5
    let sz := sfRing s n 0x0B0
    let t := rdF s (reg pg 0x0B8) 0 12 % sz
    if (t + 1) % sz = rdF s (reg pg 0x0B4) 0 12 % sz then ev (bump s (reg pg 0x0C8)) pg 3
    else
      let d := if rdB s (reg pg 0x080) 1 then c.toNat else c.toNat % 128
      let a := rd64 s (reg pg 0x0A8) + 2 * t
      let s := ramWrite s a (leBytes 2 (d + 256 * b2n pe + 512 * b2n fe + 1024 * b2n br))
      let s := wr (bump s (reg pg 0x0BC)) (reg pg 0x0B8) (w32 ((t + 1) % sz))
      ev (setSf s n { sfPort s n with lastChar := some a }) pg 0

/-- The receive line has been idle for GAP half-bits after a character (R255): its entry is marked END. -/
def sfGap (s : State) (n : Nat) : State :=
  if !sfOn s n ∨ rdF s (reg (sfPg n) 0x080) 8 8 = 0 then s
  else
    match (sfPort s n).lastChar with
    | none => s
    | some a =>
      let w := ramNat s a 2
      ev (setSf (ramWrite s a (leBytes 2 (w - w / 2048 % 2 * 2048 + 2048))) n { sfPort s n with lastChar := none }) (sfPg n) 1

/-- The divider in sixteenths held to 300 bit/s–10 Mbit/s (R253): OVS × sixteenths between 640 and 21,333,333. -/
def baudClamp (ovs8 : Bool) (v : Word) : Word :=
  let ovs := if ovs8 then 8 else 16
  let x := fld v 0 20 * 16 + fld v 20 4
  let y := clampN (640 / ovs) (21333333 / ovs) x
  w32 (y / 16 % 2 ^ 20 + y % 16 * 2 ^ 20)

/-- CTRL or BAUD written: the rate is held to its range, EVT.CONFIG_CLAMPED (R253). -/
def sfBaud (s : State) (n : Nat) : State :=
  let a := reg (sfPg n) 0x084
  let w := baudClamp (rdB s (reg (sfPg n) 0x080) 6) (rd s a)
  if w = rd s a then s else ev (wr s a w) (sfPg n) 6

/-- Owned descriptors completed DISCARDED (R256). -/
def sfDiscard (s : State) (n : Nat) : Nat → State
  | 0 => s
  | k + 1 => match sfHead s n with | none => s | some _ => sfDiscard (sfDesc s n 3) n k

/-- A port fault (R256). -/
def sfFault (s : State) (n : Nat) : State :=
  wrB (setSf (sfDiscard s n 4096) n { sfPort s n with sending := false, lastChar := none }) (reg (sfPg n) 0x08C) 0 false

/-! ### Field I/O -/

/-- The DIAG register of input `n` (1–16). -/
def diagDi (n : Nat) : Nat := reg pFIO (0x100 + 4 * (n - 1))
/-- The DIAG register of output `c` (1–8). -/
def diagDo (c : Nat) : Nat := reg pFIO (0x140 + 4 * (c - 1))

/-- DIAG.CODE written; EVT.DIAG_CHANGED when it changes. -/
def diagCode (s : State) (a code : Nat) : State :=
  if rdF s a 0 4 = code then s else ev (wrF s a 0 4 code) pFIO 1

/-- The origin of a field input's update (R189). -/
def fioOrigin : Word := w32 (5 * 2 ^ 28 + pFIO)

/-- An input channel is in COUNT mode. -/
def diCounts (s : State) (n : Nat) : Bool := rdB s (reg pFIO (0x0A0 + 4 * (n - 1))) 8

/-- The point an input channel feeds takes a value and quality (R189, R257). -/
def diFeed (s : State) (n : Nat) (v : Bool) (q : Nat) : State :=
  match Config.diPoint n with
  | some p => ptFeed s pFIO p (w32 (b2n v)) q
  | none => s

/-- The field supply is low. -/
def fldUv (s : State) : Bool := rdB s (reg pFIO 0x080) 3

/-- Channel `n` of a bit register. -/
def chBit (s : State) (off n : Nat) : Bool := rdB s (reg pFIO off) (n - 1)

/-- The filter of a digital input accepts a value (R257). -/
def diAccept (s : State) (n : Nat) (v : Bool) : State :=
  if diCounts s n ∨ !runs s pFIO ∨ fldUv s ∨ chBit s 0x08C n ∨ rdB s (diagDi n) 4 ∨ cellOut s pFIO (n - 1) then s
  else diFeed (wrB s (reg pFIO 0x088) (n - 1) v) n v qGOOD

/-- A wire break (R258): the value reads 0 with quality BAD. -/
def diBreak (s : State) (n : Nat) : State :=
  if diCounts s n ∨ !rdB s (reg pFIO (0x0A0 + 4 * (n - 1))) 9 ∨ !runs s pFIO ∨ rdB s (diagDi n) 4 then s
  else
    let s := wrB (wrB s (reg pFIO 0x088) (n - 1) false) (reg pFIO 0x08C) (n - 1) true
    diFeed (diagCode s (diagDi n) 1) n false qBAD

/-- A wire break clears (R258). -/
def diUnbreak (s : State) (n : Nat) : State :=
  if rdF s (diagDi n) 0 4 = 1 ∧ chBit s 0x08C n ∧ !fldUv s ∧ !rdB s (diagDi n) 4 then
    diFeed (diagCode (wrB s (reg pFIO 0x08C) (n - 1) false) (diagDi n) 0) n (chBit s 0x088 n) qGOOD
  else s

/-- FREQn (R259): the reciprocal of the mean interval of the edges of the last 100 ms, or of the last two within 10 s;
0 after 10 s without an edge. The spec states no rounding to Q16.16: the value below or above (log 5). -/
def diFreq (s : State) (n : Nat) : Word :=
  let now := s.clk.fabric
  let es := (look [] s.fio.edges n).filter fun e => decide (now ≤ e + 4000000000)
  let recent := es.filter fun e => decide (now ≤ e + 40000000)
  let used := if 2 ≤ recent.length then recent else es.take 2
  if used.length < 2 then 0
  else w32 (whole (0x6C00 + n) ⟨((used.length - 1) * Config.fabricHz * 65536 : Nat), max 1 (used.headD 0 - used.getLastD 0)⟩)

/-- A DI channel's frequency as a loop source (R126): BAD when not in frequency mode. -/
def freqSource (s : State) (n : Nat) : Slot :=
  if diCounts s n then ⟨.q16, diFreq s n, qGOOD⟩ else ⟨.q16, 0, qBAD⟩

/-- The INPUT points that the counter and the frequency of an input feed (R61, R189). -/
def cntFeed (s : State) (n : Nat) : State :=
  let s := match Config.cntPoint n with
    | some p => ptFeed s pFIO p (rd s (reg pFIO (0x160 + 4 * (n - 1)))) qGOOD
    | none => s
  match Config.freqPoint n with
  | some p => ptFeed s pFIO p (diFreq s n) qGOOD
  | none => s

/-- A rising edge at a counting input (R259); edge times are taken to 10 ns, 4 fabric cycles. -/
def diEdge (s : State) (n : Nat) : State :=
  if !diCounts s n ∨ !runs s pFIO ∨ fldUv s ∨ rdB s (diagDi n) 4 then s
  else
    let s := tally s (reg pFIO (0x160 + 4 * (n - 1)))
    let t := s.clk.fabric / 4 * 4
    let es := (t :: look [] s.fio.edges n).filter fun e => decide (t ≤ e + 4000000000)
    cntFeed { notePast s 2 n 1 0 (freqSource s n) with fio := { s.fio with edges := put [] s.fio.edges n es } } n

/-- The frequencies of the counting inputs brought up to the present for the points that they feed, as a latch finds them:
without edges they fall as time passes (R259, log 12). -/
def freqFeed (s : State) : State :=
  (List.range 16).foldl (fun t k =>
    match Config.freqPoint (k + 1) with
    | some p =>
      let q := point t p
      if diCounts t (k + 1) ∧ q.cls = 1 ∧ !q.retired ∧ q.value ≠ diFreq t (k + 1) then
        setPoint t p (Point.stamp q { q with value := diFreq t (k + 1), seq := q.seq + 1, writer := fioOrigin } (count t))
      else t
    | none => t) s

/-- The same as it was before a position: without the edges that came on its fabric cycle (R113). -/
def freqBefore (s : State) (n pos : Nat) : Slot := beforePos s 2 n 1 pos (freqSource s n)

/-- The selected counters cleared (R259). -/
def cntClear (s : State) (v : Word) : State :=
  (List.range 16).foldl (fun t k => if bit v k then wr t (reg pFIO (0x160 + 4 * k)) 0 else t) s

/-- An input enters COUNT mode (R259): its counter starts at 0, its frequency without edges. -/
def diCountOn (s : State) (n : Nat) : State :=
  { wr s (reg pFIO (0x160 + 4 * (n - 1))) 0 with fio := { s.fio with edges := put [] s.fio.edges n [] } }

/-- DO channel `c` is owned by REGISTER. -/
def doReg (s : State) (c : Nat) : Bool := rdB s (reg pFIO 0x09C) (c - 1)
/-- DO channel `c` is angle-switched. -/
def doAngle (s : State) (c : Nat) : Bool := rdB s (reg pFIO 0x09C) (c + 7)
/-- DO_SAFE of channel `c`. -/
def doSafe (s : State) (c : Nat) : Bool := rdB s (reg pFIO 0x098) (c - 1)

/-- The owner's value of a channel: DO_SAFE until the owner first supplies one (R260 rule 5). -/
def doOwner (s : State) (c : Nat) : Bool :=
  (get? (if doReg s c then s.fio.cmd else s.fio.loom) c).getD (doSafe s c)

/-- The value of rules 1–3 of R260, which act at once, if one applies; off during the off-pulse of its
test (R263), and DO_SAFE while FIO is stopped after it has been enabled (R307, R326, R369). -/
def doForcedOff (s : State) (c : Nat) : Option Bool :=
  if rdB s (diagDo c) 4 then some false
  else if fldUv s then some false
  else if (elemSt s (cellWord pFIO (15 + c))).phase == .testing then some false
  else if s.guard.safe ∨ s.guard.dead then some (doSafe s c)
  else if !runs s pFIO then some (s.fio.live && doSafe s c)
  else none

/-- The effective value of a channel (R260). -/
def doEffective (s : State) (c : Nat) : Bool :=
  match doForcedOff s c with
  | some v => v
  | none => (get? s.fio.forced c).getD (doOwner s c)

/-- A channel's output as switched, and its readback, set. -/
def doDrive (s : State) (c : Nat) (v : Bool) : State :=
  let w := setFld (BitVec.ofNat 32 s.fio.out.toNat) (c - 1) 1 (b2n v)
  { s with fio := { s.fio with out := BitVec.ofNat 8 w.toNat } }

/-- A channel follows its effective value (R260): at once under rules 1–3 or without ANGLE_EN, else at its entry. -/
def doFollow (s : State) (c : Nat) : State :=
  let v := doEffective s c
  if (doForcedOff s c).isSome ∨ !doAngle s c then doDrive s c v else s

/-- FIO.DO_STATE follows the channels: effective values and readback; a channel off by shutdown reads back low. -/
def doRefresh (s : State) : State :=
  let eff := ((List.range 8).map fun k => b2n (doEffective s (k + 1)) * 2 ^ k).sum
  let rb := s.fio.out &&& ~~~s.fio.thermal
  wr s (reg pFIO 0x090) (w32 (eff + rb.toNat * 256))

/-- Every channel brought to its effective value. -/
def doSync (s : State) : State :=
  doRefresh ((List.range 8).foldl (fun t k => doFollow t (k + 1)) s)

/-- A value committed by Loom for a channel (R66, R260). -/
def doLoom (s : State) (c : Nat) (v : Word) : State :=
  { s with fio := { s.fio with loom := ins s.fio.loom c (bit v 0) } }

/-- The DO channel forces brought into effect at a commit (R107). -/
def doForces (s : State) : State :=
  { s with fio := { s.fio with
    forced := (List.range 8).foldl (fun m k =>
      match forceOf s 3 (k + 1) with | some v => ins m (k + 1) (bit v 0) | none => m) [] } }

/-- A write to FIO.DO_CMD: only channels with SEL take VALUE (R260). -/
def doCmd (s : State) (v : Word) : State :=
  let s := { s with fio := { s.fio with
    cmd := (List.range 8).foldl (fun m k => if bit v (8 + k) then ins m (k + 1) (bit v k) else m) s.fio.cmd } }
  doSync (wr s (reg pFIO 0x094) (w32 (fld v 0 16)))

/-- The reserved entries of angle switching (R261). -/
def doPlace (s : State) (c : Nat) : State :=
  let w := rd s (reg pFIO (0x0E0 + 4 * (c - 1)))
  if doAngle s c ∧ runs s pFIO then
    aetPlace (aetPlace s (22 + 2 * (c - 1)) (fld w 0 16) 0 0 1 9 (c - 1 + 256)) (23 + 2 * (c - 1)) (fld w 16 16) 0 0 1 9
      (c - 1)
  else aetDisable (aetDisable s (22 + 2 * (c - 1))) (23 + 2 * (c - 1))

/-- FIO_SWITCH fires: the ON entry switches a channel whose value is ON, the OFF entry one whose value is OFF (R261). -/
def fioSwitch (s : State) (c : Nat) (edge : Bool) : State :=
  if !doAngle s c ∨ !runs s pFIO then s
  else
    match doForcedOff s c with
    | some _ => s
    | none => if doEffective s c = edge then doRefresh (doDrive s c edge) else s

/-- A bit of an 8-channel vector set or cleared. -/
def ch8 (w : BitVec 8) (c : Nat) (b : Bool) : BitVec 8 :=
  BitVec.ofNat 8 (setFld (BitVec.ofNat 32 w.toNat) (c - 1) 1 (b2n b)).toNat

/-- A shorted output reaches thermal shutdown and turns off (R262, R263): cause THERMAL. -/
def doThermal (s : State) (c : Nat) : State :=
  doRefresh { diagCode s (diagDo c) 3 with
    fio := { s.fio with thermal := ch8 s.fio.thermal c true } }

/-- A channel off by shutdown is released once its effective value has been OFF for 10 ms (R262). -/
def doRelease (s : State) (c : Nat) : State :=
  if doEffective s c then s
  else doRefresh { s with fio := { s.fio with thermal := ch8 s.fio.thermal c false } }

/-- FL_24V falls below 18 V (R263): every input BAD, every output undriven. -/
def fieldLow (s : State) : State :=
  if fldUv s then s
  else
    let s := ev (wrB s (reg pFIO 0x080) 3 true) pFIO 2
    let s := wr s (reg pFIO 0x08C) 0xFFFF
    doSync ((List.range 16).foldl (fun t k => diFeed t (k + 1) (chBit t 0x088 (k + 1)) qBAD) s)

/-- FL_24V back at 19.2 V for 100 ms (R263): inputs with a wire break or retired stay BAD. -/
def fieldBack (s : State) : State :=
  if !fldUv s then s
  else
    let s := wrB s (reg pFIO 0x080) 3 false
    let bad (k : Nat) : Bool := rdF s (diagDi (k + 1)) 0 4 == 1 || rdB s (diagDi (k + 1)) 4
    let s := wr s (reg pFIO 0x08C) (w32 ((List.range 16).map fun k => b2n (bad k) * 2 ^ k).sum)
    doSync ((List.range 16).foldl (fun t k =>
      if bad k then t else diFeed t (k + 1) (chBit t 0x088 (k + 1)) qGOOD) s)

/-- FIO enabled: each channel drives DO_SAFE until its owner first supplies a value (R260). -/
def fioEnable (s : State) : State :=
  let s := { s with fio := { s.fio with loom := [], cmd := [], live := true } }
  doSync ((List.range 8).foldl (fun t k => doPlace t (k + 1)) s)

end Sys2Proof.Machine
end

