-- ==== Sys2Proof/Machine/LoopLaw.lean ====
section
/-!
DEFINITION. The control law of a loop and its arithmetic (R119–R121, R123, R125): accumulators are numbers in units of
2^-32, signals and coefficients in units of 2^-16, biquad coefficients in units of 2^-30.
-/

namespace Sys2Proof.Machine

/-- The words of a loop record as sampled, by offset. -/
def recAt (r : List Word) (off : Nat) : Word := nthD r (off / 4) 0

/-- A signed word of a loop record. -/
def recI (r : List Word) (off : Nat) : Int := sw (recAt r off)

/-- The law state that a sample carries to the next (R119). -/
structure Law where
  integ : Int
  d : Int
  ed : Int
  v1 : Int
  v2 : Int
  w1 : Int
  w2 : Int
  closing : Bool
  afterFault : Bool
  deriving DecidableEq, Repr

/-- A value placed into an accumulator: clamped to 48 bits, with whether it was (R121). -/
def acc48 (x : Int) : Int × Bool :=
  let c := clampI (-(2 ^ 47)) (2 ^ 47 - 1) x
  (c, decide (c ≠ x))

/-- A product with 48 fraction bits rounded to 32 (R121). -/
def rnd16 (x : Int) : Int := roundAway x 65536

/-- A product with a Q2.30 coefficient rounded to 32 fraction bits (R121). -/
def rnd30 (x : Int) : Int := roundAway x 1073741824

/-- A flag's bit. -/
def flagBit (n : Nat) (b : Bool) : Nat := if b then 2 ^ n else 0

/-- Steps 8 and 9 (R119, R120): rate limit about u(n−1), then the output limits; the output and its flags. -/
def limitStep (w u1 rate lo hi : Int) : Int × Nat :=
  let ur := if 0 < rate then clampI (u1 - rate) (u1 + rate) w else w
  let fr := flagBit 8 (decide (ur ≠ w))
  if hi < lo then (hi, fr ||| flagBit 6 true ||| flagBit 7 true)
  else if hi < ur then (hi, fr ||| flagBit 6 true)
  else if ur < lo then (lo, fr ||| flagBit 7 true)
  else (ur, fr)

/-- What a computation leaves: the output in accumulator units, the flags and the law state. -/
structure LawOut where
  u : Int
  fl : Nat
  law : Law
  deriving DecidableEq, Repr

/-- e_d(n) (R119 step 1). -/
def edOf (r : List Word) (sp y : Int) : Int := recI r 0x40 * sp - y * 65536

/-- D(n) with SAT_D (R119 step 3, R128). -/
def dStep (r : List Word) (l : Law) (ed : Int) : Int × Bool :=
  let edp := if l.afterFault then ed else l.ed
  acc48 (rnd16 (recI r 0x34 * l.d) + rnd16 (recI r 0x38 * (ed - edp)))

/-- A sample in OPEN_MANUAL or OPEN_TRACK (R123). -/
def manualStep (r : List Word) (l : Law) (sp y track u1 : Int) : LawOut :=
  let ed := edOf r sp y
  let d := dStep r l ed
  let man := fld (recAt r 0) 0 2 != 1
  let w := (if man then recI r 0x28 else track) * 65536
  let rate := if man then recI r 0x4C * 65536 else 0
  let o := limitStep w u1 rate (recI r 0x54 * 65536) (recI r 0x50 * 65536)
  ⟨o.1, flagBit 2 d.2 ||| o.2, { l with d := d.1, ed := ed, closing := true, afterFault := false }⟩

/-- The biquad of step 7. -/
def biquad (r : List Word) (l : Law) (v : Int) : Int × Bool :=
  if bit (recAt r 0) 3 then
    acc48 (rnd30 (recI r 0x58 * v) + rnd30 (recI r 0x5C * l.v1) + rnd30 (recI r 0x60 * l.v2) -
      rnd30 (recI r 0x64 * l.w1) - rnd30 (recI r 0x68 * l.w2))
  else (v, false)

/-- Anti-windup (R120): I(n) with whether it clamped. -/
def antiWindup (r : List Word) (iPrev iPre kie u w : Int) : Int × Bool :=
  if bit (recAt r 0) 2 then acc48 (iPre + rnd16 (recI r 0x48 * (u - w)))
  else if u ≠ w ∧ ((0 < kie ∧ u < w) ∨ (kie < 0 ∧ w < u)) then (iPrev, false)
  else (iPre, false)

/-- A sample in CLOSED (R119, R125). -/
def closedStep (r : List Word) (l : Law) (sp y f u1 : Int) : LawOut :=
  let ed := edOf r sp y
  let d := dStep r l ed
  let p := acc48 (rnd16 (recI r 0x2C * (recI r 0x3C * sp - y * 65536)))
  let ff := acc48 (recI r 0x44 * f)
  let closing := l.closing || l.afterFault
  let kie := if closing then 0 else recI r 0x30 * (sp - y)
  let ip := if closing then acc48 (u1 - p.1 - d.1 - ff.1) else acc48 (l.integ + kie)
  let l1 := if closing then { l with v1 := u1, v2 := u1, w1 := u1, w2 := u1 } else l
  let v := acc48 (p.1 + ip.1 + d.1 + ff.1)
  let w := biquad r l1 v.1
  let o := limitStep w.1 u1 (recI r 0x4C * 65536) (recI r 0x54 * 65536) (recI r 0x50 * 65536)
  let i := if closing then (ip.1, false) else antiWindup r l.integ ip.1 kie o.1 w.1
  ⟨o.1, flagBit 0 p.2 ||| flagBit 1 (ip.2 || i.2) ||| flagBit 2 d.2 ||| flagBit 3 ff.2 ||| flagBit 5 (v.2 || w.2) ||| o.2,
   { integ := i.1, d := d.1, ed := ed, v1 := v.1, v2 := l1.v1, w1 := w.1, w2 := l1.w1, closing := false, afterFault := false }⟩

/-- An accumulator as Q16.16: rounded to nearest, ties away from zero, and no further than the largest value (R121,
log 29). -/
def accQ (x : Int) : Word := i32 (clampI (-2147483648) 2147483647 (roundAway x 65536))

end Sys2Proof.Machine
end

