-- ==== Sys2Proof/Machine/LacOps.lean ====
section
/-!
DEFINITION. Millwheel's tracker (R38–R51): references and their validity, the state table of R44, corrections and
forward steps, the sync pulses, and the reads of the LAC page. An action due at a forward step waits in `lac.deferred`
until the firing that the step's command makes.
-/

namespace Sys2Proof.Machine

/-- LAC.CTRL. -/
def lacCtrl (s : State) : Word := rd s (reg pLAC 0x080)

/-- LAC.STAT.SOURCE_EFF of a SOURCE under ISLAND (R40). -/
def sourceOf (ctrl : Word) (island : Bool) : Nat := if island && fld ctrl 0 2 == 0 then 3 else fld ctrl 0 2

/-- LAC.STAT.SOURCE_EFF (R40). -/
def sourceEff (s : State) : Nat := sourceOf (lacCtrl s) (mISLAND s)

/-- The number of a tracker state in LAC.STAT. -/
def trackN : Track → Nat
  | .acquire => 0
  | .locked => 1
  | .flywheel => 2
  | .synthetic => 3

/-- LAC.STAT: SLEWING while the frequency has not reached its target, CORRECTING during quickening or slowing. -/
def lacStat (s : State) : Word :=
  w32 (trackN s.lac.track + sourceEff s * 16 + b2n (decide (s.clk.freq ≠ s.clk.target) && s.lac.inService) * 256 +
    b2n (decide (s.clk.corrNow ≠ 0)) * 512 + b2n s.lac.inService * 1024)

/-- LAC.FREQ in mHz: the tracked frequency, the nominal one in SYNTHETIC, and its reset value 0 until the tracker starts
(R57). -/
def lacFreq (s : State) : Word :=
  if !s.lac.started then 0
  else if s.lac.track = .synthetic then w32 (nominalFreq s / 1000)
  else w32 (s.clk.freq / 1000)

/-- LAC.PHERR: the signed phase error as last observed, 0 in SYNTHETIC (R57, log 54). -/
def lacPherr (s : State) : Word := if s.lac.track = .synthetic then 0 else i32 s.lac.seen.ph &&& 0xFFFF

/-- The tracker moves to a frequency in µHz: at once before IN_SERVICE, under the slew limit after (R39). -/
def seek (s : State) (f : Nat) : State :=
  { s with clk := if s.lac.inService then { s.clk with target := f }
                  else { s.clk with target := f, freq := f, slewAt := s.clk.fabric } }

/-- A span of synchronism, LOCKED to VOLTAGE with no step in it, ends at the present position (R145). -/
def syncLeave (s : State) : State :=
  match s.lac.syncFrom with
  | some p => { s with lac := { s.lac with syncFrom := none, spans := ((p, count s) :: s.lac.spans).take 8 } }
  | none => s

/-- A span of synchronism begins: after a step that stands at the present position, from the next one on (R145). -/
def syncEnter (s : State) : State :=
  if sourceEff s ≠ 0 then s
  else { s with lac := { s.lac with syncFrom := some (count s + b2n (decide (s.lac.stepTo = count s))) } }

/-- Throughout the window [a, b) the tracker was LOCKED with VOLTAGE effective and no forward step occurred (R145). -/
def inSync (s : State) (a b : Nat) : Bool :=
  (match s.lac.syncFrom with | some p => decide (p ≤ a) | none => false) ||
    s.lac.spans.any fun e => decide (e.1 ≤ a) && decide (b ≤ e.2)

/-- The present frequency held; a correction of R48, which acts while LOCKED, ends with it. -/
def hold (s : State) : State := syncLeave { s with clk := { s.clk with target := s.clk.freq, corrNow := 0, corrLeft := 0 } }

/-- IN_SERVICE set; the first position evaluated is the one after the present (R45). -/
def putInService (s : State) : State :=
  if s.lac.inService then s else { s with lac := { s.lac with inService := true, evald := count s } }

/-- SYNTHETIC entered: nominal frequency as a change of rate (R44). -/
def toSynthetic (s : State) : State :=
  let s := hold s
  let s := seek s (nominalFreq s)
  putInService (ev { s with lac := { s.lac with track := .synthetic, fly := none } } pLAC 2)

/-- A change of REFCH takes force where the voltage reference is sought anew: at a reference change, or on entry into ACQUIRE
with VOLTAGE effective (R38). -/
def takeRefch (s : State) : State :=
  if sourceEff s = 0 then { s with lac := { s.lac with refch := fld (lacCtrl s) 4 3, sagged := false } } else s

/-- The tracker starts in ACQUIRE (R44). -/
def trackerStart (s : State) : State :=
  if s.lac.started then s
  else
    let s := { s with lac := { s.lac with
      started := true, track := .acquire, from_ := .reset, refValid := false, startAt := s.clk.fabric } }
    if sourceEff s = 3 then toSynthetic s else takeRefch s

/-- The flywheel limit in fabric cycles: FLY_LIMIT seconds. -/
def flyMax (s : State) : Nat := fld (lacCtrl s) 24 4 * Config.fabricHz

/-- The flywheel time has reached FLY_LIMIT (R44). -/
def flyDone (s : State) : Bool :=
  match s.lac.fly with
  | some t => decide (t + flyMax s ≤ s.clk.fabric)
  | none => false

/-- FLYWHEEL entered: the frequency held, EVT.FLYWHEEL (R44). -/
def toFlywheel (s : State) : State :=
  ev (hold { s with lac := { s.lac with track := .flywheel } }) pLAC 1

/-- The reference in use becomes invalid (R41–R44). -/
def refInvalid (s : State) : State :=
  if !s.lac.started ∨ sourceEff s = 3 then s
  else
    let s := { s with lac := { s.lac with refValid := false } }
    match s.lac.track with
    | .locked =>
      toFlywheel (ev { s with lac := { s.lac with fly := some s.clk.fabric } } pLAC 0)
    | .acquire =>
      match s.lac.from_ with
      | .reset => s
      | .synthetic => toSynthetic s
      | .locked => if flyDone s then toSynthetic s else toFlywheel s
    | _ => s

/-- A frequency in mHz within the lock range of R38. -/
def inLockRange (f : Nat) : Bool := decide (42500 ≤ f) && decide (f ≤ 69000)

/-- The fundamental of the reference channel, in mV, is at or above a percentage of the channel's NOMINAL (R41). A NOMINAL that
is no finite number is never met (log 54). -/
def magAbove (s : State) (mag pct : Nat) : Bool :=
  match fracT .float32 (rd s (reg 0x29 (0x108 + 0x100 * s.lac.refch))) with
  | some x => decide ((pct : Int) * x.num * 10 ≤ (mag * x.den : Nat))
  | none => false

/-- LAC.CTRL.SAG_THR in percent. -/
def sagThr (s : State) : Nat := fld (lacCtrl s) 16 8

/-- The voltage reference is found invalid by its magnitude, its frequency, or while LOCKED its phase error (R41). -/
def voltBad (s : State) (x : RefSeen) : Bool :=
  !magAbove s x.mag (sagThr s) || !inLockRange x.freq || (s.lac.track == .locked && decide (4096 ≤ x.ph.natAbs))

/-- The voltage reference is valid: after it was invalid, at 5 percentage points above SAG_THR (R41). -/
def voltGood (s : State) (x : RefSeen) : Bool :=
  magAbove s x.mag (sagThr s + if s.lac.sagged then 5 else 0) && inLockRange x.freq

/-- The reference in use is valid at a frequency in mHz, with a phase error in au (R41–R44, R48): in ACQUIRE the tracker moves to
its frequency, and LOCKED it steers. -/
def refValid (s : State) (f : Nat) (ph : Int) : State :=
  if !s.lac.started ∨ sourceEff s = 3 then s
  else
    let s := { s with lac := { s.lac with refValid := true, seen := { s.lac.seen with ph := ph } } }
    match s.lac.track with
    | .flywheel => takeRefch (hold { s with lac := { s.lac with track := .acquire, from_ := .locked } })
    | .synthetic => takeRefch { s with lac := { s.lac with track := .acquire, from_ := .synthetic } }
    | .locked => seek s (Config.steer f ph)
    | .acquire => seek s (f * 1000)

/-- A sample of the reference channel reaches the tracker while the voltage reference is in use, whatever the channel's ENABLE holds
(R38): the tracker measures the reference anew. -/
def refSample (s : State) (c : Nat) : State :=
  if !s.lac.started ∨ sourceEff s ≠ 0 ∨ c ≠ s.lac.refch then s
  else
    let x := Config.refSeen s.free
    { s with free := s.free + 1, lac := { s.lac with seen := ⟨x.1, x.2.1, x.2.2⟩ } }

/-- REFERENCE_INVALID: the voltage reference is assessed as last measured, while it is the one in use (R41). -/
def voltInvalid (s : State) : State :=
  if sourceEff s ≠ 0 ∨ !voltBad s s.lac.seen then s else refInvalid { s with lac := { s.lac with sagged := true } }

/-- REFERENCE_VALID: the reference in use has met its condition; a voltage reference by the least magnitude of the last whole
cycle, the others by their pulses and messages (R41–R43). -/
def referenceValid (s : State) (x : RefSeen) : State :=
  let ok :=
    if sourceEff s = 0 then voltGood s x
    else if sourceEff s = 1 then decide (2 ≤ s.lac.syncGood) && inLockRange x.freq
    else decide (2 ≤ s.lac.netGood)
  if !ok then s
  else refValid { s with lac := { s.lac with sagged := s.lac.sagged && sourceEff s != 0, seen := x } } x.freq x.ph

/-- A reference change (R44): the new reference is sought. -/
def refChange (s : State) : State :=
  if !s.lac.started then s
  else
    let s := { s with lac := { s.lac with
      refValid := false, syncAt := none, syncGood := 0, netAt := none, netGood := 0, netArr := none } }
    let s := takeRefch s
    if sourceEff s = 3 then (if s.lac.track = .synthetic then s else toSynthetic s)
    else
      match s.lac.track with
      | .locked =>
        hold { s with lac := { s.lac with track := .acquire, from_ := .locked, fly := some s.clk.fabric } }
      | .flywheel => hold { s with lac := { s.lac with track := .acquire, from_ := .locked } }
      | _ => s

/-- e folded into −32,768 to +32,767 au (R48). -/
def foldAu (e : Int) : Int := (e + 32768) % 65536 - 32768

/-- The count moved forward to a position: only its fraction is lost. -/
def moveTo (s : State) (pos : Nat) : State :=
  { s with clk := { s.clk with acc := max s.clk.acc (pos * Config.accOne) } }

/-- A forward step of `e` au (R49): skipped entries fire LATE at the step, entries at its end without LATE. -/
def forwardStep (s : State) (e : Nat) : State :=
  let a := count s
  let due := if s.lac.inService then aetStepDue s a (a + e) else []
  let s := moveTo { s with lac := { s.lac with
    deferred := s.lac.deferred ++ due, evald := max s.lac.evald (a + e), stepFrom := a, stepTo := a + e } } (a + e)
  ev (wr { s with clk := { s.clk with corrNow := 0, corrLeft := 0 } } (reg pLAC 0x09C) (w32 (e % 65536))) pLAC 4

/-- The last forward step skipped a position (R49). -/
def skipped (s : State) (pos : Nat) : Bool := decide (s.lac.stepFrom < pos) && decide (pos < s.lac.stepTo)

/-- Quickening (e > 0) or slowing (e < 0) begins: at most 655 au in each cycle (R48). -/
def correctBy (s : State) (e : Int) : State :=
  let c := clampI (-655) 655 e
  { s with clk := { s.clk with corrNow := c, corrLeft := e - c, corrEnd := count s + 65536 } }

/-- The correction of R48 for a phase difference. -/
def correction (s : State) (e : Int) : State :=
  if e = 0 then { s with clk := { s.clk with corrNow := 0, corrLeft := 0 } }
  else if 655 < e then forwardStep s e.toNat
  else if -655 ≤ e ∨ !bit (lacCtrl s) 9 then correctBy s e
  else forwardStep s (65536 + e).toNat

/-- A cycle of quickening or slowing ends: the clock goes on to its end (R48). -/
def corrCycleEnd (s : State) : State := if s.clk.corrNow = 0 then s else reachPos s s.clk.corrEnd

/-- The master's position now, at a reference angle: the one at that angle nearest to what the last TIME_REF makes it (R46). -/
def masterPos (s : State) (refAngle : Nat) : Nat :=
  let m := (count s : Int) + s.lac.netOff
  (m + foldAu ((refAngle : Int) - m)).toNat

/-- The lock that sets IN_SERVICE (R44–R46): the count moves to the reference angle, firing nothing. -/
def firstLock (s : State) (refAngle f : Nat) : State :=
  let s := seek s (f * 1000)
  let a := count s
  let p := if angleOf a = refAngle then a else nextAt a refAngle
  let p := if sourceEff s = 2 ∧ cycleOf p < cycleOf (masterPos s refAngle) then masterPos s refAngle else p
  syncEnter (putInService (moveTo { s with lac := { s.lac with track := .locked, fly := none, seen := { s.lac.seen with ph := 0 } } } p))

/-- The tracker has converged (R44): the entry into LOCKED. Re-acquiring, it waits until its frequency agrees with the
reference's (R39). -/
def converged (s : State) (refAngle f : Nat) : State :=
  if s.lac.track ≠ .acquire ∨ !s.lac.refValid ∨ !inLockRange f then s
  else if !s.lac.inService then firstLock s refAngle f
  else if s.clk.freq ≠ f * 1000 then seek s (f * 1000)
  else
    let e := foldAu ((refAngle : Int) - (angleOf (count s) : Int))
    syncEnter (correction (ev { s with lac := { s.lac with track := .locked, fly := none, seen := { s.lac.seen with ph := e } } } pLAC 3) e)

/-- No valid reference within 500 ms of the start (R44). -/
def acquireFail (s : State) : State :=
  if s.lac.started ∧ s.lac.track = .acquire ∧ s.lac.from_ = .reset ∧ !s.lac.inService ∧ !s.lac.refValid then
    toSynthetic { s with clk := s.clk.untilFabric (s.lac.startAt + msFabric 500) }
  else s

/-- The flywheel time reaches FLY_LIMIT in FLYWHEEL (R44). -/
def flyEnd (s : State) : State :=
  match s.lac.track, s.lac.fly with
  | .flywheel, some t =>
    toSynthetic { s with clk := s.clk.untilFabric (t + flyMax s) }
  | _, _ => s

/-- The SYNC_PIN reference becomes invalid (R42). -/
def syncInvalid (s : State) : State :=
  refInvalid (ev { s with lac := { s.lac with syncGood := 0 } } pLAC 6)

/-- SYNC_MISSING (R42): no pulse arrives within 1.25 cycle periods, as held at the pulse before, after it. -/
def syncLost (s : State) : State :=
  match s.lac.syncAt with
  | some t =>
    if sourceEff s = 1 then
      syncInvalid { s with clk := s.clk.untilFabric (t + s.lac.syncPer * 5 / 4), lac := { s.lac with syncAt := none } }
    else s
  | none => s

/-- The cycle period of the frequency that the tracker holds, in fabric cycles (R42). -/
def heldPeriod (s : State) : Nat := Config.fabricHz * 1000 / (lacFreq s).toNat

/-- Angle 0 stood at the pin a number of fabric cycles ago: the phase error of that observation, in au. -/
def pinError (s : State) (ago : Nat) : Int := foldAu (((ago * s.clk.step / Config.accOne : Nat) : Int) - (count s : Int))

/-- An edge on ANG_SYNC_IN (R42): its time is reduced by IN_COMP, 4 fabric cycles a unit. -/
def syncEdge (s : State) (rising : Bool) : State :=
  if rising = bit (lacCtrl s) 11 then s
  else
    let comp := rdF s (reg pLAC 0x0A8) 8 8 * 4
    let t := s.clk.fabric - comp
    let good := match s.lac.syncAt with
      | some t0 => decide (Config.fabricHz ≤ (t - t0) * 69) && decide ((t - t0) * 85 ≤ Config.fabricHz * 2)
      | none => false
    let u := { s with lac := { s.lac with
      syncAt := some t, syncPer := heldPeriod s, syncGood := if good then s.lac.syncGood + 1 else 0 } }
    match s.lac.syncAt with
    | none => u
    | some t0 =>
      if good then
        if sourceEff s = 1 ∧ 2 ≤ u.lac.syncGood then refValid u (Config.fabricHz * 1000 / (t - t0)) (pinError s comp) else u
      else if sourceEff s = 1 ∧ s.lac.refValid then syncInvalid u
      else u

/-- NETREF_LOST (R43): 1 s without a TIME_REF of the named session after the last one. -/
def netLost (s : State) : State :=
  match s.lac.netAt with
  | some t =>
    if sourceEff s = 2 then
      refInvalid (ev { s with
        clk := s.clk.untilFabric (t + Config.fabricHz), lac := { s.lac with netAt := none, netGood := 0 } } pLAC 7)
    else s
  | none => s

/-- A number of nanoseconds in au at the tracked frequency. -/
def nsAu (s : State) (ns : Nat) : Nat := ns * s.clk.freq * 65536 / 1000000000000000

/-- A TIME_REF of the named session accepted (R43, R46, R237): the master's position of its transmission, the count of its
arrival at the MAC, its PREV_TX and the master's frequency in mHz. PREV_TX pairs with the arrival of the message before, less
TREF_COMP; a first message stands for its own header. -/
def netRef (s : State) (master arr prevTx freq : Nat) : State :=
  let now := s.clk.fabric
  let comp := nsAu s (rdF s (reg pOPX 0x094) 0 16)
  let good := match s.lac.netAt with
    | some t => if now ≤ t + Config.fabricHz then s.lac.netGood + 1 else 0
    | none => 0
  let off : Int := match s.lac.netArr with
    | some a => (prevTx : Int) - ((a : Int) - comp)
    | none => (master : Int) - ((arr : Int) - comp)
  let s := { s with lac := { s.lac with netAt := some now, netGood := good, netArr := some arr, netOff := off } }
  let s := wr s (reg pLAC 0x0B0) (i32 ((cycleOf master : Int) - (cycleOf (count s) : Int)))
  if sourceEff s = 2 ∧ 2 ≤ good then refValid s freq (foldAu off) else s

/-- LAC.CTRL as it acts and reads: REFCH 6 and 7 as 0, SAG_THR 10–90, FLY_LIMIT 1–10. -/
def ctrlClean (v : Word) : Word :=
  let v := v &&& 0x0FFF0F73
  let v := if fld v 4 3 < 6 then v else setFld v 4 3 0
  let v := setFld v 16 8 (clampN 10 90 (fld v 16 8))
  setFld v 24 4 (clampN 1 10 (fld v 24 4))

/-- The tracker follows a change of NOMINAL where it runs at the nominal frequency (R33, R44). -/
def nominalStep (s : State) : State :=
  if !s.lac.started ∨ s.lac.track = .synthetic then seek s (nominalFreq s) else s

/-- A write to LAC.CTRL (R40, R44, R51). -/
def lacCtrlSet (s : State) (v : Word) : State :=
  let old := lacCtrl s
  let new := ctrlClean v
  let isl := mISLAND s
  let thr := fld v 16 8
  let s' := evIf (decide (thr < 10) || decide (90 < thr)) (wr s (reg pLAC 0x080) new) pLAC 8
  let s' := if bit new 10 then aetPlace s' 48 0 0 0 1 3 0
    else aetDisable { s' with pins := { s'.pins with syncOut := false, pulseEnd := del s'.pins.pulseEnd 8 } } 48
  let s' := if bit new 8 = bit old 8 then s' else nominalStep s'
  if fld new 0 2 ≠ fld old 0 2 ∨ (fld new 4 3 ≠ fld old 4 3 ∧ fld new 0 2 = 0 ∧ !isl) then refChange s' else s'

/-- A write to LAC.NET_SESSION (R44). -/
def netSessionSet (s : State) (v : Word) : State :=
  let old := rd s (reg pLAC 0x0AC)
  let s := wr s (reg pLAC 0x0AC) v
  if v ≠ old ∧ fld (lacCtrl s) 0 2 = 2 then refChange s else s

/-- ISLAND has changed: SOURCE_EFF of VOLTAGE changes with it (R40, R44). -/
def islandChanged (s : State) : State := if fld (lacCtrl s) 0 2 = 0 then refChange s else s

/-- PPS_OUT falls, 100 ms − 30.5 µs or more after its rise at the second boundary (R381). -/
def ppsFall (s : State) : State :=
  if s.vault.tickAt + 39987800 ≤ s.clk.fabric then { s with pins := { s.pins with ppsOut := false } } else s

end Sys2Proof.Machine
end

