-- ==== Sys2Proof/Machine/ScrvOps.lean ====
section
/-!
DEFINITION. The firing of Scrivener's triggers (R316, R317).
-/

namespace Sys2Proof.Machine

/-- TCFG of a trigger. -/
def tcfg (s : State) (t : Nat) : Word := look 0 s.scrv.tcfg t

/-- LIST word `k` of a trigger. -/
def trigList (s : State) (t k : Nat) : Word := look 0 s.scrv.lists (t * 24 + k)

/-- A firing or a capture lost (R320). -/
def scrvLose (s : State) : State :=
  ev (bump { s with scrv := { s.scrv with lost := s.scrv.lost + 1 } } (reg pSCRV 0x098)) pSCRV 1

/-- A firing put into the queue: in order of firing, on one fabric cycle in trigger-number order (R317). -/
def firingPut (f : Firing) : List Firing → List Firing
  | [] => [f]
  | g :: gs => if g.at_ = f.at_ ∧ f.trig < g.trig then f :: g :: gs else g :: firingPut f gs

/-- A trigger fires with a class and a nominal position (R316): not enabled, it does nothing; within HOLDOFF cycles of
its last recorded firing it is suppressed; into a full queue it is lost. -/
def scrvFire (s : State) (t : Nat) (c : Cls) (pos : Nat) (late : Bool) : State :=
  let w := tcfg s t
  let near := match get? s.scrv.last t with
    | some l => decide (cycleOf pos < l + fld w 8 8)
    | none => false
  if !bit w 31 ∨ s.scrv.off ∨ !runs s pSCRV then s
  else if near then bump s (reg pSCRV 0x09C)
  else if 64 ≤ s.scrv.queue.length then scrvLose s
  else { s with scrv := { s.scrv with
    queue := firingPut ⟨t, c, pos, late, s.clk.fabric⟩ s.scrv.queue, last := ins s.scrv.last t (cycleOf pos) } }

end Sys2Proof.Machine
end

