-- ==== Sys2Proof/Machine/WghOps.lean ====
section
/-!
DEFINITION. Weighhouse (R133–R160): path selection, the angle grid, measurands, power-quality events, energy, demand,
snapshots, checkpoints, the power-fail save and the restore. Channels are numbered 0–23 and circuits 0–17 here; samples
are in units of 2^-28 of full scale, the unit of the ×32 path (R138).
-/

namespace Sys2Proof.Machine

/-! ### Registers -/

/-- Register `off` of channel `c`'s record (R133). -/
def chA (c off : Nat) : Nat := reg (0x29 + c / 8) (0x100 + 0x100 * (c % 8) + off)
/-- Register `off` of circuit `k`'s record. -/
def cirA (k off : Nat) : Nat := reg 0x2C (0x100 + 0x80 * k + off)

/-- A voltage channel (R133). -/
def isVolt (c : Nat) : Bool := c < 6

/-- A configuration word in force in a cycle: a change of calibration or composition applies from the next cycle boundary
(R152). -/
def cfgAt (s : State) (cyc a : Nat) : Word :=
  s.wgh.eff.foldl (fun v e => if e.1 = a ∧ cyc < e.2.1 then e.2.2 else v) (rd s a)

/-- A configuration word in force now (R152). -/
def cfgW (s : State) (a : Nat) : Word := cfgAt s (cycleOf (count s)) a

/-- A configuration register written: its old value stays in force until the next cycle boundary, and for the samples before
it (R152). A change is kept for 64 cycles, longer than any sample waits or any window lasts. -/
def cfgSet (s : State) (a : Nat) (v : Word) : State :=
  let cyc := cycleOf (count s)
  wr { s with wgh := { s.wgh with
    eff := (a, cyc + 1, rd s a) :: s.wgh.eff.filter fun e => decide (cyc < e.2.1 + 64) } } a v

/-- Channel `c` is used in a cycle: enabled and not retired (R141, the CFG table). -/
def chUsed (s : State) (cyc c : Nat) : Bool := bit (cfgAt s cyc (chA c 0)) 0 && !rdB s (chA c 0x18) 4

/-- CFG.SENSOR as it acts (R134). -/
def sensor (s : State) (c : Nat) : Nat := fld (cfgW s (chA c 0)) 1 2

/-- CFG as it acts and reads (R134). -/
def chCfgClean (c : Nat) (v : Word) : Word :=
  let v := v &&& 0x1F
  if isVolt c then setFld v 1 2 0 else if fld v 1 2 = 0 then setFld v 1 2 1 else v

/-- SCALE as it acts and reads (R135), with whether it was clamped. -/
def scaleClean (v : Word) : Word × Bool :=
  match F32.of v with
  | .nan => (0x3F800000, true)
  | _ =>
    match opCmp .float32 v 0, opCmp .float32 v 0x47C35000 with
    | some (neg, zero), some (lt, eq) =>
      if neg || zero then (0x3F800000, true) else if lt || eq then (v, false) else (0x47C35000, true)
    | _, _ => (v, false)

/-- SCALE in force in a cycle as a fraction. -/
def scaleOf (s : State) (cyc c : Nat) : Frac := (fracT .float32 (cfgAt s cyc (chA c 4))).getD ⟨1, 1⟩

/-- A sample in primary units, in units of 2^-177 (R135, R146). -/
def primary (s : State) (cyc c : Nat) (x : Int) : Int :=
  let f := scaleOf s cyc c
  x * (f.num * 2 ^ 149 / (f.den : Int))

/-- The square of the unit of `primary`, in which products of two samples stand. -/
def unitSq : Nat := 2 ^ 354

/-- MODCLK1 or MODCLK2 is driven (R137). -/
def modClk (s : State) (second : Bool) : Bool :=
  (List.range 9).any fun j => sensor s ((if second then 15 else 6) + j) == 3

/-- Weighhouse runs: its page runs and the grid is in service (R142). -/
def wghRuns (s : State) : Bool := runs s pWGH && s.lac.inService

/-- The reserved entries of the checkpoints (R157). -/
def wghPlace (s : State) : State :=
  if wghRuns s then aetPlace (aetPlace s 12 0 0 7 1 7 0) 13 0 64 7 1 7 1
  else aetDisable (aetDisable s 12) 13

/-! ### Converter samples and path selection -/

/-- A channel. -/
def chan (s : State) (c : Nat) : Chan := look .reset s.wgh.chans c
/-- A channel replaced. -/
def setChan (s : State) (c : Nat) (x : Chan) : State :=
  { s with wgh := { s.wgh with chans := put .reset s.wgh.chans c x } }

/-- A raw sample beyond 24 bits: the modulator reported an overload (log 17). -/
def rawOver (x : Int) : Bool := decide (x < -8388608) || decide (8388607 < x)

/-- The value of a MODULATOR sample in 24-bit units of full scale: a ones density d, given in units of 2^-24, stands for
(2d − 1) / 0.8 (R137). -/
def modValue (d : Int) : Int := roundAway ((d - 8388608) * 5) 4

/-- A sample after calibration, in units of the ×32 path (R138, R139). -/
def calibrate (s : State) (c : Nat) (x32 : Bool) (x : Int) : Int :=
  let g := sw (cfgW s (chA c (if x32 then 0x10 else 0x0C)))
  roundAway ((if x32 then x else 32 * x) * g) 1073741824

/-- A ×32 sample is valid: no overload, and at most 87.5 % of the ×32 full scale (R138). -/
def x32Valid (raw cal : Int) : Bool := !rawOver raw && decide (cal.natAbs ≤ 7340032)

/-- The dual-path rule counts a sample towards ×32: ×32 valid and ×1 at most 50 % of the ×32 full scale (R138). -/
def runCounts (raw32 c1 c32 : Int) : Bool := x32Valid raw32 c32 && decide (c1.natAbs ≤ 4194304)

/-- The integrator's next output in units of 2^-32 of a sample's (R140): a·y + g·(x + x')/2 with a = 1 − 2π × 0.01 / 32,000 and
g = 2π × f_nom / 32,000; to the unit below or above, by a choice of the part (log 5). -/
def integrate (nom60 : Bool) (y x0 x : Int) : Int :=
  let f : Int := if nom60 then 60 else 50
  let n := y * (2 ^ 128 * 3200000 - 2 * piFix) + (x + x0) * f * piFix * 2 ^ 32 * 100
  n / (2 ^ 128 * 3200000) + (Config.pick 0x140 [y, x0, x] % 2 : Nat)

/-- The half-cycle of the present position. -/
def halfNow (s : State) : Nat := count s / 32768

/-- A channel overloads: marked for the windows that hold the present position (R138, R140). -/
def overloaded (s : State) (x : Chan) : Chan :=
  if x.ovld.head? = some (halfNow s) then x else { x with ovld := (halfNow s :: x.ovld).take 64 }

/-- The channel overloaded in the window [a, b), whose ends are multiples of half a cycle. -/
def Chan.ovldIn (x : Chan) (a b : Nat) : Bool := x.ovld.any fun h => decide (a / 32768 ≤ h) && decide (h < b / 32768)

/-- The fabric cycle at which a sample taken now stands: delayed by the path's DELAY, 4 fabric cycles a unit (R139). -/
def sampleAt (s : State) (c : Nat) (x32 : Bool) : Int :=
  (s.clk.fabric : Int) + 4 * sgn 16 (fld (cfgW s (chA c 0x14)) (if x32 then 16 else 0) 16)

/-- The filters after selection: DC removal, the ROGOWSKI integrator with its clamp (R139, R140); the sample is then one that the
resampler takes. With whether the integrator's output has reached ±4 times full scale. -/
def chFilter (s : State) (c : Nat) (x : Chan) (v : Int) : Chan × Bool :=
  let hp := if bit (cfgW s (chA c 0)) 3 then Config.highPass x.hpY x.hpX v else v
  let x := { x with hpX := v, hpY := hp }
  let at_ := sampleAt s c x.x32
  if sensor s c = 2 then
    let k := clampI (-(2 ^ 62)) (2 ^ 62) (integrate (bit (lacCtrl s) 8) x.inY x.inX hp)
    let y := clampI (-(2 ^ 30)) (2 ^ 30) (k / 2 ^ 32 + (Config.pick 0x141 [k] % 2 : Nat))
    ({ x with inX := hp, inY := k, recent := ((y, at_) :: x.recent).take 64 }, decide (2 ^ 62 ≤ k.natAbs))
  else ({ x with recent := ((hp, at_) :: x.recent).take 64 }, false)

/-- STAT.PATH follows the selection. -/
def pathShow (s : State) (c : Nat) : State := wrB s (chA c 0x18) 0 (!isVolt c && !(chan s c).x32)

/-- A sample of the selected path goes through the filters; an integrator at its limit is an overload (R140). -/
def chanTake (s : State) (c : Nat) (x : Chan) (v : Int) : State :=
  let (y, lim) := chFilter s c x v
  pathShow (evIf lim (setChan s c (if lim then overloaded s y else y)) pWGH 3) c

/-- A path selected; a switch to ×1 is counted (R138). -/
def selectPath (s : State) (c : Nat) (x32 : Bool) : State :=
  let x := chan s c
  pathShow (if x.x32 && !x32 then bump (setChan s c { x with x32 := false }) (chA c 0x1C)
    else setChan s c { x with x32 := x32 }) c

/-- The ×32 path selected again: the sample that completes the run, held by `convSample`, is taken from it (R138). -/
def toX32 (s : State) (c : Nat) : State :=
  let x := chan s c
  if x.run < 64 then s else chanTake s c { x with x32 := true, run := 0 } x.last32

/-- The path that the next sample is taken from: under an injection the one not under test (R141), else ×32 as long as it was
selected and its sample is valid (R138). -/
def takes32 (x : Chan) (dual : Bool) (r32 c32 : Int) : Bool :=
  dual && (match x.test with | some t => !t.1 | none => x.x32 && x32Valid r32 c32)

/-- A decimated sample of both converters (R136–R140); a voltage channel has one, and a MODULATOR channel the densities of its
stream as sampled on the rising and on the falling edge, of which CFG.MOD_EDGE selects one (R137). The sample that completes a
run of 64 waits for the selection of the ×32 path, which comes before the next sample at the latest; injected samples are in no
run (R141, log 17). -/
def convSample (s : State) (c : Nat) (r1 r32 : Int) : State :=
  let s := toX32 s c
  let x := chan s c
  let stream := decide (sensor s c = 3)
  let c1 := calibrate s c false (if stream then modValue (if bit (cfgW s (chA c 0)) 4 then r32 else r1) else r1)
  let c32 := calibrate s c true r32
  let dual := decide (sensor s c = 1 ∨ sensor s c = 2) && !rdB s (chA c 0x18) 2
  let use32 := takes32 x dual r32 c32
  let x1over := !use32 && !stream && rawOver r1
  let run := if use32 || !dual || x.test.isSome || !runCounts r32 c1 c32 then 0 else x.run + 1
  let y := { x with run := run, last1 := c1, last32 := c32 }
  if 64 ≤ run then setChan s c y
  else
    let s := selectPath (setChan s c y) c use32
    let s := if x1over then ev (bump (setChan s c (overloaded s (chan s c))) (chA c 0x20)) pWGH 3 else s
    chanTake s c (chan s c) (if use32 then c32 else c1)

/-- A channel enabled starts on ×1 (R138). -/
def chanStart (s : State) (c : Nat) : State := pathShow (setChan s c { chan s c with x32 := false, run := 0 }) c

/-- The ADC reference injection on a path of a channel (R141): the other path is selected for its duration. -/
def adcTest (s : State) (c : Nat) (path32 : Bool) : State :=
  let x := chan s c
  let s := setChan s c { x with test := some (path32, x.x32), run := 0 }
  if !isVolt c && x.x32 == path32 then selectPath s c (!path32) else s

/-- The injection ends: the path selected before it is selected again (R141). -/
def adcTestEnd (s : State) (c : Nat) : State :=
  match (chan s c).test with
  | none => s
  | some t =>
    let s := setChan s c { chan s c with test := none, run := 0 }
    if isVolt c then s else selectPath s c (t.2 && !rdB s (chA c 0x18) 2)

/-! ### The grid -/

/-- A channel's value in a grid sample. -/
def GridS.x (g : GridS) (c : Nat) : Int := look 0 g.xs c

/-- The value of a channel at a grid position, in primary units: resampled at the real instant at which the count reached it;
during a test of a voltage channel the sample one cycle earlier (R141, R142). -/
def gridValue (s : State) (pos c : Nat) : Int :=
  let x := chan s c
  if isVolt c && x.test.isSome then
    match (s.wgh.queue.reverse ++ s.wgh.hist)[255]? with
    | some g => g.x c
    | none => 0
  else primary s (cycleOf pos) c (Config.resample c s.clk.fabric x.recent)

/-- The values of the used channels at a grid position. -/
def gridValues (s : State) (pos : Nat) : List (Nat × Int) :=
  ((List.range 24).filter (chUsed s (cycleOf pos))).map fun c => (c, gridValue s pos c)

/-- The voltage channels whose sample at a position is substituted (R141). -/
def substituted (s : State) (pos : Nat) : List Nat :=
  (List.range 6).filter fun c => chUsed s (cycleOf pos) c && (chan s c).test.isSome

/-- Calendar seconds since the start of year 2000 (R159). -/
def calSeconds (s : State) : Nat :=
  let y := rdF s (reg pCAL 0x098) 0 12
  let days := (y - 2000) * 365 + (y - 1997) / 4 - (y - 1901) / 100 + (y - 1601) / 400 +
    ((List.range 12).foldl (fun acc m =>
      if m + 1 < rdF s (reg pCAL 0x094) 0 4 then
        acc + (if m = 1 then (if (y % 4 = 0 ∧ y % 100 ≠ 0) ∨ y % 400 = 0 then 29 else 28)
               else if m = 3 ∨ m = 5 ∨ m = 8 ∨ m = 10 then 30 else 31)
      else acc) 0) + (rdF s (reg pCAL 0x090) 0 5 - 1)
  ((days * 24 + rdF s (reg pCAL 0x088) 0 5) * 60 + rdF s (reg pCAL 0x084) 0 6) * 60 + rdF s (reg pCAL 0x080) 0 6

/-- The CRC-32 of a checkpoint's content (R157), over its fields in order as little-endian numbers: the spec gives the slot no
layout (log 58). -/
def Ckpt.sum (c : Ckpt) : Word :=
  let n (x : Nat) : List Byte := leBytes 16 x
  let flat {α : Type} (f : α → List Nat) (l : List α) : List Byte := n l.length ++ (l.flatMap f).flatMap n
  Crypto.crc32 (flat (fun e => [e.1, e.2]) c.raws ++ flat (fun e => [e.1, e.2]) c.demand ++
    flat id [[c.iv.code, c.iv.cal.toNat, c.iv.sec, c.iv.fab, c.iv.before, b2n c.iv.irr]] ++
    flat (fun e => [e.fab, e.code, e.cal.toNat, b2n e.irr]) c.ivEnd.toList ++
    flat (fun e => [e.1, e.2.toNat]) c.maxdem ++
    flat (fun e => [e.1, e.2.start, e.2.half, e.2.extreme.toNat]) c.events ++
    flat id [[c.pos, c.seq, c.cal, b2n c.final]])

/-- A slot whose CRC-32 is that of its content (R157, R159). -/
def Ckpt.valid (c : Ckpt) : Bool := c.crc == c.sum

/-- The content of a checkpoint (R157). -/
def ckptOf (s : State) (final : Bool) : Ckpt :=
  let c : Ckpt :=
    { raws := s.wgh.raws, demand := s.wgh.demand, iv := s.wgh.dem0, ivEnd := s.wgh.ivEnd, maxdem := s.wgh.dem
      events := s.wgh.pq, pos := s.wgh.incl, seq := s.wgh.ckSeq + 1, cal := calSeconds s, final := final, crc := 0 }
  { c with crc := c.sum }

/-- The address of WGHPQ's event record `j`, word `w`. -/
def pqA (j w : Nat) : Nat := reg pWGHPQ (0x800 + 0x20 * j + 4 * w)

/-- EXTREME: the extreme in 0.01 % of NOMINAL (R150), to the unit below or above; beyond 16 bits, or of a NOMINAL that is no
positive number, a choice of the part (log 5). -/
def pqExtreme (v nominal : Word) : Nat :=
  match fracT .float32 v, fracT .float32 nominal with
  | some a, some b =>
    let q := if b.num = 0 then 65536 else whole 0x20000 ((a.mul ⟨10000, 1⟩).div b)
    if q ≤ 0xFFFF then q else Config.pick 0x20001 [v.toNat, nominal.toNat] % 65536
  | _, _ => Config.pick 0x20001 [v.toNat, nominal.toNat] % 65536

/-- The record of an event that ends (R150). -/
def pqRecord (s : State) (c ty : Nat) (e : PqEvent) (stop : Nat) (trunc : Bool) : State :=
  let st := rd s (reg pWGHPQ 0x088)
  let j := fld st 0 6
  let ext := pqExtreme e.extreme (rd s (chA c 8))
  let s := wr64 s (pqA j 0) e.start
  let s := wr64 s (pqA j 2) stop
  let s := wr s (pqA j 4) (w32 (min e.half 0xFFFFFFFF))
  let s := wr s (pqA j 5) (w32 (ext + (c + 1) * 2 ^ 16 + (ty + b2n trunc * 128) * 2 ^ 24))
  let s := wr (wr s (pqA j 6) 0) (pqA j 7) 0
  ev (wr s (reg pWGHPQ 0x088) (w32 ((j + 1) % 64 + (fld st 8 24 + 1) % 2 ^ 24 * 256))) pWGH 4

/-- Every open event closed at a position with TRUNCATED (R150, R158). -/
def pqTruncate (s : State) (pos : Nat) : State :=
  let t := s.wgh.pq.foldl (fun t e => pqRecord t (e.1 / 4) (e.1 % 4) e.2 pos true) s
  { t with wgh := { t.wgh with pq := [] } }

/-- The capture of the power-fail save at the next grid position (R158). -/
def gridSave (s : State) (pos : Nat) : State :=
  if s.wgh.save = .triggered ∧ s.wgh.capture.isNone then
    let s := pqTruncate s pos
    { s with wgh := { s.wgh with capture := some (ckptOf s true) } }
  else s

/-- A grid sample produced at a position (R142, R143). The first has no position before it: its duration is a free
value (log 4). -/
def gridTake (s : State) (pos : Nat) : State :=
  let (dt, s) : Nat × State := match s.wgh.lastFab with
    | some f => (s.clk.fabric - f, s)
    | none => let (w, s) := freshWord s; (w.toNat, s)
  let sub := substituted s pos
  let g : GridS := { pos := pos, fab := s.clk.fabric, dt := dt, iv := s.wgh.iv, sub := sub, xs := gridValues s pos }
  let s := bumpBy s (reg pWGH 0x09C) sub.length
  let first := s.wgh.lastFab.isNone
  let s := { s with wgh := { s.wgh with
    queue := s.wgh.queue ++ [g], lastFab := some s.clk.fabric, lastPos := pos } }
  let s := if first then { s with wgh := { s.wgh with
    startPos := pos, pubHalf := pos / 32768 * 32768, pubAgg := pos } } else s
  gridSave s pos

/-- GRID_SAMPLE (R142): only grid positions after the last one, none that a step has skipped, and none that the count has left
behind by a grid interval (log 18). -/
def gridSampleOp (s : State) (pos : Nat) : State :=
  if !wghRuns s ∨ pos % 256 ≠ 0 ∨ skipped s pos ∨ (s.wgh.lastFab.isSome ∧ pos ≤ s.wgh.lastPos) ∨ pos + 256 ≤ count s then s
  else gridTake (reachPos s pos) pos

/-! ### Energy and demand -/

/-- The phases of a circuit that are used in a cycle: voltage channel, current channel, current inverted (R146, the CFG table). -/
def phasesOf (s : State) (cyc k : Nat) : List (Nat × Nat × Nat × Bool) :=
  let w := cfgAt s cyc (cirA k 0)
  (List.range 3).filterMap fun j =>
    let v := fld w (4 + 4 * j) 4
    let i := fld w (16 + 5 * j) 5
    if 1 ≤ v ∧ v ≤ 6 ∧ 1 ≤ i ∧ i ≤ 18 ∧ chUsed s cyc (v - 1) ∧ chUsed s cyc (5 + i) then
      some (j, v - 1, 5 + i, bit w (1 + j))
    else none

/-- The circuit is enabled in a cycle. -/
def cirOn (s : State) (cyc k : Nat) : Bool := bit (cfgAt s cyc (cirA k 0)) 0

/-- STAT.ACTIVE: at least one phase has both channels. -/
def cirActive (s : State) (k : Nat) : Bool :=
  let w := rd s (cirA k 0)
  (List.range 3).any fun j =>
    let v := fld w (4 + 4 * j) 4
    let i := fld w (16 + 5 * j) 5
    decide (1 ≤ v) && decide (v ≤ 6) && decide (1 ≤ i) && decide (i ≤ 18)

/-- Σ v·i over a window, the voltage `lag` samples earlier; a sample that was not produced counts as 0. -/
def sumVI (win hist : List GridS) (lag v i : Nat) (rev : Bool) : Int :=
  let vs := (hist.drop lag).take win.length
  let p := (win.zip vs).foldl (fun acc e => acc + e.2.x v * e.1.x i) 0
  if rev then -p else p

/-- Σ x² over a window. -/
def sumSq (win : List GridS) (c : Nat) : Nat := win.foldl (fun acc g => acc + (g.x c).natAbs * (g.x c).natAbs) 0

/-- P₁ (lag 0) or Q₁ (lag 64) of a circuit over the last 256 produced samples (R151), the composition being that of the last
one's cycle. -/
def cirPQ (s : State) (cyc k lag : Nat) : Frac :=
  ⟨(phasesOf s cyc k).foldl (fun acc ph =>
    acc + sumVI (s.wgh.hist.take 256) s.wgh.hist lag ph.2.1 ph.2.2.1 ph.2.2.2) 0, 256 * unitSq⟩

/-- S₁ of a circuit: Σ phases of V_rms,1 × I_rms,1 (R151), the root taken to 48 binary places. -/
def cirS (s : State) (cyc k : Nat) : Frac :=
  let win := s.wgh.hist.take 256
  ⟨((phasesOf s cyc k).foldl (fun acc ph => acc + Nat.sqrt (sumSq win ph.2.1 * sumSq win ph.2.2.1 * 2 ^ 96)) 0 : Nat),
    256 * 2 ^ 48 * unitSq⟩

/-- A magnitude over a duration in fabric cycles as raw units of 2^-40 Wh: formed with a relative error below 2^-40 and
rounded to nearest, so one of the values between two bounds, a free choice (R152, log 4). -/
def rawOf (free : Word) (p : Frac) (dt : Nat) : Nat :=
  let num := p.num.natAbs * dt * 2 ^ 40
  let den := p.den * Config.fabricHz * 3600
  let lo := (2 * num * (2 ^ 40 - 1) + den * 2 ^ 40) / (2 * den * 2 ^ 40)
  let hi := (2 * num * (2 ^ 40 + 1) + den * 2 ^ 40) / (2 * den * 2 ^ 40)
  lo + free.toNat % (hi - lo + 1)

/-- Raw units added to accumulator `a` of a circuit (128 bits, R152); import and export also to the demand interval. -/
def addRaw (s : State) (k a n : Nat) : State :=
  let w := s.wgh
  { s with wgh := { w with
    raws := put 0 w.raws (k * 8 + a) ((look 0 w.raws (k * 8 + a) + n) % 2 ^ 128)
    demand := if a ≤ 1 then put 0 w.demand (k * 2 + a) (look 0 w.demand (k * 2 + a) + n) else w.demand } }

/-- The accumulator that P₁ adds to (R151). -/
def dirOf (p : Int) : Option Nat := if 0 < p then some 0 else if p < 0 then some 1 else none

/-- The accumulator that |Q₁| adds to (R151). -/
def quadOf (p q : Int) : Option Nat :=
  if 0 < p then (if 0 < q then some 2 else some 5)
  else if p < 0 then (if 0 ≤ q then some 3 else some 4)
  else if 0 < q then some 2 else if q < 0 then some 4 else none

/-- One contribution to an accumulator. -/
def contribute (s : State) (k : Nat) (a : Option Nat) (p : Frac) (dt : Nat) : State :=
  match a with
  | none => s
  | some a =>
    let (w, s) := freshWord s
    addRaw s k a (rawOf w p dt)

/-- A grid sample's contribution to a circuit (R151). -/
def cirAdd (s : State) (cyc dt k : Nat) : State :=
  if !cirOn s cyc k then s
  else
    let p := cirPQ s cyc k 0
    let q := cirPQ s cyc k 64
    let sa := cirS s cyc k
    contribute (contribute (contribute s k (dirOf p.num) p dt) k (quadOf p.num q.num) q dt) k (some 6) sa dt

/-- The derived value of a raw accumulator: ⌊raw × 1,000 / 2^40⌋ (R152). -/
def mwh (raw : Nat) : Nat := raw * 1000 / 2 ^ 40

/-- The minutes of a demand interval by its code; 5–7 act as 2 (R153). -/
def ivMinutes (code : Nat) : Nat :=
  if code = 0 then 1 else if code = 1 then 5 else if code = 3 then 30 else if code = 4 then 60 else 15

/-- The calendar in the form of MAXDEM_CAL. -/
def demCal (s : State) : Word :=
  w32 (rdF s (reg pCAL 0x098) 0 12 * 2 ^ 20 + rdF s (reg pCAL 0x094) 0 4 * 2 ^ 16 +
    rdF s (reg pCAL 0x090) 0 5 * 2 ^ 11 + rdF s (reg pCAL 0x088) 0 5 * 2 ^ 6 + rdF s (reg pCAL 0x084) 0 6)

/-- The demand in W of an energy in mWh (R153): over the interval's seconds, or when irregular over its real duration
in fabric cycles (R154). -/
def demandW (e minutes fab : Nat) (irr : Bool) : Nat :=
  if irr then e * 3600 * Config.fabricHz / (1000 * max 1 fab) else e * 3600 / (1000 * (minutes * 60))

/-- An interval's demand computed from its energy (R153, R154). -/
def ivClose (s : State) (fab code : Nat) (cal : Word) (irr : Bool) : State :=
  let one (w : List (Nat × Word)) (k : Nat) : List (Nat × Word) :=
    let di := w32 (demandW (mwh (look 0 s.wgh.demand (k * 2))) (ivMinutes code) fab irr)
    let de := w32 (demandW (mwh (look 0 s.wgh.demand (k * 2 + 1))) (ivMinutes code) fab irr)
    let w := put 0 (put 0 w (k * 4) di) (k * 4 + 1) de
    if !irr ∧ look 0 w (k * 4 + 2) < di then put 0 (put 0 w (k * 4 + 2) di) (k * 4 + 3) cal else w
  let s := { s with wgh := { s.wgh with dem := (List.range 18).foldl one s.wgh.dem, demand := [], ivEnd := none } }
  evIf irr (wrB s (reg pWGHEN 0x084) 1 irr) pWGH 6

/-- A pending interval end carried out. -/
def ivSettle (s : State) : State :=
  match s.wgh.ivEnd with
  | some e => ivClose s e.fab e.code e.cal e.irr
  | none => s

/-- A demand interval that starts now. -/
def ivStart (s : State) (irr : Bool) : DemIv :=
  ⟨rdF s (reg pWGHEN 0x088) 0 3, demCal s, calSeconds s, s.clk.fabric, 0, irr⟩

/-- The running interval ends and the next begins (R153, R154); its last samples are still to be accumulated. -/
def ivFinish (s : State) (irr nextIrr : Bool) : State :=
  let s := ivSettle s
  let w := s.wgh
  let s := { s with wgh := { w with
    ivEnd := some ⟨w.dem0.before + (s.clk.fabric - w.dem0.fab), w.dem0.code, w.dem0.cal, irr || w.dem0.irr⟩
    iv := w.iv + 1, dem0 := ivStart s nextIrr } }
  if s.wgh.queue.isEmpty then ivSettle s else s

/-- DEMAND_INTERVAL_END (R153): at a calendar second that starts a minute divisible by the interval's length. -/
def demandEnd (s : State) : State :=
  let m := rdF s (reg pCAL 0x088) 0 5 * 60 + rdF s (reg pCAL 0x084) 0 6
  if !wghRuns s ∨ m % ivMinutes s.wgh.dem0.code ≠ 0 ∨ rdF s (reg pCAL 0x080) 0 6 ≠ 0 then s
  else ivFinish s false false

/-- A calendar write takes effect (R154): the running interval and the next are IRREGULAR. -/
def demandIrregular (s : State) : State := if wghRuns s then ivFinish s true true else s

/-- The first accumulated sample after start gives OUTAGE_S (R159). -/
def outageEnd (s : State) : State :=
  match s.wgh.outageFrom with
  | some t => wr { s with wgh := { s.wgh with outageFrom := none } } (reg pWGH 0x08C) (w32 (calSeconds s - t))
  | none => s

/-- SAMPLE_ACCUMULATE (R144, R151): the oldest waiting grid sample enters the sums and the accumulators. -/
def accumulate (s : State) : State :=
  match s.wgh.queue with
  | [] => s
  | g :: rest =>
    let s := outageEnd { s with wgh := { s.wgh with queue := rest, hist := (g :: s.wgh.hist).take 8192, incl := g.pos } }
    let s := (List.range 18).foldl (fun t k => cirAdd t (cycleOf g.pos) g.dt k) s
    let last : Bool := match rest with | [] => true | h :: _ => decide (g.iv < h.iv)
    if s.wgh.ivEnd.isSome && last then ivSettle s else s

/-! ### Measurands -/

/-- The produced samples of a window [a, b), newest first (R37, R144). -/
def windowOf (s : State) (a b : Nat) : List GridS :=
  s.wgh.hist.filter fun g => decide (a ≤ g.pos) && decide (g.pos < b)

/-- The register of a measurand index, with whether its unit is a thousandth of the register's (R148). -/
def measReg (idx : Nat) : Option (Nat × Bool) :=
  let o := idx / 256
  let q := idx % 256
  if o < 24 then
    if q = 0 then some (chA o 0x24, false) else if q = 1 then some (chA o 0x28, false)
    else if q = 2 then some (chA o 0x34, false) else if q = 3 then some (chA o 0x2C, false)
    else if q = 4 then some (chA o 0x30, false) else none
  else if 0x20 ≤ o ∧ o < 0x32 then
    let k := o - 0x20
    if q = 0 then some (cirA k 0x08, true) else if q = 1 then some (cirA k 0x0C, true)
    else if q = 2 then some (cirA k 0x10, true) else if q = 3 then some (cirA k 0x14, false)
    else if q = 4 then some (cirA k 0x3C, true) else if q = 5 then some (cirA k 0x40, true) else none
  else if o = 0xFF ∧ q = 0 then some (reg pWGH 0x0A0, false) else none

/-- The channels that a measurand index takes its value from: its own, or those of its circuit (R148). -/
def measChans (s : State) (idx : Nat) : List Nat :=
  let o := idx / 256
  if o < 24 then [o]
  else if 0x20 ≤ o ∧ o < 0x32 then
    let w := rd s (cirA (o - 0x20) 0)
    (List.range 3).flatMap fun j =>
      let v := fld w (4 + 4 * j) 4
      let i := fld w (16 + 5 * j) 5
      (if 1 ≤ v ∧ v ≤ 6 then [v - 1] else []) ++ (if 1 ≤ i ∧ i ≤ 18 then [5 + i] else [])
  else []

/-- A measurand is BAD: one of its channels is retired, or overloaded in the window that produced the value (R148). -/
def measBad (s : State) (idx : Nat) : Bool :=
  ((measChans s idx).any fun c => rdB s (chA c 0x18) 4) || look false s.wgh.qbad idx

/-- A FLOAT32 over 1,000 as Q16.16, nearest even and clamped (R148, R93). -/
def milliQ (w : Word) : Word :=
  match fracT .float32 w with
  | some f => (satI (roundFrac (f.mul ⟨1, 1000⟩) 65536)).1
  | none => (floatToInt 65536 w).1

/-- A measurand as a loop or scan source (R148): Q16.16 in the units of the index table; a NaN is BAD (R126). -/
def measSource (s : State) (idx : Nat) : Slot :=
  match measReg idx with
  | none => ⟨.q16, 0, qBAD⟩
  | some (a, kilo) =>
    let v := if idx / 256 < 24 ∧ idx % 256 = 4 then w32 (rdF s a 0 16 * 360)
      else if kilo then milliQ (rd s a) else (floatToInt 65536 (rd s a)).1
    let phase := decide (idx / 256 < 24) && idx % 256 == 4
    ⟨.q16, v, if measBad s idx || (!phase && decide (F32.of (rd s a) = .nan)) then qBAD else qGOOD⟩

/-- A measurand as it was before a position (R113). -/
def measBefore (s : State) (idx pos : Nat) : Slot := beforePos s 2 idx 0 pos (measSource s idx)

/-- The INPUT point that a measurand feeds is updated (R189, R148). -/
def measFeed (s : State) (idx : Nat) : State :=
  match Config.measPoint idx with
  | some p => ptFeed s pWGH p (measSource s idx).val (measSource s idx).qual
  | none => s

/-- A measurand of the window [a, b) published: its register, and whether a channel of it overloaded there (R148). -/
def publish (s : State) (a b idx : Nat) (v : Word) : State :=
  match measReg idx with
  | some (r, _) =>
    let bad := (measChans s idx).any fun c => (chan s c).ovldIn a b
    let t := notePast s 2 idx 0 0 (measSource s idx)
    measFeed (wr { t with wgh := { t.wgh with qbad := put false t.wgh.qbad idx bad } } r v) idx
  | none => s

/-- The measurand indices that a channel has a part in. -/
def chanMeas (s : State) (c : Nat) : List Nat :=
  ((List.range 5).map fun q => c * 256 + q) ++
    ((List.range 18).filter fun k => (measChans s ((0x20 + k) * 256)).contains c).flatMap fun k =>
      (List.range 6).map fun q => (0x20 + k) * 256 + q

/-- A path found lasting (R141): a ×32 path retires alone, a ×1 path or a voltage converter retires the channel, and its
measurands are BAD from then on (R148). -/
def pathRetire (s : State) (c : Nat) (path32 : Bool) : State :=
  let one := path32 && !isVolt c
  let ms := if one then [] else chanMeas s c
  let s := ms.foldl (fun t i => notePast t 2 i 0 0 (measSource t i)) s
  let s := ev (wrB s (chA c 0x18) (if one then 2 else 4) true) pWGH 5
  let s := selectPath (setChan s c { chan s c with run := 0 }) c false
  ms.foldl measFeed s

/-- The RMS of a channel in its primary unit: √(Σ x² / K) (R146). -/
def rmsOf (c : Nat) (win : List GridS) : Frac := (Frac.mk (sumSq win c : Nat) (max 1 win.length * unitSq)).sqrt

/-- A power-quality comparison: value × 100 against percent × nominal; none when a word is no finite number. -/
def pqCmp (v nominal : Word) (pct : Nat) : Option Ordering :=
  match fracT .float32 v, fracT .float32 nominal with
  | some a, some b =>
    some (compare (a.num * 100 * b.den) (b.num * pct * a.den))
  | _, _ => none

/-- An event of a type starts at a value (R149): 1 sag, 2 swell, 3 interruption. -/
def pqStarts (s : State) (ty : Nat) (v nominal : Word) : Bool :=
  let t := rd s (reg pWGHPQ 0x080)
  if ty = 1 then pqCmp v nominal (fld t 0 8) == some .lt
  else if ty = 2 then pqCmp v nominal (fld t 8 8) == some .gt
  else pqCmp v nominal (fld t 16 8) == some .lt

/-- An event of a type ends at a value (R149); HYST 0 acts as 1. -/
def pqEnds (s : State) (ty : Nat) (v nominal : Word) : Bool :=
  let t := rd s (reg pWGHPQ 0x080)
  let h := max 1 (fld t 24 8)
  let ge (p : Nat) : Bool := let r := pqCmp v nominal p; r == some .gt || r == some .eq
  let le (p : Nat) : Bool := let r := pqCmp v nominal p; r == some .lt || r == some .eq
  if ty = 1 then ge (fld t 0 8 + h) else if ty = 2 then le (fld t 8 8 - h) else ge (fld t 16 8 + h)

/-- The more extreme of two values: the lower for a sag or an interruption, the higher for a swell (R150). -/
def pqWorse (ty : Nat) (a b : Word) : Word :=
  match opCmp .float32 a b with
  | some (lt, _) => if (ty = 2) = lt then b else a
  | none => a

/-- One event type of a channel follows a half-cycle value at window end `pos` (R149, R150). -/
def pqStep (s : State) (c ty : Nat) (v : Word) (pos : Nat) : State :=
  let nominal := rd s (chA c 8)
  match get? s.wgh.pq (c * 4 + ty) with
  | none =>
    if pqStarts s ty v nominal then
      let s := { s with wgh := { s.wgh with pq := ins s.wgh.pq (c * 4 + ty) ⟨pos, 1, v⟩ } }
      let w := rd s (reg pWGHPQ 0x084)
      if bit w 12 then scrvFire s (fld w 6 6) .bulk pos false else s
    else s
  | some e =>
    if pqEnds s ty v nominal then
      pqRecord { s with wgh := { s.wgh with pq := del s.wgh.pq (c * 4 + ty) } } c ty e pos false
    else
      { s with wgh := { s.wgh with
        pq := ins s.wgh.pq (c * 4 + ty) { e with half := e.half + 1, extreme := pqWorse ty e.extreme v } } }

/-- The half-cycle RMS of a channel published, its power-quality events followed (R144, R149). -/
def pubHalfCh (s : State) (b c : Nat) : State :=
  let win := windowOf s (b - 65536) b
  if !chUsed s (cycleOf (b - 1)) c ∨ win.isEmpty then s
  else
    let v := measured (c * 256 + 1) (rmsOf c win)
    let s := publish s (b - 65536) b (c * 256 + 1) v
    if isVolt c then [1, 2, 3].foldl (fun t ty => pqStep t c ty v b) s else s

/-- P (lag 0) or Q (lag 64) of a phase over a window (R146). -/
def phasePower (s : State) (lag : Nat) (win : List GridS) (ph : Nat × Nat × Nat × Bool) : Frac :=
  let n := (s.wgh.hist.takeWhile fun g => (win.head?.map fun h => decide (h.pos < g.pos)).getD false).length
  ⟨sumVI win (s.wgh.hist.drop n) lag ph.2.1 ph.2.2.1 ph.2.2.2, max 1 win.length * unitSq⟩

/-- S of a phase over a window: V_rms × I_rms (R146). -/
def phaseApparent (win : List GridS) (ph : Nat × Nat × Nat × Bool) : Frac := (rmsOf ph.2.1 win).mul (rmsOf ph.2.2.1 win)

/-- The sum of a circuit's phases in a cycle. -/
def phaseSum (s : State) (cyc k : Nat) (f : Nat × Nat × Nat × Bool → Frac) : Frac :=
  (phasesOf s cyc k).foldl (fun acc ph => Frac.add acc (f ph)) ⟨0, 1⟩

/-- The one-cycle measurands of a circuit published (R144). -/
def pubOneCycle (s : State) (b k : Nat) : State :=
  let win := windowOf s (b - 65536) b
  let cyc := cycleOf (b - 1)
  if !cirOn s cyc k ∨ win.isEmpty then s
  else
    let o := (0x20 + k) * 256
    publish (publish s (b - 65536) b (o + 4) (measured (o + 4) (phaseSum s cyc k (phasePower s 0 win)))) (b - 65536) b (o + 5)
      (measured (o + 5) (phaseSum s cyc k (phasePower s 64 win)))

/-- The window of a half-cycle, and at angle 0 that of a cycle, published (R144). -/
def pubHalf (s : State) : State :=
  let b := s.wgh.pubHalf + 32768
  let s := reachPos s (b + 4096)
  let s := { s with wgh := { s.wgh with pubHalf := b } }
  let s := (List.range 24).foldl (fun t c => pubHalfCh t b c) s
  if b % 65536 = 0 then (List.range 18).foldl (fun t k => pubOneCycle t b k) s else s

/-- Cycles of an aggregated window (R144). -/
def aggN (s : State) : Nat := if bit (lacCtrl s) 8 then 12 else 10

/-- A channel's samples of a window that starts at a position, with their places in it. -/
def placed (win : List GridS) (start c : Nat) : List (Nat × Int) := win.map fun g => ((g.pos - start) / 256, g.x c)

/-- X_h of a channel in its primary unit; order 0 is the mean of the window (R147). -/
def harmonic (n h : Nat) (group : Bool) (xs : List (Nat × Int)) : Frac :=
  let unit : Frac := ⟨1, 2 ^ 177⟩
  if h = 0 then unit.mul ⟨xs.foldl (fun a e => a + e.2) 0, max 1 xs.length⟩ else unit.mul (harmSq n h group xs).sqrt

/-- THD in percent: √(Σ X_h²) / X_1 × 100 over h = 2–63 (R146); none without a fundamental. -/
def thdOf (n : Nat) (group : Bool) (xs : List (Nat × Int)) : Option Frac :=
  let one := harmSq n 1 group xs
  if one.num = 0 then none
  else
    let rest : Frac := (List.range 62).foldl (fun acc j => Frac.add acc (harmSq n (j + 2) group xs)) ⟨0, 1⟩
    some ((rest.div one).sqrt.mul ⟨100, 1⟩)

/-- The aggregated measurands of a channel published (R146, R147); a THD without a fundamental is a choice of the part
(log 5). -/
def pubAggCh (s : State) (win : List GridS) (start c : Nat) : State :=
  let n := aggN s
  let stop := start + n * 65536
  let s := wrB (wrB s (chA c 0x18) 1 ((chan s c).ovldIn start stop)) (chA c 0x18) 3 (win.any fun g => g.sub.contains c)
  if !chUsed s (cycleOf (stop - 1)) c ∨ win.isEmpty then s
  else
    let grp := rdB s (reg pWGHPQ 0x084) 0
    let xs := placed win start c
    let thd := match thdOf n grp xs with
      | some x => measured (c * 256 + 2) x
      | none => w32 (Config.pick (c * 256 + 2) [])
    let s := publish s start stop (c * 256) (measured (c * 256) (rmsOf c win))
    let s := publish s start stop (c * 256 + 2) thd
    let s := publish s start stop (c * 256 + 3) (measured (c * 256 + 3) (harmonic n 1 grp xs))
    publish s start stop (c * 256 + 4) (w32 (phaseAu (c * 256 + 4) (dftBin (256 * n) n xs)))

/-- S < 0.1 % of the circuit's full-scale product, the sum of its phases' SCALE products (R146, log 19). -/
def lowS (s : State) (cyc k : Nat) (sv : Frac) : Bool :=
  (sv.mul ⟨1000, 1⟩).lt (phaseSum s cyc k fun ph => (scaleOf s cyc ph.2.1).mul (scaleOf s cyc ph.2.2.1))

/-- The aggregated measurands of a circuit published (R146), under the composition of the window's last cycle; PF = 0 / 0 is a
choice of the part (log 5). -/
def pubAggCir (s : State) (win : List GridS) (start k : Nat) : State :=
  let stop := start + aggN s * 65536
  let cyc := cycleOf (stop - 1)
  if !cirOn s cyc k ∨ win.isEmpty then s
  else
    let o := (0x20 + k) * 256
    let p := phaseSum s cyc k (phasePower s 0 win)
    let q := phaseSum s cyc k (phasePower s 64 win)
    let a := phaseSum s cyc k (phaseApparent win)
    let low := lowS s cyc k a
    let s := publish s start stop o (measured o p)
    let s := publish s start stop (o + 1) (measured (o + 1) q)
    let s := publish s start stop (o + 2) (measured (o + 2) a)
    let s := publish s start stop (o + 3) (if low then 0x3F800000 else
      if a.num = 0 then w32 (Config.pick (o + 3) []) else measured (o + 3) (p.div a))
    let s := wrB s (cirA k 4) 1 low
    (phasesOf s cyc k).foldl (fun t ph =>
      let j := ph.1
      let t := wr t (cirA k (0x18 + 12 * j)) (measured (o + 16 + 3 * j) (phasePower s 0 win ph))
      let t := wr t (cirA k (0x1C + 12 * j)) (measured (o + 17 + 3 * j) (phasePower s 64 win ph))
      wr t (cirA k (0x20 + 12 * j)) (measured (o + 18 + 3 * j) (phaseApparent win ph))) s

/-- The frequency of a window [a, b) in Hz: its cycles over its real duration, from the fabric cycle on which its start was
reached to that on which its end was (R146). Where no sample stands at a boundary, between the first samples produced from it
on, and over the cycles between them (log 19). -/
def windowRate (s : State) (a b : Nat) : Option Frac :=
  let all := (s.wgh.hist.reverse ++ s.wgh.queue).filter fun g => decide (a ≤ g.pos)
  match all.head? with
  | none => none
  | some g =>
    let e := ((all.find? fun h => decide (b ≤ h.pos)).orElse fun _ => all.getLast?).getD g
    if e.fab ≤ g.fab then none
    else some ⟨((e.pos - g.pos) * Config.fabricHz : Nat), 65536 * (e.fab - g.fab)⟩

/-- The aggregated window published (R144–R146): ASYNC, frequency, channels and circuits together. -/
def pubAgg (s : State) : State :=
  let n := aggN s * 65536
  let b := (s.wgh.pubAgg / n + 1) * n
  let s := reachPos s (b + 8192)
  let win := windowOf s (b - n) b
  let s := { s with wgh := { s.wgh with pubAgg := b } }
  let s := wrB s (reg pWGH 0x080) 1 (!inSync s (b - n) b)
  let s := wr64 s (reg pWGH 0x0A4) b
  let s := match windowRate s (b - n) b with
    | some f => publish s (b - n) b 0xFF00 (measured 0xFF00 f)
    | none => s
  let s := (List.range 24).foldl (fun t c => pubAggCh t win (b - n) c) s
  (List.range 18).foldl (fun t k => pubAggCir t win (b - n) k) s

/-- MEASURAND_PUBLISH (R144): the window that is published next, once the grid runs. -/
def measurandOp (s : State) : State :=
  if !wghRuns s ∨ s.wgh.lastFab.isNone then s
  else
    let n := aggN s * 65536
    if s.wgh.pubHalf + 32768 + 4096 ≤ (s.wgh.pubAgg / n + 1) * n + 8192 then pubHalf s else pubAgg s

/-- A write to WGHPQ.CTRL (the HSEL field): the channel's last aggregated window latched. -/
def hselSet (s : State) (v : Word) : State :=
  let v := v &&& 0x1FFF
  let c := fld v 1 5
  let n := aggN s * 65536
  let win := windowOf s (s.wgh.pubAgg - n) s.wgh.pubAgg
  let s := wr s (reg pWGHPQ 0x084) v
  if c = 0 ∨ 24 < c then s
  else
    let xs := placed win (s.wgh.pubAgg - n) (c - 1)
    let s := wr64 s (reg pWGHPQ 0x08C) (rd64 s (reg pWGH 0x0A4))
    (List.range 64).foldl (fun t h =>
      wr (wr t (reg pWGHPQ (0x200 + 8 * h)) (measured (0x10000 + 128 * c + 2 * h) (harmonic (aggN s) h (bit v 0) xs)))
        (reg pWGHPQ (0x204 + 8 * h)) (w32 (phaseAu (0x10001 + 128 * c + 2 * h) (dftBin (256 * aggN s) (h * aggN s) xs)))) s

/-! ### Snapshot and clearing -/

/-- SNAP (R155). -/
def snapOp (s : State) : State :=
  let acc (t : State) (j : Nat) : State :=
    let k := j / 7
    let a := j % 7
    let raw := look 0 s.wgh.raws (k * 8 + a)
    let b := reg pWGHEN (0x100 + 0xA8 * k + 0x18 * a)
    let t := wr64 t b (mwh raw)
    (List.range 4).foldl (fun u w => wr u (b + 8 + 4 * w) (w32 (raw / 2 ^ (32 * w)))) t
  let s' := (List.range 126).foldl acc s
  let s' := (List.range 72).foldl (fun t j => wr t (reg pWGHEN (0xCD0 + 4 * j)) (look 0 s.wgh.dem j)) s'
  let s' := wr64 s' (reg pWGHEN 0x08C) s.wgh.incl
  tally (wrB s' (reg pWGHEN 0x084) 0 true) (reg pWGHEN 0x094)

/-- The values before a clear, as bytes, for the hash of R156. -/
def energyBytes (s : State) : List Byte :=
  (List.range 126).flatMap (fun j => leBytes 16 (look 0 s.wgh.raws (j / 7 * 8 + j % 7))) ++
    (List.range 72).flatMap fun j => leBytes 4 (look 0 s.wgh.dem j).toNat

/-- CLEAR_ENERGY (R156). -/
def clearEnergyOp (s : State) : State := { s with wgh := { s.wgh with raws := [], demand := [], dem := [] } }

/-- CLEAR_MAXDEM (R156). -/
def clearMaxdemOp (s : State) : State :=
  { s with wgh := { s.wgh with
    dem := (List.range 18).foldl (fun w k => put 0 (put 0 w (k * 4 + 2) 0) (k * 4 + 3) 0) s.wgh.dem } }

/-! ### Checkpoints and power failure -/

/-- METER_CKPT (R157): entry 12 writes slot A, entry 13 slot B. -/
def meterCkpt (s : State) (target : Nat) : State :=
  if !wghRuns s ∨ s.wgh.stopped ∨ s.wgh.writing.isSome then s
  else
    let c := ckptOf s false
    { s with wgh := { s.wgh with writing := some (target % 2 + 1, c, 0), retry := none, ckSeq := c.seq } }

/-- A slot of MRAM written and verified. -/
def slotDone (s : State) (slot : Nat) (c : Ckpt) : State :=
  let s := { s with wgh := { s.wgh with slots := ins s.wgh.slots slot c } }
  let s := bump (wr64 s (reg pWGH 0x090) c.pos) (reg pWGH 0x098)
  wrF s (reg pWGH 0x080) 2 2 slot

/-- CHECKPOINT_DONE (R157): verified, or EVT.CKPT_FAIL and up to three retries; a failed slot holds nothing valid. -/
def ckptDone (s : State) (ok : Bool) : State :=
  match s.wgh.writing with
  | none => s
  | some (slot, c, n) =>
    let s := { s with wgh := { s.wgh with writing := none } }
    if ok then slotDone s slot c
    else
      ev { s with wgh := { s.wgh with
        slots := ins s.wgh.slots slot { c with crc := ~~~c.crc }
        retry := if n < 3 then some (slot, c, n) else none } } pWGH 0

/-- CHECKPOINT_RETRY (R157). -/
def ckptRetry (s : State) : State :=
  match s.wgh.retry with
  | some (slot, c, n) =>
    if s.wgh.stopped ∨ s.wgh.writing.isSome then s
    else { s with wgh := { s.wgh with writing := some (slot, c, n + 1), retry := none } }
  | none => s

/-- The power-fail trigger for Weighhouse (R158): checkpoints stop, the intent word is written. -/
def wghPowerFail (s : State) : State :=
  if s.wgh.stopped then s
  else { s with wgh := { s.wgh with
    save := .triggered, intent := some (count s, s.wgh.ckSeq), writing := none, retry := none, capture := none, stopped := true } }

/-- FINAL_SAVE_DONE (R158). -/
def finalSave (s : State) : State :=
  match s.wgh.save, s.wgh.capture with
  | .triggered, some c =>
    ev (slotDone { s with wgh := { s.wgh with save := .saved, capture := none, ckSeq := c.seq } } 3 c) pWGH 1
  | _, _ => s

/-- Power back without a reset (R158): checkpoints resume. -/
def wghPowerBack (s : State) : State :=
  { s with wgh := { s.wgh with stopped := false, save := .none, capture := none } }

/-- The valid slot of the highest sequence number (R159). -/
def bestSlot (s : State) : Option (Nat × Ckpt) :=
  (s.wgh.slots.filter fun e => e.2.valid).foldl (fun acc e =>
    match acc with
    | none => some e
    | some b => if b.2.seq < e.2.seq then some e else some b) none

/-- The demand interval that goes on after a restore: irregular, its real duration counted by the calendar while the module was
without power (R154, R159). -/
def ivResume (s : State) (c : DemIv) : DemIv :=
  { c with fab := s.clk.fabric, before := (calSeconds s - c.sec) * Config.fabricHz, irr := true }

/-- The gap to the intent word's position, which is newer than a slot where no checkpoint has been written since it; the count
of a run starts again at 0 (R33, R159, log 58). -/
def intentGap (s : State) (c : Ckpt) : Option Nat :=
  match s.wgh.intent with
  | some (p, n) => if c.seq ≤ n then some (cycleOf p - (if c.pos ≤ p then cycleOf c.pos else 0)) else none
  | none => none

/-- The restore at start or after a block restart (R159); `restart` is the position of a block restart, to which its
gap counts. -/
def wghRestore (s : State) (restart : Option Nat) : State :=
  let base := { s.wgh with
    queue := [], hist := [], lastFab := none, writing := none, retry := none, ivEnd := none, dem0 := ivStart s true
    save := .none, capture := none, stopped := false }
  match bestSlot s with
  | none =>
    wr { s with wgh := { base with raws := [], demand := [], dem := [], pq := [], incl := 0, outageFrom := none } }
      (reg pWGH 0x088) 0x10
  | some (slot, c) =>
    let s' := { s with wgh := { base with
      raws := c.raws, demand := c.demand, dem := c.maxdem, pq := c.events, incl := c.pos, dem0 := ivResume s c.iv
      ivEnd := c.ivEnd.map fun e => { e with irr := true }, ckSeq := c.seq, outageFrom := some c.cal } }
    let s' := ivSettle s'
    let lost : Option Nat := match restart with
      | some p => some (cycleOf p - cycleOf c.pos)
      | none => intentGap s c
    if slot = 3 ∧ restart.isNone then wr s' (reg pWGH 0x088) (w32 (3 + 4))
    else
      ev (wr s' (reg pWGH 0x088) (w32 (slot + b2n lost.isNone * 8 + min 255 (lost.getD 64) * 2 ^ 16))) pWGH 2

end Sys2Proof.Machine
end

