-- ==== Sys2Proof/Machine/LoopsOps.lean ====
section
/-!
DEFINITION. The loop engine (R112–R132): samples, computations, outputs, the schedule check and the locks of the loop
record.
-/

namespace Sys2Proof.Machine

/-- The address of a register of loop `n`'s record. -/
def loopA (n off : Nat) : Nat := reg (0x19 + n / 32) (128 * (n % 32) + off)

/-- A loop's law state. -/
def loopSt (s : State) (n : Nat) : LoopSt := look .zero s.loops n

/-- A loop's law state replaced. -/
def setLoop (s : State) (n : Nat) (x : LoopSt) : State := { s with loops := put .zero s.loops n x }

/-- CTRL.ENABLE of a loop. -/
def loopEnabled (s : State) (n : Nat) : Bool := rdB s (loopA n 0) 31

/-- CTRL.MODE of a loop. -/
def loopMode (s : State) (n : Nat) : Nat := rdF s (loopA n 0) 0 2

/-- k of R112. -/
def loopK (s : State) (n : Nat) : Nat := rdF s (loopA n 0x04) 0 11 + 1

/-- The loop engine runs and loop `n` is scheduled. -/
def loopLive (s : State) (n : Nat) : Bool :=
  runs s pLOOP && s.lac.inService && loopEnabled s n && !(loopSt s n).retired

/-- A value of a type as Q16.16 (R126): NaN gives 0 and BAD. -/
def srcQ (x : Slot) : Slot :=
  match x.ty with
  | .float32 => if F32.of x.val = .nan then ⟨.q16, 0, qBAD⟩ else ⟨.q16, (conv .float32 .q16 x.val).1, x.qual⟩
  | t => ⟨.q16, (conv t .q16 x.val).1, x.qual⟩

/-- What a source descriptor reads at a sample's position (R126): nothing that took effect on the sample's own fabric cycle, or
after it (R113). -/
def loopSource (s : State) (pos : Nat) (w : Word) : Slot :=
  let i := fld w 0 16
  let k := fld w 28 4
  if k = 1 then srcQ (pointBefore s i pos)
  else if k = 2 then measBefore s i pos
  else if k = 3 then (if 1 ≤ i ∧ i ≤ 16 then freqBefore s i pos else ⟨.q16, 0, qBAD⟩)
  else if k = 4 then (if i < 16 then busBefore s (fld w 16 3) i pos else ⟨.q16, 0, qBAD⟩)
  else if k = 5 then (if i < 256 then ⟨.q16, loopBefore s i 0x70 pos, qGOOD⟩ else ⟨.q16, 0, qBAD⟩)
  else ⟨.q16, 0, qGOOD⟩

/-- `k` late or omitted samples counted (R118). -/
def loopLate (s : State) (k : Nat) : State :=
  if k = 0 then s else ev (bumpBy s (reg pLOOP 0x08C) k) pLOOP 5

/-- The law state as the law takes it. -/
def LoopSt.law (x : LoopSt) : Law := ⟨x.integ, x.d, x.ed, x.v1, x.v2, x.w1, x.w2, x.closing, x.afterFault⟩

/-- The law state put back. -/
def LoopSt.withLaw (x : LoopSt) (l : Law) : LoopSt :=
  { x with integ := l.integ, d := l.d, ed := l.ed, v1 := l.v1, v2 := l.v2, w1 := l.w1, w2 := l.w2
           closing := l.closing, afterFault := l.afterFault }

/-- The law state as numbers, for a discard. -/
def Law.list (l : Law) : List Int :=
  [l.integ, l.d, l.ed, l.v1, l.v2, l.w1, l.w2, b2n l.closing, b2n l.afterFault]

/-- The law state from its numbers. -/
def Law.ofList (l : List Int) : Law :=
  ⟨nthD l 0 0, nthD l 1 0, nthD l 2 0, nthD l 3 0, nthD l 4 0, nthD l 5 0, nthD l 6 0,
   decide (nthD l 7 0 ≠ 0), decide (nthD l 8 0 ≠ 0)⟩

/-- A word of a loop record written, what it held noted (R61, R113). -/
def loopWr (s : State) (n off ord : Nat) (v : Word) : State :=
  wr (notePast s 1 n off ord ⟨.int32, rd s (loopA n off), 0⟩) (loopA n off) v

/-- The flags of a computation or an output: sticky FLAGS, STATUS.NOW, EVT.FLAGS (R122). -/
def loopFlags (s : State) (n fl : Nat) : State :=
  let old := rd s (loopA n 0x78)
  let s := wr s (loopA n 0x78) (old ||| w32 fl)
  evIf (decide (old = 0) && decide (fl ≠ 0)) s pLOOP 6

/-- The result of a sample (R119, R123, R128): output, flags, law, and whether it is a PV fault. -/
def loopResult (s : State) (n : Nat) (x : LoopSt) (m : LoopSample) : LawOut × Bool :=
  let u1 := sw (rd s (loopA n 0x70)) * 65536
  if !m.good then
    let u := if bit (recAt m.rec_ 0) 4 then recI m.rec_ 0x6C * 65536 else u1
    (⟨u, 0, { x.law with closing := true, afterFault := true }⟩, true)
  else
    let l := { x.law with closing := x.closing || m.closing }
    (if fld (recAt m.rec_ 0) 0 2 = 2 then closedStep m.rec_ l m.r m.y m.f u1
     else manualStep m.rec_ l m.r m.y m.track u1, false)

/-- LOOP_COMPUTATION: the sample taken becomes a result (R119–R128). -/
def loopCompute (s : State) (n : Nat) : State :=
  let x := loopSt s n
  match x.sample with
  | none => s
  | some m =>
    let (o, bad) := loopResult s n x m
    let delay := (recAt m.rec_ 0x0C).toNat
    let u := roundAway o.u 65536
    let s := setLoop s n { x.withLaw o.law with
      sample := none
      result := some {
        pos := m.pos + delay, u := u, late := m.late, prev := { x.law with closing := x.closing || m.closing }.list
        ready := count s, status := rd s (loopA n 0x74), integW := rd s (loopA n 0x7C)
        newFl := ((w32 o.fl) &&& ~~~(rd s (loopA n 0x78))).toNat } }
    let st := fld (recAt m.rec_ 0) 0 2 + b2n bad * 4 + rdF s (loopA n 0x74) 3 2 * 8 + o.fl * 65536
    let s := wr (loopWr s n 0x74 0 (w32 st)) (loopA n 0x7C) (accQ o.law.integ)
    let s := loopFlags s n o.fl
    if bad then ev (bump s (reg pLOOP 0x090)) pLOOP 4 else s

/-- Sample positions of a period before `pos` that the forward step which skipped `pos` has skipped too (R118). -/
def omittedOf (s : State) (per pos : Nat) : Nat := if skipped s pos then (pos - s.lac.stepFrom - 1) / per else 0

/-- A sample position may be taken: of those that a forward step has skipped only the last (R118). -/
def sampleDue (s : State) (per pos : Nat) : Bool := !skipped s pos || decide (s.lac.stepTo ≤ pos + per)

/-- The point-store reads of a sample: its sources of KIND 1 (R10, R126). -/
def loopReads (r : List Word) : Nat :=
  ((([0x10, 0x18, 0x1C] ++ if bit (recAt r 0) 5 then [0x14] else []).filter fun o => fld (recAt r o) 28 4 == 1)).length

/-- LOOP_SAMPLE at a position of the loop (R112, R113, R118). -/
def loopSampleOp (s : State) (n pos : Nat) : State :=
  let per := loopK s n * 8192
  let stale : Bool := match (loopSt s n).lastPos with | some p => decide (pos ≤ p) | none => false
  if !loopLive s n ∨ pos % per ≠ rdF s (loopA n 0x08) 0 24 ∨ stale ∨ !sampleDue s per pos then s
  else
    let late := skipped s pos
    let s := loopCompute (reachPos s pos) n
    let s := loopLate s (omittedOf s per pos + b2n late)
    let rec_ := (List.range 32).map fun j => loopBefore s n (4 * j) pos
    let pv := loopSource s pos (recAt rec_ 0x10)
    let sp := if bit (recAt rec_ 0) 5 then (loopSource s pos (recAt rec_ 0x14)).val else recAt rec_ 0x24
    let x := loopSt s n
    let opened : Bool := match x.opened with | some p => decide (p < pos) | none => false
    let m : LoopSample :=
      { pos := pos, rec_ := rec_, r := sw sp, y := sw pv.val
        f := sw (loopSource s pos (recAt rec_ 0x18)).val, track := sw (loopSource s pos (recAt rec_ 0x1C)).val
        good := pv.qual % 2 == 1, late := late, closing := opened }
    let s := setLoop s n { x with sample := some m, lastPos := some pos, opened := if opened then none else x.opened }
    ptUse (loopWr s n 0x74 0 (setFld (rd s (loopA n 0x74)) 3 1 0)) (.loop (Fin.ofNat 256 n)) (loopReads rec_)

/-- A write to a loop's SP on the same fabric cycle, by a writer that follows in R127's order. -/
def spOverruled (s : State) (n : Nat) (w : Who) : Bool :=
  s.past.any fun e => e.kind == 1 && e.idx == n && e.sub == 0x24 && e.cyc == s.clk.fabric && decide (rankOf w < e.ord)

/-- A write to a loop's SP by Loom, another loop or a register write (R127): ignored with SP_SRC = 1; of those on one fabric
cycle the last in the order of their writers stands. -/
def loopSp (s : State) (w : Who) (n : Nat) (v : Word) : State :=
  if rdB s (loopA n 0) 5 then ev s pLOOP 3
  else loopWr s n 0x24 (rankOf w) (if spOverruled s n w then rd s (loopA n 0x24) else v)

/-- CTRL.PRIORITY as it acts: 1–16. -/
def loopPrio (s : State) (n : Nat) : Nat := clampN 1 16 (rdF s (loopA n 0) 8 5)

/-- A value written to a loop's destination (R129): with whether it was clamped for a transmit object. -/
def loopDest (s : State) (n : Nat) (u : Word) (pos : Nat) : State × Bool :=
  let w := rd s (loopA n 0x20)
  let i := fld w 0 16
  let k := fld w 28 4
  if k = 1 then
    (ptInternal s (.loop (Fin.ofNat 256 n)) i (loopPrio s n) (some (conv .q16 (point s i).ty u).1) pos, false)
  else if k = 2 then (if i < 16 then objCommitLoop s (fld w 16 3) i u else (s, false))
  else if k = 3 then (if i < 256 then loopSp s (.loop (Fin.ofNat 256 n)) i u else s, false)
  else (s, false)

/-- OUT written and its destination with it (R129). -/
def loopWriteOut (s : State) (n : Nat) (u : Word) (pos : Nat) : State :=
  let (s, sat) := loopDest (loopWr s n 0x70 0 u) n u pos
  if sat then loopWr (loopFlags s n 16) n 0x74 0 (setFld (rd s (loopA n 0x74)) 20 1 1) else s

/-- LOOP_OUTPUT at its nominal position (R114, R118): late when a forward step skipped it or it passed before the result was
ready. -/
def loopOutputOp (s : State) (n pos : Nat) : State :=
  let x := loopSt s n
  match x.result with
  | none => s
  | some r =>
    if !loopLive s n ∨ r.pos ≠ pos then s
    else
      let late := (skipped s pos || decide (pos < r.ready)) && !r.late
      let s := loopLate (reachPos s pos) (b2n late)
      loopWriteOut (setLoop s n { loopSt s n with result := none }) n (i32 r.u) pos

/-! ### The schedule -/

/-- The slots a loop counts in (R115). -/
def loopSlots (s : State) (n : Nat) : List Nat :=
  let g := Nat.gcd (loopK s n) 8
  (List.range 8).filter fun j => j % g == rdF s (loopA n 0x08) 0 24 / 8192 % g

/-- The enabled loops. -/
def enabledLoops (s : State) : List Nat := (List.range 256).filter (loopEnabled s)

/-- LOOP.SLOT_LOADj (R115). -/
def slotLoad (s : State) (j : Nat) : Nat := ((enabledLoops s).filter fun n => (loopSlots s n).contains j).length

/-- LOOP.STAT. -/
def loopStat (s : State) : Word := w32 ((enabledLoops s).length + b2n (runs s pLOOP) * 512)

/-- LOOP.FLAGSUMk. -/
def flagSum (s : State) (k : Nat) : Word :=
  w32 ((List.range 32).map fun j => b2n (decide (rd s (loopA (32 * k + j) 0x78) ≠ 0)) * 2 ^ j).sum

/-- The checks of R117 on enabling: cause and slot of the first that fails. -/
def loopCheck (s : State) (n : Nat) : Option (Nat × Nat) :=
  let per := loopK s n * 8192
  let d := rdF s (loopA n 0x0C) 0 24
  match (loopSlots s n).find? fun j => decide (96 ≤ slotLoad s j) with
  | some j => some (1, j)
  | none =>
    if d < 160 then some (2, 0) else if per < d then some (3, 0)
    else if per ≤ rdF s (loopA n 0x08) 0 24 then some (4, 0) else none

/-- CTRL as it acts and reads. -/
def loopCtrlClean (v : Word) : Word :=
  let v := v &&& 0x80001F3F
  let v := if fld v 0 2 = 3 then setFld v 0 2 0 else v
  setFld v 8 5 (clampN 1 16 (fld v 8 5))

/-- A coefficient register (R124). -/
def isCoef (off : Nat) : Bool :=
  (decide (0x2C ≤ off) && decide (off ≤ 0x48)) || (decide (0x58 ≤ off) && decide (off ≤ 0x68))

/-- A register that can be written only while ENABLE is 0 (R117). -/
def isRouting (off : Nat) : Bool := decide (0x04 ≤ off) && decide (off ≤ 0x20)

/-- Why a write to a loop record is ignored, if it is (R117, R124, R127): 0 schedule, 1 CFG lock, 2 coefficient lock,
3 SP. -/
def loopRefuse (s : State) (n off : Nat) (v : Word) : Option Nat :=
  let old := rd s (loopA n off)
  let ctrl := rd s (loopA n 0)
  if off = 0 then
    let new := loopCtrlClean v
    let coef := decide (fld new 2 2 ≠ fld old 2 2)
    if coef && (fld old 0 2 == 2 || fld new 0 2 != fld old 0 2) then some 2
    else if bit new 31 ∧ !bit old 31 ∧ (loopCheck s n).isSome then some 0
    else none
  else if isRouting off then (if bit ctrl 31 then some 1 else none)
  else if isCoef off then (if fld ctrl 0 2 = 2 ∧ v ≠ old then some 2 else none)
  else if off = 0x24 then (if bit ctrl 5 then some 3 else none)
  else none

/-- What a refused write to a loop record sets (R117, R124, R127). -/
def loopRefused (s : State) (n cause : Nat) : State :=
  if cause = 0 then
    match loopCheck s n with
    | some (c, j) => ev (wr s (reg pLOOP 0x088) (w32 (n + j * 256 + c * 4096))) pLOOP 0
    | none => s
  else if cause = 2 then ev (wrB s (loopA n 0x74) 3 true) pLOOP 2
  else ev s pLOOP cause

/-- An accepted write to a loop record (R117, R123, R125); enabling starts the law afresh, with positions after the
present one (log 29). -/
def loopSet (s : State) (n off : Nat) (v : Word) : State :=
  if off ≠ 0 then
    loopWr s n off 0
      (if off = 0x04 then v &&& 0x7FF else if off = 0x08 ∨ off = 0x0C then v &&& 0xFFFFFF
       else if 0x10 ≤ off ∧ off ≤ 0x20 then v &&& 0xF007FFFF else v)
  else
    let old := rd s (loopA n 0)
    let new := loopCtrlClean v
    let s := loopWr s n 0 0 new
    let x := loopSt s n
    if bit new 31 ∧ !bit old 31 then
      loopWr (setLoop s n { LoopSt.zero with retired := x.retired, lastPos := some (count s) }) n 0x70 0
        (rd s (loopA n 0x6C))
    else if !bit new 31 then setLoop s n { x with sample := none, result := none }
    else if fld new 0 2 ≠ 2 ∧ x.opened.isNone then setLoop s n { x with opened := some (count s) }
    else s

/-- The reserved entries of the loop slots while the engine runs (R114). -/
def loopPlace (s : State) : State :=
  (List.range 8).foldl (fun t j =>
    if runs t pLOOP then aetPlace t (4 + j) (8192 * j) 0 0 1 6 j else aetDisable t (4 + j)) s

/-- A fault in a loop's state or computation (R130): its sample is discarded, law state, STATUS, INTEG and FLAGS as before. -/
def loopDiscard (s : State) (n : Nat) : State :=
  let x := loopSt s n
  match x.sample, x.result with
  | none, none => s
  | some m, _ => bump (setLoop s n { x with sample := none, closing := x.closing || m.closing }) (reg pLOOP 0x040)
  | none, some r =>
    let s := setLoop s n { x.withLaw (Law.ofList r.prev) with result := none }
    let s := wr (loopWr s n 0x74 0 r.status) (loopA n 0x7C) r.integW
    bump (wr s (loopA n 0x78) (rd s (loopA n 0x78) &&& ~~~(w32 r.newFl))) (reg pLOOP 0x040)

/-- Every sample and result in flight discarded: the engine is fenced or stopped (R311). -/
def loopDiscardAll (s : State) : State := (List.range 256).foldl loopDiscard s

/-- A loop's cell found lasting (R130): STATUS.RETIRED, SAFE_VALUE written to its destination once. -/
def loopRetire (s : State) (n : Nat) : State :=
  if (loopSt s n).retired then s
  else
    let s := setLoop s n { loopSt s n with sample := none, result := none, retired := true }
    let s := wrB s (loopA n 0x74) 4 true
    loopWriteOut s n (rd s (loopA n 0x6C)) (count s)

end Sys2Proof.Machine
end

