-- ==== Sys2Proof/Machine/EthOps.lean ====
section
/-!
DEFINITION. The Ethernet MACs' operations (R208–R222): receiving, admission, routing, flow control, descriptors,
segmentation and the statistics counters.
-/

namespace Sys2Proof.Machine

/-- The page of port `n` (0–17). -/
def ethPg (n : Nat) : Nat := pETH + n

/-- A port's state. -/
def ethPort (s : State) (n : Nat) : EthPort := look .reset s.eth n

/-- A port's state replaced. -/
def setEth (s : State) (n : Nat) (p : EthPort) : State := { s with eth := put .reset s.eth n p }

/-- The offset of counter `k` (R222): counters 0, 1 and 24 are 64 bits wide. -/
def ethCntOff (k : Nat) : Nat :=
  if k ≤ 1 then 0x200 + 8 * k else if k ≤ 24 then 0x208 + 4 * k else 0x20C + 4 * k

/-- Counter `k` of a port counts `d`: wrapping or saturating, with its half-range bit (R222). -/
def ethCount (s : State) (n k d : Nat) : State :=
  let a := reg (ethPg n) (ethCntOff k)
  let wide := k = 0 ∨ k = 1 ∨ k = 24
  let width := if wide then 64 else 32
  let old := if wide then rd64 s a else (rd s a).toNat
  let cor := corMode s (ethPg n)
  let new := countUp cor width old d
  let s1 := if wide then wr64 s a new else wr s a (w32 new)
  let half := decide (old < 2 ^ (width - 1)) && decide (2 ^ (width - 1) ≤ old + d)
  if half then
    ev (wrB s1 (reg (ethPg n) (if k < 32 then 0x0B4 else 0x0B8)) (k % 32) true) (ethPg n) 3
  else s1

/-- MAXLEN in force (R211, the ETH page map). -/
def maxLen (s : State) (n : Nat) : Nat := rdF s (reg (ethPg n) 0x080) 16 14

/-- A port's receive occupancy in octets (R219). -/
def rxOcc (p : EthPort) : Nat := ((p.rxq.map Prod.snd ++ p.rxHold).map List.length).sum

/-- Octets drawn on the pool by all ports (R211). -/
def poolUsed (s : State) : Nat := ((List.range 18).map fun n => rxOcc (ethPort s n) - 65536).sum

/-- Whether a port can hold MAXLEN more octets (R211). -/
def admits (s : State) (n : Nat) : Bool :=
  let occ := rxOcc (ethPort s n)
  let cap := max 65536 (max 0x40 (rdF s (reg (ethPg n) 0x0A8) 16 8) * 1024)
  let need := occ + maxLen s n
  decide (need ≤ cap) && decide (poolUsed s + (need - 65536) - (occ - 65536) ≤ 608 * 1024)

/-- The big-endian number of `n` bytes at an offset of a frame. -/
def beAt (f : List Byte) (off n : Nat) : Nat := leNat (slice f off n).reverse

/-- The big-endian bytes of a number. -/
def beBytes (n v : Nat) : List Byte := (leBytes n v).reverse

/-- The offset of the EtherType: after one IEEE 802.1Q tag when one stands after the source address (R208). -/
def etherOff (f : List Byte) : Nat := if beAt f 12 2 = 0x8100 then 16 else 12

/-- The station address of a port (ETHn.MAC). -/
def stationMac (s : State) (n : Nat) : Nat :=
  rdF s (reg (ethPg n) 0x090) 0 16 * 2 ^ 32 + (rd s (reg (ethPg n) 0x08C)).toNat

/-- Where the UDP header of an IPv6 datagram begins: after its hop-by-hop, routing and destination options headers, and an
unfragmented fragment header; `next` is the header at offset `o`. -/
def v6Udp (f : List Byte) : Nat → Nat → Nat → Option Nat
  | 0, _, _ => none
  | fuel + 1, next, o =>
    if next = 17 then some o
    else if next = 0 ∨ next = 43 ∨ next = 60 then v6Udp f fuel (beAt f o 1) (o + 8 * (beAt f (o + 1) 1 + 1))
    else if next = 44 ∧ beAt f (o + 2) 2 / 8 = 0 ∧ beAt f (o + 2) 2 % 2 = 0 then v6Udp f fuel (beAt f o 1) (o + 8)
    else none

/-- Where the UDP header of a frame for the OPX engine begins; `none` for every other frame (R210). -/
def opxUdpOff (s : State) (n : Nat) (f : List Byte) : Option Nat :=
  let e := etherOff f
  let ip := e + 2
  let port := rdF s (reg pOPX 0x080) 0 16
  if !rdB s (reg (ethPg n) 0x080) 2 then none
  else if beAt f e 2 = 0x0800 then
    let u := ip + 4 * (beAt f ip 1 % 16)
    if rdB s (reg pOPX 0x080) 16 ∧ beAt f ip 1 / 16 = 4 ∧ beAt f (ip + 6) 2 % 16384 = 0 ∧ beAt f (ip + 9) 1 = 17 ∧
       beAt f (ip + 16) 4 = (rd s (reg (ethPg n) 0x094)).toNat ∧ beAt f (u + 2) 2 = port then some u else none
  else if beAt f e 2 = 0x86DD then
    let dst := (rd s (reg (ethPg n) 0x098)).toNat * 2 ^ 96 + (rd s (reg (ethPg n) 0x09C)).toNat * 2 ^ 64 +
      (rd s (reg (ethPg n) 0x0A0)).toNat * 2 ^ 32 + (rd s (reg (ethPg n) 0x0A4)).toNat
    match v6Udp f (f.length / 8 + 1) (beAt f (ip + 6) 1) (ip + 40) with
    | some u =>
      if rdB s (reg pOPX 0x080) 17 ∧ beAt f (ip + 24) 16 = dst ∧ beAt f (u + 2) 2 = port then some u else none
    | none => none
  else none

/-- The size bucket of a frame (R222): 0 for 64 B to 6 for 1,519 B and more. -/
def bucket (size : Nat) : Nat :=
  if size ≤ 64 then 0 else if size ≤ 127 then 1 else if size ≤ 255 then 2 else if size ≤ 511 then 3
  else if size ≤ 1023 then 4 else if size ≤ 1518 then 5 else 6

/-- The statistics of a valid frame (R212). -/
def countValid (s : State) (n : Nat) (f : List Byte) : State :=
  let s := ethCount s n 0 f.length
  let s := ethCount s n 2 1
  let s := ethCount s n (8 + bucket f.length) 1
  let dst := beAt f 0 6
  let s := if dst = 0xFFFFFFFFFFFF then ethCount s n 5 1
    else if beAt f 0 1 % 2 = 1 then ethCount s n 4 1 else ethCount s n 3 1
  if beAt f 12 2 = 0x8100 then ethCount s n 22 1 else s

/-- The address filter of R209. -/
def filterOk (s : State) (n : Nat) (f : List Byte) : Bool :=
  let dst := beAt f 0 6
  decide (dst = stationMac s n) || decide (dst = 0xFFFFFFFFFFFF) ||
    (decide (beAt f 0 1 % 2 = 1) && rdB s (reg (ethPg n) 0x080) 3)

/-- The quanta of PAUSE frames (ETHn.PAUSE.QUANTA; 0 acts as 1). -/
def quantaOf (s : State) (n : Nat) : Nat := max 1 (rdF s (reg (ethPg n) 0x0AC) 0 16)

/-- The rank of a job's next frame: a PAUSE frame, then by class (R215). -/
def jobRank (j : TxJob) : Nat := match j.src with | .pause _ => 0 | _ => clsN j.cls + 1

/-- A PAUSE frame put ahead of every queued frame, behind the PAUSE frames of the port not yet sent (R219). -/
def sendPause (s : State) (n q : Nat) : State :=
  let p := ethPort s n
  let job : TxJob := ⟨.pause q, .safety, false, [beBytes 6 0x0180C2000001 ++ beBytes 6 (stationMac s n) ++
    beBytes 2 0x8808 ++ beBytes 2 1 ++ beBytes 2 q ++ List.replicate 42 0], 0⟩
  setEth s n { p with
    jobs := p.jobs.filter (fun j => jobRank j == 0) ++ job :: p.jobs.filter (fun j => jobRank j != 0)
    rxPausing := decide (q ≠ 0) }

/-- HWM in octets. -/
def hwm (s : State) (n : Nat) : Nat := rdF s (reg (ethPg n) 0x0A8) 0 8 * 1024
/-- LWM in octets: a value not below HWM acts as ⌊HWM / 2⌋. -/
def lwm (s : State) (n : Nat) : Nat :=
  let h := rdF s (reg (ethPg n) 0x0A8) 0 8
  let l := rdF s (reg (ethPg n) 0x0A8) 8 8
  (if h ≤ l then h / 2 else l) * 1024

/-- The flow control of R219 after the occupancy has risen. -/
def occRose (s : State) (n : Nat) : State :=
  let p := ethPort s n
  if hwm s n ≤ rxOcc p ∧ !p.rxPausing ∧ rdB s (reg (ethPg n) 0x080) 1 then sendPause s n (quantaOf s n) else s

/-- The flow control of R219 after the occupancy has fallen. -/
def occFell (s : State) (n : Nat) : State :=
  let p := ethPort s n
  if rxOcc p ≤ lwm s n ∧ p.rxPausing then sendPause s n 0 else s

/-- Entries of a ring of 2^SIZE entries (SIZE at most `m`). -/
def ringSize (s : State) (cfg m : Nat) : Nat := 2 ^ min m (rdF s cfg 0 4)

/-- Held frames placed in the receive ring while it has descriptors (R215): length and a status the spec does not
state (log 4). -/
def ringPlace (s : State) (n : Nat) : Nat → State
  | 0 => s
  | fuel + 1 =>
    let pg := ethPg n
    let p := ethPort s n
    let sz := ringSize s (reg pg 0x0DC) 12
    let hd := rdF s (reg pg 0x0E4) 0 12 % sz
    match p.rxHold with
    | [] => s
    | f :: fs =>
      if hd = rdF s (reg pg 0x0E0) 0 12 % sz then s
      else
        let d := rd64 s (reg pg 0x0D4) + 16 * hd
        let len := min f.length (ramNat s (d + 8) 4)
        let (st, s) := freshWord s
        let s := ramWrite s (ramNat s d 8) (f.take len)
        let s := ramWrite s (d + 12) (leBytes 2 f.length ++ leBytes 2 st.toNat)
        let s := setEth s n { p with rxHold := fs }
        let s := wr s (reg pg 0x0E4) (w32 ((hd + 1) % sz))
        occFell (ringPlace (ev s pg 6) n fuel) n

/-- The line rate of a port in Mb/s (ETHn.CTRL.SPEED). -/
def lineRate (s : State) (n : Nat) : Nat :=
  let v := rdF s (reg (ethPg n) 0x080) 4 2
  if n < 16 then (if v = 1 then 100 else if v = 2 then 10 else 1000) else if v = 1 then 1000 else 10000

/-- Whole quanta of 512 bit times that the present pause quanta have run, at most all of them. -/
def pauseRun (s : State) (n : Nat) : Nat :=
  let p := ethPort s n
  min p.pauseQ ((s.clk.fabric - p.pauseFrom) * lineRate s n / (400 * 512))

/-- The quanta spent paused counted (TX_PAUSE_QUANTA). -/
def pauseSpent (s : State) (n : Nat) (q : Nat) : State := bumpBy s (reg (ethPg n) 0x2B0) q

/-- A pause ends: its last quanta counted, transmission resumes (R220). -/
def pauseEnd (s : State) (n q : Nat) : State :=
  setEth (pauseSpent s n q) n { ethPort s n with paused := none, pauseQ := 0 }

/-- A received PAUSE frame obeyed (R220): it replaces the remaining time. -/
def pauseRx (s : State) (n q : Nat) : State :=
  let p := ethPort s n
  if p.holdoff then s
  else if q = 0 then (if p.paused.isSome then pauseEnd s n (pauseRun s n) else s)
  else setEth (if p.paused.isSome then pauseSpent s n (pauseRun s n) else s) n { p with
    paused := some (p.paused.getD s.clk.fabric), pauseFrom := s.clk.fabric, pauseQ := q }

/-- PAUSE_REPEAT (R219): half of the last quanta time has passed with the occupancy above LWM. -/
def pauseAgain (s : State) (n : Nat) : State :=
  let p := ethPort s n
  if p.rxPausing ∧ lwm s n < rxOcc p then sendPause s n (quantaOf s n) else s

/-- PAUSE_EXPIRY (R220): the pause time has elapsed. -/
def pauseDone (s : State) (n : Nat) : State :=
  let p := ethPort s n
  if p.paused.isSome then pauseEnd s n p.pauseQ else s

/-- PAUSE_WATCHDOG (R220). -/
def pauseWatch (s : State) (n : Nat) : State :=
  if (ethPort s n).paused.isNone then s
  else
    let t := pauseEnd s n (pauseRun s n)
    ev (ethCount (setEth t n { ethPort t n with holdoff := true }) n 40 1) (ethPg n) 2

/-- HOLDOFF_END (R220). -/
def holdEnd (s : State) (n : Nat) : State := setEth s n { ethPort s n with holdoff := false }

/-- ETH_LINK_CHANGE (R239): STAT.LINK, and EVT.LINK_CHANGE when it changes. -/
def linkSet (s : State) (n : Nat) (up : Bool) : State :=
  let p := ethPort s n
  if p.link = up then s else ev (setEth s n { p with link := up }) (ethPg n) 0

/-- A PAUSE frame for the port (IEEE 802.3 Annex 31B): opcode 1, to the MAC control group address or the station's. -/
def pauseFor (s : State) (n : Nat) (f : List Byte) : Bool :=
  beAt f 14 2 == 1 && (beAt f 0 6 == 0x0180C2000001 || beAt f 0 6 == stationMac s n)

/-- A frame received whole: sized, counted, filtered, admitted and routed (R209–R212). `f` includes the FCS. -/
def rxWhole (s : State) (n : Nat) (f : List Byte) (fcsOk symErr : Bool) : State :=
  let pg := ethPg n
  let m := maxLen s n
  let s := ethCount s n 1 f.length
  let s := if symErr then ethCount s n 20 1 else s
  if f.length ≤ 63 then ethCount s n (if fcsOk then 15 else 16) 1
  else if m < f.length then ethCount s n (if fcsOk then 17 else 18) 1
  else if !fcsOk then ethCount s n 19 1
  else
    let s := countValid s n f
    if beAt f 12 2 = 0x8808 then
      (if pauseFor s n f then pauseRx (ethCount s n 6 1) n (beAt f 16 2) else ethCount s n 7 1)
    else if !filterOk s n f then ethCount s n 23 1
    else if !admits s n then ev (ethCount s n 21 1) pg 4
    else
      let p := ethPort s n
      if (opxUdpOff s n f).isSome then occRose (setEth s n { p with rxq := p.rxq ++ [(count s, f)] }) n
      else occRose (ringPlace (setEth s n { p with rxHold := p.rxHold ++ [f] }) n (p.rxHold.length + 1)) n

/-- A port runs: its page does, and the loopback test of its first enabling has passed (R310). -/
def ethRuns (s : State) (n : Nat) : Bool := runs s (ethPg n) && (ethPort s n).tested

/-- A frame on the line: a port that is stopped, or whose RX_EN is 0, receives nothing (the ETH page map, R310, R360). -/
def rxFrame (s : State) (n : Nat) (f : List Byte) (fcsOk symErr : Bool) : State :=
  if ethRuns s n && rdB s (reg (ethPg n) 0x080) 0 then rxWhole s n f fcsOk symErr else s

/-! ### Transmission -/

/-- The ones'-complement sum of the 16-bit words of a byte list. -/
def onesSum : List Byte → Nat
  | [] => 0
  | [b] => b.toNat * 256
  | a :: b :: r =>
    let t := a.toNat * 256 + b.toNat + onesSum r
    t % 65536 + t / 65536

/-- The internet checksum. -/
def inetSum (bs : List Byte) : Nat := 65535 - onesSum bs

/-- Bytes replaced from an offset. -/
def patch (f : List Byte) (off : Nat) (v : List Byte) : List Byte := f.take off ++ v ++ f.drop (off + v.length)

/-- The per-frame fix-ups of R216, for the frame `j` of `total`, `l3` and `l4` as in FLAGS, `segSize` payload bytes a
frame, the OPX part apart (R217). -/
def fixups (f : List Byte) (l3 l4 : Nat) (vlan seg : Bool) (j total segSize : Nat) : List Byte :=
  let ip := if vlan then 18 else 14
  let l4off := if l3 = 1 then ip + 4 * (beAt f ip 1 % 16) else ip + 40
  let l4len := f.length - l4off
  let f := if l3 = 1 then patch f (ip + 2) (beBytes 2 (20 + l4len)) else f
  let f := if l3 = 1 ∧ seg then patch f (ip + 4) (beBytes 2 ((beAt f (ip + 4) 2 + j) % 65536)) else f
  let f := if l3 = 1 then
      let g := patch f (ip + 10) [0, 0]
      patch g (ip + 10) (beBytes 2 (inetSum (slice g ip (l4off - ip)))) else f
  let f := if l3 = 2 then patch f (ip + 4) (beBytes 2 l4len) else f
  let pseudo := if l3 = 1 then slice f (ip + 12) 8 else slice f (ip + 8) 32
  let f := if l4 = 2 ∧ seg then
      let f1 := patch f (l4off + 4) (beBytes 4 ((beAt f (l4off + 4) 4 + j * segSize) % 2 ^ 32))
      let fl := beAt f1 (l4off + 13) 1
      let fl := if j + 1 = total then fl else fl - fl % 2 - (fl / 8 % 2) * 8
      let fl := if j = 0 then fl else fl - (fl / 128 % 2) * 128
      patch f1 (l4off + 13) (beBytes 1 fl) else f
  let f := if l4 = 1 then patch f (l4off + 4) (beBytes 2 l4len) else f
  let co := if l4 = 1 then l4off + 6 else l4off + 16
  if l3 = 0 ∨ l4 = 0 then f
  else
    let g := patch f co [0, 0]
    let c := inetSum (pseudo ++ beBytes 4 l4len ++ beBytes 4 (if l4 = 1 then 17 else 6) ++ g.drop l4off)
    patch g co (beBytes 2 (if l4 = 1 ∧ c = 0 then 65535 else c))

/-- A payload cut into pieces of `k` bytes. -/
def chunks (k : Nat) : Nat → List Byte → List (List Byte)
  | 0, _ => []
  | fuel + 1, bs => if bs.length ≤ k ∨ k = 0 then [bs] else bs.take k :: chunks k fuel (bs.drop k)

/-- A descriptor written back with OWN cleared: status, outcome, frames sent and position (R214); a segmented one counts in
TX_SEGMENTED whatever its status (R222). -/
def descDone (s : State) (n idx : Nat) (seg : Bool) (status outcome frames : Nat) : State :=
  let pg := ethPg n
  let s := if seg then bump s (reg pg 0x2B4) else s
  let d := rd64 s (reg pg 0x0C0) + 32 * idx
  let s := ramWrite s (d + 0x0F) (leBytes 1 (ramNat s (d + 0x0F) 1 % 128))
  let s := ramWrite s (d + 0x11) (leBytes 1 status ++ leBytes 2 outcome)
  let s := ramWrite s (d + 0x14) (leBytes 2 frames)
  ev (ramWrite s (d + 0x18) (leBytes 8 (count s))) pg 5

/-- A descriptor of the transmit ring loaded: checked against R213 and R214, then cut into frames (R216). One that the MAC
does not own, its OWN 0, is passed over untouched: R214 states no more of it. DESIGN CHOICE, unsafe (log 34). -/
def descLoad (s : State) (n idx : Nat) : State :=
  let pg := ethPg n
  let d := rd64 s (reg pg 0x0C0) + 32 * idx
  let len := ramNat s (d + 8) 4
  let segSize := ramNat s (d + 0x0C) 2
  let hdr := ramNat s (d + 0x0E) 1
  let fl := ramNat s (d + 0x0F) 1
  let seg := fl / 64 % 2 = 1
  let cls := ramNat s (d + 0x10) 1
  let m := maxLen s n
  if fl / 128 % 2 = 0 then s
  else if 4 < cls ∨ fl / 16 % 2 = 1 then descDone s n idx seg 4 (outWord oRIGHTS 0) 0
  else if 262144 < len ∨ (seg ∧ m < hdr + segSize + 4) ∨ (!seg ∧ m < len + 4) then
    descDone (ethCount s n 39 1) n idx seg 1 0 0
  else
    let bytes := ramBytes s (ramNat s d 8) len
    let tmpl := bytes.take hdr
    let parts := if seg then chunks segSize (len + 1) (bytes.drop hdr) else [bytes.drop hdr]
    let frames := (List.range parts.length).map fun j =>
      fixups (tmpl ++ nthD parts j []) (fl % 4) (fl / 4 % 4) (fl / 32 % 2 = 1) seg j parts.length segSize
    let p := ethPort s n
    setEth s n { p with jobs := p.jobs ++ [⟨.ring idx, clsOf cls, seg, frames, 0⟩] }

/-- The descriptors from `idx` handed to the MAC (R215). -/
def descHand (s : State) (n idx sz : Nat) : Nat → State
  | 0 => s
  | fuel + 1 => descHand (descLoad s n (idx % sz)) n (idx + 1) sz fuel

/-- The doorbell ETHn.TXR_TAIL: the descriptors between the old and the new index are handed to the MAC (R215). -/
def txrTail (s : State) (n : Nat) (v : Word) : State :=
  let pg := ethPg n
  let sz := ringSize s (reg pg 0x0C8) 12
  let old := rdF s (reg pg 0x0CC) 0 12 % sz
  let new := fld v 0 12 % sz
  descHand (wr s (reg pg 0x0CC) (w32 (fld v 0 12))) n old sz ((new + sz - old) % sz)

/-- The doorbell ETHn.RXR_TAIL: buffers handed to the MAC, held frames placed in them (R215). -/
def rxrTail (s : State) (n : Nat) (v : Word) : State :=
  ringPlace (wr s (reg (ethPg n) 0x0E0) (w32 (fld v 0 12))) n (ethPort s n).rxHold.length

/-- The first job of the lowest rank. -/
def bestJob : List TxJob → Option TxJob
  | [] => none
  | j :: js =>
    match bestJob js with
    | none => some j
    | some k => if jobRank k < jobRank j then some k else some j

/-- The jobs without the first one equal to `j`. -/
def dropJob (j : TxJob) : List TxJob → List TxJob
  | [] => []
  | k :: ks => if k = j then ks else k :: dropJob j ks

/-- The next frame by class started on the wire (R215) of a port whose TX_EN is 1; a paused port starts only PAUSE frames of
its own (R220). -/
def txStart (s : State) (n : Nat) : State :=
  let p := ethPort s n
  match p.onWire with
  | some _ => s
  | none =>
    if !(ethRuns s n && rdB s (reg (ethPg n) 0x080) 1) then s
    else match bestJob (if p.paused.isSome then p.jobs.filter fun j => jobRank j == 0 else p.jobs) with
    | none => s
    | some j =>
      let s := setEth s n { p with jobs := dropJob j p.jobs, onWire := some j }
      match j.src with
      | .tref k =>
        if (session s k).open_ then
          { s with opx := { s.opx with sess := put .free s.opx.sess k { session s k with trefTx := some (count s) } } }
        else s
      | _ => s

/-- A job completed: its descriptor written back with its status, the ring head moved on (R214, R215); a segmented message of
the OPX engine counts too (R214, R222). -/
def jobDone (s : State) (n : Nat) (j : TxJob) (status outcome : Nat) : State :=
  match j.src with
  | .ring idx =>
    let pg := ethPg n
    let sz := ringSize s (reg pg 0x0C8) 12
    wr (descDone s n idx j.seg status outcome j.sent) (reg pg 0x0D0) (w32 ((idx + 1) % sz))
  | _ => if j.seg then bump s (reg (ethPg n) 0x2B4) else s

/-- The frame on the wire is finished: padded, counted; its job goes on or completes (R213, R215). -/
def txEnd (s : State) (n : Nat) : State :=
  let p := ethPort s n
  match p.onWire with
  | none => s
  | some j =>
    let f := j.frames.headD []
    let size := max 64 (f.length + 4)
    let s := if f.length + 4 < 64 then ethCount s n 38 1 else s
    let s := ethCount s n 24 size
    let s := ethCount s n 25 1
    let s := if beAt f 0 6 = 0xFFFFFFFFFFFF then ethCount s n 28 1
      else if beAt f 0 1 % 2 = 1 then ethCount s n 27 1 else ethCount s n 26 1
    let s := ethCount s n (30 + bucket size) 1
    let s := match j.src with | .pause _ => ethCount s n 29 1 | _ => s
    let j' := { j with frames := j.frames.drop 1, sent := j.sent + 1 }
    let p := ethPort s n
    match j'.frames with
    | [] => jobDone (setEth s n { p with onWire := none }) n j' 0 (outWord oSERVED 0)
    | _ => setEth s n { p with onWire := none, jobs := j' :: p.jobs }

/-- The transmit area runs dry (R218): the frame ends with an inverted FCS, THR rises by 1 up to 38, and the
descriptor completes TX_UNDERRUN. -/
def txDry (s : State) (n : Nat) : State :=
  let p := ethPort s n
  match p.onWire with
  | none => s
  | some j =>
    let pg := ethPg n
    let s := ev (ethCount s n 37 1) pg 1
    let s := wrF s (reg pg 0x0B0) 0 6 (min 38 (max 1 (rdF s (reg pg 0x0B0) 0 6) + 1))
    jobDone (setEth s n { p with onWire := none }) n j 2 (outWord oSERVED 0)

end Sys2Proof.Machine
end

