-- ==== Sys2Proof/Machine/OpxOps.lean ====
section
/-!
DEFINITION. The OPX protocol engine's operations (R223–R238): headers, sealing, replay windows, reassembly, opening
and closing sessions, and the frames it sends.
-/

namespace Sys2Proof.Machine

/-- The OPX header of a frame, from the offset of the UDP header (R223); fields are big-endian. -/
structure OpxHdr where
  magic : Nat
  version : Nat
  type_ : Nat
  flags : Nat
  cls : Nat
  tenant : Nat
  session : Nat
  sq : Nat
  srcCycle : Nat
  srcAngle : Nat
  payLen : Nat
  frag : Nat
  msgLen : Nat
  deriving DecidableEq, Repr

/-- The header at offset `o` of a frame. -/
def opxHdr (f : List Byte) (o : Nat) : OpxHdr :=
  { magic := beAt f o 2, version := beAt f (o + 2) 1, type_ := beAt f (o + 3) 1, flags := beAt f (o + 4) 1,
    cls := beAt f (o + 5) 1, tenant := beAt f (o + 6) 1, session := beAt f (o + 8) 4, sq := beAt f (o + 0xC) 4,
    srcCycle := beAt f (o + 0x10) 6, srcAngle := beAt f (o + 0x16) 2, payLen := beAt f (o + 0x18) 4,
    frag := beAt f (o + 0x1C) 2, msgLen := beAt f (o + 0x24) 4 }

/-- The slot of a SESSION word, bits [10:0] (R223). -/
def sessSlot (w : Nat) : Nat := w % 2048
/-- The generation of a SESSION word, bits [31:11] (R223). -/
def sessGen (w : Nat) : Nat := w / 2048
/-- The SESSION word of an open slot. -/
def sessWord (s : State) (n : Nat) : Nat := n + 2048 * (session s n).gen

/-- A session slot's state replaced. -/
def setSess (s : State) (n : Nat) (x : Session) : State :=
  { s with opx := { s.opx with sess := put .free s.opx.sess n x } }

/-- The nonce of a frame (R225): SESSION, SEQ, FRAG_INDEX, direction, 0. -/
def nonce (sess sq frag : Nat) (out : Bool) : List Byte :=
  beBytes 4 sess ++ beBytes 4 sq ++ beBytes 2 frag ++ leBytes 1 (b2n out) ++ leBytes 1 0

/-- The class of a frame that waits at a port, for the order of R236. -/
def frameCls (s : State) (n : Nat) (f : List Byte) : Nat :=
  match opxUdpOff s n f with
  | some u => min 4 (opxHdr f (u + 8)).cls
  | none => 4

/-- The first frame of the most urgent class among those the engine may take; OPERATOR frames are left while their
queue is full (R235, R236). -/
def bestFrame (s : State) (n : Nat) (opFull : Bool) : List (Nat × List Byte) → Option (Nat × List Byte)
  | [] => none
  | f :: fs =>
    if frameCls s n f.2 = 2 ∧ opFull then bestFrame s n opFull fs
    else
      match bestFrame s n opFull fs with
      | none => some f
      | some g => if frameCls s n g.2 < frameCls s n f.2 then some g else some f

/-- A list without its first element equal to `x`. -/
def dropFirst {α : Type} [DecidableEq α] (x : α) : List α → List α
  | [] => []
  | y :: ys => if y = x then ys else y :: dropFirst x ys

/-- Complete messages of a class that await the session service (R234). -/
def clsWaiting (s : State) (c : Cls) : Nat := (s.opx.inbox.filter fun m => m.cls == c).length

/-- Messages of class OPERATOR that await the session service (R235). -/
def opWaiting (s : State) : Nat := clsWaiting s .operator

/-- A message accepted once in the 64-message window of a session (R226): SEQ above the lower edge and not yet
received complete; numbering starts at SEQ 1, so 0 is below every window's edge. -/
def replayOk (x : Session) (sq : Nat) : Bool :=
  if x.rxTop < sq then true
  else decide (0 < sq) && decide (x.rxTop < sq + 64) && !x.rxMask.getLsbD (x.rxTop - sq)

/-- The window after a message has been received complete. -/
def windowTake (x : Session) (sq : Nat) : Session :=
  if x.rxTop < sq then { x with rxTop := sq, rxMask := (x.rxMask <<< (sq - x.rxTop)) ||| 1 }
  else { x with rxMask := x.rxMask ||| (BitVec.ofNat 64 1 <<< (x.rxTop - sq)) }

/-- The fragments of a message put together, when all up to the LAST one are there (R227). -/
def assembled (r : Reasm) : Option (List Byte) :=
  match r.last with
  | none => none
  | some l =>
    if (List.range (l + 1)).all fun j => (get? r.frags j).isSome then
      some ((List.range (l + 1)).flatMap fun j => (get? r.frags j).getD [])
    else none

/-- A fragment joined to its message (R227); a ninth message is discarded at its first fragment. -/
def joinFrag (s : State) (n : Nat) (h : OpxHdr) (pay : List Byte) (arr : Nat) : State :=
  let x := session s n
  let r0 : Reasm := ⟨h.sq, h.type_, h.flags, h.cls, h.srcCycle, h.srcAngle, none, []⟩
  let old := x.reasm.find? fun r => r.sq == h.sq
  match old with
  | none =>
    if h.flags % 2 = 1 ∧ h.frag = 0 then deliver s n r0 pay arr
    else if 8 ≤ x.reasm.length then ev (bump s (reg pOPX 0x0BC)) pOPX 4
    else
      let r := { r0 with last := if h.flags % 2 = 1 then some h.frag else none, frags := [(h.frag, pay)] }
      setSess s n { x with reasm := x.reasm ++ [r] }
  | some r =>
    let r' := { r with
      last := if h.flags % 2 = 1 then some h.frag else r.last
      frags := ins r.frags h.frag pay }
    match assembled r' with
    | some body => deliver (setSess s n { x with reasm := x.reasm.filter fun q => q.sq != h.sq }) n r' body arr
    | none => setSess s n { x with reasm := x.reasm.map fun q => if q.sq = h.sq then r' else q }
where
  /-- A message received complete: it awaits service (R227, R234). -/
  deliver (s : State) (n : Nat) (r : Reasm) (body : List Byte) (arr : Nat) : State :=
    let t := setSess s n (windowTake (session s n) r.sq)
    bump { t with opx := { t.opx with
      inbox := t.opx.inbox ++ [⟨r.type_, r.flags, clsOf r.cls, n, r.sq, r.srcCycle, r.srcAngle, body, arr⟩] } }
      (reg pOPX 0x0A8)

/-- A frame dropped without reply: wrong header (R224). -/
def badHdr (s : State) : State := bump s (reg pOPX 0x0B8)
/-- A frame dropped without reply: its tag fails (R225). -/
def authFail (s : State) : State := ev (bump s (reg pOPX 0x0B0)) pOPX 2

/-- A frame of port `n` taken by the engine: header, tag and replay window checked, then reassembled (R224–R227). -/
def takeFrame (s : State) (n : Nat) (f : List Byte) (arr : Nat) : State :=
  match opxUdpOff s n f with
  | none => s
  | some u =>
    let o := u + 8
    let h := opxHdr f o
    let isOpen := h.type_ = 0x10
    let tag := if isOpen then 0 else 16
    if h.magic ≠ 0x4F58 ∨ h.version ≠ 1 ∨ beAt f (u + 4) 2 ≠ 8 + 40 + h.payLen + tag then badHdr s
    else if isOpen then
      { s with opx := { s.opx with opens := s.opx.opens ++ [⟨n, f, none⟩] } }
    else
      let k := sessSlot h.session
      let x := session s k
      if !x.open_ ∨ x.gen ≠ sessGen h.session ∨ h.tenant ≠ x.tenant then badHdr s
      else
        let hdr := slice f o 40
        let non := nonce h.session h.sq h.frag false
        let ct := slice f (o + 40) h.payLen
        if leBytes 16 (Crypto.gcmTag x.key hdr non ct).toNat ≠ slice f (o + 40 + h.payLen) 16 then authFail s
        else
          let x := { x with port := n + 1, peer := f.take (u + 2), lastAuth := s.clk.fabric }
          let s := setSess s k x
          if !replayOk x h.sq then ev (bump s (reg pOPX 0x0B4)) pOPX 3
          else joinFrag s k h (Crypto.gcmText x.key non ct) arr

/-- The frame that a port offers the engine (R235, R236). -/
def offered (s : State) (n : Nat) : Option (Nat × List Byte) :=
  bestFrame s n (decide (4096 ≤ opWaiting s)) (ethPort s n).rxq

/-- The next frame taken from a port, its octets released (R219), when no lower-numbered port offers one (R236). -/
def opxTake (s : State) (n : Nat) : State :=
  let p := ethPort s n
  if !runs s pOPX ∨ (List.range n).any fun m => (offered s m).isSome then s
  else match offered s n with
  | none => s
  | some f => takeFrame (occFell (setEth s n { p with rxq := dropFirst f p.rxq }) n) n f.2 f.1

/-! ### Sending -/

/-- The frame header towards a peer, from the headers of its last authenticated frame with source and destination
exchanged: addresses, EtherType, an IP header without options, and UDP ports (R216). A peer's record ends with its UDP source
port. -/
def backHeader (s : State) (x : Session) : List Byte :=
  let f := x.peer
  let e := etherOff f
  let ip := e + 2
  let v4 := beAt f e 2 = 0x0800
  let mac := slice f 6 6 ++ beBytes 6 (stationMac s (x.port - 1)) ++ slice f 12 (e - 12) ++ slice f e 2
  let l3 : List Byte :=
    if v4 then 0x45 :: slice f (ip + 1) 9 ++ [0, 0] ++ slice f (ip + 16) 4 ++ slice f (ip + 12) 4
    else slice f ip 6 ++ 17 :: slice f (ip + 7) 1 ++ slice f (ip + 24) 16 ++ slice f (ip + 8) 16
  mac ++ l3 ++ beBytes 2 (rdF s (reg pOPX 0x080) 0 16) ++ f.drop (f.length - 2) ++ [0, 0, 0, 0]

/-- A payload with its tag (R225); in an OPEN_REPLY it is sent in the clear as authenticated data (R229). -/
def sealed (key non h pay : List Byte) (clear : Bool) : List Byte :=
  if clear then pay ++ leBytes 16 (Crypto.gcmTag key (h ++ pay) non []).toNat
  else
    let ct := Crypto.gcmText key non pay
    ct ++ leBytes 16 (Crypto.gcmTag key h non ct).toNat

/-- A message to a session queued with the position it stands for: it takes the session's next SEQ (R223, R226). -/
def opxSendAt (s : State) (pos n type_ flags : Nat) (c : Cls) (req outcome : Nat) (body : List Byte) : State :=
  let x := session s n
  if !x.open_ then s
  else if 0xFFFFFFFF ≤ x.txSeq then closeSession s n
  else
    let s := setSess s n { x with txSeq := x.txSeq + 1 }
    let hdr := backHeader s x
    let seg := max 1 (maxLen s (x.port - 1) - 4 - 16 - 40 - hdr.length)
    let parts := chunks seg (body.length + 1) body
    let frames := (List.range parts.length).map fun j =>
      let pay := nthD parts j []
      let fl := flags - flags % 2 + b2n (j + 1 == parts.length)
      let h := beBytes 2 0x4F58 ++ [1, BitVec.ofNat 8 type_, BitVec.ofNat 8 fl, BitVec.ofNat 8 (clsN c),
        BitVec.ofNat 8 x.tenant, 0] ++ beBytes 4 (n + 2048 * x.gen) ++ beBytes 4 (x.txSeq + 1) ++
        beBytes 6 (cycleOf pos) ++ beBytes 2 (angleOf pos) ++ beBytes 4 pay.length ++ beBytes 2 j ++
        beBytes 2 outcome ++ beBytes 4 req ++ beBytes 4 body.length
      let non := nonce (n + 2048 * x.gen) (x.txSeq + 1) j true
      let raw := hdr ++ h ++ sealed x.key non h pay (type_ == 0x11)
      fixups raw (if beAt hdr (etherOff hdr) 2 = 0x0800 then 1 else 2) 1 (decide (etherOff hdr = 16)) true j
        parts.length seg
    let p := ethPort s (x.port - 1)
    let s := bump (setEth s (x.port - 1) { p with jobs := p.jobs ++
      [⟨if type_ = 8 then .tref n else .opx n, c, decide (1 < frames.length), frames, 0⟩] }) (reg pOPX 0x0AC)
    { s with opx := { s.opx with
      outq := s.opx.outq ++ [⟨type_, flags, c, n, req, outcome, body⟩] } }

/-- A message that stands for the position of its sending. -/
def opxSend (s : State) (n type_ flags : Nat) (c : Cls) (req outcome : Nat) (body : List Byte) : State :=
  opxSendAt s (count s) n type_ flags c req outcome body

/-- A reply: REPLY set, REQ_SEQ the request's SEQ (R232). -/
def opxReply (s : State) (m : OpxMsg) (type_ outcome : Nat) (body : List Byte) : State :=
  opxSend s m.slot type_ 3 m.cls m.sq outcome body

/-- The STATUS payload (R233). -/
def statusBody (s : State) (n : Nat) : List Byte :=
  let x := session s n
  let forced := rdF s (reg pFORCE 0x080) 0 9
  leBytes 1 s.guard.mode.toNat ++
  leBytes 1 (b2n s.guard.operational + 2 * b2n (decide (0 < forced)) + 4 * b2n (mLOCK s) + 8 * b2n x.tref) ++
  beBytes 2 forced ++ beBytes 4 (lacStat s).toNat ++ beBytes 4 (scanStat s).toNat ++
  leBytes 1 x.tenant ++ [0, 0, 0]

/-- The open sessions, by slot. -/
def openSlots (s : State) : List Nat := (s.opx.sess.filter fun e => e.2.open_).map Prod.fst

/-- The open sessions subscribed to TIME_REF. -/
def trefSlots (s : State) : List Nat := (s.opx.sess.filter fun e => e.2.open_ && e.2.tref).map Prod.fst

/-- The TIME_REF payload for a session (R237); before the first one PREV_TX is a free value (log 4). -/
def trefBody (s : State) (n : Nat) : List Byte :=
  beBytes 8 ((session s n).trefTx.getD (Config.freeDWord (s.free + n)).toNat) ++ beBytes 4 (lacFreq s).toNat ++
    leBytes 1 (trackN s.lac.track) ++ [0, 0, 0]

/-- The first position from `a` on at an angle. -/
def fromAngle (a angle : Nat) : Nat := a + (angle + 65536 - a % 65536) % 65536

/-- TIME_REF_SEND (R237): while the module is a time master, at the next position at TREF.ANGLE. -/
def trefSend (s : State) : State :=
  if !rdB s (reg pOPX 0x090) 24 ∨ !runs s pOPX then s
  else
    let p := fromAngle (count s) (rdF s (reg pOPX 0x090) 0 16)
    let s := reachPos s p
    { (trefSlots s).foldl (fun t n => opxSendAt t p n 8 0 .control 0 0 (trefBody s n)) s with free := s.free + 2048 }

/-- STATUS_PERIOD_SEND (R233): an unsolicited STATUS to every open session, unless STATUS_PERIOD is 0. -/
def statusSend (s : State) : State :=
  if rdF s (reg pOPX 0x08C) 16 8 = 0 ∨ !runs s pOPX then s
  else (openSlots s).foldl (fun t n => opxSend t n 0xB 0 .operator 0 0 (statusBody t n)) s

/-- REASSEMBLY_TIMEOUT (R227): an incomplete message is discarded whole. -/
def reasmTimeout (s : State) (n sq : Nat) : State :=
  let x := session s n
  if x.reasm.any fun r => r.sq == sq then
    ev (bump (setSess s n { x with reasm := x.reasm.filter fun r => r.sq != sq }) (reg pOPX 0x0BC)) pOPX 4
  else s

/-! ### Opening a session (R228–R230) -/

/-- A word of the tenant table in force (R198). -/
def tenWord (s : State) (t w : Nat) : Word :=
  look (resetVal (reg pTEN (0x800 + 8 * t + 4 * w))) s.toll.ten (reg pTEN (0x800 + 8 * t + 4 * w))

/-- An OPEN that asks for a slot whose session was opened with the same KEY_SLOT replaces that session (R228). -/
def sessReused (s : State) (t req key : Nat) : Nat :=
  b2n (decide (req < 2048) && (session s req).open_ && (session s req).keySlot == key && (session s req).tenant == t)

/-- Sessions a tenant holds open (TEN.SESS_OPEN). -/
def sessOpen (s : State) (t : Nat) : Nat :=
  (s.opx.sess.filter fun e => e.2.open_ && e.2.tenant == t).length

/-- The rights granted (R230): requested, allowed by the tenant's entry and by the key slot; REG, SAFETY and UPDATE for
tenant 0 only. -/
def grantRights (s : State) (t req slotRights : Nat) : Nat :=
  let e := tenWord s t 0
  let ten := fld e 24 3 + 8 + 16 * fld e 28 1 + 32 * fld e 29 1 + 64 + 128
  let base := req &&& ten &&& slotRights
  if t = 0 then base % 256 else base &&& 0x37

/-- The ceiling of a session (R13). -/
def sessCeiling (t rights : Nat) : Cls :=
  if t = 0 then (if rights / 64 % 2 = 1 then .safety else .operator) else .tenant

/-- The next generation of a slot at its opening; it skips 0 when it wraps (R229). -/
def openGen (g : Nat) : Nat := if (g + 1) % 2 ^ 21 = 0 then 1 else (g + 1) % 2 ^ 21

/-- The slot an OPEN gets: the requested one when free or held by the same KEY_SLOT, any free one for 0xFFFF; else the
outcome that refuses it (R228). -/
def pickSlot (s : State) (req key : Nat) : Nat ⊕ Nat :=
  if req = 0xFFFF then
    match (List.range 2048).find? fun n => !(session s n).open_ with
    | some n => .inl n
    | none => .inr oLOAD
  else if 2048 ≤ req then .inr oRIGHTS
  else
    let x := session s req
    if !x.open_ ∨ x.keySlot = key then .inl req else .inr oRIGHTS

/-- A refused OPEN (R228): counted, logged with the tenant and slot it asked for (R200), and answered with the outcome and a
PROOF in place of a tag. -/
def openRefuse (s : State) (port : Nat) (f : List Byte) (ks : KeySlot) (code delay : Nat) : State :=
  let u := (opxUdpOff s port f).getD 0
  let req := beAt f (u + 8 + 40 + 2) 2
  let outcome := outWord code delay
  let s := ev (bump s (reg pOPX 0x0C0)) pOPX 5
  let s := logRefusal s {
    origin := w32 (2 * 2 ^ 28 + ks.tenant * 2 ^ 20 + (if req < 2048 then req else 0)), kind := 0
    target := reg pOPX 0x09C, old := 0, new := 0, outcome := outcome, cls := .operator }
  let x : Session := { Session.free with port := port + 1, peer := f.take (u + 2) }
  let h := beBytes 2 0x4F58 ++ [1, 0x11, 3, 2, 0, 0] ++ beBytes 4 0 ++ beBytes 4 0 ++ beBytes 6 (cycleOf (count s)) ++
    beBytes 2 (angleOf (count s)) ++ beBytes 4 0 ++ beBytes 2 0 ++ beBytes 2 outcome ++ beBytes 8 0
  let hdr := backHeader s x
  let raw := hdr ++ h ++ leBytes 16 (Crypto.hmac ks.val h).toNat
  let frame := fixups raw (if beAt hdr (etherOff hdr) 2 = 0x0800 then 1 else 2) 1 (decide (etherOff hdr = 16)) false 0 1 0
  let p := ethPort s port
  setEth s port { p with jobs := p.jobs ++ [⟨.opx 2048, .operator, false, [frame], 0⟩] }

/-- Whether the Daybook makes an OPEN wait for its admission (R19, R201). -/
def openWaits (s : State) : Bool :=
  s.toll.waiting.any (fun r => r.logging) || decide (capacity s 8 ≤ usedAll s 8)

/-- The DELAY of an OPEN since it came to the Daybook (R29). -/
def openDelay (s : State) (at_ : Option (Nat × Nat)) : Nat :=
  match at_ with
  | some (c, w) => if w = s.toll.win then 0 else clampN 1 255 (ceilDiv (count s - c) (scanT s))
  | none => 0

/-- An OPEN that passes every check opens the slot (R229, R230). -/
def openAccept (s : State) (port : Nat) (f : List Byte) (n key delay : Nat) : State :=
  let o := (opxUdpOff s port f).getD 0 + 8
  let b := o + 40
  let ks := slot s key
  let s := tollCount (tollUse s (.opx (Fin.ofNat 2048 n)) .operator 8 1) 8 .operator (if 0 < delay then 4 else 0) 1
  let s := closeSession s n
  let gen := openGen (session s n).gen
  let rights := grantRights s ks.tenant (beAt f (b + 4) 2) ks.rights
  let (mn, s) := draw s
  let mnonce := slice mn 0 14
  let ctx := leBytes 1 ks.tenant ++ beBytes 4 (n + 2048 * gen) ++ slice f (b + 6) 14 ++ mnonce
  let label : List Byte := [0x4F, 0x50, 0x58, 0x2D, 0x53, 0x45, 0x53, 0x53, 0x49, 0x4F, 0x4E]
  let sk := leBytes 32 (Crypto.hmac ks.val (beBytes 4 1 ++ label ++ [0] ++ ctx ++ beBytes 4 256)).toNat
  let x : Session := { Session.free with
    open_ := true
    gen := gen
    tenant := ks.tenant
    rights := rights
    ceiling := sessCeiling ks.tenant rights
    keySlot := key
    port := port + 1
    peer := f.take (o - 6)
    key := sk
    lastAuth := s.clk.fabric }
  let s := ev (setSess s n x) pOPX 0
  let out := outWord (if 0 < delay then oDELAYED else oSERVED) delay
  let s := logChange s {
    origin := origin s (.opx (Fin.ofNat 2048 n)), kind := 0, target := reg pOPX 0x09C,
    old := 0, new := (sessInfo s n).setWidth 64, outcome := out, cls := .operator }
  opxSend s n 0x11 3 .operator 0 out
    (beBytes 4 (n + 2048 * gen) ++ beBytes 2 rights ++ leBytes 1 (clsN (sessCeiling ks.tenant rights)) ++
     leBytes 1 ks.tenant ++ mnonce)

/-- The first waiting OPEN of a port carried out (R228, R229): its stages are those of R30, the Daybook's admission last
(R201). One that finds no slot there is refused with REFUSED_LOG (R203). -/
def openDo (s : State) (port : Nat) : State :=
  if !runs s pOPX ∨ !s.vault.ready then s
  else match s.opx.opens.find? fun e => e.port == port with
  | none => s
  | some r =>
    let f := r.frame
    let t := { s with opx := { s.opx with opens := dropFirst r s.opx.opens } }
    let o := (opxUdpOff s port f).getD 0 + 8
    let b := o + 40
    let key := beAt f b 2
    let ks := slot s (key % 64)
    let d := openDelay s r.at_
    let refuse (u : State) (code : Nat) : State := openRefuse u port f ks code d
    if 64 ≤ key ∨ ks.kind ≠ 2 ∨ mLOCK s ∨ leBytes 16 (Crypto.hmac ks.val (slice f o 60)).toNat ≠ slice f (b + 20) 16 then
      authFail t
    else if !roleSet s ∨ s.guard.safe ∨ s.guard.dead then refuse t oRIGHTS
    else if !bit (tenWord s ks.tenant 0) 31 then refuse t oRIGHTS
    else if min 2048 (fld (tenWord s ks.tenant 0) 0 12) ≤
        sessOpen s ks.tenant - sessReused s ks.tenant (beAt f (b + 2) 2) key then
      refuse (bump (ev t pTEN 0) (reg pTENQ (4 * ks.tenant))) oRIGHTS
    else
      match pickSlot s (beAt f (b + 2) 2) key with
      | .inr code => refuse t code
      | .inl n =>
        if !rngOk s ∨ cellOut s pLOCK key then refuse t oDISCARDED
        else if !logOk s .operator then
          refuse (ev (bump (tollCount t 8 .operator 8 1) (reg pDAYB 0x09C)) pDAYB 1) oLOG
        else if openWaits s then
          { t with opx := { t.opx with
            opens := { r with at_ := some (r.at_.getD (count s, s.toll.win)) } :: t.opx.opens } }
        else openAccept t port f n key d

end Sys2Proof.Machine
end

