-- ==== Sys2Proof/Machine/Commit.lean ====
section
/-!
DEFINITION. Loom's commit (R65–R68, R76–R85, R95, R96): a ready scan released to every destination, an overrun, the
stop image, and commit positions that pass in HOLD.
-/

namespace Sys2Proof.Machine

/-- The station number and image of an output slot as an OUTPUT_IMAGE payload (R232). -/
def outputBody (s : State) (num : Nat) : List Byte :=
  let l := look [] s.loom.slots (65536 + num)
  beBytes 2 num ++ beBytes 2 l.length ++
    l.flatMap fun e =>
      beBytes 2 e.1 ++ beBytes 2 e.2.2 ++ beBytes 4 e.2.1.toNat

/-- The current output slot sent to a station with an open session (R233, R80). -/
def sendSlot (s : State) (t : StationT) (pos : Nat) : State :=
  if t.src = 0 ∧ runs s pOPX then opxSendAt s pos (sessSlot t.id) 2 0 .control 0 0 (outputBody s t.num) else s

/-- OUTPUT_IMAGE to each station (R233). -/
def sendImages (s : State) (pos : Nat) : State :=
  match activeProg s with
  | some p => p.stations.foldl (fun t k => sendSlot t k pos) s
  | none => s

/-- The key of the output slot that an output table entry names. -/
def slotKey (p : Program) (o : OutSlot) : Nat :=
  65536 + (match p.stations.drop o.idx with | t :: _ => t.num | [] => 65536)

/-- An output value placed at its destination (R66, the output table): the slot of a station named by its place in the station
table, a digital output, a transmit object. An output force replaces the value (R107). -/
def outPlace (s : State) (p : Program) (o : OutSlot) (v : Word) : State :=
  let q := if (forceOf s 1 o.point).isSome then qGOOD ||| qFORCED else qGOOD
  let v := (forceOf s 1 o.point).getD v
  if o.dest = 1 then
    let k := slotKey p o
    { s with loom := { s.loom with slots := put [] s.loom.slots k (ins (look [] s.loom.slots k) o.point (v, q)) } }
  else if o.dest = 2 then doLoom s o.idx v
  else if o.dest = 3 then objCommitLoom s (o.idx / 16 % 8) (o.idx % 16) v
  else s

/-- An output value placed at every output slot of a point. -/
def placeAt (s : State) (p : Program) (q : Nat) (v : Word) : State :=
  (p.outs.filter fun o => o.point == q).foldl (fun t o => outPlace t p o v) s

/-- A committed value for a point, and for every output slot of the point. -/
def outCommit (s : State) (p : Program) (q : Nat) (g : Stg) (pos : Nat) : State :=
  let prio := clampN 1 16 p.prio
  match g with
  | .relinquish =>
    let s := ptInternal s .loom q prio none pos
    match get? s.loom.lastOut q with
    | some e => { s with loom := { s.loom with lastOut := ins s.loom.lastOut q (e.1, true) } }
    | none => s
  | .value v =>
    let s := ptInternal s .loom q prio (some v) pos
    let s := { s with loom := { s.loom with lastOut := ins s.loom.lastOut q (v, false) } }
    placeAt s p q v

/-! ### Output forces at their destinations (R107) -/

/-- A destination without a committed value, as its force leaves it: the slot's entry and the channel's value go (log 55). -/
def outClear (s : State) (p : Program) (o : OutSlot) : State :=
  if o.dest = 1 then
    { s with loom := { s.loom with
      slots := put [] s.loom.slots (slotKey p o) (del (look [] s.loom.slots (slotKey p o)) o.point) } }
  else if o.dest = 2 then { s with fio := { s.fio with loom := del s.fio.loom o.idx } }
  else s

/-- The output force of a point brought to its destinations: the force's value, or the last committed one again. -/
def forceOut (s : State) (p : Program) (q : Nat) : State :=
  let f := forceOf s 1 q
  if get? s.loom.forcedOut q = f then s
  else
    let l := match f with | some v => ins s.loom.forcedOut q v | none => del s.loom.forcedOut q
    let t := { s with loom := { s.loom with forcedOut := l } }
    match (match f with | some v => some v | none => (get? s.loom.lastOut q).map Prod.fst) with
    | some v => placeAt t p q v
    | none => (p.outs.filter fun o => o.point == q).foldl (fun u o => outClear u p o) t

/-- Every output force brought to its point and its destinations, at a commit or while Loom is in STOP. -/
def forceAll (s : State) (pos : Nat) : State :=
  let s := forcePoints s pos
  let s := match activeProg s with
    | some p => ((p.outs.map OutSlot.point).dedup).foldl (fun t q => forceOut t p q) s
    | none => s
  doForces s

/-- While Loom is in STOP a change of the force table takes effect at once, over the stop image; stations whose output slot it
changes are sent it. -/
def forceSettle (s : State) : State :=
  if s.loom.eng ≠ .stop then s
  else
    let t := forceAll s (count s)
    doSync (if t.loom.slots = s.loom.slots then t else sendImages t (count s))

/-- The effects of a scan's segments together, in program order (R72, R90, R95). -/
def scanEffects (c : Scan) : SegRes :=
  c.res.foldl (fun acc e =>
    { fl := acc.fl ||| e.2.fl
      words := e.2.words.foldl (fun m x => ins m x.1 x.2) acc.words
      fbs := e.2.fbs.foldl (fun m x => ins m x.1 x.2) acc.fbs
      outs := e.2.outs.foldl (fun m x => ins m x.1 x.2) acc.outs
      sps := e.2.sps.foldl (fun m x => ins m x.1 x.2) acc.sps
      evts := acc.evts ++ e.2.evts }) SegRes.empty

/-- Program state committed. -/
def commitState (s : State) (e : SegRes) : State :=
  { s with loom := { s.loom with
    words := e.words.foldl (fun m x => put 0 m x.1 x.2) s.loom.words
    fbs := e.fbs.foldl (fun m x => put .zero m x.1 x.2) s.loom.fbs } }

/-- The arithmetic flags of a scan reported (R96). -/
def commitFlags (s : State) (c : Scan) (e : SegRes) : State :=
  let s := wr s (reg pPGMX 0x0B4) (rd s (reg pPGMX 0x0B4) ||| w32 (e.fl % 16))
  match c.res.find? fun x => x.2.fl != 0 with
  | some x => wr s (reg pPGMX 0x0B8) (w32 x.1)
  | none => s

/-- The counts of a commit: NOM, COMMITTED, READY, READY_MAX, CONSEC_OVR (R68, R77). -/
def commitCounts (s : State) (c : Scan) : State :=
  let r := min c.readyAfter (2 ^ 23 - 1)
  let s := wr64 s (reg pSCAN 0x098) c.nom
  let s := wr (tally s (reg pSCAN 0x0A8)) (reg pSCAN 0x0AC) (w32 r)
  let s := wr s (reg pSCAN 0x0B0) (w32 (max r (rd s (reg pSCAN 0x0B0)).toNat))
  wrF s (reg pSCAN 0x090) 8 8 0

/-- The hold offset after a commit (R85). -/
def commitHold (s : State) : State :=
  let h := s.loom.holdOff + scanT s * s.loom.heldN
  wr64 { s with loom := { s.loom with holdOff := h, held := false, heldN := 0 } } (reg pSCAN 0x0A0) h

/-- A pending switch may complete after a commit in RUN; speculation under the old program is discarded (R78, R102). -/
def commitSwitch (s : State) : State :=
  if s.loom.swPending ∧ s.loom.eng = .run then
    let s := dropAhead s
    { s with loom := { s.loom with swReady := true } }
  else s

/-- Of the events of a scan in program order the first 256 stand; a segment that emitted more has flag E (R95). -/
def capEvents : Nat → List (Nat × SegRes) → List (Nat × SegRes)
  | _, [] => []
  | n, (k, r) :: l =>
    (k, { r with evts := r.evts.take n, fl := if n < r.evts.length then r.fl ||| 8 else r.fl }) ::
      capEvents (n - r.evts.length) l

/-- A ready scan committed at a position (R66). -/
def commitScan (s : State) (p : Program) (c : Scan) (pos : Nat) : State :=
  let c := { c with res := capEvents 256 c.res }
  let e := scanEffects c
  let s := commitState s e
  let s := e.outs.foldl (fun t x => outCommit t p x.1 x.2 pos) s
  let s := forceAll s pos
  let s := e.sps.foldl (fun t x => if x.1 < 256 then loopSp t .loom x.1 x.2 else t) s
  let s := { s with loom := { s.loom with
    events := s.loom.events ++ e.evts.map fun x => (x.1, x.2, c.nom), shown := some c, curDone := true } }
  let s := commitSwitch (commitHold (commitCounts (commitFlags s c e) c))
  districtApply (doSync (sendImages s pos))

/-- An overrun (R76, R77). -/
def overrun (s : State) (pos : Nat) : State :=
  let s := bump (ev (dropScans s) pSCAN 0) (reg pSCAN 0x0B4)
  let s := satF s (reg pSCAN 0x090) 8 8 1
  let ctrl := rd s (reg pSCAN 0x080)
  let s := if bit ctrl 22 then scrvFire s (fld ctrl 16 6) .bulk pos false else s
  if fld ctrl 8 4 ≠ 0 ∧ fld ctrl 8 4 ≤ rdF s (reg pSCAN 0x090) 8 8 then scanHalt (ev s pSCAN 1) else s

/-- An output's stop value (R82): FAIL_SAFE takes the fail-safe value, for a digital output DO_SAFE (R260); HOLD_LAST
takes the last committed one, and nothing where none has been committed or a relinquish since. -/
def stopValue (s : State) (o : OutSlot) : Option Word :=
  if o.failSafe then some (if o.dest = 2 then w32 (b2n (doSafe s o.idx)) else o.fsVal)
  else match get? s.loom.lastOut o.point with
    | some (v, false) => some v
    | _ => none

/-- An output's stop value committed, under R66. -/
def stopOut (s : State) (p : Program) (o : OutSlot) (pos : Nat) : State :=
  match stopValue s o with
  | none => s
  | some v =>
    let s := ptInternal s .loom o.point (clampN 1 16 p.prio) (some v) pos
    outPlace { s with loom := { s.loom with lastOut := ins s.loom.lastOut o.point (v, false) } } p o v

/-- The stop image committed once; entries 0–3 disabled (R81, R82). -/
def commitStop (s : State) (pos : Nat) : State :=
  let s := match activeProg s with
    | some p => sendImages (forceAll (p.outs.foldl (fun t o => stopOut t p o pos) s) pos) pos
    | none => forceAll s pos
  let s := { s with loom := { s.loom with stopPending := false } }
  doSync ([0, 1, 2, 3].foldl aetDisable s)

/-- A commit position that passes while a scan is paused or not ready in HOLD (R83). -/
def commitHeld (s : State) : State :=
  tally { s with loom := { s.loom with heldN := s.loom.heldN + 1 } } (reg pSCANDBG 0x08C)

/-- The commit position of the last latched scan (R59). -/
def commitPos (s : State) : Nat :=
  match s.loom.cur with | some c => c.nom + s.loom.holdOff + s.loom.l2c | none => 0

/-- The LATE commit of a scan after the next latch (R55, R78): it commits when it is ready, else it overruns, and the scan
latched since begins again on program state as it is. -/
def commitPrev (s : State) (p : Program) (c : Scan) (pos : Nat) : State :=
  let t := { s with loom := { s.loom with prev := none } }
  if c.ready then
    let t := commitScan t p c pos
    { t with loom := { t.loom with curDone := s.loom.curDone } }
  else
    let t := overrun t pos
    if t.loom.eng = .stop then t
    else { t with loom := { t.loom with
      curDone := s.loom.curDone, cur := s.loom.cur.map fun x => { x with res := [], ready := false, readyAfter := 0 } } }

/-- SCAN_COMMIT fires (R66, R76, R78, R81–R85). -/
def scanCommit (s : State) (pos : Nat) (late : Bool) : State :=
  let s := evIf late s pSCAN 5
  match s.loom.eng, activeProg s, scanAt s 0 with
  | .stop, _, _ => if s.loom.stopPending then commitStop s pos else s
  | _, some p, cur =>
    match (if pos = commitPos s then none else s.loom.prev), cur with
    | some c, _ => commitPrev s p c pos
    | none, none => s
    | none, some c =>
    if c.ready ∧ !s.loom.paused then commitScan s p c pos
    else if s.loom.eng = .hold ∨ s.loom.held then commitHeld s
    else overrun s pos
  | _, _, _ => s

end Sys2Proof.Machine
end

