-- ==== Sys2Proof/Machine/Answer.lean ====
section
/-!
DEFINITION. Where the answer of a request goes: to the host with the records of R353, into a service-port reply (R358)
or into the reply of an OPX message (R232); and the discarding of requests that wait (R311).
-/

namespace Sys2Proof.Machine

/-! ### Delay and outcome (R24, R29) -/

/-- The total wait of a request, the wait in progress included, when it waits. -/
def waitSum (s : State) (r : Req) (waits : Bool) : Nat := r.waited + (if waits then count s - r.arrived else 0)

/-- The DELAY field of a request that ends now. -/
def delayOf (s : State) (r : Req) (waits : Bool) : Nat :=
  if r.later || (waits && r.arrWin != s.toll.win) then clampN 1 255 (ceilDiv (waitSum s r waits) (scanT s)) else 0

/-- The outcome word of a request that ends with a code. -/
def finalOut (code delay : Nat) : Nat := outWord (if code = oSERVED ∧ 0 < delay then oDELAYED else code) delay

/-- The outcome word of a request that ends with another code after its grant: its DELAY stands (R29, R30). -/
def recode (out code : Nat) : Nat := outWord code (out / 256)

/-! ### Answers -/

/-- The first code that is neither SERVED nor DELAYED decides a service-port reply's OUTCOME and index (R358). -/
def firstRefused : List (Nat × Answer) → Option (Nat × Nat)
  | [] => none
  | (i, a) :: r => if 2 ≤ a.outcome % 16 then some (i, a.outcome) else firstRefused r

/-- The data words of a service-port reply: the index of the deciding word, then the words read, 0 for refused ones. -/
def svcData (got : List (Nat × Answer)) : Nat × List Word :=
  let words := got.flatMap fun e => e.2.data
  match firstRefused got with
  | some (i, o) => (o, w32 i :: words)
  | none => (match got.getLast? with | some e => e.2.outcome | none => 0, 0xFFFF#32 :: words)

/-- An entry of a POINT_REPLY: index, outcome, value, quality, level, type, TIMESTAMP (R232). -/
def pointEntry (a : Answer) : List Byte :=
  let w (i n : Nat) : List Byte := beBytes n (nthD a.data i 0).toNat
  w 0 2 ++ beBytes 2 a.outcome ++ w 1 4 ++ w 2 2 ++ w 3 1 ++ w 4 1 ++ w 5 4

/-- An entry of a REG_WINDOW reply: address, value, outcome (R232). -/
def regEntry (a : Answer) : List Byte :=
  beBytes 4 (nthD a.data 0 0).toNat ++ beBytes 4 (nthD a.data 1 0).toNat ++ beBytes 2 a.outcome ++ [0, 0]

/-- The reply of a message whose entries are all answered (R232, R358); REG_WINDOW repeats its op, which `op` carries
as 0x100 for a write. -/
def asmReply (s : State) (m : Assembly) : State :=
  if m.svc then
    let (o, d) := svcData m.got
    { s with replies := s.replies ++ [⟨.service, m.tag, o, d⟩] }
  else
    let entries := m.got.map Prod.snd
    if m.op % 256 = 6 then
      opxSend s m.slot 6 3 m.cls m.tag m.outcome
        (leBytes 1 (m.op / 256) ++ [0] ++ beBytes 2 m.need ++ entries.flatMap regEntry)
    else opxSend s m.slot 5 3 m.cls m.tag m.outcome (beBytes 2 m.need ++ entries.flatMap pointEntry)

/-- Every entry of a message is answered. -/
def Assembly.whole (m : Assembly) : Bool := decide (m.need ≤ m.got.length)

/-- The replies that may leave: those of whole messages; the service port's in the order of their requests (R358). -/
def asmReady (l : List Assembly) : List Assembly :=
  (l.filter fun m => !m.svc && m.whole) ++ (l.filter fun m => m.svc).takeWhile Assembly.whole

/-- Whole messages answered, and gone. -/
def asmFlush (s : State) : State :=
  let out := asmReady s.toll.asm
  out.foldl asmReply { s with toll := { s.toll with asm := s.toll.asm.filter fun m => !out.contains m } }

/-- A function applied to the first element that `p` names. -/
def mapFirst {α : Type} (p : α → Bool) (f : α → α) : List α → List α
  | [] => []
  | x :: xs => if p x then f x :: xs else x :: mapFirst p f xs

/-- The answer of entry `idx` joined to its message, the first that still lacks it; the last one completes the reply. -/
def asmJoin (s : State) (mine : Assembly → Bool) (idx : Nat) (a : Answer) : State :=
  asmFlush { s with toll := { s.toll with
    asm := mapFirst (fun m => mine m && (get? m.got idx).isNone) (fun m => { m with got := ins m.got idx a }) s.toll.asm } }

/-- The offset of a host access stands in HOSTWIN_C. -/
def winC (off : Nat) : Bool := decide (2 ^ 31 ≤ off)

/-- The records of R353 for a host access that ended with a code other than SERVED and DELAYED; accesses to the HOSTP
page leave no record. -/
def hostRecord (s : State) (off : Nat) (isWr : Bool) (out : Nat) : State :=
  if out % 16 < 2 ∨ (!winC off ∧ off / 4096 = pHOSTP) then s
  else
    let a := w32 (off % 2 ^ 24 + b2n (winC off) * 2 ^ 31)
    if isWr then
      ev (bump (wr (wr s (reg pHOSTP 0x08C) a) (reg pHOSTP 0x090) (w32 out)) (reg pHOSTP 0x0A8)) pHOSTP 2
    else
      let s := wr (wr s (reg pHOSTP 0x094) a) (reg pHOSTP 0x098) (w32 out)
      if out % 16 = oABSENT then bump s (reg pHOSTP 0x0AC) else s

/-- What an answer carries when its request is refused: zeros (R197, R352, R358). -/
def emptyData : Body → List Word
  | .regRead a => [w32 a, 0]
  | .regWrite a _ => [w32 a, 0]
  | .regWritePart a => [w32 a, 0]
  | .pointRead p => [w32 p, 0, 0, 0, 0, 0]
  | .command p _ => [w32 p, 0, 0, 0, 0, 0]
  | .dramRead _ n => List.replicate ((n + 3) / 4) 0
  | .winRead _ => [0]
  | _ => []

/-- The words that the host and the service port receive of a body's data: a register's or window's value. -/
def plainData (b : Body) (d : List Word) : List Word :=
  match b with
  | .regRead _ => [nthD d 1 0]
  | .winRead _ => d
  | .dramRead _ _ => d
  | _ => []

/-- A request answered with an outcome word and its data (R29). -/
def answer (s : State) (r : Req) (out : Nat) (data : List Word) : State :=
  let d := if out % 16 < 2 then data else emptyData r.body
  match r.sink with
  | .none => s
  | .host off isWr =>
    let s := hostRecord s off isWr out
    if isWr then s else { s with replies := s.replies ++ [⟨.host, off, out, plainData r.body d⟩] }
  | .svc tag idx => asmJoin s (fun m => m.svc && m.tag == tag) idx ⟨out, plainData r.body d⟩
  | .opx n sq idx => asmJoin s (fun m => !m.svc && m.slot == n && m.tag == sq) idx ⟨out, d⟩
  | .own w a => { s with replies := s.replies ++ [⟨w, a, out, plainData r.body d⟩] }

/-- A complete OPX message answered with an outcome alone: an empty payload in its reply (R232, R234). -/
def msgReply (s : State) (n sq outcome : Nat) : State :=
  match s.opx.inbox.find? fun m => m.slot == n && m.sq == sq with
  | none => s
  | some m =>
    let s := { s with opx := { s.opx with inbox := s.opx.inbox.filter fun x => !(x.slot == n && x.sq == sq) } }
    let ty := if m.type_ = 3 ∨ m.type_ = 4 then 5 else m.type_
    if m.type_ = 1 ∨ m.type_ = 8 ∨ m.type_ = 0x12 then s else opxReply s m ty outcome []

/-- A waiting request that a fault discards (R311): it ends DISCARDED, with the DELAY of its wait (R30). -/
def discardReq (s : State) (r : Req) : State :=
  let out := finalOut oDISCARDED (delayOf s r true)
  match r.body with
  | .message n sq => msgReply s n sq out
  | _ => answer s r out []

/-- Every waiting request that `sel` names completes with DISCARDED, in order (R311); their number. -/
def discardWaiting (s : State) (sel : Req → Bool) : Nat × State :=
  let gone := s.toll.waiting.filter sel
  let s := { s with toll := { s.toll with waiting := s.toll.waiting.filter fun r => !sel r } }
  (gone.length, gone.foldl discardReq s)

/-- The requests of an initiator that its entry point holds are given up: the link behind the port is down (R348,
R358). -/
def dropHeld (s : State) (w : Who) : State :=
  { s with toll := { s.toll with held := s.toll.held.filter fun r => r.who != w } }

/-- A request waits at a TOLL resource. -/
def waitsAt (k : Nat) (r : Req) : Bool := if r.logging then k == 8 else r.path.head? == some k

end Sys2Proof.Machine
end

