-- ==== Sys2Proof/Machine/SgnOps.lean ====
section
/-!
DEFINITION. Signwright, the display driver (R265–R276): ticks and frames, waveforms, regions, the DC ledger with its
balancing pass, panel power, power loss and recovery. A pixel is numbered y × WIDTH + x (log 21).
-/

namespace Sys2Proof.Machine

/-! ### Registers -/

/-- WIDTH in pixels: WIDTH − 1 bits [1:0] act as 3. -/
def panelW (s : State) : Nat := rdF s (reg pSGN 0x084) 0 11 / 4 * 4 + 4
/-- HEIGHT in pixels. -/
def panelH (s : State) : Nat := rdF s (reg pSGN 0x084) 16 11 + 1
/-- LUT_BASE. -/
def lutBase (s : State) : Nat := rd64 s (reg pSGN 0x094)
/-- The address of a pixel's state word. -/
def pxAddr (s : State) (p : Nat) : Nat := rd64 s (reg pSGN 0x09C) + 4 * p
/-- STAT.LUT_VALID. -/
def lutValid (s : State) : Bool := rdB s (reg pSGN 0x0AC) 2
/-- Signwright runs. -/
def sgnRuns (s : State) : Bool := runs s pSGN && s.guard.fE
/-- No waveform starts: neither role is set, or DEAD (R326, R345). -/
def sgnHeld (s : State) : Bool := !roleSet s || s.guard.dead
/-- A region's register. -/
def rgA (r off : Nat) : Nat := reg pSGNRG (0x100 + 0x20 * r + off)

/-- The smallest and greatest divider (R269). -/
def divLo (s : State) : Nat := if bit (lacCtrl s) 8 then 2 else 1
/-- The greatest divider. -/
def divHi (s : State) : Nat := if bit (lacCtrl s) 8 then 120 else 100

/-- A SAFETY request runs or waits. -/
def safetyWork (s : State) : Bool :=
  s.sgn.running.any (fun e => e.2.safety) || s.sgn.joining.any (·.safety) || s.sgn.waits.any (·.safety)

/-- The divider that operation asks for (R269, R329). -/
def divWant (s : State) : Nat :=
  let lo := if s.sgn.bal.any (!·.entered) then 8 else if mECON s && s.sgn.bal.isNone && !safetyWork s then 16 else 0
  clampN (divLo s) (divHi s) (rdF s (reg pSGN 0x088) lo 7)

/-- A state field replaced. -/
def setSgn (s : State) (g : Sgn) : State := { s with sgn := g }

/-- STAT.PWR: 0 off, 1 awaiting PGOOD, 2 on. -/
def pwrShow (s : State) : State :=
  wrF s (reg pSGN 0x0AC) 0 2 (if !s.sgn.pwrup then 0 else if s.sgn.pgood then 2 else 1)

/-- SGNRG.ACTIVE. -/
def rgActive (s : State) : Word := w32 (s.sgn.running.map fun e => 2 ^ e.1).sum

/-! ### Pixels and waveforms (R271) -/

/-- A field of a pixel's state word. -/
def pxF (s : State) (p lo n : Nat) : Nat := ramNat s (pxAddr s p) 4 / 2 ^ lo % 2 ^ n

/-- A pixel's state word replaced. -/
def pxSet (s : State) (p cur tgt frame busy band : Nat) (ledger : Int) : State :=
  ramWrite s (pxAddr s p)
    (leBytes 4 (cur % 16 + tgt % 16 * 16 + frame % 64 * 256 + busy % 2 * 2 ^ 15 + band % 16 * 2 ^ 16 +
      (ledger % 256).toNat * 2 ^ 24))

/-- A pixel's LEDGER. -/
def pxLedger (s : State) (p : Nat) : Int := sgn 8 (pxF s p 24 8)

/-- The drive code of frame `f` of transition `t` in band `b`. -/
def lutCode (s : State) (b t f : Nat) : Nat :=
  ramNat s (lutBase s + 4096 * b + 16 * t + f / 4) 1 / 4 ^ (f % 4) % 4

/-- A transition's length: one more than its last frame with a code other than float. -/
def lutLen (s : State) (b t : Nat) : Nat :=
  (List.range 64).foldl (fun n f => if lutCode s b t f = 3 then n else f + 1) 0

/-- The summed drive of a transition. -/
def lutSum (s : State) (b t : Nat) : Int :=
  (List.range (lutLen s b t)).foldl (fun a f =>
    if lutCode s b t f = 1 then a + 1 else if lutCode s b t f = 2 then a - 1 else a) 0

/-- The band in force. -/
def band (s : State) : Nat := rdF s (reg pSGN 0x08C) 16 4

/-- A waveform started on a pixel from its level (R271); with length 0 it takes the new level at once. -/
def pxStart (s : State) (p new : Nat) : State :=
  let cur := pxF s p 0 4
  let b := band s
  if lutLen s b (16 * cur + new) = 0 then pxSet s p new new 0 0 b (pxLedger s p)
  else
    let s := pxSet s p cur new 0 1 b (pxLedger s p)
    setSgn s { s.sgn with busy := s.sgn.busy ++ [p] }

/-- A value requested for a pixel that is not busy: driven when it differs from the level shown (R271). -/
def pxTake (s : State) (p new : Nat) : State := if pxF s p 0 4 = new then s else pxStart s p new

/-! ### Requests (R272) -/

/-- The pixels of a rectangle, row by row. -/
def rectPx (s : State) (x y w h : Nat) : List Nat :=
  (List.range h).flatMap fun j => (List.range w).map fun i => (y + j) * panelW s + x + i

/-- The pixels of a request with their new values. -/
def reqPx (s : State) (r : RgnReq) : List (Nat × Nat) :=
  (List.range r.h).flatMap fun j => (List.range r.w).map fun i =>
    ((r.y + j) * panelW s + r.x + i, ramNat s (r.img + r.stride * j + i / 2) 1 / 16 ^ (i % 2) % 16)

/-- Some pixel of a request is busy or awaited. -/
def reqBusy (s : State) (r : RgnReq) : Bool :=
  (rectPx s r.x r.y r.w r.h).any fun p => s.sgn.busy.contains p || s.sgn.waits.any fun w => w.px == p

/-- A rectangle that GO refuses: empty, or beyond the panel. -/
def rectBad (s : State) (x y w h : Nat) : Bool :=
  w == 0 || h == 0 || decide (panelW s < x + w) || decide (panelH s < y + h)

/-- The update record of a region that begins (R274). -/
def recBegin (s : State) (r : RgnReq) : State :=
  setSgn s { s.sgn with
    recs := ins s.sgn.recs r.region
      ⟨r.x, r.y, r.w, r.h, look 0 s.sgn.shown r.region, r.id, 0, r.safety, false⟩ }

/-- A region's STAT: state, and its flags as they stand. -/
def rgState (s : State) (r st : Nat) : State := wrF s (rgA r 0x1C) 0 3 st

/-- A region runs a request; QUEUED and REPLACED stand while its queued request waits. -/
def rgRun (s : State) (r : RgnReq) : State :=
  let a := rgA r.region 0x1C
  let v := if (get? s.sgn.queued r.region).isSome then 1 + 8 * rdF s a 3 2 else 1
  recBegin (wr (setSgn s { s.sgn with running := ins s.sgn.running r.region r }) a (w32 v)) r

/-- A waiting value for a busy pixel: the newest of its region replaces the one before (R272). -/
def waitAdd (s : State) (w : PxWait) : State :=
  setSgn s { s.sgn with waits := s.sgn.waits.filter (fun v => !(v.px == w.px && v.region == w.region)) ++ [w] }

/-- A request joins at a frame: its free pixels start, its busy ones will take their value after their waveform. -/
def reqJoin (s : State) (r : RgnReq) : State :=
  (reqPx s r).foldl (fun t e =>
    if t.sgn.busy.contains e.1 then waitAdd t ⟨e.1, e.2, r.region, r.safety, r.seq⟩ else pxTake t e.1 e.2) (rgRun s r)

/-- Requests other than SAFETY are held: during recovery, a balancing pass and the module safe state. -/
def heldBack (s : State) : Bool := decide (s.sgn.recov ≠ 0) || s.sgn.bal.isSome || s.guard.safe

/-- The joining requests that take effect at this frame: SAFETY first; in a balancing pass only between its phases. -/
def joinNow (s : State) : List RgnReq :=
  let ok (r : RgnReq) : Bool :=
    if r.safety then s.sgn.bal.all (fun b => b.phase == 1 && s.sgn.busy.isEmpty) else !heldBack s
  let l := s.sgn.joining.filter ok
  l.filter (·.safety) ++ l.filter fun r => !r.safety

/-- The queued requests that start whole at this frame. -/
def admitQueued (s : State) : State :=
  (List.range 32).foldl (fun t r =>
    match get? t.sgn.queued r with
    | none => t
    | some q =>
      if heldBack t ∨ (get? t.sgn.running r).isSome ∨ reqBusy t q then t
      else
        let t := rgRun (setSgn t { t.sgn with queued := del t.sgn.queued r }) q
        (reqPx t q).foldl (fun u e => pxTake u e.1 e.2) t) s

/-- Requests admitted at a frame boundary (R272). -/
def letIn (s : State) : State :=
  let l := joinNow s
  let s := setSgn s { s.sgn with joining := s.sgn.joining.filter fun r => !l.contains r }
  admitQueued (l.foldl reqJoin s)

/-- A region request committed (R272): queued, or joining at the next frame. -/
def rgCommit (s : State) (r : Nat) (words : List Word) (ctrl : Word) : State :=
  let w (j : Nat) : Word := nthD words j 0
  let s := (List.range 6).foldl (fun t j => wr t (rgA r (4 * j)) (w j)) s
  let s := wr s (rgA r 0x18) (ctrl &&& 3)
  let q : RgnReq :=
    { region := r, x := fld (w 0) 0 11, y := fld (w 0) 16 11, w := fld (w 1) 0 12, h := fld (w 1) 16 12
      img := cat64 (w 3) (w 2) / 64 * 64, stride := fld (w 4) 0 16, id := w 5, safety := bit ctrl 1, merge := bit ctrl 0
      seq := s.sgn.seq + 1 }
  let s := setSgn s { s.sgn with seq := s.sgn.seq + 1 }
  if q.merge ∨ q.safety then setSgn s { s.sgn with joining := s.sgn.joining ++ [q] }
  else
    let old := (get? s.sgn.queued r).isSome
    let s := if (get? s.sgn.running r).isSome ∨ reqBusy s q ∨ heldBack s then wrB s (rgA r 0x1C) 3 true else s
    let s := if old then wrB s (rgA r 0x1C) 4 true else s
    setSgn s { s.sgn with queued := ins s.sgn.queued r q }

/-- A waveform may start: the table is valid (R271), and neither R326 nor R345 holds Signwright. -/
def mayStart (s : State) : Bool := lutValid s && !sgnHeld s

/-- Work is at hand: a frame is due at the next DIV-th tick. -/
def sgnWork (s : State) : Bool :=
  !s.sgn.busy.isEmpty || !s.sgn.running.isEmpty ||
    (mayStart s && (!s.sgn.waits.isEmpty || s.sgn.bal.isSome || s.sgn.recov == 1 || s.sgn.balReq ||
      (s.sgn.joining.any fun r => r.safety || !heldBack s) || (!s.sgn.queued.isEmpty && !heldBack s) ||
      (rdB s (reg pSGN 0x080) 4 && decide (1024 ≤ (rd s (reg pSGN 0x0BC)).toNat))))

/-! ### Balancing (R273) -/

/-- V of a pixel beyond ±96 at level g: 0 or 15, by the pair's summed drive; a tie is a free choice (log 4). -/
def balV (s : State) (free : Bool) (p : Nat) : Option Nat :=
  let g := pxF s p 0 4
  let l := pxLedger s p
  let b := band s
  let sum (v : Nat) : Int := if v = g then 0 else lutSum s b (16 * g + v) + lutSum s b (16 * v + g)
  let ok (x : Int) : Bool := decide (0 < l ∧ x < 0) || decide (l < 0 ∧ 0 < x)
  match ok (sum 0), ok (sum 15) with
  | false, false => none
  | true, false => some 0
  | false, true => some 15
  | true, true =>
    if (sum 15).natAbs < (sum 0).natAbs then some 0
    else if (sum 0).natAbs < (sum 15).natAbs then some 15
    else if free then some 15 else some 0

/-- The pixels of the panel whose LEDGER is beyond ±96. -/
def overPx (s : State) : List Nat :=
  (List.range (panelW s * panelH s)).filter fun p => decide (96 < (pxLedger s p).natAbs)

/-- STAT.BALANCING. -/
def balShow (s : State) : State := wrB s (reg pSGN 0x0AC) 4 s.sgn.bal.isSome

/-- A balancing pass begins when it may: no pixel busy and no request waiting. -/
def balBegin (s : State) : State :=
  let auto := rdB s (reg pSGN 0x080) 4 && decide (1024 ≤ (rd s (reg pSGN 0x0BC)).toNat)
  if (!s.sgn.balReq && !auto) || s.sgn.bal.isSome || s.sgn.recov != 0 || !s.sgn.busy.isEmpty || !s.sgn.waits.isEmpty ||
      !s.sgn.joining.isEmpty || !s.sgn.queued.isEmpty then s
  else
    let f := Config.freeBool s.free
    let s := { s with free := s.free + 1 }
    let px := (overPx s).filterMap fun p => (balV s f p).map fun v => (p, pxF s p 0 4, v)
    let s := balShow (setSgn s { s.sgn with balReq := false, bal := some ⟨1, false, px⟩ })
    let s := setSgn s { s.sgn with div := divWant s }
    px.foldl (fun t e => pxStart t e.1 e.2.2) s

/-- No pixel of the pass is in a transition. -/
def balRest (s : State) (b : Balance) : Bool := !b.pixels.any fun e => s.sgn.busy.contains e.1

/-- At a frame's start, phase 1 having ended (R273): SAFETY requests enter and take their pixels from their level at that
point, the divider returning to normal; phase 2 begins for the others. -/
def balStep (s : State) : State :=
  match s.sgn.bal with
  | none => s
  | some b =>
    if b.phase ≠ 1 ∨ !balRest s b then s
    else
      let l := joinNow s
      let s := letIn s
      let px := b.pixels.filter fun e => pxF s e.1 0 4 == e.2.2 && !s.sgn.busy.contains e.1 &&
        !l.any fun r => (rectPx s r.x r.y r.w r.h).contains e.1
      let s := setSgn s { s.sgn with bal := some ⟨2, !l.isEmpty, px⟩ }
      px.foldl (fun t e => pxStart t e.1 e.2.1) (if l.isEmpty then s else setSgn s { s.sgn with div := divWant s })

/-- At a frame's end, phase 2 having ended: the pass ends, EVT.BAL_DONE (R273). -/
def balEnd (s : State) : State :=
  match s.sgn.bal with
  | none => s
  | some b => if b.phase = 2 ∧ balRest s b then balShow (ev (setSgn s { s.sgn with bal := none }) pSGN 6) else s

/-! ### Ticks and frames (R269, R270) -/

/-- DISP_TICK (R269): a frame is due at every DIV-th tick; a change of divider takes effect at the first of these frame
ticks that finds no pixel mid-transition. -/
def dispTick (s : State) : State :=
  if !sgnRuns s ∨ s.sgn.stopped then s
  else if s.sgn.ticks + 1 < s.sgn.div then setSgn s { s.sgn with ticks := s.sgn.ticks + 1 }
  else
    let due := sgnWork s
    setSgn s { s.sgn with
      div := if s.sgn.busy.isEmpty then divWant s else s.sgn.div, ticks := 0, due := due
      dueAt := if due then s.clk.fabric else s.sgn.dueAt }

/-- The drive codes of a frame: every busy pixel's next code. -/
def frameCodes (s : State) : List (Nat × Nat) :=
  s.sgn.busy.map fun p => (p, lutCode s (pxF s p 16 4) (16 * pxF s p 0 4 + pxF s p 4 4) (pxF s p 8 6))

/-- Every INTERRUPTED rectangle driven with transition 15 → 15 (R275 step 2). -/
def recovDrive (s : State) : State :=
  let rects := (s.sgn.recs.filter fun e => e.2.interrupted).flatMap fun e => rectPx s e.2.x e.2.y e.2.w e.2.h
  let px := rects.dedup
  let s := px.foldl (fun t p => pxSet t p 15 15 0 0 (band t) (pxLedger t p)) s
  px.foldl (fun t p => pxStart t p 15) (setSgn s { s.sgn with recov := 2 })

/-- The order of values that await a pixel: SAFETY first, then by commit (R272). -/
def waitFirst (l : List PxWait) (p : Nat) : Option PxWait :=
  let m := l.filter fun w => w.px == p
  match m.filter (·.safety) with
  | w :: _ => some w
  | [] => m.head?

/-- Waiting values taken by pixels that have become free. -/
def waitsStart (s : State) : State :=
  ((s.sgn.waits.map PxWait.px).dedup).foldl (fun t p =>
    if t.sgn.busy.contains p then t
    else
      match waitFirst (t.sgn.waits.filter fun w => w.safety || !t.guard.safe) p with
      | some w => pxTake (setSgn t { t.sgn with waits := t.sgn.waits.erase w }) p w.val
      | none => t) s

/-- The frame's work is chosen (R271–R275): recovery first, then the values that wait, requests and balancing. -/
def framePrepare (s : State) : State :=
  if !mayStart s then s
  else if s.sgn.recov = 1 then recovDrive s
  else
    let s := waitsStart s
    balBegin (if s.sgn.bal.isSome then balStep s else letIn s)

/-- PCLK periods of a row (R266). -/
def rowLen (s : State) : Nat := panelW s / 4 + 32

/-- PCLK periods of a frame: HEIGHT + 4 rows (R266). -/
def frameLen (s : State) : Nat := (panelH s + 4) * rowLen s

/-- Fabric cycles of a PCLK period: 2 × PCLK_DIV, of which 0 and 1 act as 2 (R266). -/
def pclkCycles (s : State) : Nat := 2 * max 2 (rdF s (reg pSGN 0x080) 0 4)

/-- The panel's pins in a period of EPD_PCLK: EPD_D0–D7 and the control signals (R266). -/
structure EpdPins where
  data : Nat
  rstart : Bool
  rlat : Bool
  gstep : Bool
  doe : Bool
  fstart : Bool
  gon : Bool
  deriving DecidableEq, Repr

/-- The four codes of group `g` of pixel row `y`: pixel 4g + j on D[2j + 1 : 2j]; a pixel that no waveform drives is held at the
common voltage, code 00 (R266, log 21). -/
def rowGroup (s : State) (codes : List (Nat × Nat)) (y g : Nat) : Nat :=
  ((List.range 4).map fun j => (get? codes (y * panelW s + 4 * g + j)).getD 0 * 4 ^ j).sum

/-- The panel's pins in period `k` of a frame with these drive codes, by the row and frame tables of R266. -/
def epdFrame (s : State) (codes : List (Nat × Nat)) (k : Nat) : EpdPins :=
  let row := k / rowLen s
  let x := k % rowLen s
  let q := panelW s / 4
  let pix := decide (3 ≤ row ∧ row ≤ panelH s + 2)
  let step := pix || decide (row = panelH s + 3)
  { data := if pix ∧ x < q then rowGroup s codes (row - 3) x else 0
    rstart := decide (x = 0)
    rlat := decide (q + 4 ≤ x ∧ x < q + 6)
    gstep := step && decide (q + 8 ≤ x ∧ x < q + 12)
    doe := pix && decide (q + 14 ≤ x ∧ x < q + 30)
    fstart := decide (row = 3 ∧ q + 6 ≤ x ∧ x < q + 14)
    gon := true }

/-- The panel's pins now: those of the frame in scan-out, idle beside one (R266). -/
def epdPins (s : State) : EpdPins :=
  let k := (s.clk.fabric - s.sgn.scanAt) / pclkCycles s
  match s.sgn.scan with
  | some codes => if k < frameLen s then epdFrame s codes k else ⟨0, false, false, false, false, false, false⟩
  | none => ⟨0, false, false, false, false, false, false⟩

/-- The class of a frame's scan-out requests: SAFETY where it drives a pixel of a SAFETY region, or a drive of recovery, which
is SAFETY class too (R265, R275). -/
def scanCls (s : State) : Cls :=
  if s.sgn.recov = 2 ∨ (s.sgn.running.any fun e => e.2.safety &&
      (rectPx s e.2.x e.2.y e.2.w e.2.h).any s.sgn.busy.contains) then .safety else .control

/-- The bytes of DRAM that a frame's scan-out reads and writes: the 64-byte blocks of the state area that hold a driven pixel,
read and written back, and the blocks of the waveform table (R265, R271, log 52). -/
def frameBytes (s : State) : Nat :=
  let px := (s.sgn.busy.map (· / 16)).dedup.length
  let lut := (s.sgn.busy.map fun p => (pxF s p 16 4, (16 * pxF s p 0 4 + pxF s p 4 4) / 4)).dedup.length
  64 * (2 * px + lut)

/-- FRAME_START (R267, R269, R270): the due frame starts, slips, or waits for PGOOD. -/
def frameStartOp (s : State) : State :=
  if !s.sgn.due ∨ !sgnRuns s ∨ s.sgn.stopped then s
  else if s.sgn.scan.isSome then
    ev (bump (setSgn s { s.sgn with due := false }) (reg pSGN 0x0B8)) pSGN 3
  else if !s.sgn.pwrup then pwrShow (setSgn s { s.sgn with pwrup := true, pwrAt := s.clk.fabric })
  else if !s.sgn.pgood then s
  else
    let s := framePrepare (setSgn s { s.sgn with due := false })
    let s := dramUse s (.hw (Fin.ofNat 128 pSGN)) (scanCls s) (frameBytes s)
    setSgn s { s.sgn with scan := some (frameCodes s), scanAt := s.clk.fabric }

/-- A driven pixel after its frame: LEDGER, FRAME, and at the end of its waveform the new level (R271, R273). -/
def pxAdvance (s : State) (e : Nat × Nat) : State :=
  let p := e.1
  let l := pxLedger s p
  let l' := if e.2 = 1 then l + 1 else if e.2 = 2 then l - 1 else l
  let lc := clampI (-127) 127 l'
  let s := evIf (decide (lc ≠ l')) s pSGN 9
  let cur := pxF s p 0 4
  let tgt := pxF s p 4 4
  let b := pxF s p 16 4
  let f := pxF s p 8 6 + 1
  if lutLen s b (16 * cur + tgt) ≤ f then
    let s := pxSet s p tgt tgt 0 0 b lc
    setSgn s { s.sgn with busy := s.sgn.busy.filter (· != p) }
  else pxSet s p cur tgt f 1 b lc

/-- A region completes (R272): DONE, EVT.REGION_DONE, IMAGE_ID recorded as shown, SAFE_ID of a SAFETY region. -/
def rgDone (s : State) (r : RgnReq) : State :=
  let g := s.sgn
  let s := setSgn s { g with
    running := del g.running r.region, shown := ins g.shown r.region r.id, done := ins g.done r.region r, recs := del g.recs r.region
    safeId := if r.safety then r.id else g.safeId
    recov := if g.recov = 3 ∧ r.safety ∧ r.id = g.safeId then 0 else g.recov
    recovSafe := g.recovSafe || (r.safety && decide (r.id = g.safeId)) }
  let s := wr s (reg pSGN 0x0C0) s.sgn.safeId
  let s := if g.recov = 3 ∧ s.sgn.recov = 0 then ev (wrB s (reg pSGN 0x0AC) 3 false) pSGN 7 else s
  ev (wrB (rgState s r.region 0) (reg pSGNRG 0x084) r.region true) pSGN 0

/-- A running region none of whose pixels is busy or awaited. -/
def rgIdle (s : State) (r : RgnReq) : Bool :=
  !((rectPx s r.x r.y r.w r.h).any fun p => s.sgn.busy.contains p) && !(s.sgn.waits.any fun w => w.region == r.region)

/-- Update records and STAT.FRAME of the regions still busy (R274). -/
def recFrames (s : State) : State :=
  s.sgn.running.foldl (fun t e =>
    let f := ((rectPx t e.2.x e.2.y e.2.w e.2.h).map fun p => if t.sgn.busy.contains p then pxF t p 8 6 else 0).foldl max 0
    let f := max f (rdF t (rgA e.1 0x1C) 8 6)
    let t := wrF t (rgA e.1 0x1C) 8 6 f
    match get? t.sgn.recs e.1 with
    | some u => setSgn t { t.sgn with recs := ins t.sgn.recs e.1 { u with frame := f } }
    | none => t) s

/-- The recovery drives have ended (R275 steps 2–4): RECOVERED, then the hold until SAFE_ID's image or its release. -/
def recovStep (s : State) : State :=
  if s.sgn.recov ≠ 2 ∨ !s.sgn.busy.isEmpty then s
  else
    let hit := s.sgn.recs.filter fun e => e.2.interrupted
    let s := hit.foldl (fun t e => wrB t (rgA e.1 0x1C) 5 true) s
    let s := setSgn s { s.sgn with recs := s.sgn.recs.filter fun e => !e.2.interrupted }
    if s.sgn.safeId ≠ 0 ∧ !s.sgn.recovSafe then setSgn s { s.sgn with recov := 3 }
    else ev (wrB (setSgn s { s.sgn with recov := 0 }) (reg pSGN 0x0AC) 3 false) pSGN 7

/-- FRAME_END (R266, R271–R275): the frame in scan-out has ended, its rows having been shifted out. -/
def frameEndOp (s : State) : State :=
  match s.sgn.scan with
  | none => s
  | some codes =>
    if s.clk.fabric < s.sgn.scanAt + frameLen s * pclkCycles s then s else
    let s := bump (setSgn s { s.sgn with scan := none }) (reg pSGN 0x0B4)
    let s := codes.foldl pxAdvance s
    let s := recFrames s
    let s := (s.sgn.running.map Prod.snd).foldl (fun t r => if rgIdle t r then rgDone t r else t) s
    let s := wr s (reg pSGN 0x0BC) (w32 (overPx s).length)
    let s := recovStep (balEnd s)
    if s.sgn.stopped then pwrShow (setSgn s { s.sgn with pwrup := false }) else s

/-! ### Panel power and temperature (R267, R268) -/

/-- The recovery of R275 begins: with the drives where a region was interrupted, else with the hold for SAFE_ID. -/
def recovBegin (s : State) : State :=
  let any := s.sgn.recs.any fun e => e.2.interrupted
  if any ∨ (s.sgn.recov = 0 ∧ s.sgn.safeId ≠ 0) then
    wrB (setSgn s { s.sgn with recov := if any then 1 else 3, recovSafe := false }) (reg pSGN 0x0AC) 3 true
  else s

/-- EPD_PGOOD rises (R267); a panel interrupted by its loss is recovered (R275). -/
def pgoodRise (s : State) : State :=
  if !s.sgn.pwrup ∨ s.sgn.pgood then s
  else
    let s := pwrShow (setSgn s { s.sgn with pgood := true })
    if (s.sgn.recs.any fun e => e.2.interrupted) && s.sgn.recov != 2 then recovBegin s else s

/-- EPD_PGOOD has not risen within PGOOD_TO ms: the frame is tried again at the next frame tick (R267). -/
def pgoodLate (s : State) : State :=
  if !s.sgn.pwrup ∨ s.sgn.pgood ∨ s.clk.fabric < s.sgn.pwrAt + rdF s (reg pSGN 0x080) 8 8 * 400000 then s
  else ev (pwrShow (setSgn s { s.sgn with pwrup := false, due := false })) pSGN 1

/-- Every busy region INTERRUPTED (R267, R274). -/
def sgnInterrupt (s : State) : State :=
  let rs := s.sgn.running.map Prod.fst
  let s := rs.foldl (fun t r => rgState t r 2) s
  let s := s.sgn.busy.foldl (fun t p => pxSet t p (pxF t p 0 4) (pxF t p 4 4) (pxF t p 8 6) 0 (pxF t p 16 4) (pxLedger t p)) s
  balShow (setSgn s { s.sgn with
    running := [], busy := [], waits := [], scan := none, bal := none, recov := if s.sgn.recov = 2 then 1 else s.sgn.recov
    recs := s.sgn.recs.map fun e => (e.1, { e.2 with interrupted := true }) })

/-- EPD_PGOOD falls (R267). -/
def pgoodFall (s : State) : State :=
  if !s.sgn.pgood then s
  else
    let s := pwrShow (setSgn s { s.sgn with pgood := false })
    if s.sgn.busy.isEmpty then s else ev (sgnInterrupt s) pSGN 2

/-- No frame has been due for OFF_DLY × 10 ms (R267). -/
def panelOff (s : State) : State :=
  if s.sgn.due ∨ s.sgn.scan.isSome ∨ s.clk.fabric < s.sgn.dueAt + rdF s (reg pSGN 0x080) 16 8 * 4000000 then s
  else pwrShow (setSgn s { s.sgn with pwrup := false, pgood := false })

/-- TEMPERATURE_READ (R268): the band of a reading in 1/256 °C, or TEMP_FAIL. -/
def tempRead (s : State) (t : Option Int) : State :=
  match t with
  | none => ev s pSGN 4
  | some t =>
    let base := sgn 8 (rdF s (reg pSGN 0x08C) 0 8)
    let step := max 1 (rdF s (reg pSGN 0x08C) 8 4)
    wrF s (reg pSGN 0x08C) 16 4 (clampI 0 15 ((t - 256 * base) / (256 * step))).toNat

/-- LOAD_LUT (R271). -/
def loadLutOp (s : State) : State :=
  wrB (wr s (reg pSGN 0x0A4) (Crypto.crc32 (ramBytes s (lutBase s) 65536))) (reg pSGN 0x0AC) 2 true

/-- BALANCE (R273). -/
def balanceOp (s : State) : State := setSgn s { s.sgn with balReq := true }

/-- Assayer's LUT checksum fails (R271). -/
def lutBad (s : State) : State := ev (wrB s (reg pSGN 0x0AC) 2 false) pSGN 5

/-- The table still matches LUT_CRC. -/
def lutSound (s : State) : Bool := decide (Crypto.crc32 (ramBytes s (lutBase s) 65536) = rd s (reg pSGN 0x0A4))

/-- The reserved entries of the ticks while Signwright is enabled (R269). -/
def sgnPlace (s : State) : State :=
  if sgnRuns s then aetPlace (aetPlace s 38 0 0 0 0 0xA 0) 39 32768 0 0 0 0xA 0
  else aetDisable (aetDisable s 38) 39

/-- Signwright enabled (R275). -/
def sgnEnable (s : State) : State := sgnPlace (recovBegin (setSgn s { s.sgn with stopped := false }))

/-- The power-fail trigger (R274, R378): the frame in scan-out goes on to its end, no further frame starts, EPD_PWRUP is dropped
once no frame is in scan-out, and every busy record is INTERRUPTED. -/
def sgnPowerFail (s : State) : State :=
  let s := setSgn s { s.sgn with
    stopped := true, due := false, pwrup := s.sgn.pwrup && s.sgn.scan.isSome
    recs := s.sgn.recs.map fun e => if (get? s.sgn.running e.1).isSome then (e.1, { e.2 with interrupted := true }) else e }
  pwrShow s

/-- The supply has returned without a reset (R275): interrupted regions are recovered. -/
def sgnPowerBack (s : State) : State :=
  if !s.sgn.stopped then s
  else
    let s := if s.sgn.busy.isEmpty ∧ s.sgn.running.isEmpty then s else sgnInterrupt s
    recovBegin (pwrShow (setSgn s { s.sgn with stopped := false, pgood := false }))

/-- A fault discards the regions' work (R272): DISCARDED, their pixels indeterminate. -/
def sgnDiscard (s : State) : State :=
  let rs := s.sgn.running.map Prod.fst
  let s := rs.foldl (fun t r => rgState t r 3) s
  bumpBy (balShow (setSgn s { s.sgn with
    recov := if s.sgn.recov = 2 then 1 else s.sgn.recov, running := [], queued := [], joining := [], busy := [], waits := []
    scan := none, bal := none, due := false
    recs := s.sgn.recs.filter fun e => !rs.contains e.1 })) (reg pSGN 0x040) rs.length

end Sys2Proof.Machine
end

