-- ==== Sys2Proof/Machine/BlockOps.lean ====
section
/-!
DEFINITION. Stopping, starting and restarting a block: what becomes of its work in flight (R311), of its outputs and
reserved entries (R307, R360), and what it holds after a restart (the restart table of chapter 13).
-/

namespace Sys2Proof.Machine

/-- Discarded items counted on a block's page (R311). -/
def countDiscard (s : State) (p n : Nat) : State := if n = 0 then s else bumpBy s (reg p 0x040) n

/-- A scan in execution, in speculation or latched, dropped: one item of work (R311, worked example of chapter 13). -/
def scanDiscard (s : State) : State :=
  let some_ := !s.loom.curDone || s.loom.ahead1.isSome || s.loom.ahead2.isSome
  countDiscard (dropScans s) pSCAN (b2n (some_ && decide (s.loom.eng ≠ .stop)))

/-- Loom's block stopped: STOP under R81. -/
def scanStopBlock (s : State) : State := scanHalt (scanDiscard s)

/-- A bank that was LOADING or VERIFYING becomes EMPTY; a pending switch is cancelled (the restart table). -/
def pgmxDiscard (s : State) : State :=
  let busy (b : Bank) : Bool := b.st == .loading || b.st == .verifying
  let n := b2n (busy s.loom.bankA) + b2n (busy s.loom.bankB) + b2n s.loom.swPending
  countDiscard { s with loom := { s.loom with
    bankA := if busy s.loom.bankA then .empty else s.loom.bankA
    bankB := if busy s.loom.bankB then .empty else s.loom.bankB
    swPending := false, swReady := false } } pPGMX n

/-- Grid samples and the checkpoint in flight discarded. -/
def wghDiscard (s : State) : State :=
  let n := s.wgh.queue.length + b2n s.wgh.writing.isSome + b2n s.wgh.retry.isSome
  countDiscard { s with wgh := { s.wgh with queue := [], writing := none, retry := none } } pWGH n

/-- A port's frames dropped and its owned descriptors completed DISCARDED, with FRAMES as sent (R238). -/
def ethDiscard (s : State) (n : Nat) : State :=
  let p := ethPort s n
  let jobs := (match p.onWire with | some j => [j] | none => []) ++ p.jobs
  let s := setEth s n { EthPort.reset with link := p.link, tested := p.tested }
  let s := jobs.foldl (fun t j => jobDone t n j 3 (outWord oDISCARDED 0)) s
  countDiscard s (ethPg n) (jobs.length + p.rxq.length + p.rxHold.length)

/-- Every message in service or reassembly discarded; requests among them are answered DISCARDED, by the type that the fragments
so far show (R238). -/
def opxDiscard (s : State) : State :=
  let msgs := s.opx.inbox
  let parts := s.opx.sess.flatMap fun e => e.2.reasm.map fun r => (e.1, r)
  let asm := s.toll.asm.filter fun m => !m.svc
  let mine (r : Req) : Bool := match r.who with | .opx _ => true | _ => false
  let s := { s with
    toll := { s.toll with
      asm := s.toll.asm.filter fun m => m.svc, waiting := s.toll.waiting.filter fun r => !mine r }
    opx := { s.opx with sess := s.opx.sess.map fun e => (e.1, { e.2 with reasm := [] }), opens := [] } }
  let s := msgs.foldl (fun t m => msgReply t m.slot m.sq oDISCARDED) s
  let s := asm.foldl (fun t m => opxSend t m.slot (if m.op % 256 = 6 then 6 else 5) 3 m.cls m.tag oDISCARDED []) s
  let s := parts.foldl (fun t e =>
    if [3, 4, 6, 9, 0xA, 0xB, 0xC].contains e.2.type_ then
      opxSend t e.1 (if e.2.type_ = 3 ∨ e.2.type_ = 4 then 5 else e.2.type_) 3 (clsOf e.2.cls) e.2.sq oDISCARDED []
    else t) s
  countDiscard s pOPX (msgs.length + parts.length + asm.length)

/-- Key operations that wait end DISCARDED (R281, R311). -/
def lockDiscard (s : State) : State :=
  let ops := s.vault.waiting
  let s := { s with vault := { s.vault with waiting := [] } }
  countDiscard (ops.foldl (fun t e => lockEndWait t e oDISCARDED) s) pLOCK ops.length

/-- Firings and records not yet written are discarded. -/
def scrvDiscard (s : State) : State :=
  let n := s.scrv.queue.length + s.scrv.hold.length
  countDiscard { s with scrv := { s.scrv with queue := [], hold := [] } } pSCRV n

/-- A target being built is given up: Cobbler is RECEIVING again. -/
def updDiscard (s : State) : State :=
  if rdF s (reg pUPD 0x088) 0 3 = 2 then
    countDiscard (wrF { s with upd := { s.upd with staged := none } } (reg pUPD 0x088) 0 3 1) pUPD 1
  else s

/-- Requests that wait at a resource, or that an initiator has sent, complete DISCARDED and are counted on a page. -/
def reqDiscard (s : State) (p : Nat) (sel : Req → Bool) : State :=
  let (n, t) := discardWaiting s sel
  countDiscard t p n

/-- The work in flight on a block discarded (R311). -/
def blockDiscard (s : State) (page : Nat) : State :=
  let p := blockPage page
  if p = pAET then
    countDiscard { s with lac := { s.lac with deferred := [] } } pAET s.lac.deferred.length
  else if p = pSCAN then scanStopBlock s
  else if p = pPGMX then pgmxDiscard s
  else if p = pLOOP then loopDiscardAll s
  else if p = pWGH then wghDiscard s
  else if p = pFACT then factBlockFault s
  else if p = pPTS then reqDiscard s p (waitsAt 7)
  else if p = pDAYB then reqDiscard s p (waitsAt 8)
  else if pETH ≤ p ∧ p ≤ 0x51 then ethDiscard s (p - pETH)
  else if p = pOPX then opxDiscard s
  else if pMB ≤ p ∧ p ≤ 0x67 then mbFault s (p - pMB)
  else if pSF ≤ p ∧ p ≤ 0x6B then sfFault s (p - pSF)
  else if p = pSGN then sgnDiscard s
  else if p = pLOCK then lockDiscard s
  else if p = pSCRV then scrvDiscard s
  else if p = pUPD then updDiscard s
  else if p = pTOLL then reqDiscard s p fun _ => true
  else if p = pHOSTP then reqDiscard s p fun r => r.who == .host
  else s

/-- The reserved entries of a block follow whether it runs. -/
def blockPlace (s : State) (page : Nat) : State :=
  let p := blockPage page
  if p = pLOOP then loopPlace s
  else if p = pWGH then wghPlace s
  else if p = pSGN then sgnPlace s
  else if pMB ≤ p ∧ p ≤ 0x67 then trefPlace s (p - pMB)
  else if p = pFIO then doSync ((List.range 8).foldl (fun t k => doPlace t (k + 1)) s)
  else s

/-- The outputs a stopped block owns at their fail-safe values (R307): loops write SAFE_VALUE, DO1–DO8 take
DO_SAFE. -/
def blockSafe (s : State) (page : Nat) : State :=
  let p := blockPage page
  let s := if p = pLOOP then
      (enabledLoops s).foldl (fun t n =>
        if (loopSt t n).retired then t else loopWriteOut t n (rd t (loopA n 0x6C)) (count t)) s
    else s
  blockPlace s p

/-- A block stopped as a fence stops it (R307, R360). -/
def blockStop (s : State) (p : Nat) : State := blockSafe (blockDiscard s p) p

/-- The pages of a block. -/
def blockPages (p : Nat) : List Nat := (List.range 128).filter fun q => blockPage q == p

/-- A block starts, idle, from its stored data (R307, R360). -/
def blockStart (s : State) (page : Nat) : State :=
  let p := blockPage page
  if p = pFIO then fioEnable s
  else if p = pSGN then sgnEnable s
  else blockPlace s p

/-- A block after a restart (R307 and its table): its staged words are gone, its engines idle. -/
def blockRestart (s : State) (page : Nat) : State :=
  let p := blockPage page
  let mine (a : Nat) : Bool := blockPage (pageOf (a % 2 ^ 20)) == p
  let s := if p = pPTS then { s with defSel := [] }
    else if p = pWGH then wghRestore s (some (count s))
    else if p = pLOCK then wrB s (reg pLOCK 0x084) 5 s.vault.ready
    else s
  let s := blockStart s p
  { s with staged := s.staged.filter fun e => !mine e.1 }

/-- Counters that enter clear-on-read mode with a fence are cleared (R334). -/
def fencePage (s : State) (p : Nat) : State :=
  let s' := if corMode s p then s else clearStats s p
  wrB s' (reg p 0x028) 1 true

/-- SOFT_RESET (R360): the block restarted as after a passed block test, its work discarded. -/
def softReset (s : State) (p : Nat) : State :=
  let s := if corMode s p then s else clearStats s p
  blockRestart (blockDiscard s p) p

/-- PG_CTRL.ENABLE written where it is writable (R360): the block's start or stop sees the new value. -/
def pageEnableSet (s : State) (p : Nat) (on : Bool) : State :=
  let put_ (t : State) : State := wrB t (reg p 0x008) 0 on
  if !enableWritable p ∨ enabled s p = on then s
  else put_ (if on then blockStart (put_ s) p else blockStop (put_ s) p)

end Sys2Proof.Machine
end

