-- ==== Sys2Proof/Machine/FaultOps.lean ====
section
/-!
DEFINITION. The fault manager and Assayer (R300–R315): detecting an error, fencing its element, testing it, returning
it to service or retiring it, the escalation from cell to block, region and module, and the module safe state.
-/

namespace Sys2Proof.Machine

/-! ### Element words (R300) -/

/-- The parts of an element word. -/
def elemLevel (w : Nat) : Nat := w / 2 ^ 20 % 4
/-- The page of an element word. -/
def elemPage (w : Nat) : Nat := w / 2 ^ 24
/-- The cell of an element word. -/
def elemCell (w : Nat) : Nat := w % 2 ^ 20
/-- The region of an element word. -/
def elemRegion (w : Nat) : Nat := w / 2 ^ 22 % 4

/-- The element word of a block. -/
def blockWord (p : Nat) : Nat := elemOf 1 (regionOf p) p 0
/-- The element word of a region. -/
def regionWord (k : Nat) : Nat := elemOf 2 k 0xFF 0
/-- The element word of the module. -/
def moduleWord : Nat := elemOf 3 0 0xFF 0

/-- The element word of what a command names (R300); a DRAM page stands under PAGE 0xFF, LEVEL 0 (log 22). -/
def elementWord (e : Element) : Nat :=
  if e.level.val = 3 then moduleWord
  else if e.level.val = 2 then regionWord e.region.val
  else if e.level.val = 1 then (if e.page.val = 0xFF then moduleWord else blockWord e.page.val)
  else if e.page.val = 0xFF then elemOf 0 0 0xFF e.cell.toNat
  else cellWord e.page.val e.cell.toNat

/-- The cells of a block (log 16): Loom lanes, Factor lanes and cache word groups, point records, loops, two converter
paths a channel, DI then DO channels, ring and recorder slots, key slots. -/
def cellCount (p : Nat) : Nat :=
  if p = pSCAN then 4 else if p = pFACT then 64 + 262144 else if p = pPTS then 65536 else if p = pLOOP then 256
  else if 0x29 ≤ p ∧ p ≤ 0x2B then 16 else if p = pFIO then 24 else if p = pDAYB then 16384
  else if p = pSCRV then 8192 else if p = pLOCK then 64 else 2 ^ 20

/-- The element exists in this part. -/
def elemExists (s : State) (w : Nat) : Bool :=
  let p := elemPage w
  if 2 ≤ elemLevel w then true
  else if p = 0xFF then decide (elemCell w < Config.dramBytes / 4096)
  else (pageType p).isSome && !isLoopbank p && !fusedOff s p && decide (elemLevel w = 1 ∨ elemCell w < cellCount p)

/-- What the fault manager knows of an element, replaced. -/
def setElem (s : State) (w : Nat) (x : ElemSt) : State :=
  { s with fltm := { s.fltm with elems := put .ok s.fltm.elems w x } }

/-- The elements that contain an element: its block, and its region (R8). -/
def above (w : Nat) : List Nat :=
  let p := elemPage w
  if 2 ≤ elemLevel w ∨ p = 0xFF then []
  else (if elemLevel w = 0 then [blockWord p] else []) ++ (if moduleLevel p then [] else [regionWord (regionOf p)])

/-- An element is out of service: itself, or with the block or region that contains it. -/
def shadowed (s : State) (w : Nat) : Bool := (w :: above w).any fun v => (elemSt s v).phase != .service

/-- The sequencer that tests an element: one for each region, one at module level (R305). -/
def seqKey (w : Nat) : Nat :=
  if elemLevel w = 3 ∨ (elemPage w = 0xFF ∧ elemLevel w = 0) then 4
  else if elemLevel w = 2 then elemRegion w
  else if moduleLevel (elemPage w) then 4
  else regionOf (elemPage w)

/-- The catalogue code of an element's test (R305). -/
def testCode (w : Nat) : Nat :=
  let p := elemPage w
  let c := elemCell w
  if elemLevel w ≠ 0 then (if elemLevel w = 1 ∧ pETH ≤ p ∧ p ≤ 0x51 then 3 else 2)
  else if p = 0xFF then 8
  else if 0x29 ≤ p ∧ p ≤ 0x2B then 4
  else if p = pFIO then (if c < 16 then 6 else 5)
  else if p = pFACT then (if c < 64 then 9 else 1)
  else if p = pSCAN then 10
  else if p = pDAYB ∨ p = pSCRV ∨ p = pUPD then 11
  else if p = pSGN then 12
  else if pETH ≤ p ∧ p ≤ 0x51 then 3
  else 1

/-! ### Records -/

/-- The page on which an element's error is reported: its block's, or FLTM for what has none. -/
def reportPage (w : Nat) : Nat := if 2 ≤ elemLevel w ∨ elemPage w = 0xFF then pFLTM else elemPage w

/-- FLT_CAPT of the reporting block (R300, R301); TOLL's holds the budget record of R26. -/
def faultCapture (s : State) (w kind detail : Nat) : State :=
  let p := reportPage w
  if p = pTOLL then s else wr (wr s (reg p 0x02C) (w32 w)) (reg p 0x030) (w32 (kind + detail * 256))

/-- FLT_STAT.LAST of the reporting block. -/
def faultLast (s : State) (w outcome : Nat) : State := wrF s (reg (reportPage w) 0x028) 4 2 outcome

/-- A record of FLTM.LOG (R322): outcome, test, kind, items discarded and detection position. -/
def faultLog (s : State) (w outcome test kind disc pos : Nat) : State :=
  let n := rdF s (reg pFLTM 0x0A4) 0 5
  let total := rdF s (reg pFLTM 0x0A4) 16 16
  let a := reg pFLTM (0x100 + 0x10 * n)
  let s := wr (wr s a (w32 w)) (a + 4) (w32 (outcome + test * 16 + kind * 256 + min disc 65535 * 65536))
  wr (wr64 s (a + 8) pos) (reg pFLTM 0x0A4) (w32 ((n + 1) % 32 + (total + 1) % 65536 * 65536))

/-- FLT_STAT.ERROR: an error on the page is being handled. -/
def showError (s : State) (w : Nat) : State :=
  let p := reportPage w
  wrB s (reg p 0x028) 0 (s.fltm.elems.any fun e =>
    reportPage e.1 == p && (e.2.phase == .fenced || e.2.phase == .testing))

/-- FLTM.STAT: SAFE_STATE, RETIRED_UNACK, BUSY and PENDING. -/
def fltmStat (s : State) : Word :=
  let busy := s.fltm.elems.any fun e => e.2.phase == .testing
  w32 (b2n s.guard.safe + rdF s (reg pFLTM 0x084) 1 1 * 2 + b2n busy * 4 + min 7 s.fltm.queue.length * 8)

/-- The state field of a region in FLTM.REGION. -/
def regionState (s : State) (k v : Nat) : State := wrF s (reg pFLTM 0x090) (8 * k) 2 v

/-! ### Fencing (R303 steps 1 and 2) -/

/-- The pages of a region. -/
def regionPages (s : State) (k : Nat) : List Nat :=
  (List.range 128).filter fun p =>
    (pageType p).isSome && !isLoopbank p && !moduleLevel p && regionOf p == k && !fusedOff s p

/-- A block's pages fenced and its work discarded. -/
def fenceBlock (s : State) (p : Nat) : State :=
  blockStop (((blockPages (blockPage p)).filter fun q => !isLoopbank q).foldl fencePage s) p

/-- The work in flight on a cell discarded. -/
def cellStop (s : State) (p c : Nat) : State :=
  if p = pSCAN then scanDiscard s
  else if p = pFACT then factDiscard s
  else if p = pLOOP then loopDiscard s c
  else if p = pPTS then
    reqDiscard s p fun r => waitsAt 7 r && (match r.body with
      | .command q _ => q == c
      | .pointRead q => q == c
      | _ => false)
  else if p = pLOCK then
    let ops := s.vault.waiting.filter fun e => lockTarget s e.1 == c
    let s := { s with vault := { s.vault with waiting := s.vault.waiting.filter fun e => lockTarget s e.1 != c } }
    countDiscard (ops.foldl (fun t e => lockEndWait t e oDISCARDED) s) p ops.length
  else s

/-- An element waits for its test behind those detected before it, and behind those of lower pages detected on the
same fabric cycle (R305). -/
def queueTest (s : State) (w : Nat) : List Nat → List Nat
  | [] => [w]
  | v :: vs =>
    if (elemSt s v).at_ = s.clk.fabric ∧ elemPage w < elemPage v then w :: v :: vs else v :: queueTest s w vs

/-- The errors of contained elements on the same fabric cycle are absorbed (R305). -/
def absorbBelow (s : State) (w : Nat) : State :=
  let below := s.fltm.queue.filter fun v =>
    v != w && (above v).contains w && decide ((elemSt s v).at_ = s.clk.fabric)
  below.foldl (fun t v =>
    let x := elemSt t v
    let t := { t with fltm := { t.fltm with queue := t.fltm.queue.filter (· != v) } }
    faultLast (faultLog (setElem t v { x with phase := .service }) v 3 0 x.kind x.disc x.pos) v 3) s

/-- An element fenced, its work discarded, its test queued (R303). -/
def fenceElem (s : State) (w kind : Nat) : State :=
  let s := absorbBelow s w
  let p := elemPage w
  let cnt (t : State) : Nat := if p < 128 then (rd t (reg (blockPage p) 0x040)).toNat else 0
  let pos := count s
  let at_ := s.clk.fabric
  let before := if elemLevel w = 1 ∧ !corMode s (blockPage p) then 0 else cnt s
  let t :=
    if elemLevel w = 0 then (if p = 0xFF then s else cellStop s p (elemCell w))
    else if elemLevel w = 1 then fenceBlock s p
    else if elemLevel w = 2 then regionState ((regionPages s (elemRegion w)).foldl fenceBlock s) (elemRegion w) 1
    else s
  let x := elemSt t w
  let t := setElem t w { x with
    phase := .fenced, kind := kind, pos := pos, at_ := at_, disc := cnt t - before, failed := false }
  showError { t with fltm := { t.fltm with queue := queueTest t w t.fltm.queue } } w

/-- What every error other than ECC_CORR shows: FLTM.EVT.ERROR and the recorder's trigger (R316). -/
def errorShow (s : State) : State :=
  let s := ev s pFLTM 0
  let c := rd s (reg pFLTM 0x080)
  if bit c 6 then scrvFire s (fld c 0 6) .safety (count s) false else s

/-- An error on an element that is out of service, or below one that is, is absorbed; a test in progress fails
(R305). -/
def absorb (s : State) (w kind detail : Nat) : State :=
  let s := (w :: above w).foldl (fun t v =>
    if (elemSt t v).phase = .testing then setElem t v { elemSt t v with failed := true } else t) s
  errorShow (faultLast (faultLog (faultCapture s w kind detail) w 3 0 kind 0 (count s)) w 3)

/-- The module safe state entered (R309, R313): Loom, the loops and Factor stop, every OPX session closes, DO1–DO8 take
DO_SAFE. -/
def enterSafe (s : State) : State :=
  if s.guard.safe then s
  else
    let s := loopDiscardAll (scanDiscard s)
    let s := [0, 1, 2, 3].foldl aetDisable (setEngine { s with loom := { s.loom with
      prev := none, stopPending := false, paused := false, held := false, stepping := 0 } } .stop)
    let s := closeAll (factBlockFault s)
    let s := ev { s with guard := { s.guard with safe := true } } pFLTM 4
    doSync (wrB s (reg pFLTM 0x084) 0 true)

/-- An error other than ECC_CORR on an element (R303, R305, R309). -/
def detect (s : State) (w kind detail : Nat) : State :=
  let x := elemSt s w
  if !elemExists s w then s
  else if x.phase = .fenced ∧ x.at_ = s.clk.fabric then s
  else if shadowed s w then absorb s w kind detail
  else
    let s := errorShow (faultCapture s w kind detail)
    fenceElem (if elemLevel w = 3 then enterSafe s else s) w kind

/-! ### Results of tests (R303 steps 4 and 5, R306–R309) -/

/-- The transient half of a page's FLT_COUNT. -/
def countTransient (s : State) (w : Nat) : State := satF s (reg (reportPage w) 0x034) 0 16 1

/-- The lasting half of a page's FLT_COUNT. -/
def countLasting (s : State) (w : Nat) : State := satF s (reg (reportPage w) 0x034) 16 16 1

/-- A page returns to service unless something of its own keeps it out. -/
def unfence (s : State) (p : Nat) : State :=
  if (elemSt s (blockWord p)).phase = .service ∧ !retiredPg s p then wrB s (reg p 0x028) 1 false else s

/-- A block's pages return to service and the block restarts (R307). -/
def restartBlock (s : State) (p : Nat) : State :=
  blockRestart (((blockPages (blockPage p)).filter fun q => !isLoopbank q).foldl unfence s) p

/-- A cell's effects of a test end. -/
def cellBack (s : State) (p c : Nat) : State :=
  if 0x29 ≤ p ∧ p ≤ 0x2B then adcTestEnd s ((p - 0x29) * 8 + c / 2)
  else if p = pFIO then doSync s
  else s

/-- An element returns to service (R303 step 4). -/
def toService (s : State) (w : Nat) : State :=
  let p := elemPage w
  if elemLevel w = 0 then (if p = 0xFF then s else cellBack s p (elemCell w))
  else if elemLevel w = 1 then ev (restartBlock s p) pFLTM 2
  else if elemLevel w = 2 then
    let k := elemRegion w
    let s := (regionPages s k).foldl restartBlock s
    ev (satF (regionState s k 0) (reg pFLTM 0x090) (8 * k + 2) 6 1) pFLTM 3
  else s

/-- The retired cells of a page. -/
def retiredCells (s : State) (p : Nat) : Nat :=
  (s.fltm.elems.filter fun e => elemLevel e.1 == 0 && elemPage e.1 == p && e.2.phase == .retired).length

/-- The retirement of a cell takes its block below the minimum of R306. -/
def belowMinimum (s : State) (p : Nat) : Bool :=
  if p = pSCAN then decide (2 < retiredCells s p)
  else if p = pFACT then decide (rdF s (reg pFACT 0x084) 16 7 < 8)
  else if p = pPTS ∨ p = 0xFF then decide (256 < retiredCells s p)
  else if p = pLOOP ∨ p = pFIO ∨ (pWGH ≤ p ∧ p ≤ 0x2B) then false
  else if p = pDAYB then decide (12288 < retiredCells s p)
  else if p = pLOCK then decide (56 < retiredCells s p)
  else true

/-- A 4 KiB DRAM page remapped: its content is undefined (log 4); its address is told (R306). -/
def dramRetire (s : State) (c : Nat) : State :=
  let f := s.free
  let s := { s with free := s.free + 4096 }
  let s := ramWrite s (4096 * c) ((List.range 4096).map fun i => BitVec.ofNat 8 (Config.freeWord (f + i)).toNat)
  ev (wr64 s (reg pFLTM 0x09C) (4096 * c)) pFLTM 6

/-- A field channel retired (R263): its input BAD, its output OFF. -/
def fioRetire (s : State) (c : Nat) : State :=
  if c < 16 then
    let n := c + 1
    let s := diagCode (wrB s (diagDi n) 4 true) (diagDi n) 6
    diFeed (wrB s (reg pFIO 0x08C) c true) n (chBit s 0x088 n) qBAD
  else doSync (diagCode (wrB s (diagDo (c - 15)) 4 true) (diagDo (c - 15)) 6)

/-- What a block loses with a retired cell (R306). -/
def cellRetire (s : State) (p c : Nat) : State :=
  if p = 0xFF then dramRetire s c
  else
    let s := wrB s (reg p 0x028) 3 true
    if p = pFACT then (if c < 64 then laneRetire s else cacheRetire s)
    else if p = pPTS then
      let x := point s c
      let y := { x with retired := true }
      ev (tally (changePoint s c 18 0 (if x.present then Point.stamp x y (count s) else y)) (reg pPTS 0x0A0)) pPTS 2
    else if p = pLOOP then loopRetire s c
    else if 0x29 ≤ p ∧ p ≤ 0x2B then
      let ch := (p - 0x29) * 8 + c / 2
      pathRetire (adcTestEnd s ch) ch (c % 2 == 1)
    else if p = pFIO then fioRetire s c
    else if p = pDAYB then
      let t := { s with dayb := { s.dayb with
        retired := s.dayb.retired ++ [c], ring := del s.dayb.ring c
        reserved := s.dayb.reserved.filter fun e => e.seq % ringSlots != c } }
      let held (e : Nat × Nat) : Bool := e.2 % ringSlots == c
      let t := { t with vault := { t.vault with waiting := t.vault.waiting.filter fun e => !held e } }
      dayLow s ((s.vault.waiting.filter held).foldl (fun u e => lockEndWait u e oDISCARDED) t)
    else if p = pSCRV then
      { s with scrv := { s.scrv with bad := s.scrv.bad ++ [c], slots := del s.scrv.slots c } }
    else if p = pLOCK then
      closeBySlot (setSlot s c { KeySlot.empty with gen := (slot s c).gen }) c
    else s

/-- A retired block raises a region error when it is essential to its region (R307). -/
def essential (p : Nat) : Bool :=
  p == pLAC || p == pAET || p == 0x0A || p == pOPX || p == pPTS || p == pTEN || p == pPROT || p == pLOCK || p == pDAYB

/-- What every LASTING outcome and retirement shows: FLT_STAT.LAST, FLT_COUNT, EVT.LASTING, RETIRED_UNACK (R303, R314). -/
def lasting (s : State) (w : Nat) : State :=
  ev (wrB (countLasting (faultLast s w 1) w) (reg pFLTM 0x084) 1 true) pFLTM 1

/-- An element retired, with the escalation of R306–R309. -/
def retire (s : State) (w kind : Nat) : State :=
  let p := elemPage w
  let x := elemSt s w
  let s := setElem s w { x with phase := .retired, failed := false }
  let s := lasting s w
  if elemLevel w = 0 then
    let s := cellRetire s p (elemCell w)
    if belowMinimum s p then detect s (if p = 0xFF then moduleWord else blockWord p) kind 0 else s
  else if elemLevel w = 1 then
    let s := ((blockPages (blockPage p)).filter fun q => !isLoopbank q).foldl (fun t q => wrB t (reg q 0x028) 2 true) s
    if moduleLevel p then detect s moduleWord kind 0
    else if essential p then detect s (regionWord (regionOf p)) kind 0
    else s
  else if elemLevel w = 2 then detect (regionState s (elemRegion w) 2) moduleWord kind 0
  else s

/-- An error found TRANSIENT (R303 step 4, R304). -/
def transient (s : State) (w : Nat) : State :=
  let x := elemSt s w
  let s := setElem s w { ElemSt.ok with
    win := some (x.win.getD 0 + 1), winAt := if x.win.isSome then x.winAt else s.clk.fabric }
  toService (countTransient (faultLast s w 0) w) w

/-! ### Field faults (R263) -/

/-- The group of a field channel: DI_A, DI_B, DO. -/
def fioGroup (c : Nat) : Nat := c / 8

/-- The cause that a passed test leaves in DIAG of an output: THERMAL, STUCK_OFF or STUCK_ON (the wiring cases). -/
def doCause (s : State) (c : Nat) : Nat :=
  if s.fio.thermal.getLsbD (c - 1) then 3 else if doEffective s c then 5 else 4

/-- A field fault of a channel whose test passed: DIAG and FIELD_COUNT, not FLT_COUNT (R263). -/
def fieldFault (s : State) (c : Nat) : State :=
  let s := bump s (reg pFIO 0x1E4)
  if c < 16 then satF s (diagDi (c + 1)) 16 16 1
  else satF (diagCode s (diagDo (c - 15)) (doCause s (c - 15))) (diagDo (c - 15)) 16 16 1

/-- A group bit falls when the last of its channels has been tested. -/
def groupSettle (s : State) (g : Nat) : State :=
  let more := (List.range 8).any fun k =>
    let x := elemSt s (cellWord pFIO (8 * g + k))
    x.kind == 8 && (x.phase == .fenced || x.phase == .testing)
  if more then s else wrB s (reg pFIO 0x080) g false

/-- GROUP_FAULT: a group bit rises and Assayer tests the group's channels in service (R263). -/
def groupFaultOp (s : State) (g : Nat) : State :=
  if rdB s (reg pFIO 0x080) g ∨ !runs s pFIO then s
  else
    let s := ev (wrB s (reg pFIO 0x080) g true) pFIO 0
    (List.range 8).foldl (fun t k =>
      let w := cellWord pFIO (8 * g + k)
      if shadowed t w then t else fenceElem t w 8) s

/-! ### The commands of the fault manager -/

/-- A window of 3,600 s that opened at a fabric instant has closed (R304). -/
def windowOver (s : State) (t : Nat) : Bool := decide (t + 3600 * Config.fabricHz ≤ s.clk.fabric)

/-- The corrected errors of a word group in their open window, with the instant of the first (R302, log 60). -/
def corrected (s : State) (w : Nat) : Nat × Nat :=
  match get? s.fltm.corr w with
  | some (n, t) => if windowOver s t then (0, s.clk.fabric) else (n, t)
  | none => (0, s.clk.fabric)

/-- A corrected error of an element (R302): counted and recorded; the fourth of a word group within its window is an error
under R303. -/
def eccCorrOp (s : State) (w : Nat) : State :=
  if !elemExists s (if elemPage w = 0xFF then w else blockWord (elemPage w)) then s
  else
    let s := faultLast (faultCapture (bump s (reg pFLTM 0x094)) w 2 0) w 2
    let (n, t) := corrected s w
    if n < 3 then { s with fltm := { s.fltm with corr := ins s.fltm.corr w (n + 1, t) } }
    else detect { s with fltm := { s.fltm with corr := del s.fltm.corr w } } w 2 0

/-- The random source fails its health test (R280): RNG_OK reads 0, EVT.RNG_FAIL. -/
def rngFail (s : State) : State := ev (wrB s (reg pLOCK 0x084) 5 false) pLOCK 3

/-- ERROR_DETECTED (R302, R303, R309): an uncorrectable ECC error in a module-level block is a module error at once; a block
error of Locksmith whose DETAIL is odd is its random source's (R280). -/
def errorOp (s : State) (e : Element) (kind detail : Nat) : State :=
  let w := elementWord e
  let p := elemPage w
  if kind = 2 then eccCorrOp s w
  else if kind = 1 ∧ elemLevel w ≤ 1 ∧ moduleLevel p then detect (faultCapture s w kind detail) moduleWord kind detail
  else if w = blockWord pLOCK ∧ detail % 2 = 1 then detect (rngFail s) w kind detail
  else detect s w kind detail

/-- What a test does to its element while it runs: the ADC injection of R141, the off-pulse of R263. -/
def testBegins (s : State) (w : Nat) : State :=
  let p := elemPage w
  if elemLevel w ≠ 0 then s
  else if 0x29 ≤ p ∧ p ≤ 0x2B then adcTest s ((p - 0x29) * 8 + elemCell w / 2) (elemCell w % 2 == 1)
  else if p = pFIO then doSync s
  else s

/-- ASSAYER_TEST_START (R305): the first element that waits for a sequencer, when that sequencer is free. -/
def testStartOp (s : State) (e : Element) : State :=
  let w := elementWord e
  let x := elemSt s w
  let first := (s.fltm.queue.find? fun v => seqKey v == seqKey w) == some w
  let free := !(s.fltm.elems.any fun v => v.2.phase == .testing && seqKey v.1 == seqKey w)
  if !first ∨ !free ∨ x.phase ≠ .fenced then s
  else
    let s := { s with fltm := { s.fltm with queue := s.fltm.queue.filter (· != w) } }
    let s := setElem s w { x with phase := .testing }
    let late := decide (x.at_ + msFabric 1 < s.clk.fabric) && x.kind != 0
    let s := if late then ev (bump s (reg pFLTM 0x098)) pFLTM 5 else s
    let s := if x.kind = 0 then wr s (reg (reportPage w) 0x03C) (w32 (1 + testCode w * 16)) else s
    testBegins s w

/-- ASSAYER_TEST_DONE (R303–R309). -/
def testDoneOp (s : State) (e : Element) (pass : Bool) : State :=
  let w := elementWord e
  let x := elemSt s w
  if x.phase ≠ .testing then s
  else
    let ok := pass && !x.failed
    let field := x.kind == 8 && elemPage w == pFIO && elemLevel w == 0
    let s := if x.kind = 0 then wr s (reg (reportPage w) 0x03C) (w32 ((if ok then 2 else 3) + testCode w * 16)) else s
    let s :=
      if field && ok then
        cellBack (fieldFault (setElem s w { ElemSt.ok with win := x.win, winAt := x.winAt }) (elemCell w)) pFIO (elemCell w)
      else
        let good := ok && decide (x.win.getD 0 < 16)
        let s := if field then faultCapture s w 8 0 else s
        let s := faultLog s w (if good then 0 else 1) (testCode w) x.kind x.disc x.pos
        if elemLevel w = 3 then faultLast (setElem s w ElemSt.ok) w (b2n (!good))
        else if good then transient s w
        else retire s w x.kind
    showError (if field then groupSettle s (fioGroup (elemCell w)) else s) w

/-- TRANSIENT_WINDOW_CLOSE (R304): a window that has stood for 3,600 s closes. -/
def windowCloseOp (s : State) (e : Element) : State :=
  let w := elementWord e
  let x := elemSt s w
  let s := if x.win.isSome ∧ windowOver s x.winAt then setElem s w { x with win := none } else s
  if (corrected s w).1 = 0 then { s with fltm := { s.fltm with corr := del s.fltm.corr w } } else s

/-- PATROL_TEST (R310): a NAND page, an Ethernet port before its first use, or the waveform table (R271). A port that has
passed may send and receive. -/
def patrolOp (s : State) (e : Element) (pass : Bool) : State :=
  let w := elementWord e
  let p := elemPage w
  if !s.guard.operational ∨ !elemExists s w ∨ shadowed s w then s
  else if pass then
    (if elemLevel w = 1 ∧ pETH ≤ p ∧ p ≤ 0x51 ∧ enabled s p then
      setEth s (p - pETH) { ethPort s (p - pETH) with tested := true }
    else s)
  else if p = pSGN then
    (if lutValid s then lasting (faultLog (lutBad s) w 1 12 0 0 (count s)) w else s)
  else if p = pUPD ∨ (pETH ≤ p ∧ p ≤ 0x51) then
    retire (faultLog s w 1 (testCode w) 0 0 (count s)) w 0
  else s

/-- A requested self-test (R315): SELFTEST_CTRL with START. -/
def selftestOp (s : State) (p : Nat) (v : Word) : State :=
  let s := wr s (reg p 0x038) (v &&& 0x1FFFFF)
  if !bit v 31 then s
  else
    let w := if bit v 20 then blockWord p else cellWord p (fld v 0 20)
    if !elemExists s w ∨ shadowed s w then wr s (reg p 0x03C) 4
    else wr (fenceElem s w 0) (reg p 0x03C) 1

/-- FLTM.CMD.ACK (R314). -/
def ackOp (s : State) : State := wrB s (reg pFLTM 0x084) 1 false

/-- DISCARD_COMPLETE (R311): one waiting completion DISCARDED is posted as completion space allows. -/
def discardCompleteOp (s : State) : State := postFlush s 1

/-- A budget fault's handling by the issuing block, or by none when a core issued it (R26). A fault of the service port, issuer
0x80, is given neither a block's handling nor a core's: TOLL's event and capture stand, and nothing more is done. DESIGN CHOICE,
safe (log 51). -/
def budgetFault (s : State) (issuer : Nat) : State :=
  if 0xF0 ≤ issuer then faultLog s moduleWord 3 0 7 0 (count s)
  else if issuer < 128 then detect s (blockWord issuer) 7 0
  else s

/-- The budget faults that hardware's own grants have raised on the way from one state to the next, handled by their issuers
(R26). -/
def budgetSettle (s t : State) : State :=
  (t.toll.faulted.filter fun k => !s.toll.faulted.contains k).foldl (fun u k => budgetFault u (k % 256)) t

end Sys2Proof.Machine
end

