-- ==== Sys2Proof/Machine/ModeOps.lean ====
section
/-!
DEFINITION. The mode flags and what each change brings (R323–R336), DEAD (R345), tamper trips (R289–R291), the power
failure (R378), start-up (R337) and sleep (R365).
-/

namespace Sys2Proof.Machine

/-! ### Changes of MOD.MODE (R324–R334) -/

/-- MOD.STAT (R346). -/
def modStat (s : State) : Word :=
  w32 (b2n s.guard.operational + b2n (decide (0 < rdF s (reg pFORCE 0x080) 0 9)) * 2 + b2n (!roleSet s) * 4 +
    b2n s.guard.dead * 8 + b2n s.guard.unlockArmed * 16 + b2n s.guard.lockdownRec * 32 + s.guard.step * 256)

/-- Blocks whose counters enter clear-on-read mode are cleared (R334). -/
def enterCor (old s : State) : State :=
  (List.range 128).foldl (fun t p =>
    if (pageType p).isSome && !corMode old p && corMode s p then clearStats t p else t) s

/-- The entry into LOCKDOWN (R325, R331): the record, every session closed, every force released, HOLD ended. -/
def lockdownIn (s : State) : State :=
  let s := ev { s with guard := { s.guard with lockdownRec := true } } pMOD 1
  scanResume (forceSettle (forceRelease (closeAll s)))

/-- What clearing FLOOR brings (R326): Loom to STOP, no further sample. -/
def floorOut (s : State) : State :=
  let s := scanHalt s
  { s with loops := s.loops.map fun e => (e.1, { e.2 with sample := none, result := none }) }

/-- Every reserved entry and output follows the modes (R326). -/
def placeAll (s : State) : State :=
  let s := sgnPlace (wghPlace (loopPlace s))
  doSync ((List.range 8).foldl (fun t k => doPlace t (k + 1)) s)

/-- MOD.MODE takes a value, with everything the change brings (R326–R334). -/
def modeSet (s : State) (m : BitVec 8) : State :=
  let t := { s with guard := { s.guard with mode := m } }
  let was (f : State → Bool) : Bool := f s && !f t
  let now (f : State → Bool) : Bool := !f s && f t
  let t := evIf (decide (m ≠ s.guard.mode)) t pMOD 0
  let t := if now mLOCK then lockdownIn t else t
  let t := if was fun x => mCOMM x || mDEBUG x then forceSettle (forceRelease t) else t
  let t := if was mDEBUG then scanResume t else t
  let t := if was mFLOOR then floorOut t else t
  let t := if was roleSet then closeAll t else t
  let t := if was fun x => mDISTRICT x && !mLOCK x then factBlockFault t else t
  let meters (x : State) : Bool := roleSet x || mMETER x
  let t := if was meters || now meters then { t with wgh := { t.wgh with dem0 := { t.wgh.dem0 with irr := true } } } else t
  let t := if mISLAND s = mISLAND t then t else islandChanged t
  placeAll (enterCor s t)

/-- What a write to MOD.MODE makes of its value (R324, R5): METER stays set, LOCKDOWN is set only at a SAFETY ceiling,
DISTRICT only with feature D; and whether METER or LOCKDOWN was held against it. -/
def modeWritten (s : State) (safety : Bool) (v : BitVec 8) : BitVec 8 × Bool :=
  let meter := v.getLsbD 2 || mMETER s
  let lock := v.getLsbD 7 && safety
  let dist := v.getLsbD 1 && s.guard.fD
  let low := v.toNat
  let m := low % 2 + b2n dist * 2 + b2n meter * 4 + (low / 8 % 16) * 8 + b2n (lock || mLOCK s) * 128
  (BitVec.ofNat 8 m, (mMETER s && !v.getLsbD 2) || (v.getLsbD 7 && !safety))

/-- A mode set by hardware: a kind-3 change of HARDWARE origin (R200, R325). -/
def modeHw (s : State) (m : BitVec 8) : State :=
  if m = s.guard.mode then s
  else
    let t := modeSet s m
    logHw t pMOD 3 (reg pMOD 0x080) (BitVec.ofNat 64 s.guard.mode.toNat) (BitVec.ofNat 64 t.guard.mode.toNat)

/-- LOCKDOWN set by hardware (R325). -/
def lockdownHw (s : State) : State := modeHw s (s.guard.mode ||| 128)

/-! ### DEAD (R345) -/

/-- DEAD entered: written to the boot configuration; Loom, the loops and Factor stop, the outputs take DO_SAFE; before start-up
step 7 the tracker starts (R44). -/
def deadEnter (s : State) : State :=
  if s.guard.dead then s
  else
    let s := trackerStart s
    let s := loopDiscardAll (scanDiscard s)
    let s := [0, 1, 2, 3].foldl aetDisable (setEngine { s with loom := { s.loom with
      prev := none, stopPending := false, paused := false, held := false, stepping := 0 } } .stop)
    let s := closeAll (factBlockFault s)
    let s := ev (updGo { s with guard := { s.guard with dead := true } } 5) pUPD 4
    doSync s

/-- FAIL from the supervisor, or CHECK_S passed, in CHECKING (R342, R345). -/
def updDead (s : State) : State := if updState s ≠ 4 then s else deadEnter s

/-- CHECK_S seconds have passed since the activation; 0 acts as 1 (R342). -/
def checkOver (s : State) : Bool :=
  decide (s.upd.since + max 1 (rdF s (reg pUPD 0x080) 0 8) * Config.fabricHz ≤ s.clk.fabric)

/-- CHECK_S passes without CONFIRM (R342, R345): DEAD, a step of HARDWARE origin. -/
def checkLate (s : State) : State := if updState s ≠ 4 ∨ !checkOver s then s else updLog s (updDead s)

/-! ### Watchman (R289, R290) -/

/-- The situation of a trip (R290): 0 start-up, 1 running, 2 a key operation in progress, 3 asleep or without VIN. -/
def tamperSituation (s : State) : Nat :=
  if s.guard.asleep ∨ !s.guard.pgood then 3
  else if !s.guard.operational then 0
  else if s.vault.waiting.isEmpty then 1 else 2

/-- A sensor trips (R289, R290): the keys are destroyed, the record made, LOCKDOWN set. -/
def tamperOp (s : State) (causes : Nat) : State :=
  let c := armedCauses s causes
  if c = 0 then s
  else
    let sit := tamperSituation s
    let ops := s.vault.waiting
    let fresh := rd s (reg pBKP 0x090) = 0
    let t := if fresh then destroyKeys s else s
    let t := ops.foldl (fun u e => ev (lockEndWait u e oTAMPERED) pLOCK 4) t
    let t := tamperRecord t c sit
    let t := if fresh ∧ sit ≠ 3 then logHw t pWTCH 2 0 0 (BitVec.ofNat 64 c) else t
    if sit = 3 ∨ (!s.guard.operational ∧ s.guard.step ≤ 8) then t else lockdownHw t

/-- TAMPER_TRIP (R288, R289): the sensors stand at their trip condition, armed or not; cause 9 is the crystal's. -/
def tamperTripOp (s : State) (c : Nat) : State :=
  let t := wrF s (reg pWTCH 0x088) 0 10 c
  tamperOp (if c / 512 % 2 = 1 then wrB t (reg pCAL 0x0A0) 2 false else t) c

/-- SECOND_BOUNDARY (R293–R298): the calendar's, the demand intervals' where staged fields take effect (R154), and the rise
of PPS_OUT (R381). -/
def secondOp (s : State) : State :=
  let set := !s.vault.calNext.isEmpty
  let s := wrB (calSecond s) (reg pCAL 0x0A0) 2 true
  let s := { s with pins := { s.pins with ppsOut := s.guard.pgood } }
  if set then demandIrregular s else s

/-! ### Power failure (R158, R206, R274, R321, R378) -/

/-- The power-fail trigger. -/
def powerFailOp (s : State) : State :=
  if s.pins.pfwAt.isSome then s
  else
    let s := sgnPowerFail (wghPowerFail s)
    { s with
      dayb := { s.dayb with powerFail := true }
      scrv := { s.scrv with off := true, queue := [], hold := [] }
      pins := { s.pins with pfwAt := some s.clk.fabric } }

/-- VIN back at 10.8 V for 10 ms before a module reset (R378): operation continues. -/
def powerBackOp (s : State) : State :=
  if s.pins.pfwAt.isNone then s
  else
    let s := sgnPowerBack (wghPowerBack s)
    { s with
      dayb := { s.dayb with powerFail := false }
      scrv := { s.scrv with off := false }
      pins := { s.pins with pfwAt := none, resetWait := false } }

/-! ### Start-up (R337–R340) -/

/-- OPERATIONAL is set (R337). -/
def goOperational (s : State) : State :=
  if s.guard.operational then s
  else ev { s with guard := { s.guard with operational := true, step := 0 } } pMOD 2

/-- The budgets in force from the boot code's BUDGET registers (R17): below the default ignored, above 80 % together
both ignored. -/
def budgetClean (w : Word) : Word × Bool × Bool :=
  let sa := fld w 0 8
  let co := fld w 8 8
  let low := decide (sa < 10) || decide (co < 40)
  let sa' := max 10 sa
  let co' := max 40 co
  if 80 < sa' + co' then (0x280A, low, true) else (w32 (sa' + co' * 256), low, false)

/-- PROT.LOCK set (R340). -/
def lockProt (s : State) : State := wrB { s with guard := { s.guard with protLock := true } } (reg pPROT 0x080) 0 true

/-- Step 8: MOD.MODE from the boot configuration, LOCKDOWN under R325 (R337, R339); on a part without feature D its DISTRICT is
left at 0 and logged with outcome ABSENT (R5, R4). -/
def bootModeLoad (s : State) : State :=
  let lock := s.guard.lockdownRec || decide (rd s (reg pBKP 0x090) ≠ 0)
  if s.guard.bootBad then ev (modeHw s 128) pMOD 4
  else
    let b := s.guard.bootMode.toNat % 128
    let old := BitVec.ofNat 64 s.guard.mode.toNat
    let none_ := !s.guard.fD && decide (b / 2 % 2 = 1)
    let s := if none_ then logHw s pMOD 3 (reg pMOD 0x080) old old .safety oABSENT else s
    modeHw s (BitVec.ofNat 8 (b - b2n none_ * 2 + b2n lock * 128))

/-- Step 9 takes place: FLOOR is set, a verified program is active and LOCKDOWN is clear (R337). -/
def scanToCome (s : State) : Bool := mFLOOR s && (activeProg s).isSome && !mLOCK s

/-- The start that BOOT1 and BOOT0 select: 1 recovery, 2 factory test in life-cycle BLANK, else a normal start (R338). -/
def bootStrap (s : State) (b : BitVec 2) : Nat :=
  if b = 1 then 1 else if b = 2 ∧ s.guard.lifecycle = 0 then 2 else 0

/-- A power-on test fails (R310): an element is retired and logged LASTING; at module level the module safe state is held. -/
def powerOnFail (s : State) (e : Element) : State :=
  let w := elementWord e
  if !elemExists s w ∨ shadowed s w then s
  else if elemLevel w = 3 ∨ (elemPage w ≠ 0xFF ∧ moduleLevel (elemPage w)) then detect s moduleWord 1 0
  else retire (faultLog s w 1 (testCode w) 0 0 (count s)) w 0

/-- The elements that fail in a step: in step 6 only DRAM pages are tested (R310). -/
def powerOnFails (s : State) (k : Nat) (bad : List Element) : State :=
  (bad.filter fun e => k == 5 || (e.level.val == 0 && e.page.val == 0xFF)).foldl powerOnFail s

/-- A recovery start takes a full image from the service port under the checks of R341: it is loaded, or rejected with its
cause and the step waits for another (R338, log 41). -/
def recoveryLoad (s : State) (b : List Byte) : State × Bool :=
  let c := patchCause s b true
  let reject (c : Nat) : State × Bool := (ev (wrF s updStatA 8 4 c) pUPD 2, false)
  let ops := (b.drop 128).take (leAt b 0x58 4)
  if c ≠ 0 then reject c
  else
    match patchRun (patchBase s b) (leAt b 0x5C 4) (ops.length + 1) ops [] with
    | none => reject 5
    | some img =>
      if (Crypto.sha256 img).toNat ≠ leAt b 0x28 32 then reject 6
      else ({ s with upd := { s.upd with image := img } }, true)

/-- A start-up step completes, or fails (R337); with step 5 Weighhouse has restored its checkpoint (R159). -/
def startUpOp (s : State) (k : Nat) (x : StartUp) : State :=
  let ok := x.ok
  let go (t : State) (n : Nat) : State := { t with guard := { t.guard with step := n } }
  if s.guard.operational ∨ s.guard.step ≠ k ∨ s.guard.dead then s
  else if k = 1 then go { s with guard := { s.guard with pgood := true } } 2
  else if k = 2 then
    if !s.guard.pgood then s
    else go { s with
      guard := { s.guard with inReset := false, boot := bootStrap s x.boot }, pins := { s.pins with rstoutN := true } } 3
  else if k = 3 then
    if s.guard.boot = 1 then
      let (t, good) := recoveryLoad s x.image
      if good then go t 4 else t
    else if ok then go s 4 else deadEnter s
  else if k = 4 then
    let t := if s.guard.protLock then s else wrB (lockProt s) (reg pPROT 0x084) 0 true
    wrB (go t 5) (reg pHOSTP 0x084) 0 true
  else if k = 5 then
    let t := powerOnFails s 5 x.bad
    if !ok then detect t moduleWord 1 0 else if t.guard.safe then t else go (wghRestore t none) 6
  else if k = 6 then
    if !ok then deadEnter s
    else
      let s := powerOnFails s 6 x.bad
      let s := { s with vault := { s.vault with measure := leBytes 32 (Crypto.sha256 s.upd.image).toNat } }
      if s.guard.safe then s else trackerStart (go s 7)
  else if k = 7 then (if s.lac.inService then go s 8 else s)
  else if k = 8 then
    let t := bootModeLoad s
    if scanToCome t then go t 9 else goOperational t
  else s

/-! ### Sleep (R365) -/

/-- The sources that can become pending in sleep: 0x60–0x67, 0x7A, 0x7B, 0x7F, 0x80–0xFF. -/
def sleepSource (n : Nat) : Bool :=
  (decide (0x60 ≤ n) && decide (n ≤ 0x67)) || n == 0x7A || n == 0x7B || n == 0x7F || decide (0x80 ≤ n)

/-- Whether INTC.WAKE_EN selects a source. -/
def wakeEn (s : State) (n : Nat) : Bool := rdB s (reg pINTC (0x140 + 4 * (n / 32))) (n % 32)

/-- The outcome of SLEEP.GO: 1 SLEPT, 2 REFUSED_ROLE, 3 REFUSED_PENDING. -/
def sleepResult (s : State) : Nat :=
  if roleSet s ∨ s.guard.safe then 2
  else if (List.range 256).any fun n => wakeEn s n && srcPending s n then 3
  else 1

/-- SLEEP.GO from the supervisor: buffers, queues and work in flight are emptied. -/
def sleepOp (s : State) : State :=
  let r := sleepResult s
  let s := wrF s (reg pINTC 0x174) 0 2 r
  if r ≠ 1 ∨ s.guard.asleep then s
  else
    let s := (List.range 128).foldl (fun t p =>
      if (pageType p).isSome && blockPage p == p && p != pWGH && p != pAET then blockDiscard t p else t) s
    let s := reqDiscard s pTOLL fun _ => true
    let s := wrB s (reg pHOSTP 0x084) 1 false
    { s with guard := { s.guard with asleep := true }, pins := { s.pins with clkreqN := true } }

/-- A wake-enabled source becomes pending in sleep: the module wakes; PCIE_WAKE_N falls when it is routed to T0. -/
def wakeOp (s : State) (n : Nat) : State :=
  if !s.guard.asleep ∨ !sleepSource n ∨ !wakeEn s n ∨ !srcPending s n then s
  else
    let s := wrF s (reg pINTC 0x174) 2 8 n
    let t0 := rdF s (reg pINTC (0x400 + 4 * n)) 4 1 == 0
    { s with guard := { s.guard with asleep := false }, pins := { s.pins with
      pcieWakeN := if t0 then false else s.pins.pcieWakeN
      wakeAt := if t0 then s.clk.fabric else s.pins.wakeAt } }

/-- PCIE_WAKE_N has been low for 1 s: it is released (R365). -/
def wakeTimeout (s : State) : State :=
  if s.pins.wakeAt + Config.fabricHz ≤ s.clk.fabric then { s with pins := { s.pins with pcieWakeN := true } } else s

/-- The host link's state changes (R347): LINK_UP, speed and width, PCIE_CLKREQ_N; PCIE_WAKE_N is released at L0. -/
def hostLink (s : State) (up : Bool) (speed width : Nat) : State :=
  let a := reg pHOSTP 0x084
  let was := rdB s a 1
  let s := wrF (wrF (wrB s a 1 up) a 2 2 (if up then speed else 0)) a 4 2 (if up then width else 0)
  let s := { s with pins := { s.pins with
    clkreqN := !up, pcieWakeN := if up then true else s.pins.pcieWakeN } }
  evIf (was != up) s pHOSTP 0

/-- PCIE_PERST_N falls and rises (R348): the host port alone is reset. -/
def perstOp (s : State) : State :=
  let s := wrB (dropHeld (reqDiscard s pHOSTP fun r => r.who == .host) .host) (reg pHOSTP 0x084) 6 false
  ev (hostLink s false 0 0) pHOSTP 1

end Sys2Proof.Machine
end

