-- ==== Sys2Proof/Machine/ResetOps.lean ====
section
/-!
DEFINITION. The module reset (R336, R337, R377–R379): what the non-volatile memories and the backup domain keep, and
the state everything else returns to.
-/

namespace Sys2Proof.Machine

/-- The pages of the backup domain, whose registers a module reset does not change (R277). -/
def backupPage (p : Nat) : Bool := p == pWTCH || p == pCAL || p == pBKP

/-- A reserved Daybook slot that a reset leaves without a good CRC is rewritten as a gap entry of count 1 (R205). -/
def gapSlot (e : DayEntry) : DayEntry :=
  { e with origin := w32 (5 * 2 ^ 28 + pDAYB), kind := 15, target := 0, old := 1, new := 0, outcome := oSERVED
           hashed := false, gap := true, level := 0 }

/-- The Daybook after a module reset: the ring of MRAM with HEAD_SEQ and DRAIN_SEQ (R202, R205). -/
def Dayb.restart (d : Dayb) : Dayb :=
  { Dayb.reset with
    head := d.head, drain := d.drain
    ring := d.reserved.foldl (fun m e => ins m (e.seq % 16384) (gapSlot e)) d.ring }

/-- What UNLOCK_ARMED brings at a module reset (R336): the LOCKDOWN record and the tamper record are cleared, logged
with HARDWARE origin. -/
def unlockAtReset (s : State) : State :=
  if !s.guard.unlockArmed then s
  else
    let cause := rd s (reg pBKP 0x090)
    let n := (rd s (reg pBKP 0x09C))
    let cal := rd64 s (reg pBKP 0x094)
    let s := { s with guard := { s.guard with unlockArmed := false, lockdownRec := false } }
    let s := wr (wr64 (wr s (reg pBKP 0x090) 0) (reg pBKP 0x094) 0) (reg pBKP 0x09C) 0
    let s := wrB s (reg pBKP 0x080) 3 false
    let s := logHw s pBKP 0 (reg pBKP 0x090) (BitVec.ofNat 64 cause.toNat) 0
    let s := logHw s pBKP 0 (reg pBKP 0x094) (BitVec.ofNat 64 cal) 0
    logHw s pBKP 0 (reg pBKP 0x09C) (BitVec.ofNat 64 n.toNat) 0

/-- Uncommitted stages discarded at a start: LOCK.EVT.STAGE_DISCARDED, each logged as kind 2 of HARDWARE origin
(R282). -/
def stagesAtReset (s : State) : State :=
  s.vault.slots.foldl (fun t e =>
    if e.2.stage.isNone then t
    else
      let t := ev (setSlot t e.1 { e.2 with stage := none }) pLOCK 2
      logHw t pLOCK 2 (reg pLOCK (0x100 + 4 * e.1)) 0 0) s

/-- The guard after a module reset: what OTP, MRAM and the boot configuration hold stands. -/
def Guard.restart (g : Guard) (pgood dead : Bool) : Guard :=
  { Guard.reset with
    dead := dead, lockdownRec := g.lockdownRec, unlockArmed := g.unlockArmed, bootBad := g.bootBad
    bootMode := g.bootMode, arb := g.arb, scmdCtr := g.scmdCtr, attCtr := g.attCtr, lifecycle := g.lifecycle
    fD := g.fD, fM := g.fM, fE := g.fE, pgood := pgood, step := if pgood then 2 else 1 }

/-- The vault blocks after a module reset: battery-backed cells, calendar and OTP stand (R277, R286). -/
def Vault.restart (v : Vault) (lifecycle : Nat) : Vault :=
  { v with ready := false, scramble := [], data := [], waiting := [], shadows := [], rootOf := lifecycle }

/-- A module reset with the internal supplies valid or not. A full image that recovery wrote starts and ends DEAD
(R342, R345); a module that comes up DEAD starts its tracker at once (R44). -/
def moduleReset (s : State) (pgood : Bool) : State :=
  let img := s.upd.next.getD s.upd.image
  let dead := s.guard.dead && s.upd.next.isNone
  let t := { State.reset with
    guard := s.guard.restart pgood dead
    regs := s.regs.filter fun e => backupPage (pageOf e.1)
    dayb := s.dayb.restart
    vault := { s.vault.restart s.guard.lifecycle with tickAt := 0, tickBase := (calTick s : Int) }
    wgh := { Wgh.reset with slots := s.wgh.slots, intent := s.wgh.intent }
    sgn := { Sgn.reset with recs := s.sgn.recs, safeId := s.sgn.safeId }
    scrv := { Scrv.reset with slots := s.scrv.slots }
    upd := { Upd.reset with image := img }
    pins := { Pins.reset with gpioIn := s.pins.gpioIn, svc := s.pins.svc }
    replies := s.replies, free := s.free, pending := s.pending }
  let t := evIf (!s.dayb.reserved.isEmpty) t pDAYB 4
  let t := if dead then trackerStart (wrF t (reg pUPD 0x088) 0 3 5) else t
  let t := wrF t (reg pLOCK 0x084) 0 2 s.guard.lifecycle
  stagesAtReset (unlockAtReset t)

/-- A reset need not wait: no power failure is on, every reserved Daybook slot has been written, or 2 ms have passed since the
trigger (R379). -/
def resetFree (s : State) : Bool :=
  s.pins.pfwAt.all fun t => s.dayb.reserved.isEmpty || decide (t + msFabric 2 ≤ s.clk.fabric)

/-- RESET_N low (R377): at once, or deferred after a power-fail trigger while Daybook slots are still to be written
(R379). -/
def resetLowOp (s : State) : State :=
  if resetFree s then moduleReset s s.guard.pgood else { s with pins := { s.pins with resetWait := true } }

/-- A deferred reset takes effect: every reserved slot has been written, or 2 ms have passed (R379). -/
def resetDeferredOp (s : State) : State := if s.pins.resetWait && resetFree s then moduleReset s s.guard.pgood else s

/-- VHOLD exhausted (R378): PGOOD and RSTOUT_N fall, the module is reset. -/
def vholdOp (s : State) : State := if s.pins.pfwAt.isSome then moduleReset s false else s

end Sys2Proof.Machine
end

