-- ==== Sys2Proof/Machine/Access.lean ====
section
/-!
DEFINITION. What a read of a register returns and what it does (R3, R6, R7, R36, R295, R334, R351): registers that show
the state of a block read from that state, all others from the register file.
-/

namespace Sys2Proof.Machine

/-- The level at the pin GPIOn, n = 1–8 (R386, R108): a general output is high only in a pulse, GPIO8 shows forces while
FORCE_IND is 1, any other pin has the level driven from outside. -/
def gpioLevel (s : State) (n : Nat) : Bool :=
  if n = 8 ∧ rdB s (reg pPROT 0x0A0) 0 then decide (0 < rdF s (reg pFORCE 0x080) 0 9)
  else if rdB s (reg pPROT 0x0A4) (n - 1) then s.pins.gpioPulse.getLsbD (n - 1)
  else s.pins.gpioIn.getLsbD (n - 1)

/-- A GPIO is a general output (R386). -/
def gpioOutput (s : State) (n : Nat) : Bool :=
  rdB s (reg pPROT 0x0A4) (n - 1) && !(n == 8 && rdB s (reg pPROT 0x0A0) 0)

/-- DAYB.STAT: FREE, what R203 refuses now, FULL and POWERFAIL. -/
def daybStat (s : State) : Word :=
  let f := dayFreeFor s
  w32 (dayFree s + b2n (!dayAdmits s .bulk f) * 2 ^ 16 + b2n (!dayAdmits s .tenant f) * 2 ^ 17 +
    b2n (!dayAdmits s .operator f) * 2 ^ 18 + b2n (decide (dayFree s = 0)) * 2 ^ 19 + b2n s.dayb.powerFail * 2 ^ 20)

/-- The state of a bank as PGMX.STAT shows it. -/
def bankCode : BankSt → Nat
  | .empty => 0
  | .loading => 1
  | .verifying => 2
  | .verified => 3
  | .rejected => 4
  | .active => 5

/-- PGMX.STAT. -/
def pgmxStat (s : State) : Word :=
  let w := rd s (reg pPGMX 0x088)
  w32 (fld w 0 1 + bankCode s.loom.bankA.st * 2 + bankCode s.loom.bankB.st * 16 + b2n s.loom.swPending * 128 +
    fld w 8 12 * 256)

/-- PROGRAM_ID of a bank's image, 0 when it is EMPTY. -/
def bankId (b : Bank) : Word :=
  if b.st = .empty ∨ b.st = .loading then 0
  else
    match b.prog with
    | some p => w32 p.id
    | none => w32 (leAt b.image 8 4)

/-- SCANDBG.STAT. -/
def scandbgStat (s : State) : Word :=
  let w := rd s (reg pSCANDBG 0x084)
  w32 ((if s.loom.paused then s.loom.pauseSeg else 0) + b2n s.loom.paused * 2 ^ 16 + fld w 17 2 * 2 ^ 17 +
    fld w 24 3 * 2 ^ 24)

/-- The input slot that SCANDBG.INSEL names, with what the last committed scan used, latched and predicted. -/
def shownSlot (s : State) : Option (InSlot × Scan) :=
  match activeProg s, s.loom.shown with
  | some p, some c =>
    match p.ins.drop (rdF s (reg pSCANDBG 0x0B0) 0 16) with
    | i :: _ => some (i, c)
    | [] => none
  | _, _ => none

/-- A slot of an image by its point; a slot without an entry reads 0. -/
def slotVal (m : List (Nat × Slot)) (p : Nat) : Word := match get? m p with | some x => x.val | none => 0

/-- SCANDBG.IN_FLAGS. -/
def inFlags (s : State) : Word :=
  match shownSlot s with
  | none => 0
  | some (i, c) =>
    let mis := c.mism.contains i.point
    let pre := (get? c.pred i.point).isSome
    let tol := pre && !mis && slotVal c.image i.point != slotVal c.truth i.point
    w32 (i.policy % 4 + b2n mis * 4 + b2n tol * 8 + b2n pre * 16)

/-- SCANDBG.IN_USED, IN_TRUE and IN_PRED by word: the 32-bit value in the low word; of the high word the spec states
nothing (log 4). -/
def inWord (s : State) (off : Nat) : Word :=
  match shownSlot s with
  | none => 0
  | some (i, c) =>
    if off = 0x0B8 then slotVal c.image i.point
    else if off = 0x0C0 then slotVal c.truth i.point
    else if off = 0x0C8 then slotVal c.pred i.point
    else Config.freeWord s.free

/-- The header registers of a page that show state. -/
def headerView (s : State) (p off : Nat) : Word :=
  if off = 0x00C then
    w32 (b2n (enabled s p && !fenced s p && !retiredPg s p) + b2n (fenced s p) * 2 + b2n (retiredPg s p) * 4)
  else if off = 0x010 ∨ off = 0x014 ∨ off = 0x018 then irqPend s p
  else if off = 0x020 ∨ off = 0x024 then rd s (reg p 0x01C)
  else rd s (reg p off)

/-- 32 sources of INTC from source 32·k on, as a word. -/
def sourceWord (f : Nat → Bool) (k : Nat) : Word :=
  w32 (((List.range 32).map fun j => b2n (f (32 * k + j)) * 2 ^ j).sum)

/-- INTC's registers. -/
def intcView (s : State) (off : Nat) : Word :=
  if 0x080 ≤ off ∧ off < 0x0E0 then sourceWord (srcPending s) ((off - 0x080) / 4 % 8)
  else if 0x0E0 ≤ off ∧ off < 0x140 then rd s (reg pINTC (0x0E0 + (off - 0x0E0) % 32))
  else if off = 0x160 then topSource s 0
  else if off = 0x164 then topSource s 1
  else rd s (reg pINTC off)

/-- Locksmith's registers. -/
def lockView (s : State) (off : Nat) : Word :=
  let k := slot s (lockSel s)
  if off = 0x084 then
    let w := rd s (reg pLOCK off)
    w32 (fld w 0 2 + b2n s.vault.ready * 4 + b2n (!s.vault.waiting.isEmpty) * 8 + fld w 4 3 * 16)
  else if off = 0x094 then w32 (k.kind + k.tenant * 2 ^ 8 + k.rights * 2 ^ 16 + lockDst s * 2 ^ 24)
  else if off = 0x098 then w32 (k.gen % 2 ^ 16 + b2n k.stage.isSome * 2 ^ 16)
  else if off = 0x0A0 then lo32 s.guard.attCtr
  else if off = 0x0A4 then hi32 s.guard.attCtr
  else if 0x0C0 ≤ off ∧ off < 0x0E0 then 0
  else if 0x100 ≤ off ∧ off < 0x200 then
    let e := slot s ((off - 0x100) / 4)
    w32 (e.kind + e.tenant * 2 ^ 8 + e.gen % 2 ^ 16 * 2 ^ 16)
  else rd s (reg pLOCK off)

/-- PTS.DEF_CFG of a record. -/
def defCfgOf (p : Point) : Word := w32 (p.tenant + p.cls * 2 ^ 8 + b2n p.priv * 2 ^ 10 + tyCode p.ty * 2 ^ 12)

/-- The record that an initiator has selected (R199). -/
def selRecord (s : State) (w : Who) : Nat := look 0 s.defSel (whoIdx w)

/-- A record as the DEF registers show it to an initiator: a point that is not visible is one that does not exist (R196). -/
def shownPoint (s : State) (w : Who) (n : Nat) : Point :=
  let p := point s n
  if visible s w p then p else { Point.absent with retired := p.retired }

/-- The point store's registers: the DEF registers show the reader's own record. -/
def ptsView (s : State) (w : Who) (off : Nat) : Word :=
  let p := shownPoint s w (selRecord s w)
  if off = 0x080 then w32 (s.pts.filter fun e => e.2.present).length
  else if off = 0x088 then w32 (selRecord s w)
  else if off = 0x08C then defCfgOf p
  else if off = 0x090 then p.eu
  else if off = 0x094 then p.relq
  else rd s (reg pPTS off)

/-- An Ethernet port's STAT. -/
def ethStat (s : State) (n : Nat) : Word :=
  let p := ethPort s n
  w32 (b2n p.link + b2n p.paused.isSome * 2 + b2n p.holdoff * 4 + b2n p.rxPausing * 8 +
    b2n (corMode s (ethPg n)) * 16 + rxOcc p / 1024 % 512 * 2 ^ 16)

/-- The OPX engine's registers. -/
def opxView (s : State) (off : Nat) : Word :=
  let n := rdF s (reg pOPX 0x098) 0 11
  let x := session s n
  if off = 0x084 then w32 ((openSlots s).length + rdF s (reg pOPX 0x084) 12 1 * 2 ^ 12)
  else if off = 0x09C then sessInfo s n
  else if off = 0x0A0 then w32 ((if x.open_ then x.rights % 256 else 0) + x.gen % 2 ^ 21 * 2 ^ 11)
  else rd s (reg pOPX off)

/-- A bus's registers. -/
def mbView (s : State) (n off : Nat) : Word :=
  if off = 0x088 then busStat s n
  else if 0x120 ≤ off ∧ off < 0x170 then queueWord s n 0 ((off - 0x120) / 4)
  else if 0x170 ≤ off ∧ off < 0x1C0 then queueWord s n 1 ((off - 0x170) / 4)
  else rd s (reg (mbPg n) off)

/-- The records in Scrivener's permanent area. -/
def permFill (s : State) : Nat := (s.scrv.slots.filter fun e => decide (e.1 < 2048)).length

/-- The permanent area takes no further record: no slot in service is empty. -/
def permFull (s : State) : Bool := decide (2048 ≤ permFill s + (s.scrv.bad.filter fun b => decide (b < 2048)).length)

/-- Scrivener's registers; TCFG and LIST show the trigger in TSEL. -/
def scrvView (s : State) (off : Nat) : Word :=
  let t := rdF s (reg pSCRV 0x0A0) 0 6
  if off = 0x088 then
    w32 (b2n s.scrv.frozen + s.scrv.hold.length % 64 * 2 + b2n (permFull s) * 128 + permFill s % 4096 * 2 ^ 16)
  else if off = 0x0A4 then tcfg s t
  else if 0x100 ≤ off ∧ off < 0x160 then trigList s t ((off - 0x100) / 4)
  else rd s (reg pSCRV off)

/-- The host port's registers: STAT reads 0 before start-up step 4 has completed (R348). -/
def hostpView (s : State) (off : Nat) : Word :=
  if off = 0x084 then
    let w := rd s (reg pHOSTP 0x084)
    if bit w 0 then
      w32 (fld w 0 7 + b2n (decide (64 ≤ (s.toll.waiting.filter fun r => r.who == .host).length)) * 128)
    else 0
  else rd s (reg pHOSTP off)

/-- The block registers of a page, as initiator `w` reads them. -/
def blockView (s : State) (w : Who) (p off : Nat) : Word :=
  let raw := rd s (reg p off)
  if p = pMOD then
    if off = 0x080 then w32 s.guard.mode.toNat
    else if off = 0x084 then modStat s
    else if off = 0x08C then w32 s.guard.bootMode.toNat
    else if off = 0x0A4 then lo32 s.guard.scmdCtr
    else if off = 0x0A8 then hi32 s.guard.scmdCtr
    else raw
  else if p = pPROT then
    if off = 0x080 then w32 (b2n s.guard.protLock)
    else if off = 0x0A8 then w32 (((List.range 8).map fun j => b2n (gpioLevel s (j + 1)) * 2 ^ j).sum)
    else raw
  else if p = pINTC then intcView s off
  else if p = pFLTM then (if off = 0x084 then fltmStat s else raw)
  else if p = pLAC then
    if off = 0x084 then lacStat s
    else if off = 0x08C then lo32 (count s)
    else if off = 0x090 then hi32 (count s)
    else if off = 0x094 then lacFreq s
    else if off = 0x098 then lacPherr s
    else raw
  else if p = pSCAN then
    if off = 0x090 then scanStat s
    else if off = 0x0A0 then lo32 s.loom.holdOff
    else if off = 0x0A4 then hi32 s.loom.holdOff
    else raw
  else if p = pSCANDBG then
    if off = 0x084 then scandbgStat s
    else if off = 0x0B4 then inFlags s
    else if 0x0B8 ≤ off ∧ off ≤ 0x0CC then inWord s off
    else raw
  else if p = pPGMX then
    if off = 0x088 then pgmxStat s
    else if off = 0x0A4 then bankId s.loom.bankA
    else if off = 0x0A8 then bankId s.loom.bankB
    else raw
  else if p = pLOOP then
    if off = 0x080 then loopStat s
    else if 0x0A0 ≤ off ∧ off < 0x0C0 then w32 (slotLoad s ((off - 0x0A0) / 4))
    else if 0x0C0 ≤ off ∧ off < 0x0E0 then flagSum s ((off - 0x0C0) / 4)
    else raw
  else if p = pWGH then
    if off = 0x080 then w32 (b2n (wghRuns s) + fld raw 1 3 * 2) else raw
  else if p = 0x2C then
    if 0x100 ≤ off ∧ off < 0xA00 ∧ off % 0x80 = 4 then
      w32 (b2n (cirActive s ((off - 0x104) / 0x80)) + fld raw 1 1 * 2)
    else raw
  else if p = pFACT then
    if off = 0x084 then factStat s
    else if 0x100 ≤ off ∧ off < 0x140 then handleWord s ((off - 0x100) / 4)
    else raw
  else if p = pFACTQ then
    if off = 0x0A4 then qstat s 0 else if off = 0x0E4 then qstat s 1 else raw
  else if p = pPTS then ptsView s w off
  else if p = pTEN then
    let t := rdF s (reg pTEN 0x084) 0 8
    if off = 0x088 then w32 (sessOpen s t)
    else if off = 0x08C then rd s (reg pTENQ (4 * t))
    else raw
  else if p = pDAYB then
    if off = 0x080 then daybStat s
    else if off = 0x08C then lo32 s.dayb.head
    else if off = 0x090 then hi32 s.dayb.head
    else if off = 0x094 then lo32 s.dayb.drain
    else if off = 0x098 then hi32 s.dayb.drain
    else raw
  else if pETH ≤ p ∧ p ≤ 0x51 then (if off = 0x084 then ethStat s (p - pETH) else raw)
  else if p = pOPX then opxView s off
  else if pMB ≤ p ∧ p ≤ 0x67 then mbView s (p - pMB) off
  else if p = pFIO then
    if 0x1A0 ≤ off ∧ off < 0x1E0 then diFreq s ((off - 0x1A0) / 4 + 1) else raw
  else if p = pSGN then (if off = 0x0C0 then s.sgn.safeId else raw)
  else if p = pSGNRG then (if off = 0x080 then rgActive s else raw)
  else if p = pLOCK then lockView s off
  else if p = pWTCH then
    if off = 0x088 then w32 (fld raw 0 10 + b2n (rdB s (reg pWTCH 0x080) 31) * 2 ^ 31) else raw
  else if p = pCAL then
    if off ≤ 0x09C then calRead s w ((off - 0x080) / 4) else raw
  else if p = pSCRV then scrvView s off
  else if p = pUPD then (if off = 0x0A8 then w32 s.guard.arb else raw)
  else if p = pHOSTP then hostpView s off
  else raw

/-- The register value at an address as initiator `w` reads it, latches apart (R3, R6): a fused-off page shows PG_ID and
zeros, a reserved offset 0; the page of a retired block reads as it did at its retirement (R307). -/
def view (s : State) (w : Who) (a : Nat) : Word :=
  let p := pageOf a
  if isLoopbank p then rd s a
  else if (pageType p).isNone then 0
  else if fusedOff s p then (if offOf a = 0 then pgId p else 0)
  else if (rowOf a).isNone then 0
  else if retiredPg s p then look 0 s.fltm.frozen a
  else if offOf a < 0x080 then headerView s p (offOf a)
  else blockView s w p (offOf a)

/-- The low registers of the pairs that are read as under R36. -/
def latchLow (a : Nat) : Bool :=
  let p := pageOf a
  let off := offOf a
  (p == pLAC && off == 0x08C) || (p == pSCAN && (off == 0x098 || off == 0x0A0)) || (p == pPGMX && off == 0x0AC) ||
    (p == pWGH && off == 0x090) || (p == pDAYB && (off == 0x08C || off == 0x094)) || (p == pLOCK && off == 0x0A0) ||
    (p == pMOD && off == 0x0A4) || (p == pUPD && off == 0x0AC) ||
    (decide (pETH ≤ p ∧ p ≤ 0x51) && (off == 0x200 || off == 0x208 || off == 0x268))

/-- The key of a latch or staged word of an initiator (R36, R351). -/
def initKey (w : Who) (a : Nat) : Nat := whoIdx w * 2 ^ 20 + a

/-- An address is the high register of a pair read as under R36. -/
def latchHigh (a : Nat) : Bool := decide (4 ≤ a) && latchLow (a - 4)

/-- The value a read by an initiator returns: the latched high half where one is pending (R36). -/
def readVal (s : State) (w : Who) (a : Nat) : Word :=
  if latchHigh a then
    match get? s.latch (initKey w a) with
    | some v => v
    | none => view s w a
  else view s w a

/-- A counter that a read clears in clear-on-read mode: not the high half of a 64-bit one (R222, R334). -/
def clearsOnRead (s : State) (a : Nat) : Bool :=
  ((isStat a && corMode s (pageOf a)) || (match rowOf a with | some r => r.rc | none => false)) && !latchHigh a

/-- What a read by an initiator does: the latch of R36 taken or used up, the counter cleared (R7, R222, R334), the
calendar shadows frozen or released (R295), a free value taken (log 4). -/
def readDo (s : State) (w : Who) (a : Nat) (wide : Bool) : State :=
  let s' :=
    if latchLow a then (if wide then s else { s with latch := ins s.latch (initKey w a) (view s w (a + 4)) })
    else if latchHigh a then { s with latch := del s.latch (initKey w a) }
    else s
  let s' :=
    if a = reg pTEN 0x08C then
      (if corMode s pTEN then wr s' (reg pTENQ (4 * rdF s (reg pTEN 0x084) 0 8)) 0 else s')
    else if clearsOnRead s a then
      let t := wr s' a 0
      if latchLow a then wr t (a + 4) 0 else t
    else s'
  if a = reg pCAL 0x080 then calFreeze s' w
  else if a = reg pCAL 0x098 then calRelease s' w
  else if a = reg pSCANDBG 0x0BC ∨ a = reg pSCANDBG 0x0C4 ∨ a = reg pSCANDBG 0x0CC then
    { s' with free := s'.free + 1 }
  else s'

/-- The effect of a read as the page has it: none on a page that is fused off or has no block. -/
def readEffect (s : State) (w : Who) (a : Nat) (wide : Bool) : State :=
  if fusedOff s (pageOf a) ∨ (rowOf a).isNone then s else readDo s w a wide

/-! ### The pages of retired blocks -/

/-- The registers of a page as they read at this moment. -/
def freezePage (s : State) (p : Nat) : State :=
  let l := ((List.range 1024).map fun k => reg p (4 * k)).filter fun a => (rowOf a).isSome
  { s with fltm := { s.fltm with
    frozen := l.foldl (fun m a =>
      put 0 m a (if offOf a < 0x080 then headerView s p (offOf a) else blockView s (.hw (Fin.ofNat 128 p)) p (offOf a)))
      s.fltm.frozen } }

/-- The pages of the blocks that were retired on the way from one state to the next read from now on as they do at this moment
(R307). -/
def freezeRetired (s t : State) : State :=
  ((List.range 128).filter fun p => retiredPg t p && !retiredPg s p).foldl freezePage t

end Sys2Proof.Machine
end

