-- ==== Sys2Proof/Machine/Recorder.lean ====
section
/-!
DEFINITION. Scrivener's captures, its hold buffer and the recorder area of MRAM (R317–R321).
-/

namespace Sys2Proof.Machine

/-- A register as the capture path reads it: without side effect, 0 on a fused-off page, and 0 with `true` where no block
stands (R317). -/
def captureWord (s : State) (a : Nat) : Word × Bool :=
  if (pageType (pageOf a)).isNone then (0, true)
  else if fusedOff s (pageOf a) then (0, false)
  else (view s (.hw (Fin.ofNat 128 pSCRV)) a, false)

/-- The words of a trigger's list as they stand. -/
def captureWords (s : State) (t : Nat) : List (Word × Bool) :=
  (List.range (min 24 (fld (tcfg s t) 0 5))).map fun k => captureWord s (trigList s t k).toNat

/-- The record of a firing (R318); its PERMANENT flag is set when it is written. -/
def captureRec (s : State) (f : Firing) : ScrvRec :=
  let ws := captureWords s f.trig
  { seq := (rd s (reg pSCRV 0x090)).toNat, trig := f.trig
    flags := b2n f.late * 2 + b2n s.scrv.frozen * 4 + b2n (ws.any Prod.snd) * 8 + b2n (decide (0 < s.scrv.lost)) * 16
    count := ws.length, cls := f.cls, cal := calStamp s, pos := f.pos, delay := min 65535 (s.clk.fabric - f.at_)
    lost := min 65535 s.scrv.lost, words := ws.map Prod.fst }

/-- CAPTURE: the oldest firing recorded into the hold buffer, or lost at a full one (R317, R320). The path reads one register
on each fabric cycle, and the next capture starts when it is free. -/
def captureOp (s : State) : State :=
  match s.scrv.queue with
  | [] => s
  | f :: rest =>
    if s.scrv.off ∨ !runs s pSCRV ∨ s.clk.fabric < s.scrv.pathAt then s
    else
      let t := { s with scrv := { s.scrv with queue := rest } }
      if 32 ≤ s.scrv.hold.length then scrvLose t
      else tally { t with scrv := { t.scrv with
        hold := s.scrv.hold ++ [captureRec s f], lost := 0
        pathAt := s.clk.fabric + (captureRec s f).count } } (reg pSCRV 0x090)

/-- The first empty slot in service of the permanent area. -/
def permSlot (s : State) : Option Nat :=
  if permFull s then none
  else (List.range 2048).find? fun k => (get? s.scrv.slots k).isNone && !s.scrv.bad.contains k

/-- The slot after one of the circular area. -/
def circNext (k : Nat) : Nat := if 8191 ≤ k then 2048 else k + 1

/-- The first circular slot in service from `k` on (R321). -/
def circSlot (bad : List Nat) (k : Nat) : Nat → Nat
  | 0 => k
  | n + 1 => if bad.contains k then circSlot bad (circNext k) n else k

/-- The first held record written to MRAM (R319). -/
def recordPut (s : State) : State :=
  match s.scrv.hold with
  | [] => s
  | r :: rest =>
    let s := { s with scrv := { s.scrv with hold := rest } }
    match permSlot s with
    | some k =>
      let t := { s with scrv := { s.scrv with slots := ins s.scrv.slots k { r with flags := r.flags + 1 } } }
      evIf (permFull t) (ev t pSCRV 0) pSCRV 3
    | none =>
      let k := circSlot s.scrv.bad (rdF s (reg pSCRV 0x094) 0 13) s.scrv.bad.length
      wr (ev { s with scrv := { s.scrv with slots := ins s.scrv.slots k r } } pSCRV 0) (reg pSCRV 0x094)
        (w32 (circSlot s.scrv.bad (circNext k) s.scrv.bad.length))

/-- RECORD_WRITE: not while frozen, nor from a power-fail trigger on (R320, R321). -/
def recordOp (s : State) : State := if s.scrv.frozen ∨ s.scrv.off ∨ !runs s pSCRV then s else recordPut s

/-- Held records written in SEQ order. -/
def recordAll (s : State) : Nat → State
  | 0 => s
  | n + 1 => recordAll (recordPut s) n

/-- FREEZE (R320). -/
def scrvFreeze (s : State) : State :=
  if s.scrv.frozen then s else { s with scrv := { s.scrv with frozen := true, frozenAt := s.clk.fabric } }

/-- UNFREEZE (R320): the held records are written. -/
def scrvUnfreeze (s : State) : State :=
  if s.scrv.frozen then recordAll { s with scrv := { s.scrv with frozen := false } } s.scrv.hold.length else s

/-- The freeze has lasted FREEZE_TO seconds; 0 acts as 1 (R320). -/
def freezeOver (s : State) : Bool :=
  s.scrv.frozen && decide (s.scrv.frozenAt + max 1 (rdF s (reg pSCRV 0x080) 0 8) * Config.fabricHz ≤ s.clk.fabric)

/-- FREEZE_TIMEOUT (R320). -/
def freezeLimit (s : State) : State := if freezeOver s then ev (scrvUnfreeze s) pSCRV 2 else s

/-- CLEAR_PERM (R319). -/
def scrvClearPerm (s : State) : State :=
  { s with scrv := { s.scrv with slots := s.scrv.slots.filter fun e => decide (2048 ≤ e.1) } }

/-- SCRV.CMD. -/
def scrvCmd (s : State) (c : Cls) (cmd : Nat) : State :=
  if cmd = 1 then scrvFreeze s
  else if cmd = 2 then scrvUnfreeze s
  else if cmd = 3 then scrvFire s (rdF s (reg pSCRV 0x0A0) 0 6) c (count s) false
  else if cmd = 4 then scrvClearPerm s
  else s

/-- The bytes of a record (R318), with its CRC-32. -/
def scrvBytes (r : ScrvRec) : List Byte :=
  let head := leBytes 4 r.seq ++ leBytes 1 r.trig ++ leBytes 1 r.flags ++ leBytes 1 r.count ++ leBytes 1 (clsN r.cls) ++
    leBytes 8 r.cal.toNat ++ leBytes 8 r.pos ++ leBytes 2 r.delay ++ leBytes 2 r.lost
  let body := slice (r.words.flatMap fun w => leBytes 4 w.toNat) 0 96
  head ++ leBytes 4 (Crypto.crc32 (head ++ body)).toNat ++ body

end Sys2Proof.Machine
end

