-- ==== Sys2Proof/Machine/WriteRules.lean ====
section
/-!
DEFINITION. Which register writes are refused at the visibility and rights stages, and which are logged and how: the
access rules of R4, R6, R207, R313, R324, R331, R332, R340, R345, R356 and R357, and the rules of each page.
-/

namespace Sys2Proof.Machine

/-! ### Rights of R230 -/

def rREAD : Nat := 0
def rWRITE : Nat := 1
def rEVENT : Nat := 2
def rREG : Nat := 3
def rFORCE : Nat := 4
def rSOLVE : Nat := 5
def rSAFETY : Nat := 6
def rUPDATE : Nat := 7
def rKEY : Nat := 8

/-- Pages that only initiators bound to tenant 0 see: PTS, TEN, DAYB, LOCK, WTCH, OPX (R207, R299, the OPX page map). -/
def tenantZeroPage (p : Nat) : Bool :=
  p == pPTS || p == pTEN || p == pDAYB || p == pLOCK || p == pWTCH || p == pOPX

/-- A page that does not exist for an initiator (R207, R357). -/
def pageAbsent (s : State) (w : Who) (p : Nat) : Bool :=
  (pageType p).isNone || (tenantZeroPage p && tenantOf s w != 0)

/-- A staged or committed word: what the initiator has staged, else the current one (R351). -/
def stagedOr (s : State) (w : Who) (a : Nat) (cur : Word) : Word := (get? s.staged (initKey w a)).getD cur

/-! ### Kinds of registers -/

/-- The loop number and record offset of a LOOPBANK address. -/
def loopOf (a : Nat) : Nat × Nat := ((pageOf a - 0x19) * 32 + offOf a / 128, offOf a % 128)

/-- The entry number and word of an angle event table address, if it is one. -/
def aetOf (a : Nat) : Option (Nat × Nat) :=
  let p := pageOf a
  if (p = 0x09 ∨ p = 0x0A) ∧ 0x800 ≤ offOf a then
    some ((p - 0x09) * 256 + (offOf a - 0x800) / 8, offOf a / 4 % 2)
  else none

/-- The entry number and word of a force table address, if it is one. -/
def forceAt (a : Nat) : Option (Nat × Nat) :=
  if pageOf a = pFORCE ∧ 0x800 ≤ offOf a then some ((offOf a - 0x800) / 8, offOf a / 4 % 2) else none

/-- The bus, transmit object and word of a transmit-object address, if it is one. -/
def txobjAt (a : Nat) : Option (Nat × Nat × Nat) :=
  let off := offOf a
  if pMB ≤ pageOf a ∧ pageOf a ≤ 0x67 ∧ 0x600 ≤ off ∧ off < 0xB00 then
    some (pageOf a - pMB, (off - 0x600) / 0x50, (off - 0x600) % 0x50 / 4)
  else none

/-- The region and word of a region record address, if it is one. -/
def regionAt (a : Nat) : Option (Nat × Nat) :=
  if pageOf a = pSGNRG ∧ 0x100 ≤ offOf a ∧ offOf a < 0x500 then
    some ((offOf a - 0x100) / 0x20, (offOf a - 0x100) % 0x20 / 4)
  else none

/-- The channel of a sealed WGHCH register: CFG, SCALE, GAIN_X1, GAIN_X32, DELAY (R156). -/
def sealedReg (a : Nat) : Bool :=
  let p := pageOf a
  let off := offOf a
  (decide (0x29 ≤ p ∧ p ≤ 0x2B) && decide (0x100 ≤ off ∧ off < 0x900) &&
      (off % 0x100 == 0 || off % 0x100 == 4 || off % 0x100 == 0x0C || off % 0x100 == 0x10 || off % 0x100 == 0x14)) ||
    (p == 0x2C && decide (0x100 ≤ off ∧ off < 0xA00) && off % 0x80 == 0) || (p == pWGHEN && off == 0x088)

/-- A write to WGHEN.CMD that clears (R156). -/
def clearCmd (a : Nat) (v : Word) : Bool := a == reg pWGHEN 0x080 && (fld v 0 2 == 2 || fld v 0 2 == 3)

/-- The ring pointers of R200. -/
def ringPointer (a : Nat) : Bool :=
  let p := pageOf a
  let off := offOf a
  (p == pFACTQ && (off == 0x08C || off == 0x0CC || off == 0x09C || off == 0x0DC)) ||
    (decide (pETH ≤ p ∧ p ≤ 0x51) && (off == 0x0CC || off == 0x0E0)) ||
    (decide (pMB ≤ p ∧ p ≤ 0x67) && (off == 0x0E0 || off == 0x0E4 || off == 0x0F4)) ||
    (decide (pSF ≤ p ∧ p ≤ 0x6B) && (off == 0x0A0 || off == 0x0B4))

/-- A register with an RW or WO field: a write to it is a write to that register (R6). -/
def writable (a : Nat) : Bool := match rowOf a with | some r => r.rw != 0 || r.wo != 0 | none => false

/-- A write to an address has no effect whoever makes it (R6): a reserved offset, or a register whose every field is RO. -/
def inert (a : Nat) : Bool :=
  match rowOf a with
  | some r => r.rw == 0 && r.wo == 0 && r.w1c == 0 && r.w1s == 0
  | none => true

/-- A register written by W1C or W1S alone. -/
def w1Only (a : Nat) : Bool :=
  match rowOf a with
  | some r => r.rw == 0 && r.wo == 0 && (r.w1c != 0 || r.w1s != 0)
  | none => false

/-- Writes of a staged set that are staged, not committed (R351). -/
def stagesOnly (a : Nat) : Bool :=
  (match aetOf a with | some (_, w) => w == 0 | none => false) ||
    (match forceAt a with | some (_, w) => w == 0 | none => false) ||
    (match txobjAt a with | some (_, _, w) => w == 0 || decide (4 ≤ w) | none => false) ||
    (match regionAt a with | some (_, w) => decide (w < 6) | none => false) ||
    (pageOf a == pPTS && (offOf a == 0x088 || offOf a == 0x090 || offOf a == 0x094)) || a == reg pDAYB 0x094

/-! ### Refusals -/

/-- UPD.SRC, UPD.LEN, or UPD.CMD = SUBMIT from the service port while DEAD (R345). -/
def recovery (s : State) (w : Who) (a : Nat) (v : Word) : Bool :=
  s.guard.dead && w == .service &&
    (a == reg pUPD 0x090 || a == reg pUPD 0x094 || a == reg pUPD 0x098 || (a == reg pUPD 0x084 && fld v 0 3 == 4))

/-- A write that LOCKDOWN lets pass (R331). -/
def lockdownPass (s : State) (w : Who) (c : Cls) (a : Nat) (v : Word) : Bool :=
  w1Only a || pageOf a == pINTC || ringPointer a ||
    (pageOf a == pMOD && (offOf a == 0x090 || offOf a == 0x094 || offOf a == 0x098 || offOf a == 0x09C)) ||
    (c == .safety && ceiling s w == .safety) || recovery s w a v

/-- What the host and the service port may still write in the module safe state (R313) and in DEAD (R345). -/
def stoppedPass (s : State) (w : Who) (a : Nat) (v : Word) : Bool :=
  if isCore w then true
  else
    (!s.guard.dead || recovery s w a v) &&
      (!s.guard.safe || recovery s w a v || pageOf a == pFLTM ||
        (pageOf a == pSCRV && (offOf a == 0x008 || decide (0x080 ≤ offOf a))))

/-- The writer may issue Locksmith commands (R281): the supervisor, the host and the service port with KEY. -/
def keyHolder (s : State) : Who → Bool
  | .core _ => true
  | .host => hasRight s .host rKEY
  | .service => hasRight s .service rKEY
  | _ => false

/-- A force entry is accepted (R106, R332): its target FORCEABLE, the mode, no clash, and under METER no point that a
measurand feeds. -/
def forceable (s : State) (w0 : Word) : Bool :=
  let idx := fld w0 0 16
  let kind := fld w0 16 2
  if kind = 2 then decide (1 ≤ idx ∧ idx ≤ 16) && rdB s (reg pPROT 0x098) (idx - 1)
  else if kind = 3 then decide (1 ≤ idx ∧ idx ≤ 8) && rdB s (reg pPROT 0x098) (16 + idx - 1)
  else (point s idx).present && (point s idx).forceable

/-- Some measurand of Weighhouse feeds a point (R332). -/
def measFed (p : Nat) : Bool := (List.range 512).any fun m => Config.measPoint m == some p

/-- The checks of R106 and R332 on a force commit. Which of them hold for a removal R106 does not say: one with ENABLE 0 needs
its target FORCEABLE, the right and the mode, and passes over the other entries. DESIGN CHOICE, unsafe (log 56). -/
def forceOk (s : State) (w : Who) (n : Nat) (w0 : Word) : Bool :=
  forceable s w0 && hasRight s w rFORCE && (mCOMM s || mDEBUG s) && !mLOCK s &&
    !(bit w0 31 && forceClash s n w0) && !(mMETER s && decide (fld w0 16 2 < 2) && measFed (fld w0 0 16))

/-- The rectangles of two region requests share a pixel. -/
def rectsMeet (x y w h : Nat) (r : RgnReq) : Bool :=
  decide (x < r.x + r.w) && decide (r.x < x + w) && decide (y < r.y + r.h) && decide (r.y < y + h)

/-- A region CTRL write is refused: SAFETY without a SAFETY ceiling, and with GO a bad rectangle or an IMAGE_ID of 0
(R272), or a non-SAFETY request over a region last completed with SAFETY outside COMMISSION (R327). -/
def regionRefused (s : State) (w : Who) (r : Nat) (v : Word) : Bool :=
  let word (j : Nat) : Word := stagedOr s w (rgA r (4 * j)) (rd s (rgA r (4 * j)))
  let x := fld (word 0) 0 11
  let y := fld (word 0) 16 11
  let wd := fld (word 1) 0 12
  let h := fld (word 1) 16 12
  (bit v 1 && ceiling s w != .safety) ||
    (bit v 2 && (rectBad s x y wd h || word 5 == 0 ||
      (!bit v 1 && !(mCOMM s && !mLOCK s) && s.sgn.done.any fun e => e.2.safety && rectsMeet x y wd h e.2)))

/-- A refusal without an event. -/
def refuseIf (c : Bool) (s : State) : Option State := if c then some s else none

/-- A refusal with an event of a page. -/
def refuseEv (c : Bool) (s : State) (p b : Nat) : Option State := if c then some (ev s p b) else none

/-- Whether a page of its own refuses a register write at the rights stage: the state with the refusal's events. -/
def pageRefusal (s : State) (w : Who) (a : Nat) (v : Word) : Option State :=
  let p := pageOf a
  let off := offOf a
  if inert a then none
  else if off = 0x038 ∧ !isLoopbank p then
    refuseIf (bit v 31 && !isCore w && !((mCOMM s || mDEBUG s) && !mLOCK s)) s
  else if off < 0x080 ∧ !isLoopbank p then none
  else if p = pMOD ∧ off = 0x080 then
    refuseEv (mLOCK s || !(ceiling s w == .operator || ceiling s w == .safety)) s pMOD 5
  else if p = pPROT ∧ off ≠ 0x088 then refuseEv s.guard.protLock s pPROT 0
  else if p = pINTC ∧ off = 0x170 then refuseIf (bit v 0 && !isCore w) s
  else if p = pTOLL ∧ off < 0x094 then refuseEv s.guard.protLock s pTOLL 2
  else if p = 0x09 ∨ p = 0x0A then
    match aetOf a with
    | some (n, k) =>
      let w0 := aetClean (stagedOr s w (aetAddr n 0) (aetW0 s n))
      let act := fld v 0 8
      refuseIf (decide (n < 64) ||
        (k == 1 && (!(act == 1 || act == 2 || act == 3 || act == 0x0C) ||
          decide (fld w0 28 3 < clsN (ceiling s w))))) s
    | none => none
  else if p = pSCAN then
    if off = 0x08C then
      if fld v 0 2 = 1 then refuseEv (s.loom.eng == .stop && !runAllowed s || mLOCK s) s pSCAN 7
      else refuseIf (mLOCK s && fld v 0 2 == 2) s
    else
      let locked := off == 0x084 || off == 0x088 || (off == 0x080 && fld v 0 7 != rdF s a 0 7)
      refuseEv (s.loom.eng != .stop && locked) s pSCAN 3
  else if p = pSCANDBG then
    refuseEv ((!mDEBUG s || mLOCK s) && (off == 0x080 || decide (0x090 ≤ off ∧ off < 0x0B0))) s pSCANDBG 2
  else if p = pPGMX ∧ off = 0x084 then
    refuseEv (mLOCK s && (fld v 0 2 == 1 || fld v 0 2 == 2)) s pPGMX 3
  else if p = pFORCE then
    match forceAt a with
    | some (n, 1) => refuseEv (!forceOk s w n (stagedOr s w (forceAddr n 0) (rd s (forceAddr n 0)))) s pFORCE 0
    | _ => none
  else if isLoopbank p then
    let (n, o) := loopOf a
    match loopRefuse s n o v with
    | some k => some (loopRefused s n k)
    | none => none
  else if sealedReg a ∨ clearCmd a v then refuseIf (mMETER s) s
  else if p = pFACT ∧ (off = 0x090 ∨ off = 0x094) then refuseEv (!privFree s) s pFACT 7
  else if p = pFACTQ then
    let q := if off < 0x0C0 then 0 else 1
    let o := off - 0x40 * q
    if o = 0x08C then
      let ok :=
        if q = 0 then isCore w
        else
          match w with
          | .host => true
          | .service => hasRight s w rSOLVE
          | .opx _ => hasRight s w rSOLVE
          | _ => false
      refuseEv (!ok) s pFACTQ 3
    else if o = 0x080 ∨ o = 0x084 ∨ o = 0x088 ∨ o = 0x094 ∨ o = 0x098 then refuseEv (!queueFree s q) s pFACTQ 4
    else none
  else if p = pPTS ∧ off = 0x08C then
    let pt := point s (selRecord s w)
    refuseEv ((s.guard.protLock && (bit v 10 != pt.priv || (pt.present && !visible s w pt))) || !bit (tenWord s 0 0) 27)
      s pPTS 1
  else if p = pDAYB ∧ (off = 0x094 ∨ off = 0x098) then refuseIf (!isCore w) s
  else if pETH ≤ p ∧ p ≤ 0x51 then
    let on := rdF s (reg p 0x080) 0 2 != 0
    let cfg := (off == 0x080 && (fld v 4 2 != rdF s a 4 2 || fld v 16 14 != rdF s a 16 14)) ||
      decide (0x08C ≤ off ∧ off ≤ 0x0A4)
    if on ∧ cfg then some (ev s p 8) else refuseIf (decide (0x0C0 ≤ off ∧ off < 0x0E8) && !isCore w) s
  else if pMB ≤ p ∧ p ≤ 0x67 then refuseIf (off == 0x084 && fld v 0 3 == 1 && !mECON s) s
  else if p = pFIO ∧ off = 0x09C then
    refuseIf (s.loom.eng != .stop && !(mCOMM s && !mLOCK s) && fld v 0 8 != rdF s a 0 8) s
  else if p = pSGNRG then
    match regionAt a with
    | some (r, 6) => refuseIf (regionRefused s w r v) s
    | _ => none
  else if p = pLOCK ∧ off = 0x090 then
    let cmd := fld v 0 4
    if !keyHolder s w then some s
    else if 1 ≤ cmd ∧ cmd ≤ 8 ∧ (mLOCK s ∨ s.guard.dead ∨ (s.vault.ready ∧ lockCheck s cmd = oRIGHTS)) then
      some (lockEnd s cmd (lockTarget s cmd) oRIGHTS)
    else none
  else if p = pWTCH ∧ (off = 0x080 ∨ off = 0x084) then refuseEv s.guard.protLock s pWTCH 1
  else if p = pBKP ∧ off = 0x088 then refuseIf (fld v 0 3 == 4 && mLOCK s) s
  else if p = pSCRV ∧ off = 0x084 then refuseEv (fld v 0 3 == 4 && !(mCOMM s && !mLOCK s)) s pSCRV 4
  else if p = pUPD ∧ off = 0x084 then
    let cmd := fld v 0 3
    let rec_ := recovery s w a v
    let take := match w with | .opx _ => true | _ => false
    refuseIf (((mLOCK s || s.guard.dead) && cmd != 0 && !rec_) || (cmd == 1 && take) ||
      ((cmd == 2 || cmd == 3 || cmd == 4 || cmd == 5) && !rec_ && !leaseHolder s w) ||
      ((cmd == 6 || cmd == 7) && !isCore w)) s
  else none

/-- Any write to SQ_TAIL that is turned away sets FACTQ.EVT.REFUSED (R187). -/
def doorbellRefused (s : State) (a : Nat) : State :=
  evIf (pageOf a == pFACTQ && (offOf a == 0x08C || offOf a == 0x0CC)) s pFACTQ 3

/-- The rights stage of a register write (R356, R331, R313, R345 and the pages' own rules): `none` when it passes. -/
def writeRefusal (s : State) (w : Who) (c : Cls) (a : Nat) (v : Word) : Option State :=
  if !hasRight s w rREG then some (doorbellRefused s a)
  else if mLOCK s ∧ !lockdownPass s w c a v then
    match pageRefusal s w a v with
    | some t => some t
    | none => some (doorbellRefused s a)
  else if !stoppedPass s w a v then some (doorbellRefused s a)
  else pageRefusal s w a v

/-! ### Logging (R200) -/

/-- Whether an accepted register write is logged: not W1C or W1S, not a staging write, a ring pointer, SNAP or DRAIN_SEQ,
nor one that R6 leaves without effect. -/
def logsWrite (a : Nat) (v : Word) : Bool :=
  writable a && !stagesOnly a && !ringPointer a && !(a == reg pWGHEN 0x080 && fld v 0 2 == 1) && a != reg pDAYB 0x098

/-- Whether a register write refused at the rights stage is logged (R200): writes to RW and WO registers, and to PROT.LOCK
(R340). -/
def logsRefusal (a : Nat) : Bool := writable a || a == reg pPROT 0x080

/-- The Daybook kind and target of a register write (R200). -/
def logKind (s : State) (w : Who) (a : Nat) (v : Word) : Nat × Nat :=
  let p := pageOf a
  let off := offOf a
  if p = pMOD ∧ off = 0x080 then (3, a)
  else if p = pMOD ∧ off = 0x090 then
    let ty := ramNat s (rd64 s (reg pMOD 0x094) + 4) 2
    (if bit v 0 ∧ (ty = 2 ∨ ty = 3) then 3 else 0, a)
  else if p = pLOCK ∧ off = 0x090 ∧ 1 ≤ fld v 0 4 ∧ fld v 0 4 ≤ 8 ∧ fld v 0 4 ≠ 6 then (2, lockTarget s (fld v 0 4))
  else if p = pPGMX ∧ off = 0x084 then (5, targetBank s)
  else if p = pUPD ∧ off = 0x084 ∧ fld v 0 3 ≠ 0 then (6, a)
  else if p = pPTS ∧ off = 0x08C then (7, selRecord s w)
  else
    match forceAt a with
    | some (n, 1) => (4, n)
    | _ => (0, a)

/-- What a set of words holds, as bytes. -/
def wordBytes (ws : List Word) : List Byte := ws.flatMap fun x => leBytes 4 x.toNat

/-- OLD or NEW of a register write as the state stands (R200), with whether it is hashed: key generations, the force
entry, image hashes, the point definition, a staged set, or the register's value. -/
def logValue (s : State) (w : Who) (a : Nat) (v : Word) : DWord × Bool :=
  let (kind, target) := logKind s w a v
  if kind = 2 then (BitVec.ofNat 64 (slot s target).gen, false)
  else if kind = 3 then (BitVec.ofNat 64 s.guard.mode.toNat, false)
  else if kind = 4 then (BitVec.ofNat 64 (cat64 (rd s (forceAddr target 1)) (rd s (forceAddr target 0))), false)
  else if kind = 5 then (bankHash (if fld v 0 2 = 2 then activeBank s else bank s target), true)
  else if kind = 6 then (hash8 s.upd.image, true)
  else if kind = 7 then
    let p := shownPoint s w target
    (hash8 (wordBytes [defCfgOf p, p.eu, p.relq]), true)
  else if clearCmd a v then (hash8 (energyBytes s), true)
  else
    match aetOf a with
    | some (n, _) => (BitVec.ofNat 64 (cat64 (aetW1 s n) (aetW0 s n)), false)
    | none =>
      match txobjAt a with
      | some (b, o, _) => (hash8 (wordBytes ((List.range 20).map fun j => rd s (txObj b o + 4 * j))), true)
      | none =>
        match regionAt a with
        | some (r, _) =>
          if bit v 2 then (hash8 (wordBytes ((List.range 7).map fun j => rd s (rgA r (4 * j)))), true)
          else ((view s w a).zeroExtend 64, false)
        | none => ((view s w a).zeroExtend 64, false)
/-- NEW of a SWITCH is the hash of the image that it brings in, and OLD that of the one that it takes out (R104). -/
def logNew (s after : State) (w : Who) (a : Nat) (v : Word) : DWord × Bool :=
  if a = reg pPGMX 0x084 ∧ fld v 0 2 = 2 then (bankHash (bank s (targetBank s)), true) else logValue after w a v

end Sys2Proof.Machine
end

