-- ==== Sys2Proof/Machine/WriteOps.lean ====
section
/-!
DEFINITION. What an accepted register write does: RW, W1C and W1S bits (R6), fields that act and read as another value,
staged sets (R351), and the commands that a write gives a block.
-/

namespace Sys2Proof.Machine

/-! ### Plain registers -/

/-- A register written: its RW bits take the value, a 1 clears a W1C bit and sets a W1S bit, every other bit stands. -/
def mergeRw (s : State) (a : Nat) (v : Word) : State :=
  match rowOf a with
  | none => s
  | some r =>
    let new := (rd s a &&& ~~~(w32 r.rw)) ||| (v &&& w32 r.rw)
    wr s a ((new &&& ~~~(v &&& w32 r.w1c &&& ~~~(freshBits s a))) ||| (v &&& w32 r.w1s))

/-- A field that reads as `x` where a condition holds. -/
def fix (c : Bool) (lo n x : Nat) (v : Word) : Word := if c then setFld v lo n x else v

/-- SCAN.CTRL as it acts and reads. -/
def cleanScan (v : Word) : Word :=
  fix (decide (8 < fld v 0 4)) 0 4 8 (fix (decide (fld v 4 2 = 3)) 4 2 2 (fix (decide (fld v 12 4 = 0)) 12 4 1 v))

/-- Words of the tenant table as they act and read (the TEN page map). -/
def cleanTen (off : Nat) (v : Word) : Word :=
  if off / 4 % 2 = 0 then
    fix (decide (2048 < fld v 0 12)) 0 12 2048 (fix (decide (fld v 12 8 = 0)) 12 8 1 (fix (off != 0x800) 27 1 0 v))
  else setFld v 24 5 (clampN 1 16 (fld v 24 5))

/-- Ethernet registers as they act and read, with whether that sets EVT.CONFIG_CLAMPED. -/
def cleanEth (off : Nat) (v : Word) : Word × Bool :=
  if off = 0x080 then
    let m := clampN 1518 9600 (fld v 16 14)
    (setFld v 16 14 m, m != fld v 16 14)
  else if off = 0x0A8 then
    let c := fld v 16 8
    (fix (decide (c < 0x40)) 16 8 0x40 v, decide (c < 0x40) || decide (fld v 0 8 ≤ fld v 8 8))
  else if off = 0x0B0 then (fix (decide (38 < fld v 0 6)) 0 6 38 v, decide (38 < fld v 0 6))
  else if off = 0x0C8 ∨ off = 0x0DC then (fix (decide (12 < fld v 0 4)) 0 4 12 v, decide (12 < fld v 0 4))
  else (v, false)

/-- HOSTP.CTRL as it acts and reads, with whether it was above the ceiling (R354). -/
def cleanClass (s : State) (v : Word) : Word × Bool :=
  let c := min 4 (fld v 0 3)
  let top := clsN (ceiling s .host)
  (setFld v 0 3 (max c top), decide (c < top))

/-- A divider of SGN.FRAME lies outside its range (R269). -/
def divBad (s : State) (v : Word) : Bool :=
  [0, 8, 16].any fun lo => decide (fld v lo 7 < divLo s) || decide (divHi s < fld v lo 7)

/-- A written value as it acts and reads, and the event bit of its page that this sets. -/
def cleanWord (s : State) (a : Nat) (v : Word) : Word × Option Nat :=
  let p := pageOf a
  let off := offOf a
  let evd (b : Bool) (k : Nat) : Option Nat := if b then some k else none
  if a = reg pSCAN 0x080 then (cleanScan v, evd (decide (8 < fld v 0 4)) 4)
  else if a = reg pFACT 0x080 then (fix (decide (80 < fld v 8 8)) 8 8 80 v, evd (decide (80 < fld v 8 8)) 6)
  else if a = reg pFACT 0x08C then (fix (decide (fld v 0 16 = 0)) 0 16 1 v, none)
  else if p = pFACTQ ∧ (off = 0x088 ∨ off = 0x0C8) then (fix (decide (8 < fld v 0 4)) 0 4 8 v, none)
  else if p = pTEN ∧ 0x800 ≤ off then (cleanTen off v, none)
  else if a = reg pDAYB 0x088 then (fix (decide (16384 < fld v 0 15)) 0 15 16384 v, none)
  else if pETH ≤ p ∧ p ≤ 0x51 then
    let (x, b) := cleanEth off v
    (x, evd b 7)
  else if pMB ≤ p ∧ p ≤ 0x67 ∧ off = 0x09C then (fix (decide (8 < fld v 16 4)) 16 4 8 v, none)
  else if a = reg pLOCK 0x080 then (fix (decide (fld v 0 2 = 0)) 0 2 1 v, none)
  else if a = reg pHOSTP 0x080 then
    let (x, b) := cleanClass s v
    (x, evd b 3)
  else if a = reg pTOLL 0x094 then
    let z (lo : Nat) : Bool := decide (fld v lo 8 = 0)
    (fix (z 0) 0 8 1 (fix (z 8) 8 8 1 (fix (z 16) 16 8 1 v)), evd (z 0 || z 8 || z 16) 3)
  else if a = reg pTOLL 0x098 then (fix (decide (fld v 0 8 = 0)) 0 8 1 v, evd (decide (fld v 0 8 = 0)) 3)
  else if a = reg pWGHEN 0x088 then (fix (decide (4 < fld v 0 3)) 0 3 2 v, none)
  else if a = reg pSGN 0x088 then (v, evd (divBad s v) 8)
  else (v, none)

/-- A register written with its value as it acts. -/
def writePlain (s : State) (a : Nat) (v : Word) : State :=
  let (x, e) := cleanWord s a v
  let t := mergeRw s a x
  match e with
  | some b => ev t (pageOf a) b
  | none => t

/-- A word staged for its initiator (R351): the bits the register keeps. -/
def stage (s : State) (w : Who) (a : Nat) (v : Word) : State :=
  let m := match rowOf a with | some r => r.rw | none => 0
  { s with staged := ins s.staged (initKey w a) (v &&& w32 m) }

/-- Staged words of an initiator discarded at its commit. -/
def unstage (s : State) (w : Who) (as : List Nat) : State :=
  { s with staged := as.foldl (fun m a => del m (initKey w a)) s.staged }

/-! ### The page header (R359, R360, R315) -/

/-- A write to a header register. -/
def writeHeader (s : State) (p off : Nat) (v : Word) : State :=
  let m := reg p 0x01C
  if off = 0x008 then
    let s := pageEnableSet s p (bit v 0)
    if bit v 1 then softReset s p else s
  else if off = 0x014 then setBits s (reg p 0x010) v
  else if off = 0x018 then
    let s := wr s (reg p 0x010) (rd s (reg p 0x010) &&& ~~~v)
    match evtAddr p with
    | some e => clearBits s e v
    | none => s
  else if off = 0x020 then wr s m (rd s m ||| v)
  else if off = 0x024 then wr s m (rd s m &&& ~~~v)
  else if off = 0x038 then selftestOp s p v
  else mergeRw s (reg p off) v

/-! ### MOD: modes and signed commands (R324, R335) -/

/-- A write to MOD.MODE. -/
def modeEffect (s : State) (w : Who) (v : Word) : State :=
  let (m, held) := modeWritten s (ceiling s w == .safety) (BitVec.ofNat 8 (fld v 0 8))
  evIf held (modeSet s m) pMOD 5

/-- A write to MOD.MODE asks for DISTRICT in a part without feature D: that part of it ends ABSENT (R4, R5). -/
def districtAbsent (s : State) (a : Nat) (v : Word) : Bool := a == reg pMOD 0x080 && bit v 1 && !s.guard.fD

/-- The signed command block in DRAM. -/
def signedBlock (s : State) : List Byte := ramBytes s (rd64 s (reg pMOD 0x094)) (rdF s (reg pMOD 0x09C) 0 13)

/-- The entries of a SEALED_WRITE: address and value. -/
def signedEntries (b : List Byte) : List (Nat × Word) :=
  (List.range (leAt b 6 2)).map fun j => (leAt b (0x20 + 8 * j) 4, w32 (leAt b (0x24 + 8 * j) 4))

/-- An entry of a SEALED_WRITE that the mode refuses even when signed (R330, R333). -/
def sealedHeld (s : State) (e : Nat × Word) : Bool :=
  clearCmd e.1 e.2 && mMETER s && (fld e.2 0 2 == 2 || mCOMM s)

/-- Why a signed command is refused, if it is (R335): 1 format, 2 identity, 3 counter, 4 signature, 5 not allowed, 6 an
entry that is not sealed. -/
def signedCause (s : State) (b : List Byte) : Nat :=
  let ty := leAt b 4 2
  let n := leAt b 6 2
  let es := signedEntries b
  if leAt b 0 4 ≠ 0x4F585343 ∨ ty = 0 ∨ 3 < ty ∨ 64 < n ∨ (ty ≠ 1 ∧ n ≠ 0) ∨ b.length ≠ 96 + 8 * n then 1
  else if slice b 8 16 ≠ leBytes 16 Config.moduleIdentity.toNat then 2
  else if leAt b 0x18 8 ≤ s.guard.scmdCtr then 3
  else if !Crypto.edVerify (rootForce s) (b.take (32 + 8 * n)) (slice b (32 + 8 * n) 64) then 4
  else if (ty = 3 ∧ !(mLOCK s ∧ s.guard.lifecycle = 2)) ∨ (ty ≠ 3 ∧ mLOCK s) ∨ es.any (sealedHeld s) then 5
  else if es.any fun e => !(sealedReg e.1 || clearCmd e.1 e.2) then 6
  else 0

/-- A write to a sealed register or command of Weighhouse (R134, R135, R152, R156). -/
def sealedWrite (s : State) (a : Nat) (v : Word) : State :=
  let p := pageOf a
  let off := offOf a
  if 0x29 ≤ p ∧ p ≤ 0x2B ∧ 0x100 ≤ off then
    let c := (p - 0x29) * 8 + (off - 0x100) / 0x100
    let o := off % 0x100
    if o = 0 then
      let was := bit (rd s a) 0
      let t := cfgSet s a (chCfgClean c (v &&& 0x1F))
      if bit v 0 && !was then chanStart t c else t
    else if o = 4 then
      let (x, b) := scaleClean v
      evIf b (cfgSet s a x) pWGH 7
    else if o = 0x0C ∨ o = 0x10 ∨ o = 0x14 then cfgSet s a v
    else mergeRw s a v
  else if p = 0x2C ∧ off % 0x80 = 0 then cfgSet s a (v &&& 0x7FFFFFFF)
  else if a = reg pWGHEN 0x080 then
    let c := fld v 0 2
    if c = 1 then snapOp s else if c = 2 then clearEnergyOp s else if c = 3 then clearMaxdemOp s else s
  else writePlain s a v

/-- A Daybook entry of a register write that reads `old` before and `new` after. -/
def writeChange (s : State) (i : Init) (kind target : Nat) (old new : DWord) (hashed : Bool) (outcome : Nat) : Change :=
  { origin := origin s i.who, kind, target, old, new, outcome, hashed, cls := i.cls }

/-- An entry of an accepted SEALED_WRITE logged as a change of kind 0 and applied; one that the Daybook does not take is not
made (R201). -/
def sealedEntry (i : Init) (s : State) (e : Nat × Word) : State :=
  let t := sealedWrite s e.1 e.2
  let (old, h) := logValue s i.who e.1 e.2
  let (new, _) := logValue t i.who e.1 e.2
  let (u, ok) := logAdmit s i.who (writeChange s i 0 e.1 old new h oSERVED)
  if ok then sealedWrite u e.1 e.2 else u

/-- MOD.CMD = EXEC_SIGNED. -/
def signedDo (s : State) (i : Init) : State :=
  let b := signedBlock s
  let ty := leAt b 4 2
  let c := signedCause s b
  let fin (t : State) (out : Nat) : State :=
    ev (wr t (reg pMOD 0x0A0) (w32 (out + ty % 16 * 2 ^ 16 + c * 2 ^ 20))) pMOD 3
  if c ≠ 0 then fin s oRIGHTS
  else
    let t := { s with guard := { s.guard with scmdCtr := leAt b 0x18 8 } }
    let t :=
      if ty = 1 then (signedEntries b).foldl (sealedEntry i) t
      else if ty = 2 then modeSet t (t.guard.mode &&& 0xFB)
      else { t with guard := { t.guard with unlockArmed := true } }
    fin t oSERVED

/-- A write to a block register of MOD. -/
def writeMod (s : State) (i : Init) (off : Nat) (v : Word) : State :=
  if off = 0x080 then modeEffect s i.who v
  else if off = 0x08C then { s with guard := { s.guard with bootMode := BitVec.ofNat 8 (fld v 0 8) } }
  else if off = 0x090 then (if bit v 0 then signedDo s i else s)
  else writePlain s (reg pMOD off) v

/-- A write to a block register of PROT (R340, R386). -/
def writeProt (s : State) (off : Nat) (v : Word) : State :=
  if off = 0x080 then (if bit v 0 then lockProt s else s)
  else if off = 0x09C then
    let t := writePlain s (reg pPROT off) v
    let n := fld v 0 16
    if bit v 31 ∧ (point t n).present then setPoint t n { point t n with forceable := bit v 30 } else t
  else writePlain s (reg pPROT off) v

/-- A write to a block register of INTC (R361–R365). -/
def writeIntc (s : State) (off : Nat) (v : Word) : State :=
  let k := off % 0x20
  let setB (b : Nat) : State := wr s (reg pINTC (b + k)) (rd s (reg pINTC (b + k)) ||| v)
  let clrB (b : Nat) : State := wr s (reg pINTC (b + k)) (rd s (reg pINTC (b + k)) &&& ~~~v)
  if 0x0A0 ≤ off ∧ off < 0x0C0 then setBits s (reg pINTC (0x080 + k)) v
  else if 0x0C0 ≤ off ∧ off < 0x0E0 then clearBits s (reg pINTC (0x080 + k)) v
  else if 0x100 ≤ off ∧ off < 0x120 then setB 0x0E0
  else if 0x120 ≤ off ∧ off < 0x140 then clrB 0x0E0
  else if off = 0x170 then (if bit v 0 then sleepOp s else s)
  else writePlain s (reg pINTC off) v

/-- A write to a block register of TOLL (R17, R366). -/
def writeToll (s : State) (off : Nat) (v : Word) : State :=
  if off < 0x094 then
    let (x, low, sum) := budgetClean (v &&& 0xFFFF)
    let t := wr s (reg pTOLL off) x
    let t := if low then wrB t (reg pTOLL 0x09C) 8 true else t
    if sum then wrB t (reg pTOLL 0x09C) 9 true else t
  else writePlain s (reg pTOLL off) v

/-! ### The angle event table, Loom and the loops -/

/-- A write to an angle event table page (R53): word 0 staged, word 1 commits both. -/
def writeAet (s : State) (w : Who) (a : Nat) (v : Word) : State :=
  match aetOf a with
  | none => mergeRw s a v
  | some (n, 0) => stage s w (aetAddr n 0) v
  | some (n, _) =>
    let w0 := aetClean (stagedOr s w (aetAddr n 0) (aetW0 s n))
    aetSet (unstage s w [aetAddr n 0]) n w0 (v &&& 0xFFFFFF)

/-- SCANDBG.CMD (R87). -/
def scandbgCmd (s : State) (cmd : Nat) : State :=
  if cmd = 1 then scanHold s
  else if cmd = 2 then scanResume s
  else if cmd = 3 then scanStepSeg s
  else if cmd = 4 then scanStepScan s
  else s

/-- PGMX.CMD (R110). -/
def pgmxCmd (s : State) (w : Who) (cmd : Nat) : State :=
  if cmd = 1 then pgmxLoadOp s (origin s w)
  else if cmd = 2 then pgmxSwitchOp s (origin s w)
  else if cmd = 3 then pgmxCancelOp s
  else s

/-- A write to a block register of Loom's pages (R60, R81, R87, R110, R111). -/
def writeLoom (s : State) (w : Who) (p off : Nat) (v : Word) : State :=
  if p = pSCAN ∧ off = 0x08C then
    (if fld v 0 2 = 1 then scanRun s else if fld v 0 2 = 2 then scanHalt s else s)
  else if p = pSCANDBG ∧ off = 0x080 then scandbgCmd s (fld v 0 3)
  else if p = pPGMX ∧ off = 0x084 then pgmxCmd s w (fld v 0 2)
  else if p = pFORCE then
    match forceAt (reg p off) with
    | some (n, 0) => stage s w (forceAddr n 0) v
    | some (n, _) =>
      let w0 := stagedOr s w (forceAddr n 0) (rd s (forceAddr n 0))
      forceSettle (forceCommitOp (unstage s w [forceAddr n 0]) n w0 v)
    | none => writePlain s (reg p off) v
  else writePlain s (reg p off) v

/-- A write to a loop record (R117, R124, R127). -/
def writeLoopbank (s : State) (w : Who) (a : Nat) (v : Word) : State :=
  let (n, o) := loopOf a
  if 0x70 ≤ o then mergeRw s a v else if o = 0x24 then loopSp s w n v else loopSet s n o v

/-! ### Factor, points, tenants, Daybook -/

/-- A write to Factor's pages (R186, R187). -/
def writeFact (s : State) (p off : Nat) (v : Word) : State :=
  if p = pFACT ∧ (off = 0x090 ∨ off = 0x094) then privSet s (reg p off) v
  else if p = pFACTQ ∧ (off = 0x08C ∨ off = 0x0CC) then sqTailOp s ((off - 0x08C) / 0x40) v
  else if p = pFACTQ ∧ (off = 0x09C ∨ off = 0x0DC) then
    budgetSettle s (cqHeadOp s ((off - 0x09C) / 0x40) v)
  else writePlain s (reg p off) v

/-- A point definition committed over a record (R199); a RETIRED record stays so. -/
def defineAt (s : State) (n : Nat) (old : Point) (cfg eu relq : Word) : State :=
  let cls := fld cfg 8 2
  let out (p : Point) : State := changePoint s n 18 0 p
  if cls = 0 then out { Point.absent with retired := old.retired }
  else
    let p := { old with
      cls := cls, ty := tyOfCode (fld cfg 12 2), tenant := fld cfg 0 8, priv := bit cfg 10, relq := relq, eu := eu }
    if cls = old.cls then out (if cls = 1 then p else Point.stamp old p.resolve (count s))
    else if cls = 1 then out { p with pa := [], value := 0, level := 0xFF, qual := qSTALE, ts := count s }
    else out { ({ p with pa := [], qual := qGOOD } : Point).resolve with ts := count s }

/-- A write to PTS (R199). -/
def writePts (s : State) (w : Who) (off : Nat) (v : Word) : State :=
  if off = 0x088 then { s with defSel := put 0 s.defSel (whoIdx w) (fld v 0 16) }
  else if off = 0x090 ∨ off = 0x094 then stage s w (reg pPTS off) v
  else if off = 0x08C then
    let n := selRecord s w
    let old := shownPoint s w n
    let eu := stagedOr s w (reg pPTS 0x090) old.eu
    let relq := stagedOr s w (reg pPTS 0x094) old.relq
    defineAt (unstage s w [reg pPTS 0x090, reg pPTS 0x094]) n old v eu relq
  else writePlain s (reg pPTS off) v

/-- A write to DAYB (R202). -/
def writeDayb (s : State) (w : Who) (off : Nat) (v : Word) : State :=
  if off = 0x094 then stage s w (reg pDAYB 0x094) v
  else if off = 0x098 then
    let lo := stagedOr s w (reg pDAYB 0x094) (lo32 s.dayb.drain)
    drainCommit (unstage s w [reg pDAYB 0x094]) (cat64 v lo)
  else writePlain s (reg pDAYB off) v

/-! ### Network, buses, serial ports, field I/O -/

/-- A write to an Ethernet page (R215). -/
def writeEth (s : State) (n off : Nat) (v : Word) : State :=
  if off = 0x0CC then txrTail s n v
  else if off = 0x0E0 then rxrTail s n v
  else writePlain s (reg (ethPg n) off) v

/-- A write to OPX (R231). -/
def writeOpx (s : State) (w : Who) (off : Nat) (v : Word) : State :=
  if off = 0x0A4 then (if bit v 31 then closeBy s (fld v 0 11) w else s)
  else writePlain s (reg pOPX off) v

/-- The staged words of a transmit object that an initiator has written. -/
def stagedObj (s : State) (w : Who) (n o : Nat) : List (Nat × Word) :=
  ((List.range 20).filter fun j => j != 1).filterMap fun j =>
    match get? s.staged (initKey w (txObj n o + 4 * j)) with
    | some x => some (j, x)
    | none => none

/-- A write to a bus page (R241–R252). -/
def writeMb (s : State) (w : Who) (n off : Nat) (v : Word) : State :=
  let a := reg (mbPg n) off
  match txobjAt a with
  | some (_, o, k) =>
    if k = 1 then
      objCommit (unstage s w ((List.range 20).map fun j => txObj n o + 4 * j)) n o (stagedObj s w n o) (fld v 0 4)
    else if k = 2 ∨ k = 3 then s
    else stage s w a v
  | none =>
    if off = 0x080 then mbCtrl s n v
    else if off = 0x084 then mbCmd s n (fld v 0 3)
    else if off = 0x0E0 then mbHead s n 0 v
    else if off = 0x0E4 then mbHead s n 1 v
    else if off = 0x0F4 then mbTail s n v
    else if mbLocked s n off then ev s (mbPg n) 10
    else if off = 0x09C then trefPlace (writePlain s a v) n
    else writePlain s a v

/-- A write to a serial port page (R253). -/
def writeSf (s : State) (n off : Nat) (v : Word) : State :=
  let t := writePlain s (reg (sfPg n) off) v
  if off = 0x080 ∨ off = 0x084 then sfBaud t n else t

/-- A write to FIO (R257–R262). -/
def writeFio (s : State) (off : Nat) (v : Word) : State :=
  if off = 0x1E0 then cntClear s v
  else if off = 0x094 then doCmd s v
  else
    let t := writePlain s (reg pFIO off) v
    if off = 0x098 ∨ off = 0x09C ∨ (0x0E0 ≤ off ∧ off < 0x100) then
      doSync ((List.range 8).foldl (fun u k => doPlace u (k + 1)) t)
    else if 0x0A0 ≤ off ∧ off < 0x0E0 ∧ !rdB s (reg pFIO off) 8 ∧ rdB t (reg pFIO off) 8 then
      diCountOn t ((off - 0x0A0) / 4 + 1)
    else t

/-! ### Signwright -/

/-- A write to SGN (R271, R273, R276). -/
def writeSgn (s : State) (off : Nat) (v : Word) : State :=
  if off = 0x0A8 then (if fld v 0 2 = 1 then loadLutOp s else if fld v 0 2 = 2 then balanceOp s else s)
  else if (off = 0x084 ∨ (0x094 ≤ off ∧ off ≤ 0x0A0)) ∧ enabled s pSGN then ev s pSGN 8
  else writePlain s (reg pSGN off) v

/-- A write to a region record (R272): words 0–5 staged, CTRL with GO commits them. -/
def writeRegion (s : State) (w : Who) (a : Nat) (v : Word) : State :=
  match regionAt a with
  | some (r, 6) =>
    if bit v 2 then
      let ws := (List.range 6).map fun j => stagedOr s w (rgA r (4 * j)) (rd s (rgA r (4 * j)))
      rgCommit (unstage s w ((List.range 6).map fun j => rgA r (4 * j))) r ws v
    else mergeRw s a v
  | some (r, j) => if j < 6 then stage s w (rgA r (4 * j)) v else s
  | none => mergeRw s a v

/-! ### The vault, Scrivener, Cobbler -/

/-- A Locksmith command's effect, when its check lets it run, and the code it ends with. -/
def lockRun (s : State) (cmd : Nat) : State × Nat :=
  let k := lockCheck s cmd
  (if k = oSERVED then lockEffect s cmd else s, k)

/-- A Locksmith command (R281): carried out when READY, else it waits with the SEQ of its Daybook entry, the last one
reserved (R280). -/
def lockDo (s : State) (cmd : Nat) : State :=
  if cmd = 0 ∨ 8 < cmd then s
  else if !s.vault.ready then
    let q := match s.dayb.reserved.getLast? with | some e => e.seq | none => 0
    { s with vault := { s.vault with waiting := s.vault.waiting ++ [(cmd, q)] } }
  else
    let (t, k) := lockRun s cmd
    lockEnd t cmd (lockTarget s cmd) k

/-- LOCKSMITH_READY (R280): the cells are scrambled under a fresh key, and the commands that have waited are carried
out in order. -/
def lockReady (s : State) : State :=
  if s.vault.ready ∨ fenced s pLOCK ∨ retiredPg s pLOCK then s
  else
    let (k, s) := draw s
    let ops := s.vault.waiting
    let s := wrB { s with vault := { s.vault with ready := true, scramble := k, waiting := [], remaskAt := s.clk.fabric } }
      (reg pLOCK 0x084) 5 true
    ops.foldl (fun t e => lockEndWait (lockRun t e.1).1 e (lockRun t e.1).2) s

/-- A write to LOCK (R281). -/
def writeLock (s : State) (off : Nat) (v : Word) : State :=
  if off = 0x090 then lockDo s (fld v 0 4)
  else if 0x0C0 ≤ off ∧ off < 0x0E0 then
    { s with vault := { s.vault with data := put 0 s.vault.data ((off - 0x0C0) / 4) v } }
  else writePlain s (reg pLOCK off) v

/-- BKP.CMD (R291, R298). -/
def bkpCmd (s : State) (cmd : Nat) : State :=
  let st := reg pBKP 0x080
  if cmd = 1 then ponSetLatch s
  else if cmd = 2 then (if s.vault.wokeAt = some (tickNow s) then s else wrB s st 2 false)
  else if cmd = 3 then wrB s st 0 false
  else if cmd = 4 then wrB (wr (wr64 (wr s (reg pBKP 0x090) 0) (reg pBKP 0x094) 0) (reg pBKP 0x09C) 0) st 3 false
  else s

/-- A write to SCRV (R316–R320). -/
def writeScrv (s : State) (c : Cls) (off : Nat) (v : Word) : State :=
  let t := rdF s (reg pSCRV 0x0A0) 0 6
  if off = 0x084 then scrvCmd s c (fld v 0 3)
  else if off = 0x0A4 then
    let x := v &&& 0x8000FF1F
    { s with scrv := { s.scrv with tcfg := put 0 s.scrv.tcfg t (fix (decide (24 < fld x 0 5)) 0 5 24 x) } }
  else if 0x100 ≤ off ∧ off < 0x160 then
    { s with scrv := { s.scrv with lists := put 0 s.scrv.lists (t * 24 + (off - 0x100) / 4) (v &&& 0xFFFFC) } }
  else writePlain s (reg pSCRV off) v

/-- UPD.CMD (R342, R343): SUBMIT is taken in RECEIVING, and in DEAD for recovery. -/
def updCmd (s : State) (w : Who) (cmd : Nat) : State :=
  let st := updState s
  if cmd = 1 then wrF (leaseTake s w (origin s w)) updStatA 4 2 (if s.upd.lease.isSome then 2 else 1)
  else if cmd = 2 then leaseRenew s
  else if cmd = 3 then wrF (leaseEnd s) updStatA 4 2 3
  else if cmd = 4 then
    (if st = 1 ∨ st = 5 then patchCheck s (ramBytes s (rd64 s (reg pUPD 0x090)) (rdF s (reg pUPD 0x098) 0 27)) else s)
  else if cmd = 5 then updCancelled s
  else if cmd = 6 then updConfirmed s
  else if cmd = 7 then updDead s
  else s

/-! ### All pages -/

/-- The effect of a write to a block register. -/
def writeBlock (s : State) (i : Init) (a : Nat) (v : Word) : State :=
  let p := pageOf a
  let off := offOf a
  let w := i.who
  if p = pMOD then writeMod s i off v
  else if p = pPROT then writeProt s off v
  else if p = pINTC then writeIntc s off v
  else if p = pFLTM ∧ off = 0x08C then (if bit v 0 then ackOp s else s)
  else if p = pTOLL then writeToll s off v
  else if p = pLAC ∧ off = 0x080 then lacCtrlSet s v
  else if p = pLAC ∧ off = 0x0AC then netSessionSet s v
  else if p = 0x09 ∨ p = 0x0A then writeAet s w a v
  else if p = pSCAN ∨ p = pSCANDBG ∨ p = pPGMX ∨ p = pFORCE then writeLoom s w p off v
  else if (0x29 ≤ p ∧ p ≤ 0x2C) ∨ p = pWGHEN then sealedWrite s a v
  else if p = pWGHPQ ∧ off = 0x084 then hselSet s v
  else if p = pFACT ∨ p = pFACTQ then writeFact s p off v
  else if p = pPTS then writePts s w off v
  else if p = pDAYB then writeDayb s w off v
  else if pETH ≤ p ∧ p ≤ 0x51 then writeEth s (p - pETH) off v
  else if p = pOPX then writeOpx s w off v
  else if pMB ≤ p ∧ p ≤ 0x67 then writeMb s w (p - pMB) off v
  else if pSF ≤ p ∧ p ≤ 0x6B then writeSf s (p - pSF) off v
  else if p = pFIO then writeFio s off v
  else if p = pSGN then writeSgn s off v
  else if p = pSGNRG then writeRegion s w a v
  else if p = pLOCK then writeLock s off v
  else if p = pCAL ∧ off ≤ 0x098 then calStage s ((off - 0x080) / 4) v
  else if p = pBKP ∧ off = 0x088 then bkpCmd s (fld v 0 3)
  else if p = pSCRV then writeScrv s i.cls off v
  else if p = pUPD ∧ off = 0x084 then updCmd s w (fld v 0 3)
  else writePlain s a v

/-- The effect of an accepted register write, by an initiator with a class: none on a reserved offset (R6). -/
def writeEffect (s : State) (i : Init) (a : Nat) (v : Word) : State :=
  let p := pageOf a
  if (rowOf a).isNone then s
  else if isLoopbank p then writeLoopbank s i.who a v
  else if offOf a < 0x080 then writeHeader s p (offOf a) v
  else writeBlock s i a v

/-- The code an accepted register write ends with: a Locksmith command's own (R281), else SERVED. -/
def writeCode (s : State) (a : Nat) (v : Word) : Nat :=
  let cmd := fld v 0 4
  if a = reg pLOCK 0x090 ∧ 1 ≤ cmd ∧ cmd ≤ 8 ∧ s.vault.ready then lockCheck s cmd else oSERVED

end Sys2Proof.Machine
end

