-- ==== Sys2Proof/Machine/Toll.lean ====
section
/-!
DEFINITION. TOLL and the stages of R30: a request's way through its resources (R14–R28), then visibility, rights,
logging and execution, and its answer (R29).
-/

namespace Sys2Proof.Machine

/-! ### Budgets (R26) -/

/-- The budget fault of R26, when these grants are the first of their issuer beyond the class's budget. -/
def budgetCheck (s : State) (w : Who) (c : Cls) (k n : Nat) : State :=
  if overBudget s w c k n then budgetFault (budgetMark s w c k) (issuerPage w) else s

/-- A request granted at a resource, of which it passes `ks` next: counted as served, or as delayed when in a later window
than its arrival. The two ports of a transfer between regions are one resource, counted at the second (R9, R32, log 51). -/
def tollGrant (s : State) (r : Req) (k : Nat) (ks : List Nat) (delayed : Bool) : State :=
  let t := tollUse (budgetCheck s r.who r.cls k 1) r.who r.cls k 1
  if k < 5 ∧ ks.any (fun j => decide (j < 5)) then t
  else tollCount t k r.cls (if delayed || (decide (k < 5) && r.later) then 4 else 0) 1

/-! ### Refusals and their entries -/

/-- The point or set behind the OLD and NEW of a commanded write (R200, R197): all ones when not visible. -/
def cmdLog (s : State) (w : Who) (p c : Nat) : DWord :=
  let x := point s p
  if !visible s w x then 0xFFFFFFFFFFFFFFFF#64
  else if cmdRelqDef c then x.relq.zeroExtend 64
  else paEntry x (cmdLevel c)

/-- The entry of a refused change; none for a request that is no change. `rights` when refused at the rights stage. Every
write to a fused-off page and to a page index without a block leaves one (R4, R357). -/
def refusalEntry (s : State) (r : Req) (rights : Bool) (out : Nat) : Option Change :=
  let i : Init := ⟨r.who, r.cls⟩
  let regE (a : Nat) (v : Word) : Change :=
    let (k, t) := logKind s r.who a v
    let (x, h) := logValue s r.who a v
    writeChange s i k t x x h out
  match r.body with
  | .regWrite a v =>
    if pageAbsent s r.who (pageOf a) ∨ fusedOff s (pageOf a) ∨ (if rights then logsRefusal a else logsWrite a v) then
      some (regE a v)
    else none
  | .regWritePart a => some (regE a 0)
  | .winWrite off =>
    some (writeChange s i (if 0x100000 ≤ off ∧ off < 0x900000 then 1 else 0)
      (if 0x100000 ≤ off ∧ off < 0x900000 then (off - 0x100000) / 128 else off) 0 0 false out)
  | .command p c =>
    some { writeChange s i 1 p (cmdLog s r.who p c) (cmdLog s r.who p c) false out with level := cmdLevel c }
  | _ => none

/-! ### The entries of a message (R232) -/

/-- The COMMAND word of a POINT_WRITE entry (R193, R232). -/
def entryCommand (b : List Byte) (o : Nat) : Nat :=
  let f := beAt b (o + 2) 1
  beAt b (o + 4) 4 + f % 32 * 2 ^ 32 + f / 64 % 2 * 2 ^ 38 + f / 128 % 2 * 2 ^ 39

/-- The entries of a POINT_READ, POINT_WRITE or REG_WINDOW, each a request of its own; none when the payload is not one of
these or not well formed (R232). -/
def msgEntries (m : OpxMsg) : Option (List Body) :=
  let b := m.body
  let n := beAt b 0 2
  let k := beAt b 2 2
  if m.type_ = 3 then
    if 256 < n ∨ b.length ≠ 2 + 2 * n then none else some ((List.range n).map fun j => .pointRead (beAt b (2 + 2 * j) 2))
  else if m.type_ = 4 then
    if 256 < n ∨ b.length ≠ 2 + 8 * n then none
    else some ((List.range n).map fun j => .command (beAt b (2 + 8 * j) 2) (entryCommand b (2 + 8 * j)))
  else if m.type_ = 6 then
    if 1 < beAt b 0 1 ∨ 64 < k ∨ b.length ≠ 4 + 12 * k then none
    else some ((List.range k).map fun j =>
      let a := beAt b (4 + 12 * j) 4
      if beAt b 0 1 = 0 then .regRead a else .regWrite a (w32 (beAt b (8 + 12 * j) 4)))
  else none

/-- A message of a session's inbox. -/
def inboxMsg (s : State) (n sq : Nat) : Option OpxMsg := s.opx.inbox.find? fun m => m.slot == n && m.sq == sq

/-- The kind-6 change of a step of Cobbler that a message brings (R342). -/
def stepChange (s : State) (w : Who) (c : Cls) (old new out : Nat) : Change :=
  { origin := origin s w, kind := 6, target := reg pUPD 0x084, old := BitVec.ofNat 64 old, new := BitVec.ofNat 64 new
    outcome := out, hashed := true, cls := c }

/-- A LEASE that takes or releases, or an UPDATE_CHUNK: a message that asks for a step of Cobbler (R342, R343). -/
def stepMsg (m : OpxMsg) : Bool := m.type_ == 0xA || (m.type_ == 0xC && (beAt m.body 0 1 == 1 || beAt m.body 0 1 == 3))

/-- The entries that a refused request leaves: one for each change that it asks for (R200). -/
def refusalEntries (s : State) (r : Req) (rights : Bool) (out : Nat) : List Change :=
  match r.body with
  | .message n sq =>
    match inboxMsg s n sq with
    | some m =>
      if stepMsg m then
        let h := (hash8 s.upd.image).toNat
        [stepChange s r.who r.cls h h out]
      else ((msgEntries m).getD []).filterMap fun b => refusalEntry s { r with body := b } rights out
    | none => []
  | _ => (refusalEntry s r rights out).toList

/-- A request that ends with a code other than SERVED and DELAYED before its execution: its entries, and its answer. -/
def endRefused (s : State) (r : Req) (rights waits : Bool) (code : Nat) : State :=
  let out := finalOut code (delayOf s r waits)
  let s := (refusalEntries s r rights out).foldl logRefusal s
  match r.body with
  | .message n sq => msgReply s n sq out
  | b => answer s r out (emptyData b)

/-- A request served, with its data. -/
def endServed (s : State) (r : Req) (code : Nat) (data : List Word) : State :=
  answer s r (finalOut code (delayOf s r false)) data

/-! ### Arrival at a resource -/

/-- What a resource does with an arriving request. -/
inductive Verdict where
  | grant
  | wait
  | refuse (code : Nat)
  deriving DecidableEq, Repr

/-- Whether a request is a host read that an earlier host write still holds back (R352). -/
def heldRead (s : State) (r : Req) : Bool :=
  r.who == .host &&
    (match r.body with
     | .regRead _ => true
     | .winRead _ => true
     | .dramRead _ _ => true
     | _ => false) &&
    s.toll.waiting.any fun x => x.who == .host &&
      (match x.body with
       | .regWrite _ _ => true
       | .regWritePart _ => true
       | .winWrite _ => true
       | .command _ _ => true
       | .dramWrite _ _ => true
       | _ => false)

/-- A request of the same initiator and class that came before waits at the resource (R21, R352). -/
def aheadOf (s : State) (r : Req) (k : Nat) : Bool :=
  s.toll.waiting.any fun x => x.who == r.who && x.cls == r.cls && waitsAt k x

/-- A request arrives at a resource (R16, R21–R26, R203): no SAFETY or CONTROL request waits for load. -/
def arrive (s : State) (r : Req) (k : Nat) : Verdict :=
  if r.cls = .bulk ∧ congested s k then .refuse oBULK
  else if k = 8 ∧ !logOk s r.cls then .refuse oLOG
  else if heldRead s r ∨ aheadOf s r k then .wait
  else if r.cls = .safety ∨ r.cls = .control then .grant
  else if s.toll.waiting.any (waitsAt k) ∨ capacity s k ≤ usedAll s k then .wait
  else .grant

/-- What a refusal at a resource leaves behind. -/
def refuseAt (s : State) (r : Req) (k code : Nat) (waits : Bool) : State :=
  let t := tollCount s k r.cls 8 1
  let t := if code = oLOG then ev (bump t (reg pDAYB 0x09C)) pDAYB 1 else t
  endRefused t r false waits code

/-- A request put among those that wait, at a place of the list. -/
def park (s : State) (at_ : Nat) (r : Req) : State :=
  let w := s.toll.waiting
  let t := { s with toll := { s.toll with waiting := w.take at_ ++ r :: w.drop at_ } }
  let hostN (l : List Req) : Nat := (l.filter fun x => x.who == .host).length
  if r.who = .host ∧ hostN t.toll.waiting = 64 ∧ hostN w < 64 then bump t (reg pHOSTP 0x0B0) else t

/-- The request as it waits from now on. -/
def arrived (s : State) (r : Req) : Req := { r with arrived := count s, cyc := s.clk.fabric, arrWin := s.toll.win }

/-- A request passes a list of resources, then goes on with `fin`; it parks at place `at_` where one makes it wait. -/
def walk (fin : State → Req → State) (at_ : Nat) : List Nat → State → Req → State
  | [], s, r => fin s { r with path := [] }
  | k :: ks, s, r =>
    match arrive s r k with
    | .refuse code => refuseAt s r k code false
    | .wait => park s at_ { arrived s r with path := k :: ks }
    | .grant => walk fin at_ ks (tollGrant s r k ks false) r

/-! ### Execution -/

/-- The bytes of a point record (R188). -/
def pointBytes (p : Point) : List Byte :=
  leBytes 4 p.seen.toNat ++ leBytes 1 (tyCode p.ty) ++ leBytes 1 p.level ++ [0, 0] ++ leBytes 2 p.seenQ ++
    leBytes 1 p.tenant ++ leBytes 1 (p.cls + b2n p.priv * 4 + b2n p.forceable * 8 + b2n p.retired * 16) ++
    leBytes 4 p.seq.toNat ++ leBytes 8 p.ts ++ leBytes 4 p.writer.toNat ++ leBytes 2 p.mask ++ [0, 0] ++
    ((List.range 16).flatMap fun j => leBytes 4 (look 0 p.pa (j + 1)).toNat) ++ leBytes 4 p.relq.toNat ++
    leBytes 4 p.eu.toNat ++ List.replicate 24 0

/-- The words of a POINT_REPLY entry (R232): index, value, quality, level, type, the low half of TIMESTAMP. -/
def pointWords (i : Nat) (p : Point) : List Word :=
  [w32 i, p.seen, w32 p.seenQ, w32 p.level, w32 (tyCode p.ty), w32 p.ts]

/-- A word of a read window of HOSTWIN_A, or the code that ends the read (R349, R196, R306). -/
def windowWord (s : State) (w : Who) (off : Nat) : Nat × Word :=
  if off < 0x100000 ∨ 0xF00000 ≤ off then (oABSENT, 0)
  else if off < 0x900000 then
    let i := (off - 0x100000) / 128
    let p := point s i
    if !visible s w p then (oABSENT, 0)
    else if !p.retired ∧ cellOut s pPTS i then (oDISCARDED, 0)
    else (oSERVED, w32 (leAt (pointBytes p) (off % 128) 4))
  else if off < 0xD00000 then (oSERVED, vectorWord s (off - 0x900000))
  else if off < 0xE00000 then
    (oSERVED, match get? s.scrv.slots ((off - 0xD00000) / 128) with
      | some r => w32 (leAt (scrvBytes r) (off % 128) 4)
      | none => 0)
  else
    (oSERVED, match get? s.dayb.ring ((off - 0xE00000) / 64) with
      | some e => w32 (leAt (dayBytes e) (off % 64) 4)
      | none => 0)

/-- DRAM is written by an initiator that the safe state and DEAD let write (R313, R345). -/
def dramAllowed (s : State) (w : Who) : Bool := isCore w || (!s.guard.safe && (!s.guard.dead || w == .service))

/-- Words of a byte list. -/
def wordsOf (b : List Byte) : List Word := (List.range ((b.length + 3) / 4)).map fun j => w32 (leAt b (4 * j) 4)

/-- A logged register write carried out (R200, R201): the entry is reserved, then the effect takes place. -/
def writeLogged (s : State) (r : Req) (a : Nat) (v : Word) : State :=
  let i : Init := ⟨r.who, r.cls⟩
  let code := writeCode s a v
  let out := finalOut code (delayOf s r false)
  let (k, t) := logKind s r.who a v
  let (old, h) := logValue s r.who a v
  let after := writeEffect s i a v
  let wo := match rowOf a with | some x => x.wo | none => 0
  let new := (logNew s after r.who a v).1 ||| (if k = 0 ∧ !h then (v &&& w32 wo).zeroExtend 64 else 0)
  let s := logChange s (writeChange s i k t old new h out)
  let s := if districtAbsent s a v then logRefusal s (writeChange s i 3 a old old false oABSENT) else s
  endServed (writeEffect s i a v) r code [w32 a, v]

/-- A logged commanded write carried out (R194, R200). -/
def commandLogged (s : State) (r : Req) (p c : Nat) : State :=
  let i : Init := ⟨r.who, r.cls⟩
  let x := point s p
  let code := if x.retired ∨ cellOut s pPTS p then oDISCARDED else oSERVED
  let after := if code = oSERVED then cmdApply s r.who r.cls p c else s
  let s := logChange s
    { writeChange s i 1 p (cmdLog s r.who p c) (cmdLog after r.who p c) false (finalOut code (delayOf s r false)) with
      level := cmdLevel c }
  let s := if code = oSERVED then cmdApply s r.who r.cls p c else s
  endServed s r code (if code = oSERVED then pointWords p (point s p) else emptyData r.body)

/-- Execution after the logging stage. -/
def finLogged (s : State) (r : Req) : State :=
  match r.body with
  | .regWrite a v => writeLogged s r a v
  | .command p c => commandLogged s r p c
  | _ => s

/-- The logging stage (R201): the request waits for its admission to the Daybook. -/
def logStage (at_ : Nat) (s : State) (r : Req) : State := walk finLogged at_ [8] s { r with logging := true }

/-- A request after arbitration: visibility, rights, logging, execution (R30), all bodies but messages. -/
def finPlain (at_ : Nat) (s : State) (r : Req) : State :=
  let w := r.who
  let fail (t : State) (code : Nat) : State := endRefused t r (code == oRIGHTS) false code
  let absentPt (t : State) : State := fail (bump t (reg pPTS 0x09C)) oABSENT
  match r.body with
  | .regRead a =>
    if pageAbsent s w (pageOf a) then fail s oABSENT
    else if !hasRight s w rREG then fail s oRIGHTS
    else endServed (readEffect s w a false) r oSERVED [w32 a, readVal s w a]
  | .regWrite a v =>
    if pageAbsent s w (pageOf a) ∨ fusedOff s (pageOf a) then fail s oABSENT
    else
      match writeRefusal s w r.cls a v with
      | some t => fail t oRIGHTS
      | none =>
        if logsWrite a v then logStage at_ s r
        else endServed (writeEffect s ⟨w, r.cls⟩ a v) r (writeCode s a v) [w32 a, v]
  | .regWritePart a => if pageAbsent s w (pageOf a) ∨ fusedOff s (pageOf a) then fail s oABSENT else fail s oRIGHTS
  | .winRead off =>
    let (code, x) := windowWord s w off
    if code = oABSENT then (if 0x100000 ≤ off ∧ off < 0x900000 then absentPt s else fail s oABSENT)
    else if !hasRight s w rREAD then fail s oRIGHTS
    else if code ≠ oSERVED then fail s code
    else endServed s r oSERVED [x]
  | .winWrite off =>
    fail (evIf (decide (0x100000 ≤ off) && decide (off < 0x900000)) s pPTS 0) oRIGHTS
  | .pointRead p =>
    let x := point s p
    if !visible s w x then absentPt s
    else if !hasRight s w rREAD then fail s oRIGHTS
    else if !x.retired ∧ cellOut s pPTS p then fail s oDISCARDED
    else endServed s r oSERVED (pointWords p x)
  | .command p c =>
    let x := point s p
    let held := (mLOCK s && !(r.cls == .safety && ceiling s w == .safety)) || !dramAllowed s w || s.guard.dead && !isCore w
    let window := match w with | .opx _ => false | _ => true
    if !visible s w x then absentPt s
    else if !cmdAllowed s w x c ∨ held then fail (evIf window s pPTS 0) oRIGHTS
    else logStage at_ s r
  | .dramRead a n =>
    if Config.dramBytes < a + n then fail (evIf (w == .host) s pHOSTP 4) oABSENT
    else if !hasRight s w rREAD then fail s oRIGHTS
    else endServed s r oSERVED (wordsOf (ramBytes s a n))
  | .dramWrite a bs =>
    if Config.dramBytes < a + bs.length then fail (evIf (w == .host) s pHOSTP 4) oABSENT
    else if !hasRight s w rWRITE ∨ !dramAllowed s w then fail s oRIGHTS
    else endServed (ramWrite s a bs) r oSERVED []
  | .message _ _ => s

/-! ### Entry -/

/-- The TOLL resources that a request passes before visibility (R9, R10, R14). -/
def pathOf (w : Who) : Body → List Nat
  | .regRead a => fabricPath (srcRegion w) (pageRegion (pageOf a))
  | .regWrite a _ => fabricPath (srcRegion w) (pageRegion (pageOf a))
  | .regWritePart a => fabricPath (srcRegion w) (pageRegion (pageOf a))
  | .winRead off => windowPath off
  | .winWrite off => windowPath off
  | .pointRead _ => fabricPath (srcRegion w) (some 2) ++ [7]
  | .command _ _ => fabricPath (srcRegion w) (some 2) ++ [7]
  | .dramRead _ _ => fabricPath (srcRegion w) none ++ [5]
  | .dramWrite _ _ => fabricPath (srcRegion w) none ++ [5]
  | .message _ _ => [6]
where
  windowPath (off : Nat) : List Nat :=
    if off < 0x900000 then fabricPath (srcRegion w) (some 2) ++ [7]
    else if off < 0xD00000 then fabricPath (srcRegion w) (some 2)
    else fabricPath (srcRegion w) (some 3)

/-- A request as it enters the module. -/
def newReq (s : State) (w : Who) (c : Cls) (b : Body) (k : Sink) : Req :=
  { who := w, cls := c, body := b, sink := k, path := pathOf w b, logging := false, arrived := count s, cyc := s.clk.fabric
    arrWin := s.toll.win, waited := 0, later := false }

/-- A request of a session counts against RATE_MAX (R198): one of class TENANT or BULK for the point store. -/
def rated (r : Req) : Bool :=
  r.path.contains 7 && (r.cls == .tenant || r.cls == .bulk) && (match r.who with | .opx _ => true | _ => false)

/-- A rated request is beyond its tenant's RATE_MAX in the window as it starts (R198). -/
def rateOver (s : State) (r : Req) : Bool :=
  let t := tenantOf s r.who
  let m := fld (tenWord s t 1) 0 24
  rated r && m != 0 && decide (m ≤ look 0 s.toll.rate t)

/-- A rated request started. -/
def rateCount (s : State) (r : Req) : State :=
  let t := tenantOf s r.who
  if rated r then { s with toll := { s.toll with rate := put 0 s.toll.rate t (look 0 s.toll.rate t + 1) } } else s

/-- A request beyond RATE_MAX: refused at the point-store port as it starts, with DELAY 0 (R198). -/
def refuseRate (s : State) (r : Req) : State :=
  let t := ev (bump s (reg pTENQ (4 * tenantOf s r.who))) pTEN 1
  refuseAt t r 7 (if r.cls = .bulk then oBULK else oLOAD) false

/-- The class check of R13 and the way through the resources. -/
def enter (fin : Nat → State → Req → State) (s : State) (r : Req) : State :=
  let at_ := s.toll.waiting.length
  if clsN r.cls < clsN (ceiling s r.who) then
    match r.path with
    | k :: _ => endRefused (tollCount s k r.cls 8 1) r true false oRIGHTS
    | [] => endRefused s r true false oRIGHTS
  else if rateOver s r then refuseRate s r
  else walk (fin at_) at_ r.path (rateCount s r) r

/-- The queue of the host port, or of the service port, is full (R355, R358). -/
def portFull (s : State) (w : Who) : Bool :=
  let n := (s.toll.waiting.filter fun r => r.who == w).length
  (w == .host && decide (64 ≤ n)) || (w == .service && decide (Config.svcQueueMore < n))

/-- A request of an initiator is held at its port's interface (R25, R355, R358): its queue is full, or a request that came
before is held there. -/
def portHolds (s : State) (w : Who) : Bool := portFull s w || s.toll.held.any fun r => r.who == w

/-- Held requests enter, in order, while their port's queue has room. -/
def enterHeld (s : State) : State :=
  s.toll.held.foldl (fun t r =>
    if portFull t r.who then t
    else enter finPlain { t with toll := { t.toll with held := dropFirst r t.toll.held } } (arrived t r)) s

/-- A request of any body but a message. Before start-up step 4 has completed the host port answers reads with 0 and
drops writes (R348). -/
def submitPlain (s : State) (w : Who) (c : Cls) (b : Body) (k : Sink) : State :=
  let r := newReq s w c b k
  if w = .host ∧ !rdB s (reg pHOSTP 0x084) 0 then
    match k with
    | .host off false => { s with replies := s.replies ++ [⟨.host, off, oSERVED, plainData b (emptyData b)⟩] }
    | _ => s
  else if portHolds s w then enterHeld { s with toll := { s.toll with held := s.toll.held ++ [r] } }
  else enter finPlain s r

/-- The next entry of a message whose entries before it are answered (R232). -/
def pumpOne (s : State) : State :=
  match s.toll.asm.find? fun m => !m.todo.isEmpty && m.got.length + m.todo.length == m.need with
  | some m =>
    match m.todo with
    | b :: bs =>
      let t := { s with toll := { s.toll with asm := s.toll.asm.map fun x => if x = m then { m with todo := bs } else x } }
      submitPlain t (.opx (Fin.ofNat 2048 m.slot)) m.cls b (.opx m.slot m.tag (m.need - m.todo.length))
    | [] => s
  | none => s

/-- Entries sent on for as long as the entries before them are answered. -/
def pump (s : State) : State :=
  (List.range (s.toll.asm.map fun m => m.todo.length).sum).foldl (fun t _ => pumpOne t) s

/-- Where the answer of an initiator's own register access goes. -/
def ownSink (w : Who) (a : Nat) (isWr : Bool) : Sink := match w with | .host => .host a isWr | w => .own w a

/-- A register write by an initiator: the rows that write one register. -/
def submitWrite (s : State) (i : Init) (a : Nat) (v : Word) : State :=
  submitPlain s i.who (clsFor s i) (.regWrite a v) (ownSink i.who a true)

/-- A register read by an initiator. -/
def submitRead (s : State) (i : Init) (a : Nat) : State :=
  submitPlain s i.who (clsFor s i) (.regRead a) (ownSink i.who a false)

end Sys2Proof.Machine
end

