-- ==== Sys2Proof/Machine/Message.lean ====
section
/-!
DEFINITION. OPX messages at the session service (R62, R189, R232–R237, R343), and what TOLL does as time passes: window
starts, grants to requests that wait, and the delay budget (R14, R19, R22–R24).
-/

namespace Sys2Proof.Machine

/-! ### Messages -/

/-- The types a peer may send (R232). -/
def peerType (t : Nat) : Bool := [1, 3, 4, 6, 8, 9, 0xA, 0xB, 0xC, 0x12].contains t

/-- A message removed from those that await service. -/
def msgTake (s : State) (m : OpxMsg) : State :=
  { s with opx := { s.opx with inbox := s.opx.inbox.filter fun x => !(x.slot == m.slot && x.sq == m.sq) } }

/-- Messages of an undefined type or a wrong direction are answered with REFUSED_RIGHTS (R232). -/
def refuseTypes (s : State) : State :=
  (s.opx.inbox.filter fun m => !peerType m.type_).foldl (fun t m => msgReply t m.slot m.sq oRIGHTS) s

/-- The right of a message type that is one request (R232); the entries of POINT_READ, POINT_WRITE and REG_WINDOW are requests
of their own and carry theirs. -/
def typeRight (t : Nat) : Option Nat :=
  if t = 1 then some rWRITE
  else if t = 9 then some rSOLVE
  else if t = 0xA ∨ t = 0xC then some rUPDATE
  else none

/-- The initiator of a session slot. -/
def sessWho (n : Nat) : Who := .opx (Fin.ofNat 2048 n)

/-- An image from a station (R62, R189): counted in BAD_HDR when no station table entry names the session, or when its
length is not that of its entries. A station that had dropped out is sent its output slot (R80). The image arrives when the
session service grants its message: that a message still waits there for its grant R62 does not say. DESIGN CHOICE, unsafe
(log 52). Of a received quality word STALE, BAD and FORCED are the source's own, the rest follows R64. -/
def imageDo (s : State) (m : OpxMsg) : State :=
  let b := m.body
  let n := beAt b 2 2
  let mine (t : StationT) : Bool := t.src == 0 && sessSlot t.id == m.slot
  let named := match activeProg s with | some p => p.stations.any mine | none => false
  if !named ∨ b.length ≠ 4 + 8 * n then badHdr s
  else
    let vals := (List.range n).map fun j =>
      (beAt b (4 + 8 * j) 2, (w32 (beAt b (8 + 8 * j) 4), qualOf (beAt b (6 + 8 * j) 2 % 16)))
    let im : StImage := ⟨count s, m.srcCycle, vals.foldl (fun l e => ins l e.1 e.2) []⟩
    let back := stationsOut s mine
    let w := sessWho m.slot
    let t := imagePoints (hwGrants (stationArrive s mine im) w m.cls (ptPath w) n) (origin s w) vals
    let t := budgetSettle s t
    back.foldl (fun u k => sendSlot u k (count t)) t

/-- The entries of a message as requests of their own, in order, answered together in one reply (R232). -/
def entriesDo (s : State) (m : OpxMsg) (op out : Nat) (bodies : List Body) : State :=
  let a : Assembly :=
    { svc := false, slot := m.slot, tag := m.sq, op := op, cls := m.cls, outcome := out, need := bodies.length, got := []
      todo := bodies }
  if bodies.isEmpty then asmReply s a else pump { s with toll := { s.toll with asm := s.toll.asm ++ [a] } }

/-- The reply to a LEASE (R343): its result and the lease's ID, holder and sequence. -/
def leaseReply (s : State) (m : OpxMsg) (out res : Nat) : State :=
  opxReply s m 0xC out ([BitVec.ofNat 8 (beAt m.body 0 1), BitVec.ofNat 8 res, 0, 0] ++
    beBytes 4 (rd s (reg pUPD 0x09C)).toNat ++ beBytes 4 (rd s (reg pUPD 0x0A0)).toNat ++
    beBytes 4 (rd s (reg pUPD 0x0A4)).toNat)

/-- LEASE, its effect and reply (R343): a held lease answers a take with IMAGE_BUSY, and only its holder renews or releases. -/
def leaseDo (s : State) (m : OpxMsg) (out : Nat) : State :=
  let op := beAt m.body 0 1
  let w := sessWho m.slot
  if op = 1 then
    if s.upd.lease.isSome then leaseReply s m out 1 else leaseReply (leaseTake s w (origin s w)) m out 0
  else if op = 2 then leaseReply (leaseRenew s) m out 0
  else leaseReply (leaseEnd s) m out 2

/-- UPDATE_CHUNK, its effect and reply (R342, R343): bytes of the patch, taken in RECEIVING. -/
def chunkDo (s : State) (m : OpxMsg) (out : Nat) : State :=
  let t := if updState s = 1 then patchChunk s (beAt m.body 4 4) (m.body.drop 8) else s
  opxReply t m 0xA out (m.body.take 8)

/-- A LEASE or an UPDATE_CHUNK is refused at the rights stage: from anyone but the holder, with a lease ID other than his, or
an op that does not exist (R343). -/
def leaseRefused (s : State) (m : OpxMsg) : Bool :=
  let w := sessWho m.slot
  let op := beAt m.body 0 1
  if m.type_ = 0xC then !(op == 1 || ((op == 2 || op == 3) && leaseHolder s w))
  else if m.type_ = 0xA then
    !(leaseHolder s w && (match s.upd.lease with | some l => l.id == beAt m.body 0 4 | none => false))
  else false

/-- SOLVE_DATA (R232): its data goes to the runtime's buffer (log 23). -/
def solveDataDo (s : State) (m : OpxMsg) (out : Nat) : State :=
  match Config.solveBuffer (beAt m.body 0 4) with
  | none => opxReply s m 9 (recode out oABSENT) []
  | some base => opxReply (ramWrite s (base + beAt m.body 4 4) (m.body.drop 8)) m 9 out (m.body.take 8)

/-- STATUS (R233): TIME_REQ subscribes the session to TIME_REF, which needs EVENT. -/
def statusDo (s : State) (m : OpxMsg) (out : Nat) : State :=
  let want := beAt m.body 1 1 / 8 % 2 == 1
  let may := hasRight s (sessWho m.slot) rEVENT
  let t := setSess s m.slot { session s m.slot with tref := want && may }
  opxReply t m 0xB (if want && !may then recode out oRIGHTS else out) (statusBody t m.slot)

/-- The type of the reply to a message, and for REG_WINDOW its op as `asmReply` carries it (R232). -/
def replyType (m : OpxMsg) : Nat := if m.type_ = 6 then 6 + 256 * beAt m.body 0 1 else 5

/-- A message granted by the session service carried out (R232). -/
def messageDo (s : State) (m : OpxMsg) (out : Nat) : State :=
  let s := msgTake s m
  if m.type_ = 1 then imageDo s m
  else if m.type_ = 3 ∨ m.type_ = 4 ∨ m.type_ = 6 then
    match msgEntries m with
    | some l => entriesDo s m (replyType m) out l
    | none => opxReply s m (replyType m % 256) (recode out oRIGHTS) []
  else if m.type_ = 8 then
    if m.slot = rdF s (reg pLAC 0x0AC) 0 11 then
      netRef s (m.srcCycle * 65536 + m.srcAngle) m.arr (beAt m.body 0 8) (beAt m.body 8 4)
    else s
  else if m.type_ = 9 then solveDataDo s m out
  else if m.type_ = 0xA then chunkDo s m out
  else if m.type_ = 0xB then statusDo s m out
  else if m.type_ = 0xC then leaseDo s m out
  else if m.type_ = 0x12 then closeFree s m.slot
  else s

/-- The change that carrying out a message makes of its own, not by its entries: a step of Cobbler (R342), or the end of its
session (R229, R231). -/
def msgChange (s : State) (m : OpxMsg) (out : Nat) : Option Change :=
  if m.type_ = 0x12 then
    (if (session s m.slot).open_ then some { closeEntry s m.slot (sessWho m.slot) m.cls with outcome := out } else none)
  else
    let t := messageDo s m out
    if !stepMsg m ∨ (updState t = updState s ∧ t.upd.lease.isSome = s.upd.lease.isSome) then none
    else some (stepChange s (sessWho m.slot) m.cls (hash8 s.upd.image).toNat (hash8 t.upd.image).toNat out)

/-- A message after the logging stage: its entry, then its effect. -/
def loggedMsg (s : State) (m : OpxMsg) (out : Nat) : State :=
  match msgChange s m out with
  | some c => messageDo (logChange s c) m out
  | none => messageDo s m out

/-- Execution after the logging stage, of any body. -/
def finLoggedAny (s : State) (r : Req) : State :=
  match r.body with
  | .message n sq =>
    match inboxMsg s n sq with
    | some m => loggedMsg s m (finalOut oSERVED (delayOf s r false))
    | none => s
  | _ => finLogged s r

/-- A message after its grant: its right, the Daybook's admission where it makes a change of its own, then its effect. -/
def finMsg (at_ : Nat) (s : State) (r : Req) (n sq : Nat) : State :=
  match inboxMsg s n sq with
  | none => s
  | some m =>
    let out := finalOut oSERVED (delayOf s r false)
    let lacks : Bool := match typeRight m.type_ with | some k => !hasRight s r.who k | none => false
    if lacks ∨ leaseRefused s m then endRefused s r true false oRIGHTS
    else if (msgChange s m out).isSome then walk finLoggedAny at_ [8] s { r with logging := true }
    else messageDo s m out

/-- A request after arbitration, of any body. -/
def finAny (at_ : Nat) (s : State) (r : Req) : State :=
  match r.body with
  | .message n sq => finMsg at_ s r n sq
  | _ => finPlain at_ s r

/-- Messages of a class in the queue of the session service (R234). -/
def msgQueue (s : State) (c : Cls) : Nat :=
  (s.toll.waiting.filter fun r => r.cls == c && waitsAt 6 r).length

/-- A message of a type in a session's inbox enters the session service (R234); while the queue of its class holds 4,096
messages it stays where it is. -/
def submitMsg (s : State) (ty : Nat → Bool) (n sq : Nat) : State :=
  match s.opx.inbox.find? fun m => m.slot == n && m.sq == sq && ty m.type_ with
  | none => s
  | some m =>
    let waits := s.toll.waiting.any fun r => r.body == .message n sq
    if waits ∨ !runs s pOPX ∨ 4096 ≤ msgQueue s m.cls then s
    else enter finAny s (newReq s (sessWho n) m.cls (.message n sq) .none)

/-! ### Window starts (R14, R22, R23) -/

/-- The register words of the tenant table that differ from their reset values, as they take force (R198). -/
def tenantWords (s : State) : List (Nat × Word) :=
  s.regs.filter fun e => pageOf e.1 == pTEN && decide (0x800 ≤ offOf e.1)

/-- The BUDGET words that take force (R366). -/
def budgetWords (s : State) : List (Nat × Word) :=
  (List.range 5).foldl (fun m r => put 0x280A m r (rd s (reg pTOLL (0x080 + 4 * r)))) []

/-- A resource is congested from this window start: an OPERATOR or TENANT request waits for it (R22). -/
def congestsNow (s : State) (n : Nat) : Bool :=
  s.toll.waiting.any fun r =>
    (r.cls == .operator || r.cls == .tenant) && (List.range 9).any fun k => resNum k == n && waitsAt k r

/-- The resource a request waits at. -/
def waitKey (r : Req) : Nat := if r.logging then 8 else r.path.headD 0

/-- Requests that wait are refused with a code, in order, at the resource each waits at. -/
def refuseWaiting (s : State) (out : Req → Bool) (code : Nat) : State :=
  let gone := s.toll.waiting.filter out
  let t := { s with toll := { s.toll with waiting := s.toll.waiting.filter fun r => !out r } }
  gone.foldl (fun u r => refuseAt u r (waitKey r) code true) t

/-- BULK requests that wait at a congested resource are refused (R23). -/
def shedBulk (s : State) : State := refuseWaiting s (fun r => r.cls == .bulk && congested s (waitKey r)) oBULK

/-- A waiting TENANT request's total wait has reached the delay budget (R24). -/
def expired (s : State) (r : Req) : Bool := r.cls == .tenant && decide (s.toll.delay * scanT s ≤ waitSum s r true)

/-- The delay budget is tested on every fabric cycle (R24): every request that has reached it is refused. -/
def expireAll (s : State) : State := refuseWaiting s (expired s) oLOAD

/-- An accounting window starts (R14): accounts cleared, new budgets, weights, delay and tenant entries in force, congestion
marked, BULK shed. -/
def newWindow (s : State) : State :=
  let s := expireAll s
  let marks := (List.range 5).map fun n => (n, congestsNow s n)
  let rose := marks.any fun e => e.2 && !rdB s (reg pTOLL 0x09C) e.1
  let word := (marks.map fun e => b2n e.2 * 2 ^ e.1).sum
  let t := { s with toll := { s.toll with
    win := s.toll.win + 1, winStart := count s, used := [], tenUsed := [], rate := [], faulted := []
    budget := budgetWords s, weights := rd s (reg pTOLL 0x094), delay := rdF s (reg pTOLL 0x098) 0 8
    ten := tenantWords s } }
  shedBulk (evIf rose (wrF t (reg pTOLL 0x09C) 0 5 word) pTOLL 1)

/-! ### Grants (R16, R19–R21) -/

/-- The weight of a shared class (R19). -/
def classWeight (s : State) (c : Nat) : Nat := max 1 (fld s.toll.weights (8 * (c - 2)) 8)

/-- The weight of a tenant within class TENANT (R19). -/
def tenantWeight (s : State) (t : Nat) : Nat := max 1 (fld (tenWord s t 0) 12 8)

/-- The requests that a resource may grant now, with their places: those that wait there, that R352 does not hold and that are
behind none of the same requester and class (R21). -/
def grantable (s : State) (k : Nat) : List (Nat × Req) :=
  let l := s.toll.waiting.zipIdx.map fun e => (e.2, e.1)
  l.filter fun e =>
    let before := { s with toll := { s.toll with waiting := s.toll.waiting.take e.1 } }
    waitsAt k e.2 && !heldRead before e.2 && !aheadOf before e.2 k

/-- The element of a list with the smallest pair of numbers; the first of equals. -/
def leastBy {α : Type} (f : α → Nat × Nat) : List α → Option α
  | [] => none
  | x :: xs =>
    match leastBy f xs with
    | none => some x
    | some y => if (f y).1 < (f x).1 ∨ ((f y).1 = (f x).1 ∧ (f y).2 < (f x).2) then some y else some x

/-- Of two classes or tenants, the first has had less of its share: used / weight is smaller. -/
def shareLess (ua wa ub wb : Nat) : Bool := decide (ua * wb < ub * wa)

/-- The number of a list that has had least of its share; the first of equals. -/
def leastShare (used weight : Nat → Nat) : List Nat → Option Nat
  | [] => none
  | x :: xs =>
    match leastShare used weight xs with
    | none => some x
    | some y => if shareLess (used y) (weight y) (used x) (weight x) then some y else some x

/-- The request a resource grants next: SAFETY, then CONTROL, then the shared class that has had least of its weighted
share, within TENANT likewise by tenant; in a class by arrival, then by rank (R16, R19–R21). -/
def nextGrant (s : State) (k : Nat) : Option (Nat × Req) :=
  let l := grantable s k
  let of (c : Nat) : List (Nat × Req) := l.filter fun e => clsN e.2.cls == c
  let cls : Option Nat :=
    if !(of 0).isEmpty then some 0
    else if !(of 1).isEmpty then some 1
    else leastShare (usedOf s k) (classWeight s) ([2, 3, 4].filter fun c => !(of c).isEmpty)
  match cls with
  | none => none
  | some c =>
    let mine :=
      if c = 3 then
        match leastShare (fun t => look 0 s.toll.tenUsed (k * 256 + t)) (tenantWeight s)
            ((List.range 256).filter fun t => (of 3).any fun e => tenantOf s e.2.who == t) with
        | some t => (of 3).filter fun e => tenantOf s e.2.who == t
        | none => []
      else of c
    leastBy (fun e => (e.2.cyc, rankOf e.2.who)) mine

/-- The list without its element `i`. -/
def dropNth {α : Type} (l : List α) (i : Nat) : List α := l.take i ++ l.drop (i + 1)

/-- A waiting request goes on from its resource after its grant. -/
def resume (s : State) (i : Nat) (r : Req) (k : Nat) : State :=
  let late := r.arrWin != s.toll.win
  let t := { s with toll := { s.toll with waiting := dropNth s.toll.waiting i } }
  if k = 8 ∧ !logOk s r.cls then refuseAt t r k oLOG true
  else
    let r' := { r with waited := waitSum s r true, later := r.later || late }
    let t := tollGrant t r (if r.logging then 8 else k) (if r.logging then [] else r.path.drop 1) late
    if r.logging then finLoggedAny t { r' with path := [] } else walk (finAny i) i (r'.path.drop 1) t r'

/-- What follows wherever requests have ended: held requests enter (R355, R358), and entries of messages go on (R232). -/
def moveOn (s : State) : State := pump (enterHeld s)

/-- A class may be granted at a resource: SAFETY and CONTROL always, the others while the window has capacity left (R16,
R18). -/
def mayGrant (s : State) (k : Nat) (c : Cls) : Bool :=
  c == .safety || c == .control || decide (usedAll s k < capacity s k)

/-- REQUEST_GRANT: the next waiting request of a resource is granted, after those that have reached their delay budget are
refused (R24). -/
def grantOp (s : State) (k : Nat) : State :=
  let t := expireAll s
  match nextGrant t k with
  | some (i, r) => if mayGrant t k r.cls then moveOn (resume t i r k) else moveOn t
  | none => moveOn t

/-- DELAY_BUDGET_EXPIRY (R24): the first TENANT request at a resource whose total wait has reached the delay budget. -/
def budgetExpiry (s : State) (k : Nat) : State :=
  let l := s.toll.waiting.zipIdx.map fun e => (e.2, e.1)
  match l.find? fun e => waitsAt k e.2 && expired s e.2 with
  | some (i, r) => moveOn (refuseAt { s with toll := { s.toll with waiting := dropNth s.toll.waiting i } } r k oLOAD true)
  | none => s

/-- ACCOUNTING_WINDOW_START at a position: a multiple of 8,192 au after the last start (R14). Completions of Factor that have waited
for DRAM are posted (R161). -/
def windowOp (s : State) (pos : Nat) : State :=
  if pos % 8192 = 0 ∧ (s.toll.win = 0 ∨ s.toll.winStart < pos) then
    let t := moveOn (newWindow (reachPos s pos))
    postFlush t t.fact.posts.length
  else s

end Sys2Proof.Machine
end

