-- ==== Sys2Proof/Machine/ExecBus.lean ====
section
/-!
DEFINITION. The meanings of the commands of the multi-drop buses and the serial field ports (R240–R256). Bus `n` is
MB(n + 1), port `n` is SF(n + 1).
-/

namespace Sys2Proof.Machine

/-- MB_FRAME_RECEIVE (R240, R242, R247). -/
def execMbFrameReceive (bus : Fin 8) (f : BusFrame) (s : State) : Host.Outcome State Fault Refusal :=
  finishGuard s (budgetSettle s (mbReceive s bus.val f))

/-- OBJECT_TIMEOUT (R244). -/
def execObjectTimeout (bus : Fin 8) (o : Fin 16) (s : State) : Host.Outcome State Fault Refusal :=
  finish s (mbStale s bus.val o.val)

/-- MB_Q_HEAD (R243). -/
def execMbQHead (i : Init) (bus : Fin 8) (q : Fin 2) (v : Word) (s : State) : Host.Outcome State Fault Refusal :=
  finishClock s (submitWrite s i (reg (mbPg bus.val) (0x0E0 + 4 * q.val)) v)

/-- TXOBJ_STAGE (R245, R351): any word of the object but its CTRL. -/
def execTxobjStage (i : Init) (bus : Fin 8) (o : Fin 16) (w : Fin 20) (v : Word) (s : State) :
    Host.Outcome State Fault Refusal :=
  finishClock s (submitWrite s i (txObj bus.val o.val + 4 * w.val) v)

/-- TXOBJ_COMMIT (R245): a write to the object's CTRL. -/
def execTxobjCommit (i : Init) (bus : Fin 8) (o : Fin 16) (v : Word) (s : State) : Host.Outcome State Fault Refusal :=
  finishClock s (submitWrite s i (txObj bus.val o.val + 4) v)

/-- MB_TXR_TAIL (R246). -/
def execMbTxrTail (i : Init) (bus : Fin 8) (v : Word) (s : State) : Host.Outcome State Fault Refusal :=
  finishClock s (submitWrite s i (reg (mbPg bus.val) 0x0F4) v)

/-- MB_FRAME_SEND (R246): the winner of the pending frames starts on the bus. -/
def execMbFrameSend (bus : Fin 8) (s : State) : Host.Outcome State Fault Refusal := finish s (mbStart s bus.val)

/-- MB_TX_DONE (R246, R250). -/
def execMbTxDone (bus : Fin 8) (r : BusEnd) (s : State) : Host.Outcome State Fault Refusal :=
  finish s (mbEnd s bus.val r)

/-- BUS_OFF_RECOVERY (R250). -/
def execBusOffRecovery (bus : Fin 8) (s : State) : Host.Outcome State Fault Refusal :=
  finish s (mbRecovered s bus.val)

/-- MB_ENABLE (R240, R241): a write to MBn.CTRL. -/
def execMbEnable (i : Init) (bus : Fin 8) (v : Word) (s : State) : Host.Outcome State Fault Refusal :=
  finishClock s (submitWrite s i (reg (mbPg bus.val) 0x080) v)

/-- MB_SLEEP (R251). -/
def execMbSleep (i : Init) (bus : Fin 8) (s : State) : Host.Outcome State Fault Refusal :=
  finishClock s (submitWrite s i (reg (mbPg bus.val) 0x084) 1)

/-- MB_WAKE (R252). -/
def execMbWake (i : Init) (bus : Fin 8) (s : State) : Host.Outcome State Fault Refusal :=
  finishClock s (submitWrite s i (reg (mbPg bus.val) 0x084) 2)

/-- MB_RECOVER (R250). -/
def execMbRecover (i : Init) (bus : Fin 8) (s : State) : Host.Outcome State Fault Refusal :=
  finishClock s (submitWrite s i (reg (mbPg bus.val) 0x084) 3)

/-- CLEAR_Q0 (R242). -/
def execClearQ0 (i : Init) (bus : Fin 8) (s : State) : Host.Outcome State Fault Refusal :=
  finishClock s (submitWrite s i (reg (mbPg bus.val) 0x084) 4)

/-- CLEAR_Q1 (R242). -/
def execClearQ1 (i : Init) (bus : Fin 8) (s : State) : Host.Outcome State Fault Refusal :=
  finishClock s (submitWrite s i (reg (mbPg bus.val) 0x084) 5)

/-- BUS_WAKE_EVENT (R252): a dominant level, or a wake frame. -/
def execBusWakeEvent (bus : Fin 8) (f : Option BusFrame) (s : State) : Host.Outcome State Fault Refusal :=
  finishGuard s (budgetSettle s (mbWakeEvent s bus.val f))

/-- SF_TX_START (R254). -/
def execSfTxStart (port : Fin 4) (s : State) : Host.Outcome State Fault Refusal := finish s (sfStart s port.val)

/-- SF_TX_DONE (R254, R256). -/
def execSfTxDone (port : Fin 4) (s : State) : Host.Outcome State Fault Refusal := finish s (sfDone s port.val)

/-- CHARACTER_RECEIVE (R254, R256). -/
def execCharacterReceive (port : Fin 4) (c : Byte) (parityErr framingErr brk : Bool) (s : State) :
    Host.Outcome State Fault Refusal :=
  finish s (sfReceive s port.val c parityErr framingErr brk)

/-- IDLE_GAP (R255). -/
def execIdleGap (port : Fin 4) (s : State) : Host.Outcome State Fault Refusal := finish s (sfGap s port.val)

/-- SF_TXR_TAIL (R256). -/
def execSfTxrTail (i : Init) (port : Fin 4) (v : Word) (s : State) : Host.Outcome State Fault Refusal :=
  finishClock s (submitWrite s i (reg (sfPg port.val) 0x0A0) v)

/-- SF_RXR_HEAD (R256). -/
def execSfRxrHead (i : Init) (port : Fin 4) (v : Word) (s : State) : Host.Outcome State Fault Refusal :=
  finishClock s (submitWrite s i (reg (sfPg port.val) 0x0B4) v)

end Sys2Proof.Machine
end

