-- ==== Sys2Proof/Machine/ExecEth.lean ====
section
/-!
DEFINITION. The meanings of the commands of the Ethernet ports (R208–R222, R239). Port `n` is ETH(n + 1).
-/

namespace Sys2Proof.Machine

/-- FRAME_RECEIVE (R209–R212): a frame with its FCS. -/
def execFrameReceive (port : Fin 18) (bytes : List Byte) (fcsOk symErr : Bool) (s : State) :
    Host.Outcome State Fault Refusal :=
  finish s (rxFrame s port.val bytes fcsOk symErr)

/-- PAUSE_REPEAT (R219). -/
def execPauseRepeat (port : Fin 18) (s : State) : Host.Outcome State Fault Refusal := finish s (pauseAgain s port.val)

/-- PAUSE_EXPIRY (R220). -/
def execPauseExpiry (port : Fin 18) (s : State) : Host.Outcome State Fault Refusal := finish s (pauseDone s port.val)

/-- PAUSE_WATCHDOG (R220). -/
def execPauseWatchdog (port : Fin 18) (s : State) : Host.Outcome State Fault Refusal := finish s (pauseWatch s port.val)

/-- HOLDOFF_END (R220). -/
def execHoldoffEnd (port : Fin 18) (s : State) : Host.Outcome State Fault Refusal := finish s (holdEnd s port.val)

/-- TX_FRAME_START (R215, R218). -/
def execTxFrameStart (port : Fin 18) (s : State) : Host.Outcome State Fault Refusal := finish s (txStart s port.val)

/-- TX_FRAME_END (R213, R215). -/
def execTxFrameEnd (port : Fin 18) (s : State) : Host.Outcome State Fault Refusal := finish s (txEnd s port.val)

/-- TX_UNDERRUN (R218). -/
def execTxUnderrun (port : Fin 18) (s : State) : Host.Outcome State Fault Refusal := finish s (txDry s port.val)

/-- ETH_TXR_TAIL (R215). -/
def execEthTxrTail (i : Init) (port : Fin 18) (v : Word) (s : State) : Host.Outcome State Fault Refusal :=
  finishClock s (submitWrite s i (reg (ethPg port.val) 0x0CC) v)

/-- ETH_RXR_TAIL (R215). -/
def execEthRxrTail (i : Init) (port : Fin 18) (v : Word) (s : State) : Host.Outcome State Fault Refusal :=
  finishClock s (submitWrite s i (reg (ethPg port.val) 0x0E0) v)

/-- ETH_LINK_CHANGE (R239). -/
def execEthLinkChange (port : Fin 18) (up : Bool) (s : State) : Host.Outcome State Fault Refusal :=
  finish s (linkSet s port.val up)

end Sys2Proof.Machine
end

