-- ==== Sys2Proof/Machine/ExecFact.lean ====
section
/-!
DEFINITION. The meanings of the commands of Factor, the dispatch solver (R161–R187).
-/

namespace Sys2Proof.Machine

/-- SQ_TAIL (R187): a doorbell. -/
def execSqTail (i : Init) (q : Fin 2) (v : Word) (s : State) : Host.Outcome State Fault Refusal :=
  finishClock s (submitWrite s i (reg pFACTQ (0x08C + 0x40 * q.val)) v)

/-- CQ_HEAD (R170). -/
def execCqHead (i : Init) (q : Fin 2) (v : Word) (s : State) : Host.Outcome State Fault Refusal :=
  finishClock s (submitWrite s i (reg pFACTQ (0x09C + 0x40 * q.val)) v)

/-- SOLVE (R170–R173). -/
def execSolve (s : State) : Host.Outcome State Fault Refusal := finishGuard s (budgetSettle s (solveOp s))

/-- REGISTER (R164). -/
def execRegister (s : State) : Host.Outcome State Fault Refusal := finishGuard s (budgetSettle s (registerOp s))

/-- CONFIRM (R180, R181). -/
def execConfirm (s : State) : Host.Outcome State Fault Refusal := finishGuard s (budgetSettle s (confirmOp s))

/-- FACTORISATION_DONE (R177), with the pivots of the factorisation in permuted order. -/
def execFactorisationDone (pivots : List Word) (s : State) : Host.Outcome State Fault Refusal :=
  finishGuard s (budgetSettle s (factorDone s pivots))

/-- ADMM_ITERATION (R171, R173). -/
def execAdmmIteration (s : State) : Host.Outcome State Fault Refusal := finishGuard s (budgetSettle s (iterate s))

/-- RESIDUAL_CHECK (R174–R178). -/
def execResidualCheck (s : State) : Host.Outcome State Fault Refusal := finishGuard s (budgetSettle s (residualOp s))

/-- MAX_ITER_REACHED (R178). -/
def execMaxIterReached (s : State) : Host.Outcome State Fault Refusal := finishGuard s (budgetSettle s (maxIterOp s))

/-- TIME_LIMIT_REACHED (R172). -/
def execTimeLimitReached (s : State) : Host.Outcome State Fault Refusal := finishGuard s (budgetSettle s (timeLimitOp s))

/-- SOLVE_RESUME (R171). -/
def execSolveResume (s : State) : Host.Outcome State Fault Refusal := finishGuard s (budgetSettle s (resumeOp s))

/-- PERIOD_BOUNDARY (R183). -/
def execPeriodBoundary (pos : Nat) (s : State) : Host.Outcome State Fault Refusal := finishClock s (periodOp s pos)

end Sys2Proof.Machine
end

