-- ==== Sys2Proof/Machine/ExecFault.lean ====
section
/-!
DEFINITION. The meanings of the commands of the fault manager, Assayer and the Scrivener recorder (R300–R322).
-/

namespace Sys2Proof.Machine

/-- ERROR_DETECTED (R303–R305). -/
def execErrorDetected (e : Element) (kind : Byte) (detail : BitVec 24) (s : State) : Host.Outcome State Fault Refusal :=
  finishGuard s (errorOp s e kind.toNat detail.toNat)

/-- ECC_CORR (R302). -/
def execEccCorr (page : Fin 128) (group : BitVec 20) (s : State) : Host.Outcome State Fault Refusal :=
  finishGuard s (eccCorrOp s (cellWord page.val group.toNat))

/-- DISCARD_COMPLETE (R311). -/
def execDiscardComplete (s : State) : Host.Outcome State Fault Refusal := finishGuard s (budgetSettle s (discardCompleteOp s))

/-- ASSAYER_TEST_START (R305). -/
def execAssayerTestStart (e : Element) (s : State) : Host.Outcome State Fault Refusal := finish s (testStartOp s e)

/-- ASSAYER_TEST_DONE (R303–R309). -/
def execAssayerTestDone (e : Element) (pass : Bool) (s : State) : Host.Outcome State Fault Refusal :=
  finishGuard s (freezeRetired s (budgetSettle s (testDoneOp s e pass)))

/-- TRANSIENT_WINDOW_CLOSE (R304). -/
def execTransientWindowClose (e : Element) (s : State) : Host.Outcome State Fault Refusal :=
  finish s (windowCloseOp s e)

/-- PATROL_TEST (R310). -/
def execPatrolTest (e : Element) (pass : Bool) (s : State) : Host.Outcome State Fault Refusal :=
  finishGuard s (freezeRetired s (patrolOp s e pass))

/-- SELFTEST_START (R315): a write to a page's SELFTEST_CTRL. -/
def execSelftestStart (i : Init) (page : Fin 128) (v : Word) (s : State) : Host.Outcome State Fault Refusal :=
  finishClock s (submitWrite s i (reg page.val 0x038) v)

/-- FLTM_ACK (R314). -/
def execFltmAck (i : Init) (s : State) : Host.Outcome State Fault Refusal :=
  finishClock s (submitWrite s i (reg pFLTM 0x08C) 1)

/-- FIRE (R316): SCRV.CMD = FIRE. -/
def execFire (i : Init) (s : State) : Host.Outcome State Fault Refusal :=
  finishClock s (submitWrite s i (reg pSCRV 0x084) 3)

/-- CAPTURE (R317). -/
def execCapture (s : State) : Host.Outcome State Fault Refusal := finish s (captureOp s)

/-- RECORD_WRITE (R319). -/
def execRecordWrite (s : State) : Host.Outcome State Fault Refusal := finish s (recordOp s)

/-- FREEZE (R320). -/
def execFreeze (i : Init) (s : State) : Host.Outcome State Fault Refusal :=
  finishClock s (submitWrite s i (reg pSCRV 0x084) 1)

/-- UNFREEZE (R320). -/
def execUnfreeze (i : Init) (s : State) : Host.Outcome State Fault Refusal :=
  finishClock s (submitWrite s i (reg pSCRV 0x084) 2)

/-- FREEZE_TIMEOUT (R320). -/
def execFreezeTimeout (s : State) : Host.Outcome State Fault Refusal := finish s (freezeLimit s)

/-- CLEAR_PERM (R319). -/
def execClearPerm (i : Init) (s : State) : Host.Outcome State Fault Refusal :=
  finishClock s (submitWrite s i (reg pSCRV 0x084) 4)

end Sys2Proof.Machine
end

