-- ==== Sys2Proof/Machine/ExecFio.lean ====
section
/-!
DEFINITION. The meanings of the commands of the field I/O (R257–R263). Input `n` is DI(n + 1), output `c` is DO(c + 1).
-/

namespace Sys2Proof.Machine

/-- DI_FILTER_ACCEPT (R257). -/
def execDiFilterAccept (n : Fin 16) (v : Bool) (s : State) : Host.Outcome State Fault Refusal :=
  finishGuard s (budgetSettle s (diAccept s (n.val + 1) v))

/-- WIRE_BREAK (R258). -/
def execWireBreak (n : Fin 16) (s : State) : Host.Outcome State Fault Refusal :=
  finishGuard s (budgetSettle s (diBreak s (n.val + 1)))

/-- WIRE_BREAK_CLEAR (R258). -/
def execWireBreakClear (n : Fin 16) (s : State) : Host.Outcome State Fault Refusal :=
  finishGuard s (budgetSettle s (diUnbreak s (n.val + 1)))

/-- COUNT_EDGE (R259). -/
def execCountEdge (n : Fin 16) (s : State) : Host.Outcome State Fault Refusal :=
  finishGuard s (budgetSettle s (diEdge s (n.val + 1)))

/-- CNT_CLR (R259). -/
def execCntClr (i : Init) (v : Word) (s : State) : Host.Outcome State Fault Refusal :=
  finishClock s (submitWrite s i (reg pFIO 0x1E0) v)

/-- DO_CMD_WRITE (R260). -/
def execDoCmdWrite (i : Init) (v : Word) (s : State) : Host.Outcome State Fault Refusal :=
  finishClock s (submitWrite s i (reg pFIO 0x094) v)

/-- DO_THERMAL_SHUTDOWN (R262). -/
def execDoThermalShutdown (c : Fin 8) (s : State) : Host.Outcome State Fault Refusal :=
  finish s (doThermal s (c.val + 1))

/-- DO_SHUTDOWN_RELEASE (R262). -/
def execDoShutdownRelease (c : Fin 8) (s : State) : Host.Outcome State Fault Refusal :=
  finish s (doRelease s (c.val + 1))

/-- GROUP_FAULT (R263). -/
def execGroupFault (g : Fin 3) (s : State) : Host.Outcome State Fault Refusal := finishGuard s (groupFaultOp s g.val)

/-- FIELD_UNDERVOLTAGE (R263). -/
def execFieldUndervoltage (s : State) : Host.Outcome State Fault Refusal := finishGuard s (budgetSettle s (fieldLow s))

/-- FIELD_SUPPLY_RESTORED (R263). -/
def execFieldSupplyRestored (s : State) : Host.Outcome State Fault Refusal := finishGuard s (budgetSettle s (fieldBack s))

end Sys2Proof.Machine
end

