-- ==== Sys2Proof/Machine/ExecHost.lean ====
section
/-!
DEFINITION. The meanings of the commands of the host port, the service port, the page headers and the interrupt
controller (R347–R366).
-/

namespace Sys2Proof.Machine

/-- A service request taken apart into its words (R358): each is a request of its own, their answers join in one
reply. -/
def submitSvc (s : State) (op : Nat) (c : Cls) (tag : Nat) (bodies : List Body) : State :=
  let m : Assembly :=
    { svc := true, slot := 0, tag := tag, op := op, cls := c, outcome := 0, need := bodies.length, got := []
      todo := [] }
  if !s.pins.svc then s
  else
    let s := { s with toll := { s.toll with asm := s.toll.asm ++ [m] } }
    asmFlush ((bodies.zipIdx).foldl (fun t e => submitPlain t .service c e.1 (.svc tag e.2)) s)

/-- The addresses of a request's words. -/
def svcAddrs (addr : DWord) (count : Nat) : List Nat := (List.range count).map fun j => addr.toNat + 4 * j

/-- The body of a WIN_READ word: a register below the windows, else a window word (R349). -/
def winBody (off : Nat) : Body := if off < 0x100000 then .regRead off else .winRead off

/-- A host access through HOSTWIN_C (R349): DRAM from C_BASE upwards. -/
def hostDram (s : State) (off : Nat) (w : Option (List Byte)) (len : Nat) : State :=
  let a := rd64 s (reg pHOSTP 0x09C) / 2 ^ 26 * 2 ^ 26 + off
  let body : Body := match w with | some bs => .dramWrite a bs | none => .dramRead a len
  submitPlain s .host (clsFor s ⟨.host, .operator⟩) body (.host (2 ^ 31 + off) w.isSome)

/-- SVC_VBUS appears (R358). -/
def svcOn (s : State) : State :=
  if s.pins.svc then s else ev { s with pins := { s.pins with svc := true } } pHOSTP 5

/-- SVC_VBUS is removed: requests under way keep no reply to give (R358). -/
def svcOff (s : State) : State :=
  { s with
    pins := { s.pins with svc := false }
    toll := { s.toll with
      asm := s.toll.asm.filter fun m => !m.svc
      waiting := s.toll.waiting.filter fun r => r.who != .service
      held := s.toll.held.filter fun r => r.who != .service } }

/-- The value of PG_CTRL that restarts a block and leaves its ENABLE. -/
def restartWord (s : State) (p : Nat) : Word := w32 (b2n (enabled s p) + 2)

/-- PERST (R348). -/
def execPerst (s : State) : Host.Outcome State Fault Refusal := finish s (perstOp s)

/-- HOSTWIN_C_ACCESS (R349). -/
def execHostwinCAccess (off : BitVec 26) (wr : Option (List Byte)) (len : Nat) (s : State) :
    Host.Outcome State Fault Refusal :=
  finishClock s (hostDram s off.toNat wr len)

/-- SVC_ATTACH (R358). -/
def execSvcAttach (s : State) : Host.Outcome State Fault Refusal := finish s (svcOn s)

/-- REG_READ (R358). -/
def execRegRead (cls : Cls) (tag : Word) (addr : DWord) (count : Nat) (s : State) : Host.Outcome State Fault Refusal :=
  finishClock s (submitSvc s 1 cls tag.toNat ((svcAddrs addr count).map .regRead))

/-- REG_WRITE (R358). -/
def execRegWrite (cls : Cls) (tag : Word) (addr : DWord) (vs : List Word) (s : State) :
    Host.Outcome State Fault Refusal :=
  finishClock s (submitSvc s 2 cls tag.toNat (((svcAddrs addr vs.length).zip vs).map fun e => .regWrite e.1 e.2))

/-- MEM_READ (R358). -/
def execMemRead (cls : Cls) (tag : Word) (addr : DWord) (count : Nat) (s : State) : Host.Outcome State Fault Refusal :=
  finishClock s (submitSvc s 3 cls tag.toNat ((svcAddrs addr count).map fun a => .dramRead a 4))

/-- MEM_WRITE (R358). -/
def execMemWrite (cls : Cls) (tag : Word) (addr : DWord) (vs : List Word) (s : State) :
    Host.Outcome State Fault Refusal :=
  finishClock s (submitSvc s 4 cls tag.toNat (((svcAddrs addr vs.length).zip vs).map fun e => .dramWrite e.1 (leBytes 4 e.2.toNat)))

/-- WIN_READ (R358). -/
def execWinRead (cls : Cls) (tag : Word) (addr : DWord) (count : Nat) (s : State) : Host.Outcome State Fault Refusal :=
  finishClock s (submitSvc s 5 cls tag.toNat ((svcAddrs addr count).map winBody))

/-- IRQ_PEND_SET (R359). -/
def execIrqPendSet (i : Init) (page : Fin 128) (v : Word) (s : State) : Host.Outcome State Fault Refusal :=
  finishClock s (submitWrite s i (reg page.val 0x014) v)

/-- IRQ_PEND_CLR (R359). -/
def execIrqPendClr (i : Init) (page : Fin 128) (v : Word) (s : State) : Host.Outcome State Fault Refusal :=
  finishClock s (submitWrite s i (reg page.val 0x018) v)

/-- IRQ_MASK_SET (R359). -/
def execIrqMaskSet (i : Init) (page : Fin 128) (v : Word) (s : State) : Host.Outcome State Fault Refusal :=
  finishClock s (submitWrite s i (reg page.val 0x020) v)

/-- IRQ_MASK_CLR (R359). -/
def execIrqMaskClr (i : Init) (page : Fin 128) (v : Word) (s : State) : Host.Outcome State Fault Refusal :=
  finishClock s (submitWrite s i (reg page.val 0x024) v)

/-- PAGE_ENABLE (R360): a write of PG_CTRL.ENABLE. -/
def execPageEnable (i : Init) (page : Fin 128) (on : Bool) (s : State) : Host.Outcome State Fault Refusal :=
  finishClock s (submitWrite s i (reg page.val 0x008) (w32 (b2n on)))

/-- SOFT_RESET (R360): a write of PG_CTRL.SOFT_RESET with ENABLE as it stands. -/
def execSoftReset (i : Init) (page : Fin 128) (s : State) : Host.Outcome State Fault Refusal :=
  finishClock s (submitWrite s i (reg page.val 0x008) (restartWord s page.val))

/-- INTC_PEND_SET (R361). -/
def execIntcPendSet (i : Init) (k : Fin 8) (v : Word) (s : State) : Host.Outcome State Fault Refusal :=
  finishClock s (submitWrite s i (reg pINTC (0x0A0 + 4 * k.val)) v)

/-- INTC_PEND_CLR (R361). -/
def execIntcPendClr (i : Init) (k : Fin 8) (v : Word) (s : State) : Host.Outcome State Fault Refusal :=
  finishClock s (submitWrite s i (reg pINTC (0x0C0 + 4 * k.val)) v)

/-- INTC_MASK_SET (R363). -/
def execIntcMaskSet (i : Init) (k : Fin 8) (v : Word) (s : State) : Host.Outcome State Fault Refusal :=
  finishClock s (submitWrite s i (reg pINTC (0x100 + 4 * k.val)) v)

/-- INTC_MASK_CLR (R363, R364). -/
def execIntcMaskClr (i : Init) (k : Fin 8) (v : Word) (s : State) : Host.Outcome State Fault Refusal :=
  finishClock s (submitWrite s i (reg pINTC (0x120 + 4 * k.val)) v)

/-- SLEEP_GO (R365). -/
def execSleepGo (i : Init) (s : State) : Host.Outcome State Fault Refusal :=
  finishClock s (submitWrite s i (reg pINTC 0x170) 1)

/-- WAKE_FROM_SLEEP (R365). -/
def execWakeFromSleep (src : BitVec 8) (s : State) : Host.Outcome State Fault Refusal :=
  finishGuard s (wakeOp s src.toNat)

/-- HOST_LINK_CHANGE (R347). -/
def execHostLinkChange (up : Bool) (speed width : BitVec 2) (s : State) : Host.Outcome State Fault Refusal :=
  finish s (hostLink s up speed.toNat width.toNat)

/-- SVC_DETACH (R358). -/
def execSvcDetach (s : State) : Host.Outcome State Fault Refusal := finish s (svcOff s)

/-- PCIE_WAKE_TIMEOUT (R365). -/
def execPcieWakeTimeout (s : State) : Host.Outcome State Fault Refusal := finish s (wakeTimeout s)

end Sys2Proof.Machine
end

