-- ==== Sys2Proof/Machine/Actions.lean ====
section
/-!
DEFINITION. The actions of the angle event table (R49–R56): what each action code does, and the eight that fire on a fabric
cycle.
-/

namespace Sys2Proof.Machine

/-- A pulse of a number of µs is noted: it begins 3 fabric cycles after its action, and overlapping pulses are one (R51). -/
def pulseNote (s : State) (pin us : Nat) : State :=
  let e := s.clk.fabric + 3 + us * 400
  { s with pins := { s.pins with pulseEnd := ins s.pins.pulseEnd pin (max e (look 0 s.pins.pulseEnd pin)) } }

/-- A pulse on a GPIO begins, when the pin is a general output (R386); `n` is 1–8. -/
def pulseStart (s : State) (n us : Nat) : State :=
  if gpioOutput s n then
    pulseNote { s with pins := { s.pins with gpioPulse := ch8 s.pins.gpioPulse n true } } (n - 1) us
  else s

/-- A pulse on ANG_SYNC_OUT of OUT_WIDTH µs (R51). -/
def syncStart (s : State) : State :=
  pulseNote { s with pins := { s.pins with syncOut := true } } 8 (max 1 (rdF s (reg pLAC 0x0A8) 0 8))

/-- A pulse ends, at the fabric cycle its width gives: pins 0–7 are GPIO1–GPIO8, pin 8 is ANG_SYNC_OUT (R51). -/
def pulseStop (s : State) (pin : Nat) : State :=
  let s := { s with clk := s.clk.untilFabric (look 0 s.pins.pulseEnd pin) }
  let e := del s.pins.pulseEnd pin
  if pin < 8 then { s with pins := { s.pins with gpioPulse := ch8 s.pins.gpioPulse (pin + 1) false, pulseEnd := e } }
  else { s with pins := { s.pins with syncOut := false, pulseEnd := e } }

/-- SCAN_LATCH: the latch, and OPERATIONAL with the first one of start-up step 9 (R61, R337). -/
def latchFire (s : State) (f : Fire) : State :=
  let s := scanLatch (freqFeed s) f.pos f.late
  if s.guard.step = 9 ∧ s.loom.eng = .run ∧ s.loom.cur.isSome then goOperational s else s

/-- The effect of an action code with its target (the table of action codes). LOOP_SLOT only marks a slot's start: the
samples and outputs of its loops are events of their own. -/
def actionDo (s : State) (f : Fire) (action target : Nat) : State :=
  match action with
  | 1 => raiseSrc s (target % 128)
  | 2 => pulseStart s (target % 8 + 1) (target / 256 + 1)
  | 3 => syncStart s
  | 4 => latchFire s f
  | 5 => scanCommit s f.pos f.late
  | 7 => meterCkpt s target
  | 8 => trefFire s (target % 8) f.pos
  | 9 => fioSwitch s (target % 8 + 1) (target / 256 % 2 == 1)
  | 10 => if s.guard.fE then dispTick s else s
  | 11 => updActivate s f.pos
  | 12 => scrvFire s (target % 64) (clsOf (fld (f.w0) 28 3)) f.pos f.late
  | _ => s

/-- An action that still acts in sleep (R365): RAISE, PULSE_GPIO and SYNC_OUT. -/
def actsAsleep (action : Nat) : Bool := decide (action = 1 ∨ action = 2 ∨ action = 3)

/-- One action fires (R49, R50, R56): it is counted, a LATE one is recorded; `tick` when a DISP_TICK has fired before it
on the same fabric cycle (R269). -/
def fireOne (s : State) (f : Fire) (tick : Bool) : State :=
  let action := fld f.w1 0 8
  let s := bump s (reg pLAC 0x0A0)
  let s :=
    if f.late then
      ev (bump (wrB s (reg (pAET + f.entry / 256) (0x080 + 4 * (f.entry % 256 / 32))) (f.entry % 32) true)
        (reg pLAC 0x0A4)) pLAC 5
    else s
  if (s.guard.asleep ∧ !actsAsleep action) ∨ (tick ∧ action = 10) then s
  else budgetSettle s (actionDo s f action (fld f.w1 8 16))

/-- The actions of one fabric cycle, in order. -/
def fireAll : State → Bool → List Fire → State
  | s, _, [] => s
  | s, tick, f :: fs => fireAll (fireOne s f tick) (tick || fld f.w1 0 8 == 10) fs

/-- Of the actions due the first eight fire, the rest is deferred (R55). -/
def fireEight (s : State) (due : List Fire) : State :=
  fireAll { s with lac := { s.lac with deferred := due.drop 8 } } false (due.take 8)

/-- The count reaches a position (R45, R52, R55): before IN_SERVICE, and at a position evaluated before, nothing fires. -/
def positionFire (s : State) (pos : Nat) : State :=
  if !s.lac.inService ∨ pos ≤ s.lac.evald then s
  else
    let s := reachPos s pos
    fireEight { s with lac := { s.lac with evald := pos } } (s.lac.deferred ++ aetDue s pos)

/-- The next fabric cycle of a deferral (R55). -/
def deferredFire (s : State) : State :=
  if s.lac.deferred.isEmpty then s
  else fireEight { s with clk := s.clk.advance 1 } s.lac.deferred

/-- A forward move of the count skips a window start (R14). -/
def skipsWindow (a b : Nat) : Bool := decide (a / 8192 < (b - 1) / 8192)

/-- The tracker has converged, and with a forward step the skipped entries fire (R44, R48, R49). A move of the count that skips
window starts begins one new accounting window (R14). -/
def trackerLocks (s : State) (refAngle f : Nat) : State :=
  let t := converged s refAngle f
  if count s < count t then
    fireEight (if skipsWindow (count s) (count t) then newWindow t else t) t.lac.deferred
  else t

end Sys2Proof.Machine
end

