-- ==== Sys2Proof/Machine/ExecLac.lean ====
section
/-!
DEFINITION. The meanings of the commands of Millwheel and the angle event table (R33–R57).
-/

namespace Sys2Proof.Machine

/-- ANGLE_EVENT_FIRE (R52, R55). -/
def execAngleEventFire (pos : Nat) (s : State) : Host.Outcome State Fault Refusal :=
  finishClock s (positionFire s pos)

/-- ANGLE_EVENT_DEFERRED_FIRE (R55). -/
def execAngleEventDeferredFire (s : State) : Host.Outcome State Fault Refusal := finishClock s (deferredFire s)

/-- PULSE_END (R51). -/
def execPulseEnd (pin : Fin 9) (s : State) : Host.Outcome State Fault Refusal := finishClock s (pulseStop s pin.val)

/-- ANGLE_LO_READ (R36): a 64-bit read is both halves of one fabric cycle. -/
def execAngleLoRead (i : Init) (wide : Bool) (s : State) : Host.Outcome State Fault Refusal :=
  let t := submitRead s i (reg pLAC 0x08C)
  finishClock s (if wide then submitRead t i (reg pLAC 0x090) else t)

/-- ANGLE_HI_READ (R36). -/
def execAngleHiRead (i : Init) (s : State) : Host.Outcome State Fault Refusal :=
  finishClock s (submitRead s i (reg pLAC 0x090))

/-- AET_WORD0_STAGE (R53, R351). -/
def execAetWord0Stage (i : Init) (n : Fin 512) (v : Word) (s : State) : Host.Outcome State Fault Refusal :=
  finishClock s (submitWrite s i (aetAddr n.val 0) v)

/-- AET_ENTRY_COMMIT (R53, R54). -/
def execAetEntryCommit (i : Init) (n : Fin 512) (v : Word) (s : State) : Host.Outcome State Fault Refusal :=
  finishClock s (submitWrite s i (aetAddr n.val 1) v)

/-- LAC_CTRL_WRITE (R44). -/
def execLacCtrlWrite (i : Init) (v : Word) (s : State) : Host.Outcome State Fault Refusal :=
  finishClock s (submitWrite s i (reg pLAC 0x080) v)

/-- LAC_NET_SESSION_WRITE (R44). -/
def execLacNetSessionWrite (i : Init) (v : Word) (s : State) : Host.Outcome State Fault Refusal :=
  finishClock s (submitWrite s i (reg pLAC 0x0AC) v)

/-- SYNC_PULSE (R42): an edge on ANG_SYNC_IN. -/
def execSyncPulse (rising : Bool) (s : State) : Host.Outcome State Fault Refusal := finishClock s (syncEdge s rising)

/-- SYNC_MISSING (R42). -/
def execSyncMissing (s : State) : Host.Outcome State Fault Refusal := finishClock s (syncLost s)

/-- NETREF_LOST (R43). -/
def execNetrefLost (s : State) : Host.Outcome State Fault Refusal := finishClock s (netLost s)

/-- REFERENCE_INVALID (R41): the voltage reference is found invalid by what the tracker has measured last of it. -/
def execReferenceInvalid (s : State) : Host.Outcome State Fault Refusal := finishClock s (voltInvalid s)

/-- REFERENCE_VALID (R41, R44): what a reference shows that has recovered, the least magnitude of its last whole cycle. -/
def execReferenceValid (x : RefSeen) (s : State) : Host.Outcome State Fault Refusal := finishClock s (referenceValid s x)

/-- TRACKER_CONVERGED (R44, R48): the reference stands at an angle with a frequency in mHz. -/
def execTrackerConverged (refAngle : BitVec 16) (freq : Nat) (s : State) : Host.Outcome State Fault Refusal :=
  finishClock s (trackerLocks s refAngle.toNat freq)

/-- ACQUIRE_TIMEOUT (R44). -/
def execAcquireTimeout (s : State) : Host.Outcome State Fault Refusal := finishClock s (acquireFail s)

/-- FLY_LIMIT (R44). -/
def execFlyLimit (s : State) : Host.Outcome State Fault Refusal := finishClock s (flyEnd s)

/-- CORRECTION_CYCLE_END (R48). -/
def execCorrectionCycleEnd (s : State) : Host.Outcome State Fault Refusal := finishClock s (corrCycleEnd s)

/-- PPS_IN (R381): the edge is timestamped for the runtime. -/
def execPpsIn (s : State) : Host.Outcome State Fault Refusal :=
  finish s { s with pins := { s.pins with ppsAt := some (count s) } }

/-- PPS_OUT_END (R381). -/
def execPpsOutEnd (s : State) : Host.Outcome State Fault Refusal := finish s (ppsFall s)

end Sys2Proof.Machine
end

