-- ==== Sys2Proof/Machine/ExecLane.lean ====
section
/-!
DEFINITION. The meanings of Loom's instructions (R93–R99): each acts on the lane that executes its segment, and leaves a lane that
executes none as it is.
-/

namespace Sys2Proof.Machine

/-- NOP (R94). -/
def execLmNop (l : LaneNo) (s : State) : Host.Outcome State Fault Refusal := finish s (onLane s l id)

/-- END (R94): the segment's results are recorded. -/
def execLmEnd (l : LaneNo) (s : State) : Host.Outcome State Fault Refusal := finish s (segEnd s l)

/-- LDP (R94, R93): the point's value in the scan's image, converted to type T. -/
def execLmLdp (l : LaneNo) (t : Ty) (d : Wr) (x : BitVec 16) (s : State) : Host.Outcome State Fault Refusal :=
  finish s (onLane s l fun la =>
    let v := imageOf s la x.toNat
    la.res2 d (conv v.ty t v.val))

/-- LDQ (R94). -/
def execLmLdq (l : LaneNo) (d : Wr) (x : BitVec 16) (s : State) : Host.Outcome State Fault Refusal :=
  finish s (onLane s l fun la => la.set d (w32 (imageOf s la x.toNat).qual))

/-- LDST (R63). -/
def execLmLdst (l : LaneNo) (d : Wr) (x : BitVec 16) (s : State) : Host.Outcome State Fault Refusal :=
  finish s (onLane s l fun la => la.set d (stationStat s la x.toNat))

/-- STP (R95). -/
def execLmStp (l : LaneNo) (t : Ty) (d : Wr) (x : BitVec 16) (s : State) : Host.Outcome State Fault Refusal :=
  finish s (onLane s l fun la => stageOut s la t x.toNat (la.get d))

/-- STPC (R94): as STP when CF is 1, but that it sets no flag. -/
def execLmStpc (l : LaneNo) (t : Ty) (d : Wr) (x : BitVec 16) (s : State) : Host.Outcome State Fault Refusal :=
  finish s (onLane s l fun la =>
    if la.cf then stageVal la x.toNat (conv t (outType s x.toNat) (la.get d)).1 else la)

/-- RLS (R95). -/
def execLmRls (l : LaneNo) (x : BitVec 16) (s : State) : Host.Outcome State Fault Refusal :=
  finish s (onLane s l fun la => { la with res := { la.res with outs := ins la.res.outs x.toNat .relinquish } })

/-- LDS (R94). -/
def execLmLds (l : LaneNo) (d : Wr) (x : BitVec 16) (s : State) : Host.Outcome State Fault Refusal :=
  finish s (onLane s l fun la => la.set d (readWord s la (stateWord s la x.toNat)))

/-- STS (R94). -/
def execLmSts (l : LaneNo) (d : Wr) (x : BitVec 16) (s : State) : Host.Outcome State Fault Refusal :=
  finish s (onLane s l fun la => stageWord s la x.toNat (la.get d))

/-- LDI (R94). -/
def execLmLdi (l : LaneNo) (t : Ty) (d : Wr) (imm : BitVec 16) (s : State) : Host.Outcome State Fault Refusal :=
  finish s (onLane s l fun la => la.set d (immOf t imm))

/-- LDIH (R94): the low half is kept. -/
def execLmLdih (l : LaneNo) (d : Wr) (imm : BitVec 16) (s : State) : Host.Outcome State Fault Refusal :=
  finish s (onLane s l fun la => la.set d (setFld (la.get d) 16 16 imm.toNat))

/-- MOV (R94). -/
def execLmMov (l : LaneNo) (d a : Wr) (s : State) : Host.Outcome State Fault Refusal :=
  finish s (onLane s l fun la => la.set d (la.get a))

/-- SEL (R94). -/
def execLmSel (l : LaneNo) (d a b x : Wr) (s : State) : Host.Outcome State Fault Refusal :=
  finish s (onLane s l fun la => la.set d (if la.get x ≠ 0 then la.get a else la.get b))

/-- CVT (R93). -/
def execLmCvt (l : LaneNo) (t : Ty) (d a : Wr) (src : Ty) (s : State) : Host.Outcome State Fault Refusal :=
  finish s (onLane s l fun la => la.res2 d (conv src t (la.get a)))

/-- ADD (R94). -/
def execLmAdd (l : LaneNo) (t : Ty) (d a b : Wr) (s : State) : Host.Outcome State Fault Refusal :=
  finish s (onLane s l fun la => la.res2 d (opAdd t (la.get a) (la.get b)))

/-- SUB (R94). -/
def execLmSub (l : LaneNo) (t : Ty) (d a b : Wr) (s : State) : Host.Outcome State Fault Refusal :=
  finish s (onLane s l fun la => la.res2 d (opSub t (la.get a) (la.get b)))

/-- MUL (R94). -/
def execLmMul (l : LaneNo) (t : Ty) (d a b : Wr) (s : State) : Host.Outcome State Fault Refusal :=
  finish s (onLane s l fun la => la.res2 d (opMul t (la.get a) (la.get b)))

/-- DIV (R93): the quotient of BOOL by zero is a free value (log 4). -/
def execLmDiv (l : LaneNo) (t : Ty) (d a b : Wr) (s : State) : Host.Outcome State Fault Refusal :=
  finish s
    (if t = .bool ∧ (lane s l).get b = 0 then onLaneFree s l fun la fr => la.res2 d (opDiv fr t (la.get a) (la.get b))
     else onLane s l fun la => la.res2 d (opDiv 0 t (la.get a) (la.get b)))

/-- MOD (R94): the INT32 remainder. -/
def execLmMod (l : LaneNo) (d a b : Wr) (s : State) : Host.Outcome State Fault Refusal :=
  finish s (onLane s l fun la => la.res2 d (opMod (la.get a) (la.get b)))

/-- NEG (R94). -/
def execLmNeg (l : LaneNo) (t : Ty) (d a : Wr) (s : State) : Host.Outcome State Fault Refusal :=
  finish s (onLane s l fun la => la.res2 d (opNeg t (la.get a)))

/-- ABS (R94). -/
def execLmAbs (l : LaneNo) (t : Ty) (d a : Wr) (s : State) : Host.Outcome State Fault Refusal :=
  finish s (onLane s l fun la => la.res2 d (opAbs t (la.get a)))

/-- MIN (R94). -/
def execLmMin (l : LaneNo) (t : Ty) (d a b : Wr) (s : State) : Host.Outcome State Fault Refusal :=
  finish s (onLane s l fun la => la.res2 d (opMin t (la.get a) (la.get b)))

/-- MAX (R94). -/
def execLmMax (l : LaneNo) (t : Ty) (d a b : Wr) (s : State) : Host.Outcome State Fault Refusal :=
  finish s (onLane s l fun la => la.res2 d (opMax t (la.get a) (la.get b)))

/-- The sum of ADDI (R94): the immediate is added as a raw pattern; BOOL keeps 0 or 1 (log 27). -/
def addImm (t : Ty) (w : Word) (imm : BitVec 16) : Res :=
  match t with
  | .bool => boolRes (sw w + imm.toInt)
  | _ => satI (sw w + imm.toInt)

/-- ADDI (R94): what a raw pattern adds to a FLOAT32 the spec does not state, a free value (log 4). -/
def execLmAddi (l : LaneNo) (t : Ty) (d : Wr) (imm : BitVec 16) (s : State) : Host.Outcome State Fault Refusal :=
  finish s
    (if t = .float32 then onLaneFree s l fun la fr => la.set d fr
     else onLane s l fun la => la.res2 d (addImm t (la.get d) imm))

/-- A comparison into WD and CF (R94). -/
def relOp (r : Rel) (t : Ty) (d a b : Wr) (la : Lane) : Lane :=
  let o := opRel r t (la.get a) (la.get b)
  ({ la with cf := o.1 }.set d (w32 (b2n o.1))).flag o.2

/-- CEQ (R94). -/
def execLmCeq (l : LaneNo) (t : Ty) (d a b : Wr) (s : State) : Host.Outcome State Fault Refusal :=
  finish s (onLane s l (relOp .eq t d a b))

/-- CNE (R94). -/
def execLmCne (l : LaneNo) (t : Ty) (d a b : Wr) (s : State) : Host.Outcome State Fault Refusal :=
  finish s (onLane s l (relOp .ne t d a b))

/-- CLT (R94). -/
def execLmClt (l : LaneNo) (t : Ty) (d a b : Wr) (s : State) : Host.Outcome State Fault Refusal :=
  finish s (onLane s l (relOp .lt t d a b))

/-- CLE (R94). -/
def execLmCle (l : LaneNo) (t : Ty) (d a b : Wr) (s : State) : Host.Outcome State Fault Refusal :=
  finish s (onLane s l (relOp .le t d a b))

/-- CGT (R94). -/
def execLmCgt (l : LaneNo) (t : Ty) (d a b : Wr) (s : State) : Host.Outcome State Fault Refusal :=
  finish s (onLane s l (relOp .gt t d a b))

/-- CGE (R94). -/
def execLmCge (l : LaneNo) (t : Ty) (d a b : Wr) (s : State) : Host.Outcome State Fault Refusal :=
  finish s (onLane s l (relOp .ge t d a b))

/-- AND (R94), bitwise on the patterns; a BOOL result other than 0 is stored as 1 (R93, log 27). -/
def execLmAnd (l : LaneNo) (t : Ty) (d a b : Wr) (s : State) : Host.Outcome State Fault Refusal :=
  finish s (onLane s l fun la => la.set d (storeT t (la.get a &&& la.get b)))

/-- OR (R94). -/
def execLmOr (l : LaneNo) (t : Ty) (d a b : Wr) (s : State) : Host.Outcome State Fault Refusal :=
  finish s (onLane s l fun la => la.set d (storeT t (la.get a ||| la.get b)))

/-- XOR (R94). -/
def execLmXor (l : LaneNo) (t : Ty) (d a b : Wr) (s : State) : Host.Outcome State Fault Refusal :=
  finish s (onLane s l fun la => la.set d (storeT t (la.get a ^^^ la.get b)))

/-- NOT (R94). -/
def execLmNot (l : LaneNo) (t : Ty) (d a : Wr) (s : State) : Host.Outcome State Fault Refusal :=
  finish s (onLane s l fun la => la.set d (opNot t (la.get a)))

/-- SHL (R94). -/
def execLmShl (l : LaneNo) (t : Ty) (d a b : Wr) (s : State) : Host.Outcome State Fault Refusal :=
  finish s (onLane s l fun la => la.set d (storeT t (opShl (la.get a) (la.get b))))

/-- SHR (R94). -/
def execLmShr (l : LaneNo) (t : Ty) (d a b : Wr) (s : State) : Host.Outcome State Fault Refusal :=
  finish s (onLane s l fun la => la.set d (storeT t (opShr t (la.get a) (la.get b))))

/-- BTST (R94). -/
def execLmBtst (l : LaneNo) (d a : Wr) (x : BitVec 5) (s : State) : Host.Outcome State Fault Refusal :=
  finish s (onLane s l fun la =>
    let v := bit (la.get a) x.toNat
    { la with cf := v }.set d (w32 (b2n v)))

/-- ANDI (R94): the immediate is zero-extended. -/
def execLmAndi (l : LaneNo) (t : Ty) (d : Wr) (imm : BitVec 16) (s : State) : Host.Outcome State Fault Refusal :=
  finish s (onLane s l fun la => la.set d (storeT t (la.get d &&& imm.setWidth 32)))

/-- ORI (R94): the immediate is zero-extended. -/
def execLmOri (l : LaneNo) (t : Ty) (d : Wr) (imm : BitVec 16) (s : State) : Host.Outcome State Fault Refusal :=
  finish s (onLane s l fun la => la.set d (storeT t (la.get d ||| imm.setWidth 32)))

/-- LIM (R94). -/
def execLmLim (l : LaneNo) (t : Ty) (d a b x : Wr) (s : State) : Host.Outcome State Fault Refusal :=
  finish s (onLane s l fun la => la.res2 d (opLim t (la.get a) (la.get b) (la.get x)))

/-- SCL (R94). -/
def execLmScl (l : LaneNo) (t : Ty) (d a b x : Wr) (s : State) : Host.Outcome State Fault Refusal :=
  finish s (onLane s l fun la => la.res2 d (opScl t (la.get a) (la.get b) (la.get x)))

/-- INTP (R94). -/
def execLmIntp (l : LaneNo) (t : Ty) (d : Wr) (x : BitVec 16) (s : State) : Host.Outcome State Fault Refusal :=
  finish s (onLaneFree s l fun la fr => intpOp s t d x.toNat la fr)

/-- TON (R97). -/
def execLmTon (l : LaneNo) (d a : Wr) (inst : BitVec 14) (s : State) : Host.Outcome State Fault Refusal :=
  finish s (onLane s l (timerOp s tonRule d a inst.toNat))

/-- TOF (R97). -/
def execLmTof (l : LaneNo) (d a : Wr) (inst : BitVec 14) (s : State) : Host.Outcome State Fault Refusal :=
  finish s (onLane s l (timerOp s tofRule d a inst.toNat))

/-- TP (R97). -/
def execLmTp (l : LaneNo) (d a : Wr) (inst : BitVec 14) (s : State) : Host.Outcome State Fault Refusal :=
  finish s (onLane s l (timerOp s tpRule d a inst.toNat))

/-- CTU (R98). -/
def execLmCtu (l : LaneNo) (d a : Wr) (inst : BitVec 14) (s : State) : Host.Outcome State Fault Refusal :=
  finish s (onLane s l (counterOp s ctuRule d a inst.toNat))

/-- CTD (R98). -/
def execLmCtd (l : LaneNo) (d a : Wr) (inst : BitVec 14) (s : State) : Host.Outcome State Fault Refusal :=
  finish s (onLane s l (counterOp s ctdRule d a inst.toNat))

/-- RTRIG (R99). -/
def execLmRtrig (l : LaneNo) (d a : Wr) (inst : BitVec 14) (s : State) : Host.Outcome State Fault Refusal :=
  finish s (onLane s l (edgeOp s true d a inst.toNat))

/-- FTRIG (R99). -/
def execLmFtrig (l : LaneNo) (d a : Wr) (inst : BitVec 14) (s : State) : Host.Outcome State Fault Refusal :=
  finish s (onLane s l (edgeOp s false d a inst.toNat))

/-- LSPW (R94). -/
def execLmLspw (l : LaneNo) (d : Wr) (x : BitVec 16) (s : State) : Host.Outcome State Fault Refusal :=
  finish s (onLane s l fun la => { la with res := { la.res with sps := ins la.res.sps x.toNat (la.get d) } })

/-- LSTR (R94). -/
def execLmLstr (l : LaneNo) (d : Wr) (x : BitVec 16) (s : State) : Host.Outcome State Fault Refusal :=
  finish s (onLane s l fun la => la.set d (loopWord s la (2 * x.toNat)))

/-- LOUT (R94). -/
def execLmLout (l : LaneNo) (d : Wr) (x : BitVec 16) (s : State) : Host.Outcome State Fault Refusal :=
  finish s (onLane s l fun la => la.set d (loopWord s la (2 * x.toNat + 1)))

/-- EMIT (R95). -/
def execLmEmit (l : LaneNo) (d : Wr) (imm : BitVec 16) (s : State) : Host.Outcome State Fault Refusal :=
  finish s (onLane s l fun la => emitOp s imm.toNat (la.get d) la)

/-- RDF (R94, R96). -/
def execLmRdf (l : LaneNo) (d : Wr) (s : State) : Host.Outcome State Fault Refusal :=
  finish s (onLane s l fun la => la.set d (w32 la.fl))

/-- CLF (R94). -/
def execLmClf (l : LaneNo) (s : State) : Host.Outcome State Fault Refusal :=
  finish s (onLane s l fun la => { la with fl := 0 })

end Sys2Proof.Machine
end

