-- ==== Sys2Proof/Machine/ExecLoop.lean ====
section
/-!
DEFINITION. The meanings of the commands of the loop engine (R112–R132).
-/

namespace Sys2Proof.Machine

/-- LOOP_SAMPLE (R112, R113, R118). -/
def execLoopSample (n : Fin 256) (pos : Nat) (s : State) : Host.Outcome State Fault Refusal :=
  finishClock s (budgetSettle s (loopSampleOp s n.val pos))

/-- LOOP_COMPUTATION (R119–R128). -/
def execLoopComputation (n : Fin 256) (s : State) : Host.Outcome State Fault Refusal :=
  finish s (loopCompute s n.val)

/-- LOOP_OUTPUT (R114, R118, R129). -/
def execLoopOutput (n : Fin 256) (pos : Nat) (s : State) : Host.Outcome State Fault Refusal :=
  finishClock s (budgetSettle s (loopOutputOp s n.val pos))

/-- LOOP_CTRL_WRITE (R117, R123–R125): a write to a loop's CTRL. -/
def execLoopCtrlWrite (i : Init) (n : Fin 256) (v : Word) (s : State) : Host.Outcome State Fault Refusal :=
  finishClock s (submitWrite s i (loopA n.val 0) v)

/-- LOOP_SP_WRITE (R127). -/
def execLoopSpWrite (i : Init) (n : Fin 256) (v : Word) (s : State) : Host.Outcome State Fault Refusal :=
  finishClock s (submitWrite s i (loopA n.val 0x24) v)

end Sys2Proof.Machine
end

