-- ==== Sys2Proof/Machine/ExecMode.lean ====
section
/-!
DEFINITION. The meanings of the commands of the modes, start-up, resets and the field update (R323–R346, R377–R379).
-/

namespace Sys2Proof.Machine

/-- MODE_WRITE (R324): a write to MOD.MODE. -/
def execModeWrite (i : Init) (v : Word) (s : State) : Host.Outcome State Fault Refusal :=
  finishClock s (submitWrite s i (reg pMOD 0x080) v)

/-- SEALED_WRITE (R335): MOD.CMD = EXEC_SIGNED; the TYPE of the block decides. -/
def execSealedWrite (i : Init) (s : State) : Host.Outcome State Fault Refusal :=
  finishClock s (submitWrite s i (reg pMOD 0x090) 1)

/-- UNSEAL (R335): MOD.CMD = EXEC_SIGNED; the TYPE of the block decides. -/
def execUnsealCmd (i : Init) (s : State) : Host.Outcome State Fault Refusal :=
  finishClock s (submitWrite s i (reg pMOD 0x090) 1)

/-- UNLOCK (R335): MOD.CMD = EXEC_SIGNED; the TYPE of the block decides. -/
def execUnlock (i : Init) (s : State) : Host.Outcome State Fault Refusal :=
  finishClock s (submitWrite s i (reg pMOD 0x090) 1)

/-- PROT_LOCK (R340). -/
def execProtLock (i : Init) (s : State) : Host.Outcome State Fault Refusal :=
  finishClock s (submitWrite s i (reg pPROT 0x080) 1)

/-- FPT_GO (R106): a write to PROT.FPT. -/
def execFptGo (i : Init) (v : Word) (s : State) : Host.Outcome State Fault Refusal :=
  finishClock s (submitWrite s i (reg pPROT 0x09C) v)

/-- RESET_N_LOW (R377, R379). -/
def execResetNLow (s : State) : Host.Outcome State Fault Refusal := finishReset s (resetLowOp s)

/-- START_UP (R310, R337–R340): a step, 1–9, completes or fails. -/
def execStartUp (step : Fin 9) (x : StartUp) (s : State) : Host.Outcome State Fault Refusal :=
  finishClock s (freezeRetired s (startUpOp s (step.val + 1) x))

/-- VHOLD_EXHAUSTED (R378). -/
def execVholdExhausted (s : State) : Host.Outcome State Fault Refusal := finishReset s (vholdOp s)

/-- PFW_RESET_DEFERRED (R379). -/
def execPfwResetDeferred (s : State) : Host.Outcome State Fault Refusal := finishReset s (resetDeferredOp s)

/-- UPD_TAKE_LEASE (R343). -/
def execUpdTakeLease (i : Init) (s : State) : Host.Outcome State Fault Refusal :=
  finishClock s (submitWrite s i (reg pUPD 0x084) 1)

/-- UPD_RENEW (R343). -/
def execUpdRenew (i : Init) (s : State) : Host.Outcome State Fault Refusal :=
  finishClock s (submitWrite s i (reg pUPD 0x084) 2)

/-- UPD_RELEASE (R343). -/
def execUpdRelease (i : Init) (s : State) : Host.Outcome State Fault Refusal :=
  finishClock s (submitWrite s i (reg pUPD 0x084) 3)

/-- UPD_SUBMIT (R342, R345). -/
def execUpdSubmit (i : Init) (s : State) : Host.Outcome State Fault Refusal :=
  finishClock s (submitWrite s i (reg pUPD 0x084) 4)

/-- UPD_CANCEL (R342). -/
def execUpdCancel (i : Init) (s : State) : Host.Outcome State Fault Refusal :=
  finishClock s (submitWrite s i (reg pUPD 0x084) 5)

/-- UPD_CONFIRM (R342). -/
def execUpdConfirm (i : Init) (s : State) : Host.Outcome State Fault Refusal :=
  finishClock s (submitWrite s i (reg pUPD 0x084) 6)

/-- UPD_FAIL (R345). -/
def execUpdFail (i : Init) (s : State) : Host.Outcome State Fault Refusal :=
  finishClock s (submitWrite s i (reg pUPD 0x084) 7)

/-- PATCH_BUILD_DONE (R342). -/
def execPatchBuildDone (nandOk : Bool) (s : State) : Host.Outcome State Fault Refusal := finish s (buildDone s nandOk)

/-- LEASE_EXPIRY (R343). -/
def execLeaseExpiry (s : State) : Host.Outcome State Fault Refusal := finish s (leaseExpire s)

/-- ACT_TIME_REACHED (R344). -/
def execActTimeReached (s : State) : Host.Outcome State Fault Refusal := finish s (actTimeOp s)

/-- CHECK_TIMEOUT (R342, R345): CHECK_S has passed in CHECKING. -/
def execCheckTimeout (s : State) : Host.Outcome State Fault Refusal := finishGuard s (checkLate s)

end Sys2Proof.Machine
end

