-- ==== Sys2Proof/Machine/ExecOpx.lean ====
section
/-!
DEFINITION. The meanings of the commands of the point exchange (R223–R238): a message row takes up the message that a session's
slot and sequence number name.
-/

namespace Sys2Proof.Machine

/-- A message of a type and an operation byte enters the session service. -/
def submitMsgOp (s : State) (ty op : Nat) (n sq : Nat) : State :=
  if s.opx.inbox.any fun m => m.slot == n && m.sq == sq && beAt m.body 0 1 == op then submitMsg s (· == ty) n sq else s

/-- The operation byte of a message in a session's inbox is none of the given ones. -/
def submitMsgElse (s : State) (ty : Nat) (ops : List Nat) (n sq : Nat) : State :=
  if s.opx.inbox.any fun m => m.slot == n && m.sq == sq && !ops.contains (beAt m.body 0 1) then
    submitMsg s (· == ty) n sq
  else s

/-- OPX_FRAME_TAKE (R224–R227, R232, R236). -/
def execOpxFrameTake (port : Fin 18) (s : State) : Host.Outcome State Fault Refusal :=
  finish s (refuseTypes (opxTake s port.val))

/-- REASSEMBLY_TIMEOUT (R227). -/
def execReassemblyTimeout (slot : Fin 2048) (sq : Word) (s : State) : Host.Outcome State Fault Refusal :=
  finish s (reasmTimeout s slot.val sq.toNat)

/-- INPUT_IMAGE (R62, R189, R232); a station that was STALE is sent its output slot (R80). -/
def execInputImage (slot : Fin 2048) (sq : Word) (s : State) : Host.Outcome State Fault Refusal :=
  finishClock s (submitMsg s (· == 1) slot.val sq.toNat)

/-- POINT_READ (R232). -/
def execPointRead (slot : Fin 2048) (sq : Word) (s : State) : Host.Outcome State Fault Refusal :=
  finishClock s (submitMsg s (· == 3) slot.val sq.toNat)

/-- POINT_WRITE (R232). -/
def execPointWrite (slot : Fin 2048) (sq : Word) (s : State) : Host.Outcome State Fault Refusal :=
  finishClock s (submitMsg s (· == 4) slot.val sq.toNat)

/-- REG_WINDOW_READ (R232): op 0, and every op that is not a write, which is refused as malformed. -/
def execRegWindowRead (slot : Fin 2048) (sq : Word) (s : State) : Host.Outcome State Fault Refusal :=
  finishClock s (submitMsgElse s 6 [1] slot.val sq.toNat)

/-- REG_WINDOW_WRITE (R232): op 1. -/
def execRegWindowWrite (slot : Fin 2048) (sq : Word) (s : State) : Host.Outcome State Fault Refusal :=
  finishClock s (submitMsgOp s 6 1 slot.val sq.toNat)

/-- SOLVE_DATA (R232). -/
def execSolveData (slot : Fin 2048) (sq : Word) (s : State) : Host.Outcome State Fault Refusal :=
  finishClock s (submitMsg s (· == 9) slot.val sq.toNat)

/-- UPDATE_CHUNK (R343). -/
def execUpdateChunk (slot : Fin 2048) (sq : Word) (s : State) : Host.Outcome State Fault Refusal :=
  finishClock s (submitMsg s (· == 0xA) slot.val sq.toNat)

/-- STATUS (R233). -/
def execStatus (slot : Fin 2048) (sq : Word) (s : State) : Host.Outcome State Fault Refusal :=
  finishClock s (submitMsg s (· == 0xB) slot.val sq.toNat)

/-- STATUS_PERIOD_SEND (R233). -/
def execStatusPeriodSend (s : State) : Host.Outcome State Fault Refusal := finish s (statusSend s)

/-- LEASE_TAKE (R343): op 1. -/
def execLeaseTake (slot : Fin 2048) (sq : Word) (s : State) : Host.Outcome State Fault Refusal :=
  finishClock s (submitMsgOp s 0xC 1 slot.val sq.toNat)

/-- LEASE_RENEW (R343): op 2. -/
def execLeaseRenew (slot : Fin 2048) (sq : Word) (s : State) : Host.Outcome State Fault Refusal :=
  finishClock s (submitMsgOp s 0xC 2 slot.val sq.toNat)

/-- LEASE_RELEASE (R343): op 3, and every op that does not exist, which is refused. -/
def execLeaseRelease (slot : Fin 2048) (sq : Word) (s : State) : Host.Outcome State Fault Refusal :=
  finishClock s (submitMsgElse s 0xC [1, 2] slot.val sq.toNat)

/-- OPEN (R228–R230). -/
def execOpenSession (port : Fin 18) (s : State) : Host.Outcome State Fault Refusal := finishGuard s (openDo s port.val)

/-- CLOSE (R231). -/
def execClose (slot : Fin 2048) (sq : Word) (s : State) : Host.Outcome State Fault Refusal :=
  finishClock s (submitMsg s (· == 0x12) slot.val sq.toNat)

/-- TIME_REF (R43, R46, R237). -/
def execTimeRef (slot : Fin 2048) (sq : Word) (s : State) : Host.Outcome State Fault Refusal :=
  finishClock s (submitMsg s (· == 8) slot.val sq.toNat)

/-- TIME_REF_SEND (R237). -/
def execTimeRefSend (s : State) : Host.Outcome State Fault Refusal := finishClock s (trefSend s)

/-- SESSION_IDLE_TIMEOUT (R231). -/
def execSessionIdleTimeout (slot : Fin 2048) (s : State) : Host.Outcome State Fault Refusal :=
  finishGuard s (closeSession s slot.val)

/-- SESS_CLOSE (R231): a write to OPX.SESS_CLOSE. -/
def execSessClose (i : Init) (v : Word) (s : State) : Host.Outcome State Fault Refusal :=
  finishClock s (submitWrite s i (reg pOPX 0x0A4) v)

end Sys2Proof.Machine
end

