-- ==== Sys2Proof/Machine/ExecPts.lean ====
section
/-!
DEFINITION. The meanings of the commands of the point store and the Daybook (R188–R207).
-/

namespace Sys2Proof.Machine

/-- A commanded write of a point as a request: the COMMAND word of R193. -/
def submitCommand (s : State) (i : Init) (p w : Nat) : State :=
  let a := 0x100000 + 128 * p + 0x78
  submitPlain s i.who (clsFor s i) (.command p w) (if i.who = .host then .host a true else .own i.who a)

/-- COMMANDED_WRITE (R193, R194). -/
def execCommandedWrite (i : Init) (p : BitVec 16) (v : Word) (level : BitVec 5) (s : State) :
    Host.Outcome State Fault Refusal :=
  finishClock s (submitCommand s i p.toNat (v.toNat + level.toNat * 2 ^ 32))

/-- SET_RELINQUISH (R193): bit 38. -/
def execSetRelinquish (i : Init) (p : BitVec 16) (v : Word) (s : State) : Host.Outcome State Fault Refusal :=
  finishClock s (submitCommand s i p.toNat (v.toNat + 2 ^ 38))

/-- RELINQUISH (R193): bit 39. -/
def execRelinquish (i : Init) (p : BitVec 16) (level : BitVec 5) (s : State) : Host.Outcome State Fault Refusal :=
  finishClock s (submitCommand s i p.toNat (level.toNat * 2 ^ 32 + 2 ^ 39))

/-- DEF_SEL (R199). -/
def execDefSel (i : Init) (v : Word) (s : State) : Host.Outcome State Fault Refusal :=
  finishClock s (submitWrite s i (reg pPTS 0x088) v)

/-- DEF_STAGE (R199, R351): DEF_EU, or DEF_RELQ. -/
def execDefStage (i : Init) (relq : Bool) (v : Word) (s : State) : Host.Outcome State Fault Refusal :=
  finishClock s (submitWrite s i (reg pPTS (if relq then 0x094 else 0x090)) v)

/-- DEF_CFG (R199). -/
def execDefCfg (i : Init) (v : Word) (s : State) : Host.Outcome State Fault Refusal :=
  finishClock s (submitWrite s i (reg pPTS 0x08C) v)

/-- DAYBOOK_ENTRY_WRITE (R201). -/
def execDayEntryWrite (s : State) : Host.Outcome State Fault Refusal := finish s (dayWrite s)

/-- DRAIN_SEQ_LO (R202). -/
def execDrainSeqLo (i : Init) (v : Word) (s : State) : Host.Outcome State Fault Refusal :=
  finishClock s (submitWrite s i (reg pDAYB 0x094) v)

/-- DRAIN_SEQ_HI (R202). -/
def execDrainSeqHi (i : Init) (v : Word) (s : State) : Host.Outcome State Fault Refusal :=
  finishClock s (submitWrite s i (reg pDAYB 0x098) v)

end Sys2Proof.Machine
end

