-- ==== Sys2Proof/Machine/ExecReg.lean ====
section
/-!
DEFINITION. The meanings of register accesses without a row of their own and of TOLL's events (R6, R7, R14–R32).
-/

namespace Sys2Proof.Machine

/-- REGISTER_WRITE (R6, R350): a write with partial byte enables is none. -/
def execRegisterWrite (i : Init) (addr : BitVec 20) (be : BitVec 4) (v : Word) (s : State) :
    Host.Outcome State Fault Refusal :=
  let a := addr.toNat
  finishClock s
    (if be = 0xF then submitWrite s i a v
     else submitPlain s i.who (clsFor s i) (.regWritePart a)
       (if i.who = .host then .host a true else .own i.who a))

/-- RC_READ (R7, R334). -/
def execRcRead (i : Init) (addr : BitVec 20) (s : State) : Host.Outcome State Fault Refusal :=
  finishClock s (submitRead s i addr.toNat)

/-- ACCOUNTING_WINDOW_START (R14): the count reaches a window start. -/
def execAccountingWindowStart (pos : Nat) (s : State) : Host.Outcome State Fault Refusal :=
  finishClock s (windowOp s pos)

/-- REQUEST_GRANT (R16, R19–R21). -/
def execRequestGrant (res : Fin 9) (s : State) : Host.Outcome State Fault Refusal :=
  finishClock s (grantOp s res.val)

/-- DELAY_BUDGET_EXPIRY (R24). -/
def execDelayBudgetExpiry (res : Fin 9) (s : State) : Host.Outcome State Fault Refusal :=
  finishClock s (budgetExpiry s res.val)

end Sys2Proof.Machine
end

