-- ==== Sys2Proof/Machine/ExecScan.lean ====
section
/-!
DEFINITION. The meanings of the commands of Loom's engine, its program banks and its forces (R58–R111), and the start of a
segment on a lane.
-/

namespace Sys2Proof.Machine

/-- SCAN_RUN (R81): SCAN.CMD = RUN. -/
def execScanRun (i : Init) (s : State) : Host.Outcome State Fault Refusal :=
  finishClock s (submitWrite s i (reg pSCAN 0x08C) 1)

/-- SCAN_STOP (R81): SCAN.CMD = STOP. -/
def execScanStop (i : Init) (s : State) : Host.Outcome State Fault Refusal :=
  finishClock s (submitWrite s i (reg pSCAN 0x08C) 2)

/-- SCANDBG_HOLD (R81). -/
def execScandbgHold (i : Init) (s : State) : Host.Outcome State Fault Refusal :=
  finishClock s (submitWrite s i (reg pSCANDBG 0x080) 1)

/-- SCANDBG_RESUME (R85). -/
def execScandbgResume (i : Init) (s : State) : Host.Outcome State Fault Refusal :=
  finishClock s (submitWrite s i (reg pSCANDBG 0x080) 2)

/-- SCANDBG_STEP_SEG (R81). -/
def execScandbgStepSeg (i : Init) (s : State) : Host.Outcome State Fault Refusal :=
  finishClock s (submitWrite s i (reg pSCANDBG 0x080) 3)

/-- SCANDBG_STEP_SCAN (R81). -/
def execScandbgStepScan (i : Init) (s : State) : Host.Outcome State Fault Refusal :=
  finishClock s (submitWrite s i (reg pSCANDBG 0x080) 4)

/-- SEGMENT_START (R71, R92). -/
def execSegmentStart (l : LaneNo) (depth : Fin 3) (seg : BitVec 14) (s : State) : Host.Outcome State Fault Refusal :=
  finish s (segmentStartOp s l depth.val seg.toNat)

/-- PGMX_LOAD (R100). -/
def execPgmxLoad (i : Init) (s : State) : Host.Outcome State Fault Refusal :=
  finishClock s (submitWrite s i (reg pPGMX 0x084) 1)

/-- PGMX_COPY_DONE (R101). -/
def execPgmxCopyDone (s : State) : Host.Outcome State Fault Refusal := finishGuard s (budgetSettle s (pgmxCopied s))

/-- PGMX_VERIFY_DONE (R91, R101). -/
def execPgmxVerifyDone (s : State) : Host.Outcome State Fault Refusal := finish s (pgmxVerified s)

/-- PGMX_SWITCH (R102). -/
def execPgmxSwitch (i : Init) (s : State) : Host.Outcome State Fault Refusal :=
  finishClock s (submitWrite s i (reg pPGMX 0x084) 2)

/-- PGMX_CANCEL (R102). -/
def execPgmxCancel (i : Init) (s : State) : Host.Outcome State Fault Refusal :=
  finishClock s (submitWrite s i (reg pPGMX 0x084) 3)

/-- PROGRAM_SWITCH (R102–R105). -/
def execProgramSwitch (s : State) : Host.Outcome State Fault Refusal := finishGuard s (budgetSettle s (programSwitchOp s))

/-- FORCE_WORD0_STAGE (R111, R351). -/
def execForceWord0Stage (i : Init) (n : Fin 256) (v : Word) (s : State) : Host.Outcome State Fault Refusal :=
  finishClock s (submitWrite s i (forceAddr n.val 0) v)

/-- FORCE_ENTRY_COMMIT (R106, R111). -/
def execForceEntryCommit (i : Init) (n : Fin 256) (v : Word) (s : State) : Host.Outcome State Fault Refusal :=
  finishClock s (submitWrite s i (forceAddr n.val 1) v)

end Sys2Proof.Machine
end

