-- ==== Sys2Proof/Machine/ExecSgn.lean ====
section
/-!
DEFINITION. The meanings of the commands of Signwright, the display driver (R265–R276).
-/

namespace Sys2Proof.Machine

/-- FRAME_START (R267, R269, R270). -/
def execFrameStart (s : State) : Host.Outcome State Fault Refusal :=
  finishGuard s (budgetSettle s (frameStartOp s))

/-- FRAME_END (R271–R275). -/
def execFrameEnd (s : State) : Host.Outcome State Fault Refusal := finish s (frameEndOp s)

/-- EPD_PGOOD_RISE (R267, R275). -/
def execEpdPgoodRise (s : State) : Host.Outcome State Fault Refusal := finish s (pgoodRise s)

/-- PGOOD_TIMEOUT (R267). -/
def execPgoodTimeout (s : State) : Host.Outcome State Fault Refusal := finish s (pgoodLate s)

/-- PGOOD_LOST (R267). -/
def execPgoodLost (s : State) : Host.Outcome State Fault Refusal := finish s (pgoodFall s)

/-- PANEL_POWER_OFF (R267). -/
def execPanelPowerOff (s : State) : Host.Outcome State Fault Refusal := finish s (panelOff s)

/-- TEMPERATURE_READ (R268): a reading in 1/256 °C, or none. -/
def execTemperatureRead (t : Option Int) (s : State) : Host.Outcome State Fault Refusal := finish s (tempRead s t)

/-- REGION_STAGE (R272, R351). -/
def execRegionStage (i : Init) (r : Fin 32) (w : Fin 6) (v : Word) (s : State) : Host.Outcome State Fault Refusal :=
  finishClock s (submitWrite s i (rgA r.val (4 * w.val)) v)

/-- REGION_GO (R272): a write to a region's CTRL. -/
def execRegionGo (i : Init) (r : Fin 32) (v : Word) (s : State) : Host.Outcome State Fault Refusal :=
  finishClock s (submitWrite s i (rgA r.val 0x18) v)

/-- LOAD_LUT (R271). -/
def execLoadLut (i : Init) (s : State) : Host.Outcome State Fault Refusal :=
  finishClock s (submitWrite s i (reg pSGN 0x0A8) 1)

/-- BALANCE (R273). -/
def execBalance (i : Init) (s : State) : Host.Outcome State Fault Refusal :=
  finishClock s (submitWrite s i (reg pSGN 0x0A8) 2)

end Sys2Proof.Machine
end

