-- ==== Sys2Proof/Machine/ExecVault.lean ====
section
/-!
DEFINITION. The meanings of the commands of the vault: Locksmith, Watchman, the calendar and the backup domain
(R277–R299).
-/

namespace Sys2Proof.Machine

/-- LOCKSMITH_READY (R280). -/
def execLocksmithReady (s : State) : Host.Outcome State Fault Refusal := finishGuard s (lockReady s)

/-- REMASK (R280). -/
def execRemask (s : State) : Host.Outcome State Fault Refusal := finish s (remaskAll s)

/-- LOCK_STAGE (R281). -/
def execLockStage (i : Init) (s : State) : Host.Outcome State Fault Refusal :=
  finishClock s (submitWrite s i (reg pLOCK 0x090) 1)

/-- LOCK_COMMIT (R282). -/
def execLockCommit (i : Init) (s : State) : Host.Outcome State Fault Refusal :=
  finishClock s (submitWrite s i (reg pLOCK 0x090) 2)

/-- LOCK_CANCEL (R281). -/
def execLockCancel (i : Init) (s : State) : Host.Outcome State Fault Refusal :=
  finishClock s (submitWrite s i (reg pLOCK 0x090) 3)

/-- LOCK_ERASE (R281). -/
def execLockErase (i : Init) (s : State) : Host.Outcome State Fault Refusal :=
  finishClock s (submitWrite s i (reg pLOCK 0x090) 4)

/-- DERIVE (R283). -/
def execDerive (i : Init) (s : State) : Host.Outcome State Fault Refusal :=
  finishClock s (submitWrite s i (reg pLOCK 0x090) 5)

/-- ATTEST (R285). -/
def execAttest (i : Init) (s : State) : Host.Outcome State Fault Refusal :=
  finishClock s (submitWrite s i (reg pLOCK 0x090) 6)

/-- LC_OWN (R286). -/
def execLcOwn (i : Init) (s : State) : Host.Outcome State Fault Refusal :=
  finishClock s (submitWrite s i (reg pLOCK 0x090) 7)

/-- LC_RETIRE (R286). -/
def execLcRetire (i : Init) (s : State) : Host.Outcome State Fault Refusal :=
  finishClock s (submitWrite s i (reg pLOCK 0x090) 8)

/-- TAMPER_TRIP (R287–R290): the causes that stand at their trip condition. -/
def execTamperTrip (cause : BitVec 10) (s : State) : Host.Outcome State Fault Refusal :=
  finishGuard s (tamperTripOp s cause.toNat)

/-- BACKUP_POWER_ON (R278). -/
def execBackupPowerOn (s : State) : Host.Outcome State Fault Refusal := finish s (backupOnOp s)

/-- VBAK_LOW (R278). -/
def execVbakLow (s : State) : Host.Outcome State Fault Refusal := finish s (vbakLowOp s)

/-- SECOND_BOUNDARY (R293–R298). -/
def execSecondBoundary (s : State) : Host.Outcome State Fault Refusal := finish s (secondOp s)

/-- TRIM_CORRECTION (R292). -/
def execTrimCorrection (s : State) : Host.Outcome State Fault Refusal := finish s (trimTick s)

/-- CALENDAR_WRITE (R294). -/
def execCalendarWrite (i : Init) (f : Fin 7) (v : Word) (s : State) : Host.Outcome State Fault Refusal :=
  finishClock s (submitWrite s i (calReg f.val) v)

/-- CAL_SEC_READ (R295). -/
def execCalSecRead (i : Init) (s : State) : Host.Outcome State Fault Refusal :=
  finishClock s (submitRead s i (calReg 0))

/-- CAL_YEAR_READ (R295). -/
def execCalYearRead (i : Init) (s : State) : Host.Outcome State Fault Refusal :=
  finishClock s (submitRead s i (calReg 6))

/-- TORN_READ (R295). -/
def execTornRead (who : Who) (s : State) : Host.Outcome State Fault Refusal := finish s (tornRelease s who)

/-- WAKE_TIMER (R298). -/
def execWakeTimer (s : State) : Host.Outcome State Fault Refusal := finish s (wakeTimerOp s)

/-- PON_SET (R298). -/
def execPonSet (i : Init) (s : State) : Host.Outcome State Fault Refusal :=
  finishClock s (submitWrite s i (reg pBKP 0x088) 1)

/-- PON_RELEASE (R298). -/
def execPonRelease (i : Init) (s : State) : Host.Outcome State Fault Refusal :=
  finishClock s (submitWrite s i (reg pBKP 0x088) 2)

/-- CLEAR_LOST (R278). -/
def execClearLost (i : Init) (s : State) : Host.Outcome State Fault Refusal :=
  finishClock s (submitWrite s i (reg pBKP 0x088) 3)

/-- CLEAR_TAMPER (R291). -/
def execClearTamper (i : Init) (s : State) : Host.Outcome State Fault Refusal :=
  finishClock s (submitWrite s i (reg pBKP 0x088) 4)

end Sys2Proof.Machine
end

