-- ==== Sys2Proof/Machine/ExecWgh.lean ====
section
/-!
DEFINITION. The meanings of the commands of Weighhouse (R133–R160).
-/

namespace Sys2Proof.Machine

/-- CONVERTER_SAMPLE (R136–R140): a raw sample of each path. -/
def execConverterSample (ch : Fin 24) (x1 x32 : Int) (s : State) : Host.Outcome State Fault Refusal :=
  finish s (refSample (convSample s ch.val x1 x32) ch.val)

/-- RETURN_TO_X32 (R138). -/
def execReturnToX32 (ch : Fin 24) (s : State) : Host.Outcome State Fault Refusal := finish s (toX32 s ch.val)

/-- GRID_SAMPLE (R142, R143). -/
def execGridSample (pos : Nat) (s : State) : Host.Outcome State Fault Refusal := finishClock s (gridSampleOp s pos)

/-- SAMPLE_ACCUMULATE (R144, R151). -/
def execSampleAccumulate (s : State) : Host.Outcome State Fault Refusal := finish s (accumulate s)

/-- MEASURAND_PUBLISH (R144). -/
def execMeasurandPublish (s : State) : Host.Outcome State Fault Refusal := finishClock s (budgetSettle s (measurandOp s))

/-- DEMAND_INTERVAL_END (R153). -/
def execDemandIntervalEnd (s : State) : Host.Outcome State Fault Refusal := finish s (demandEnd s)

/-- SNAP (R155). -/
def execSnap (i : Init) (s : State) : Host.Outcome State Fault Refusal :=
  finishClock s (submitWrite s i (reg pWGHEN 0x080) 1)

/-- CLEAR_ENERGY (R156). -/
def execClearEnergy (i : Init) (s : State) : Host.Outcome State Fault Refusal :=
  finishClock s (submitWrite s i (reg pWGHEN 0x080) 2)

/-- CLEAR_MAXDEM (R156). -/
def execClearMaxdem (i : Init) (s : State) : Host.Outcome State Fault Refusal :=
  finishClock s (submitWrite s i (reg pWGHEN 0x080) 3)

/-- HSEL_WRITE (R147): a write to WGHPQ.CTRL. -/
def execHselWrite (i : Init) (v : Word) (s : State) : Host.Outcome State Fault Refusal :=
  finishClock s (submitWrite s i (reg pWGHPQ 0x084) v)

/-- CHECKPOINT_DONE (R157). -/
def execCheckpointDone (ok : Bool) (s : State) : Host.Outcome State Fault Refusal := finish s (ckptDone s ok)

/-- CHECKPOINT_RETRY (R157). -/
def execCheckpointRetry (s : State) : Host.Outcome State Fault Refusal := finish s (ckptRetry s)

/-- POWER_FAIL_TRIGGER (R158, R206, R274, R321, R378). -/
def execPowerFailTrigger (s : State) : Host.Outcome State Fault Refusal := finishGuard s (powerFailOp s)

/-- FINAL_SAVE_DONE (R158). -/
def execFinalSaveDone (s : State) : Host.Outcome State Fault Refusal := finish s (finalSave s)

/-- POWER_RESTORED (R158, R378). -/
def execPowerRestored (s : State) : Host.Outcome State Fault Refusal := finishGuard s (powerBackOp s)

end Sys2Proof.Machine
end

