-- ==== Sys2Proof/Machine/Dispatch.lean ====
section
/-!
DEFINITION. The meaning of every command: one arm per row of the opcode table, in its order.
-/

namespace Sys2Proof.Machine

/-- What a command does to everything but the queue. -/
def exec (i : Instr) (s : State) : Host.Outcome State Fault Refusal :=
  match i with
  | .registerWrite ini addr be v => Sys2Proof.Machine.execRegisterWrite ini addr be v s
  | .rcRead ini addr => Sys2Proof.Machine.execRcRead ini addr s
  | .accountingWindowStart pos => Sys2Proof.Machine.execAccountingWindowStart pos s
  | .requestGrant res => Sys2Proof.Machine.execRequestGrant res s
  | .delayBudgetExpiry res => Sys2Proof.Machine.execDelayBudgetExpiry res s
  | .angleEventFire pos => Sys2Proof.Machine.execAngleEventFire pos s
  | .angleEventDeferredFire => Sys2Proof.Machine.execAngleEventDeferredFire s
  | .pulseEnd pin => Sys2Proof.Machine.execPulseEnd pin s
  | .angleLoRead ini wide => Sys2Proof.Machine.execAngleLoRead ini wide s
  | .angleHiRead ini => Sys2Proof.Machine.execAngleHiRead ini s
  | .aetWord0Stage ini n v => Sys2Proof.Machine.execAetWord0Stage ini n v s
  | .aetEntryCommit ini n v => Sys2Proof.Machine.execAetEntryCommit ini n v s
  | .lacCtrlWrite ini v => Sys2Proof.Machine.execLacCtrlWrite ini v s
  | .lacNetSessionWrite ini v => Sys2Proof.Machine.execLacNetSessionWrite ini v s
  | .syncPulse rising => Sys2Proof.Machine.execSyncPulse rising s
  | .syncMissing => Sys2Proof.Machine.execSyncMissing s
  | .netrefLost => Sys2Proof.Machine.execNetrefLost s
  | .referenceInvalid => Sys2Proof.Machine.execReferenceInvalid s
  | .referenceValid x => Sys2Proof.Machine.execReferenceValid x s
  | .trackerConverged refAngle freq => Sys2Proof.Machine.execTrackerConverged refAngle freq s
  | .acquireTimeout => Sys2Proof.Machine.execAcquireTimeout s
  | .flyLimit => Sys2Proof.Machine.execFlyLimit s
  | .scanRun ini => Sys2Proof.Machine.execScanRun ini s
  | .scanStop ini => Sys2Proof.Machine.execScanStop ini s
  | .scandbgHold ini => Sys2Proof.Machine.execScandbgHold ini s
  | .scandbgResume ini => Sys2Proof.Machine.execScandbgResume ini s
  | .scandbgStepSeg ini => Sys2Proof.Machine.execScandbgStepSeg ini s
  | .scandbgStepScan ini => Sys2Proof.Machine.execScandbgStepScan ini s
  | .segmentStart l depth seg => Sys2Proof.Machine.execSegmentStart l depth seg s
  | .lmNop l => Sys2Proof.Machine.execLmNop l s
  | .lmEnd l => Sys2Proof.Machine.execLmEnd l s
  | .lmLdp l t d x => Sys2Proof.Machine.execLmLdp l t d x s
  | .lmLdq l d x => Sys2Proof.Machine.execLmLdq l d x s
  | .lmLdst l d x => Sys2Proof.Machine.execLmLdst l d x s
  | .lmStp l t d x => Sys2Proof.Machine.execLmStp l t d x s
  | .lmStpc l t d x => Sys2Proof.Machine.execLmStpc l t d x s
  | .lmRls l x => Sys2Proof.Machine.execLmRls l x s
  | .lmLds l d x => Sys2Proof.Machine.execLmLds l d x s
  | .lmSts l d x => Sys2Proof.Machine.execLmSts l d x s
  | .lmLdi l t d imm => Sys2Proof.Machine.execLmLdi l t d imm s
  | .lmLdih l d imm => Sys2Proof.Machine.execLmLdih l d imm s
  | .lmMov l d a => Sys2Proof.Machine.execLmMov l d a s
  | .lmSel l d a b x => Sys2Proof.Machine.execLmSel l d a b x s
  | .lmCvt l t d a src => Sys2Proof.Machine.execLmCvt l t d a src s
  | .lmAdd l t d a b => Sys2Proof.Machine.execLmAdd l t d a b s
  | .lmSub l t d a b => Sys2Proof.Machine.execLmSub l t d a b s
  | .lmMul l t d a b => Sys2Proof.Machine.execLmMul l t d a b s
  | .lmDiv l t d a b => Sys2Proof.Machine.execLmDiv l t d a b s
  | .lmMod l d a b => Sys2Proof.Machine.execLmMod l d a b s
  | .lmNeg l t d a => Sys2Proof.Machine.execLmNeg l t d a s
  | .lmAbs l t d a => Sys2Proof.Machine.execLmAbs l t d a s
  | .lmMin l t d a b => Sys2Proof.Machine.execLmMin l t d a b s
  | .lmMax l t d a b => Sys2Proof.Machine.execLmMax l t d a b s
  | .lmAddi l t d imm => Sys2Proof.Machine.execLmAddi l t d imm s
  | .lmCeq l t d a b => Sys2Proof.Machine.execLmCeq l t d a b s
  | .lmCne l t d a b => Sys2Proof.Machine.execLmCne l t d a b s
  | .lmClt l t d a b => Sys2Proof.Machine.execLmClt l t d a b s
  | .lmCle l t d a b => Sys2Proof.Machine.execLmCle l t d a b s
  | .lmCgt l t d a b => Sys2Proof.Machine.execLmCgt l t d a b s
  | .lmCge l t d a b => Sys2Proof.Machine.execLmCge l t d a b s
  | .lmAnd l t d a b => Sys2Proof.Machine.execLmAnd l t d a b s
  | .lmOr l t d a b => Sys2Proof.Machine.execLmOr l t d a b s
  | .lmXor l t d a b => Sys2Proof.Machine.execLmXor l t d a b s
  | .lmNot l t d a => Sys2Proof.Machine.execLmNot l t d a s
  | .lmShl l t d a b => Sys2Proof.Machine.execLmShl l t d a b s
  | .lmShr l t d a b => Sys2Proof.Machine.execLmShr l t d a b s
  | .lmBtst l d a x => Sys2Proof.Machine.execLmBtst l d a x s
  | .lmAndi l t d imm => Sys2Proof.Machine.execLmAndi l t d imm s
  | .lmOri l t d imm => Sys2Proof.Machine.execLmOri l t d imm s
  | .lmLim l t d a b x => Sys2Proof.Machine.execLmLim l t d a b x s
  | .lmScl l t d a b x => Sys2Proof.Machine.execLmScl l t d a b x s
  | .lmIntp l t d x => Sys2Proof.Machine.execLmIntp l t d x s
  | .lmTon l d a inst => Sys2Proof.Machine.execLmTon l d a inst s
  | .lmTof l d a inst => Sys2Proof.Machine.execLmTof l d a inst s
  | .lmTp l d a inst => Sys2Proof.Machine.execLmTp l d a inst s
  | .lmCtu l d a inst => Sys2Proof.Machine.execLmCtu l d a inst s
  | .lmCtd l d a inst => Sys2Proof.Machine.execLmCtd l d a inst s
  | .lmRtrig l d a inst => Sys2Proof.Machine.execLmRtrig l d a inst s
  | .lmFtrig l d a inst => Sys2Proof.Machine.execLmFtrig l d a inst s
  | .lmLspw l d x => Sys2Proof.Machine.execLmLspw l d x s
  | .lmLstr l d x => Sys2Proof.Machine.execLmLstr l d x s
  | .lmLout l d x => Sys2Proof.Machine.execLmLout l d x s
  | .lmEmit l d imm => Sys2Proof.Machine.execLmEmit l d imm s
  | .lmRdf l d => Sys2Proof.Machine.execLmRdf l d s
  | .lmClf l => Sys2Proof.Machine.execLmClf l s
  | .pgmxLoad ini => Sys2Proof.Machine.execPgmxLoad ini s
  | .pgmxCopyDone => Sys2Proof.Machine.execPgmxCopyDone s
  | .pgmxVerifyDone => Sys2Proof.Machine.execPgmxVerifyDone s
  | .pgmxSwitch ini => Sys2Proof.Machine.execPgmxSwitch ini s
  | .pgmxCancel ini => Sys2Proof.Machine.execPgmxCancel ini s
  | .programSwitch => Sys2Proof.Machine.execProgramSwitch s
  | .forceWord0Stage ini n v => Sys2Proof.Machine.execForceWord0Stage ini n v s
  | .forceEntryCommit ini n v => Sys2Proof.Machine.execForceEntryCommit ini n v s
  | .loopSample n pos => Sys2Proof.Machine.execLoopSample n pos s
  | .loopComputation n => Sys2Proof.Machine.execLoopComputation n s
  | .loopOutput n pos => Sys2Proof.Machine.execLoopOutput n pos s
  | .loopCtrlWrite ini n v => Sys2Proof.Machine.execLoopCtrlWrite ini n v s
  | .loopSpWrite ini n v => Sys2Proof.Machine.execLoopSpWrite ini n v s
  | .converterSample ch x1 x32 => Sys2Proof.Machine.execConverterSample ch x1 x32 s
  | .returnToX32 ch => Sys2Proof.Machine.execReturnToX32 ch s
  | .gridSample pos => Sys2Proof.Machine.execGridSample pos s
  | .sampleAccumulate => Sys2Proof.Machine.execSampleAccumulate s
  | .measurandPublish => Sys2Proof.Machine.execMeasurandPublish s
  | .demandIntervalEnd => Sys2Proof.Machine.execDemandIntervalEnd s
  | .snap ini => Sys2Proof.Machine.execSnap ini s
  | .clearEnergy ini => Sys2Proof.Machine.execClearEnergy ini s
  | .clearMaxdem ini => Sys2Proof.Machine.execClearMaxdem ini s
  | .hselWrite ini v => Sys2Proof.Machine.execHselWrite ini v s
  | .checkpointDone ok => Sys2Proof.Machine.execCheckpointDone ok s
  | .checkpointRetry => Sys2Proof.Machine.execCheckpointRetry s
  | .powerFailTrigger => Sys2Proof.Machine.execPowerFailTrigger s
  | .finalSaveDone => Sys2Proof.Machine.execFinalSaveDone s
  | .powerRestored => Sys2Proof.Machine.execPowerRestored s
  | .sqTail ini q v => Sys2Proof.Machine.execSqTail ini q v s
  | .cqHead ini q v => Sys2Proof.Machine.execCqHead ini q v s
  | .solve => Sys2Proof.Machine.execSolve s
  | .register => Sys2Proof.Machine.execRegister s
  | .confirm => Sys2Proof.Machine.execConfirm s
  | .factorisationDone pivots => Sys2Proof.Machine.execFactorisationDone pivots s
  | .admmIteration => Sys2Proof.Machine.execAdmmIteration s
  | .residualCheck => Sys2Proof.Machine.execResidualCheck s
  | .maxIterReached => Sys2Proof.Machine.execMaxIterReached s
  | .timeLimitReached => Sys2Proof.Machine.execTimeLimitReached s
  | .solveResume => Sys2Proof.Machine.execSolveResume s
  | .periodBoundary pos => Sys2Proof.Machine.execPeriodBoundary pos s
  | .commandedWrite ini p v level => Sys2Proof.Machine.execCommandedWrite ini p v level s
  | .setRelinquish ini p v => Sys2Proof.Machine.execSetRelinquish ini p v s
  | .relinquish ini p level => Sys2Proof.Machine.execRelinquish ini p level s
  | .defSel ini v => Sys2Proof.Machine.execDefSel ini v s
  | .defStage ini relq v => Sys2Proof.Machine.execDefStage ini relq v s
  | .defCfg ini v => Sys2Proof.Machine.execDefCfg ini v s
  | .dayEntryWrite => Sys2Proof.Machine.execDayEntryWrite s
  | .drainSeqLo ini v => Sys2Proof.Machine.execDrainSeqLo ini v s
  | .drainSeqHi ini v => Sys2Proof.Machine.execDrainSeqHi ini v s
  | .frameReceive port bytes fcsOk symErr => Sys2Proof.Machine.execFrameReceive port bytes fcsOk symErr s
  | .pauseRepeat port => Sys2Proof.Machine.execPauseRepeat port s
  | .pauseExpiry port => Sys2Proof.Machine.execPauseExpiry port s
  | .pauseWatchdog port => Sys2Proof.Machine.execPauseWatchdog port s
  | .holdoffEnd port => Sys2Proof.Machine.execHoldoffEnd port s
  | .txFrameStart port => Sys2Proof.Machine.execTxFrameStart port s
  | .txFrameEnd port => Sys2Proof.Machine.execTxFrameEnd port s
  | .txUnderrun port => Sys2Proof.Machine.execTxUnderrun port s
  | .ethTxrTail ini port v => Sys2Proof.Machine.execEthTxrTail ini port v s
  | .ethRxrTail ini port v => Sys2Proof.Machine.execEthRxrTail ini port v s
  | .opxFrameTake port => Sys2Proof.Machine.execOpxFrameTake port s
  | .reassemblyTimeout slot sq => Sys2Proof.Machine.execReassemblyTimeout slot sq s
  | .inputImage slot sq => Sys2Proof.Machine.execInputImage slot sq s
  | .pointRead slot sq => Sys2Proof.Machine.execPointRead slot sq s
  | .pointWrite slot sq => Sys2Proof.Machine.execPointWrite slot sq s
  | .regWindowRead slot sq => Sys2Proof.Machine.execRegWindowRead slot sq s
  | .regWindowWrite slot sq => Sys2Proof.Machine.execRegWindowWrite slot sq s
  | .solveData slot sq => Sys2Proof.Machine.execSolveData slot sq s
  | .updateChunk slot sq => Sys2Proof.Machine.execUpdateChunk slot sq s
  | .status slot sq => Sys2Proof.Machine.execStatus slot sq s
  | .statusPeriodSend => Sys2Proof.Machine.execStatusPeriodSend s
  | .leaseTake slot sq => Sys2Proof.Machine.execLeaseTake slot sq s
  | .leaseRenew slot sq => Sys2Proof.Machine.execLeaseRenew slot sq s
  | .leaseRelease slot sq => Sys2Proof.Machine.execLeaseRelease slot sq s
  | .openSession port => Sys2Proof.Machine.execOpenSession port s
  | .close slot sq => Sys2Proof.Machine.execClose slot sq s
  | .timeRef slot sq => Sys2Proof.Machine.execTimeRef slot sq s
  | .timeRefSend => Sys2Proof.Machine.execTimeRefSend s
  | .sessionIdleTimeout slot => Sys2Proof.Machine.execSessionIdleTimeout slot s
  | .sessClose ini v => Sys2Proof.Machine.execSessClose ini v s
  | .mbFrameReceive bus f => Sys2Proof.Machine.execMbFrameReceive bus f s
  | .objectTimeout bus o => Sys2Proof.Machine.execObjectTimeout bus o s
  | .mbQHead ini bus q v => Sys2Proof.Machine.execMbQHead ini bus q v s
  | .txobjStage ini bus o w v => Sys2Proof.Machine.execTxobjStage ini bus o w v s
  | .txobjCommit ini bus o v => Sys2Proof.Machine.execTxobjCommit ini bus o v s
  | .mbTxrTail ini bus v => Sys2Proof.Machine.execMbTxrTail ini bus v s
  | .mbFrameSend bus => Sys2Proof.Machine.execMbFrameSend bus s
  | .mbTxDone bus r => Sys2Proof.Machine.execMbTxDone bus r s
  | .busOffRecovery bus => Sys2Proof.Machine.execBusOffRecovery bus s
  | .mbEnable ini bus v => Sys2Proof.Machine.execMbEnable ini bus v s
  | .mbSleep ini bus => Sys2Proof.Machine.execMbSleep ini bus s
  | .mbWake ini bus => Sys2Proof.Machine.execMbWake ini bus s
  | .mbRecover ini bus => Sys2Proof.Machine.execMbRecover ini bus s
  | .clearQ0 ini bus => Sys2Proof.Machine.execClearQ0 ini bus s
  | .clearQ1 ini bus => Sys2Proof.Machine.execClearQ1 ini bus s
  | .busWakeEvent bus f => Sys2Proof.Machine.execBusWakeEvent bus f s
  | .sfTxStart port => Sys2Proof.Machine.execSfTxStart port s
  | .sfTxDone port => Sys2Proof.Machine.execSfTxDone port s
  | .characterReceive port c parityErr framingErr brk => Sys2Proof.Machine.execCharacterReceive port c parityErr framingErr brk s
  | .idleGap port => Sys2Proof.Machine.execIdleGap port s
  | .sfTxrTail ini port v => Sys2Proof.Machine.execSfTxrTail ini port v s
  | .sfRxrHead ini port v => Sys2Proof.Machine.execSfRxrHead ini port v s
  | .diFilterAccept n v => Sys2Proof.Machine.execDiFilterAccept n v s
  | .wireBreak n => Sys2Proof.Machine.execWireBreak n s
  | .wireBreakClear n => Sys2Proof.Machine.execWireBreakClear n s
  | .countEdge n => Sys2Proof.Machine.execCountEdge n s
  | .cntClr ini v => Sys2Proof.Machine.execCntClr ini v s
  | .doCmdWrite ini v => Sys2Proof.Machine.execDoCmdWrite ini v s
  | .doThermalShutdown c => Sys2Proof.Machine.execDoThermalShutdown c s
  | .doShutdownRelease c => Sys2Proof.Machine.execDoShutdownRelease c s
  | .groupFault g => Sys2Proof.Machine.execGroupFault g s
  | .fieldUndervoltage => Sys2Proof.Machine.execFieldUndervoltage s
  | .fieldSupplyRestored => Sys2Proof.Machine.execFieldSupplyRestored s
  | .frameStart => Sys2Proof.Machine.execFrameStart s
  | .frameEnd => Sys2Proof.Machine.execFrameEnd s
  | .epdPgoodRise => Sys2Proof.Machine.execEpdPgoodRise s
  | .pgoodTimeout => Sys2Proof.Machine.execPgoodTimeout s
  | .pgoodLost => Sys2Proof.Machine.execPgoodLost s
  | .panelPowerOff => Sys2Proof.Machine.execPanelPowerOff s
  | .temperatureRead t => Sys2Proof.Machine.execTemperatureRead t s
  | .regionStage ini r w v => Sys2Proof.Machine.execRegionStage ini r w v s
  | .regionGo ini r v => Sys2Proof.Machine.execRegionGo ini r v s
  | .loadLut ini => Sys2Proof.Machine.execLoadLut ini s
  | .balance ini => Sys2Proof.Machine.execBalance ini s
  | .locksmithReady => Sys2Proof.Machine.execLocksmithReady s
  | .remask => Sys2Proof.Machine.execRemask s
  | .lockStage ini => Sys2Proof.Machine.execLockStage ini s
  | .lockCommit ini => Sys2Proof.Machine.execLockCommit ini s
  | .lockCancel ini => Sys2Proof.Machine.execLockCancel ini s
  | .lockErase ini => Sys2Proof.Machine.execLockErase ini s
  | .derive ini => Sys2Proof.Machine.execDerive ini s
  | .attest ini => Sys2Proof.Machine.execAttest ini s
  | .lcOwn ini => Sys2Proof.Machine.execLcOwn ini s
  | .lcRetire ini => Sys2Proof.Machine.execLcRetire ini s
  | .tamperTrip cause => Sys2Proof.Machine.execTamperTrip cause s
  | .backupPowerOn => Sys2Proof.Machine.execBackupPowerOn s
  | .vbakLow => Sys2Proof.Machine.execVbakLow s
  | .secondBoundary => Sys2Proof.Machine.execSecondBoundary s
  | .trimCorrection => Sys2Proof.Machine.execTrimCorrection s
  | .calendarWrite ini f v => Sys2Proof.Machine.execCalendarWrite ini f v s
  | .calSecRead ini => Sys2Proof.Machine.execCalSecRead ini s
  | .calYearRead ini => Sys2Proof.Machine.execCalYearRead ini s
  | .tornRead who => Sys2Proof.Machine.execTornRead who s
  | .wakeTimer => Sys2Proof.Machine.execWakeTimer s
  | .ponSet ini => Sys2Proof.Machine.execPonSet ini s
  | .ponRelease ini => Sys2Proof.Machine.execPonRelease ini s
  | .clearLost ini => Sys2Proof.Machine.execClearLost ini s
  | .clearTamper ini => Sys2Proof.Machine.execClearTamper ini s
  | .errorDetected e kind detail => Sys2Proof.Machine.execErrorDetected e kind detail s
  | .eccCorr page group => Sys2Proof.Machine.execEccCorr page group s
  | .discardComplete => Sys2Proof.Machine.execDiscardComplete s
  | .assayerTestStart e => Sys2Proof.Machine.execAssayerTestStart e s
  | .assayerTestDone e pass => Sys2Proof.Machine.execAssayerTestDone e pass s
  | .transientWindowClose e => Sys2Proof.Machine.execTransientWindowClose e s
  | .patrolTest e pass => Sys2Proof.Machine.execPatrolTest e pass s
  | .selftestStart ini page v => Sys2Proof.Machine.execSelftestStart ini page v s
  | .fltmAck ini => Sys2Proof.Machine.execFltmAck ini s
  | .fire ini => Sys2Proof.Machine.execFire ini s
  | .capture => Sys2Proof.Machine.execCapture s
  | .recordWrite => Sys2Proof.Machine.execRecordWrite s
  | .freeze ini => Sys2Proof.Machine.execFreeze ini s
  | .unfreeze ini => Sys2Proof.Machine.execUnfreeze ini s
  | .freezeTimeout => Sys2Proof.Machine.execFreezeTimeout s
  | .clearPerm ini => Sys2Proof.Machine.execClearPerm ini s
  | .modeWrite ini v => Sys2Proof.Machine.execModeWrite ini v s
  | .sealedWrite ini => Sys2Proof.Machine.execSealedWrite ini s
  | .unsealCmd ini => Sys2Proof.Machine.execUnsealCmd ini s
  | .unlock ini => Sys2Proof.Machine.execUnlock ini s
  | .protLock ini => Sys2Proof.Machine.execProtLock ini s
  | .fptGo ini v => Sys2Proof.Machine.execFptGo ini v s
  | .resetNLow => Sys2Proof.Machine.execResetNLow s
  | .startUp step x => Sys2Proof.Machine.execStartUp step x s
  | .vholdExhausted => Sys2Proof.Machine.execVholdExhausted s
  | .pfwResetDeferred => Sys2Proof.Machine.execPfwResetDeferred s
  | .updTakeLease ini => Sys2Proof.Machine.execUpdTakeLease ini s
  | .updRenew ini => Sys2Proof.Machine.execUpdRenew ini s
  | .updRelease ini => Sys2Proof.Machine.execUpdRelease ini s
  | .updSubmit ini => Sys2Proof.Machine.execUpdSubmit ini s
  | .updCancel ini => Sys2Proof.Machine.execUpdCancel ini s
  | .updConfirm ini => Sys2Proof.Machine.execUpdConfirm ini s
  | .updFail ini => Sys2Proof.Machine.execUpdFail ini s
  | .patchBuildDone nandOk => Sys2Proof.Machine.execPatchBuildDone nandOk s
  | .leaseExpiry => Sys2Proof.Machine.execLeaseExpiry s
  | .actTimeReached => Sys2Proof.Machine.execActTimeReached s
  | .checkTimeout => Sys2Proof.Machine.execCheckTimeout s
  | .perst => Sys2Proof.Machine.execPerst s
  | .hostwinCAccess off wr len => Sys2Proof.Machine.execHostwinCAccess off wr len s
  | .svcAttach => Sys2Proof.Machine.execSvcAttach s
  | .regRead cls tag addr count => Sys2Proof.Machine.execRegRead cls tag addr count s
  | .regWrite cls tag addr vs => Sys2Proof.Machine.execRegWrite cls tag addr vs s
  | .memRead cls tag addr count => Sys2Proof.Machine.execMemRead cls tag addr count s
  | .memWrite cls tag addr vs => Sys2Proof.Machine.execMemWrite cls tag addr vs s
  | .winRead cls tag addr count => Sys2Proof.Machine.execWinRead cls tag addr count s
  | .irqPendSet ini page v => Sys2Proof.Machine.execIrqPendSet ini page v s
  | .irqPendClr ini page v => Sys2Proof.Machine.execIrqPendClr ini page v s
  | .irqMaskSet ini page v => Sys2Proof.Machine.execIrqMaskSet ini page v s
  | .irqMaskClr ini page v => Sys2Proof.Machine.execIrqMaskClr ini page v s
  | .pageEnable ini page on => Sys2Proof.Machine.execPageEnable ini page on s
  | .softReset ini page => Sys2Proof.Machine.execSoftReset ini page s
  | .intcPendSet ini k v => Sys2Proof.Machine.execIntcPendSet ini k v s
  | .intcPendClr ini k v => Sys2Proof.Machine.execIntcPendClr ini k v s
  | .intcMaskSet ini k v => Sys2Proof.Machine.execIntcMaskSet ini k v s
  | .intcMaskClr ini k v => Sys2Proof.Machine.execIntcMaskClr ini k v s
  | .sleepGo ini => Sys2Proof.Machine.execSleepGo ini s
  | .wakeFromSleep src => Sys2Proof.Machine.execWakeFromSleep src s
  | .ppsIn => Sys2Proof.Machine.execPpsIn s
  | .correctionCycleEnd => Sys2Proof.Machine.execCorrectionCycleEnd s
  | .ethLinkChange port up => Sys2Proof.Machine.execEthLinkChange port up s
  | .hostLinkChange up speed width => Sys2Proof.Machine.execHostLinkChange up speed width s
  | .svcDetach => Sys2Proof.Machine.execSvcDetach s
  | .ppsOutEnd => Sys2Proof.Machine.execPpsOutEnd s
  | .pcieWakeTimeout => Sys2Proof.Machine.execPcieWakeTimeout s

end Sys2Proof.Machine
end

