-- ==== Sys2Proof/Safety.lean ====
section
/-!
DEFINITION. What counts as a safe state and a safe step of the module, in the terms the statements use.
-/

namespace Sys2Proof.Machine

/-- The initiator's access is answered at once and without effect on anything but its answer: what a refusal must be. -/
def sameState (s t : State) : Prop :=
  t.regs = s.regs ∧ t.dram = s.dram ∧ t.clk = s.clk ∧ t.guard = s.guard

/-- What no command but a module reset may undo (R324, R335, R340, R344, R285, R345): PROT.LOCK stays set, the
counters do not fall, the life-cycle does not go back, DEAD stands, and METER falls only with an accepted signed command. -/
def Guard.kept (a b : Guard) : Prop :=
  (a.protLock = true → b.protLock = true) ∧ (a.operational = true → b.operational = true) ∧
    (a.dead = true → b.dead = true) ∧ a.arb ≤ b.arb ∧ a.scmdCtr ≤ b.scmdCtr ∧ a.attCtr ≤ b.attCtr ∧
    a.lifecycle ≤ b.lifecycle ∧ b.fD = a.fD ∧ b.fM = a.fM ∧ b.fE = a.fE ∧
    (a.mode.getLsbD 2 = true → a.scmdCtr = b.scmdCtr → b.mode.getLsbD 2 = true)

/-! ### A request that meets nothing on its way

A request passes the class check and the rate limit, the resources of its path, the visibility and rights stages, and the
Daybook when it is logged (R13, R30, R198, R201). -/

/-- The count goes on: the accumulator's step is not 0, and the frequency that the tracker heads for is not 0. -/
def Clock.moves (c : Clock) : Bool := decide (0 < c.step) && decide (0 < c.target)

/-- A request passes a list of resources at once and within budget: the state that their grants leave. -/
def passes : List Nat → State → Req → Option State
  | [], s, _ => some s
  | k :: ks, s, r =>
    if arrive s r k == .grant && !overBudget s r.who r.cls k 1 then passes ks (tollGrant s r k ks false) r else none

/-- A request enters within its ceiling and its rate and passes the resources of its path at once: the state that their grants
leave. -/
def entered (s : State) (r : Req) : Option State :=
  if clsN (ceiling s r.who) ≤ clsN r.cls ∧ rateOver s r = false then passes r.path (rateCount s r) r else none

/-- The port of an initiator takes a request at once: a host port in service, no request held before it (R348, R355, R358). -/
def portOpen (s : State) (w : Who) : Bool := (w != .host || rdB s (reg pHOSTP 0x084) 0) && !portHolds s w

/-- The request of a register write. -/
def writeReq (s : State) (i : Init) (a : Nat) (v : Word) : Req :=
  newReq s i.who (clsFor s i) (.regWrite a v) (ownSink i.who a true)

/-- The state once the ports on the way have granted the write. -/
def atPage (s : State) (i : Init) (a : Nat) (v : Word) : State := (entered s (writeReq s i a v)).getD s

/-- The request at the Daybook. -/
def bookReq (s : State) (i : Init) (a : Nat) (v : Word) : Req := { writeReq s i a v with path := [], logging := true }

/-- The write meets nothing on its way: its port takes it, its class is within its ceiling (R13), the resources grant it at
once within budget (R16, R26), the page exists for it (R207, R357) and its block is present (R4), the rights stage lets it
pass, and the Daybook takes its entry (R201, R203). -/
def clear (s : State) (i : Init) (a : Nat) (v : Word) : Bool :=
  let u := atPage s i a v
  portOpen s i.who && (entered s (writeReq s i a v)).isSome && !pageAbsent u i.who (pageOf a) && !fusedOff u (pageOf a) &&
    (writeRefusal u i.who (clsFor s i) a v).isNone &&
    (!logsWrite a v || (passes [8] u (bookReq s i a v)).isSome)

/-- The request of a register read. -/
def readReq (s : State) (i : Init) (a : Nat) : Req :=
  newReq s i.who (clsFor s i) (.regRead a) (ownSink i.who a false)

/-- The state once the ports on the way have granted the read. -/
def atRead (s : State) (i : Init) (a : Nat) : State := (entered s (readReq s i a)).getD s

/-- A register read meets nothing on its way: its port takes it, the class is within the ceiling, the resources grant it at
once within budget, the page exists for the reader, and the reader holds REG (R356). -/
def clearRead (s : State) (i : Init) (a : Nat) : Bool :=
  portOpen s i.who && (entered s (readReq s i a)).isSome && !pageAbsent (atRead s i a) i.who (pageOf a) &&
    hasRight (atRead s i a) i.who rREG

/-- A request of an initiator and class enters and passes its resources at once. -/
def room (s : State) (w : Who) (c : Cls) (b : Body) : Bool :=
  portOpen s w && (entered s (newReq s w c b .none)).isSome

/-- A page of the page list with a page header. -/
def headed (p : Nat) : Bool := (pageType p).isSome && !isLoopbank p

/-- A command whose effect is a module reset, when it has one (R377–R379). -/
def resets : Instr → Bool
  | .resetNLow => true
  | .vholdExhausted => true
  | .pfwResetDeferred => true
  | _ => false

/-- An action that only RAISE, PULSE_GPIO and SYNC_OUT of the action codes stand behind, or none. -/
def userFire (f : Fire) : Bool := decide (fld f.w1 0 8 ≤ 3 ∨ 12 < fld f.w1 0 8)

/-- What a user action leaves that has fired: its source latched, its pulse begun where the pin is a general output. -/
def fired (s t : State) (f : Fire) : Prop :=
  let code := fld f.w1 0 8
  let target := fld f.w1 8 16
  (code = 1 → srcPending t (128 + target % 128) = true) ∧
    (code = 2 → gpioOutput s (target % 8 + 1) = true → t.pins.gpioPulse.getLsbD (target % 8) = true) ∧
    (code = 3 → t.pins.syncOut = true)

/-- LOCKED left at this moment for FLYWHEEL because the reference became invalid: the frequency held, a correction at its end
(R44, R48). -/
def lostLock (t : State) : Prop :=
  t.lac.track = .flywheel ∧ t.lac.refValid = false ∧ t.lac.fly = some t.clk.fabric ∧ t.clk.target = t.clk.freq ∧
    t.clk.corrNow = 0 ∧ rdB t (reg pLAC 0x088) 0 = true ∧ rdB t (reg pLAC 0x088) 1 = true

/-! ### Loom's lanes -/

/-- Nothing but one lane has changed. -/
def laneOnly (s t : State) (l : LaneNo) : Prop :=
  t.regs = s.regs ∧ t.dram = s.dram ∧ t.pts = s.pts ∧ t.clk = s.clk ∧ t.guard = s.guard ∧ t.toll = s.toll ∧
    t.replies = s.replies ∧ t.loom = { s.loom with lanes := t.loom.lanes } ∧ ∀ m : LaneNo, m ≠ l → lane t m = lane s m

/-- An instruction has written WD with its flags, left the other working registers, and moved to the next instruction. -/
def wrote (s t : State) (l : LaneNo) (d : Wr) (r : Res) : Prop :=
  laneOnly s t l ∧ (lane t l).get d = r.1 ∧ (∀ w : Wr, w ≠ d → (lane t l).get w = (lane s l).get w) ∧
    (lane t l).pc = (lane s l).pc + 1 ∧ (lane t l).fl = (lane s l).fl ||| flNat r.2 ∧
    (lane t l).res = (lane s l).res ∧ (lane t l).seg = (lane s l).seg ∧ (lane t l).depth = (lane s l).depth ∧
    (lane t l).active = true

/-- A value limited to 32 bits, with SAT when it was beyond the range (R93). -/
def limited (x : Int) : Res :=
  (i32 (max (-2147483648) (min 2147483647 x)), { noFl with s := decide (x < -2147483648 ∨ 2147483647 < x) })

/-- A comparison has written its truth to WD and CF, with its flags. -/
def compared (s t : State) (l : LaneNo) (d : Wr) (r : Bool × AFlags) : Prop :=
  wrote s t l d (w32 (b2n r.1), r.2) ∧ (lane t l).cf = r.1

/-- A timer has left Q in WD, ET in the next register, and both with its input in its record (R97). -/
def timed (t : State) (l : LaneNo) (d : Wr) (n : Nat) (q : Bool) (et : Nat) (inp : Bool) : Prop :=
  (lane t l).get d = w32 (b2n q) ∧ (lane t l).get (nextWr d) = w32 et ∧ (readFb t (lane t l) n).et = w32 et ∧
    (readFb t (lane t l) n).inPrev = inp ∧ (readFb t (lane t l) n).fl.getLsbD 1 = q

/-- A counter has left Q in WD, CV in the next register, and CV with its input in its record (R98). -/
def counted (t : State) (l : LaneNo) (d : Wr) (n : Nat) (q : Bool) (cv : Word) (inp : Bool) : Prop :=
  (lane t l).get d = w32 (b2n q) ∧ (lane t l).get (nextWr d) = cv ∧ (readFb t (lane t l) n).cv = sw cv ∧
    (readFb t (lane t l) n).inPrev = inp

/-- A value held in a 48-bit accumulator (R121). -/
def hold48 (x : Int) : Int := max (-(2 ^ 47)) (min (2 ^ 47 - 1) x)

/-- `n` is the energy `num / den` to within one part in 2^40 and half a unit (R152). -/
def energyNear (n num den : Nat) : Prop :=
  2 * n * den * 2 ^ 40 ≤ 2 * num * (2 ^ 40 + 1) + den * 2 ^ 40 ∧
    2 * num * (2 ^ 40 - 1) ≤ 2 * n * den * 2 ^ 40 + den * 2 ^ 40

/-! ### Factor -/

/-- Where a queue's next completion record stands. -/
def cqAddr (s : State) (q : Nat) : Nat := rd64 s (fq q 0x094) + 64 * (rdF s (fq q 0x0A0) 0 8 % fqSize s q)

/-- A completion with a TAG, a STATUS and a CONFIRM has been posted to a queue's ring, which lies in DRAM (R169). -/
def posted (s t : State) (q tag st confirm : Nat) : Prop :=
  cqUsed t q = cqUsed s q + 1 ∧ rdB t (reg pFACT 0x088) 0 = true ∧ rdB t (reg pFACTQ 0x100) q = true ∧
    (cqAddr s q + 64 ≤ Config.dramBytes → ramNat t (cqAddr s q) 4 = tag % 2 ^ 32 ∧ ramNat t (cqAddr s q + 4) 1 = st ∧
      ramNat t (cqAddr s q + 5) 1 = confirm)

/-- The CONFIRM byte of a job's completion (R169): HELD of an anticipatory solve, REJECTED of a re-solve. -/
def confirmOf (j : Solve) : Nat := if j.kind = 1 then 1 else if j.kind = 2 then 3 else 0

/-- Factor may issue this many requests to DRAM at once in a class, within CTRL.DRAM_PCT, the window and its class's budget
(R161, R16, R26). -/
def factRoom (s : State) (c : Cls) (n : Nat) : Bool :=
  decide (n ≤ factLeft s c) && (List.range 9).all fun k => !overBudget s whoFact c k n

/-- Nothing waits to be posted, and a queue's completion ring has a free entry (R170). -/
def cqFree (s : State) (q : Nat) : Bool := s.fact.posts.isEmpty && !cqFull s q

/-- Factor, in service and free, takes a queue's entry next, whose TYPE is wanted (R170, R171). -/
def takes (s : State) (want : Nat → Bool) (q i : Nat) : Bool :=
  s.fact.run.isNone && factLive s && s.fact.begun.isNone && factNext s == some (q, i) && want (leAt (descAt s q i) 0 1)

/-- A completion entry can be kept for the entry's descriptor (R170), and its requests and its record's find room at once. -/
def descRoom (s : State) (q i : Nat) : Bool :=
  let d := descAt s q i
  s.fact.posts.isEmpty && decide (cqKept s q < fqSize s q) &&
    factRoom s (clsOf (leAt d 2 1)) (3 + descCost (factBegin s q i) d)

/-- The state in which a taken descriptor executes: read, its ring moved on, its requests issued (R161, R169). -/
def atDesc (s : State) (q i : Nat) : State :=
  let d := descAt s q i
  let t := factIssue (factBegin s q i) (clsOf (leAt d 2 1)) (descCost (factBegin s q i) d)
  { t with fact := { t.fact with begun := none } }

/-- The first outcome of R178's table that holds at a check, by its STATUS; none when the solve goes on. -/
def checkOutcome (s : State) (j : Solve) : Option Nat :=
  let r := residualsOf s j
  [(bad64 r.1 || bad64 r.2.2.1, 5), (decide (r.1 ≤ r.2.1) && decide (r.2.2.1 ≤ r.2.2.2), 0),
    (primalInf (jobProblem s j) (nthD j.eps 2 0) j.y j.yPrev, 3), (dualInf (jobProblem s j) (nthD j.eps 3 0) j.x j.xPrev, 4),
    (decide (j.timeLimit ≠ 0) && decide (j.timeLimit ≤ jobTime s j), 2),
    (decide (j.maxIter ≤ j.iter), 1)].findSome? fun e => if e.1 then some e.2 else none

/-- The requests that a job's results and its record take. -/
def endCost (j : Solve) : Nat := ceilDiv (4 * j.x.length) 64 + ceilDiv (4 * j.y.length) 64 + 1

/-- The setpoints that follow a usable result of the supervisor's do not take Factor's next request beyond its class's budget at
the fabric port that both pass (R26, R184). -/
def calmWrites (s : State) (q : Nat) (c : Cls) : Prop :=
  q ≠ 0 ∨ c ≠ .control ∨ mDISTRICT s = false ∨ ∀ n, overBudget s whoFact c 2 n = false

/-- The requests of the end of a factorisation: the pattern read, and a factor that does not fit written (R161, R166). -/
def factorCost (s : State) (j : Solve) : Nat :=
  ceilDiv (jobPattern s j).bytes.length 64 + if factFits s j then 0 else ceilDiv (jobPattern s j).factorBytes 64

/-- The requests of an iteration: a streamed factor read, and the state of a solve that is preempted written (R166, R171). -/
def iterCost (s : State) (j : Solve) : Nat :=
  (if s.fact.resident = some j.handle then 0 else ceilDiv (jobPattern s j).factorBytes 64) + stateCost j

/-- A job has ended with a STATUS: Factor is free, its record posted, SOLVE_COUNT counted up. -/
def ended (s t : State) (j : Solve) (st : Nat) : Prop :=
  t.fact.run = none ∧ t.fact.susp = s.fact.susp ∧ posted s t j.q j.tag st (confirmOf j) ∧
    (corMode s pFACT = false → descCounts j.desc = true → rd t (reg pFACT 0x0A4) = rd s (reg pFACT 0x0A4) + 1)

/-! ### The point store -/

/-- The request of a commanded write. -/
def cmdReq (s : State) (i : Init) (p c : Nat) : Req :=
  newReq s i.who (clsFor s i) (.command p c)
    (if i.who = .host then .host (0x100000 + 128 * p + 0x78) true else .own i.who (0x100000 + 128 * p + 0x78))

/-- The state once the ports on the way and the point store's have granted it. -/
def atStore (s : State) (i : Init) (p c : Nat) : State := (entered s (cmdReq s i p c)).getD s

/-- No write of the same fabric cycle follows a commanded write in R20's order at its level (R191). -/
def lastInCycle (s : State) (i : Init) (p c : Nat) : Bool :=
  !overruled s p (if cmdRelqDef c then 0 else cmdLevel c) (orderOf i.who (clsFor s i)) &&
    lastWriter s p (orderOf i.who (clsFor s i)) (origin s i.who) == origin s i.who

/-- A commanded write meets nothing on its way: its port takes it, the class is within the ceiling, its resources grant it at
once within budget, the point is visible, the write is allowed (R194), no LOCKDOWN, safe state or DEAD holds it (R331, R313,
R345), and the Daybook takes its entry. -/
def clearCommand (s : State) (i : Init) (p c : Nat) : Bool :=
  let u := atStore s i p c
  portOpen s i.who && (entered s (cmdReq s i p c)).isSome && visible u i.who (point s p) &&
    cmdAllowed u i.who (point s p) c && !(mLOCK s && !(clsFor s i == .safety && ceiling u i.who == .safety)) &&
    dramAllowed s i.who && !(s.guard.dead && !isCore i.who) &&
    (passes [8] u { cmdReq s i p c with path := [], logging := true }).isSome

/-- What VALUE and LEVEL say of the priority array (R190): the lowest-numbered occupied level and its entry, or RELINQUISH
and 0 when none is occupied. -/
def resolved (p : Point) : Prop :=
  (∀ l v, get? p.pa l = some v → p.level ≤ l) ∧
    ((∃ l, (get? p.pa l).isSome = true) → get? p.pa p.level = some p.value) ∧
    ((∀ l, get? p.pa l = none) → p.value = p.relq ∧ p.level = 0)

/-- What TIMESTAMP does at an accepted write (R192). -/
def stamped (old new : Point) (pos : Nat) : Prop :=
  (old.seen = new.seen → old.seenQ = new.seenQ → old.level = new.level → new.ts = old.ts) ∧
    ((old.seen ≠ new.seen ∨ old.seenQ ≠ new.seenQ ∨ old.level ≠ new.level) → new.ts = pos)

/-- One point has taken an accepted write of an initiator; every other point stands. -/
def pointWritten (s t : State) (i : Init) (p : Nat) : Prop :=
  resolved (point t p) ∧ (point t p).seq = (point s p).seq + 1 ∧ (point t p).writer = origin s i.who ∧
    stamped (point s p) (point t p) (count s) ∧ (point t p).ty = (point s p).ty ∧ (point t p).cls = (point s p).cls ∧
    (point t p).tenant = (point s p).tenant ∧ (∀ q, q ≠ p → point t q = point s q) ∧ t.loom = s.loom ∧ t.loops = s.loops ∧
    t.dram = s.dram

/-- `n` accesses of a hardware block, Loom or a loop to the point store stay within the budgets of class CONTROL (R26). -/
def ptCalm (s : State) (w : Who) (n : Nat) : Prop := ∀ k ∈ ptPath w, overBudget s w .control k n = false

/-- `n` accesses of class CONTROL by any issuer stay within the budgets of every resource (R26). -/
def calm (s : State) (n : Nat) : Prop := ∀ (w : Who) (k : Nat), overBudget s w .control k n = false

/-! ### The buses -/

/-- The points that the frame groups of a receive object feed when it holds a frame (R189, R247). -/
def groupCost (s : State) (n o : Nat) (f : BusFrame) : Nat :=
  let data (k : Nat) : List Byte :=
    if k = o then (List.range 16).flatMap fun j => leBytes 4 (frameData f j).toNat else rxData s n k
  ((List.range 8).map fun g => (Config.groupMap n g ((groupMembers s n g).map data)).length).sum

/-- The frame groups that a received frame completes feed their points within the budgets of class CONTROL (R26). -/
def groupCalm (s : State) (n : Fin 8) (f : BusFrame) : Prop :=
  ∀ o, filterFor s n.val f = some (3, o) → ptCalm s (.hw (Fin.ofNat 128 (mbPg n.val))) (groupCost s n.val o f)

/-- The field region's point updates stay within the budgets of class CONTROL (R26). -/
def fieldCalm (s : State) (n : Nat) : Prop := ptCalm s (.hw (Fin.ofNat 128 pFIO)) n

/-! ### The display -/

/-- The state in which a due frame's work is chosen (R271–R275). -/
def atFrame (s : State) : State := framePrepare { s with sgn := { s.sgn with due := false } }

/-- A due frame's scan-out requests stay within the budgets of their class (R26, R265). -/
def frameCalm (s : State) : Prop :=
  ∀ k ∈ fabricPath (srcRegion (.hw (Fin.ofNat 128 pSGN))) none ++ [5],
    overBudget (atFrame s) (.hw (Fin.ofNat 128 pSGN)) (scanCls (atFrame s)) k (ceilDiv (frameBytes (atFrame s)) 64) = false

/-- The fabric cycle at which the frame in scan-out has been shifted out (R266). -/
def frameOver (s : State) : Nat := s.sgn.scanAt + frameLen s * pclkCycles s

/-! ### The network -/

/-- Counter `k` of a port, its low word (R222). -/
def cnt (s : State) (n k : Nat) : Word := rd s (reg (ethPg n) (ethCntOff k))

/-- The frame on the wire of a port and the jobs behind it, as they were. -/
def sameJobs (s t : State) (n : Nat) : Prop :=
  (ethPort t n).onWire = (ethPort s n).onWire ∧ (ethPort t n).jobs = (ethPort s n).jobs

/-- A complete message of a type stands first among those of its slot and SEQ, no request for it waits nor is held, no other
message's entries wait to be sent on, the engine runs and the session service has room, and its session is open with SEQs left. -/
def msgAt (s : State) (n sq ty : Nat) (m : OpxMsg) : Prop :=
  inboxMsg s n sq = some m ∧ m.type_ = ty ∧ (∀ r ∈ s.toll.waiting, r.body ≠ .message n sq) ∧ s.toll.held = [] ∧
    (∀ a ∈ s.toll.asm, a.todo = [] ∧ (a.svc = true ∨ a.slot ≠ n ∨ a.tag ≠ sq)) ∧ msgQueue s m.cls < 4096 ∧
    runs s pOPX = true ∧ (session s n).open_ = true ∧ (session s n).txSeq < 0xFFFFFFFF

/-- The session service grants the message at once: its class is within the ceiling and its session holds the right of its
type (R232, R234), and nothing of R343 refuses it; `u` is the state after the grant. -/
def msgServed (s : State) (n sq ty : Nat) (m : OpxMsg) (u : State) : Prop :=
  msgAt s n sq ty m ∧ entered s (newReq s (sessWho n) m.cls (.message n sq) .none) = some u ∧
    (∀ k, typeRight ty = some k → hasRight u (sessWho n) k = true) ∧ leaseRefused u m = false

/-- The Daybook admits the change that a message makes of its own at once (R201). -/
def msgLogged (u : State) (m : OpxMsg) : Prop :=
  (passes [8] u { newReq u (sessWho m.slot) m.cls (.message m.slot m.sq) .none with path := [], logging := true }).isSome = true

/-- A message has been answered: its one reply follows the messages sent before (R232). -/
def replied (s t : State) (m : OpxMsg) (ty out : Nat) (body : List Byte) : Prop :=
  t.opx.outq = s.opx.outq ++ [⟨ty, 3, m.cls, m.slot, m.sq, out, body⟩]

/-- The state in which the one entry of a message enters as a request of its own. -/
def atEntry (u : State) (m : OpxMsg) (op : Nat) : State :=
  { msgTake u m with toll := { (msgTake u m).toll with asm := (msgTake u m).toll.asm ++
    [⟨false, m.slot, m.sq, op, m.cls, oSERVED, 1, [], []⟩] } }

/-- The request of that entry. -/
def entryReq (u : State) (m : OpxMsg) (op : Nat) (b : Body) : Req :=
  newReq (atEntry u m op) (sessWho m.slot) m.cls b (.opx m.slot m.sq 0)

/-- The entry enters and passes its resources at once; `v` is the state after their grants. -/
def entryAt (u : State) (m : OpxMsg) (op : Nat) (b : Body) (v : State) : Prop :=
  entered (atEntry u m op) (entryReq u m op b) = some v

/-- The Daybook admits the entry at once. -/
def entryLogged (u v : State) (m : OpxMsg) (op : Nat) (b : Body) : Prop :=
  (passes [8] v { entryReq u m op b with path := [], logging := true }).isSome = true

/-- A session is closed, with nothing of it in reassembly or awaiting service (R231). -/
def closed (s t : State) (n : Nat) : Prop :=
  (session t n).open_ = false ∧ (session t n).reasm = [] ∧ (session t n).gen = (session s n).gen ∧
    (∀ m ∈ t.opx.inbox, m.slot ≠ n) ∧ rdB t (reg pOPX 0x088) 1 = true

/-! ### Modes and resets -/

/-- What a module reset leaves (R277, R282, R336, R337, R377): the count and every engine start anew, every page but those of the
backup domain takes its reset values, and what OTP, MRAM and the backup domain hold stands. -/
def wasReset (s t : State) (pgood : Bool) : Prop :=
  t.guard.protLock = false ∧ t.guard.operational = false ∧ t.guard.safe = false ∧ t.guard.mode = 0 ∧ t.guard.asleep = false ∧
    t.guard.pgood = pgood ∧ t.guard.step = (if pgood then 2 else 1) ∧ t.guard.arb = s.guard.arb ∧
    t.guard.scmdCtr = s.guard.scmdCtr ∧ t.guard.attCtr = s.guard.attCtr ∧ t.guard.lifecycle = s.guard.lifecycle ∧
    t.guard.bootMode = s.guard.bootMode ∧ t.clk = State.reset.clk ∧ t.pts = [] ∧ t.loom = State.reset.loom ∧ t.loops = [] ∧
    t.toll = State.reset.toll ∧ t.opx = State.reset.opx ∧ t.scrv.slots = s.scrv.slots ∧ t.sgn.recs = s.sgn.recs ∧
    t.sgn.safeId = s.sgn.safeId ∧ t.dayb.drain = s.dayb.drain ∧ s.dayb.head ≤ t.dayb.head ∧ t.vault.rootOf = s.guard.lifecycle ∧
    (rising s.vault.slots = true → ∀ n, slot t n = { slot s n with stage := none }) ∧
    (∀ a, pageOf a ≠ pLOCK → pageOf a ≠ pDAYB → pageOf a ≠ pUPD → pageOf a ≠ pWTCH → pageOf a ≠ pCAL → pageOf a ≠ pBKP →
      rd t a = resetVal a) ∧
    (∀ a, pageOf a = pWTCH ∨ pageOf a = pCAL ∨ (pageOf a = pBKP ∧ s.guard.unlockArmed = false) → rd t a = rd s a) ∧
    (s.guard.unlockArmed = false → t.guard.lockdownRec = s.guard.lockdownRec) ∧
    (s.guard.unlockArmed = true → t.guard.lockdownRec = false ∧ t.guard.unlockArmed = false ∧
      rd t (reg pBKP 0x090) = 0 ∧ rd64 t (reg pBKP 0x094) = 0 ∧ rd t (reg pBKP 0x09C) = 0)

/-- A signed command has been accepted (R335): SCMD_CTR takes its COUNTER, SCMD_RESULT shows it served, EVT.SCMD_DONE. -/
def signedServed (s t : State) (ty : Nat) : Prop :=
  t.guard.scmdCtr = leAt (signedBlock s) 0x18 8 ∧ rd t (reg pMOD 0x0A0) = w32 (oSERVED + ty * 2 ^ 16) ∧
    rdB t (reg pMOD 0x088) 3 = true

/-- A signed command has been refused (R335): nothing but its result. -/
def signedRefused (s t : State) : Prop :=
  t.guard = s.guard ∧ fld (rd t (reg pMOD 0x0A0)) 0 16 = oRIGHTS ∧ fld (rd t (reg pMOD 0x0A0)) 20 4 = signedCause s (signedBlock s) ∧
    rdB t (reg pMOD 0x088) 3 = true ∧ t.wgh = s.wgh ∧ t.loom = s.loom ∧ t.opx = s.opx

end Sys2Proof.Machine
end

