-- ==== Sys2Proof/Certificates/Slice0/Obligations.lean ====
section
/-!
DEFINITION. The statements about the module, in the order of the manual's chapters. A statement about a command says where
it completes and what it leaves, under hypotheses on the state and the operands alone. `clear` and `clearRead` (Safety) say
that a register access meets nothing on its way.
-/

open Sys2Proof Sys2Proof.Machine

/-! ### The machine as a whole -/

/-- A step takes the command at the front of the queue and is its meaning on the state with the rest of the queue; on an
empty queue one fabric cycle passes and nothing else changes (the model's choice, log 1). -/
def Obligations.StepRunsTheFront : Prop :=
  (∀ (c : Instr) (cs : List Instr) (s : State), step { s with pending := c :: cs } = exec c { s with pending := cs }) ∧
    ∀ s : State, step { s with pending := [] } = .next { s with pending := [], clk := s.clk.advance 1 }

/-- Every command completes: it answers a next state and leaves the queue of the commands that wait alone. -/
def Obligations.EveryCommandCompletes : Prop :=
  ∀ (c : Instr) (s : State), ∃ t, exec c s = .next t ∧ t.pending = s.pending

/-- R47: the count never decreases, whatever command the module takes up, but for the commands whose effect is a module
reset. -/
def Obligations.CountNeverDecreases : Prop :=
  ∀ s t : State, (∀ c ∈ s.pending.head?, resets c = false) → step s = .next t → count s ≤ count t

/-- What only a module reset takes back (R340, R344, R335, R285, R286, R345, R2): every step but a reset keeps PROT.LOCK and
DEAD set, UPD.ARB, SCMD_CTR and ATT_CTR from falling, the life-cycle from going back, the fuses, and METER unless an
accepted signed command has raised SCMD_CTR. -/
def Obligations.GuardIsKept : Prop :=
  ∀ s t : State, (∀ c ∈ s.pending.head?, resets c = false) → step s = .next t → s.guard.kept t.guard

/-! ### Register accesses without a row of their own -/

/-- R6, R350: a write to a plain RW register (WAKE_EN, THR and PRIO of INTC, SCRATCH of BKP) sets its RW bits and leaves the
others; a write with partial byte enables changes no register of the page, and neither does one to a reserved offset, which
leaves no Daybook entry. Where the manual
leaves a corner of this open, it is the model's reading: log 43. -/
def Obligations.RegisterWriteSetsRwBits : Prop :=
  ∀ (s : State) (i : Init) (a : BitVec 20) (v : Word),
    (clear s i a.toNat v = true →
      ((∃ k < 8, a.toNat = reg pINTC (0x140 + 4 * k)) →
        ∃ t, exec (.registerWrite i a 0xF v) s = .next t ∧ rd t a.toNat = v) ∧
      ((∃ k < 16, a.toNat = reg pBKP (0x100 + 4 * k)) →
        ∃ t, exec (.registerWrite i a 0xF v) s = .next t ∧ rd t a.toNat = v) ∧
      ((∃ k < 256, a.toNat = reg pINTC (0x400 + 4 * k)) →
        ∃ t, exec (.registerWrite i a 0xF v) s = .next t ∧
          rd t a.toNat = (rd s a.toNat &&& ~~~0x1F#32) ||| (v &&& 0x1F#32))) ∧
      (clear s i a.toNat v = true → rowOf a.toNat = none →
        ∃ t, exec (.registerWrite i a 0xF v) s = .next t ∧ t.dayb = s.dayb ∧ t.guard = s.guard ∧ t.clk = s.clk ∧
          t.loom = s.loom ∧ t.pts = s.pts ∧ ∀ b, pageOf b ≠ pTOLL → rd t b = rd s b) ∧
      ∀ (be : BitVec 4) (r : Req) (u : State), be ≠ 0xF →
        r = newReq s i.who (clsFor s i) (.regWritePart a.toNat) (ownSink i.who a.toNat true) →
        portOpen s i.who = true → entered s r = some u →
        ∃ t, exec (.registerWrite i a be v) s = .next t ∧ t.guard = s.guard ∧ t.loom = s.loom ∧ t.pts = s.pts ∧
          (∀ b, pageOf b ≠ pTOLL → pageOf b ≠ pDAYB → pageOf b ≠ pHOSTP → rd t b = rd s b) ∧
          (pageAbsent u i.who (pageOf a.toNat) = false → fusedOff s (pageOf a.toNat) = false → logOk s r.cls = true →
            s.dayb.lost = 0 →
            ∃ e : DayEntry, t.dayb.reserved = s.dayb.reserved ++ [e] ∧ e.outcome = oRIGHTS ∧ e.old = e.new)

/-- R7, chapter 3: a read of SCAN.READY_MAX, the RC register of the map, returns its value and leaves it 0. -/
def Obligations.RcReadClears : Prop :=
  ∀ (s : State) (i : Init), clearRead s i (reg pSCAN 0x0B0) = true →
    ∃ t, exec (.rcRead i (BitVec.ofNat 20 (reg pSCAN 0x0B0))) s = .next t ∧ rd t (reg pSCAN 0x0B0) = 0 ∧
      t.replies = s.replies ++ [⟨i.who, reg pSCAN 0x0B0, oSERVED, [view s i.who (reg pSCAN 0x0B0)]⟩]

/-! ### TOLL (chapter 1) -/

/-- R14, R22, R24: at a window start that neither a BULK request nor a TENANT request at its delay budget meets, while nothing
is held, no message's entries wait and no completion waits for DRAM, a new window begins, every account at zero, on the first
fabric cycle on which the count has reached it; a resource is congested in it when an OPERATOR or TENANT request waits for it. -/
def Obligations.WindowStarts : Prop :=
  ∀ (s : State) (pos : Nat), pos % 8192 = 0 → (s.toll.win = 0 ∨ s.toll.winStart < pos) → s.clk.moves = true →
    (∀ r ∈ s.toll.waiting, r.cls ≠ .bulk ∧ expired (reachPos s pos) r = false) → s.toll.held = [] →
    (∀ m ∈ s.toll.asm, m.todo = []) → s.fact.posts = [] →
    ∃ t, exec (.accountingWindowStart pos) s = .next t ∧ t.toll.win = s.toll.win + 1 ∧ t.toll.winStart = count t ∧
      pos ≤ count t ∧ (∀ k c, usedOf t k c = 0) ∧ t.toll.waiting = s.toll.waiting ∧
      ∀ n < 5, congested t (if n = 0 then 0 else n + 4) = congestsNow s n

/-- R16, R19, R21: while a SAFETY request can be granted at a resource, the next grant goes to a SAFETY request; while none can
and a CONTROL request can, to a CONTROL request; within those classes no request that arrived earlier is passed over. A SAFETY
or CONTROL request that no earlier one of its requester holds back waits at no resource: it is granted as it arrives. Where the
manual leaves a corner of this open, it is the model's reading: log 44. -/
def Obligations.UrgentClassesFirst : Prop :=
  ∀ (s : State) (k : Nat),
    (∀ (j : Nat) (r : Req), nextGrant s k = some (j, r) →
      ((∃ e ∈ grantable s k, e.2.cls = .safety) → r.cls = .safety) ∧
        ((∀ e ∈ grantable s k, e.2.cls ≠ .safety) → (∃ e ∈ grantable s k, e.2.cls = .control) → r.cls = .control) ∧
        ((r.cls = .safety ∨ r.cls = .control) → ∀ e ∈ grantable s k, e.2.cls = r.cls → r.cyc ≤ e.2.cyc)) ∧
    ∀ r : Req, (r.cls = .safety ∨ r.cls = .control) → heldRead s r = false → aheadOf s r k = false →
      (k = 8 → logOk s r.cls = true) → arrive s r k = .grant

/-- R16, R24, R29: a supervisor core's DRAM read that alone waits at the DRAM resource. A grant while the window has capacity
left serves it with the bytes that stand there, its outcome word DELAYED with the wait in scan periods when the window of
its arrival has ended, else SERVED; when it is of class TENANT and its wait has reached the delay budget, DELAY_BUDGET_EXPIRY
ends it REFUSED_LOAD instead, and so does the next grant at the resource. Where the manual
leaves a corner of this open, it is the model's reading: log 44. -/
def Obligations.WaitingRequestEnds : Prop :=
  ∀ (s : State) (r : Req) (c : Fin 2) (m n a : Nat), s.toll.waiting = [r] → r.who = .core c → r.body = .dramRead m n →
    r.sink = .own (.core c) a → r.path = [5] → r.logging = false → m + n ≤ Config.dramBytes → s.toll.held = [] →
    (∀ x ∈ s.toll.asm, x.todo = []) →
    (mayGrant s 5 r.cls = true → expired s r = false → overBudget s r.who r.cls 5 1 = false →
      ∃ t, exec (.requestGrant 5) s = .next t ∧ t.toll.waiting = [] ∧
        t.replies = s.replies ++
          [⟨.core c, a,
            (if r.later ∨ r.arrWin ≠ s.toll.win then
              oDELAYED + 256 * clampN 1 255 (ceilDiv (r.waited + (count s - r.arrived)) (scanT s))
            else oSERVED),
            wordsOf (ramBytes s m n)⟩]) ∧
    (r.cls = .tenant → s.toll.delay * scanT s ≤ r.waited + (count s - r.arrived) →
      ∀ x, x = .delayBudgetExpiry 5 ∨ x = .requestGrant 5 →
      ∃ t, exec x s = .next t ∧ t.toll.waiting = [] ∧
        ∃ w, w % 256 = oLOAD ∧ t.replies = s.replies ++ [⟨.core c, a, w, List.replicate ((n + 3) / 4) 0⟩])

/-! ### Interrupts, page headers and the host port (chapter 15) -/

/-- R359, R361, R363: on a page with a header, IRQ_PEND_SET sets software bits, IRQ_PEND_CLR clears software and event bits, but
for events of the same fabric cycle, and IRQ_MASK_SET and IRQ_MASK_CLR set and clear mask bits; in INTC, PEND_SETk sets software
bits and latches, PEND_CLRk clears them, but for those set on the same fabric cycle, MASK_SETk and MASK_CLRk set and clear mask
bits. A 1 written to an event bit of LAC.EVT clears it, but for one of the same fabric cycle. -/
def Obligations.InterruptBits : Prop :=
  ∀ (s : State) (i : Init) (v : Word),
    (∀ p : Fin 128, headed p.val = true →
      (clear s i (reg p.val 0x014) v = true →
        ∃ t, exec (.irqPendSet i p v) s = .next t ∧ rd t (reg p.val 0x010) = rd s (reg p.val 0x010) ||| v) ∧
      (clear s i (reg p.val 0x018) v = true →
        ∃ t, exec (.irqPendClr i p v) s = .next t ∧ rd t (reg p.val 0x010) = rd s (reg p.val 0x010) &&& ~~~v ∧
          ∀ e, evtAddr p.val = some e → rd t e = rd s e &&& ~~~(v &&& ~~~(freshBits s e))) ∧
      (clear s i (reg p.val 0x020) v = true →
        ∃ t, exec (.irqMaskSet i p v) s = .next t ∧ rd t (reg p.val 0x01C) = rd s (reg p.val 0x01C) ||| v) ∧
      (clear s i (reg p.val 0x024) v = true →
        ∃ t, exec (.irqMaskClr i p v) s = .next t ∧ rd t (reg p.val 0x01C) = rd s (reg p.val 0x01C) &&& ~~~v)) ∧
    (clear s i (reg pLAC 0x088) v = true →
      ∃ t m, exec (.registerWrite i (BitVec.ofNat 20 (reg pLAC 0x088)) 0xF v) s = .next t ∧
        (rowOf (reg pLAC 0x088)).map (·.w1c) = some m ∧
        rd t (reg pLAC 0x088) = rd s (reg pLAC 0x088) &&& ~~~(v &&& w32 m &&& ~~~(freshBits s (reg pLAC 0x088)))) ∧
    ∀ k : Fin 8,
      (clear s i (reg pINTC (0x0A0 + 4 * k.val)) v = true →
        ∃ t, exec (.intcPendSet i k v) s = .next t ∧
          rd t (reg pINTC (0x080 + 4 * k.val)) = rd s (reg pINTC (0x080 + 4 * k.val)) ||| v) ∧
      (clear s i (reg pINTC (0x0C0 + 4 * k.val)) v = true →
        ∃ t, exec (.intcPendClr i k v) s = .next t ∧
          rd t (reg pINTC (0x080 + 4 * k.val)) = rd s (reg pINTC (0x080 + 4 * k.val)) &&&
            ~~~(v &&& ~~~(freshBits s (reg pINTC (0x080 + 4 * k.val))))) ∧
      (clear s i (reg pINTC (0x100 + 4 * k.val)) v = true →
        ∃ t, exec (.intcMaskSet i k v) s = .next t ∧
          rd t (reg pINTC (0x0E0 + 4 * k.val)) = rd s (reg pINTC (0x0E0 + 4 * k.val)) ||| v) ∧
      (clear s i (reg pINTC (0x120 + 4 * k.val)) v = true →
        ∃ t, exec (.intcMaskClr i k v) s = .next t ∧
          rd t (reg pINTC (0x0E0 + 4 * k.val)) = rd s (reg pINTC (0x0E0 + 4 * k.val)) &&& ~~~v)

/-- R362, R363: what INTC.TOPn shows is a candidate of its target that was pending before the fabric cycle; none such has a
higher priority, nor the same and a lower number, and without one it shows 0x3FF. Where the fabric cycle has set nothing, every
candidate counts. -/
def Obligations.TopSourceIsHighest : Prop :=
  ∀ (s : State) (t : Nat),
    ((∀ n < 256, candidate s t n = true → srcBefore s n = false) → topSource s t = 0x3FF#32) ∧
      (∀ m < 256, candidate s t m = true → srcBefore s m = true →
        ∃ n < 256, topSource s t = w32 (n + srcPrio s n * 65536) ∧ candidate s t n = true ∧ srcBefore s n = true ∧
          ∀ k < 256, candidate s t k = true → srcBefore s k = true →
            srcPrio s k < srcPrio s n ∨ (srcPrio s k = srcPrio s n ∧ n ≤ k)) ∧
      (s.fresh.1 ≠ s.clk.fabric → ∀ n, srcBefore s n = srcPending s n)

/-- R360, R351: a write of PG_CTRL.ENABLE takes effect where the page list marks it writable, and changes nothing elsewhere;
SOFT_RESET of a block discards the staged words of its pages, and of the angle event table's block the deferred actions. -/
def Obligations.PageEnableAndRestart : Prop :=
  ∀ (s : State) (i : Init) (p : Fin 128), headed p.val = true →
    (∀ on : Bool, clear s i (reg p.val 0x008) (w32 (b2n on)) = true →
      ∃ t, exec (.pageEnable i p on) s = .next t ∧
        enabled t p.val = (if enableWritable p.val then on else enabled s p.val)) ∧
    (clear s i (reg p.val 0x008) (restartWord s p.val) = true →
      ∃ t, exec (.softReset i p) s = .next t ∧
        (∀ e ∈ t.staged, blockPage (pageOf (e.1 % 2 ^ 20)) ≠ blockPage p.val) ∧
        (p.val = pAET → t.lac.deferred = []))

/-- R347, R348, R358, R365: SLEEP.GO from a supervisor core in a quiet module without a pending wake source puts it to sleep;
with a role set, or in the module safe state, RESULT shows REFUSED_ROLE and the module stays awake. A wake-enabled source
that is pending ends the sleep, and drives PCIE_WAKE_N low when it is routed to T0, which ends after 1 s, not before. HOSTP.STAT shows the
link as it changes; PERST takes it down, sets EVT.PERST and leaves the rest of the module; SVC_VBUS attaches the service port,
with EVT.SVC_ATTACH, and detaches it, with its unanswered requests. Where the manual
leaves a corner of this open, it is the model's reading: log 45, 48. -/
def Obligations.SleepLinkAndService : Prop :=
  ∀ s : State,
    (∀ i : Init, clear s i (reg pINTC 0x170) 1 = true →
      (sleepResult s = 1 → wakeEn s pDAYB = false → ∃ t, exec (.sleepGo i) s = .next t ∧ t.guard.asleep = true) ∧
      ((roleSet s = true ∨ s.guard.safe = true) → ∃ t, exec (.sleepGo i) s = .next t ∧
        t.guard.asleep = s.guard.asleep ∧ rdF t (reg pINTC 0x174) 0 2 = 2)) ∧
    (∀ n : BitVec 8, s.guard.asleep = true → sleepSource n.toNat = true → wakeEn s n.toNat = true →
      srcPending s n.toNat = true →
      ∃ t, exec (.wakeFromSleep n) s = .next t ∧ t.guard.asleep = false ∧
        rdF t (reg pINTC 0x174) 2 8 = n.toNat ∧
        (rdF s (reg pINTC (0x400 + 4 * n.toNat)) 4 1 = 0 → t.pins.pcieWakeN = false ∧ t.pins.wakeAt = s.clk.fabric)) ∧
    (s.pins.wakeAt + Config.fabricHz ≤ s.clk.fabric →
      ∃ t, exec .pcieWakeTimeout s = .next t ∧ t.pins.pcieWakeN = true) ∧
    (s.clk.fabric < s.pins.wakeAt + Config.fabricHz →
      ∃ t, exec .pcieWakeTimeout s = .next t ∧ t.pins.pcieWakeN = s.pins.pcieWakeN) ∧
    (∀ (up : Bool) (sp w : BitVec 2), ∃ t, exec (.hostLinkChange up sp w) s = .next t ∧
      rdB t (reg pHOSTP 0x084) 1 = up ∧ rdF t (reg pHOSTP 0x084) 2 2 = (if up then sp.toNat else 0) ∧
      rdF t (reg pHOSTP 0x084) 4 2 = (if up then w.toNat else 0) ∧ t.pins.clkreqN = !up) ∧
    (∃ t, exec .perst s = .next t ∧ rdB t (reg pHOSTP 0x084) 1 = false ∧ rdB t (reg pHOSTP 0x088) 1 = true ∧
      (∀ r ∈ t.toll.waiting, r.who ≠ .host) ∧ (∀ r ∈ t.toll.held, r.who ≠ .host) ∧ t.loom = s.loom ∧ t.lac = s.lac ∧ t.pts = s.pts) ∧
    (s.pins.svc = false → ∃ t, exec .svcAttach s = .next t ∧ t.pins.svc = true ∧ rdB t (reg pHOSTP 0x088) 5 = true) ∧
    ∃ t, exec .svcDetach s = .next t ∧ t.pins.svc = false ∧ (∀ m ∈ t.toll.asm, m.svc = false) ∧
      (∀ r ∈ t.toll.waiting, r.who ≠ .service) ∧ ∀ r ∈ t.toll.held, r.who ≠ .service

/-- R349, R356: a host access through HOSTWIN_C to addressable DRAM. A write with the WRITE right stores its bytes from C_BASE
plus the offset upwards and nothing else; a read with the READ right returns the bytes that stand there. Where the manual
leaves a corner of this open, it is the model's reading: log 2, 44. -/
def Obligations.HostApertureReachesDram : Prop :=
  ∀ (s : State) (off : BitVec 26) (bs : List Byte) (n base : Nat),
    rdB s (reg pHOSTP 0x084) 0 = true → base = rd64 s (reg pHOSTP 0x09C) / 2 ^ 26 * 2 ^ 26 + off.toNat →
    (base + bs.length ≤ Config.dramBytes → hasRight s .host rWRITE = true → s.guard.safe = false → s.guard.dead = false →
      room s .host (clsFor s ⟨.host, .operator⟩) (.dramWrite base bs) = true →
      ∃ t, exec (.hostwinCAccess off (some bs) n) s = .next t ∧
        (∀ j < bs.length, ramByte t (base + j) = nthD bs j 0) ∧
        ∀ a, (a < base ∨ base + bs.length ≤ a) → ramByte t a = ramByte s a) ∧
    (base + n ≤ Config.dramBytes → hasRight s .host rREAD = true →
      room s .host (clsFor s ⟨.host, .operator⟩) (.dramRead base n) = true →
      ∃ t, exec (.hostwinCAccess off none n) s = .next t ∧ t.dram = s.dram ∧
        t.replies = s.replies ++ [⟨.host, 2 ^ 31 + off.toNat, oSERVED, wordsOf (ramBytes s base n)⟩])

/-- R358: service-port requests of one word, while no other is under way. REG_READ and REG_WRITE reach a BKP
scratch register, MEM_READ and MEM_WRITE DRAM, WIN_READ the Daybook window; each is answered SERVED, its index 0xFFFF, with
the word read. -/
def Obligations.ServicePortRequests : Prop :=
  ∀ (s : State) (c : Cls) (tag : Word), s.pins.svc = true → (∀ m ∈ s.toll.asm, m.svc = false) →
    (∀ k < 16, ∀ addr : DWord, addr.toNat = reg pBKP (0x100 + 4 * k) →
      (retiredPg s pBKP = false → room s .service c (.regRead addr.toNat) = true → hasRight s .service rREG = true →
        ∃ t, exec (.regRead c tag addr 1) s = .next t ∧
          t.replies = s.replies ++ [⟨.service, tag.toNat, oSERVED, [0xFFFF#32, rd s addr.toNat]⟩]) ∧
      (∀ v : Word, clear s ⟨.service, c⟩ addr.toNat v = true →
        ∃ t, exec (.regWrite c tag addr [v]) s = .next t ∧ rd t addr.toNat = v ∧
          t.replies = s.replies ++ [⟨.service, tag.toNat, oSERVED, [0xFFFF#32]⟩])) ∧
    (∀ addr : DWord, addr.toNat + 4 ≤ Config.dramBytes →
      (room s .service c (.dramRead addr.toNat 4) = true → hasRight s .service rREAD = true →
        ∃ t, exec (.memRead c tag addr 1) s = .next t ∧
          t.replies = s.replies ++ [⟨.service, tag.toNat, oSERVED, 0xFFFF#32 :: wordsOf (ramBytes s addr.toNat 4)⟩]) ∧
      (∀ v : Word, room s .service c (.dramWrite addr.toNat (leBytes 4 v.toNat)) = true →
        hasRight s .service rWRITE = true → s.guard.safe = false →
        ∃ t, exec (.memWrite c tag addr [v]) s = .next t ∧ ramNat t addr.toNat 4 = v.toNat ∧
          t.replies = s.replies ++ [⟨.service, tag.toNat, oSERVED, [0xFFFF#32]⟩])) ∧
    (∀ addr : DWord, 0xE00000 ≤ addr.toNat → addr.toNat < 0xF00000 → hasRight s .service rREAD = true →
      room s .service c (.winRead addr.toNat) = true →
      ∃ t, exec (.winRead c tag addr 1) s = .next t ∧
        t.replies = s.replies ++ [⟨.service, tag.toNat, oSERVED, [0xFFFF#32, (windowWord s .service addr.toNat).2]⟩])

/-! ### Millwheel and the angle event table (chapter 2) -/

/-- R52, R53, R55, R45, R51: the entries due at a position are exactly the enabled ones whose ANGLE is its angle and whose RESIDUE
agrees with its cycle number modulo M, as they stood before the position was reached. In service, at a position not yet evaluated, the first eight of them fire and the
rest is deferred to the next fabric cycles; RAISE latches its source, PULSE_GPIO starts a pulse on a general output, SYNC_OUT
one on ANG_SYNC_OUT. Before IN_SERVICE, and at a position already evaluated, nothing fires. -/
def Obligations.AngleEventsFire : Prop :=
  (∀ (s : State) (n c φ : Nat), n < 512 → φ < 65536 →
    ∀ w, w = aetWas s n 0 (c * 65536 + φ) →
    ((⟨n, c * 65536 + φ, false, w, aetWas s n 1 (c * 65536 + φ)⟩ : Fire) ∈ aetDue s (c * 65536 + φ) ↔
      bit w 31 = true ∧ fld w 0 16 = φ ∧ c % 2 ^ min 8 (fld w 24 4) = fld w 16 8 % 2 ^ min 8 (fld w 24 4))) ∧
  (∀ (s : State) (n pos : Nat), (∀ e ∈ s.past, e.kind = 3 → e.pos < pos) →
    aetWas s n 0 pos = aetW0 s n ∧ aetWas s n 1 pos = aetW1 s n) ∧
  (∀ (s : State) (pos : Nat), s.lac.inService = true → s.lac.evald < pos → s.clk.moves = true → s.lac.deferred = [] →
    (∀ f ∈ aetDue s pos, userFire f = true) →
    ∃ t, exec (.angleEventFire pos) s = .next t ∧ pos ≤ count t ∧ t.lac.evald = pos ∧
      t.lac.deferred = (aetDue s pos).drop 8 ∧
      (rd t (reg pLAC 0x0A0)).toNat =
        countUp (corMode s pLAC) 32 (rd s (reg pLAC 0x0A0)).toNat (min 8 (aetDue s pos).length) ∧
      ∀ f ∈ (aetDue s pos).take 8, fired s t f) ∧
  (∀ s : State, (∀ f ∈ s.lac.deferred, userFire f = true) →
    ∃ t, exec .angleEventDeferredFire s = .next t ∧ t.lac.deferred = s.lac.deferred.drop 8 ∧
      ∀ f ∈ s.lac.deferred.take 8, fired s t f) ∧
  ∀ (s : State) (pos : Nat), (s.lac.inService = false ∨ pos ≤ s.lac.evald) →
    ∃ t, exec (.angleEventFire pos) s = .next t ∧ t.regs = s.regs ∧ t.clk = s.clk ∧ t.lac = s.lac ∧
      t.pins.gpioPulse = s.pins.gpioPulse ∧ t.pins.syncOut = s.pins.syncOut

/-- R51, R381: a pulse on a GPIO, on ANG_SYNC_OUT and on PPS_OUT ends, the last not before its time, and a PPS_IN edge is
timestamped with the count. -/
def Obligations.PulsesEnd : Prop :=
  ∀ s : State,
    (∀ p : Fin 9, ∃ t, exec (.pulseEnd p) s = .next t ∧
      (p.val < 8 → t.pins.gpioPulse.getLsbD p.val = false ∧
        ∀ j, j ≠ p.val → t.pins.gpioPulse.getLsbD j = s.pins.gpioPulse.getLsbD j) ∧
      (p.val = 8 → t.pins.syncOut = false ∧ t.pins.gpioPulse = s.pins.gpioPulse)) ∧
    (∃ t, exec .ppsIn s = .next t ∧ t.pins.ppsAt = some (count s)) ∧
    ∃ t, exec .ppsOutEnd s = .next t ∧
      t.pins.ppsOut = (if s.vault.tickAt + 39987800 ≤ s.clk.fabric then false else s.pins.ppsOut)

/-- R36: a 64-bit read of LAC.ANGLE_LO returns the whole count; a 32-bit read returns its low half and latches bits [63:32]
for the initiator alone, and the initiator's next read of ANGLE_HI returns and uses up the latch; without one pending it
returns the current value. -/
def Obligations.AngleReads : Prop :=
  ∀ (s : State) (i : Init), retiredPg s pLAC = false →
    (clearRead s i (reg pLAC 0x08C) = true →
      ∃ t, exec (.angleLoRead i false) s = .next t ∧
        t.replies = s.replies ++ [⟨i.who, reg pLAC 0x08C, oSERVED, [lo32 (count s)]⟩] ∧
        get? t.latch (initKey i.who (reg pLAC 0x090)) = some (hi32 (count s)) ∧
        ∀ w, w ≠ i.who → get? t.latch (initKey w (reg pLAC 0x090)) = get? s.latch (initKey w (reg pLAC 0x090))) ∧
    (clearRead s i (reg pLAC 0x090) = true →
      ∃ t, exec (.angleHiRead i) s = .next t ∧ get? t.latch (initKey i.who (reg pLAC 0x090)) = none ∧
        t.replies = s.replies ++ [⟨i.who, reg pLAC 0x090, oSERVED,
          [(get? s.latch (initKey i.who (reg pLAC 0x090))).getD (hi32 (count s))]⟩]) ∧
    (clearRead s i (reg pLAC 0x08C) = true →
      clearRead (submitRead s i (reg pLAC 0x08C)) i (reg pLAC 0x090) = true →
      ∃ t, exec (.angleLoRead i true) s = .next t ∧
        t.replies = s.replies ++ [⟨i.who, reg pLAC 0x08C, oSERVED, [lo32 (count s)]⟩] ++
          [⟨i.who, reg pLAC 0x090, oSERVED, [hi32 (count s)]⟩])

/-- R53, R40, R44, R51: a write to an entry's word 0 is staged for its initiator and leaves the table; a write to its word 1
commits the staged word 0, or keeps the current one, and changes no other entry; at the position that the count has reached
the entry still stands as before. LAC.CTRL holds what was written within its
fields' ranges and enables entry 48 by SYNC_OUT_EN; from LOCKED a change of SOURCE is a reference change, and so is a change of
NET_SESSION under NETWORK, which other writes are not. -/
def Obligations.MillwheelWrites : Prop :=
  ∀ (s : State) (i : Init) (v : Word),
    (∀ n : Fin 512,
      (clear s i (aetAddr n.val 0) v = true →
        ∃ t, exec (.aetWord0Stage i n v) s = .next t ∧ get? t.staged (initKey i.who (aetAddr n.val 0)) = some v ∧
          ∀ m < 512, aetW0 t m = aetW0 s m ∧ aetW1 t m = aetW1 s m) ∧
      (clear s i (aetAddr n.val 1) v = true →
        ∃ t, exec (.aetEntryCommit i n v) s = .next t ∧ aetW1 t n.val = v &&& 0xFFFFFF#32 ∧
          aetW0 t n.val =
            aetClean ((get? s.staged (initKey i.who (aetAddr n.val 0))).getD (aetW0 s n.val)) ∧
          get? t.staged (initKey i.who (aetAddr n.val 0)) = none ∧
          ((∀ e ∈ s.past, e.pos ≤ count s) → ∀ w < 2, aetWas t n.val w (count s) = aetWas s n.val w (count s)) ∧
          ∀ m < 512, m ≠ n.val → aetW0 t m = aetW0 s m ∧ aetW1 t m = aetW1 s m)) ∧
    (clear s i (reg pLAC 0x080) v = true →
      ∃ t, exec (.lacCtrlWrite i v) s = .next t ∧ lacCtrl t = ctrlClean v ∧ bit (aetW0 t 48) 31 = bit v 10 ∧
        (bit v 10 = false → t.pins.syncOut = false) ∧
        (s.lac.started = true → s.lac.track = .locked → fld v 0 2 ≠ fld (lacCtrl s) 0 2 → fld v 0 2 ≠ 3 →
          ¬(mISLAND s = true ∧ fld v 0 2 = 0) →
          t.lac.track = .acquire ∧ t.lac.refValid = false ∧ t.lac.fly = some s.clk.fabric ∧
            t.clk.target = s.clk.freq) ∧
        (fld v 0 7 = fld (lacCtrl s) 0 7 → fld v 4 3 < 6 → t.lac = s.lac)) ∧
    (clear s i (reg pLAC 0x0AC) v = true →
      ∃ t, exec (.lacNetSessionWrite i v) s = .next t ∧ rd t (reg pLAC 0x0AC) = v ∧
        (s.lac.started = true → s.lac.track = .locked → fld (lacCtrl s) 0 2 = 2 → v ≠ rd s (reg pLAC 0x0AC) →
          t.lac.track = .acquire ∧ t.lac.refValid = false) ∧
        ((fld (lacCtrl s) 0 2 ≠ 2 ∨ v = rd s (reg pLAC 0x0AC)) → t.lac = s.lac))

/-- R41–R44, R48: from LOCKED a reference found invalid leads to FLYWHEEL at the held frequency, sets LOCK_LOST and FLYWHEEL, and
starts the flywheel time; SYNC_MISSING, 1.25 held periods after the last pulse, and NETREF_LOST, 1 s after the last TIME_REF, are
set as well by their references. The voltage reference is invalid below SAG_THR, outside the lock range, or while LOCKED at a
phase error of 4,096 au, and else stands. A reference that meets its condition is valid: it leads FLYWHEEL and SYNTHETIC to
ACQUIRE, REFCH taking force, and is followed in ACQUIRE and LOCKED; sync pulses at a rate within the lock range make theirs
valid, and one that comes at another rate invalid, itself being the first of the next. Where the manual
leaves a corner of this open, it is the model's reading: log 28, 54. -/
def Obligations.ReferencesComeAndGo : Prop :=
  ∀ s : State, s.lac.started = true →
    (s.lac.track = .locked →
      (∀ t0, sourceEff s = 1 → s.lac.syncAt = some t0 → ∃ t, exec .syncMissing s = .next t ∧ lostLock t ∧
        rdB t (reg pLAC 0x088) 6 = true ∧ t0 + s.lac.syncPer * 5 / 4 ≤ t.clk.fabric) ∧
      (∀ t0, sourceEff s = 2 → s.lac.netAt = some t0 → ∃ t, exec .netrefLost s = .next t ∧ lostLock t ∧
        rdB t (reg pLAC 0x088) 7 = true ∧ t0 + Config.fabricHz ≤ t.clk.fabric)) ∧
    (∀ x, x = s.lac.seen → sourceEff s = 0 →
      (magAbove s x.mag (sagThr s) = false ∨ inLockRange x.freq = false ∨ s.lac.track = .locked ∧ 4096 ≤ x.ph.natAbs →
        ∃ t, exec .referenceInvalid s = .next t ∧ t.lac.refValid = false ∧
          (s.lac.track = .locked → lostLock t ∧ t.clk.freq = s.clk.freq)) ∧
      (magAbove s x.mag (sagThr s) = true → inLockRange x.freq = true → (s.lac.track ≠ .locked ∨ x.ph.natAbs < 4096) →
        ∃ t, exec .referenceInvalid s = .next t ∧ t.lac = s.lac ∧ t.clk = s.clk)) ∧
    (∀ (mag f : Nat) (ph : Int), sourceEff s ≠ 3 →
      ∀ ok : Bool, ok = (if sourceEff s = 0 then magAbove s mag (sagThr s + if s.lac.sagged then 5 else 0) && inLockRange f
        else if sourceEff s = 1 then decide (2 ≤ s.lac.syncGood) && inLockRange f else decide (2 ≤ s.lac.netGood)) →
      (ok = true → ∃ t, exec (.referenceValid ⟨mag, f, ph⟩) s = .next t ∧ t.lac.refValid = true ∧
        (s.lac.track = .flywheel ∨ s.lac.track = .synthetic → t.lac.track = .acquire ∧ t.clk.freq = s.clk.freq ∧
          (sourceEff s = 0 → t.lac.refch = fld (lacCtrl s) 4 3)) ∧
        (s.lac.track = .acquire → t.lac.track = .acquire ∧ t.clk.target = f * 1000) ∧
        (s.lac.track = .locked → t.lac.track = .locked ∧ t.clk.target = Config.steer f ph)) ∧
      (ok = false → ∃ t, exec (.referenceValid ⟨mag, f, ph⟩) s = .next t ∧ t.lac = s.lac ∧ t.clk = s.clk)) ∧
    (∀ (rising : Bool) (t0 d : Nat), sourceEff s = 1 → rising = !bit (lacCtrl s) 11 → s.lac.syncAt = some t0 →
      d = s.clk.fabric - rdF s (reg pLAC 0x0A8) 8 8 * 4 - t0 →
      ∃ t, exec (.syncPulse rising) s = .next t ∧
        t.lac.syncAt = some (s.clk.fabric - rdF s (reg pLAC 0x0A8) 8 8 * 4) ∧
        (Config.fabricHz ≤ d * 69 → d * 85 ≤ Config.fabricHz * 2 → t.lac.syncGood = s.lac.syncGood + 1 ∧
          (1 ≤ s.lac.syncGood → t.lac.refValid = true)) ∧
        (d * 69 < Config.fabricHz ∨ Config.fabricHz * 2 < d * 85 → t.lac.syncGood = 0 ∧ t.lac.refValid = false))

/-- R44–R49: the lock after reset moves the count forward to the reference angle, less than a cycle on, or under NETWORK to the
master's cycle, and puts Millwheel in service; a later lock with a phase difference e makes a forward step of e above 655 au, or of 65,536 + e below −655 au under
STEP, with the size in STEP_CAPT, and else slows or quickens by at most 655 au a cycle. Without a reference ACQUIRE ends in
SYNTHETIC, and so does FLYWHEEL when the flywheel time has reached FLY_LIMIT; a cycle of a correction gives way to the next. Where the manual
leaves a corner of this open, it is the model's reading: log 28, 54. -/
def Obligations.TrackerMoves : Prop :=
  ∀ (s : State) (a : BitVec 16) (f : Nat), s.lac.deferred = [] →
    (∀ r ∈ s.toll.waiting, r.cls ≠ .bulk ∧ r.cls ≠ .tenant) →
    (s.lac.track = .acquire → s.lac.refValid = true → inLockRange f = true →
      (s.lac.inService = false → ∃ t, exec (.trackerConverged a f) s = .next t ∧
        t.lac.track = .locked ∧ t.lac.inService = true ∧ angleOf (count t) = a.toNat ∧ count s ≤ count t ∧
        t.lac.evald = count t ∧ (sourceEff s ≠ 2 → count t < count s + 65536) ∧
        (sourceEff s = 2 → cycleOf (masterPos s a.toNat) ≤ cycleOf (count t))) ∧
      (s.lac.inService = true → s.clk.freq = f * 1000 → ∀ e : Int, e = foldAu ((a.toNat : Int) - angleOf (count s)) →
        (∀ k : Nat, (655 < e ∧ (k : Int) = e ∨ e < -655 ∧ bit (lacCtrl s) 9 = true ∧ (k : Int) = 65536 + e) →
          aetStepDue s (count s) (count s + k) = [] →
          ∃ t, exec (.trackerConverged a f) s = .next t ∧ t.lac.track = .locked ∧ count t = count s + k ∧
            rd t (reg pLAC 0x09C) = w32 k ∧ rdB t (reg pLAC 0x088) 3 = true ∧ rdB t (reg pLAC 0x088) 4 = true ∧
            t.lac.evald = max s.lac.evald (count s + k)) ∧
        (e ≠ 0 → e ≤ 655 → (-655 ≤ e ∨ bit (lacCtrl s) 9 = false) →
          ∃ t, exec (.trackerConverged a f) s = .next t ∧ t.lac.track = .locked ∧ t.clk.acc = s.clk.acc ∧
            t.clk.corrNow = max (-655) e ∧ t.clk.corrLeft = e - max (-655) e ∧ rdB t (reg pLAC 0x088) 3 = true))) ∧
    (s.lac.started = true → s.lac.track = .acquire → s.lac.from_ = .reset → s.lac.inService = false →
      s.lac.refValid = false → ∃ t, exec .acquireTimeout s = .next t ∧ t.lac.track = .synthetic ∧
        t.lac.inService = true ∧ t.clk.freq = nominalFreq s ∧ rdB t (reg pLAC 0x088) 2 = true ∧
        s.lac.startAt + msFabric 500 ≤ t.clk.fabric) ∧
    (∀ t0, s.lac.track = .flywheel → s.lac.fly = some t0 → ∃ t, exec .flyLimit s = .next t ∧
      t.lac.track = .synthetic ∧ t.lac.fly = none ∧ t.clk.target = nominalFreq s ∧ rdB t (reg pLAC 0x088) 2 = true ∧
      t0 + flyMax s ≤ t.clk.fabric) ∧
    (s.clk.corrNow ≠ 0 → count s < s.clk.corrEnd → 0 < s.clk.step → ∃ t, exec .correctionCycleEnd s = .next t ∧ s.clk.corrEnd ≤ count t ∧
      t.clk.corrNow = clampI (-655) 655 s.clk.corrLeft ∧
      t.clk.corrLeft = s.clk.corrLeft - clampI (-655) 655 s.clk.corrLeft ∧ t.clk.corrEnd = s.clk.corrEnd + 65536)


/-! ### Loom: the scan engine (chapter 3) -/

/-- R59, R60, R81: SCAN.CMD = RUN in STOP, accepted, enters RUN with L2C clamped to 1,024–T − 1,024 au and places entries 0
and 1 at PHI_IN and L2C later, 2 and 3 at the half-cycle for a period of ½ cycle and disabled otherwise. SCAN.CMD = STOP leads
RUN and HOLD to STOP, discards every uncommitted scan and leaves the stop image to the next commit position. Where the manual
leaves a corner of this open, it is the model's reading: log 25. -/
def Obligations.ScanRunsAndStops : Prop :=
  ∀ (s : State) (i : Init),
    (clear s i (reg pSCAN 0x08C) 1 = true → s.loom.eng = .stop →
      ∃ t, exec (.scanRun i) s = .next t ∧ t.loom.eng = .run ∧ t.loom.first = true ∧ t.loom.cur = none ∧
        t.loom.holdOff = 0 ∧ 1024 ≤ t.loom.l2c ∧ t.loom.l2c ≤ scanT s - 1024 ∧
        rdF t (reg pSCAN 0x088) 0 23 = t.loom.l2c ∧
        (1024 ≤ rdF s (reg pSCAN 0x088) 0 23 → rdF s (reg pSCAN 0x088) 0 23 ≤ scanT s - 1024 →
          t.loom.l2c = rdF s (reg pSCAN 0x088) 0 23) ∧
        bit (aetW0 t 0) 31 = true ∧ fld (aetW0 t 0) 0 16 = rdF s (reg pSCAN 0x084) 0 16 ∧ fld (aetW1 t 0) 0 8 = 4 ∧
        bit (aetW0 t 1) 31 = true ∧
        fld (aetW0 t 1) 0 16 = (rdF s (reg pSCAN 0x084) 0 16 + t.loom.l2c) % 65536 ∧ fld (aetW1 t 1) 0 8 = 5 ∧
        (∀ n, n = 2 ∨ n = 3 → bit (aetW0 t n) 31 = decide (rdF s (reg pSCAN 0x080) 0 4 = 0)) ∧
        (rdF s (reg pSCAN 0x080) 0 4 = 0 → fld (aetW0 t 2) 0 16 = (rdF s (reg pSCAN 0x084) 0 16 + 32768) % 65536)) ∧
    (clear s i (reg pSCAN 0x08C) 2 = true →
      ∃ t, exec (.scanStop i) s = .next t ∧ t.loom.eng = .stop ∧
        (s.loom.eng = .stop → t.loom = s.loom) ∧
        (s.loom.eng ≠ .stop → t.loom.stopPending = true ∧ t.loom.curDone = true ∧ t.loom.ahead1 = none ∧
          t.loom.ahead2 = none ∧ t.loom.lanes = [] ∧ t.loom.words = s.loom.words ∧ t.loom.lastOut = s.loom.lastOut))

/-- R81, R83, R85: SCANDBG.CMD, in DEBUG. HOLD in RUN enters HOLD, discards run-ahead, sets HELD_COUNT to 0 and pauses the
latched scan before its next segment; RESUME continues it in RUN; STEP_SEG lets one segment and STEP_SCAN the scan run on in
HOLD. Where the manual
leaves a corner of this open, it is the model's reading: log 25. -/
def Obligations.ScanHoldsAndSteps : Prop :=
  ∀ (s : State) (i : Init),
    (clear s i (reg pSCANDBG 0x080) 1 = true → s.loom.eng = .run → s.loom.paused = false →
      ∃ t, exec (.scandbgHold i) s = .next t ∧ t.loom.eng = .hold ∧ t.loom.ahead1 = none ∧ t.loom.ahead2 = none ∧
        rd t (reg pSCANDBG 0x08C) = 0 ∧
        ∀ c n ns, scanAt s 0 = some c → pendingSegs s c = n :: ns → busyNow s = false →
          t.loom.paused = true ∧ t.loom.pauseSeg = n ∧ rdF t (reg pSCANDBG 0x084) 17 2 = 1) ∧
    (clear s i (reg pSCANDBG 0x080) 2 = true → s.loom.eng = .hold →
      ∃ t, exec (.scandbgResume i) s = .next t ∧ t.loom.eng = .run ∧ t.loom.paused = false ∧
        t.loom.cur = s.loom.cur ∧ t.loom.curDone = s.loom.curDone) ∧
    (clear s i (reg pSCANDBG 0x080) 3 = true → s.loom.eng = .hold → s.loom.paused = true →
      ∃ t, exec (.scandbgStepSeg i) s = .next t ∧ t.loom.eng = .hold ∧ t.loom.paused = false ∧ t.loom.stepping = 1 ∧
        t.loom.cur = s.loom.cur) ∧
    (clear s i (reg pSCANDBG 0x080) 4 = true → s.loom.eng = .hold →
      ∃ t, exec (.scandbgStepScan i) s = .next t ∧ t.loom.eng = .hold ∧ t.loom.paused = false ∧ t.loom.stepping = 2 ∧
        t.loom.cur = s.loom.cur)

/-- R66, R72, R76, R77, R82: SCAN_COMMIT fires alone at a position. In STOP the first one commits the stop image and disables
entries 0–3. A ready scan commits what its segments wrote to program state,
the last in program order standing, and CONSEC_OVR is 0. A scan that is not ready overruns: nothing of it is committed, no destination changes its
value, OVR_COUNT and CONSEC_OVR count, and at OVR_STOP overruns in a row Loom enters STOP. Where the manual
leaves a corner of this open, it is the model's reading: log 25. -/
def Obligations.ScanCommitsOrOverruns : Prop :=
  ∀ (s : State) (pos n : Nat) (w0 w1 : Word) (p : Program) (c : Scan), s.lac.inService = true → s.lac.evald < pos →
    s.lac.deferred = [] → aetDue s pos = [⟨n, pos, false, w0, w1⟩] → fld w1 0 8 = 5 → s.guard.asleep = false →
    activeProg s = some p →
    (s.loom.eng = .stop → s.loom.stopPending = true →
      (∀ o ∈ p.outs, overBudget (reachPos s pos) .loom .control 7 p.outs.length = false) →
      ∃ t, exec (.angleEventFire pos) s = .next t ∧ t.loom.eng = .stop ∧ t.loom.stopPending = false ∧
        (∀ k < 4, bit (aetW0 t k) 31 = false) ∧
        ∀ o v, p.outs = [o] → stopValue s o = some v → get? t.loom.lastOut o.point = some (v, false)) ∧
    (s.loom.eng = .run → s.loom.prev = none → scanAt s 0 = some c → s.loom.paused = false → c.ready = true →
      overBudget (reachPos s pos) .loom .control 7 (scanEffects c).outs.length = false →
      ∃ t, exec (.angleEventFire pos) s = .next t ∧ t.loom.curDone = true ∧
      t.loom.shown = some { c with res := capEvents 256 c.res } ∧
      rdF t (reg pSCAN 0x090) 8 8 = 0 ∧
      (∀ w, look 0 t.loom.words w = (get? (scanEffects c).words w).getD (look 0 s.loom.words w)) ∧
      ∀ k, look .zero t.loom.fbs k = (get? (scanEffects c).fbs k).getD (look .zero s.loom.fbs k)) ∧
    (s.loom.eng = .run → s.loom.prev = none → scanAt s 0 = some c → s.loom.paused = false → c.ready = false →
      s.loom.held = false →
      ∃ t, exec (.angleEventFire pos) s = .next t ∧ t.loom.curDone = true ∧ t.loom.ahead1 = none ∧
        t.loom.ahead2 = none ∧ t.loom.words = s.loom.words ∧ t.loom.fbs = s.loom.fbs ∧
        t.loom.lastOut = s.loom.lastOut ∧ t.loom.slots = s.loom.slots ∧ t.pts = s.pts ∧
        rdB t (reg pSCAN 0x094) 0 = true ∧
        rdF t (reg pSCAN 0x090) 8 8 = min 255 (rdF s (reg pSCAN 0x090) 8 8 + 1) ∧
        (rdF s (reg pSCAN 0x080) 8 4 ≠ 0 →
          (rdF s (reg pSCAN 0x080) 8 4 ≤ rdF s (reg pSCAN 0x090) 8 8 + 1 → t.loom.eng = .stop ∧
            rdB t (reg pSCAN 0x094) 1 = true) ∧
          (rdF s (reg pSCAN 0x090) 8 8 + 1 < rdF s (reg pSCAN 0x080) 8 4 → t.loom.eng = .run)) ∧
        (rdF s (reg pSCAN 0x080) 8 4 = 0 → t.loom.eng = .run))


/-! ### Loom: instructions, program exchange and forces (chapter 4) -/

/-- R92, R94, R71: a segment that may start takes an idle lane with every working register, CF and the flags clear, on the
latched scan or ahead of it; END records its results in its scan and frees the lane. Loads read the scan's image, program
state with the segment's own writes in front, and the loops as latched; stores, setpoints, relinquishes and events are staged
in the segment's results and reach nothing outside the lane. Where the manual
leaves a corner of this open, it is the model's reading: log 7, 14, 25, 55. -/
def Obligations.SegmentsLoadAndStage : Prop :=
  ∀ (s : State) (l : LaneNo) (d : Wr) (x : BitVec 16) (ty : Ty),
    (∀ (p : Program) (c : Scan) (n : BitVec 14) (sd : SegDesc) (rest : List SegDesc), (lane s l).active = false →
      cellOut s pSCAN l.val = false → activeProg s = some p → p.segs.drop n.toNat = sd :: rest →
      breakAt s n.toNat = none →
      (scanAt s 0 = some c → s.loom.eng = .run → get? c.res n.toNat = none → inLane s 0 n.toNat = false →
        depsDone p c sd n.toNat = true →
        ∃ t, exec (.segmentStart l 0 n) s = .next t ∧ laneOnly s t l ∧
          lane t l = { Lane.idle with active := true, depth := 0, seg := n.toNat }) ∧
      (∀ k : Fin 3, k ≠ 0 → scanAt s k.val = some c → aheadOpen s k.val = true → get? c.res n.toNat = none →
        inLane s k.val n.toNat = false → depsDone p c sd n.toNat = true → mayRunAhead s p n.toNat c = true →
        sd.writes.length + bufUsed s p k.val c ≤ 65536 →
        ∃ t, exec (.segmentStart l k n) s = .next t ∧
          lane t l = { Lane.idle with active := true, depth := k.val, seg := n.toNat } ∧ t.regs = s.regs)) ∧
    ((lane s l).active = true →
      (∃ t, exec (.lmNop l) s = .next t ∧ laneOnly s t l ∧ lane t l = { lane s l with pc := (lane s l).pc + 1 }) ∧
      (∀ c, scanAt s (lane s l).depth = some c → ∃ t, exec (.lmEnd l) s = .next t ∧ lane t l = .idle ∧
        t.loom.words = s.loom.words ∧ t.loom.fbs = s.loom.fbs ∧ t.pts = s.pts ∧
        ∃ c', scanAt t (lane s l).depth = some c' ∧
          get? c'.res (lane s l).seg = some { (lane s l).res with fl := (lane s l).fl }) ∧
      (∃ t, exec (.lmLdp l ty d x) s = .next t ∧ wrote s t l d
        (conv (imageOf s (lane s l) x.toNat).ty ty (imageOf s (lane s l) x.toNat).val)) ∧
      (∃ t, exec (.lmLdq l d x) s = .next t ∧ wrote s t l d (w32 (imageOf s (lane s l) x.toNat).qual, noFl)) ∧
      (∃ t, exec (.lmLdst l d x) s = .next t ∧ wrote s t l d (stationStat s (lane s l) x.toNat, noFl)) ∧
      (∃ t, exec (.lmLds l d x) s = .next t ∧ wrote s t l d
        (readWord s (lane s l) (stateWord s (lane s l) x.toNat), noFl)) ∧
      (∃ t, exec (.lmLstr l d x) s = .next t ∧ wrote s t l d (loopWord s (lane s l) (2 * x.toNat), noFl)) ∧
      (∃ t, exec (.lmLout l d x) s = .next t ∧ wrote s t l d (loopWord s (lane s l) (2 * x.toNat + 1), noFl)) ∧
      (∃ t, exec (.lmStp l ty d x) s = .next t ∧ laneOnly s t l ∧ (lane t l).w = (lane s l).w ∧
        get? (lane t l).res.outs x.toNat =
          some (.value (conv ty (outType s x.toNat) ((lane s l).get d)).1)) ∧
      (∃ t, exec (.lmStpc l ty d x) s = .next t ∧ laneOnly s t l ∧ (lane t l).w = (lane s l).w ∧
        (lane t l).fl = (lane s l).fl ∧
        get? (lane t l).res.outs x.toNat =
          if (lane s l).cf then some (.value (conv ty (outType s x.toNat) ((lane s l).get d)).1)
          else get? (lane s l).res.outs x.toNat) ∧
      (∃ t, exec (.lmRls l x) s = .next t ∧ laneOnly s t l ∧ get? (lane t l).res.outs x.toNat = some .relinquish) ∧
      (∃ t, exec (.lmSts l d x) s = .next t ∧ laneOnly s t l ∧
        readWord t (lane t l) (stateWord t (lane t l) x.toNat) = (lane s l).get d) ∧
      (∃ t, exec (.lmLspw l d x) s = .next t ∧ laneOnly s t l ∧ get? (lane t l).res.sps x.toNat = some ((lane s l).get d)) ∧
      (∃ t, exec (.lmEmit l d x) s = .next t ∧ laneOnly s t l ∧
        (eventCount s (lane s l) < 256 → (lane t l).res.evts = (lane s l).res.evts ++ [(x.toNat, (lane s l).get d)]) ∧
        (256 ≤ eventCount s (lane s l) → (lane t l).res.evts = (lane s l).res.evts ∧ (lane t l).fl.testBit 3 = true)))

/-- R93, R94: on a lane that executes a segment each register instruction writes its result to WD, ORs its flags into the
segment's, and leaves every other working register, the other lanes and everything outside the lane; comparisons and BTST set CF
to what they write. Where the manual
leaves a corner of this open, it is the model's reading: log 27. -/
def Obligations.RegisterInstructionsWriteResults : Prop :=
  ∀ (s : State) (l : LaneNo) (ty src : Ty) (d a b x : Wr) (imm : BitVec 16) (j : BitVec 5), (lane s l).active = true →
    (∃ t, exec (.lmLdi l ty d imm) s = .next t ∧ wrote s t l d (immOf ty imm, noFl)) ∧
    (∃ t, exec (.lmLdih l d imm) s = .next t ∧
      wrote s t l d (w32 (((lane s l).get d).toNat % 65536 + imm.toNat * 65536), noFl)) ∧
    (∃ t, exec (.lmMov l d a) s = .next t ∧ wrote s t l d ((lane s l).get a, noFl)) ∧
    (∃ t, exec (.lmSel l d a b x) s = .next t ∧
      wrote s t l d (if (lane s l).get x = 0 then (lane s l).get b else (lane s l).get a, noFl)) ∧
    (∃ t, exec (.lmCvt l ty d a src) s = .next t ∧ wrote s t l d (conv src ty ((lane s l).get a))) ∧
    (∃ t, exec (.lmAdd l ty d a b) s = .next t ∧ wrote s t l d (opAdd ty ((lane s l).get a) ((lane s l).get b))) ∧
    (∃ t, exec (.lmSub l ty d a b) s = .next t ∧ wrote s t l d (opSub ty ((lane s l).get a) ((lane s l).get b))) ∧
    (∃ t, exec (.lmMul l ty d a b) s = .next t ∧ wrote s t l d (opMul ty ((lane s l).get a) ((lane s l).get b))) ∧
    (∃ t fr, exec (.lmDiv l ty d a b) s = .next t ∧
      wrote s t l d (opDiv fr ty ((lane s l).get a) ((lane s l).get b))) ∧
    (∃ t, exec (.lmMod l d a b) s = .next t ∧ wrote s t l d (opMod ((lane s l).get a) ((lane s l).get b))) ∧
    (∃ t, exec (.lmNeg l ty d a) s = .next t ∧ wrote s t l d (opNeg ty ((lane s l).get a))) ∧
    (∃ t, exec (.lmAbs l ty d a) s = .next t ∧ wrote s t l d (opAbs ty ((lane s l).get a))) ∧
    (∃ t, exec (.lmMin l ty d a b) s = .next t ∧ wrote s t l d (opMin ty ((lane s l).get a) ((lane s l).get b))) ∧
    (∃ t, exec (.lmMax l ty d a b) s = .next t ∧ wrote s t l d (opMax ty ((lane s l).get a) ((lane s l).get b))) ∧
    (∃ t r, exec (.lmAddi l ty d imm) s = .next t ∧ wrote s t l d r ∧
      (ty = .int32 ∨ ty = .q16 → r = limited (sw ((lane s l).get d) + imm.toInt))) ∧
    (∃ t, exec (.lmAnd l ty d a b) s = .next t ∧ wrote s t l d (storeT ty ((lane s l).get a &&& (lane s l).get b), noFl)) ∧
    (∃ t, exec (.lmOr l ty d a b) s = .next t ∧ wrote s t l d (storeT ty ((lane s l).get a ||| (lane s l).get b), noFl)) ∧
    (∃ t, exec (.lmXor l ty d a b) s = .next t ∧ wrote s t l d (storeT ty ((lane s l).get a ^^^ (lane s l).get b), noFl)) ∧
    (∃ t, exec (.lmNot l ty d a) s = .next t ∧
      wrote s t l d (if ty = .bool then w32 (b2n ((lane s l).get a == 0)) else ~~~(lane s l).get a, noFl)) ∧
    (∃ t, exec (.lmShl l ty d a b) s = .next t ∧ wrote s t l d
      (storeT ty (w32 (((lane s l).get a).toNat * 2 ^ fld ((lane s l).get b) 0 6)), noFl)) ∧
    (∃ t, exec (.lmShr l ty d a b) s = .next t ∧ wrote s t l d
      (if ty = .int32 ∨ ty = .q16 then i32 (sw ((lane s l).get a) / 2 ^ fld ((lane s l).get b) 0 6)
       else storeT ty (w32 (((lane s l).get a).toNat / 2 ^ fld ((lane s l).get b) 0 6)), noFl)) ∧
    (∃ t, exec (.lmBtst l d a j) s = .next t ∧ wrote s t l d (w32 (b2n (bit ((lane s l).get a) j.toNat)), noFl) ∧
      (lane t l).cf = bit ((lane s l).get a) j.toNat) ∧
    (∃ t, exec (.lmAndi l ty d imm) s = .next t ∧ wrote s t l d (storeT ty ((lane s l).get d &&& w32 imm.toNat), noFl)) ∧
    (∃ t, exec (.lmOri l ty d imm) s = .next t ∧ wrote s t l d (storeT ty ((lane s l).get d ||| w32 imm.toNat), noFl)) ∧
    (∃ t, exec (.lmLim l ty d a b x) s = .next t ∧
      wrote s t l d (opLim ty ((lane s l).get a) ((lane s l).get b) ((lane s l).get x))) ∧
    (∃ t, exec (.lmScl l ty d a b x) s = .next t ∧
      wrote s t l d (opScl ty ((lane s l).get a) ((lane s l).get b) ((lane s l).get x))) ∧
    (∃ t r, exec (.lmIntp l ty d imm) s = .next t ∧ wrote s t l d r ∧
      (intpTable s (lane s l) imm.toNat = none → r = (0, flI)) ∧
      ∀ tab q, intpTable s (lane s l) imm.toNat = some tab → opIntp ty ((lane s l).get d) tab = .res q → r = q) ∧
    (∃ t, exec (.lmRdf l d) s = .next t ∧ wrote s t l d (w32 (lane s l).fl, noFl)) ∧
    (∃ t, exec (.lmClf l) s = .next t ∧ laneOnly s t l ∧ (lane t l).fl = 0 ∧ (lane t l).w = (lane s l).w) ∧
    (∃ t, exec (.lmCeq l ty d a b) s = .next t ∧ compared s t l d (opRel .eq ty ((lane s l).get a) ((lane s l).get b))) ∧
    (∃ t, exec (.lmCne l ty d a b) s = .next t ∧ compared s t l d (opRel .ne ty ((lane s l).get a) ((lane s l).get b))) ∧
    (∃ t, exec (.lmClt l ty d a b) s = .next t ∧ compared s t l d (opRel .lt ty ((lane s l).get a) ((lane s l).get b))) ∧
    (∃ t, exec (.lmCle l ty d a b) s = .next t ∧ compared s t l d (opRel .le ty ((lane s l).get a) ((lane s l).get b))) ∧
    (∃ t, exec (.lmCgt l ty d a b) s = .next t ∧ compared s t l d (opRel .gt ty ((lane s l).get a) ((lane s l).get b))) ∧
    ∃ t, exec (.lmCge l ty d a b) s = .next t ∧ compared s t l d (opRel .ge ty ((lane s l).get a) ((lane s l).get b))

/-- R93: INT32 and Q16.16 results beyond the range are limited, with SAT; a Q16.16 product is rounded to nearest with ties
away from zero, quotients are truncated toward zero, and a division by zero gives the limit of the dividend's sign, or 0, with
DIV0. A FLOAT32 operation with a NaN operand gives the NaN 0x7FC00000 with INV, and of the comparisons only CNE is then 1.
Conversions round and limit as the rule lists them. Where the manual
leaves a corner of this open, it is the model's reading: log 27. -/
def Obligations.TypedArithmetic : Prop :=
  (∀ (a b c : Word) (t : Ty), t = .int32 ∨ t = .q16 →
    opAdd t a b = limited (sw a + sw b) ∧ opSub t a b = limited (sw a - sw b) ∧ opNeg t a = limited (-(sw a)) ∧
    opAbs t a = limited |sw a| ∧ opMin t a b = (i32 (min (sw a) (sw b)), noFl) ∧
    opMax t a b = (i32 (max (sw a) (sw b)), noFl) ∧
    opLim t a b c = (i32 (min (max (sw a) (sw b)) (sw c)), noFl) ∧
    (opRel .lt t a b = (decide (sw a < sw b), noFl)) ∧ (opRel .ge t a b = (decide (sw b ≤ sw a), noFl)) ∧
    (∀ fr, opDiv fr t a 0 = (if sw a = 0 then 0 else if sw a < 0 then 0x80000000#32 else 0x7FFFFFFF#32, flZ))) ∧
  (∀ a b c fr : Word, opMul .int32 a b = limited (sw a * sw b) ∧ opScl .int32 a b c = limited (sw a * sw b + sw c) ∧
    (b ≠ 0 → opDiv fr .int32 a b = limited ((sw a).tdiv (sw b)) ∧ opDiv fr .q16 a b = limited ((sw a * 65536).tdiv (sw b)) ∧
      opMod a b = (i32 ((sw a).tmod (sw b)), noFl)) ∧ opMod a 0 = (0, flZ) ∧
    (∃ q : Int, opMul .q16 a b = limited q ∧ |2 * (q * 65536 - sw a * sw b)| ≤ 65536 ∧
      (2 * (q * 65536 - sw a * sw b) = 65536 → 0 < sw a * sw b) ∧
      (2 * (q * 65536 - sw a * sw b) = -65536 → sw a * sw b < 0))) ∧
  (∀ a b : Word, F32.of a = .nan ∨ F32.of b = .nan →
    opAdd .float32 a b = (0x7FC00000#32, flI) ∧ opSub .float32 a b = (0x7FC00000#32, flI) ∧
    opMul .float32 a b = (0x7FC00000#32, flI) ∧ (∀ fr, opDiv fr .float32 a b = (0x7FC00000#32, flI)) ∧
    opMin .float32 a b = (0x7FC00000#32, flI) ∧ opMax .float32 a b = (0x7FC00000#32, flI) ∧
    ∀ r, opRel r .float32 a b = (decide (r = .ne), flI)) ∧
  ∀ a : Word, (∀ t, conv t t a = (a, noFl)) ∧ conv .int32 .q16 a = limited (sw a * 65536) ∧
    (∀ t, t ≠ .float32 → t ≠ .bool → conv t .bool a = (w32 (b2n (a != 0)), noFl)) ∧
    (F32.of a = .nan → conv .float32 .int32 a = (0, flI) ∧ conv .float32 .q16 a = (0, flI) ∧
      conv .float32 .bool a = (0, noFl))

/-- R97–R99: a timer instruction writes Q to WD and ET to the next register and its record to the segment's results: TON times
from the rise of its input, TOF from the fall and TP for its preset from a rise; the counters count rising edges, R and LD
first; the edge detectors report a change once. -/
def Obligations.FunctionBlocks : Prop :=
  ∀ (s : State) (l : LaneNo) (d a : Wr) (n : BitVec 14), (lane s l).active = true →
    ∀ f inp nom pt, f = readFb s (lane s l) n.toNat → inp = decide ((lane s l).get a ≠ 0) → nom = laneNom s (lane s l) →
      pt = (max 0 (sw ((lane s l).get d))).toNat →
      (∃ t, exec (.lmTon l d a n) s = .next t ∧ laneOnly s t l ∧
        ∃ q et, timed t l d n.toNat q et inp ∧
          (inp = false → q = false ∧ et = 0) ∧
          (inp = true → f.inPrev = false → et = 0 ∧ q = decide (pt = 0) ∧
            (readFb t (lane t l) n.toNat).lo = BitVec.ofNat 64 nom) ∧
          (inp = true → f.inPrev = true → et = elapsed f nom f.lo.toNat ∧ q = decide (pt ≤ et) ∧
            (readFb t (lane t l) n.toNat).lo = f.lo)) ∧
      (∃ t, exec (.lmTof l d a n) s = .next t ∧ laneOnly s t l ∧
        ∃ q et, timed t l d n.toNat q et inp ∧
          (inp = true → q = true ∧ et = 0) ∧
          (inp = false → f.inPrev = true → et = 0 ∧ q = decide (0 < pt) ∧
            (readFb t (lane t l) n.toNat).lo = BitVec.ofNat 64 nom) ∧
          (inp = false → f.inPrev = false → f.running = true → et = elapsed f nom f.lo.toNat ∧ q = decide (et < pt)) ∧
          (inp = false → f.inPrev = false → f.running = false → q = false ∧ et = 0)) ∧
      (∃ t, exec (.lmTp l d a n) s = .next t ∧ laneOnly s t l ∧
        ∃ q et, timed t l d n.toNat q et inp ∧
          (inp = true → f.inPrev = false → f.running = false → 0 < pt → q = true ∧ et = 0 ∧
            (readFb t (lane t l) n.toNat).lo = BitVec.ofNat 64 nom) ∧
          (f.running = true → elapsed f nom f.lo.toNat < pt → q = true ∧ et = elapsed f nom f.lo.toNat) ∧
          (f.running = true → pt ≤ elapsed f nom f.lo.toNat → q = false ∧ et = pt ∧
            (readFb t (lane t l) n.toNat).running = false) ∧
          (f.running = false → inp = f.inPrev → q = false ∧ et = if inp then pt else 0)) ∧
      (∃ t, exec (.lmCtu l d a n) s = .next t ∧ laneOnly s t l ∧
        ∃ cv : Word, counted t l d n.toNat (decide (sw ((lane s l).get d) ≤ sw cv)) cv inp ∧
          ((lane s l).get (nextWr a) ≠ 0 → cv = 0) ∧
          ((lane s l).get (nextWr a) = 0 → cv = if inp && !f.inPrev then (limited (f.cv + 1)).1 else i32 f.cv)) ∧
      (∃ t, exec (.lmCtd l d a n) s = .next t ∧ laneOnly s t l ∧
        ∃ cv : Word, counted t l d n.toNat (decide (sw cv ≤ 0)) cv inp ∧
          ((lane s l).get (nextWr a) ≠ 0 → cv = (lane s l).get d) ∧
          ((lane s l).get (nextWr a) = 0 → cv = if inp && !f.inPrev then (limited (f.cv - 1)).1 else i32 f.cv)) ∧
      (∃ t, exec (.lmRtrig l d a n) s = .next t ∧ laneOnly s t l ∧
        (lane t l).get d = w32 (b2n (inp && !f.inPrev)) ∧ (readFb t (lane t l) n.toNat).inPrev = inp) ∧
      ∃ t, exec (.lmFtrig l d a n) s = .next t ∧ laneOnly s t l ∧
        (lane t l).get d = w32 (b2n (f.inPrev && !inp)) ∧ (readFb t (lane t l) n.toNat).inPrev = inp

/-- R100–R105: LOAD copies LEN bytes of DRAM from SRC into the bank that is not active; the copy leads to verification, and a
verified image to VERIFIED, a rejected one to REJECTED with its cause. SWITCH of a verified bank makes a switch pending, CANCEL
drops it, and it completes in STOP: the target bank becomes ACTIVE, the other keeps its program as a spare, symbols that keep
their identity and type keep their values, and no run-ahead stands. Where the manual
leaves a corner of this open, it is the model's reading: log 13, 26. -/
def Obligations.ProgramExchange : Prop :=
  ∀ (s : State) (i : Init),
    (clear s i (reg pPGMX 0x084) 1 = true → (bank s (targetBank s)).st ≠ .loading →
      (bank s (targetBank s)).st ≠ .verifying → s.loom.swPending = false → rdF s (reg pPGMX 0x098) 0 25 ≤ 16777216 →
      ∃ t, exec (.pgmxLoad i) s = .next t ∧
        bank t (targetBank s) = ⟨.loading, ramBytes s (rd64 s (reg pPGMX 0x090)) (rdF s (reg pPGMX 0x098) 0 25), none⟩ ∧
        bank t (1 - targetBank s) = bank s (1 - targetBank s)) ∧
    (∀ n, bankIn s .loading = some n →
      (∀ k, k = 2 ∨ k = 5 → overBudget s .loom .control k (ceilDiv (bank s n).image.length 64) = false) →
      ∃ t, exec .pgmxCopyDone s = .next t ∧
      bank t n = { bank s n with st := .verifying }) ∧
    (∀ n, bankIn s .verifying = some n →
      (verifyCause s (bank s n).image = 0 → ∃ t, exec .pgmxVerifyDone s = .next t ∧
        bank t n = { bank s n with st := .verified, prog := some (parseProg (bank s n).image) } ∧
        rdB t (reg pPGMX 0x08C) 0 = true) ∧
      (verifyCause s (bank s n).image ≠ 0 → ∃ t, exec .pgmxVerifyDone s = .next t ∧ (bank t n).st = .rejected ∧
        rdF t (reg pPGMX 0x088) 8 8 = verifyCause s (bank s n).image ∧ rdB t (reg pPGMX 0x08C) 1 = true)) ∧
    (clear s i (reg pPGMX 0x084) 2 = true → s.loom.swPending = false → (bank s (targetBank s)).st = .verified →
      ∃ t, exec (.pgmxSwitch i) s = .next t ∧ t.loom.swPending = true ∧ t.loom.bankA = s.loom.bankA ∧
        t.loom.bankB = s.loom.bankB) ∧
    (clear s i (reg pPGMX 0x084) 3 = true → ∃ t, exec (.pgmxCancel i) s = .next t ∧ t.loom.swPending = false) ∧
    (∀ p, s.loom.swPending = true → s.loom.eng = .stop ∨ s.loom.swReady = true →
      (bank s (targetBank s)).st = .verified → (bank s (targetBank s)).prog = some p →
      (∀ k, k = 2 ∨ k = 5 → overBudget s .loom .control k
        (1 + p.syms.length + (((activeBank s).prog.map Program.syms).getD []).length) = false) →
      ∃ t, exec .programSwitch s = .next t ∧ activeProg t = some p ∧ (bank t (targetBank s)).st = .active ∧
        t.loom.swPending = false ∧ t.loom.ahead1 = none ∧ t.loom.ahead2 = none ∧ t.loom.newProg = true ∧
        (bank t (1 - targetBank s)).prog = (bank s (1 - targetBank s)).prog ∧
        ∀ (o : Symbol) (op : Program), (activeBank s).prog = some op → op.syms = [o] → p.syms = [o] → o.ty < 8 →
          o.count = 1 → look 0 t.loom.words o.loc = look 0 s.loom.words o.loc)

/-- R106, R107, R111: a write to a force entry's word 0 is staged for its initiator; an accepted write to its word 1 commits both
words, COUNT and the ACTIVE bits follow, and in STOP an enabled output force replaces what the readers of its point see, with
quality FORCED, at once. -/
def Obligations.ForcesCommit : Prop :=
  ∀ (s : State) (i : Init) (n : Fin 256) (v : Word),
    (clear s i (forceAddr n.val 0) v = true →
      ∃ t, exec (.forceWord0Stage i n v) s = .next t ∧
        get? t.staged (initKey i.who (forceAddr n.val 0)) = some (v &&& 0x8003FFFF#32) ∧
        rd t (forceAddr n.val 0) = rd s (forceAddr n.val 0) ∧ t.pts = s.pts) ∧
    (clear s i (forceAddr n.val 1) v = true → ∀ w0, get? s.staged (initKey i.who (forceAddr n.val 0)) = some w0 →
      ∃ t, exec (.forceEntryCommit i n v) s = .next t ∧ rd t (forceAddr n.val 1) = v ∧
        rd t (forceAddr n.val 0) = w0 &&& 0x8003FFFF#32 ∧
        rdB t (reg pFORCE (0x088 + 4 * (n.val / 32))) (n.val % 32) = bit w0 31 ∧
        (∀ m < 256, m ≠ n.val → rd t (forceAddr m 0) = rd s (forceAddr m 0) ∧
          rd t (forceAddr m 1) = rd s (forceAddr m 1)) ∧
        (s.loom.eng ≠ .stop → t.pts = s.pts) ∧
        (s.loom.eng = .stop → bit w0 31 = true → fld w0 16 2 = 1 → (point s (fld w0 0 16)).present = true →
          (point s (fld w0 0 16)).retired = false →
          (point t (fld w0 0 16)).seen = v ∧ (point t (fld w0 0 16)).value = (point s (fld w0 0 16)).value))


/-! ### The loop engine (chapter 5) -/

/-- R112–R114, R128, R129: at a sample position of a scheduled loop all its sources are read; the computation leaves a result for
the output position, OUT_DELAY later, and a PV fault leaves the last output or SAFE_VALUE with the law state kept; at its
position the output is written to OUT, and to a point at the loop's priority level or to another loop's SP. Where the manual
leaves a corner of this open, it is the model's reading: log 10, 29. -/
def Obligations.LoopSamplesComputesAndWrites : Prop :=
  ∀ (s : State) (n : Fin 256),
    (∀ pos, loopLive s n.val = true → pos % (loopK s n.val * 8192) = rdF s (loopA n.val 0x08) 0 24 →
      (∀ p ∈ (loopSt s n.val).lastPos, p < pos) → (loopSt s n.val).sample = none → count s ≤ pos → s.clk.moves = true →
      skipped s pos = false → (∀ k ∈ ptPath (.loop n), overBudget (reachPos s pos) (.loop n) .control k 4 = false) →
      ∃ t m, exec (.loopSample n pos) s = .next t ∧ pos ≤ count t ∧ (loopSt t n.val).sample = some m ∧
        (loopSt t n.val).lastPos = some pos ∧ m.pos = pos ∧ m.late = false ∧
        (∀ j < 32, recAt m.rec_ (4 * j) = loopBefore (reachPos s pos) n.val (4 * j) pos) ∧
        (s.past = [] → ∀ j < 32, recAt m.rec_ (4 * j) = rd s (loopA n.val (4 * j))) ∧
        m.y = sw (loopSource (reachPos s pos) pos (recAt m.rec_ 0x10)).val ∧
        m.good = decide ((loopSource (reachPos s pos) pos (recAt m.rec_ 0x10)).qual % 2 = 1) ∧
        (bit (recAt m.rec_ 0) 5 = false → m.r = sw (recAt m.rec_ 0x24)) ∧
        (bit (recAt m.rec_ 0) 5 = true → m.r = sw (loopSource (reachPos s pos) pos (recAt m.rec_ 0x14)).val)) ∧
    (∀ pos, loopLive s n.val = true → skipped s pos = true → pos + loopK s n.val * 8192 < s.lac.stepTo →
      ∃ t, exec (.loopSample n pos) s = .next t ∧ t.loops = s.loops ∧ t.regs = s.regs ∧ t.clk = s.clk) ∧
    (∀ m, (loopSt s n.val).sample = some m →
      ∃ t r, exec (.loopComputation n) s = .next t ∧ (loopSt t n.val).sample = none ∧
        (loopSt t n.val).result = some r ∧ r.pos = m.pos + (recAt m.rec_ 0x0C).toNat ∧
        rd t (loopA n.val 0x70) = rd s (loopA n.val 0x70) ∧
        (m.good = true → fld (recAt m.rec_ 0) 0 2 = 2 →
          r.u = roundAway (closedStep m.rec_ { (loopSt s n.val).law with closing := (loopSt s n.val).closing || m.closing } m.r m.y m.f
            (sw (rd s (loopA n.val 0x70)) * 65536)).u 65536) ∧
        (m.good = false →
          r.u = (if bit (recAt m.rec_ 0) 4 then recI m.rec_ 0x6C else sw (rd s (loopA n.val 0x70))) ∧
          (loopSt t n.val).integ = (loopSt s n.val).integ ∧ (loopSt t n.val).d = (loopSt s n.val).d ∧
          rdB t (loopA n.val 0x74) 2 = true ∧ rdB t (reg pLOOP 0x084) 4 = true)) ∧
    ∀ pos r, loopLive s n.val = true → (loopSt s n.val).result = some r → r.pos = pos → count s ≤ pos → s.clk.moves = true →
      (∀ k ∈ ptPath (.loop n), overBudget (reachPos s pos) (.loop n) .control k 1 = false) →
      (∀ e ∈ s.past, e.cyc < (reachPos s pos).clk.fabric) →
      ∃ t, exec (.loopOutput n pos) s = .next t ∧ pos ≤ count t ∧ rd t (loopA n.val 0x70) = i32 r.u ∧
        (loopSt t n.val).result = none ∧
        (rdF s (loopA n.val 0x20) 28 4 = 1 → dropCause (point s (rdF s (loopA n.val 0x20) 0 16)) = 0 →
          get? (point t (rdF s (loopA n.val 0x20) 0 16)).pa (loopPrio s n.val) =
            some (conv .q16 (point s (rdF s (loopA n.val 0x20) 0 16)).ty (i32 r.u)).1) ∧
        (rdF s (loopA n.val 0x20) 28 4 = 3 → rdF s (loopA n.val 0x20) 0 16 < 256 →
          rdB s (loopA (rdF s (loopA n.val 0x20) 0 16) 0) 5 = false →
          rd t (loopA (rdF s (loopA n.val 0x20) 0 16) 0x24) = i32 r.u)

/-- R119–R121, R125: the law in CLOSED without a biquad: each term rounded and held in 48 bits, the rate limit about the last
output, then OUT_LO and OUT_HI with OUT_HI last; the integrator held when it would push further into a limit. A closing sample
gives the last output again where nothing clamps. Where the manual
leaves a corner of this open, it is the model's reading: log 29. -/
def Obligations.ClosedLoopLaw : Prop :=
  ∀ (r : List Word) (l : Law) (sp y f u1 : Int), bit (recAt r 0) 3 = false → bit (recAt r 0) 2 = false →
    ∀ p d ff : Int, p = hold48 (roundAway (recI r 0x2C * (recI r 0x3C * sp - y * 65536)) 65536) →
      d = hold48 (roundAway (recI r 0x34 * l.d) 65536 + roundAway (recI r 0x38 *
        (recI r 0x40 * sp - y * 65536 - (if l.afterFault then recI r 0x40 * sp - y * 65536 else l.ed))) 65536) →
      ff = hold48 (recI r 0x44 * f) →
      (l.closing = false → l.afterFault = false →
        ∀ i w ur : Int, i = hold48 (l.integ + recI r 0x30 * (sp - y)) → w = hold48 (p + i + d + ff) →
          ur = (if 0 < recI r 0x4C then
            min (max w (u1 - recI r 0x4C * 65536)) (u1 + recI r 0x4C * 65536) else w) →
          (closedStep r l sp y f u1).u = min (max ur (recI r 0x54 * 65536)) (recI r 0x50 * 65536) ∧
          (closedStep r l sp y f u1).law.integ =
            (if 0 < recI r 0x30 * (sp - y) * (w - (closedStep r l sp y f u1).u) then l.integ else i) ∧
          (closedStep r l sp y f u1).law.d = d ∧
          ((closedStep r l sp y f u1).fl.testBit 8 = decide (ur ≠ w))) ∧
      (l.closing = true → hold48 (u1 - p - d - ff) = u1 - p - d - ff → hold48 u1 = u1 →
        recI r 0x54 * 65536 ≤ u1 → u1 ≤ recI r 0x50 * 65536 →
        (closedStep r l sp y f u1).u = u1 ∧ (closedStep r l sp y f u1).law.integ = u1 - p - d - ff ∧
          (closedStep r l sp y f u1).law.closing = false)

/-- R117, R124, R125, R127: an accepted write to CTRL holds MODE and PRIORITY within their ranges; one that sets ENABLE has found
OUT_DELAY and PHASE within the period and a place in every slot, and loads OUT with SAFE_VALUE; one that clears it drops the
sample and result in flight. An accepted write to SP sets it. Where the manual
leaves a corner of this open, it is the model's reading: log 29. -/
def Obligations.LoopWrites : Prop :=
  ∀ (s : State) (i : Init) (n : Fin 256) (v : Word),
    (clear s i (loopA n.val 0) v = true →
      ∃ t, exec (.loopCtrlWrite i n v) s = .next t ∧
        rdF t (loopA n.val 0) 0 2 = (if fld v 0 2 = 3 then 0 else fld v 0 2) ∧
        rdF t (loopA n.val 0) 8 5 = max 1 (min 16 (fld v 8 5)) ∧ rdB t (loopA n.val 0) 31 = bit v 31 ∧
        (bit v 31 = true → rdB s (loopA n.val 0) 31 = false →
          160 ≤ rdF s (loopA n.val 0x0C) 0 24 ∧ rdF s (loopA n.val 0x0C) 0 24 ≤ loopK s n.val * 8192 ∧
          rdF s (loopA n.val 0x08) 0 24 < loopK s n.val * 8192 ∧ (∀ j ∈ loopSlots s n.val, slotLoad s j < 96) ∧
          rd t (loopA n.val 0x70) = rd s (loopA n.val 0x6C) ∧ (loopSt t n.val).closing = true) ∧
        (bit v 31 = false → (loopSt t n.val).sample = none ∧ (loopSt t n.val).result = none)) ∧
    (clear s i (loopA n.val 0x24) v = true → spOverruled s n.val i.who = false →
      ∃ t, exec (.loopSpWrite i n v) s = .next t ∧ rd t (loopA n.val 0x24) = v ∧
        ∀ m < 256, m ≠ n.val → rd t (loopA m 0x24) = rd s (loopA m 0x24))


/-! ### Weighhouse (chapter 6) -/

/-- R138, R141: on a current channel with both paths the path that is not under test is taken during an injection, and else a sample whose ×32 value is not valid is taken from ×1, and so are the later ones;
each such switch counts. A sample of the run that leads back to ×32 counts while its ×32 value is valid and its ×1 value is at
most half scale; the sample that completes a run of 64 selects ×32 again. Where the manual
leaves a corner of this open, it is the model's reading: log 17, 19. -/
def Obligations.ConverterPathsSwitch : Prop :=
  ∀ (s : State) (c : Fin 24), sensor s c.val = 1 → rdB s (chA c.val 0x18) 2 = false →
    (∀ (x1 x32 : Int) (w : Bool), (chan s c.val).run < 64 → ∀ p, (chan s c.val).test = some (p, w) →
      ∃ t, exec (.converterSample c x1 x32) s = .next t ∧ (chan t c.val).x32 = !p ∧ (chan t c.val).run = 0) ∧
    (∀ x1 x32 : Int, (chan s c.val).run < 64 → (chan s c.val).test = none →
      (x32Valid x32 (calibrate s c.val true x32) = true → (chan s c.val).x32 = true →
        ∃ t, exec (.converterSample c x1 x32) s = .next t ∧ (chan t c.val).x32 = true ∧ (chan t c.val).run = 0 ∧
          rd t (chA c.val 0x1C) = rd s (chA c.val 0x1C)) ∧
      (x32Valid x32 (calibrate s c.val true x32) = false →
        ∃ t, exec (.converterSample c x1 x32) s = .next t ∧ (chan t c.val).x32 = false ∧ (chan t c.val).run = 0 ∧
          (isVolt c.val = false → rdB t (chA c.val 0x18) 0 = true) ∧
          ((chan s c.val).x32 = true → corMode s 0x29 = false → c.val < 8 →
            rd t (chA c.val 0x1C) = rd s (chA c.val 0x1C) + 1)) ∧
      (runCounts x32 (calibrate s c.val false x1) (calibrate s c.val true x32) = true → (chan s c.val).x32 = false →
        ∃ t, exec (.converterSample c x1 x32) s = .next t ∧ (chan t c.val).x32 = false ∧
          (chan t c.val).run = (chan s c.val).run + 1)) ∧
    ((chan s c.val).run = 64 →
      ∃ t, exec (.returnToX32 c) s = .next t ∧ (chan t c.val).x32 = true ∧ (chan t c.val).run = 0 ∧
        rdB t (chA c.val 0x18) 0 = false)

/-- R142–R144, R151, R152: a grid sample is produced at its position with the real time since the last one; the oldest waiting one
enters the sums, and of each enabled circuit the accumulator of its direction alone grows, by P₁·Δt to within one part in
2^40 and a half raw unit; a cycle's half brings its measurands once the count is 4,096 au past its end. Where the manual
leaves a corner of this open, it is the model's reading: log 5, 18, 30. -/
def Obligations.GridSamplesBecomeEnergy : Prop :=
  ∀ s : State,
    (∀ pos f, wghRuns s = true → pos % 256 = 0 → skipped s pos = false → s.wgh.lastFab = some f → s.wgh.lastPos < pos → count s ≤ pos →
      s.clk.moves = true → s.wgh.save ≠ .triggered →
      ∃ t g, exec (.gridSample pos) s = .next t ∧ pos ≤ count t ∧ t.wgh.queue = s.wgh.queue ++ [g] ∧ g.pos = pos ∧
        g.dt = t.clk.fabric - f ∧ g.fab = t.clk.fabric ∧ t.wgh.lastPos = pos ∧ t.wgh.lastFab = some t.clk.fabric ∧
        t.wgh.raws = s.wgh.raws) ∧
    (∀ g rest, s.wgh.queue = g :: rest → ∃ t, exec .sampleAccumulate s = .next t ∧ t.wgh.queue = rest ∧
      t.wgh.hist = (g :: s.wgh.hist).take 8192 ∧
      ∀ k : Fin 18, ∀ u p, u = { s with wgh := { s.wgh with queue := rest, hist := (g :: s.wgh.hist).take 8192 } } →
        p = cirPQ u (cycleOf g.pos) k.val 0 →
        (cirOn s (cycleOf g.pos) k.val = false → ∀ a < 8, look 0 t.wgh.raws (k.val * 8 + a) = look 0 s.wgh.raws (k.val * 8 + a)) ∧
        (p.num ≤ 0 → look 0 t.wgh.raws (k.val * 8) = look 0 s.wgh.raws (k.val * 8)) ∧
        (0 ≤ p.num → look 0 t.wgh.raws (k.val * 8 + 1) = look 0 s.wgh.raws (k.val * 8 + 1)) ∧
        (cirOn s (cycleOf g.pos) k.val = true → 0 < p.num → 0 < p.den →
          ∃ n : Nat, look 0 t.wgh.raws (k.val * 8) = (look 0 s.wgh.raws (k.val * 8) + n) % 2 ^ 128 ∧
            energyNear n (p.num.natAbs * g.dt * 2 ^ 40) (p.den * Config.fabricHz * 3600))) ∧
    (wghRuns s = true → s.wgh.lastFab.isSome = true → s.clk.moves = true →
      s.wgh.pubHalf + 36864 ≤ (s.wgh.pubAgg / (aggN s * 65536) + 1) * (aggN s * 65536) + 8192 →
      (∀ k ∈ ptPath (.hw (Fin.ofNat 128 pWGH)),
        overBudget (reachPos s (s.wgh.pubHalf + 36864)) (.hw (Fin.ofNat 128 pWGH)) .control k 60 = false) →
      ∃ t, exec .measurandPublish s = .next t ∧ t.wgh.pubHalf = s.wgh.pubHalf + 32768 ∧
        s.wgh.pubHalf + 36864 ≤ count t ∧ t.wgh.raws = s.wgh.raws ∧
        ∀ c : Fin 24, chUsed s (cycleOf (s.wgh.pubHalf + 32767)) c.val = true → rdB s (reg pWGHPQ 0x084) 12 = false →
          windowOf s (s.wgh.pubHalf + 32768 - 65536) (s.wgh.pubHalf + 32768) ≠ [] →
          rd t (chA c.val 0x28) = measured (c.val * 256 + 1)
            (rmsOf c.val (windowOf s (s.wgh.pubHalf + 32768 - 65536) (s.wgh.pubHalf + 32768))))

/-- R153–R156: at the end of an interval whose samples are all in, each circuit's demand is its energy over the interval, a
regular one that exceeds MAXDEM replaces it with its start, and the next interval begins; SNAP copies every accumulator as
⌊raw × 1,000 / 2^40⌋; CLEAR_ENERGY clears them with the demands, CLEAR_MAXDEM the maximum demands alone. HSEL latches the last
aggregated window of a channel. Where the manual
leaves a corner of this open, it is the model's reading: log 30. -/
def Obligations.DemandSnapshotsAndClears : Prop :=
  ∀ (s : State) (i : Init),
    (wghRuns s = true → (rdF s (reg pCAL 0x088) 0 5 * 60 + rdF s (reg pCAL 0x084) 0 6) % ivMinutes s.wgh.dem0.code = 0 →
      rdF s (reg pCAL 0x080) 0 6 = 0 → s.wgh.ivEnd = none → s.wgh.queue = [] →
      ∃ t, exec .demandIntervalEnd s = .next t ∧ t.wgh.demand = [] ∧ t.wgh.iv = s.wgh.iv + 1 ∧
        t.wgh.dem0.fab = s.clk.fabric ∧ t.wgh.dem0.irr = false ∧ t.wgh.raws = s.wgh.raws ∧
        ∀ k : Fin 18, ∀ d : Word, d = w32 (demandW (mwh (look 0 s.wgh.demand (k.val * 2))) (ivMinutes s.wgh.dem0.code)
            (s.wgh.dem0.before + (s.clk.fabric - s.wgh.dem0.fab)) s.wgh.dem0.irr) →
          look 0 t.wgh.dem (k.val * 4) = d ∧
          (s.wgh.dem0.irr = false → look 0 t.wgh.dem (k.val * 4 + 2) =
            if look 0 s.wgh.dem (k.val * 4 + 2) < d then d else look 0 s.wgh.dem (k.val * 4 + 2)) ∧
          (s.wgh.dem0.irr = true → look 0 t.wgh.dem (k.val * 4 + 2) = look 0 s.wgh.dem (k.val * 4 + 2))) ∧
    (clear s i (reg pWGHEN 0x080) 1 = true → ∃ t, exec (.snap i) s = .next t ∧ t.wgh = s.wgh ∧
      rdB t (reg pWGHEN 0x084) 0 = true ∧ rd t (reg pWGHEN 0x094) = rd s (reg pWGHEN 0x094) + 1 ∧
      ∀ (k : Fin 18) (a : Fin 7), rd64 t (reg pWGHEN (0x100 + 0xA8 * k.val + 0x18 * a.val)) =
        mwh (look 0 s.wgh.raws (k.val * 8 + a.val)) % 2 ^ 64) ∧
    (clear s i (reg pWGHEN 0x080) 2 = true → ∃ t, exec (.clearEnergy i) s = .next t ∧ t.wgh.raws = [] ∧
      t.wgh.demand = [] ∧ t.wgh.dem = [] ∧ t.wgh.slots = s.wgh.slots) ∧
    (clear s i (reg pWGHEN 0x080) 3 = true → ∃ t, exec (.clearMaxdem i) s = .next t ∧ t.wgh.raws = s.wgh.raws ∧
      t.wgh.demand = s.wgh.demand ∧ ∀ k : Fin 18, look 0 t.wgh.dem (k.val * 4 + 2) = 0 ∧
        look 0 t.wgh.dem (k.val * 4 + 3) = 0 ∧ look 0 t.wgh.dem (k.val * 4) = look 0 s.wgh.dem (k.val * 4) ∧
        look 0 t.wgh.dem (k.val * 4 + 1) = look 0 s.wgh.dem (k.val * 4 + 1)) ∧
    ∀ v : Word, clear s i (reg pWGHPQ 0x084) v = true → ∃ t, exec (.hselWrite i v) s = .next t ∧
      rd t (reg pWGHPQ 0x084) = v &&& 0x1FFF#32 ∧
      (1 ≤ fld v 1 5 → fld v 1 5 ≤ 24 → rd64 t (reg pWGHPQ 0x08C) = rd64 s (reg pWGH 0x0A4)) ∧
      (fld v 1 5 = 0 → rd64 t (reg pWGHPQ 0x08C) = rd64 s (reg pWGHPQ 0x08C))

/-- R157–R159, R206, R321, R378: a checkpoint verified stands in its slot of MRAM, one that fails is invalid, sets CKPT_FAIL and is
retried up to three times. From the power-fail trigger checkpoints stop, the Daybook admits SAFETY and CONTROL alone and
Scrivener records nothing; the capture is saved in slot F; power restored before a reset lets all of it go on. Where the manual
leaves a corner of this open, it is the model's reading: log 30, 37, 58. -/
def Obligations.CheckpointsAndPowerFailure : Prop :=
  ∀ s : State,
    (∀ (k : Nat) (c : Ckpt) (n : Nat), s.wgh.writing = some (k, c, n) →
      (∃ t, exec (.checkpointDone true) s = .next t ∧ get? t.wgh.slots k = some c ∧ t.wgh.writing = none ∧
        rd64 t (reg pWGH 0x090) = c.pos % 2 ^ 64) ∧
      (∃ t, exec (.checkpointDone false) s = .next t ∧ get? t.wgh.slots k = some { c with crc := ~~~c.crc } ∧
        (c.valid = true → ({ c with crc := ~~~c.crc } : Ckpt).valid = false) ∧
        t.wgh.writing = none ∧ rdB t (reg pWGH 0x084) 0 = true ∧
        t.wgh.retry = if n < 3 then some (k, c, n) else none)) ∧
    (∀ (k : Nat) (c : Ckpt) (n : Nat), s.wgh.retry = some (k, c, n) → s.wgh.stopped = false → s.wgh.writing = none →
      ∃ t, exec .checkpointRetry s = .next t ∧ t.wgh.writing = some (k, c, n + 1) ∧ t.wgh.retry = none) ∧
    (s.pins.pfwAt = none → ∃ t, exec .powerFailTrigger s = .next t ∧ t.dayb.powerFail = true ∧ t.scrv.off = true ∧
      t.scrv.hold = [] ∧ t.pins.pfwAt = some s.clk.fabric ∧ t.wgh.stopped = true ∧
      (s.wgh.stopped = false → t.wgh.save = .triggered ∧ t.wgh.intent = some (count s, s.wgh.ckSeq) ∧ t.wgh.writing = none) ∧
      t.wgh.raws = s.wgh.raws ∧ t.dayb.ring = s.dayb.ring) ∧
    (∀ c, s.wgh.save = .triggered → s.wgh.capture = some c → ∃ t, exec .finalSaveDone s = .next t ∧
      get? t.wgh.slots 3 = some c ∧ t.wgh.save = .saved ∧ rdB t (reg pWGH 0x084) 1 = true) ∧
    (s.pins.pfwAt.isSome = true → ∃ t, exec .powerRestored s = .next t ∧ t.dayb.powerFail = false ∧
      t.scrv.off = false ∧ t.pins.pfwAt = none ∧ t.wgh.stopped = false ∧ t.wgh.raws = s.wgh.raws)


/-! ### Factor (chapter 7) -/

/-- R170, R187: a doorbell makes the entries from SQ_HEAD up to the new tail pending, oldest first: one that was pending keeps its
age, one taken out of order stays taken, and any other is as old as the doorbell; CQ_HEAD frees completion entries. Where the
manual leaves a corner of this open, it is the model's reading: log 31. -/
def Obligations.FactorRingsTurn : Prop :=
  ∀ (s : State) (i : Init) (q : Fin 2) (v : Word),
    (clear s i (reg pFACTQ (0x08C + 0x40 * q.val)) v = true → ∃ t, exec (.sqTail i q v) s = .next t ∧
      (∀ k a, (k, a) ∈ fqPend t q.val ↔ k ∈ ringFrom s q.val (fld v 0 8) ∧
        (((fqPend s q.val).find? fun e => e.1 == k) = some (k, a) ∨
          (((fqPend s q.val).find? fun e => e.1 == k) = none ∧
            k ∉ ringFrom s q.val (rdF s (fq q.val 0x08C) 0 8) ∧ a = s.clk.fabric))) ∧
      (fqPend t q.val).Pairwise (fun x y => x.2 ≤ y.2) ∧
      rdF t (fq q.val 0x08C) 0 8 = fld v 0 8 ∧ (∀ p < 2, p ≠ q.val → fqPend t p = fqPend s p) ∧
      t.fact.run = s.fact.run ∧ t.fact.handles = s.fact.handles ∧ t.dram = s.dram) ∧
    (clear s i (reg pFACTQ (0x09C + 0x40 * q.val)) v = true → s.fact.posts = [] →
      ∃ t, exec (.cqHead i q v) s = .next t ∧
        cqUsed t q.val = cqUsed s q.val -
          (fld v 0 8 % fqSize s q.val + fqSize s q.val - rdF s (fq q.val 0x09C) 0 8 % fqSize s q.val) % fqSize s q.val ∧
        rdF t (fq q.val 0x09C) 0 8 = fld v 0 8 ∧ t.fact.pend = s.fact.pend ∧ t.dram = s.dram)

/-- R164, R165, R169–R173, R178–R181: Factor, free, takes its next descriptor and advances its queue, when the completion ring has
an entry that is not kept for work begun and its requests find room; without such an entry it waits with CQ_WAIT. A REGISTER that
passes its checks replaces the handle's pattern. A SOLVE on an unregistered handle completes INVALID; one that passes its checks
runs, its KKT matrix being factorised, on data without a numeric fault; data with one ends it NUMERIC_FAULT. A CONFIRM without a
held context of its tag completes INVALID; one whose data hold consumes the context and completes KEPT, any other re-solves. Where
the manual leaves a corner of this open, it is the model's reading: log 20, 31, 57. -/
def Obligations.DescriptorsAreServed : Prop :=
  ∀ (s u : State) (q i : Nat) (d : List Byte), q < 2 → u = atDesc s q i → d = descAt s q i →
    (takes s (· == 0) q i = true →
      (fqSize s q ≤ cqKept s q → ∃ t, exec .register s = .next t ∧ t.fact = s.fact ∧ rdB t (reg pFACTQ 0x100) 2 = true) ∧
      (descRoom s q i = true → descClassOk u q d = true → leAt d 8 8 % 64 = 0 → leAt d 8 8 + 64 ≤ Config.dramBytes →
        vecOk u (leAt d 8 8) (ceilDiv (patternBytes u (leAt d 8 8)).length 4) = true → factStopped u = false →
        leAt d 3 1 < 16 → patternOk (patternBytes u (leAt d 8 8)) = true →
        patternTotal u (leAt d 3 1) + (patternBytes u (leAt d 8 8)).length ≤ 167772160 →
        handleInUse u (leAt d 3 1) = false → logOk u (clsOf (leAt d 2 1)) = true →
        ∃ t, exec .register s = .next t ∧ posted u t q (leAt d 4 4) 8 0 ∧
          get? t.fact.handles (leAt d 3 1) = some (patternOf (patternBytes u (leAt d 8 8))) ∧
          ∀ h, h ≠ leAt d 3 1 → get? t.fact.handles h = get? s.fact.handles h)) ∧
    (takes s (fun y => y != 0 && y != 2) q i = true → descRoom s q i = true → leAt d 0 1 = 1 → descClassOk u q d = true →
      (get? s.fact.handles (leAt d 3 1) = none →
        ∃ t, exec .solve s = .next t ∧ posted u t q (leAt d 4 4) 7 0 ∧ t.fact.run = none) ∧
      ∀ p, get? s.fact.handles (leAt d 3 1) = some p → solveAddrsOk u d p = true → factStopped u = false →
        (leAt d 1 1 / 2 % 2 = 0 ∨ heldCount u < 4) →
        (dataOk (jobData u (solveJob u (ageOf s q i) q d p)) = true →
          ∃ t, exec .solve s = .next t ∧ t.fact.run = some (solveJob u (ageOf s q i) q d p) ∧ t.dram = s.dram ∧
            t.fact.pend = u.fact.pend ∧ t.fact.cqUsed = s.fact.cqUsed ∧
            ((settings d).2.2.2 = true → rdB t (reg pFACT 0x088) 6 = true)) ∧
        (dataOk (jobData u (solveJob u (ageOf s q i) q d p)) = false → ∃ t, exec .solve s = .next t ∧
          ended u t (solveJob u (ageOf s q i) q d p) 5 ∧ rdB t (reg pFACT 0x088) 4 = true)) ∧
    (takes s (· == 2) q i = true → descRoom s q i = true → descClassOk u q d = true →
      ((∀ h ∈ s.fact.held, h.job.tag ≠ leAt d 0x78 4) → ∃ t, exec .confirm s = .next t ∧
        posted u t q (leAt d 4 4) 7 0 ∧ t.fact.held = s.fact.held) ∧
      ∀ h p, (s.fact.held.find? fun c => c.job.tag == leAt d 0x78 4) = some h →
        get? s.fact.handles h.job.handle = some p → solveAddrsOk u (setNth d 1 0) p = true → factStopped u = false →
        ∀ ok : Bool, ok = (confirmMatch (decide (leAt d 1 1 / 8 % 2 = 0)) (w32 (leAt d 0x50 4))
            (w32 (leAt d 0x54 4)) (w32 (leAt d 0x58 4)) (jobData u (reSolve u (ageOf s q i) q d h p)) (jobData u h.job) &&
            decide (h.rec_.status = 0)) →
          (ok = true → calmWrites u q (clsOf (leAt d 2 1)) → ∃ t, exec .confirm s = .next t ∧ posted u t q (leAt d 4 4) 0 2 ∧
            t.fact.held = s.fact.held.erase h ∧ t.fact.run = none ∧
            t.fact.win = some (nthD h.job.addrs 5 0, nthD h.job.addrs 6 0, p.n, p.m)) ∧
          (ok = false → dataOk (jobData u (reSolve u (ageOf s q i) q d h p)) = true →
            ∃ t, exec .confirm s = .next t ∧ t.fact.held = s.fact.held.erase h ∧
              t.fact.run = some (reSolve u (ageOf s q i) q d h p) ∧ t.dram = s.dram))

/-- R171–R178, R183: a factorisation that is done lets the solve iterate, its factor resident where it fits; a bad pivot ends it
NUMERIC_FAULT, and without one crossed bounds end it PRIMAL_INFEASIBLE at iteration 0. An iteration counts and brings a check when
CHECK divides its number or a limit is reached; an OPERATOR solve is suspended at its end when a CONTROL descriptor waits and
PREEMPT is set, and resumes from the private region when none does, refactorising when the factor is no longer its own. A check
ends the solve with the first outcome of the table that holds, and lets it go on otherwise. A period boundary counts, once. Each
where its requests find room in the window. Where the manual leaves a corner of this open, it is the model's reading: log 20, 31,
57. -/
def Obligations.SolveTakesItsCourse : Prop :=
  ∀ (s : State),
    (∀ j, s.fact.run = some j → j.q < 2 →
      (∀ piv : List Word, j.phase = .factorising → factRoom s j.cls (factorCost s j + 1) = true →
        (pivotFault (jobPattern s j).n (jobPattern s j).m piv = false → (j.iter ≠ 0 ∨ crossed (jobData s j) = false) →
          ∃ t, exec (.factorisationDone piv) s = .next t ∧ t.fact.run = some { j with phase := .iterating } ∧
            (factFits s j = true → t.fact.resident = some j.handle ∧ t.fact.owner = j.id ∧ t.dram = s.dram) ∧
            (factFits s j = false → t.fact.resident = none ∧ t.fact.streamed = some j.id)) ∧
        (cqFree s j.q = true → pivotFault (jobPattern s j).n (jobPattern s j).m piv = true →
          ∃ t, exec (.factorisationDone piv) s = .next t ∧ ended s t j 5 ∧ rdB t (reg pFACT 0x088) 4 = true) ∧
        (cqFree s j.q = true → pivotFault (jobPattern s j).n (jobPattern s j).m piv = false → j.iter = 0 →
          crossed (jobData s j) = true → ∃ t, exec (.factorisationDone piv) s = .next t ∧ ended s t j 3)) ∧
      (j.phase = .iterating → factRoom s j.cls (iterCost s (iterated s j)) = true →
        (j.cls ≠ .operator ∨ rdB s (reg pFACT 0x080) 0 = false ∨ oldestAny s true = none →
          ∃ t j', exec .admmIteration s = .next t ∧ t.fact.run = some j' ∧ j'.iter = j.iter + 1 ∧ j'.rho = j.rho ∧
            j'.xPrev = j.x ∧ j'.yPrev = j.y ∧ j'.x.length = (jobProblem s j).n ∧ j'.y.length = (jobProblem s j).m ∧
            (j'.phase = .checking ↔ (j.iter + 1) % j.check = 0 ∨ j.maxIter ≤ j.iter + 1 ∨
              (j.timeLimit ≠ 0 ∧ j.timeLimit ≤ jobTime s j)) ∧ t.dram = s.dram) ∧
        (j.cls = .operator → rdB s (reg pFACT 0x080) 0 = true → (oldestAny s true).isSome = true → s.fact.susp = none →
          (j.iter + 1) % j.check ≠ 0 → limitHit s { j with iter := j.iter + 1 } = false →
          ∃ t j', exec .admmIteration s = .next t ∧ t.fact.run = none ∧ t.fact.susp = some j' ∧
            j'.suspended = true ∧ j'.iter = j.iter + 1 ∧ j'.spent = jobTime s j ∧ rdB t (reg pFACT 0x088) 2 = true)) ∧
      (j.phase = .checking →
        (∀ n, checkOutcome s j = some n → cqFree s j.q = true → factRoom s j.cls (endCost j) = true → calmWrites s j.q j.cls →
          (∃ t, exec .residualCheck s = .next t ∧ ended s t j n) ∧
          (j.maxIter ≤ j.iter → ∃ t, exec .maxIterReached s = .next t ∧ ended s t j n) ∧
          (j.timeLimit ≠ 0 → j.timeLimit ≤ jobTime s j → 0 < j.iter →
            ∃ t, exec .timeLimitReached s = .next t ∧ ended s t j n)) ∧
        (checkOutcome s j = none → factRoom s j.cls (stateCost j) = true → ∃ t j', exec .residualCheck s = .next t ∧
          (t.fact.run = some j' ∨ t.fact.susp = some j') ∧ j'.iter = j.iter ∧ j'.x = j.x ∧ j'.y = j.y ∧ j'.z = j.z ∧
          (j'.phase = .factorising ↔ j'.refact = j.refact + 1) ∧ (j.adapt = false → j'.rho = j.rho) ∧
          (t.fact.run = some j' → t.dram = s.dram)) ∧
        (j.maxIter ≤ j.iter ∨ (j.timeLimit ≠ 0 ∧ j.timeLimit ≤ jobTime s j) → ∃ n, checkOutcome s j = some n))) ∧
    (∀ j, s.fact.run = none → s.fact.susp = some j → oldestAny s true = none → s.fact.begun = none → factStopped s = false →
      factRoom s j.cls (stateCost j) = true →
      ∃ t j', exec .solveResume s = .next t ∧ t.fact.run = some j' ∧ t.fact.susp = none ∧ j'.iter = j.iter ∧
        j'.x = (privLoad s j).x ∧ j'.z = (privLoad s j).z ∧ j'.y = (privLoad s j).y ∧ j'.rho = (privLoad s j).rho ∧
        j'.spent = j.spent ∧ j'.since = count s ∧
        (ownFactor s j = true ∨ j.phase = .factorising → j'.phase = j.phase ∧ j'.refact = j.refact) ∧
        (ownFactor s j = false → j.phase ≠ .factorising → j'.phase = .factorising ∧ j'.refact = j.refact + 1)) ∧
    ∀ pos, s.lac.inService = true → fusedOff s pFACT = false → pos % 65536 = 0 → cycleOf pos % max 1 s.fact.period = 0 →
      (∀ p, s.fact.lastB = some p → p < pos) → s.clk.moves = true →
      ∃ t, exec (.periodBoundary pos) s = .next t ∧ rd t (reg pFACT 0x098) = rd s (reg pFACT 0x098) + 1 ∧
        rdB t (reg pFACT 0x088) 1 = true ∧ t.fact.lastB = some pos ∧ pos ≤ count t ∧
        t.fact.period = max 1 (rdF s (reg pFACT 0x08C) 0 16)

/-! ### The point store and the Daybook (chapter 8) -/

/-- R189–R194: a commanded write that meets nothing on its way and is the last of its fabric cycle at its level occupies it, a relinquish frees it, and the form
with bit 38 sets RELINQUISH; the record then shows its lowest-numbered occupied level, CHANGE_SEQ has counted, and no other
record changes. On a RETIRED record nothing changes. -/
def Obligations.CommandedWrites : Prop :=
  ∀ (s : State) (i : Init) (p : BitVec 16) (v : Word) (L : BitVec 5), cellOut s pPTS p.toNat = false →
    (clearCommand s i p.toNat (v.toNat + L.toNat * 2 ^ 32) = true →
      lastInCycle s i p.toNat (v.toNat + L.toNat * 2 ^ 32) = true →
      ((point s p.toNat).retired = false → ∃ t, exec (.commandedWrite i p v L) s = .next t ∧ pointWritten s t i p.toNat ∧
        (point t p.toNat).relq = (point s p.toNat).relq ∧
        ∀ l, get? (point t p.toNat).pa l = if l = L.toNat then some v else get? (point s p.toNat).pa l) ∧
      ((point s p.toNat).retired = true → ∃ t, exec (.commandedWrite i p v L) s = .next t ∧ t.pts = s.pts)) ∧
    (clearCommand s i p.toNat (L.toNat * 2 ^ 32 + 2 ^ 39) = true →
      lastInCycle s i p.toNat (L.toNat * 2 ^ 32 + 2 ^ 39) = true → (point s p.toNat).retired = false →
      ∃ t, exec (.relinquish i p L) s = .next t ∧ pointWritten s t i p.toNat ∧
        (point t p.toNat).relq = (point s p.toNat).relq ∧
        ∀ l, get? (point t p.toNat).pa l = if l = L.toNat then none else get? (point s p.toNat).pa l) ∧
    (clearCommand s i p.toNat (v.toNat + 2 ^ 38) = true → lastInCycle s i p.toNat (v.toNat + 2 ^ 38) = true → (point s p.toNat).retired = false →
      ∃ t, exec (.setRelinquish i p v) s = .next t ∧ pointWritten s t i p.toNat ∧ (point t p.toNat).relq = v ∧
        ∀ l, get? (point t p.toNat).pa l = get? (point s p.toNat).pa l)

/-- R199, R351: DEF_SEL, DEF_EU and DEF_RELQ are held for their initiator alone and change no point; DEF_CFG commits them to the
selected record, of which an initiator that does not see it keeps nothing (R196). CLASS NONE deletes it; a new CLASS empties the priority array, an INPUT then reading 0 STALE and every other
point RELINQUISH at LEVEL 0 GOOD. Where the manual
leaves a corner of this open, it is the model's reading: log 43. -/
def Obligations.PointDefinitions : Prop :=
  ∀ (s : State) (i : Init) (v : Word),
    (clear s i (reg pPTS 0x088) v = true → ∃ t, exec (.defSel i v) s = .next t ∧ selRecord t i.who = fld v 0 16 ∧
      t.pts = s.pts ∧ ∀ w, whoIdx w ≠ whoIdx i.who → selRecord t w = selRecord s w) ∧
    (∀ relq : Bool, clear s i (reg pPTS (if relq then 0x094 else 0x090)) v = true →
      ∃ t, exec (.defStage i relq v) s = .next t ∧ t.pts = s.pts ∧
        stagedOr t i.who (reg pPTS (if relq then 0x094 else 0x090)) 0 = v ∧
        ∀ k, k ≠ initKey i.who (reg pPTS (if relq then 0x094 else 0x090)) → get? t.staged k = get? s.staged k) ∧
    ∀ n o, clear s i (reg pPTS 0x08C) v = true → n = selRecord s i.who → o = shownPoint s i.who n →
      ∃ t, exec (.defCfg i v) s = .next t ∧ (∀ q, q ≠ n → point t q = point s q) ∧
        get? t.staged (initKey i.who (reg pPTS 0x090)) = none ∧ get? t.staged (initKey i.who (reg pPTS 0x094)) = none ∧
        (fld v 8 2 = 0 → (point t n).present = false) ∧
        (fld v 8 2 ≠ 0 → (point t n).cls = fld v 8 2 ∧ (point t n).tenant = fld v 0 8 ∧ (point t n).priv = bit v 10 ∧
          (point t n).ty = tyOfCode (fld v 12 2) ∧
          (point t n).eu = stagedOr s i.who (reg pPTS 0x090) o.eu ∧
          (point t n).relq = stagedOr s i.who (reg pPTS 0x094) o.relq ∧
          (fld v 8 2 = o.cls → (point t n).pa = o.pa) ∧
          (fld v 8 2 ≠ o.cls → (point t n).pa = [] ∧ (point t n).ts = count s ∧
            (fld v 8 2 = 1 → (point t n).value = 0 ∧ (point t n).level = 0xFF ∧ (point t n).qual = 2) ∧
            (fld v 8 2 ≠ 1 → (point t n).value = (point t n).relq ∧ (point t n).level = 0 ∧ (point t n).qual = 1)))

/-- R201, R202, R205: a reserved entry stands in the slot SEQ mod 16,384 once it is written, with EVT.GAP for a gap entry.
DRAIN_SEQ is committed as a pair by its high half, its low half being held; a value that would lower it or pass HEAD_SEQ is
ignored in full with DRAIN_ERR. Where the manual
leaves a corner of this open, it is the model's reading: log 43. -/
def Obligations.DaybookRing : Prop :=
  ∀ s : State,
    (∀ e es, s.dayb.reserved = e :: es → ∃ t, exec .dayEntryWrite s = .next t ∧ t.dayb.reserved = es ∧
      get? t.dayb.ring (e.seq % 16384) = some e ∧ (e.gap = true → rdB t (reg pDAYB 0x084) 4 = true) ∧
      t.dayb.head = s.dayb.head ∧ t.dayb.drain = s.dayb.drain ∧
      ∀ k, k ≠ e.seq % 16384 → get? t.dayb.ring k = get? s.dayb.ring k) ∧
    ∀ (i : Init) (v : Word),
      (clear s i (reg pDAYB 0x094) v = true → ∃ t, exec (.drainSeqLo i v) s = .next t ∧ t.dayb.drain = s.dayb.drain ∧
        stagedOr t i.who (reg pDAYB 0x094) 0 = v) ∧
      ∀ n, n = v.toNat * 2 ^ 32 + (stagedOr s i.who (reg pDAYB 0x094) (lo32 s.dayb.drain)).toNat →
        clear s i (reg pDAYB 0x098) v = true →
        (s.dayb.drain ≤ n → n ≤ s.dayb.head → ∃ t, exec (.drainSeqHi i v) s = .next t ∧ t.dayb.drain = n) ∧
        ((n < s.dayb.drain ∨ s.dayb.head < n) → ∃ t, exec (.drainSeqHi i v) s = .next t ∧ t.dayb.drain = s.dayb.drain ∧
          rdB t (reg pDAYB 0x084) 3 = true)

/-! ### The network (chapter 9) -/

/-- R209–R212, R215, R220, R310: a port that is stopped, has not passed its loopback test or has RX_EN 0 receives nothing. A frame of a bad size or FCS is dropped and
counted by the table; a valid one counts in RX_FRAMES, and a PAUSE frame to the group or the port's own address among them is obeyed, a filtered one and one that the
port cannot hold are dropped and counted, an OPX frame waits for the engine, and any other is placed in the receive ring or
held for it. Where the manual
leaves a corner of this open, it is the model's reading: log 34. -/
def Obligations.FramesAreReceived : Prop :=
  ∀ (s : State) (n : Fin 18) (f : List Byte) (ok sym : Bool),
    ((ethRuns s n.val = false ∨ rdB s (reg (ethPg n.val) 0x080) 0 = false) →
      ∃ t, exec (.frameReceive n f ok sym) s = .next t ∧ t.eth = s.eth ∧ t.regs = s.regs) ∧
    (ethRuns s n.val = true → rdB s (reg (ethPg n.val) 0x080) 0 = true → corMode s (ethPg n.val) = false →
      (∀ k, k = (if f.length ≤ 63 then (if ok then 15 else 16) else if maxLen s n.val < f.length then (if ok then 17 else 18)
          else 19) → (f.length ≤ 63 ∨ maxLen s n.val < f.length ∨ ok = false) →
        ∃ t, exec (.frameReceive n f ok sym) s = .next t ∧ t.eth = s.eth ∧ cnt t n.val k = cnt s n.val k + 1 ∧
          cnt t n.val 2 = cnt s n.val 2) ∧
      (64 ≤ f.length → f.length ≤ maxLen s n.val → ok = true →
        ∃ t, exec (.frameReceive n f ok sym) s = .next t ∧ cnt t n.val 2 = cnt s n.val 2 + 1 ∧
          (beAt f 12 2 = 0x8808 → pauseFor s n.val f = false → t.eth = s.eth ∧ cnt t n.val 7 = cnt s n.val 7 + 1) ∧
          (beAt f 12 2 = 0x8808 → pauseFor s n.val f = true → cnt t n.val 6 = cnt s n.val 6 + 1 ∧
            (∀ q, q = beAt f 16 2 → (ethPort s n.val).holdoff = false →
              (0 < q → (ethPort t n.val).paused.isSome = true ∧ (ethPort t n.val).pauseQ = q ∧
                (ethPort t n.val).pauseFrom = s.clk.fabric) ∧
              (q = 0 → (ethPort t n.val).paused = none))) ∧
          (beAt f 12 2 ≠ 0x8808 →
            (filterOk s n.val f = false → t.eth = s.eth ∧ cnt t n.val 23 = cnt s n.val 23 + 1) ∧
            (filterOk s n.val f = true →
              (admits s n.val = false → t.eth = s.eth ∧ cnt t n.val 21 = cnt s n.val 21 + 1 ∧
                rdB t (reg (ethPg n.val) 0x088) 4 = true) ∧
              (admits s n.val = true → (opxUdpOff s n.val f).isSome = true →
                (ethPort t n.val).rxq = (ethPort s n.val).rxq ++ [(count s, f)]) ∧
              (admits s n.val = true → opxUdpOff s n.val f = none → ∀ sz, sz = ringSize s (reg (ethPg n.val) 0x0DC) 12 →
                (rdF s (reg (ethPg n.val) 0x0E4) 0 12 % sz = rdF s (reg (ethPg n.val) 0x0E0) 0 12 % sz →
                  (ethPort t n.val).rxHold = (ethPort s n.val).rxHold ++ [f]) ∧
                (rdF s (reg (ethPg n.val) 0x0E4) 0 12 % sz ≠ rdF s (reg (ethPg n.val) 0x0E0) 0 12 % sz →
                  (ethPort s n.val).rxHold = [] → (ethPort t n.val).rxHold = [] ∧
                  rdB t (reg (ethPg n.val) 0x088) 6 = true ∧
                  rdF t (reg (ethPg n.val) 0x0E4) 0 12 = (rdF s (reg (ethPg n.val) 0x0E4) 0 12 % sz + 1) % sz))))))

/-- R213–R215, R218–R220, R239: PAUSE frames repeat above LWM; an expired pause, or the watchdog with its hold-off, lets the port
transmit; the most urgent job starts, a paused port starting none but PAUSE frames; a frame that ends goes on with its job or
completes its descriptor; one that runs dry counts, raises THR and completes its descriptor; the doorbells hand descriptors to
the MAC; a change of link shows with its event. Where the manual
leaves a corner of this open, it is the model's reading: log 34. -/
def Obligations.PortsPauseAndTransmit : Prop :=
  ∀ (s : State) (n : Fin 18) (p : EthPort), p = ethPort s n.val →
    (p.rxPausing = true → lwm s n.val < rxOcc p → ∃ t j, exec (.pauseRepeat n) s = .next t ∧
      (ethPort t n.val).jobs = p.jobs.filter (fun k => jobRank k == 0) ++ j :: p.jobs.filter (fun k => jobRank k != 0) ∧
      j.src = .pause (quantaOf s n.val)) ∧
    (p.paused.isSome = true → corMode s (ethPg n.val) = false →
      (∃ t, exec (.pauseExpiry n) s = .next t ∧ (ethPort t n.val).paused = none ∧ sameJobs s t n.val ∧
        rd t (reg (ethPg n.val) 0x2B0) = rd s (reg (ethPg n.val) 0x2B0) + w32 p.pauseQ) ∧
      ∃ t, exec (.pauseWatchdog n) s = .next t ∧ (ethPort t n.val).paused = none ∧ (ethPort t n.val).holdoff = true ∧
        sameJobs s t n.val ∧ cnt t n.val 40 = cnt s n.val 40 + 1 ∧ rdB t (reg (ethPg n.val) 0x088) 2 = true) ∧
    (∃ t, exec (.holdoffEnd n) s = .next t ∧ (ethPort t n.val).holdoff = false ∧ sameJobs s t n.val) ∧
    (ethRuns s n.val = true → rdB s (reg (ethPg n.val) 0x080) 1 = true → p.onWire = none →
      (p.paused = none → p.jobs ≠ [] → ∃ t j, exec (.txFrameStart n) s = .next t ∧ (ethPort t n.val).onWire = some j ∧
        j ∈ p.jobs ∧ (∀ k ∈ p.jobs, jobRank j ≤ jobRank k) ∧ (ethPort t n.val).jobs = p.jobs.erase j) ∧
      (p.paused.isSome = true → (∀ k ∈ p.jobs, 0 < jobRank k) → ∃ t, exec (.txFrameStart n) s = .next t ∧
        sameJobs s t n.val)) ∧
    (∀ j f rest, p.onWire = some j → j.frames = f :: rest → corMode s (ethPg n.val) = false →
      (∃ t, exec (.txFrameEnd n) s = .next t ∧ (ethPort t n.val).onWire = none ∧ cnt t n.val 25 = cnt s n.val 25 + 1 ∧
        (rest ≠ [] → (ethPort t n.val).jobs = { j with frames := rest, sent := j.sent + 1 } :: p.jobs) ∧
        (rest = [] → (ethPort t n.val).jobs = p.jobs ∧ ∀ i < 4096, j.src = .ring i →
          rdB t (reg (ethPg n.val) 0x088) 5 = true ∧
          rdF t (reg (ethPg n.val) 0x0D0) 0 12 = (i + 1) % ringSize s (reg (ethPg n.val) 0x0C8) 12)) ∧
      ∃ t, exec (.txUnderrun n) s = .next t ∧ (ethPort t n.val).onWire = none ∧ (ethPort t n.val).jobs = p.jobs ∧
        cnt t n.val 37 = cnt s n.val 37 + 1 ∧ cnt t n.val 25 = cnt s n.val 25 ∧
        rdB t (reg (ethPg n.val) 0x088) 1 = true ∧
        rdF t (reg (ethPg n.val) 0x0B0) 0 6 = min 38 (max 1 (rdF s (reg (ethPg n.val) 0x0B0) 0 6) + 1)) ∧
    (∀ (i : Init) (v : Word) (sz old d : Nat), sz = ringSize s (reg (ethPg n.val) 0x0C8) 12 →
      old = rdF s (reg (ethPg n.val) 0x0CC) 0 12 % sz → d = rd64 s (reg (ethPg n.val) 0x0C0) + 32 * old →
      clear s i (reg (ethPg n.val) 0x0CC) v = true → fld v 0 12 % sz = (old + 1) % sz → 1 < sz →
      (ramNat s (d + 0x0F) 1 / 128 % 2 = 0 → ∃ t, exec (.ethTxrTail i n v) s = .next t ∧ (ethPort t n.val).jobs = p.jobs ∧
        t.dram = s.dram) ∧
      (ramNat s (d + 0x0F) 1 / 128 % 2 = 1 → ramNat s (d + 0x10) 1 ≤ 4 → ramNat s (d + 0x0F) 1 / 16 % 2 = 0 → ramNat s (d + 0x0F) 1 / 64 % 2 = 0 →
      ramNat s (d + 8) 4 + 4 ≤ maxLen s n.val →
      ∃ t j, exec (.ethTxrTail i n v) s = .next t ∧ (ethPort t n.val).jobs = p.jobs ++ [j] ∧ j.src = .ring old ∧
        j.cls = clsOf (ramNat s (d + 0x10) 1) ∧ j.frames.length = 1 ∧ j.sent = 0)) ∧
    (∀ (i : Init) (v : Word) (f : List Byte), clear s i (reg (ethPg n.val) 0x0E0) v = true → p.rxHold = [f] →
      rdF s (reg (ethPg n.val) 0x0E4) 0 12 % ringSize s (reg (ethPg n.val) 0x0DC) 12 ≠
        fld v 0 12 % ringSize s (reg (ethPg n.val) 0x0DC) 12 →
      ∃ t, exec (.ethRxrTail i n v) s = .next t ∧ (ethPort t n.val).rxHold = [] ∧
        rdB t (reg (ethPg n.val) 0x088) 6 = true) ∧
    ∀ up : Bool, ∃ t, exec (.ethLinkChange n up) s = .next t ∧ (ethPort t n.val).link = up ∧
      (up ≠ p.link → rdB t (reg (ethPg n.val) 0x088) 0 = true)

/-- R224–R231, R236: a frame of a session whose tag verifies and whose SEQ the window takes awaits service once its message is
whole; one whose tag fails counts in AUTH_FAIL and reaches no session. An OPEN whose proof holds opens the slot under the key's
tenant with the rights granted and the next generation. An incomplete message is discarded at its timeout; a session closes on
its idle timeout, on SESS_CLOSE and on CLOSE, and its messages go with it. Where the manual
leaves a corner of this open, it is the model's reading: log 34. -/
def Obligations.SessionsOpenAndClose : Prop :=
  ∀ (s : State),
    (∀ (n : Fin 18) (f : List Byte) (arr o : Nat) (h : OpxHdr) (k : Nat), runs s pOPX = true →
      (ethPort s n.val).rxq = [(arr, f)] → (∀ m < n.val, offered s m = none) → opxUdpOff s n.val f = some (o - 8) → 8 ≤ o → h = opxHdr f o → k = sessSlot h.session →
      h.magic = 0x4F58 → h.version = 1 → h.type_ ≠ 0x10 → beAt f (o - 4) 2 = 8 + 40 + h.payLen + 16 →
      opWaiting s < 4096 → (session s k).open_ = true → (session s k).gen = sessGen h.session →
      h.tenant = (session s k).tenant → h.flags % 2 = 1 → h.frag = 0 → replayOk (session s k) h.sq = true →
      (session s k).reasm = [] → (∀ m ∈ s.opx.inbox, peerType m.type_ = true) → peerType h.type_ = true →
      corMode s pOPX = false →
      ∀ hdr ct, hdr = slice f o 40 → ct = slice f (o + 40) h.payLen →
      ∀ tag, tag = leBytes 16 (Crypto.gcmTag (session s k).key hdr (nonce h.session h.sq h.frag false) ct).toNat →
        ∃ t, exec (.opxFrameTake n) s = .next t ∧ (ethPort t n.val).rxq = [] ∧
          (tag = slice f (o + 40 + h.payLen) 16 → t.opx.inbox = s.opx.inbox ++
              [⟨h.type_, h.flags, clsOf h.cls, k, h.sq, h.srcCycle, h.srcAngle,
                Crypto.gcmText (session s k).key (nonce h.session h.sq h.frag false) ct, arr⟩] ∧
            (session t k).port = n.val + 1 ∧ replayOk (session t k) h.sq = false) ∧
          (tag ≠ slice f (o + 40 + h.payLen) 16 → t.opx.inbox = s.opx.inbox ∧ t.opx.sess = s.opx.sess ∧
            rd t (reg pOPX 0x0B0) = rd s (reg pOPX 0x0B0) + 1)) ∧
    (∀ (n : Fin 18) (f : List Byte) (o key k : Nat) (ks : KeySlot), runs s pOPX = true → s.opx.opens = [⟨n.val, f, none⟩] →
      o = (opxUdpOff s n.val f).getD 0 + 8 → key = beAt f (o + 40) 2 → key < 64 → ks = slot s key → ks.kind = 2 →
      mLOCK s = false → roleSet s = true → s.guard.safe = false → s.guard.dead = false →
      bit (tenWord s ks.tenant 0) 31 = true → sessOpen s ks.tenant < min 2048 (fld (tenWord s ks.tenant 0) 0 12) →
      s.vault.ready = true → rngOk s = true → cellOut s pLOCK key = false →
      pickSlot s (beAt f (o + 42) 2) key = .inl k → logOk s .operator = true → openWaits s = false → corMode s pOPX = false →
      ∃ t, exec (.openSession n) s = .next t ∧
        (leBytes 16 (Crypto.hmac ks.val (slice f o 60)).toNat = slice f (o + 60) 16 →
          (session t k).open_ = true ∧ (session t k).tenant = ks.tenant ∧ (session t k).keySlot = key ∧
          (session t k).gen = openGen (session s k).gen ∧ 0 < (session t k).gen ∧
          (session t k).rights = grantRights s ks.tenant (beAt f (o + 44) 2) ks.rights ∧
          (session t k).ceiling = sessCeiling ks.tenant (session t k).rights ∧ (session t k).txSeq = 1 ∧
          rdB t (reg pOPX 0x088) 0 = true) ∧
        (leBytes 16 (Crypto.hmac ks.val (slice f o 60)).toNat ≠ slice f (o + 60) 16 → t.opx.sess = s.opx.sess ∧
          rd t (reg pOPX 0x0B0) = rd s (reg pOPX 0x0B0) + 1)) ∧
    ∀ n : Fin 2048,
      (∀ sq : Word, corMode s pOPX = false → (∃ r ∈ (session s n.val).reasm, r.sq = sq.toNat) →
        ∃ t, exec (.reassemblyTimeout n sq) s = .next t ∧ (∀ r ∈ (session t n.val).reasm, r.sq ≠ sq.toNat) ∧
          rd t (reg pOPX 0x0BC) = rd s (reg pOPX 0x0BC) + 1 ∧ rdB t (reg pOPX 0x088) 4 = true) ∧
      ((session s n.val).open_ = true → (∃ t, exec (.sessionIdleTimeout n) s = .next t ∧ closed s t n.val) ∧
        (∀ (i : Init) (v : Word), clear s i (reg pOPX 0x0A4) v = true → bit v 31 = true → fld v 0 11 = n.val →
          ∃ t, exec (.sessClose i v) s = .next t ∧ closed s t n.val) ∧
        ∀ (sq : Word) (m : OpxMsg) (u : State), msgServed s n.val sq.toNat 0x12 m u → msgLogged u m →
          ∃ t, exec (.close n sq) s = .next t ∧ closed s t n.val)

/-- R62, R189, R195–R198, R232–R234, R237: what the messages of a session do that the session service grants at once. Each
entry of POINT_READ, POINT_WRITE and REG_WINDOW passes its own resources and is answered in the one reply; a TIME_REF counts for
the session that LAC names alone; an INPUT_IMAGE reaches its station and the INPUT points of its entries. Where the manual
leaves a corner of this open, it is the model's reading: log 23, 34, 52. -/
def Obligations.MessagesAreServed : Prop :=
  ∀ (s u : State) (n : Fin 2048) (sq : Word) (m : OpxMsg),
    (∀ p v, msgServed s n.val sq.toNat 3 m u → m.body = beBytes 2 1 ++ beBytes 2 p → p < 65536 →
      entryAt u m 5 (.pointRead p) v → hasRight v (sessWho n.val) rREAD = true → visible v (sessWho n.val) (point s p) = true →
      (point s p).retired = false → cellOut s pPTS p = false →
      ∃ t, exec (.pointRead n sq) s = .next t ∧ t.pts = s.pts ∧
        replied s t m 5 oSERVED (beBytes 2 1 ++ pointEntry ⟨oSERVED, pointWords p (point s p)⟩)) ∧
    (∀ p L x v, msgServed s n.val sq.toNat 4 m u → p < 65536 → 0 < L → L ≤ 16 →
      m.body = beBytes 2 1 ++ beBytes 2 p ++ beBytes 1 L ++ [0] ++ beBytes 4 (x : Word).toNat →
      ∀ c, c = x.toNat + L * 2 ^ 32 → entryAt u m 5 (.command p c) v →
      overruled s p L (orderOf (sessWho n.val) m.cls) = false →
      lastWriter s p (orderOf (sessWho n.val) m.cls) (origin s (sessWho n.val)) = origin s (sessWho n.val) →
      visible v (sessWho n.val) (point s p) = true → cmdAllowed v (sessWho n.val) (point s p) c = true →
      mLOCK s = false → s.guard.safe = false → s.guard.dead = false → (point s p).retired = false →
      cellOut s pPTS p = false → entryLogged u v m 5 (.command p c) →
      ∃ t, exec (.pointWrite n sq) s = .next t ∧ pointWritten s t ⟨sessWho n.val, m.cls⟩ p ∧
        (∀ l, get? (point t p).pa l = if l = L then some x else get? (point s p).pa l) ∧
        replied s t m 5 oSERVED (beBytes 2 1 ++ pointEntry ⟨oSERVED, pointWords p (point t p)⟩)) ∧
    (∀ a v, msgServed s n.val sq.toNat 6 m u → a < 2 ^ 32 →
      m.body = [0, 0] ++ beBytes 2 1 ++ beBytes 4 a ++ List.replicate 8 0 →
      entryAt u m 6 (.regRead a) v →
      pageAbsent v (sessWho n.val) (pageOf a) = false → hasRight v (sessWho n.val) rREG = true →
      ∃ t, exec (.regWindowRead n sq) s = .next t ∧ replied s t m 6 oSERVED
        ([0, 0] ++ beBytes 2 1 ++ regEntry ⟨oSERVED, [w32 a, readVal v (sessWho n.val) a]⟩)) ∧
    (∀ k x v, msgServed s n.val sq.toNat 6 m u → k < 16 →
      ∀ a, a = reg pBKP (0x100 + 4 * k) →
      m.body = [1, 0] ++ beBytes 2 1 ++ beBytes 4 a ++ beBytes 4 (x : Word).toNat ++ List.replicate 4 0 →
      entryAt u m 262 (.regWrite a x) v →
      pageAbsent v (sessWho n.val) (pageOf a) = false → fusedOff v (pageOf a) = false →
      writeRefusal v (sessWho n.val) m.cls a x = none → entryLogged u v m 262 (.regWrite a x) →
      ∃ t, exec (.regWindowWrite n sq) s = .next t ∧ rd t a = x ∧
        replied s t m 6 oSERVED ([1, 0] ++ beBytes 2 1 ++ regEntry ⟨oSERVED, [w32 a, x]⟩)) ∧
    (∀ pr num p q x, msgServed s n.val sq.toNat 1 m u → activeProg s = some pr → p < 65536 → q < 65536 →
      m.body = beBytes 2 num ++ beBytes 2 1 ++ beBytes 2 p ++ beBytes 2 q ++ beBytes 4 (x : Word).toNat →
      (∃ k ∈ pr.stations, k.src = 0 ∧ sessSlot k.id = n.val) → (point s p).cls = 1 → (point s p).retired = false →
      (∀ k ∈ ptPath (sessWho n.val), overBudget u (sessWho n.val) m.cls k 1 = false) →
      ∃ t, exec (.inputImage n sq) s = .next t ∧ (point t p).value = x ∧ (point t p).qual = qualOf (q % 16) ∧
        (∀ i, i ≠ p → point t i = point s i) ∧
        ∀ i (k : StationT), pr.stations[i]? = some k → k.src = 0 → sessSlot k.id = n.val →
          (look Station.absent t.loom.stations i).open_ =
            (look Station.absent s.loom.stations i).open_ ++ [⟨count s, m.srcCycle, [(p, (x, qualOf (q % 16)))]⟩]) ∧
    (msgServed s n.val sq.toNat 0xB m u → ∀ want, want = (beAt m.body 1 1 / 8 % 2 == 1) →
      ∃ t b, exec (.status n sq) s = .next t ∧ b.length = 16 ∧
        (session t n.val).tref = (want && hasRight s (sessWho n.val) rEVENT) ∧
        replied s t m 0xB (if want && !hasRight s (sessWho n.val) rEVENT then oRIGHTS else oSERVED) b) ∧
    (msgServed s n.val sq.toNat 8 m u →
      ∃ t, exec (.timeRef n sq) s = .next t ∧
        (n.val = rdF s (reg pLAC 0x0AC) 0 11 → t.lac.netAt = some s.clk.fabric ∧ t.lac.netArr = some m.arr) ∧
        (n.val ≠ rdF s (reg pLAC 0x0AC) 0 11 → t.lac = s.lac)) ∧
    (msgServed s n.val sq.toNat 9 m u → ∃ t, exec (.solveData n sq) s = .next t ∧
      (∀ base, Config.solveBuffer (beAt m.body 0 4) = some base →
        (∀ j < (m.body.drop 8).length, base + beAt m.body 4 4 + j < Config.dramBytes →
          ramByte t (base + beAt m.body 4 4 + j) = nthD (m.body.drop 8) j 0) ∧
        replied s t m 9 oSERVED (m.body.take 8)) ∧
      (Config.solveBuffer (beAt m.body 0 4) = none → t.dram = s.dram ∧ replied s t m 9 oABSENT []))

/-- R233, R237, R342, R343: a free lease goes to the session that takes it; its holder renews it, ends it, and brings the chunks of
a patch; while it is held another LEASE finds it busy. In its period the engine sends every open session a STATUS, and as a time
master a TIME_REF, at its angle, to the subscribed ones. Where the manual
leaves a corner of this open, it is the model's reading: log 34. -/
def Obligations.LeasesAndPeriodicMessages : Prop :=
  ∀ (s u : State) (n : Fin 2048) (sq : Word) (m : OpxMsg),
    (msgServed s n.val sq.toNat 0xC m u → beAt m.body 0 1 = 1 →
      (s.upd.lease = none → msgLogged u m → ∃ t l b, exec (.leaseTake n sq) s = .next t ∧ t.upd.lease = some l ∧
        l.holder = sessWho n.val ∧ l.at_ = s.clk.fabric ∧ rdB t updStatA 3 = true ∧ replied s t m 0xC oSERVED b ∧
        beAt b 1 1 = 0) ∧
      (∀ l, s.upd.lease = some l → ∃ t b, exec (.leaseTake n sq) s = .next t ∧ t.upd.lease = some l ∧
        replied s t m 0xC oSERVED b ∧ beAt b 1 1 = 1)) ∧
    (∀ l, s.upd.lease = some l → l.holder = sessWho n.val →
      (msgServed s n.val sq.toNat 0xC m u → beAt m.body 0 1 = 2 → ∃ t b, exec (.leaseRenew n sq) s = .next t ∧
        t.upd.lease = some { l with at_ := s.clk.fabric } ∧ replied s t m 0xC oSERVED b) ∧
      (msgServed s n.val sq.toNat 0xC m u → beAt m.body 0 1 = 3 → msgLogged u m →
        ∃ t b, exec (.leaseRelease n sq) s = .next t ∧ t.upd.lease = none ∧ rdB t updStatA 3 = false ∧
          (updState s = 1 → updState t = 0 ∧ t.upd.patch = []) ∧ replied s t m 0xC oSERVED b ∧ beAt b 1 1 = 2) ∧
      (msgServed s n.val sq.toNat 0xA m u → l.id = beAt m.body 0 4 → updState s = 1 →
        s.upd.patch.length + (m.body.drop 8).length < 128 →
        ∃ t, exec (.updateChunk n sq) s = .next t ∧ t.upd.lease = some { l with at_ := s.clk.fabric } ∧
          updState t = 1 ∧ replied s t m 0xA oSERVED (m.body.take 8) ∧
          (∀ j < (m.body.drop 8).length, get? t.upd.patch (beAt m.body 4 4 + j) = some (nthD (m.body.drop 8) j 0)) ∧
          ∀ k, (k < beAt m.body 4 4 ∨ beAt m.body 4 4 + (m.body.drop 8).length ≤ k) →
            get? t.upd.patch k = get? s.upd.patch k)) ∧
    (runs s pOPX = true → (session s n.val).open_ = true → (session s n.val).txSeq < 0xFFFFFFFF →
      (rdF s (reg pOPX 0x08C) 16 8 ≠ 0 → openSlots s = [n.val] →
        ∃ t, exec .statusPeriodSend s = .next t ∧
          t.opx.outq = s.opx.outq ++ [⟨0xB, 0, .operator, n.val, 0, 0, statusBody s n.val⟩]) ∧
      (rdB s (reg pOPX 0x090) 24 = true → trefSlots s = [n.val] → s.clk.moves = true →
        ∃ t b, exec .timeRefSend s = .next t ∧ b.length = 16 ∧
          t.opx.outq = s.opx.outq ++ [⟨8, 0, .control, n.val, 0, 0, b⟩] ∧
          fromAngle (count s) (rdF s (reg pOPX 0x090) 0 16) ≤ count t))

/-! ### Buses, serial ports and field I/O (chapter 10) -/

/-- R242–R244, R247, R252: a frame on a running bus goes where its first matching filter says: to a queue, or dropped and counted at
a full one, to a receive object, replaced whole with NEW, or rejected and counted. A group of one object completes with it. Q_HEAD
and the clear commands free frames; an object goes STALE once its TIMEOUT has passed without a frame; a sleeping bus wakes by a dominant level, or in frame
mode by the matching frame alone, which is then received. Where the manual
leaves a corner of this open, it is the model's reading: log 15, 32, 59. -/
def Obligations.BusesReceive : Prop :=
  ∀ (s : State) (n : Fin 8) (f : BusFrame) (b : Bus), b = bus s n.val →
    (busOn s n.val = true → b.sleeping = false → b.busOff = false →
      (f.fdf = true → rdB s (reg (mbPg n.val) 0x080) 1 = true) → corMode s (mbPg n.val) = false →
      groupCalm s n f → ∃ t, exec (.mbFrameReceive n f) s = .next t ∧
        rd t (reg (mbPg n.val) 0x0C0) = rd s (reg (mbPg n.val) 0x0C0) + 1 ∧
        (∀ o, filterFor s n.val f = some (1, o) →
          (b.q0.length < 64 → (bus t n.val).q0 = b.q0 ++ [⟨f, count s⟩] ∧ rdB t (reg (mbPg n.val) 0x08C) 0 = true) ∧
          (64 ≤ b.q0.length → bus t n.val = b ∧ rdB t (reg (mbPg n.val) 0x08C) 2 = true ∧
            rd t (reg (mbPg n.val) 0x0CC) = rd s (reg (mbPg n.val) 0x0CC) + 1)) ∧
        (((∃ o, filterFor s n.val f = some (2, o)) ∨ (filterFor s n.val f = none ∧ rdB s (reg (mbPg n.val) 0x080) 4 = true)) →
          b.q1.length < 32 → (bus t n.val).q1 = b.q1 ++ [⟨f, count s⟩] ∧ rdB t (reg (mbPg n.val) 0x08C) 1 = true) ∧
        (((∃ o, filterFor s n.val f = some (0, o)) ∨ (filterFor s n.val f = none ∧ rdB s (reg (mbPg n.val) 0x080) 4 = false)) →
          bus t n.val = b ∧ rd t (reg (mbPg n.val) 0x0C8) = rd s (reg (mbPg n.val) 0x0C8) + 1) ∧
        ∀ o < 16, filterFor s n.val f = some (3, o) → rd t (rxObj n.val o) = frameId f ∧
          rdF t (rxObj n.val o + 4) 0 4 = f.dlc.toNat ∧ rdB t (rxObj n.val o + 4) 8 = true ∧
          rdB t (rxObj n.val o + 4) 9 = false ∧ rdF t (rxObj n.val o + 4) 16 16 = rdF s (rxObj n.val o + 4) 16 16 ∧
          rd64 t (rxObj n.val o + 8) = count s % 2 ^ 64 ∧
          (∀ j < 16, rd t (rxObj n.val o + 0x10 + 4 * j) = frameData f j) ∧
          ∀ g < 8, rdB s (reg (mbPg n.val) (0x100 + 4 * g)) 31 = true → groupMembers s n.val g = [o] →
            rdB t (reg (mbPg n.val) 0x08C) 12 = true) ∧
    (∀ (o : Fin 16) (due : Nat), due = rxSince s n.val o.val + rdF s (rxObj n.val o.val + 4) 16 16 * 65536 →
      busOn s n.val = true → rdF s (rxObj n.val o.val + 4) 16 16 ≠ 0 →
      ∃ t, exec (.objectTimeout n o) s = .next t ∧ t.bus = s.bus ∧
        (due ≤ count s → rdB t (rxObj n.val o.val + 4) 9 = true ∧ rdB t (reg (mbPg n.val) 0x08C) 11 = true) ∧
        (count s < due → rdB t (rxObj n.val o.val + 4) 9 = rdB s (rxObj n.val o.val + 4) 9)) ∧
    (∀ (i : Init) (v : Word),
      (clear s i (reg (mbPg n.val) 0x0E0) v = true → ∃ t, exec (.mbQHead i n 0 v) s = .next t ∧
        (bus t n.val).q0 = b.q0.drop ((v.toNat % 64 + 64 - (rd s (reg (mbPg n.val) 0x0E0)).toNat % 64) % 64) ∧
        (bus t n.val).q1 = b.q1 ∧ rd t (reg (mbPg n.val) 0x0E0) = v &&& 0x3F#32) ∧
      (clear s i (reg (mbPg n.val) 0x0E4) v = true → ∃ t, exec (.mbQHead i n 1 v) s = .next t ∧
        (bus t n.val).q1 = b.q1.drop ((v.toNat % 32 + 32 - (rd s (reg (mbPg n.val) 0x0E4)).toNat % 32) % 32) ∧
        (bus t n.val).q0 = b.q0 ∧ rd t (reg (mbPg n.val) 0x0E4) = v &&& 0x1F#32) ∧
      (clear s i (reg (mbPg n.val) 0x084) 4 = true → ∃ t, exec (.clearQ0 i n) s = .next t ∧ (bus t n.val).q0 = [] ∧
        (bus t n.val).q1 = b.q1) ∧
      (clear s i (reg (mbPg n.val) 0x084) 5 = true → ∃ t, exec (.clearQ1 i n) s = .next t ∧ (bus t n.val).q1 = [] ∧
        (bus t n.val).q0 = b.q0)) ∧
    (b.sleeping = true → rdB s (reg (mbPg n.val) 0x080) 0 = true →
      (rdB s (reg (mbPg n.val) 0x080) 5 = false → ∀ g, ∃ t, exec (.busWakeEvent n g) s = .next t ∧
        (bus t n.val).sleeping = false ∧ rdB t (reg (mbPg n.val) 0x08C) 8 = true) ∧
      (rdB s (reg (mbPg n.val) 0x080) 5 = true →
        (wakeMatch s n.val f = true → corMode s (mbPg n.val) = false → groupCalm s n f → ∃ t, exec (.busWakeEvent n (some f)) s = .next t ∧
          (bus t n.val).sleeping = false ∧ rdB t (reg (mbPg n.val) 0x08C) 8 = true ∧
          rd t (reg (mbPg n.val) 0x0C0) = rd s (reg (mbPg n.val) 0x0C0) + 1) ∧
        (wakeMatch s n.val f = false → ∃ t, exec (.busWakeEvent n (some f)) s = .next t ∧ t.bus = s.bus)))

/-- R241, R245, R246, R250–R252: an object's words are staged for their initiator and committed with its DLC, which makes it pending; a
bus offers a time reference first, then of the pending objects and the ring's head, FD frames only while FD_EN is 1, the frame that
wins arbitration, an object first on a tie. A sent object is pending no more unless it was replaced meanwhile; lost arbitration and errors count, the object staying
pending, an error adding 8 to TEC. Bus-off recovers; EN is taken at a rate within the ranges; SLEEP, WAKE and RECOVER act. Where the manual
leaves a corner of this open, it is the model's reading: log 14, 15, 32, 59. -/
def Obligations.BusesSend : Prop :=
  ∀ (s : State) (n : Fin 8) (b : Bus), b = bus s n.val →
    (∀ (i : Init) (o : Fin 16) (v : Word),
      (∀ w : Fin 20, w.val = 0 ∨ 4 ≤ w.val → clear s i (txObj n.val o.val + 4 * w.val) v = true →
        ∃ t, exec (.txobjStage i n o w v) s = .next t ∧ stagedOr t i.who (txObj n.val o.val + 4 * w.val) 0 = v ∧
          t.bus = s.bus ∧ ∀ j < 20, rd t (txObj n.val o.val + 4 * j) = rd s (txObj n.val o.val + 4 * j)) ∧
      (clear s i (txObj n.val o.val + 4) v = true → ∃ t, exec (.txobjCommit i n o v) s = .next t ∧
        rdF t (txObj n.val o.val + 4) 0 4 = fld v 0 4 ∧ rdB t (txObj n.val o.val + 4) 8 = true ∧
        ∀ j < 20, j ≠ 1 → get? t.staged (initKey i.who (txObj n.val o.val + 4 * j)) = none ∧
          rd t (txObj n.val o.val + 4 * j) =
            stagedOr s i.who (txObj n.val o.val + 4 * j) (rd s (txObj n.val o.val + 4 * j))) ∧
      (clear s i (reg (mbPg n.val) 0x0F4) v = true → ∃ t, exec (.mbTxrTail i n v) s = .next t ∧
        rdF t (reg (mbPg n.val) 0x0F4) 0 10 = fld v 0 10 ∧
        (rdB s (reg (mbPg n.val) 0x080) 6 = false → t.bus = s.bus))) ∧
    (busOn s n.val = true → b.sleeping = false → b.busOff = false → b.onBus = none → stbySettled s = true →
      (mbNext s n.val).isSome = true → ∃ t x, exec (.mbFrameSend n) s = .next t ∧ (bus t n.val).onBus = some x ∧ (b.tref.isSome = true → x = .tref) ∧
        (b.tref = none → ∀ o' < 16, rdB s (txObj n.val o' + 4) 8 = true → o' ∉ b.failed →
          fdOk s n.val (rd s (txObj n.val o')) = true → (∀ o, x = .obj o → arbKey (rd s (txObj n.val o)) ≤ arbKey (rd s (txObj n.val o')) ∧
            (arbKey (rd s (txObj n.val o)) = arbKey (rd s (txObj n.val o')) → o ≤ o') ∧
            ∀ a, ringHead s n.val = some a → fdOk s n.val (w32 (ramNat s a 4)) = true → arbKey (rd s (txObj n.val o)) ≤ arbKey (w32 (ramNat s a 4))) ∧
          (x = .ring → ∃ a, ringHead s n.val = some a ∧ fdOk s n.val (w32 (ramNat s a 4)) = true ∧
            arbKey (w32 (ramNat s a 4)) < arbKey (rd s (txObj n.val o'))))) ∧
    (∀ o < 16, b.onBus = some (.obj o) → corMode s (mbPg n.val) = false → b.sleepReq = false →
      (∃ t, exec (.mbTxDone n .sent) s = .next t ∧ (bus t n.val).onBus = none ∧
        rdB t (txObj n.val o + 4) 8 = b.again ∧ rdB t (reg (mbPg n.val) 0x08C) 3 = true ∧
        rd t (reg (mbPg n.val) 0x0C4) = rd s (reg (mbPg n.val) 0x0C4) + 1 ∧
        rdF t (reg (mbPg n.val) 0x098) 0 8 = rdF s (reg (mbPg n.val) 0x098) 0 8 - 1) ∧
      (∃ t, exec (.mbTxDone n .lostArb) s = .next t ∧ (bus t n.val).onBus = none ∧
        rdB t (txObj n.val o + 4) 8 = rdB s (txObj n.val o + 4) 8 ∧
        rd t (reg (mbPg n.val) 0x0D4) = rd s (reg (mbPg n.val) 0x0D4) + 1) ∧
      ∃ t, exec (.mbTxDone n .error) s = .next t ∧ (bus t n.val).onBus = none ∧
        rdB t (txObj n.val o + 4) 8 = rdB s (txObj n.val o + 4) 8 ∧
        rd t (reg (mbPg n.val) 0x0D0) = rd s (reg (mbPg n.val) 0x0D0) + 1 ∧
        (rdF s (reg (mbPg n.val) 0x098) 0 8 < 248 →
          rdF t (reg (mbPg n.val) 0x098) 0 8 = rdF s (reg (mbPg n.val) 0x098) 0 8 + 8 ∧ (bus t n.val).busOff = b.busOff) ∧
        (248 ≤ rdF s (reg (mbPg n.val) 0x098) 0 8 → (bus t n.val).busOff = true ∧
          rdB t (reg (mbPg n.val) 0x08C) 6 = true)) ∧
    (b.busOff = true → b.recovering = true → busOn s n.val = true → ∃ t, exec (.busOffRecovery n) s = .next t ∧
      (bus t n.val).busOff = false ∧ rd t (reg (mbPg n.val) 0x098) = 0 ∧ rdB t (reg (mbPg n.val) 0x08C) 7 = true) ∧
    ∀ (i : Init) (v : Word),
      (clear s i (reg (mbPg n.val) 0x080) v = true → rdB s (reg (mbPg n.val) 0x080) 0 = false → bit v 0 = true →
        (ratesOk s n.val = true → ∃ t, exec (.mbEnable i n v) s = .next t ∧ rd t (reg (mbPg n.val) 0x080) = v &&& 0x7F#32 ∧
          rd t (reg (mbPg n.val) 0x098) = 0 ∧ (bus t n.val).got = [] ∧ (bus t n.val).busOff = false ∧ (bus t n.val).since = count s) ∧
        (ratesOk s n.val = false → ∃ t, exec (.mbEnable i n v) s = .next t ∧ rdB t (reg (mbPg n.val) 0x080) 0 = false ∧
          rdB t (reg (mbPg n.val) 0x08C) 10 = true)) ∧
      (clear s i (reg (mbPg n.val) 0x084) 1 = true → rdB s (reg (mbPg n.val) 0x080) 0 = true → b.sleeping = false →
        b.onBus = none → ∃ t, exec (.mbSleep i n) s = .next t ∧ (bus t n.val).sleeping = true) ∧
      (clear s i (reg (mbPg n.val) 0x084) 2 = true → b.sleeping = true → ∃ t, exec (.mbWake i n) s = .next t ∧
        (bus t n.val).sleeping = false ∧ rdB t (reg (mbPg n.val) 0x08C) 8 = true) ∧
      (clear s i (reg (mbPg n.val) 0x084) 3 = true → b.busOff = true → ∃ t, exec (.mbRecover i n) s = .next t ∧
        (bus t n.val).recovering = true)

/-- R254–R260, R262, R263: a serial port asserts DE for a transmission once DE.TURN has passed on a quiet line, completes its descriptors and releases DE when nothing follows,
writes the characters it receives to its ring or counts them lost at a full one, and marks the last one END after a gap. An input
follows its filter, is BAD on a wire break and counts edges; an output owned by REGISTER follows DO_CMD; a shutdown keeps an output
off until released; a group fault has every channel in service tested; without field supply inputs are BAD and outputs undriven. Where the manual
leaves a corner of this open, it is the model's reading: log 33. -/
def Obligations.SerialPortsAndFieldIo : Prop :=
  ∀ s : State,
    (∀ (n : Fin 4) (pg : Nat), pg = sfPg n.val →
      (∀ d, sfHead s n.val = some d →
        (sfOn s n.val = true → (sfPort s n.val).sending = false → sfTurned s n.val = true → ∃ t, exec (.sfTxStart n) s = .next t ∧
          (sfPort t n.val).sending = true ∧ rdB t (reg pg 0x08C) 0 = true) ∧
        ((sfPort s n.val).sending = true → corMode s pg = false → ∃ t, exec (.sfTxDone n) s = .next t ∧
          (sfPort t n.val).sending = false ∧ rdB t (reg pg 0x090) 2 = true ∧
          rd t (reg pg 0x0C0) = rd s (reg pg 0x0C0) + w32 (ramNat s (d + 8) 2) ∧
          (d + 16 ≤ Config.dramBytes → ramNat t (d + 11) 1 = 0) ∧
          (ramNat s (d + 10) 1 % 2 = 0 → sfHead t n.val = none → rdB t (reg pg 0x08C) 0 = false) ∧
          (ramNat s (d + 10) 1 % 2 = 1 → rdB t (reg pg 0x08C) 0 = rdB s (reg pg 0x08C) 0))) ∧
      (∀ (c : Byte) (pe fe br : Bool) (sz tl a : Nat), sz = sfRing s n.val 0x0B0 → tl = rdF s (reg pg 0x0B8) 0 12 % sz →
        a = rd64 s (reg pg 0x0A8) + 2 * tl → sfOn s n.val = true → corMode s pg = false →
        (rdB s (reg pg 0x08C) 0 = false ∨ rdB s (reg pg 0x080) 5 = true) →
        ((tl + 1) % sz ≠ rdF s (reg pg 0x0B4) 0 12 % sz → a + 2 ≤ Config.dramBytes →
          ∃ t, exec (.characterReceive n c pe fe br) s = .next t ∧ rdF t (reg pg 0x0B8) 0 12 = (tl + 1) % sz ∧
            rd t (reg pg 0x0BC) = rd s (reg pg 0x0BC) + 1 ∧ rdB t (reg pg 0x090) 0 = true ∧
            ramNat t a 2 = (if rdB s (reg pg 0x080) 1 then c.toNat else c.toNat % 128) + 256 * b2n pe + 512 * b2n fe +
              1024 * b2n br ∧ ∀ x, (x < a ∨ a + 2 ≤ x) → ramByte t x = ramByte s x) ∧
        ((tl + 1) % sz = rdF s (reg pg 0x0B4) 0 12 % sz → ∃ t, exec (.characterReceive n c pe fe br) s = .next t ∧
          t.dram = s.dram ∧ rd t (reg pg 0x0C8) = rd s (reg pg 0x0C8) + 1 ∧ rdB t (reg pg 0x090) 3 = true)) ∧
      (∀ a, (sfPort s n.val).lastChar = some a → sfOn s n.val = true → rdF s (reg pg 0x080) 8 8 ≠ 0 →
        a + 2 ≤ Config.dramBytes → ∃ t, exec (.idleGap n) s = .next t ∧ rdB t (reg pg 0x090) 1 = true ∧
          ramNat t a 2 % 2048 = ramNat s a 2 % 2048 ∧ ramNat t a 2 / 2048 % 2 = 1) ∧
      ∀ (i : Init) (v : Word),
        (clear s i (reg pg 0x0A0) v = true → ∃ t, exec (.sfTxrTail i n v) s = .next t ∧
          rdF t (reg pg 0x0A0) 0 12 = fld v 0 12) ∧
        (clear s i (reg pg 0x0B4) v = true → ∃ t, exec (.sfRxrHead i n v) s = .next t ∧
          rdF t (reg pg 0x0B4) 0 12 = fld v 0 12)) ∧
    (runs s pFIO = true → fldUv s = false → fieldCalm s 2 → ∀ n : Fin 16, rdB s (diagDi (n.val + 1)) 4 = false →
      (diCounts s (n.val + 1) = false → cellOut s pFIO n.val = false → chBit s 0x08C (n.val + 1) = false →
        ∀ v, ∃ t, exec (.diFilterAccept n v) s = .next t ∧ chBit t 0x088 (n.val + 1) = v ∧
          ∀ p, Config.diPoint (n.val + 1) = some p → (point s p).cls = 1 → (point s p).retired = false →
            (point t p).value = w32 (b2n v) ∧ (point t p).qual = 1) ∧
      (diCounts s (n.val + 1) = false → rdB s (reg pFIO (0x0A0 + 4 * n.val)) 9 = true →
        ∃ t, exec (.wireBreak n) s = .next t ∧ chBit t 0x088 (n.val + 1) = false ∧ chBit t 0x08C (n.val + 1) = true ∧
          rdF t (diagDi (n.val + 1)) 0 4 = 1) ∧
      (rdF s (diagDi (n.val + 1)) 0 4 = 1 → chBit s 0x08C (n.val + 1) = true →
        ∃ t, exec (.wireBreakClear n) s = .next t ∧ chBit t 0x08C (n.val + 1) = false ∧
          rdF t (diagDi (n.val + 1)) 0 4 = 0) ∧
      (diCounts s (n.val + 1) = true → ∃ t, exec (.countEdge n) s = .next t ∧
        rd t (reg pFIO (0x160 + 4 * n.val)) = rd s (reg pFIO (0x160 + 4 * n.val)) + 1)) ∧
    (∀ (i : Init) (v : Word),
      (clear s i (reg pFIO 0x1E0) v = true → ∃ t, exec (.cntClr i v) s = .next t ∧ ∀ k < 16,
        rd t (reg pFIO (0x160 + 4 * k)) = if bit v k then 0 else rd s (reg pFIO (0x160 + 4 * k))) ∧
      (clear s i (reg pFIO 0x094) v = true → ∃ t, exec (.doCmdWrite i v) s = .next t ∧ ∀ c, 1 ≤ c → c ≤ 8 →
        doReg s c = true → bit v (7 + c) = true → doForcedOff s c = none → get? s.fio.forced c = none →
        doEffective t c = bit v (c - 1) ∧ (doAngle s c = false → t.fio.out.getLsbD (c - 1) = bit v (c - 1)))) ∧
    (∀ c : Fin 8, (∃ t, exec (.doThermalShutdown c) s = .next t ∧ t.fio.thermal.getLsbD c.val = true ∧
        rdF t (diagDo (c.val + 1)) 0 4 = 3 ∧ rdB t (reg pFIO 0x090) (c.val + 8) = false) ∧
      (doEffective s (c.val + 1) = false → ∃ t, exec (.doShutdownRelease c) s = .next t ∧
        t.fio.thermal.getLsbD c.val = false)) ∧
    (∀ g : Fin 3, rdB s (reg pFIO 0x080) g.val = false → runs s pFIO = true → ∃ t, exec (.groupFault g) s = .next t ∧
      rdB t (reg pFIO 0x080) g.val = true ∧ rdB t (reg pFIO 0x084) 0 = true) ∧
    (fldUv s = false → fieldCalm s 16 → ∃ t, exec .fieldUndervoltage s = .next t ∧ fldUv t = true ∧ t.fio.out = 0 ∧
      rd t (reg pFIO 0x08C) = 0xFFFF#32 ∧ rdB t (reg pFIO 0x084) 2 = true) ∧
    (fldUv s = true → fieldCalm s 16 → ∃ t, exec .fieldSupplyRestored s = .next t ∧ fldUv t = false ∧ ∀ k < 16,
      chBit t 0x08C (k + 1) = (rdF s (diagDi (k + 1)) 0 4 == 1 || rdB s (diagDi (k + 1)) 4))

/-! ### The display (chapter 11) -/

/-- R266–R271, R273: a due frame powers the panel first, waits for PGOOD, is skipped and counted while the one before is in scan-out,
and otherwise goes out with every busy pixel's next code, a queued request of an idle region starting with it. At its end each pixel
has moved on by one frame or ended its waveform, its ledger counted; it does not end before its rows are shifted out. PGOOD, its
timeout, its loss and OFF_DLY without a due frame move the panel supply; a temperature sets the band. Where the manual
leaves a corner of this open, it is the model's reading: log 21, 35, 52. -/
def Obligations.FramesDriveThePanel : Prop :=
  ∀ s : State,
    (s.sgn.due = true → sgnRuns s = true → s.sgn.stopped = false →
      (s.sgn.scan.isSome = true → corMode s pSGN = false → ∃ t, exec .frameStart s = .next t ∧ t.sgn.due = false ∧
        rd t (reg pSGN 0x0B8) = rd s (reg pSGN 0x0B8) + 1 ∧ rdB t (reg pSGN 0x0B0) 3 = true ∧ t.dram = s.dram ∧
        t.sgn.scan = s.sgn.scan ∧ t.sgn.busy = s.sgn.busy) ∧
      (s.sgn.scan = none → s.sgn.pwrup = false → ∃ t, exec .frameStart s = .next t ∧ t.sgn.pwrup = true ∧
        t.sgn.scan = none ∧ t.dram = s.dram ∧ rdF t (reg pSGN 0x0AC) 0 2 = if s.sgn.pgood then 2 else 1) ∧
      (s.sgn.scan = none → s.sgn.pwrup = true → s.sgn.pgood = true → frameCalm s → ∃ t, exec .frameStart s = .next t ∧
        t.sgn.due = false ∧ t.sgn.scan = some (frameCodes t) ∧
        (mayStart s = false → t.dram = s.dram ∧ t.sgn.busy = s.sgn.busy) ∧
        ∀ r < 32, ∀ q : RgnReq, q.region = r → mayStart s = true → s.sgn.recov = 0 → s.sgn.bal = none → s.sgn.waits = [] →
          s.sgn.joining = [] → s.sgn.queued = [(r, q)] → get? s.sgn.running r = none → s.guard.safe = false →
          reqBusy s q = false → get? t.sgn.running r = some q ∧ t.sgn.queued = [] ∧ rd t (rgA r 0x1C) = 1 ∧
            ∃ u, get? t.sgn.recs r = some u ∧ u.new = q.id ∧ u.old = look 0 s.sgn.shown r ∧ u.interrupted = false)) ∧
    (∀ p c : Nat, ∀ l : Int, s.sgn.scan = some [(p, c)] → s.sgn.busy = [p] → s.sgn.recov = 0 → pxAddr s p + 4 ≤ Config.dramBytes →
      corMode s pSGN = false → frameOver s ≤ s.clk.fabric →
      l = pxLedger s p + (if c = 1 then 1 else if c = 2 then -1 else 0) →
      ∃ t, exec .frameEnd s = .next t ∧ t.sgn.scan = none ∧ rd t (reg pSGN 0x0B4) = rd s (reg pSGN 0x0B4) + 1 ∧
        pxLedger t p = max (-127) (min 127 l) ∧ (l < -127 ∨ 127 < l → rdB t (reg pSGN 0x0B0) 9 = true) ∧
        pxF t p 16 4 = pxF s p 16 4 ∧ pxF t p 4 4 = pxF s p 4 4 ∧
        (pxF s p 8 6 + 1 < lutLen s (pxF s p 16 4) (16 * pxF s p 0 4 + pxF s p 4 4) → t.sgn.busy = [p] ∧
          pxF t p 0 4 = pxF s p 0 4 ∧ pxF t p 8 6 = pxF s p 8 6 + 1 ∧ pxF t p 15 1 = 1) ∧
        (lutLen s (pxF s p 16 4) (16 * pxF s p 0 4 + pxF s p 4 4) ≤ pxF s p 8 6 + 1 → t.sgn.busy = [] ∧
          pxF t p 0 4 = pxF s p 4 4 ∧ pxF t p 8 6 = 0 ∧ pxF t p 15 1 = 0 ∧
          ∀ r < 32, ∀ q : RgnReq, q.region = r → s.sgn.running = [(r, q)] → s.sgn.waits = [] →
            t.sgn.running = [] ∧ rdB t (reg pSGNRG 0x084) r = true ∧ rdB t (reg pSGN 0x0B0) 0 = true ∧
            rdF t (rgA r 0x1C) 0 3 = 0 ∧ look 0 t.sgn.shown r = q.id ∧ get? t.sgn.recs r = none ∧
            (q.safety = true → rd t (reg pSGN 0x0C0) = q.id ∧ t.sgn.safeId = q.id))) ∧
    (s.clk.fabric < frameOver s → ∃ t, exec .frameEnd s = .next t ∧ t.sgn = s.sgn ∧ t.dram = s.dram) ∧
    (∀ by_ : Nat, by_ = s.sgn.pwrAt + rdF s (reg pSGN 0x080) 8 8 * 400000 → s.sgn.pwrup = true → s.sgn.pgood = false →
      (∃ t, exec .epdPgoodRise s = .next t ∧ t.sgn.pgood = true ∧ rdF t (reg pSGN 0x0AC) 0 2 = 2) ∧
      ∃ t, exec .pgoodTimeout s = .next t ∧ (s.clk.fabric < by_ → t.sgn = s.sgn) ∧
        (by_ ≤ s.clk.fabric → t.sgn.pwrup = false ∧ rdF t (reg pSGN 0x0AC) 0 2 = 0 ∧ rdB t (reg pSGN 0x0B0) 1 = true ∧
          t.sgn.due = false)) ∧
    (s.sgn.pgood = true → s.sgn.busy ≠ [] → ∃ t, exec .pgoodLost s = .next t ∧ t.sgn.pgood = false ∧
      rdB t (reg pSGN 0x0B0) 2 = true ∧ t.sgn.running = [] ∧ t.sgn.busy = [] ∧
      (∀ r < 32, (get? s.sgn.running r).isSome = true → rdF t (rgA r 0x1C) 0 3 = 2) ∧
      ∀ e ∈ t.sgn.recs, e.2.interrupted = true) ∧
    (∀ off : Nat, off = s.sgn.dueAt + rdF s (reg pSGN 0x080) 16 8 * 4000000 →
      ∃ t, exec .panelPowerOff s = .next t ∧ (s.sgn.due = true ∨ s.sgn.scan.isSome = true ∨ s.clk.fabric < off → t.sgn = s.sgn) ∧
        (s.sgn.due = false → s.sgn.scan = none → off ≤ s.clk.fabric → t.sgn.pwrup = false ∧ rdF t (reg pSGN 0x0AC) 0 2 = 0)) ∧
    (∀ T x w : Int, w = 256 * (max 1 (rdF s (reg pSGN 0x08C) 8 4) : Nat) → x = T - 256 * sgn 8 (rdF s (reg pSGN 0x08C) 0 8) →
      ∃ t, exec (.temperatureRead (some T)) s = .next t ∧ (x < w → rdF t (reg pSGN 0x08C) 16 4 = 0) ∧
        (15 * w ≤ x → rdF t (reg pSGN 0x08C) 16 4 = 15) ∧
        ∀ b ≤ 15, (b : Nat) * w ≤ x → x < (b + 1 : Nat) * w → rdF t (reg pSGN 0x08C) 16 4 = b) ∧
    ∃ t, exec (.temperatureRead none) s = .next t ∧ rdB t (reg pSGN 0x0B0) 4 = true ∧
      rd t (reg pSGN 0x08C) = rd s (reg pSGN 0x08C)

/-- R271–R273: a region's words are staged for their initiator and committed together by GO, as the region's one queued request, or
as a request that joins at the next frame under MERGE or SAFETY; LOAD_LUT makes the table valid with its CRC; BALANCE asks for a
pass. Where the manual
leaves a corner of this open, it is the model's reading: log 35. -/
def Obligations.RegionRequests : Prop :=
  ∀ (s : State) (i : Init),
    (∀ (r : Fin 32) (w : Fin 6) (v : Word), clear s i (rgA r.val (4 * w.val)) v = true →
      ∃ t, exec (.regionStage i r w v) s = .next t ∧ stagedOr t i.who (rgA r.val (4 * w.val)) 0 =
          v &&& (if w.val = 0 then 0x07FF07FF else if w.val = 1 then 0x0FFF0FFF else if w.val = 4 then 0xFFFF else 0xFFFFFFFF) ∧
        t.sgn = s.sgn ∧ ∀ j < 8, rd t (rgA r.val (4 * j)) = rd s (rgA r.val (4 * j))) ∧
    (∀ (r : Fin 32) (v : Word) (W : Nat → Word), clear s i (rgA r.val 0x18) v = true → bit v 2 = true →
      (∀ j, W j = stagedOr s i.who (rgA r.val (4 * j)) (rd s (rgA r.val (4 * j)))) →
      ∃ t q, exec (.regionGo i r v) s = .next t ∧ (∀ j < 6, rd t (rgA r.val (4 * j)) = W j ∧
          get? t.staged (initKey i.who (rgA r.val (4 * j))) = none) ∧ rd t (rgA r.val 0x18) = v &&& 3#32 ∧
        q.region = r.val ∧ q.x = fld (W 0) 0 11 ∧ q.y = fld (W 0) 16 11 ∧ q.w = fld (W 1) 0 12 ∧ q.h = fld (W 1) 16 12 ∧
        q.stride = fld (W 4) 0 16 ∧ q.id = W 5 ∧ q.safety = bit v 1 ∧ q.merge = bit v 0 ∧ t.sgn.running = s.sgn.running ∧
        t.sgn.busy = s.sgn.busy ∧
        (bit v 0 = true ∨ bit v 1 = true → t.sgn.joining = s.sgn.joining ++ [q] ∧ t.sgn.queued = s.sgn.queued) ∧
        (bit v 0 = false → bit v 1 = false → get? t.sgn.queued r.val = some q ∧ t.sgn.joining = s.sgn.joining ∧
          ((get? s.sgn.running r.val).isSome = true → rdB t (rgA r.val 0x1C) 3 = true) ∧
          ((get? s.sgn.queued r.val).isSome = true → rdB t (rgA r.val 0x1C) 4 = true))) ∧
    (clear s i (reg pSGN 0x0A8) 1 = true → ∃ t, exec (.loadLut i) s = .next t ∧ rdB t (reg pSGN 0x0AC) 2 = true ∧
      rd t (reg pSGN 0x0A4) = Crypto.crc32 (ramBytes s (lutBase s) 65536)) ∧
    (clear s i (reg pSGN 0x0A8) 2 = true → ∃ t, exec (.balance i) s = .next t ∧ t.sgn.balReq = true)

/-! ### The vault (chapter 12) -/

/-- R279–R286: Locksmith is ready with a fresh scrambling key; a re-mask, every REMASK_S seconds, draws a mask for every slot. STAGE, COMMIT, CANCEL and
ERASE change one slot and its generation, a COMMIT or ERASE of an OPX_OPEN slot closing the sessions opened with it. DERIVE and
ATTEST compute their HMAC, ATTEST after its counter has counted. The life-cycle advances, LC_RETIRE destroying every key. Each
command leaves its outcome in LOCK.RESULT and sets EVT.DONE. Where the manual
leaves a corner of this open, it is the model's reading: log 36. -/
def Obligations.KeyCommands : Prop :=
  ∀ (s : State) (i : Init) (n d : Nat) (k : KeySlot) (R : Nat → State → Prop), n = lockSel s → d = lockDst s → k = slot s n →
    (∀ c t, R c t ↔ rd t (reg pLOCK 0x09C) = w32 (oSERVED + c * 2 ^ 16 + lockTarget s c * 2 ^ 24) ∧
      rdB t (reg pLOCK 0x088) 0 = true) →
    (s.vault.ready = false → fenced s pLOCK = false → retiredPg s pLOCK = false → s.vault.waiting = [] →
      ∃ t, exec .locksmithReady s = .next t ∧ t.vault.ready = true ∧ rdB t (reg pLOCK 0x084) 5 = true ∧
        t.vault.scramble = leBytes 32 (Config.randomBytes s.vault.draws).toNat ∧ t.vault.slots = s.vault.slots) ∧
    (s.vault.ready = true → rdB s (reg pLOCK 0x080) 1 = true → rngOk s = true →
      ∀ due : Nat, due = s.vault.remaskAt + remaskPeriod s * Config.fabricHz → ∃ t, exec .remask s = .next t ∧
        (s.clk.fabric < due → t.vault = s.vault) ∧
        (due ≤ s.clk.fabric → t.vault.remaskAt = s.clk.fabric ∧
          ∀ j < 64, slot t j = { slot s j with mask := leBytes 32 (Config.randomBytes (s.vault.draws + j)).toNat })) ∧
    (s.vault.ready = true →
      (clear s i (reg pLOCK 0x090) 1 = true → lockCheck s 1 = oSERVED → ∃ t, exec (.lockStage i) s = .next t ∧ R 1 t ∧
        slot t n = { k with stage := some (rdF s (reg pLOCK 0x094) 0 4, rdF s (reg pLOCK 0x094) 8 8,
          rdF s (reg pLOCK 0x094) 16 8, lockData s) } ∧ t.vault.data = [] ∧ ∀ j, j ≠ n → slot t j = slot s j) ∧
      (clear s i (reg pLOCK 0x090) 2 = true → lockCheck s 2 = oSERVED → ∃ t, exec (.lockCommit i) s = .next t ∧ R 2 t ∧
        (∀ kd tn rt v, k.stage = some (kd, tn, rt, v) → slot t n = ⟨kd, tn, rt, nextGen k.gen, v, none, k.mask⟩) ∧
        (k.kind = 2 → ∀ m, (session s m).open_ = true → (session s m).keySlot = n → (session t m).open_ = false) ∧
        (k.kind ≠ 2 → t.opx = s.opx) ∧ ∀ j, j ≠ n → slot t j = slot s j) ∧
      (clear s i (reg pLOCK 0x090) 3 = true → lockCheck s 3 = oSERVED → ∃ t, exec (.lockCancel i) s = .next t ∧ R 3 t ∧
        slot t n = { k with stage := none } ∧ ∀ j, j ≠ n → slot t j = slot s j) ∧
      (clear s i (reg pLOCK 0x090) 4 = true → lockCheck s 4 = oSERVED → ∃ t, exec (.lockErase i) s = .next t ∧ R 4 t ∧
        slot t n = { KeySlot.empty with gen := nextGen k.gen } ∧
        (k.kind = 2 → ∀ m, (session s m).open_ = true → (session s m).keySlot = n → (session t m).open_ = false) ∧
        (k.kind ≠ 2 → t.opx = s.opx) ∧ ∀ j, j ≠ n → slot t j = slot s j) ∧
      (clear s i (reg pLOCK 0x090) 5 = true → lockCheck s 5 = oSERVED → ∃ t, exec (.derive i) s = .next t ∧ R 5 t ∧
        (slot t d).kind = 5 ∧ (slot t d).tenant = k.tenant ∧ (slot t d).gen = nextGen (slot s d).gen ∧ (slot t d).stage = none ∧
        (slot t d).val = leBytes 32 (Crypto.hmac k.val ([0, 0, 0, 1] ++
          ramBytes s (rd64 s (reg pLOCK 0x0A8)) (rdF s (reg pLOCK 0x0B0) 0 9) ++ [0, 0, 1, 0])).toNat ∧
        ∀ j, j ≠ d → slot t j = slot s j) ∧
      (clear s i (reg pLOCK 0x090) 6 = true → lockCheck s 6 = oSERVED → ∃ t, exec (.attest i) s = .next t ∧ R 6 t ∧
        t.guard.attCtr = s.guard.attCtr + 1 ∧ rd64 t (reg pLOCK 0x0A0) = (s.guard.attCtr + 1) % 2 ^ 64 ∧
        t.vault.slots = s.vault.slots ∧
        ∀ h, h = leBytes 32 (Crypto.hmac k.val (lockData s ++ leBytes 16 Config.moduleIdentity.toNat ++
            leBytes 1 s.guard.lifecycle ++ s.vault.measure ++ (leBytes 8 (s.guard.attCtr + 1)).reverse)).toNat →
          ∀ j < 8, rd t (reg pLOCK (0x0E0 + 4 * j)) = w32 (leAt h (4 * j) 4)) ∧
      (clear s i (reg pLOCK 0x090) 7 = true → lockCheck s 7 = oSERVED → ∃ t, exec (.lcOwn i) s = .next t ∧ R 7 t ∧
        s.guard.lifecycle = 1 ∧ t.guard.lifecycle = 2 ∧ t.vault.ownerRoot = lockData s ∧ rdB t (reg pLOCK 0x084) 6 = true ∧
        t.vault.rootOf = s.vault.rootOf ∧ t.vault.slots = s.vault.slots) ∧
      (clear s i (reg pLOCK 0x090) 8 = true → lockCheck s 8 = oSERVED → ∃ t, exec (.lcRetire i) s = .next t ∧ R 8 t ∧
        s.guard.lifecycle = 2 ∧ t.guard.lifecycle = 3 ∧ rdB t (reg pLOCK 0x084) 6 = true ∧ t.vault.rootOf = s.vault.rootOf ∧
        rdB t (reg pLOCK 0x084) 4 = true ∧ (∀ m, (session t m).open_ = false) ∧
        ∀ j < 64, slot t j = { KeySlot.empty with gen := nextGen (slot s j).gen }))

/-- R277, R278, R287–R298: an armed sensor's trip destroys every key, is recorded and sets LOCKDOWN; a further trip adds its cause
and destroys nothing, and an unarmed one only shows. The backup domain powers on with every slot empty. At a second boundary the
calendar advances by one second, staged fields replace theirs, alarms match, WAKE_S counts. TRIM moves the tick by one each time its
period has passed. Shadows freeze with a read of SEC and are released by a read of YEAR or after 1 s. The PON latch, the tamper record and VAULT_LOST follow their commands. Where the manual
leaves a corner of this open, it is the model's reading: log 24, 37. -/
def Obligations.TamperCalendarAndPower : Prop :=
  ∀ s : State,
    (∀ cause : BitVec 10, (armedCauses s cause.toNat = 0 → ∃ t, exec (.tamperTrip cause) s = .next t ∧
        t.vault = s.vault ∧ t.opx = s.opx ∧ t.guard.mode = s.guard.mode ∧ rdF t (reg pWTCH 0x088) 0 10 = cause.toNat ∧
        rd t (reg pBKP 0x090) = rd s (reg pBKP 0x090)) ∧
      (armedCauses s cause.toNat ≠ 0 → ∃ t, exec (.tamperTrip cause) s = .next t ∧
        rd t (reg pBKP 0x090) = rd s (reg pBKP 0x090) ||| w32 (armedCauses s cause.toNat) ∧
        (rd t (reg pBKP 0x09C)).toNat = min (2 ^ 32 - 1) ((rd s (reg pBKP 0x09C)).toNat + 1) ∧
        rdB t (reg pBKP 0x080) 3 = true ∧
        (s.guard.operational = true → s.guard.pgood = true → s.guard.asleep = false → t.guard.mode.getLsbD 7 = true) ∧
        (rd s (reg pBKP 0x090) ≠ 0 → t.vault.slots = s.vault.slots ∧ rd64 t (reg pBKP 0x094) = rd64 s (reg pBKP 0x094)) ∧
        (rd s (reg pBKP 0x090) = 0 → (∀ j < 64, slot t j = { KeySlot.empty with gen := nextGen (slot s j).gen }) ∧
          t.vault.scramble = [] ∧ (∀ m, (session t m).open_ = false) ∧ rd64 t (reg pBKP 0x094) = (calStamp s).toNat ∧
          rdB t (reg pLOCK 0x084) 4 = true ∧ rdB t (reg pWTCH 0x08C) 0 = true))) ∧
    (∃ t, exec .backupPowerOn s = .next t ∧ (∀ j, slot t j = KeySlot.empty) ∧ t.vault.calNext = [] ∧
      ∀ a, rd t a = if pageOf a = pWTCH ∨ pageOf a = pCAL ∨ pageOf a = pBKP then resetVal a else rd s a) ∧
    (∃ t, exec .vbakLow s = .next t ∧ rdB t (reg pBKP 0x080) 1 = true ∧ rdB t (reg pBKP 0x084) 2 = true) ∧
    (∀ v : Nat → Nat, ∀ cs cm ch cd : Bool, (∀ f < 7, v f = (rd s (calReg f)).toNat ∧ v f < 2 ^ nthD [6, 6, 5, 3, 5, 4, 12] f 0) →
      cs = decide (v 0 + 1 = 60 ∨ v 0 = 63) → cm = (cs && decide (v 1 + 1 = 60 ∨ v 1 = 63)) →
      ch = (cm && decide (v 2 + 1 = 24 ∨ v 2 = 31)) → cd = (ch && decide (v 4 = monthLen (v 5) (v 6) ∨ v 4 = 31)) →
      ∃ t, exec .secondBoundary s = .next t ∧
        (∀ f < 7, get? s.vault.calNext f = none → (rd t (calReg f)).toNat =
          match f with
          | 0 => if cs then 0 else v 0 + 1
          | 1 => if cm then 0 else if cs then v 1 + 1 else v 1
          | 2 => if ch then 0 else if cm then v 2 + 1 else v 2
          | 3 => if !ch then v 3 else if v 3 + 1 = 7 ∨ v 3 = 7 then 0 else v 3 + 1
          | 4 => if cd then 1 else if ch then v 4 + 1 else v 4
          | 5 => if !cd then v 5 else if v 5 = 12 ∨ v 5 = 0 ∨ 13 ≤ v 5 then 1 else v 5 + 1
          | _ => if !cd ∨ v 5 ≠ 12 then v 6 else if v 6 = 4095 then 0 else v 6 + 1) ∧
        (∀ f < 7, ∀ w, get? s.vault.calNext f = some w → rd t (calReg f) = w) ∧
        (s.vault.calNext ≠ [] → rdB t (reg pCAL 0x0A0) 0 = true ∧ rdB t (reg pCAL 0x0A4) 5 = true) ∧
        t.vault.calNext = s.vault.calAfter ∧ t.vault.calAfter = [] ∧ calTick t = 0 ∧
        (∀ n < 2, alarmMatch s n (calVals t) = true → rdB t (reg pCAL (0x0B8 + 12 * n)) 8 = true ∧
          rdB t (reg pCAL 0x0A4) n = true ∧ (rdB s (reg pCAL (0x0B8 + 12 * n)) 10 = true → rdB t (reg pBKP 0x080) 2 = true)) ∧
        rd t (reg pBKP 0x08C) = (if rd s (reg pBKP 0x08C) = 0 then 0 else rd s (reg pBKP 0x08C) - 1) ∧
        (rd s (reg pBKP 0x08C) = 1 → t.vault.wakeDue = true)) ∧
    (∀ p : Nat, p = rdF s (reg pCAL 0x0A8) 0 8 → ∃ t, exec .trimCorrection s = .next t ∧
      (p = 0 → t.vault = s.vault) ∧
      (p ≠ 0 → s.vault.trimFrom + calTick s < (1048576 / (if p < 128 then p else 256 - p) : Nat) → t.vault = s.vault) ∧
      (p ≠ 0 → (1048576 / (if p < 128 then p else 256 - p) : Nat) ≤ s.vault.trimFrom + calTick s →
        t.vault.tickBase = s.vault.tickBase + (if p < 128 then -1 else 1) ∧ t.vault.trimFrom = -(calTick s : Int))) ∧
    (∀ (i : Init) (f : Fin 7) (v m : Word), clear s i (calReg f.val) v = true →
      m = v &&& w32 (2 ^ nthD [6, 6, 5, 3, 5, 4, 12] f.val 0 - 1) → ∃ t, exec (.calendarWrite i f v) s = .next t ∧
        (∀ g < 7, rd t (calReg g) = rd s (calReg g)) ∧ rdB t (reg pCAL 0x0A0) 1 = true ∧
        (calTick s ≠ 32767 → get? t.vault.calNext f.val = some m ∧ t.vault.calAfter = s.vault.calAfter) ∧
        (calTick s = 32767 → get? t.vault.calAfter f.val = some m ∧ t.vault.calNext = s.vault.calNext)) ∧
    (retiredPg s pCAL = false → ∀ i : Init,
      (clearRead s i (calReg 0) = true → ∃ t, exec (.calSecRead i) s = .next t ∧
        t.replies = s.replies ++ [⟨i.who, calReg 0, oSERVED, [rd s (calReg 0)]⟩] ∧
        get? t.vault.shadows (whoIdx i.who) = some ⟨(List.range 7).map (fun f => rd s (calReg f)) ++ [w32 (calTick s)], s.clk.fabric⟩) ∧
      (clearRead s i (calReg 6) = true → ∃ t, exec (.calYearRead i) s = .next t ∧
        get? t.vault.shadows (whoIdx i.who) = none ∧
        t.replies = s.replies ++ [⟨i.who, calReg 6, oSERVED,
          [match get? s.vault.shadows (whoIdx i.who) with | some sh => nthD sh.vals 6 0 | none => rd s (calReg 6)]⟩])) ∧
    (∀ (w : Who) (sh : Shadow), get? s.vault.shadows (whoIdx w) = some sh → ∃ t, exec (.tornRead w) s = .next t ∧
      (s.clk.fabric < sh.since + Config.fabricHz → t.vault = s.vault) ∧
      (sh.since + Config.fabricHz ≤ s.clk.fabric →
        get? t.vault.shadows (whoIdx w) = none ∧ rdB t (reg pCAL 0x0A4) 4 = true)) ∧
    (s.vault.wakeDue = true → ∃ t, exec .wakeTimer s = .next t ∧ rdB t (reg pBKP 0x080) 2 = true ∧
      rdB t (reg pBKP 0x084) 0 = true ∧ t.vault.wakeDue = false) ∧
    ∀ i : Init,
      (clear s i (reg pBKP 0x088) 1 = true → ∃ t, exec (.ponSet i) s = .next t ∧ rdB t (reg pBKP 0x080) 2 = true) ∧
      (clear s i (reg pBKP 0x088) 2 = true → ∃ t, exec (.ponRelease i) s = .next t ∧
        (s.vault.wokeAt ≠ some (tickNow s) → rdB t (reg pBKP 0x080) 2 = false) ∧
        (s.vault.wokeAt = some (tickNow s) → rdB t (reg pBKP 0x080) 2 = rdB s (reg pBKP 0x080) 2)) ∧
      (clear s i (reg pBKP 0x088) 3 = true → ∃ t, exec (.clearLost i) s = .next t ∧ rdB t (reg pBKP 0x080) 0 = false) ∧
      (clear s i (reg pBKP 0x088) 4 = true → ∃ t, exec (.clearTamper i) s = .next t ∧ rd t (reg pBKP 0x090) = 0 ∧
        rd64 t (reg pBKP 0x094) = 0 ∧ rd t (reg pBKP 0x09C) = 0 ∧ rdB t (reg pBKP 0x080) 3 = false ∧
        ∀ j < 64, rd t (reg pWTCH (0x100 + 4 * j)) = rd s (reg pWTCH (0x100 + 4 * j)))

/-! ### Faults and the recorder (chapter 13) -/

/-- R300–R309, R311, R314, R315: an error fences its element, which then waits for its test, and is recorded on the reporting page; an
error below or on an element that is out of service is absorbed; a module error enters the module safe state; corrected errors only count
until the fourth of their window. A waiting completion is posted when there is room. A test that passes returns the element, one that fails, or the 17th transient of a window, retires it;
a window closes after 3,600 s. Where the manual
leaves a corner of this open, it is the model's reading: log 16, 22, 38, 60. -/
def Obligations.FaultsAreHandled : Prop :=
  ∀ s : State,
    (∀ (e : Element) (kind : Byte) (detail : BitVec 24) (w : Nat), w = elementWord e → elemExists s w = true → kind.toNat ≠ 2 →
      (shadowed s w = false → elemLevel w < 3 → moduleLevel (elemPage w) = false →
        (w = blockWord pLOCK → detail.toNat % 2 = 0) → ∃ t, exec (.errorDetected e kind detail) s = .next t ∧
          (elemSt t w).phase = .fenced ∧ w ∈ t.fltm.queue ∧ rdB t (reg pFLTM 0x088) 0 = true ∧
          rd t (reg (reportPage w) 0x02C) = w32 w ∧
          rd t (reg (reportPage w) 0x030) = w32 (kind.toNat + detail.toNat * 256) ∧
          (elemLevel w = 1 → fenced t (blockPage (elemPage w)) = true)) ∧
      (shadowed s w = true → ((elemSt s w).phase = .fenced → (elemSt s w).at_ ≠ s.clk.fabric) →
        moduleLevel (elemPage w) = false → w ≠ blockWord pLOCK → ∃ t, exec (.errorDetected e kind detail) s = .next t ∧
          (elemSt t w).phase = (elemSt s w).phase ∧ t.fltm.queue = s.fltm.queue ∧ t.guard.safe = s.guard.safe ∧
          rdF t (reg (reportPage w) 0x028) 4 2 = 3 ∧ rdB t (reg pFLTM 0x088) 0 = true ∧
          ((elemSt s w).phase = .testing → (elemSt t w).failed = true) ∧
          ∀ a, a = reg pFLTM (0x100 + 0x10 * rdF s (reg pFLTM 0x0A4) 0 5) →
            rd t a = w32 w ∧ rd t (a + 4) = w32 (3 + kind.toNat * 256)) ∧
      (shadowed s w = false → elemLevel w = 3 → s.guard.safe = false → ∃ t, exec (.errorDetected e kind detail) s = .next t ∧
          t.guard.safe = true ∧ rdB t (reg pFLTM 0x084) 0 = true ∧ rdB t (reg pFLTM 0x088) 4 = true ∧
          t.loom.eng = .stop ∧ ∀ m, (session t m).open_ = false)) ∧
    (∀ (p : Fin 128) (g : BitVec 20) (w n : Nat), w = cellWord p.val g.toNat → elemExists s (blockWord p.val) = true →
      n = (corrected s w).1 →
      (n < 3 → corMode s pFLTM = false → ∃ t, exec (.eccCorr p g) s = .next t ∧ t.fltm.elems = s.fltm.elems ∧
        rd t (reg pFLTM 0x094) = rd s (reg pFLTM 0x094) + 1 ∧
        corrected t w = (n + 1, (corrected s w).2) ∧
        rdF t (reg (reportPage w) 0x028) 4 2 = 2) ∧
      (n = 3 → elemExists s w = true → shadowed s w = false → ∃ t, exec (.eccCorr p g) s = .next t ∧
        (elemSt t w).phase = .fenced ∧ get? t.fltm.corr w = none)) ∧
    (s.fact.posts.find? (postable s) = none → ∃ t, exec .discardComplete s = .next t ∧ t.fact = s.fact) ∧
    (∀ p : Post, s.fact.posts.find? (postable s) = some p → factRoom s p.cls 1 = true →
      ∃ t, exec .discardComplete s = .next t ∧ posted s t p.q p.tag (p.compl.status % 256) (p.compl.confirm % 256) ∧
        t.fact.posts = s.fact.posts.erase p) ∧
    (∀ (e : Element) (w : Nat), w = elementWord e →
      ((elemSt s w).phase = .fenced → (s.fltm.queue.find? fun v => seqKey v == seqKey w) = some w →
        (∀ v ∈ s.fltm.elems, v.2.phase = .testing → seqKey v.1 ≠ seqKey w) →
        ∃ t, exec (.assayerTestStart e) s = .next t ∧ (elemSt t w).phase = .testing ∧ w ∉ t.fltm.queue) ∧
      ((elemSt s w).phase = .testing → w ∉ s.fltm.queue → elemLevel w < 3 → (elemSt s w).kind ≠ 8 →
        (∀ pass : Bool, pass = true → (elemSt s w).failed = false → (elemSt s w).win.getD 0 < 16 →
          ∃ t, exec (.assayerTestDone e pass) s = .next t ∧ (elemSt t w).phase = .service ∧
            (elemSt t w).win = some ((elemSt s w).win.getD 0 + 1) ∧
            rdF t (reg (reportPage w) 0x034) 0 16 = min (rdF s (reg (reportPage w) 0x034) 0 16 + 1) 65535) ∧
        (∀ pass : Bool, (pass = false ∨ (elemSt s w).failed = true ∨ 16 ≤ (elemSt s w).win.getD 0) → calm s 256 →
          ∃ t, exec (.assayerTestDone e pass) s = .next t ∧ (elemSt t w).phase = .retired ∧
            rdF t (reg (reportPage w) 0x034) 16 16 = min (rdF s (reg (reportPage w) 0x034) 16 16 + 1) 65535 ∧
            rdB t (reg pFLTM 0x088) 1 = true ∧ rdB t (reg pFLTM 0x084) 1 = true)) ∧
      (∃ t, exec (.transientWindowClose e) s = .next t ∧ (elemSt t w).phase = (elemSt s w).phase ∧
        (∀ n, (elemSt s w).win = some n → (elemSt s w).winAt + 3600 * Config.fabricHz ≤ s.clk.fabric → (elemSt t w).win = none) ∧
        (s.clk.fabric < (elemSt s w).winAt + 3600 * Config.fabricHz → elemSt t w = elemSt s w)) ∧
      (∃ t, exec (.patrolTest e true) s = .next t ∧ t.regs = s.regs ∧ t.fltm.elems = s.fltm.elems) ∧
      (∀ n < 18, w = blockWord (ethPg n) → s.guard.operational = true → shadowed s w = false → elemExists s w = true →
        (enabled s (ethPg n) = true → ∃ t, exec (.patrolTest e true) s = .next t ∧ (ethPort t n).tested = true) ∧
        ∃ t, exec (.patrolTest e false) s = .next t ∧ (elemSt t w).phase = .retired ∧ retiredPg t (ethPg n) = true ∧
          rdB t (reg pFLTM 0x088) 1 = true ∧ rdB t (reg pFLTM 0x084) 1 = true)) ∧
    ∀ (i : Init) (v : Word),
      (∀ (p : Fin 128) (w : Nat), headed p.val = true → clear s i (reg p.val 0x038) v = true → bit v 31 = true →
        w = (if bit v 20 then blockWord p.val else cellWord p.val (fld v 0 20)) →
        ∃ t, exec (.selftestStart i p v) s = .next t ∧
          (elemExists s w = true → shadowed s w = false → (elemSt t w).phase = .fenced ∧ w ∈ t.fltm.queue ∧
            rdF t (reg p.val 0x03C) 0 3 = 1) ∧
          (elemExists s w = false ∨ shadowed s w = true → rdF t (reg p.val 0x03C) 0 3 = 4 ∧
            t.fltm.elems = s.fltm.elems)) ∧
      (clear s i (reg pFLTM 0x08C) 1 = true → ∃ t, exec (.fltmAck i) s = .next t ∧ rdB t (reg pFLTM 0x084) 1 = false)

/-- R316–R321: a firing of an enabled trigger waits for its capture, on one fabric cycle in the order of the triggers, is suppressed within HOLDOFF of the last recorded one, or is lost at a
full queue. A capture takes the oldest firing into the hold buffer with the words of its list, under the next SEQ,
once the capture path has read the list before it. A record is written to
the permanent area until that is full, then to the circular area. A freeze holds the records back for at most FREEZE_TO; CLEAR_PERM empties the permanent
area. Where the manual
leaves a corner of this open, it is the model's reading: log 39. -/
def Obligations.TheRecorderRecords : Prop :=
  ∀ (s : State) (i : Init),
    (∀ k : Nat, k = rdF s (reg pSCRV 0x0A0) 0 6 → clear s i (reg pSCRV 0x084) 3 = true → runs s pSCRV = true →
      s.scrv.off = false → ∃ t, exec (.fire i) s = .next t ∧
        (bit (tcfg s k) 31 = false → t.scrv = s.scrv) ∧
        (bit (tcfg s k) 31 = true →
          (∀ l, get? s.scrv.last k = some l → cycleOf (count s) < l + fld (tcfg s k) 8 8 → t.scrv = s.scrv ∧
            (corMode s pSCRV = false → rd t (reg pSCRV 0x09C) = rd s (reg pSCRV 0x09C) + 1)) ∧
          ((∀ l, get? s.scrv.last k = some l → l + fld (tcfg s k) 8 8 ≤ cycleOf (count s)) →
            (s.scrv.queue.length < 64 →
              (∃ (a b : List Firing) (f : Firing), f = ⟨k, clsFor s i, count s, false, s.clk.fabric⟩ ∧ s.scrv.queue = a ++ b ∧
                t.scrv.queue = a ++ f :: b ∧ (∀ g ∈ b.head?, g.at_ = f.at_ ∧ f.trig < g.trig) ∧
                ∀ g ∈ a, g.at_ = f.at_ → g.trig ≤ f.trig) ∧
              get? t.scrv.last k = some (cycleOf (count s))) ∧
            (64 ≤ s.scrv.queue.length → t.scrv.queue = s.scrv.queue ∧ t.scrv.lost = s.scrv.lost + 1 ∧
              rdB t (reg pSCRV 0x08C) 1 = true)))) ∧
    (s.clk.fabric < s.scrv.pathAt → ∃ t, exec .capture s = .next t ∧ t.scrv = s.scrv) ∧
    (∀ f q, s.scrv.queue = f :: q → runs s pSCRV = true → s.scrv.off = false → s.scrv.pathAt ≤ s.clk.fabric → ∃ t, exec .capture s = .next t ∧
      t.scrv.queue = q ∧
      (s.scrv.hold.length < 32 → ∃ r, t.scrv.hold = s.scrv.hold ++ [r] ∧ r.seq = (rd s (reg pSCRV 0x090)).toNat ∧
        r.trig = f.trig ∧ r.cls = f.cls ∧ r.pos = f.pos ∧ r.cal = calStamp s ∧ r.lost = min 65535 s.scrv.lost ∧
        r.count = r.words.length ∧ (r.flags.testBit 2 = true ↔ s.scrv.frozen = true) ∧
        r.words = (List.range (min 24 (fld (tcfg s f.trig) 0 5))).map (fun k => (captureWord s (trigList s f.trig k).toNat).1) ∧
        rd t (reg pSCRV 0x090) = rd s (reg pSCRV 0x090) + 1 ∧ t.scrv.lost = 0 ∧ t.scrv.pathAt = s.clk.fabric + r.count) ∧
      (32 ≤ s.scrv.hold.length → t.scrv.hold = s.scrv.hold ∧ t.scrv.lost = s.scrv.lost + 1 ∧
        rdB t (reg pSCRV 0x08C) 1 = true ∧ rd t (reg pSCRV 0x090) = rd s (reg pSCRV 0x090))) ∧
    (∀ r h, s.scrv.hold = r :: h → s.scrv.frozen = false → s.scrv.off = false → runs s pSCRV = true →
      ∃ t, exec .recordWrite s = .next t ∧ t.scrv.hold = h ∧ rdB t (reg pSCRV 0x08C) 0 = true ∧
        (permFull s = false → ∃ k < 2048, get? s.scrv.slots k = none ∧
          get? t.scrv.slots k = some { r with flags := r.flags + 1 } ∧
          ∀ j, j ≠ k → get? t.scrv.slots j = get? s.scrv.slots j) ∧
        (permFull s = true → s.scrv.bad = [] → ∀ k, k = rdF s (reg pSCRV 0x094) 0 13 → get? t.scrv.slots k = some r ∧
          rdF t (reg pSCRV 0x094) 0 13 = (if 8191 ≤ k then 2048 else k + 1) ∧
          ∀ j, j ≠ k → get? t.scrv.slots j = get? s.scrv.slots j)) ∧
    (∀ over_ : Nat, over_ = s.scrv.frozenAt + max 1 (rdF s (reg pSCRV 0x080) 0 8) * Config.fabricHz → s.scrv.frozen = true →
      (∃ t, exec .recordWrite s = .next t ∧ t.scrv = s.scrv) ∧
      ∃ t, exec .freezeTimeout s = .next t ∧ (s.clk.fabric < over_ → t.scrv = s.scrv) ∧
        (over_ ≤ s.clk.fabric → t.scrv.frozen = false ∧ t.scrv.hold = [] ∧ rdB t (reg pSCRV 0x08C) 2 = true)) ∧
    (clear s i (reg pSCRV 0x084) 1 = true → ∃ t, exec (.freeze i) s = .next t ∧ t.scrv =
      if s.scrv.frozen then s.scrv else { s.scrv with frozen := true, frozenAt := s.clk.fabric }) ∧
    (clear s i (reg pSCRV 0x084) 2 = true → ∃ t, exec (.unfreeze i) s = .next t ∧ t.scrv.frozen = false ∧
      (s.scrv.frozen = true → t.scrv.hold = [])) ∧
    (clear s i (reg pSCRV 0x084) 4 = true → ∃ t, exec (.clearPerm i) s = .next t ∧
      (∀ k < 2048, get? t.scrv.slots k = none) ∧ ∀ k, 2048 ≤ k → get? t.scrv.slots k = get? s.scrv.slots k)

/-! ### Modes, start-up and the field update (chapter 14) -/

/-- R324, R325, R330, R331, R335–R340, R377–R379: a write to MOD.MODE sets the flags that its writer may set, METER staying set, and
closes the sessions and stops Loom with the roles. Signed commands write sealed registers, clear METER or arm the unlocking, once
their block is accepted, and change nothing when it is not. PROT.LOCK is set, the start-up steps follow one another, a
recovery start loading its image under the checks of an update, an element that fails its power-on test being retired, and a module
reset keeps what it may not change. Where the manual
leaves a corner of this open, it is the model's reading: log 40, 41, 47. -/
def Obligations.ModesStartUpAndResets : Prop :=
  ∀ s : State,
    (∀ (i : Init) (v : Word), clear s i (reg pMOD 0x080) v = true → ∃ t, exec (.modeWrite i v) s = .next t ∧
      (∀ k, k = 0 ∨ k = 3 ∨ k = 4 ∨ k = 5 ∨ k = 6 → t.guard.mode.getLsbD k = bit v k) ∧
      t.guard.mode.getLsbD 1 = (bit v 1 && s.guard.fD) ∧ t.guard.mode.getLsbD 2 = (bit v 2 || mMETER s) ∧
      t.guard.mode.getLsbD 7 = (bit v 7 && ceiling s i.who == .safety) ∧
      ((mMETER s = true ∧ bit v 2 = false) ∨ (bit v 7 = true ∧ ceiling s i.who ≠ .safety) → rdB t (reg pMOD 0x088) 5 = true) ∧
      (t.guard.mode ≠ s.guard.mode → rdB t (reg pMOD 0x088) 0 = true) ∧
      (bit v 7 = true → ceiling s i.who = .safety → t.guard.lockdownRec = true ∧ rdB t (reg pMOD 0x088) 1 = true ∧
        ∀ m, (session t m).open_ = false) ∧
      (mFLOOR s = true → bit v 0 = false → t.loom.eng = .stop) ∧
      (roleSet s = true → roleSet t = false → ∀ m, (session t m).open_ = false)) ∧
    (∀ (i : Init) (b : List Byte), clear s i (reg pMOD 0x090) 1 = true → b = signedBlock s →
      ∀ c : Init → Instr, (c = .sealedWrite ∨ c = .unsealCmd ∨ c = .unlock) →
        (signedCause s b ≠ 0 → ∃ t, exec (c i) s = .next t ∧ signedRefused s t) ∧
        (signedCause s b = 0 →
          (leAt b 4 2 = 1 → ∃ t, exec (c i) s = .next t ∧ signedServed s t 1 ∧ t.guard.mode = s.guard.mode ∧
            ∀ n < 24, ∀ o, o = 0x0C ∨ o = 0x10 ∨ o = 0x14 → ∀ v, signedEntries b = [(chA n o, v)] → rd t (chA n o) = v) ∧
          (leAt b 4 2 = 2 → ∃ t, exec (c i) s = .next t ∧ signedServed s t 2 ∧
            ∀ k < 8, t.guard.mode.getLsbD k = (if k = 2 then false else s.guard.mode.getLsbD k)) ∧
          (leAt b 4 2 = 3 → ∃ t, exec (c i) s = .next t ∧ signedServed s t 3 ∧ t.guard.unlockArmed = true ∧
            mLOCK s = true ∧ s.guard.lifecycle = 2 ∧ t.guard.mode = s.guard.mode))) ∧
    (∀ i : Init, clear s i (reg pPROT 0x080) 1 = true → ∃ t, exec (.protLock i) s = .next t ∧ t.guard.protLock = true ∧
      rdB t (reg pPROT 0x080) 0 = true) ∧
    (∀ (i : Init) (v : Word), clear s i (reg pPROT 0x09C) v = true → ∃ t, exec (.fptGo i v) s = .next t ∧
      (∀ p, point t p = if p = fld v 0 16 ∧ bit v 31 = true ∧ (point s p).present = true then
        { point s p with forceable := bit v 30 } else point s p)) ∧
    (s.guard.operational = false → s.guard.dead = false → ∀ x : StartUp,
      (s.guard.step = 1 → ∃ t, exec (.startUp 0 x) s = .next t ∧ t.guard.step = 2 ∧ t.guard.pgood = true) ∧
      (s.guard.step = 2 → s.guard.pgood = true → ∃ t, exec (.startUp 1 x) s = .next t ∧ t.guard.step = 3 ∧
        t.pins.rstoutN = true ∧
        t.guard.boot = if x.boot = 1 then 1 else if x.boot = 2 ∧ s.guard.lifecycle = 0 then 2 else 0) ∧
      (s.guard.step = 3 → s.guard.boot ≠ 1 →
        (x.ok = true → ∃ t, exec (.startUp 2 x) s = .next t ∧ t.guard.step = 4 ∧ t.guard.dead = false) ∧
        (x.ok = false → ∃ t, exec (.startUp 2 x) s = .next t ∧ t.guard.dead = true ∧ t.loom.eng = .stop)) ∧
      (∀ (ops : List Byte) (R : Option (List Byte)), ops = (x.image.drop 128).take (leAt x.image 0x58 4) →
        R = patchRun (patchBase s x.image) (leAt x.image 0x5C 4) (ops.length + 1) ops [] →
        s.guard.step = 3 → s.guard.boot = 1 → ∃ t, exec (.startUp 2 x) s = .next t ∧ t.guard.dead = false ∧
          (∀ img, patchCause s x.image true = 0 → R = some img → (Crypto.sha256 img).toNat = leAt x.image 0x28 32 →
            t.guard.step = 4 ∧ t.upd.image = img) ∧
          (patchCause s x.image true ≠ 0 ∨ R = none ∨ (∃ img, R = some img ∧ (Crypto.sha256 img).toNat ≠ leAt x.image 0x28 32) →
            t.guard.step = 3 ∧ t.upd.image = s.upd.image ∧ rdB t (reg pUPD 0x08C) 2 = true)) ∧
      (s.guard.step = 4 → ∃ t, exec (.startUp 3 x) s = .next t ∧ t.guard.step = 5 ∧ t.guard.protLock = true ∧
        (s.guard.protLock = false → rdB t (reg pPROT 0x084) 0 = true) ∧ rdB t (reg pHOSTP 0x084) 0 = true) ∧
      (s.guard.step = 5 → s.guard.safe = false →
        (x.ok = true → x.bad = [] → ∃ t, exec (.startUp 4 x) s = .next t ∧ t.guard.step = 6) ∧
        (∀ (e : Element) (w : Nat), w = elementWord e → x.ok = true → x.bad = [e] → elemExists s w = true → shadowed s w = false →
          (elemLevel w = 0 ∧ (elemPage w = 0xFF ∨ moduleLevel (elemPage w) = false) →
            ∃ t, exec (.startUp 4 x) s = .next t ∧ (elemSt t w).phase = .retired ∧ rdB t (reg pFLTM 0x088) 1 = true) ∧
          (elemLevel w = 3 → shadowed s moduleWord = false → ∃ t, exec (.startUp 4 x) s = .next t ∧ t.guard.safe = true ∧ t.guard.step = 5)) ∧
        (x.ok = false → x.bad = [] → shadowed s moduleWord = false →
          ∃ t, exec (.startUp 4 x) s = .next t ∧ t.guard.safe = true ∧ t.guard.operational = false)) ∧
      (s.guard.step = 6 →
        (x.ok = true → x.bad = [] → s.guard.safe = false → ∃ t, exec (.startUp 5 x) s = .next t ∧ t.guard.step = 7 ∧
          t.vault.measure = leBytes 32 (Crypto.sha256 s.upd.image).toNat) ∧
        (x.ok = false → ∃ t, exec (.startUp 5 x) s = .next t ∧ t.guard.dead = true)) ∧
      (s.guard.step = 7 → s.lac.inService = true → ∃ t, exec (.startUp 6 x) s = .next t ∧ t.guard.step = 8) ∧
      (s.guard.step = 8 → s.guard.bootBad = false → s.guard.mode = 0 → ∃ t, exec (.startUp 7 x) s = .next t ∧
        t.guard.mode.getLsbD 7 = (s.guard.lockdownRec || decide (rd s (reg pBKP 0x090) ≠ 0)) ∧
        t.guard.mode.getLsbD 1 = (s.guard.bootMode.getLsbD 1 && s.guard.fD) ∧
        (∀ k, k = 0 ∨ k = 2 ∨ k = 3 ∨ k = 4 ∨ k = 5 ∨ k = 6 → t.guard.mode.getLsbD k = s.guard.bootMode.getLsbD k) ∧
        (mFLOOR t = false ∨ activeProg s = none ∨ mLOCK t = true → t.guard.operational = true ∧ t.guard.step = 0))) ∧
    (s.pins.pfwAt = none → ∃ t, exec .resetNLow s = .next t ∧ wasReset s t s.guard.pgood) ∧
    (∀ p, s.pins.pfwAt = some p → s.dayb.reserved ≠ [] → s.clk.fabric < p + msFabric 2 →
      ∃ t, exec .resetNLow s = .next t ∧ t.pins.resetWait = true ∧ t.guard = s.guard ∧ t.regs = s.regs) ∧
    (∀ p, s.pins.pfwAt = some p → (s.dayb.reserved = [] ∨ p + msFabric 2 ≤ s.clk.fabric) →
      ∃ t, exec .resetNLow s = .next t ∧ wasReset s t s.guard.pgood) ∧
    (s.pins.resetWait = true →
      (resetFree s = true → ∃ t, exec .pfwResetDeferred s = .next t ∧ wasReset s t s.guard.pgood) ∧
      ∀ p, s.pins.pfwAt = some p → s.dayb.reserved ≠ [] → s.clk.fabric < p + msFabric 2 →
        ∃ t, exec .pfwResetDeferred s = .next t ∧ t.pins.resetWait = true ∧ t.guard = s.guard ∧ t.regs = s.regs) ∧
    (s.pins.pfwAt.isSome = true → ∃ t, exec .vholdExhausted s = .next t ∧ wasReset s t false)

/-- R342–R345: the one update lease is granted when free, renewed, and ends on RELEASE and after LEASE_MIN, which gives up a patch that is
received or built. A submitted patch is checked, built and armed, or rejected with its cause; entry 42 arms when the calendar reaches
ACT_TIME; CANCEL and CONFIRM end the update, FAIL and CHECK_S without a CONFIRM enter DEAD. Where the manual
leaves a corner of this open, it is the model's reading: log 42. -/
def Obligations.FieldUpdate : Prop :=
  ∀ s : State,
    (∀ i : Init,
      (clear s i (reg pUPD 0x084) 1 = true → ∃ t, exec (.updTakeLease i) s = .next t ∧
        (s.upd.lease = none → t.upd.lease = some ⟨i.who, origin s i.who, (s.upd.leases + 1) % 2 ^ 32, s.clk.fabric⟩ ∧
          rd t (reg pUPD 0x09C) = w32 (s.upd.leases + 1) ∧ rd t (reg pUPD 0x0A0) = origin s i.who ∧
          rdF t (reg pUPD 0x088) 4 2 = 1 ∧ rdB t (reg pUPD 0x088) 3 = true ∧
          updState t = (if updState s = 0 then 1 else updState s)) ∧
        (s.upd.lease.isSome = true → t.upd.lease = s.upd.lease ∧ rdF t (reg pUPD 0x088) 4 2 = 2 ∧
          rd t (reg pUPD 0x0A0) = rd s (reg pUPD 0x0A0))) ∧
      (clear s i (reg pUPD 0x084) 2 = true → ∃ t, exec (.updRenew i) s = .next t ∧
        ∀ l, s.upd.lease = some l → t.upd.lease = some { l with at_ := s.clk.fabric }) ∧
      (clear s i (reg pUPD 0x084) 3 = true → s.upd.lease.isSome = true → ∃ t, exec (.updRelease i) s = .next t ∧
        t.upd.lease = none ∧ rdF t (reg pUPD 0x088) 4 2 = 3 ∧ rdB t (reg pUPD 0x088) 3 = false ∧
        rdB t (reg pUPD 0x08C) 3 = true ∧ (updState s = 1 ∨ updState s = 2 → updState t = 0 ∧ t.upd.patch = [] ∧
          rdF t (reg pUPD 0x088) 8 4 = 8)) ∧
      (∀ b, b = ramBytes s (rd64 s (reg pUPD 0x090)) (rdF s (reg pUPD 0x098) 0 27) →
        clear s i (reg pUPD 0x084) 4 = true → updState s = 1 → ∃ t, exec (.updSubmit i) s = .next t ∧
          (patchCause s b false = 0 → updState t = 2 ∧ patchBytes t = b ∧ t.upd.sq = leAt b 0x48 4 ∧
            t.upd.group = leAt b 0x4C 4 ∧ t.upd.actTime = leAt b 0x50 8) ∧
          (patchCause s b false ≠ 0 → updState t = 1 ∧ rdF t (reg pUPD 0x088) 8 4 = patchCause s b false ∧
            rdB t (reg pUPD 0x08C) 2 = true ∧ t.upd.image = s.upd.image)) ∧
      (clear s i (reg pUPD 0x084) 5 = true → updState s = 3 → ∃ t, exec (.updCancel i) s = .next t ∧ updState t = 0 ∧
        t.upd.lease = none ∧ t.upd.staged = none ∧ bit (aetW0 t 42) 31 = false ∧ t.upd.image = s.upd.image) ∧
      (clear s i (reg pUPD 0x084) 6 = true → updState s = 4 → ∃ t, exec (.updConfirm i) s = .next t ∧ updState t = 0 ∧
        t.upd.lease = none ∧ rdB t (reg pUPD 0x08C) 1 = true ∧ t.upd.image = s.upd.image) ∧
      (clear s i (reg pUPD 0x084) 7 = true → updState s = 4 → s.guard.dead = false → ∃ t, exec (.updFail i) s = .next t ∧
        t.guard.dead = true ∧ updState t = 5 ∧ rdB t (reg pUPD 0x08C) 4 = true ∧ t.loom.eng = .stop)) ∧
    (updState s = 2 → ∀ (b : List Byte) (R : Option (List Byte)) (nandOk : Bool), b = patchBytes s →
      R = patchRun (patchBase s b) (leAt b 0x5C 4) (((b.drop 128).take (leAt b 0x58 4)).length + 1)
        ((b.drop 128).take (leAt b 0x58 4)) [] → ∃ t, exec (.patchBuildDone nandOk) s = .next t ∧ t.upd.image = s.upd.image ∧
        (R = none → updState t = 1 ∧ rdF t (reg pUPD 0x088) 8 4 = 5 ∧ rdB t (reg pUPD 0x08C) 2 = true) ∧
        ∀ img, R = some img →
          ((Crypto.sha256 img).toNat = leAt b 0x28 32 → nandOk = true → updState t = 3 ∧ t.upd.staged = some img ∧
            rdB t (reg pUPD 0x08C) 0 = true ∧ (s.upd.actTime = 0 → bit (aetW0 t 42) 31 = true)) ∧
          ((Crypto.sha256 img).toNat = leAt b 0x28 32 → nandOk = false → updState t = 1 ∧
            rdF t (reg pUPD 0x088) 8 4 = 7) ∧
          ((Crypto.sha256 img).toNat ≠ leAt b 0x28 32 → updState t = 1 ∧ rdF t (reg pUPD 0x088) 8 4 = 6)) ∧
    (∀ (l : Lease) (ends : Nat), s.upd.lease = some l →
      ends = l.at_ + max 1 (rdF s (reg pUPD 0x080) 8 8) * (60 * Config.fabricHz) → ∃ t, exec .leaseExpiry s = .next t ∧
        (updState s = 3 ∨ updState s = 4 ∨ s.clk.fabric < ends → t.upd.lease = s.upd.lease) ∧
        (updState s ≠ 3 → updState s ≠ 4 → ends ≤ s.clk.fabric → t.upd.lease = none ∧ rdB t (reg pUPD 0x08C) 3 = true)) ∧
    (updState s = 3 → ∃ t, exec .actTimeReached s = .next t ∧ updState t = 3 ∧
      (s.upd.actTime / 2 ^ 11 ≤ (calStamp s).toNat / 2 ^ 11 →
        aetW0 t 42 = 0x90000000#32 ∧ fld (aetW1 t 42) 0 8 = 0xB) ∧
      ((calStamp s).toNat / 2 ^ 11 < s.upd.actTime / 2 ^ 11 → t.regs = s.regs)) ∧
    (∀ ends : Nat, ends = s.upd.since + max 1 (rdF s (reg pUPD 0x080) 0 8) * Config.fabricHz → updState s = 4 →
      s.guard.dead = false → ∃ t, exec .checkTimeout s = .next t ∧
        (ends ≤ s.clk.fabric → t.guard.dead = true ∧ updState t = 5 ∧ rdB t (reg pUPD 0x08C) 4 = true) ∧
        (s.clk.fabric < ends → t.guard = s.guard ∧ updState t = 4))

/-- R337, R377 and the reset columns of the page maps: the state right after reset. Every register holds its reset value; no mode
flag is set, no point is defined, no session is open, no program is active, Loom is in STOP, the start-up is at its first step, and
PROT.LOCK is 0. (That the fuses carry every feature and the life-cycle is BLANK is the model's choice, log 8.) -/
def Obligations.ResetState : Prop :=
  (∀ a, rd State.reset a = resetVal a) ∧ State.reset.guard.mode = 0 ∧ State.reset.guard.protLock = false ∧
    State.reset.guard.operational = false ∧ State.reset.guard.safe = false ∧ State.reset.guard.step = 1 ∧
    (∀ p, (point State.reset p).present = false) ∧ (∀ n, (session State.reset n).open_ = false) ∧
    activeProg State.reset = none ∧ State.reset.loom.eng = .stop ∧ (∀ n, (slot State.reset n).kind = 0) ∧
    State.reset.pending = [] ∧ Memory.wf (fun _ => 0) State.reset.dram = true ∧ count State.reset = 0
end

