-- ==== Sys2Proof/Laws/Sparse.lean ====
section
/-!
SUPPORT. What the sparse maps do: a read after a write, reads elsewhere, and the canonical form of memory, which every
map operation keeps.
-/

namespace Sys2Proof.Laws

open Sys2Proof.Machine

variable {α : Type}

theorem get?_ins_same (m : List (Nat × α)) (a : Nat) (v : α) : get? (ins m a v) a = some v := by
  induction m with
  | nil => simp [ins, get?]
  | cons e m ih =>
    obtain ⟨k, x⟩ := e
    by_cases h1 : a < k
    · simp [ins, get?, h1]
    · by_cases h2 : a = k
      · simp [ins, get?, h2]
      · simp [ins, get?, h1, h2, Ne.symm h2, ih]

theorem get?_ins_other (m : List (Nat × α)) {a b : Nat} (v : α) (h : b ≠ a) : get? (ins m a v) b = get? m b := by
  induction m with
  | nil => simp [ins, get?, Ne.symm h]
  | cons e m ih =>
    obtain ⟨k, x⟩ := e
    by_cases h1 : a < k
    · simp [ins, get?, h1, Ne.symm h]
    · by_cases h2 : a = k
      · subst h2; simp [ins, get?, Ne.symm h]
      · simp [ins, get?, h1, h2, ih]

theorem get?_del_same (m : List (Nat × α)) (a : Nat) : get? (del m a) a = none := by
  induction m with
  | nil => rfl
  | cons e m ih =>
    obtain ⟨k, x⟩ := e
    by_cases h : k = a <;> simp [del, get?, h, ih]

theorem get?_del_other (m : List (Nat × α)) {a b : Nat} (h : b ≠ a) : get? (del m a) b = get? m b := by
  induction m with
  | nil => rfl
  | cons e m ih =>
    obtain ⟨k, x⟩ := e
    by_cases h1 : k = a
    · subst h1; simp [del, get?, ih, Ne.symm h]
    · simp [del, get?, h1, ih]

/-- Reading the key just written gives the value written. -/
@[simp] theorem look_ins_same (d : α) (m : List (Nat × α)) (a : Nat) (v : α) : look d (ins m a v) a = v := by
  simp [look, get?_ins_same]

/-- Every other key reads as before. -/
theorem look_ins_other (d : α) (m : List (Nat × α)) {a b : Nat} (v : α) (h : b ≠ a) :
    look d (ins m a v) b = look d m b := by
  simp [look, get?_ins_other m v h]

/-- Reading the key just written gives the value written. -/
@[simp] theorem look_put_same [DecidableEq α] (d : α) (m : List (Nat × α)) (a : Nat) (v : α) :
    look d (put d m a v) a = v := by
  unfold put
  split
  · rename_i h; simp [look, get?_del_same, h]
  · simp

/-- Every other key reads as before, whatever it reads as when it is not listed. -/
theorem look_put_other [DecidableEq α] (d e : α) (m : List (Nat × α)) {a b : Nat} (v : α) (h : b ≠ a) :
    look e (put d m a v) b = look e m b := by
  unfold put
  split
  · simp [look, get?_del_other m h]
  · exact look_ins_other e m v h

theorem rising_tail {e : Nat × α} {m : List (Nat × α)} (h : rising (e :: m) = true) : rising m = true := by
  obtain ⟨k, x⟩ := e
  simp [rising] at h
  exact h.2

theorem rising_head {k : Nat} {x : α} {m : List (Nat × α)} (h : rising ((k, x) :: m) = true) :
    ∀ e ∈ m, k < e.1 := by
  induction m generalizing k x with
  | nil => simp
  | cons f m ih =>
    obtain ⟨j, y⟩ := f
    simp only [rising, Bool.and_eq_true, decide_eq_true_eq] at h
    intro e he
    rcases List.mem_cons.mp he with rfl | he
    · exact h.1
    · exact lt_trans h.1 (ih (k := j) (x := y) (by simp only [rising, Bool.and_eq_true]; exact h.2) e he)

theorem rising_cons {k : Nat} {x : α} {m : List (Nat × α)} (hm : rising m = true) (h : ∀ e ∈ m, k < e.1) :
    rising ((k, x) :: m) = true := by
  cases m with
  | nil => simp [rising]
  | cons f m =>
    simp only [rising, Bool.and_eq_true, decide_eq_true_eq] at hm ⊢
    exact ⟨h f (by simp), hm⟩

theorem mem_ins {m : List (Nat × α)} {a : Nat} {v : α} {e : Nat × α} (h : e ∈ ins m a v) : e = (a, v) ∨ e ∈ m := by
  induction m with
  | nil => simpa [ins] using h
  | cons f m ih =>
    obtain ⟨k, x⟩ := f
    unfold ins at h
    split at h
    · simpa using h
    · split at h
      · rcases List.mem_cons.mp h with h | h
        · exact .inl h
        · exact .inr (List.mem_cons_of_mem _ h)
      · rcases List.mem_cons.mp h with h | h
        · exact .inr (by simp [h])
        · rcases ih h with h | h
          · exact .inl h
          · exact .inr (List.mem_cons_of_mem _ h)

theorem mem_del {m : List (Nat × α)} {a : Nat} {e : Nat × α} (h : e ∈ del m a) : e ∈ m := by
  induction m with
  | nil => simp [del] at h
  | cons f m ih =>
    obtain ⟨k, x⟩ := f
    unfold del at h
    split at h
    · exact List.mem_cons_of_mem _ (ih h)
    · rcases List.mem_cons.mp h with h | h
      · simp [h]
      · exact List.mem_cons_of_mem _ (ih h)

theorem rising_ins {m : List (Nat × α)} (a : Nat) (v : α) (h : rising m = true) : rising (ins m a v) = true := by
  induction m with
  | nil => simp [ins, rising]
  | cons f m ih =>
    obtain ⟨k, x⟩ := f
    have hm := rising_tail h
    have hk := rising_head h
    unfold ins
    split
    · rename_i h1
      refine rising_cons h ?_
      intro e he
      rcases List.mem_cons.mp he with rfl | he
      · exact h1
      · exact lt_trans h1 (hk e he)
    · split
      · rename_i h2; subst h2; exact rising_cons hm hk
      · rename_i h1 h2
        refine rising_cons (ih hm) ?_
        intro e he
        rcases mem_ins he with rfl | he
        · show k < a
          omega
        · exact hk e he

theorem rising_del {m : List (Nat × α)} (a : Nat) (h : rising m = true) : rising (del m a) = true := by
  induction m with
  | nil => rfl
  | cons f m ih =>
    obtain ⟨k, x⟩ := f
    have hm := rising_tail h
    unfold del
    split
    · exact ih hm
    · exact rising_cons (ih hm) fun e he => rising_head h e (mem_del he)

/-- Writing a key keeps the canonical form. -/
theorem wf_put [DecidableEq α] (d : α) {m : List (Nat × α)} (a : Nat) (v : α)
    (h : Memory.wf (fun _ => d) m = true) : Memory.wf (fun _ => d) (put d m a v) = true := by
  simp only [Memory.wf, Bool.and_eq_true, List.all_eq_true, bne_iff_ne, ne_eq] at h ⊢
  unfold put
  split
  · exact ⟨rising_del a h.1, fun e he => h.2 e (mem_del he)⟩
  · rename_i hv
    refine ⟨rising_ins a v h.1, fun e he => ?_⟩
    rcases mem_ins he with rfl | he
    · exact hv
    · exact h.2 e he

/-! ### Lists in the order of a measure -/

theorem insBy_perm (f : α → Nat) (x : α) (l : List α) : (insBy f x l).Perm (x :: l) := by
  induction l with
  | nil => exact .refl _
  | cons y ys ih =>
    unfold insBy
    split
    · exact .refl _
    · exact (ih.cons y).trans (.swap x y ys)

/-- A list in the order of a measure has the same elements. -/
theorem sortBy_perm (f : α → Nat) (l : List α) : (sortBy f l).Perm l := by
  induction l with
  | nil => exact .refl _
  | cons x xs ih => exact (insBy_perm f x _).trans (ih.cons x)

theorem insBy_sorted (f : α → Nat) (x : α) {l : List α} (h : l.Pairwise fun a b => f a ≤ f b) :
    (insBy f x l).Pairwise fun a b => f a ≤ f b := by
  induction l with
  | nil => simp [insBy]
  | cons y ys ih =>
    obtain ⟨h1, h2⟩ := List.pairwise_cons.1 h
    unfold insBy
    split
    · rename_i hx
      refine List.pairwise_cons.2 ⟨fun b hb => ?_, h⟩
      rcases List.mem_cons.1 hb with rfl | hb
      · exact hx
      · exact hx.trans (h1 b hb)
    · rename_i hx
      refine List.pairwise_cons.2 ⟨fun b hb => ?_, ih h2⟩
      rcases List.mem_cons.1 ((insBy_perm f x ys).mem_iff.1 hb) with rfl | hb
      · omega
      · exact h1 b hb

/-- Its measures do not fall. -/
theorem sortBy_sorted (f : α → Nat) (l : List α) : (sortBy f l).Pairwise fun a b => f a ≤ f b := by
  induction l with
  | nil => exact .nil
  | cons x xs ih => exact insBy_sorted f x ih

end Sys2Proof.Laws
end

