-- ==== Sys2Proof/Laws/State.lean ====
section
/-!
SUPPORT. What each named update of the state leaves alone: one lemma per field per update. The updates of the register
file come first, then those that replace one block's state.
-/

namespace Sys2Proof.Laws

open Sys2Proof.Machine

variable (s : State)

theorem withClk_guard (c : Clock) : State.guard ({ s with clk := c }) = s.guard := rfl
theorem withClk_regs (c : Clock) : State.regs ({ s with clk := c }) = s.regs := rfl
theorem withClk_staged (c : Clock) : State.staged ({ s with clk := c }) = s.staged := rfl
theorem withClk_latch (c : Clock) : State.latch ({ s with clk := c }) = s.latch := rfl
theorem withClk_dram (c : Clock) : State.dram ({ s with clk := c }) = s.dram := rfl
theorem withClk_toll (c : Clock) : State.toll ({ s with clk := c }) = s.toll := rfl
theorem withClk_lac (c : Clock) : State.lac ({ s with clk := c }) = s.lac := rfl
theorem withClk_loom (c : Clock) : State.loom ({ s with clk := c }) = s.loom := rfl
theorem withClk_loops (c : Clock) : State.loops ({ s with clk := c }) = s.loops := rfl
theorem withClk_pts (c : Clock) : State.pts ({ s with clk := c }) = s.pts := rfl
theorem withClk_defSel (c : Clock) : State.defSel ({ s with clk := c }) = s.defSel := rfl
theorem withClk_dayb (c : Clock) : State.dayb ({ s with clk := c }) = s.dayb := rfl
theorem withClk_eth (c : Clock) : State.eth ({ s with clk := c }) = s.eth := rfl
theorem withClk_opx (c : Clock) : State.opx ({ s with clk := c }) = s.opx := rfl
theorem withClk_bus (c : Clock) : State.bus ({ s with clk := c }) = s.bus := rfl
theorem withClk_sf (c : Clock) : State.sf ({ s with clk := c }) = s.sf := rfl
theorem withClk_fio (c : Clock) : State.fio ({ s with clk := c }) = s.fio := rfl
theorem withClk_vault (c : Clock) : State.vault ({ s with clk := c }) = s.vault := rfl
theorem withClk_wgh (c : Clock) : State.wgh ({ s with clk := c }) = s.wgh := rfl
theorem withClk_fact (c : Clock) : State.fact ({ s with clk := c }) = s.fact := rfl
theorem withClk_sgn (c : Clock) : State.sgn ({ s with clk := c }) = s.sgn := rfl
theorem withClk_scrv (c : Clock) : State.scrv ({ s with clk := c }) = s.scrv := rfl
theorem withClk_fltm (c : Clock) : State.fltm ({ s with clk := c }) = s.fltm := rfl
theorem withClk_upd (c : Clock) : State.upd ({ s with clk := c }) = s.upd := rfl
theorem withClk_pins (c : Clock) : State.pins ({ s with clk := c }) = s.pins := rfl
theorem withClk_past (c : Clock) : State.past ({ s with clk := c }) = s.past := rfl
theorem withClk_fresh (c : Clock) : State.fresh ({ s with clk := c }) = s.fresh := rfl
theorem withClk_replies (c : Clock) : State.replies ({ s with clk := c }) = s.replies := rfl
theorem withClk_free (c : Clock) : State.free ({ s with clk := c }) = s.free := rfl
theorem withClk_pending (c : Clock) : State.pending ({ s with clk := c }) = s.pending := rfl

@[simp] theorem wr_clk (a : Nat) (v : Word) : (wr s a v).clk = s.clk := rfl
@[simp] theorem wr_guard (a : Nat) (v : Word) : (wr s a v).guard = s.guard := rfl
@[simp] theorem wr_staged (a : Nat) (v : Word) : (wr s a v).staged = s.staged := rfl
@[simp] theorem wr_latch (a : Nat) (v : Word) : (wr s a v).latch = s.latch := rfl
@[simp] theorem wr_dram (a : Nat) (v : Word) : (wr s a v).dram = s.dram := rfl
@[simp] theorem wr_toll (a : Nat) (v : Word) : (wr s a v).toll = s.toll := rfl
@[simp] theorem wr_lac (a : Nat) (v : Word) : (wr s a v).lac = s.lac := rfl
@[simp] theorem wr_loom (a : Nat) (v : Word) : (wr s a v).loom = s.loom := rfl
@[simp] theorem wr_loops (a : Nat) (v : Word) : (wr s a v).loops = s.loops := rfl
@[simp] theorem wr_pts (a : Nat) (v : Word) : (wr s a v).pts = s.pts := rfl
@[simp] theorem wr_defSel (a : Nat) (v : Word) : (wr s a v).defSel = s.defSel := rfl
@[simp] theorem wr_dayb (a : Nat) (v : Word) : (wr s a v).dayb = s.dayb := rfl
@[simp] theorem wr_eth (a : Nat) (v : Word) : (wr s a v).eth = s.eth := rfl
@[simp] theorem wr_opx (a : Nat) (v : Word) : (wr s a v).opx = s.opx := rfl
@[simp] theorem wr_bus (a : Nat) (v : Word) : (wr s a v).bus = s.bus := rfl
@[simp] theorem wr_sf (a : Nat) (v : Word) : (wr s a v).sf = s.sf := rfl
@[simp] theorem wr_fio (a : Nat) (v : Word) : (wr s a v).fio = s.fio := rfl
@[simp] theorem wr_vault (a : Nat) (v : Word) : (wr s a v).vault = s.vault := rfl
@[simp] theorem wr_wgh (a : Nat) (v : Word) : (wr s a v).wgh = s.wgh := rfl
@[simp] theorem wr_fact (a : Nat) (v : Word) : (wr s a v).fact = s.fact := rfl
@[simp] theorem wr_sgn (a : Nat) (v : Word) : (wr s a v).sgn = s.sgn := rfl
@[simp] theorem wr_scrv (a : Nat) (v : Word) : (wr s a v).scrv = s.scrv := rfl
@[simp] theorem wr_fltm (a : Nat) (v : Word) : (wr s a v).fltm = s.fltm := rfl
@[simp] theorem wr_upd (a : Nat) (v : Word) : (wr s a v).upd = s.upd := rfl
@[simp] theorem wr_pins (a : Nat) (v : Word) : (wr s a v).pins = s.pins := rfl
@[simp] theorem wr_past (a : Nat) (v : Word) : (wr s a v).past = s.past := rfl
@[simp] theorem wr_fresh (a : Nat) (v : Word) : (wr s a v).fresh = s.fresh := rfl
@[simp] theorem wr_replies (a : Nat) (v : Word) : (wr s a v).replies = s.replies := rfl
@[simp] theorem wr_free (a : Nat) (v : Word) : (wr s a v).free = s.free := rfl
@[simp] theorem wr_pending (a : Nat) (v : Word) : (wr s a v).pending = s.pending := rfl

@[simp] theorem wrF_clk (a lo n v : Nat) : (wrF s a lo n v).clk = s.clk := rfl
@[simp] theorem wrF_guard (a lo n v : Nat) : (wrF s a lo n v).guard = s.guard := rfl
@[simp] theorem wrF_staged (a lo n v : Nat) : (wrF s a lo n v).staged = s.staged := rfl
@[simp] theorem wrF_latch (a lo n v : Nat) : (wrF s a lo n v).latch = s.latch := rfl
@[simp] theorem wrF_dram (a lo n v : Nat) : (wrF s a lo n v).dram = s.dram := rfl
@[simp] theorem wrF_toll (a lo n v : Nat) : (wrF s a lo n v).toll = s.toll := rfl
@[simp] theorem wrF_lac (a lo n v : Nat) : (wrF s a lo n v).lac = s.lac := rfl
@[simp] theorem wrF_loom (a lo n v : Nat) : (wrF s a lo n v).loom = s.loom := rfl
@[simp] theorem wrF_loops (a lo n v : Nat) : (wrF s a lo n v).loops = s.loops := rfl
@[simp] theorem wrF_pts (a lo n v : Nat) : (wrF s a lo n v).pts = s.pts := rfl
@[simp] theorem wrF_defSel (a lo n v : Nat) : (wrF s a lo n v).defSel = s.defSel := rfl
@[simp] theorem wrF_dayb (a lo n v : Nat) : (wrF s a lo n v).dayb = s.dayb := rfl
@[simp] theorem wrF_eth (a lo n v : Nat) : (wrF s a lo n v).eth = s.eth := rfl
@[simp] theorem wrF_opx (a lo n v : Nat) : (wrF s a lo n v).opx = s.opx := rfl
@[simp] theorem wrF_bus (a lo n v : Nat) : (wrF s a lo n v).bus = s.bus := rfl
@[simp] theorem wrF_sf (a lo n v : Nat) : (wrF s a lo n v).sf = s.sf := rfl
@[simp] theorem wrF_fio (a lo n v : Nat) : (wrF s a lo n v).fio = s.fio := rfl
@[simp] theorem wrF_vault (a lo n v : Nat) : (wrF s a lo n v).vault = s.vault := rfl
@[simp] theorem wrF_wgh (a lo n v : Nat) : (wrF s a lo n v).wgh = s.wgh := rfl
@[simp] theorem wrF_fact (a lo n v : Nat) : (wrF s a lo n v).fact = s.fact := rfl
@[simp] theorem wrF_sgn (a lo n v : Nat) : (wrF s a lo n v).sgn = s.sgn := rfl
@[simp] theorem wrF_scrv (a lo n v : Nat) : (wrF s a lo n v).scrv = s.scrv := rfl
@[simp] theorem wrF_fltm (a lo n v : Nat) : (wrF s a lo n v).fltm = s.fltm := rfl
@[simp] theorem wrF_upd (a lo n v : Nat) : (wrF s a lo n v).upd = s.upd := rfl
@[simp] theorem wrF_pins (a lo n v : Nat) : (wrF s a lo n v).pins = s.pins := rfl
@[simp] theorem wrF_past (a lo n v : Nat) : (wrF s a lo n v).past = s.past := rfl
@[simp] theorem wrF_fresh (a lo n v : Nat) : (wrF s a lo n v).fresh = s.fresh := rfl
@[simp] theorem wrF_replies (a lo n v : Nat) : (wrF s a lo n v).replies = s.replies := rfl
@[simp] theorem wrF_free (a lo n v : Nat) : (wrF s a lo n v).free = s.free := rfl
@[simp] theorem wrF_pending (a lo n v : Nat) : (wrF s a lo n v).pending = s.pending := rfl

@[simp] theorem wrB_clk (a i : Nat) (b : Bool) : (wrB s a i b).clk = s.clk := rfl
@[simp] theorem wrB_guard (a i : Nat) (b : Bool) : (wrB s a i b).guard = s.guard := rfl
@[simp] theorem wrB_staged (a i : Nat) (b : Bool) : (wrB s a i b).staged = s.staged := rfl
@[simp] theorem wrB_latch (a i : Nat) (b : Bool) : (wrB s a i b).latch = s.latch := rfl
@[simp] theorem wrB_dram (a i : Nat) (b : Bool) : (wrB s a i b).dram = s.dram := rfl
@[simp] theorem wrB_toll (a i : Nat) (b : Bool) : (wrB s a i b).toll = s.toll := rfl
@[simp] theorem wrB_lac (a i : Nat) (b : Bool) : (wrB s a i b).lac = s.lac := rfl
@[simp] theorem wrB_loom (a i : Nat) (b : Bool) : (wrB s a i b).loom = s.loom := rfl
@[simp] theorem wrB_loops (a i : Nat) (b : Bool) : (wrB s a i b).loops = s.loops := rfl
@[simp] theorem wrB_pts (a i : Nat) (b : Bool) : (wrB s a i b).pts = s.pts := rfl
@[simp] theorem wrB_defSel (a i : Nat) (b : Bool) : (wrB s a i b).defSel = s.defSel := rfl
@[simp] theorem wrB_dayb (a i : Nat) (b : Bool) : (wrB s a i b).dayb = s.dayb := rfl
@[simp] theorem wrB_eth (a i : Nat) (b : Bool) : (wrB s a i b).eth = s.eth := rfl
@[simp] theorem wrB_opx (a i : Nat) (b : Bool) : (wrB s a i b).opx = s.opx := rfl
@[simp] theorem wrB_bus (a i : Nat) (b : Bool) : (wrB s a i b).bus = s.bus := rfl
@[simp] theorem wrB_sf (a i : Nat) (b : Bool) : (wrB s a i b).sf = s.sf := rfl
@[simp] theorem wrB_fio (a i : Nat) (b : Bool) : (wrB s a i b).fio = s.fio := rfl
@[simp] theorem wrB_vault (a i : Nat) (b : Bool) : (wrB s a i b).vault = s.vault := rfl
@[simp] theorem wrB_wgh (a i : Nat) (b : Bool) : (wrB s a i b).wgh = s.wgh := rfl
@[simp] theorem wrB_fact (a i : Nat) (b : Bool) : (wrB s a i b).fact = s.fact := rfl
@[simp] theorem wrB_sgn (a i : Nat) (b : Bool) : (wrB s a i b).sgn = s.sgn := rfl
@[simp] theorem wrB_scrv (a i : Nat) (b : Bool) : (wrB s a i b).scrv = s.scrv := rfl
@[simp] theorem wrB_fltm (a i : Nat) (b : Bool) : (wrB s a i b).fltm = s.fltm := rfl
@[simp] theorem wrB_upd (a i : Nat) (b : Bool) : (wrB s a i b).upd = s.upd := rfl
@[simp] theorem wrB_pins (a i : Nat) (b : Bool) : (wrB s a i b).pins = s.pins := rfl
@[simp] theorem wrB_past (a i : Nat) (b : Bool) : (wrB s a i b).past = s.past := rfl
@[simp] theorem wrB_fresh (a i : Nat) (b : Bool) : (wrB s a i b).fresh = s.fresh := rfl
@[simp] theorem wrB_replies (a i : Nat) (b : Bool) : (wrB s a i b).replies = s.replies := rfl
@[simp] theorem wrB_free (a i : Nat) (b : Bool) : (wrB s a i b).free = s.free := rfl
@[simp] theorem wrB_pending (a i : Nat) (b : Bool) : (wrB s a i b).pending = s.pending := rfl

@[simp] theorem wr64_clk (a v : Nat) : (wr64 s a v).clk = s.clk := rfl
@[simp] theorem wr64_guard (a v : Nat) : (wr64 s a v).guard = s.guard := rfl
@[simp] theorem wr64_staged (a v : Nat) : (wr64 s a v).staged = s.staged := rfl
@[simp] theorem wr64_latch (a v : Nat) : (wr64 s a v).latch = s.latch := rfl
@[simp] theorem wr64_dram (a v : Nat) : (wr64 s a v).dram = s.dram := rfl
@[simp] theorem wr64_toll (a v : Nat) : (wr64 s a v).toll = s.toll := rfl
@[simp] theorem wr64_lac (a v : Nat) : (wr64 s a v).lac = s.lac := rfl
@[simp] theorem wr64_loom (a v : Nat) : (wr64 s a v).loom = s.loom := rfl
@[simp] theorem wr64_loops (a v : Nat) : (wr64 s a v).loops = s.loops := rfl
@[simp] theorem wr64_pts (a v : Nat) : (wr64 s a v).pts = s.pts := rfl
@[simp] theorem wr64_defSel (a v : Nat) : (wr64 s a v).defSel = s.defSel := rfl
@[simp] theorem wr64_dayb (a v : Nat) : (wr64 s a v).dayb = s.dayb := rfl
@[simp] theorem wr64_eth (a v : Nat) : (wr64 s a v).eth = s.eth := rfl
@[simp] theorem wr64_opx (a v : Nat) : (wr64 s a v).opx = s.opx := rfl
@[simp] theorem wr64_bus (a v : Nat) : (wr64 s a v).bus = s.bus := rfl
@[simp] theorem wr64_sf (a v : Nat) : (wr64 s a v).sf = s.sf := rfl
@[simp] theorem wr64_fio (a v : Nat) : (wr64 s a v).fio = s.fio := rfl
@[simp] theorem wr64_vault (a v : Nat) : (wr64 s a v).vault = s.vault := rfl
@[simp] theorem wr64_wgh (a v : Nat) : (wr64 s a v).wgh = s.wgh := rfl
@[simp] theorem wr64_fact (a v : Nat) : (wr64 s a v).fact = s.fact := rfl
@[simp] theorem wr64_sgn (a v : Nat) : (wr64 s a v).sgn = s.sgn := rfl
@[simp] theorem wr64_scrv (a v : Nat) : (wr64 s a v).scrv = s.scrv := rfl
@[simp] theorem wr64_fltm (a v : Nat) : (wr64 s a v).fltm = s.fltm := rfl
@[simp] theorem wr64_upd (a v : Nat) : (wr64 s a v).upd = s.upd := rfl
@[simp] theorem wr64_pins (a v : Nat) : (wr64 s a v).pins = s.pins := rfl
@[simp] theorem wr64_past (a v : Nat) : (wr64 s a v).past = s.past := rfl
@[simp] theorem wr64_fresh (a v : Nat) : (wr64 s a v).fresh = s.fresh := rfl
@[simp] theorem wr64_replies (a v : Nat) : (wr64 s a v).replies = s.replies := rfl
@[simp] theorem wr64_free (a v : Nat) : (wr64 s a v).free = s.free := rfl
@[simp] theorem wr64_pending (a v : Nat) : (wr64 s a v).pending = s.pending := rfl

@[simp] theorem bumpBy_clk (a k : Nat) : (bumpBy s a k).clk = s.clk := rfl
@[simp] theorem bumpBy_guard (a k : Nat) : (bumpBy s a k).guard = s.guard := rfl
@[simp] theorem bumpBy_staged (a k : Nat) : (bumpBy s a k).staged = s.staged := rfl
@[simp] theorem bumpBy_latch (a k : Nat) : (bumpBy s a k).latch = s.latch := rfl
@[simp] theorem bumpBy_dram (a k : Nat) : (bumpBy s a k).dram = s.dram := rfl
@[simp] theorem bumpBy_toll (a k : Nat) : (bumpBy s a k).toll = s.toll := rfl
@[simp] theorem bumpBy_lac (a k : Nat) : (bumpBy s a k).lac = s.lac := rfl
@[simp] theorem bumpBy_loom (a k : Nat) : (bumpBy s a k).loom = s.loom := rfl
@[simp] theorem bumpBy_loops (a k : Nat) : (bumpBy s a k).loops = s.loops := rfl
@[simp] theorem bumpBy_pts (a k : Nat) : (bumpBy s a k).pts = s.pts := rfl
@[simp] theorem bumpBy_defSel (a k : Nat) : (bumpBy s a k).defSel = s.defSel := rfl
@[simp] theorem bumpBy_dayb (a k : Nat) : (bumpBy s a k).dayb = s.dayb := rfl
@[simp] theorem bumpBy_eth (a k : Nat) : (bumpBy s a k).eth = s.eth := rfl
@[simp] theorem bumpBy_opx (a k : Nat) : (bumpBy s a k).opx = s.opx := rfl
@[simp] theorem bumpBy_bus (a k : Nat) : (bumpBy s a k).bus = s.bus := rfl
@[simp] theorem bumpBy_sf (a k : Nat) : (bumpBy s a k).sf = s.sf := rfl
@[simp] theorem bumpBy_fio (a k : Nat) : (bumpBy s a k).fio = s.fio := rfl
@[simp] theorem bumpBy_vault (a k : Nat) : (bumpBy s a k).vault = s.vault := rfl
@[simp] theorem bumpBy_wgh (a k : Nat) : (bumpBy s a k).wgh = s.wgh := rfl
@[simp] theorem bumpBy_fact (a k : Nat) : (bumpBy s a k).fact = s.fact := rfl
@[simp] theorem bumpBy_sgn (a k : Nat) : (bumpBy s a k).sgn = s.sgn := rfl
@[simp] theorem bumpBy_scrv (a k : Nat) : (bumpBy s a k).scrv = s.scrv := rfl
@[simp] theorem bumpBy_fltm (a k : Nat) : (bumpBy s a k).fltm = s.fltm := rfl
@[simp] theorem bumpBy_upd (a k : Nat) : (bumpBy s a k).upd = s.upd := rfl
@[simp] theorem bumpBy_pins (a k : Nat) : (bumpBy s a k).pins = s.pins := rfl
@[simp] theorem bumpBy_past (a k : Nat) : (bumpBy s a k).past = s.past := rfl
@[simp] theorem bumpBy_fresh (a k : Nat) : (bumpBy s a k).fresh = s.fresh := rfl
@[simp] theorem bumpBy_replies (a k : Nat) : (bumpBy s a k).replies = s.replies := rfl
@[simp] theorem bumpBy_free (a k : Nat) : (bumpBy s a k).free = s.free := rfl
@[simp] theorem bumpBy_pending (a k : Nat) : (bumpBy s a k).pending = s.pending := rfl

@[simp] theorem bump_clk (a : Nat) : (bump s a).clk = s.clk := rfl
@[simp] theorem bump_guard (a : Nat) : (bump s a).guard = s.guard := rfl
@[simp] theorem bump_staged (a : Nat) : (bump s a).staged = s.staged := rfl
@[simp] theorem bump_latch (a : Nat) : (bump s a).latch = s.latch := rfl
@[simp] theorem bump_dram (a : Nat) : (bump s a).dram = s.dram := rfl
@[simp] theorem bump_toll (a : Nat) : (bump s a).toll = s.toll := rfl
@[simp] theorem bump_lac (a : Nat) : (bump s a).lac = s.lac := rfl
@[simp] theorem bump_loom (a : Nat) : (bump s a).loom = s.loom := rfl
@[simp] theorem bump_loops (a : Nat) : (bump s a).loops = s.loops := rfl
@[simp] theorem bump_pts (a : Nat) : (bump s a).pts = s.pts := rfl
@[simp] theorem bump_defSel (a : Nat) : (bump s a).defSel = s.defSel := rfl
@[simp] theorem bump_dayb (a : Nat) : (bump s a).dayb = s.dayb := rfl
@[simp] theorem bump_eth (a : Nat) : (bump s a).eth = s.eth := rfl
@[simp] theorem bump_opx (a : Nat) : (bump s a).opx = s.opx := rfl
@[simp] theorem bump_bus (a : Nat) : (bump s a).bus = s.bus := rfl
@[simp] theorem bump_sf (a : Nat) : (bump s a).sf = s.sf := rfl
@[simp] theorem bump_fio (a : Nat) : (bump s a).fio = s.fio := rfl
@[simp] theorem bump_vault (a : Nat) : (bump s a).vault = s.vault := rfl
@[simp] theorem bump_wgh (a : Nat) : (bump s a).wgh = s.wgh := rfl
@[simp] theorem bump_fact (a : Nat) : (bump s a).fact = s.fact := rfl
@[simp] theorem bump_sgn (a : Nat) : (bump s a).sgn = s.sgn := rfl
@[simp] theorem bump_scrv (a : Nat) : (bump s a).scrv = s.scrv := rfl
@[simp] theorem bump_fltm (a : Nat) : (bump s a).fltm = s.fltm := rfl
@[simp] theorem bump_upd (a : Nat) : (bump s a).upd = s.upd := rfl
@[simp] theorem bump_pins (a : Nat) : (bump s a).pins = s.pins := rfl
@[simp] theorem bump_past (a : Nat) : (bump s a).past = s.past := rfl
@[simp] theorem bump_fresh (a : Nat) : (bump s a).fresh = s.fresh := rfl
@[simp] theorem bump_replies (a : Nat) : (bump s a).replies = s.replies := rfl
@[simp] theorem bump_free (a : Nat) : (bump s a).free = s.free := rfl
@[simp] theorem bump_pending (a : Nat) : (bump s a).pending = s.pending := rfl

@[simp] theorem tally_clk (a : Nat) : (tally s a).clk = s.clk := rfl
@[simp] theorem tally_guard (a : Nat) : (tally s a).guard = s.guard := rfl
@[simp] theorem tally_staged (a : Nat) : (tally s a).staged = s.staged := rfl
@[simp] theorem tally_latch (a : Nat) : (tally s a).latch = s.latch := rfl
@[simp] theorem tally_dram (a : Nat) : (tally s a).dram = s.dram := rfl
@[simp] theorem tally_toll (a : Nat) : (tally s a).toll = s.toll := rfl
@[simp] theorem tally_lac (a : Nat) : (tally s a).lac = s.lac := rfl
@[simp] theorem tally_loom (a : Nat) : (tally s a).loom = s.loom := rfl
@[simp] theorem tally_loops (a : Nat) : (tally s a).loops = s.loops := rfl
@[simp] theorem tally_pts (a : Nat) : (tally s a).pts = s.pts := rfl
@[simp] theorem tally_defSel (a : Nat) : (tally s a).defSel = s.defSel := rfl
@[simp] theorem tally_dayb (a : Nat) : (tally s a).dayb = s.dayb := rfl
@[simp] theorem tally_eth (a : Nat) : (tally s a).eth = s.eth := rfl
@[simp] theorem tally_opx (a : Nat) : (tally s a).opx = s.opx := rfl
@[simp] theorem tally_bus (a : Nat) : (tally s a).bus = s.bus := rfl
@[simp] theorem tally_sf (a : Nat) : (tally s a).sf = s.sf := rfl
@[simp] theorem tally_fio (a : Nat) : (tally s a).fio = s.fio := rfl
@[simp] theorem tally_vault (a : Nat) : (tally s a).vault = s.vault := rfl
@[simp] theorem tally_wgh (a : Nat) : (tally s a).wgh = s.wgh := rfl
@[simp] theorem tally_fact (a : Nat) : (tally s a).fact = s.fact := rfl
@[simp] theorem tally_sgn (a : Nat) : (tally s a).sgn = s.sgn := rfl
@[simp] theorem tally_scrv (a : Nat) : (tally s a).scrv = s.scrv := rfl
@[simp] theorem tally_fltm (a : Nat) : (tally s a).fltm = s.fltm := rfl
@[simp] theorem tally_upd (a : Nat) : (tally s a).upd = s.upd := rfl
@[simp] theorem tally_pins (a : Nat) : (tally s a).pins = s.pins := rfl
@[simp] theorem tally_past (a : Nat) : (tally s a).past = s.past := rfl
@[simp] theorem tally_fresh (a : Nat) : (tally s a).fresh = s.fresh := rfl
@[simp] theorem tally_replies (a : Nat) : (tally s a).replies = s.replies := rfl
@[simp] theorem tally_free (a : Nat) : (tally s a).free = s.free := rfl
@[simp] theorem tally_pending (a : Nat) : (tally s a).pending = s.pending := rfl

@[simp] theorem satF_clk (a lo n k : Nat) : (satF s a lo n k).clk = s.clk := rfl
@[simp] theorem satF_guard (a lo n k : Nat) : (satF s a lo n k).guard = s.guard := rfl
@[simp] theorem satF_staged (a lo n k : Nat) : (satF s a lo n k).staged = s.staged := rfl
@[simp] theorem satF_latch (a lo n k : Nat) : (satF s a lo n k).latch = s.latch := rfl
@[simp] theorem satF_dram (a lo n k : Nat) : (satF s a lo n k).dram = s.dram := rfl
@[simp] theorem satF_toll (a lo n k : Nat) : (satF s a lo n k).toll = s.toll := rfl
@[simp] theorem satF_lac (a lo n k : Nat) : (satF s a lo n k).lac = s.lac := rfl
@[simp] theorem satF_loom (a lo n k : Nat) : (satF s a lo n k).loom = s.loom := rfl
@[simp] theorem satF_loops (a lo n k : Nat) : (satF s a lo n k).loops = s.loops := rfl
@[simp] theorem satF_pts (a lo n k : Nat) : (satF s a lo n k).pts = s.pts := rfl
@[simp] theorem satF_defSel (a lo n k : Nat) : (satF s a lo n k).defSel = s.defSel := rfl
@[simp] theorem satF_dayb (a lo n k : Nat) : (satF s a lo n k).dayb = s.dayb := rfl
@[simp] theorem satF_eth (a lo n k : Nat) : (satF s a lo n k).eth = s.eth := rfl
@[simp] theorem satF_opx (a lo n k : Nat) : (satF s a lo n k).opx = s.opx := rfl
@[simp] theorem satF_bus (a lo n k : Nat) : (satF s a lo n k).bus = s.bus := rfl
@[simp] theorem satF_sf (a lo n k : Nat) : (satF s a lo n k).sf = s.sf := rfl
@[simp] theorem satF_fio (a lo n k : Nat) : (satF s a lo n k).fio = s.fio := rfl
@[simp] theorem satF_vault (a lo n k : Nat) : (satF s a lo n k).vault = s.vault := rfl
@[simp] theorem satF_wgh (a lo n k : Nat) : (satF s a lo n k).wgh = s.wgh := rfl
@[simp] theorem satF_fact (a lo n k : Nat) : (satF s a lo n k).fact = s.fact := rfl
@[simp] theorem satF_sgn (a lo n k : Nat) : (satF s a lo n k).sgn = s.sgn := rfl
@[simp] theorem satF_scrv (a lo n k : Nat) : (satF s a lo n k).scrv = s.scrv := rfl
@[simp] theorem satF_fltm (a lo n k : Nat) : (satF s a lo n k).fltm = s.fltm := rfl
@[simp] theorem satF_upd (a lo n k : Nat) : (satF s a lo n k).upd = s.upd := rfl
@[simp] theorem satF_pins (a lo n k : Nat) : (satF s a lo n k).pins = s.pins := rfl
@[simp] theorem satF_past (a lo n k : Nat) : (satF s a lo n k).past = s.past := rfl
@[simp] theorem satF_fresh (a lo n k : Nat) : (satF s a lo n k).fresh = s.fresh := rfl
@[simp] theorem satF_replies (a lo n k : Nat) : (satF s a lo n k).replies = s.replies := rfl
@[simp] theorem satF_free (a lo n k : Nat) : (satF s a lo n k).free = s.free := rfl
@[simp] theorem satF_pending (a lo n k : Nat) : (satF s a lo n k).pending = s.pending := rfl

@[simp] theorem clearStats_clk (p : Nat) : (clearStats s p).clk = s.clk := rfl
@[simp] theorem clearStats_guard (p : Nat) : (clearStats s p).guard = s.guard := rfl
@[simp] theorem clearStats_staged (p : Nat) : (clearStats s p).staged = s.staged := rfl
@[simp] theorem clearStats_latch (p : Nat) : (clearStats s p).latch = s.latch := rfl
@[simp] theorem clearStats_dram (p : Nat) : (clearStats s p).dram = s.dram := rfl
@[simp] theorem clearStats_toll (p : Nat) : (clearStats s p).toll = s.toll := rfl
@[simp] theorem clearStats_lac (p : Nat) : (clearStats s p).lac = s.lac := rfl
@[simp] theorem clearStats_loom (p : Nat) : (clearStats s p).loom = s.loom := rfl
@[simp] theorem clearStats_loops (p : Nat) : (clearStats s p).loops = s.loops := rfl
@[simp] theorem clearStats_pts (p : Nat) : (clearStats s p).pts = s.pts := rfl
@[simp] theorem clearStats_defSel (p : Nat) : (clearStats s p).defSel = s.defSel := rfl
@[simp] theorem clearStats_dayb (p : Nat) : (clearStats s p).dayb = s.dayb := rfl
@[simp] theorem clearStats_eth (p : Nat) : (clearStats s p).eth = s.eth := rfl
@[simp] theorem clearStats_opx (p : Nat) : (clearStats s p).opx = s.opx := rfl
@[simp] theorem clearStats_bus (p : Nat) : (clearStats s p).bus = s.bus := rfl
@[simp] theorem clearStats_sf (p : Nat) : (clearStats s p).sf = s.sf := rfl
@[simp] theorem clearStats_fio (p : Nat) : (clearStats s p).fio = s.fio := rfl
@[simp] theorem clearStats_vault (p : Nat) : (clearStats s p).vault = s.vault := rfl
@[simp] theorem clearStats_wgh (p : Nat) : (clearStats s p).wgh = s.wgh := rfl
@[simp] theorem clearStats_fact (p : Nat) : (clearStats s p).fact = s.fact := rfl
@[simp] theorem clearStats_sgn (p : Nat) : (clearStats s p).sgn = s.sgn := rfl
@[simp] theorem clearStats_scrv (p : Nat) : (clearStats s p).scrv = s.scrv := rfl
@[simp] theorem clearStats_fltm (p : Nat) : (clearStats s p).fltm = s.fltm := rfl
@[simp] theorem clearStats_upd (p : Nat) : (clearStats s p).upd = s.upd := rfl
@[simp] theorem clearStats_pins (p : Nat) : (clearStats s p).pins = s.pins := rfl
@[simp] theorem clearStats_past (p : Nat) : (clearStats s p).past = s.past := rfl
@[simp] theorem clearStats_fresh (p : Nat) : (clearStats s p).fresh = s.fresh := rfl
@[simp] theorem clearStats_replies (p : Nat) : (clearStats s p).replies = s.replies := rfl
@[simp] theorem clearStats_free (p : Nat) : (clearStats s p).free = s.free := rfl
@[simp] theorem clearStats_pending (p : Nat) : (clearStats s p).pending = s.pending := rfl

@[simp] theorem clearAllStats_clk : (clearAllStats s).clk = s.clk := rfl
@[simp] theorem clearAllStats_guard : (clearAllStats s).guard = s.guard := rfl
@[simp] theorem clearAllStats_staged : (clearAllStats s).staged = s.staged := rfl
@[simp] theorem clearAllStats_latch : (clearAllStats s).latch = s.latch := rfl
@[simp] theorem clearAllStats_dram : (clearAllStats s).dram = s.dram := rfl
@[simp] theorem clearAllStats_toll : (clearAllStats s).toll = s.toll := rfl
@[simp] theorem clearAllStats_lac : (clearAllStats s).lac = s.lac := rfl
@[simp] theorem clearAllStats_loom : (clearAllStats s).loom = s.loom := rfl
@[simp] theorem clearAllStats_loops : (clearAllStats s).loops = s.loops := rfl
@[simp] theorem clearAllStats_pts : (clearAllStats s).pts = s.pts := rfl
@[simp] theorem clearAllStats_defSel : (clearAllStats s).defSel = s.defSel := rfl
@[simp] theorem clearAllStats_dayb : (clearAllStats s).dayb = s.dayb := rfl
@[simp] theorem clearAllStats_eth : (clearAllStats s).eth = s.eth := rfl
@[simp] theorem clearAllStats_opx : (clearAllStats s).opx = s.opx := rfl
@[simp] theorem clearAllStats_bus : (clearAllStats s).bus = s.bus := rfl
@[simp] theorem clearAllStats_sf : (clearAllStats s).sf = s.sf := rfl
@[simp] theorem clearAllStats_fio : (clearAllStats s).fio = s.fio := rfl
@[simp] theorem clearAllStats_vault : (clearAllStats s).vault = s.vault := rfl
@[simp] theorem clearAllStats_wgh : (clearAllStats s).wgh = s.wgh := rfl
@[simp] theorem clearAllStats_fact : (clearAllStats s).fact = s.fact := rfl
@[simp] theorem clearAllStats_sgn : (clearAllStats s).sgn = s.sgn := rfl
@[simp] theorem clearAllStats_scrv : (clearAllStats s).scrv = s.scrv := rfl
@[simp] theorem clearAllStats_fltm : (clearAllStats s).fltm = s.fltm := rfl
@[simp] theorem clearAllStats_upd : (clearAllStats s).upd = s.upd := rfl
@[simp] theorem clearAllStats_pins : (clearAllStats s).pins = s.pins := rfl
@[simp] theorem clearAllStats_past : (clearAllStats s).past = s.past := rfl
@[simp] theorem clearAllStats_fresh : (clearAllStats s).fresh = s.fresh := rfl
@[simp] theorem clearAllStats_replies : (clearAllStats s).replies = s.replies := rfl
@[simp] theorem clearAllStats_free : (clearAllStats s).free = s.free := rfl
@[simp] theorem clearAllStats_pending : (clearAllStats s).pending = s.pending := rfl

@[simp] theorem setBits_clk (a : Nat) (v : Word) : (setBits s a v).clk = s.clk := rfl
@[simp] theorem setBits_guard (a : Nat) (v : Word) : (setBits s a v).guard = s.guard := rfl
@[simp] theorem setBits_staged (a : Nat) (v : Word) : (setBits s a v).staged = s.staged := rfl
@[simp] theorem setBits_latch (a : Nat) (v : Word) : (setBits s a v).latch = s.latch := rfl
@[simp] theorem setBits_dram (a : Nat) (v : Word) : (setBits s a v).dram = s.dram := rfl
@[simp] theorem setBits_toll (a : Nat) (v : Word) : (setBits s a v).toll = s.toll := rfl
@[simp] theorem setBits_lac (a : Nat) (v : Word) : (setBits s a v).lac = s.lac := rfl
@[simp] theorem setBits_loom (a : Nat) (v : Word) : (setBits s a v).loom = s.loom := rfl
@[simp] theorem setBits_loops (a : Nat) (v : Word) : (setBits s a v).loops = s.loops := rfl
@[simp] theorem setBits_pts (a : Nat) (v : Word) : (setBits s a v).pts = s.pts := rfl
@[simp] theorem setBits_defSel (a : Nat) (v : Word) : (setBits s a v).defSel = s.defSel := rfl
@[simp] theorem setBits_dayb (a : Nat) (v : Word) : (setBits s a v).dayb = s.dayb := rfl
@[simp] theorem setBits_eth (a : Nat) (v : Word) : (setBits s a v).eth = s.eth := rfl
@[simp] theorem setBits_opx (a : Nat) (v : Word) : (setBits s a v).opx = s.opx := rfl
@[simp] theorem setBits_bus (a : Nat) (v : Word) : (setBits s a v).bus = s.bus := rfl
@[simp] theorem setBits_sf (a : Nat) (v : Word) : (setBits s a v).sf = s.sf := rfl
@[simp] theorem setBits_fio (a : Nat) (v : Word) : (setBits s a v).fio = s.fio := rfl
@[simp] theorem setBits_vault (a : Nat) (v : Word) : (setBits s a v).vault = s.vault := rfl
@[simp] theorem setBits_wgh (a : Nat) (v : Word) : (setBits s a v).wgh = s.wgh := rfl
@[simp] theorem setBits_fact (a : Nat) (v : Word) : (setBits s a v).fact = s.fact := rfl
@[simp] theorem setBits_sgn (a : Nat) (v : Word) : (setBits s a v).sgn = s.sgn := rfl
@[simp] theorem setBits_scrv (a : Nat) (v : Word) : (setBits s a v).scrv = s.scrv := rfl
@[simp] theorem setBits_fltm (a : Nat) (v : Word) : (setBits s a v).fltm = s.fltm := rfl
@[simp] theorem setBits_upd (a : Nat) (v : Word) : (setBits s a v).upd = s.upd := rfl
@[simp] theorem setBits_pins (a : Nat) (v : Word) : (setBits s a v).pins = s.pins := rfl
@[simp] theorem setBits_past (a : Nat) (v : Word) : (setBits s a v).past = s.past := rfl
@[simp] theorem setBits_replies (a : Nat) (v : Word) : (setBits s a v).replies = s.replies := rfl
@[simp] theorem setBits_free (a : Nat) (v : Word) : (setBits s a v).free = s.free := rfl
@[simp] theorem setBits_pending (a : Nat) (v : Word) : (setBits s a v).pending = s.pending := rfl

@[simp] theorem clearBits_clk (a : Nat) (v : Word) : (clearBits s a v).clk = s.clk := rfl
@[simp] theorem clearBits_guard (a : Nat) (v : Word) : (clearBits s a v).guard = s.guard := rfl
@[simp] theorem clearBits_staged (a : Nat) (v : Word) : (clearBits s a v).staged = s.staged := rfl
@[simp] theorem clearBits_latch (a : Nat) (v : Word) : (clearBits s a v).latch = s.latch := rfl
@[simp] theorem clearBits_dram (a : Nat) (v : Word) : (clearBits s a v).dram = s.dram := rfl
@[simp] theorem clearBits_toll (a : Nat) (v : Word) : (clearBits s a v).toll = s.toll := rfl
@[simp] theorem clearBits_lac (a : Nat) (v : Word) : (clearBits s a v).lac = s.lac := rfl
@[simp] theorem clearBits_loom (a : Nat) (v : Word) : (clearBits s a v).loom = s.loom := rfl
@[simp] theorem clearBits_loops (a : Nat) (v : Word) : (clearBits s a v).loops = s.loops := rfl
@[simp] theorem clearBits_pts (a : Nat) (v : Word) : (clearBits s a v).pts = s.pts := rfl
@[simp] theorem clearBits_defSel (a : Nat) (v : Word) : (clearBits s a v).defSel = s.defSel := rfl
@[simp] theorem clearBits_dayb (a : Nat) (v : Word) : (clearBits s a v).dayb = s.dayb := rfl
@[simp] theorem clearBits_eth (a : Nat) (v : Word) : (clearBits s a v).eth = s.eth := rfl
@[simp] theorem clearBits_opx (a : Nat) (v : Word) : (clearBits s a v).opx = s.opx := rfl
@[simp] theorem clearBits_bus (a : Nat) (v : Word) : (clearBits s a v).bus = s.bus := rfl
@[simp] theorem clearBits_sf (a : Nat) (v : Word) : (clearBits s a v).sf = s.sf := rfl
@[simp] theorem clearBits_fio (a : Nat) (v : Word) : (clearBits s a v).fio = s.fio := rfl
@[simp] theorem clearBits_vault (a : Nat) (v : Word) : (clearBits s a v).vault = s.vault := rfl
@[simp] theorem clearBits_wgh (a : Nat) (v : Word) : (clearBits s a v).wgh = s.wgh := rfl
@[simp] theorem clearBits_fact (a : Nat) (v : Word) : (clearBits s a v).fact = s.fact := rfl
@[simp] theorem clearBits_sgn (a : Nat) (v : Word) : (clearBits s a v).sgn = s.sgn := rfl
@[simp] theorem clearBits_scrv (a : Nat) (v : Word) : (clearBits s a v).scrv = s.scrv := rfl
@[simp] theorem clearBits_fltm (a : Nat) (v : Word) : (clearBits s a v).fltm = s.fltm := rfl
@[simp] theorem clearBits_upd (a : Nat) (v : Word) : (clearBits s a v).upd = s.upd := rfl
@[simp] theorem clearBits_pins (a : Nat) (v : Word) : (clearBits s a v).pins = s.pins := rfl
@[simp] theorem clearBits_past (a : Nat) (v : Word) : (clearBits s a v).past = s.past := rfl
@[simp] theorem clearBits_fresh (a : Nat) (v : Word) : (clearBits s a v).fresh = s.fresh := rfl
@[simp] theorem clearBits_replies (a : Nat) (v : Word) : (clearBits s a v).replies = s.replies := rfl
@[simp] theorem clearBits_free (a : Nat) (v : Word) : (clearBits s a v).free = s.free := rfl
@[simp] theorem clearBits_pending (a : Nat) (v : Word) : (clearBits s a v).pending = s.pending := rfl

@[simp] theorem ev_clk (p b : Nat) : (ev s p b).clk = s.clk := by unfold ev; split <;> rfl
@[simp] theorem ev_guard (p b : Nat) : (ev s p b).guard = s.guard := by unfold ev; split <;> rfl
@[simp] theorem ev_staged (p b : Nat) : (ev s p b).staged = s.staged := by unfold ev; split <;> rfl
@[simp] theorem ev_latch (p b : Nat) : (ev s p b).latch = s.latch := by unfold ev; split <;> rfl
@[simp] theorem ev_dram (p b : Nat) : (ev s p b).dram = s.dram := by unfold ev; split <;> rfl
@[simp] theorem ev_toll (p b : Nat) : (ev s p b).toll = s.toll := by unfold ev; split <;> rfl
@[simp] theorem ev_lac (p b : Nat) : (ev s p b).lac = s.lac := by unfold ev; split <;> rfl
@[simp] theorem ev_loom (p b : Nat) : (ev s p b).loom = s.loom := by unfold ev; split <;> rfl
@[simp] theorem ev_loops (p b : Nat) : (ev s p b).loops = s.loops := by unfold ev; split <;> rfl
@[simp] theorem ev_pts (p b : Nat) : (ev s p b).pts = s.pts := by unfold ev; split <;> rfl
@[simp] theorem ev_defSel (p b : Nat) : (ev s p b).defSel = s.defSel := by unfold ev; split <;> rfl
@[simp] theorem ev_dayb (p b : Nat) : (ev s p b).dayb = s.dayb := by unfold ev; split <;> rfl
@[simp] theorem ev_eth (p b : Nat) : (ev s p b).eth = s.eth := by unfold ev; split <;> rfl
@[simp] theorem ev_opx (p b : Nat) : (ev s p b).opx = s.opx := by unfold ev; split <;> rfl
@[simp] theorem ev_bus (p b : Nat) : (ev s p b).bus = s.bus := by unfold ev; split <;> rfl
@[simp] theorem ev_sf (p b : Nat) : (ev s p b).sf = s.sf := by unfold ev; split <;> rfl
@[simp] theorem ev_fio (p b : Nat) : (ev s p b).fio = s.fio := by unfold ev; split <;> rfl
@[simp] theorem ev_vault (p b : Nat) : (ev s p b).vault = s.vault := by unfold ev; split <;> rfl
@[simp] theorem ev_wgh (p b : Nat) : (ev s p b).wgh = s.wgh := by unfold ev; split <;> rfl
@[simp] theorem ev_fact (p b : Nat) : (ev s p b).fact = s.fact := by unfold ev; split <;> rfl
@[simp] theorem ev_sgn (p b : Nat) : (ev s p b).sgn = s.sgn := by unfold ev; split <;> rfl
@[simp] theorem ev_scrv (p b : Nat) : (ev s p b).scrv = s.scrv := by unfold ev; split <;> rfl
@[simp] theorem ev_fltm (p b : Nat) : (ev s p b).fltm = s.fltm := by unfold ev; split <;> rfl
@[simp] theorem ev_upd (p b : Nat) : (ev s p b).upd = s.upd := by unfold ev; split <;> rfl
@[simp] theorem ev_pins (p b : Nat) : (ev s p b).pins = s.pins := by unfold ev; split <;> rfl
@[simp] theorem ev_past (p b : Nat) : (ev s p b).past = s.past := by unfold ev; split <;> rfl
@[simp] theorem ev_replies (p b : Nat) : (ev s p b).replies = s.replies := by unfold ev; split <;> rfl
@[simp] theorem ev_free (p b : Nat) : (ev s p b).free = s.free := by unfold ev; split <;> rfl
@[simp] theorem ev_pending (p b : Nat) : (ev s p b).pending = s.pending := by unfold ev; split <;> rfl

@[simp] theorem evIf_clk (c : Bool) (p b : Nat) : (evIf c s p b).clk = s.clk := by cases c <;> simp [evIf]
@[simp] theorem evIf_guard (c : Bool) (p b : Nat) : (evIf c s p b).guard = s.guard := by cases c <;> simp [evIf]
@[simp] theorem evIf_staged (c : Bool) (p b : Nat) : (evIf c s p b).staged = s.staged := by cases c <;> simp [evIf]
@[simp] theorem evIf_latch (c : Bool) (p b : Nat) : (evIf c s p b).latch = s.latch := by cases c <;> simp [evIf]
@[simp] theorem evIf_dram (c : Bool) (p b : Nat) : (evIf c s p b).dram = s.dram := by cases c <;> simp [evIf]
@[simp] theorem evIf_toll (c : Bool) (p b : Nat) : (evIf c s p b).toll = s.toll := by cases c <;> simp [evIf]
@[simp] theorem evIf_lac (c : Bool) (p b : Nat) : (evIf c s p b).lac = s.lac := by cases c <;> simp [evIf]
@[simp] theorem evIf_loom (c : Bool) (p b : Nat) : (evIf c s p b).loom = s.loom := by cases c <;> simp [evIf]
@[simp] theorem evIf_loops (c : Bool) (p b : Nat) : (evIf c s p b).loops = s.loops := by cases c <;> simp [evIf]
@[simp] theorem evIf_pts (c : Bool) (p b : Nat) : (evIf c s p b).pts = s.pts := by cases c <;> simp [evIf]
@[simp] theorem evIf_defSel (c : Bool) (p b : Nat) : (evIf c s p b).defSel = s.defSel := by cases c <;> simp [evIf]
@[simp] theorem evIf_dayb (c : Bool) (p b : Nat) : (evIf c s p b).dayb = s.dayb := by cases c <;> simp [evIf]
@[simp] theorem evIf_eth (c : Bool) (p b : Nat) : (evIf c s p b).eth = s.eth := by cases c <;> simp [evIf]
@[simp] theorem evIf_opx (c : Bool) (p b : Nat) : (evIf c s p b).opx = s.opx := by cases c <;> simp [evIf]
@[simp] theorem evIf_bus (c : Bool) (p b : Nat) : (evIf c s p b).bus = s.bus := by cases c <;> simp [evIf]
@[simp] theorem evIf_sf (c : Bool) (p b : Nat) : (evIf c s p b).sf = s.sf := by cases c <;> simp [evIf]
@[simp] theorem evIf_fio (c : Bool) (p b : Nat) : (evIf c s p b).fio = s.fio := by cases c <;> simp [evIf]
@[simp] theorem evIf_vault (c : Bool) (p b : Nat) : (evIf c s p b).vault = s.vault := by cases c <;> simp [evIf]
@[simp] theorem evIf_wgh (c : Bool) (p b : Nat) : (evIf c s p b).wgh = s.wgh := by cases c <;> simp [evIf]
@[simp] theorem evIf_fact (c : Bool) (p b : Nat) : (evIf c s p b).fact = s.fact := by cases c <;> simp [evIf]
@[simp] theorem evIf_sgn (c : Bool) (p b : Nat) : (evIf c s p b).sgn = s.sgn := by cases c <;> simp [evIf]
@[simp] theorem evIf_scrv (c : Bool) (p b : Nat) : (evIf c s p b).scrv = s.scrv := by cases c <;> simp [evIf]
@[simp] theorem evIf_fltm (c : Bool) (p b : Nat) : (evIf c s p b).fltm = s.fltm := by cases c <;> simp [evIf]
@[simp] theorem evIf_upd (c : Bool) (p b : Nat) : (evIf c s p b).upd = s.upd := by cases c <;> simp [evIf]
@[simp] theorem evIf_pins (c : Bool) (p b : Nat) : (evIf c s p b).pins = s.pins := by cases c <;> simp [evIf]
@[simp] theorem evIf_past (c : Bool) (p b : Nat) : (evIf c s p b).past = s.past := by cases c <;> simp [evIf]
@[simp] theorem evIf_replies (c : Bool) (p b : Nat) : (evIf c s p b).replies = s.replies := by cases c <;> simp [evIf]
@[simp] theorem evIf_free (c : Bool) (p b : Nat) : (evIf c s p b).free = s.free := by cases c <;> simp [evIf]
@[simp] theorem evIf_pending (c : Bool) (p b : Nat) : (evIf c s p b).pending = s.pending := by cases c <;> simp [evIf]

@[simp] theorem setEth_clk (n : Nat) (x : EthPort) : (setEth s n x).clk = s.clk := rfl
@[simp] theorem setEth_guard (n : Nat) (x : EthPort) : (setEth s n x).guard = s.guard := rfl
@[simp] theorem setEth_regs (n : Nat) (x : EthPort) : (setEth s n x).regs = s.regs := rfl
@[simp] theorem setEth_staged (n : Nat) (x : EthPort) : (setEth s n x).staged = s.staged := rfl
@[simp] theorem setEth_latch (n : Nat) (x : EthPort) : (setEth s n x).latch = s.latch := rfl
@[simp] theorem setEth_dram (n : Nat) (x : EthPort) : (setEth s n x).dram = s.dram := rfl
@[simp] theorem setEth_toll (n : Nat) (x : EthPort) : (setEth s n x).toll = s.toll := rfl
@[simp] theorem setEth_lac (n : Nat) (x : EthPort) : (setEth s n x).lac = s.lac := rfl
@[simp] theorem setEth_loom (n : Nat) (x : EthPort) : (setEth s n x).loom = s.loom := rfl
@[simp] theorem setEth_loops (n : Nat) (x : EthPort) : (setEth s n x).loops = s.loops := rfl
@[simp] theorem setEth_pts (n : Nat) (x : EthPort) : (setEth s n x).pts = s.pts := rfl
@[simp] theorem setEth_defSel (n : Nat) (x : EthPort) : (setEth s n x).defSel = s.defSel := rfl
@[simp] theorem setEth_dayb (n : Nat) (x : EthPort) : (setEth s n x).dayb = s.dayb := rfl
@[simp] theorem setEth_opx (n : Nat) (x : EthPort) : (setEth s n x).opx = s.opx := rfl
@[simp] theorem setEth_bus (n : Nat) (x : EthPort) : (setEth s n x).bus = s.bus := rfl
@[simp] theorem setEth_sf (n : Nat) (x : EthPort) : (setEth s n x).sf = s.sf := rfl
@[simp] theorem setEth_fio (n : Nat) (x : EthPort) : (setEth s n x).fio = s.fio := rfl
@[simp] theorem setEth_vault (n : Nat) (x : EthPort) : (setEth s n x).vault = s.vault := rfl
@[simp] theorem setEth_wgh (n : Nat) (x : EthPort) : (setEth s n x).wgh = s.wgh := rfl
@[simp] theorem setEth_fact (n : Nat) (x : EthPort) : (setEth s n x).fact = s.fact := rfl
@[simp] theorem setEth_sgn (n : Nat) (x : EthPort) : (setEth s n x).sgn = s.sgn := rfl
@[simp] theorem setEth_scrv (n : Nat) (x : EthPort) : (setEth s n x).scrv = s.scrv := rfl
@[simp] theorem setEth_fltm (n : Nat) (x : EthPort) : (setEth s n x).fltm = s.fltm := rfl
@[simp] theorem setEth_upd (n : Nat) (x : EthPort) : (setEth s n x).upd = s.upd := rfl
@[simp] theorem setEth_pins (n : Nat) (x : EthPort) : (setEth s n x).pins = s.pins := rfl
@[simp] theorem setEth_past (n : Nat) (x : EthPort) : (setEth s n x).past = s.past := rfl
@[simp] theorem setEth_fresh (n : Nat) (x : EthPort) : (setEth s n x).fresh = s.fresh := rfl
@[simp] theorem setEth_replies (n : Nat) (x : EthPort) : (setEth s n x).replies = s.replies := rfl
@[simp] theorem setEth_free (n : Nat) (x : EthPort) : (setEth s n x).free = s.free := rfl
@[simp] theorem setEth_pending (n : Nat) (x : EthPort) : (setEth s n x).pending = s.pending := rfl

@[simp] theorem setElem_clk (w : Nat) (x : ElemSt) : (setElem s w x).clk = s.clk := rfl
@[simp] theorem setElem_guard (w : Nat) (x : ElemSt) : (setElem s w x).guard = s.guard := rfl
@[simp] theorem setElem_regs (w : Nat) (x : ElemSt) : (setElem s w x).regs = s.regs := rfl
@[simp] theorem setElem_staged (w : Nat) (x : ElemSt) : (setElem s w x).staged = s.staged := rfl
@[simp] theorem setElem_latch (w : Nat) (x : ElemSt) : (setElem s w x).latch = s.latch := rfl
@[simp] theorem setElem_dram (w : Nat) (x : ElemSt) : (setElem s w x).dram = s.dram := rfl
@[simp] theorem setElem_toll (w : Nat) (x : ElemSt) : (setElem s w x).toll = s.toll := rfl
@[simp] theorem setElem_lac (w : Nat) (x : ElemSt) : (setElem s w x).lac = s.lac := rfl
@[simp] theorem setElem_loom (w : Nat) (x : ElemSt) : (setElem s w x).loom = s.loom := rfl
@[simp] theorem setElem_loops (w : Nat) (x : ElemSt) : (setElem s w x).loops = s.loops := rfl
@[simp] theorem setElem_pts (w : Nat) (x : ElemSt) : (setElem s w x).pts = s.pts := rfl
@[simp] theorem setElem_defSel (w : Nat) (x : ElemSt) : (setElem s w x).defSel = s.defSel := rfl
@[simp] theorem setElem_dayb (w : Nat) (x : ElemSt) : (setElem s w x).dayb = s.dayb := rfl
@[simp] theorem setElem_eth (w : Nat) (x : ElemSt) : (setElem s w x).eth = s.eth := rfl
@[simp] theorem setElem_opx (w : Nat) (x : ElemSt) : (setElem s w x).opx = s.opx := rfl
@[simp] theorem setElem_bus (w : Nat) (x : ElemSt) : (setElem s w x).bus = s.bus := rfl
@[simp] theorem setElem_sf (w : Nat) (x : ElemSt) : (setElem s w x).sf = s.sf := rfl
@[simp] theorem setElem_fio (w : Nat) (x : ElemSt) : (setElem s w x).fio = s.fio := rfl
@[simp] theorem setElem_vault (w : Nat) (x : ElemSt) : (setElem s w x).vault = s.vault := rfl
@[simp] theorem setElem_wgh (w : Nat) (x : ElemSt) : (setElem s w x).wgh = s.wgh := rfl
@[simp] theorem setElem_fact (w : Nat) (x : ElemSt) : (setElem s w x).fact = s.fact := rfl
@[simp] theorem setElem_sgn (w : Nat) (x : ElemSt) : (setElem s w x).sgn = s.sgn := rfl
@[simp] theorem setElem_scrv (w : Nat) (x : ElemSt) : (setElem s w x).scrv = s.scrv := rfl
@[simp] theorem setElem_upd (w : Nat) (x : ElemSt) : (setElem s w x).upd = s.upd := rfl
@[simp] theorem setElem_pins (w : Nat) (x : ElemSt) : (setElem s w x).pins = s.pins := rfl
@[simp] theorem setElem_past (w : Nat) (x : ElemSt) : (setElem s w x).past = s.past := rfl
@[simp] theorem setElem_fresh (w : Nat) (x : ElemSt) : (setElem s w x).fresh = s.fresh := rfl
@[simp] theorem setElem_replies (w : Nat) (x : ElemSt) : (setElem s w x).replies = s.replies := rfl
@[simp] theorem setElem_free (w : Nat) (x : ElemSt) : (setElem s w x).free = s.free := rfl
@[simp] theorem setElem_pending (w : Nat) (x : ElemSt) : (setElem s w x).pending = s.pending := rfl

@[simp] theorem setBus_clk (n : Nat) (x : Bus) : (setBus s n x).clk = s.clk := rfl
@[simp] theorem setBus_guard (n : Nat) (x : Bus) : (setBus s n x).guard = s.guard := rfl
@[simp] theorem setBus_regs (n : Nat) (x : Bus) : (setBus s n x).regs = s.regs := rfl
@[simp] theorem setBus_staged (n : Nat) (x : Bus) : (setBus s n x).staged = s.staged := rfl
@[simp] theorem setBus_latch (n : Nat) (x : Bus) : (setBus s n x).latch = s.latch := rfl
@[simp] theorem setBus_dram (n : Nat) (x : Bus) : (setBus s n x).dram = s.dram := rfl
@[simp] theorem setBus_toll (n : Nat) (x : Bus) : (setBus s n x).toll = s.toll := rfl
@[simp] theorem setBus_lac (n : Nat) (x : Bus) : (setBus s n x).lac = s.lac := rfl
@[simp] theorem setBus_loom (n : Nat) (x : Bus) : (setBus s n x).loom = s.loom := rfl
@[simp] theorem setBus_loops (n : Nat) (x : Bus) : (setBus s n x).loops = s.loops := rfl
@[simp] theorem setBus_pts (n : Nat) (x : Bus) : (setBus s n x).pts = s.pts := rfl
@[simp] theorem setBus_defSel (n : Nat) (x : Bus) : (setBus s n x).defSel = s.defSel := rfl
@[simp] theorem setBus_dayb (n : Nat) (x : Bus) : (setBus s n x).dayb = s.dayb := rfl
@[simp] theorem setBus_eth (n : Nat) (x : Bus) : (setBus s n x).eth = s.eth := rfl
@[simp] theorem setBus_opx (n : Nat) (x : Bus) : (setBus s n x).opx = s.opx := rfl
@[simp] theorem setBus_sf (n : Nat) (x : Bus) : (setBus s n x).sf = s.sf := rfl
@[simp] theorem setBus_fio (n : Nat) (x : Bus) : (setBus s n x).fio = s.fio := rfl
@[simp] theorem setBus_vault (n : Nat) (x : Bus) : (setBus s n x).vault = s.vault := rfl
@[simp] theorem setBus_wgh (n : Nat) (x : Bus) : (setBus s n x).wgh = s.wgh := rfl
@[simp] theorem setBus_fact (n : Nat) (x : Bus) : (setBus s n x).fact = s.fact := rfl
@[simp] theorem setBus_sgn (n : Nat) (x : Bus) : (setBus s n x).sgn = s.sgn := rfl
@[simp] theorem setBus_scrv (n : Nat) (x : Bus) : (setBus s n x).scrv = s.scrv := rfl
@[simp] theorem setBus_fltm (n : Nat) (x : Bus) : (setBus s n x).fltm = s.fltm := rfl
@[simp] theorem setBus_upd (n : Nat) (x : Bus) : (setBus s n x).upd = s.upd := rfl
@[simp] theorem setBus_pins (n : Nat) (x : Bus) : (setBus s n x).pins = s.pins := rfl
@[simp] theorem setBus_past (n : Nat) (x : Bus) : (setBus s n x).past = s.past := rfl
@[simp] theorem setBus_fresh (n : Nat) (x : Bus) : (setBus s n x).fresh = s.fresh := rfl
@[simp] theorem setBus_replies (n : Nat) (x : Bus) : (setBus s n x).replies = s.replies := rfl
@[simp] theorem setBus_free (n : Nat) (x : Bus) : (setBus s n x).free = s.free := rfl
@[simp] theorem setBus_pending (n : Nat) (x : Bus) : (setBus s n x).pending = s.pending := rfl

@[simp] theorem setSf_clk (n : Nat) (x : SfPort) : (setSf s n x).clk = s.clk := rfl
@[simp] theorem setSf_guard (n : Nat) (x : SfPort) : (setSf s n x).guard = s.guard := rfl
@[simp] theorem setSf_regs (n : Nat) (x : SfPort) : (setSf s n x).regs = s.regs := rfl
@[simp] theorem setSf_staged (n : Nat) (x : SfPort) : (setSf s n x).staged = s.staged := rfl
@[simp] theorem setSf_latch (n : Nat) (x : SfPort) : (setSf s n x).latch = s.latch := rfl
@[simp] theorem setSf_dram (n : Nat) (x : SfPort) : (setSf s n x).dram = s.dram := rfl
@[simp] theorem setSf_toll (n : Nat) (x : SfPort) : (setSf s n x).toll = s.toll := rfl
@[simp] theorem setSf_lac (n : Nat) (x : SfPort) : (setSf s n x).lac = s.lac := rfl
@[simp] theorem setSf_loom (n : Nat) (x : SfPort) : (setSf s n x).loom = s.loom := rfl
@[simp] theorem setSf_loops (n : Nat) (x : SfPort) : (setSf s n x).loops = s.loops := rfl
@[simp] theorem setSf_pts (n : Nat) (x : SfPort) : (setSf s n x).pts = s.pts := rfl
@[simp] theorem setSf_defSel (n : Nat) (x : SfPort) : (setSf s n x).defSel = s.defSel := rfl
@[simp] theorem setSf_dayb (n : Nat) (x : SfPort) : (setSf s n x).dayb = s.dayb := rfl
@[simp] theorem setSf_eth (n : Nat) (x : SfPort) : (setSf s n x).eth = s.eth := rfl
@[simp] theorem setSf_opx (n : Nat) (x : SfPort) : (setSf s n x).opx = s.opx := rfl
@[simp] theorem setSf_bus (n : Nat) (x : SfPort) : (setSf s n x).bus = s.bus := rfl
@[simp] theorem setSf_fio (n : Nat) (x : SfPort) : (setSf s n x).fio = s.fio := rfl
@[simp] theorem setSf_vault (n : Nat) (x : SfPort) : (setSf s n x).vault = s.vault := rfl
@[simp] theorem setSf_wgh (n : Nat) (x : SfPort) : (setSf s n x).wgh = s.wgh := rfl
@[simp] theorem setSf_fact (n : Nat) (x : SfPort) : (setSf s n x).fact = s.fact := rfl
@[simp] theorem setSf_sgn (n : Nat) (x : SfPort) : (setSf s n x).sgn = s.sgn := rfl
@[simp] theorem setSf_scrv (n : Nat) (x : SfPort) : (setSf s n x).scrv = s.scrv := rfl
@[simp] theorem setSf_fltm (n : Nat) (x : SfPort) : (setSf s n x).fltm = s.fltm := rfl
@[simp] theorem setSf_upd (n : Nat) (x : SfPort) : (setSf s n x).upd = s.upd := rfl
@[simp] theorem setSf_pins (n : Nat) (x : SfPort) : (setSf s n x).pins = s.pins := rfl
@[simp] theorem setSf_past (n : Nat) (x : SfPort) : (setSf s n x).past = s.past := rfl
@[simp] theorem setSf_fresh (n : Nat) (x : SfPort) : (setSf s n x).fresh = s.fresh := rfl
@[simp] theorem setSf_replies (n : Nat) (x : SfPort) : (setSf s n x).replies = s.replies := rfl
@[simp] theorem setSf_free (n : Nat) (x : SfPort) : (setSf s n x).free = s.free := rfl
@[simp] theorem setSf_pending (n : Nat) (x : SfPort) : (setSf s n x).pending = s.pending := rfl

@[simp] theorem setLane_clk (l : LaneNo) (x : Lane) : (setLane s l x).clk = s.clk := rfl
@[simp] theorem setLane_guard (l : LaneNo) (x : Lane) : (setLane s l x).guard = s.guard := rfl
@[simp] theorem setLane_regs (l : LaneNo) (x : Lane) : (setLane s l x).regs = s.regs := rfl
@[simp] theorem setLane_staged (l : LaneNo) (x : Lane) : (setLane s l x).staged = s.staged := rfl
@[simp] theorem setLane_latch (l : LaneNo) (x : Lane) : (setLane s l x).latch = s.latch := rfl
@[simp] theorem setLane_dram (l : LaneNo) (x : Lane) : (setLane s l x).dram = s.dram := rfl
@[simp] theorem setLane_toll (l : LaneNo) (x : Lane) : (setLane s l x).toll = s.toll := rfl
@[simp] theorem setLane_lac (l : LaneNo) (x : Lane) : (setLane s l x).lac = s.lac := rfl
@[simp] theorem setLane_loops (l : LaneNo) (x : Lane) : (setLane s l x).loops = s.loops := rfl
@[simp] theorem setLane_pts (l : LaneNo) (x : Lane) : (setLane s l x).pts = s.pts := rfl
@[simp] theorem setLane_defSel (l : LaneNo) (x : Lane) : (setLane s l x).defSel = s.defSel := rfl
@[simp] theorem setLane_dayb (l : LaneNo) (x : Lane) : (setLane s l x).dayb = s.dayb := rfl
@[simp] theorem setLane_eth (l : LaneNo) (x : Lane) : (setLane s l x).eth = s.eth := rfl
@[simp] theorem setLane_opx (l : LaneNo) (x : Lane) : (setLane s l x).opx = s.opx := rfl
@[simp] theorem setLane_bus (l : LaneNo) (x : Lane) : (setLane s l x).bus = s.bus := rfl
@[simp] theorem setLane_sf (l : LaneNo) (x : Lane) : (setLane s l x).sf = s.sf := rfl
@[simp] theorem setLane_fio (l : LaneNo) (x : Lane) : (setLane s l x).fio = s.fio := rfl
@[simp] theorem setLane_vault (l : LaneNo) (x : Lane) : (setLane s l x).vault = s.vault := rfl
@[simp] theorem setLane_wgh (l : LaneNo) (x : Lane) : (setLane s l x).wgh = s.wgh := rfl
@[simp] theorem setLane_fact (l : LaneNo) (x : Lane) : (setLane s l x).fact = s.fact := rfl
@[simp] theorem setLane_sgn (l : LaneNo) (x : Lane) : (setLane s l x).sgn = s.sgn := rfl
@[simp] theorem setLane_scrv (l : LaneNo) (x : Lane) : (setLane s l x).scrv = s.scrv := rfl
@[simp] theorem setLane_fltm (l : LaneNo) (x : Lane) : (setLane s l x).fltm = s.fltm := rfl
@[simp] theorem setLane_upd (l : LaneNo) (x : Lane) : (setLane s l x).upd = s.upd := rfl
@[simp] theorem setLane_pins (l : LaneNo) (x : Lane) : (setLane s l x).pins = s.pins := rfl
@[simp] theorem setLane_past (l : LaneNo) (x : Lane) : (setLane s l x).past = s.past := rfl
@[simp] theorem setLane_fresh (l : LaneNo) (x : Lane) : (setLane s l x).fresh = s.fresh := rfl
@[simp] theorem setLane_replies (l : LaneNo) (x : Lane) : (setLane s l x).replies = s.replies := rfl
@[simp] theorem setLane_free (l : LaneNo) (x : Lane) : (setLane s l x).free = s.free := rfl
@[simp] theorem setLane_pending (l : LaneNo) (x : Lane) : (setLane s l x).pending = s.pending := rfl

@[simp] theorem setLoop_clk (n : Nat) (x : LoopSt) : (setLoop s n x).clk = s.clk := rfl
@[simp] theorem setLoop_guard (n : Nat) (x : LoopSt) : (setLoop s n x).guard = s.guard := rfl
@[simp] theorem setLoop_regs (n : Nat) (x : LoopSt) : (setLoop s n x).regs = s.regs := rfl
@[simp] theorem setLoop_staged (n : Nat) (x : LoopSt) : (setLoop s n x).staged = s.staged := rfl
@[simp] theorem setLoop_latch (n : Nat) (x : LoopSt) : (setLoop s n x).latch = s.latch := rfl
@[simp] theorem setLoop_dram (n : Nat) (x : LoopSt) : (setLoop s n x).dram = s.dram := rfl
@[simp] theorem setLoop_toll (n : Nat) (x : LoopSt) : (setLoop s n x).toll = s.toll := rfl
@[simp] theorem setLoop_lac (n : Nat) (x : LoopSt) : (setLoop s n x).lac = s.lac := rfl
@[simp] theorem setLoop_loom (n : Nat) (x : LoopSt) : (setLoop s n x).loom = s.loom := rfl
@[simp] theorem setLoop_pts (n : Nat) (x : LoopSt) : (setLoop s n x).pts = s.pts := rfl
@[simp] theorem setLoop_defSel (n : Nat) (x : LoopSt) : (setLoop s n x).defSel = s.defSel := rfl
@[simp] theorem setLoop_dayb (n : Nat) (x : LoopSt) : (setLoop s n x).dayb = s.dayb := rfl
@[simp] theorem setLoop_eth (n : Nat) (x : LoopSt) : (setLoop s n x).eth = s.eth := rfl
@[simp] theorem setLoop_opx (n : Nat) (x : LoopSt) : (setLoop s n x).opx = s.opx := rfl
@[simp] theorem setLoop_bus (n : Nat) (x : LoopSt) : (setLoop s n x).bus = s.bus := rfl
@[simp] theorem setLoop_sf (n : Nat) (x : LoopSt) : (setLoop s n x).sf = s.sf := rfl
@[simp] theorem setLoop_fio (n : Nat) (x : LoopSt) : (setLoop s n x).fio = s.fio := rfl
@[simp] theorem setLoop_vault (n : Nat) (x : LoopSt) : (setLoop s n x).vault = s.vault := rfl
@[simp] theorem setLoop_wgh (n : Nat) (x : LoopSt) : (setLoop s n x).wgh = s.wgh := rfl
@[simp] theorem setLoop_fact (n : Nat) (x : LoopSt) : (setLoop s n x).fact = s.fact := rfl
@[simp] theorem setLoop_sgn (n : Nat) (x : LoopSt) : (setLoop s n x).sgn = s.sgn := rfl
@[simp] theorem setLoop_scrv (n : Nat) (x : LoopSt) : (setLoop s n x).scrv = s.scrv := rfl
@[simp] theorem setLoop_fltm (n : Nat) (x : LoopSt) : (setLoop s n x).fltm = s.fltm := rfl
@[simp] theorem setLoop_upd (n : Nat) (x : LoopSt) : (setLoop s n x).upd = s.upd := rfl
@[simp] theorem setLoop_pins (n : Nat) (x : LoopSt) : (setLoop s n x).pins = s.pins := rfl
@[simp] theorem setLoop_past (n : Nat) (x : LoopSt) : (setLoop s n x).past = s.past := rfl
@[simp] theorem setLoop_fresh (n : Nat) (x : LoopSt) : (setLoop s n x).fresh = s.fresh := rfl
@[simp] theorem setLoop_replies (n : Nat) (x : LoopSt) : (setLoop s n x).replies = s.replies := rfl
@[simp] theorem setLoop_free (n : Nat) (x : LoopSt) : (setLoop s n x).free = s.free := rfl
@[simp] theorem setLoop_pending (n : Nat) (x : LoopSt) : (setLoop s n x).pending = s.pending := rfl

@[simp] theorem setSess_clk (n : Nat) (x : Session) : (setSess s n x).clk = s.clk := rfl
@[simp] theorem setSess_guard (n : Nat) (x : Session) : (setSess s n x).guard = s.guard := rfl
@[simp] theorem setSess_regs (n : Nat) (x : Session) : (setSess s n x).regs = s.regs := rfl
@[simp] theorem setSess_staged (n : Nat) (x : Session) : (setSess s n x).staged = s.staged := rfl
@[simp] theorem setSess_latch (n : Nat) (x : Session) : (setSess s n x).latch = s.latch := rfl
@[simp] theorem setSess_dram (n : Nat) (x : Session) : (setSess s n x).dram = s.dram := rfl
@[simp] theorem setSess_toll (n : Nat) (x : Session) : (setSess s n x).toll = s.toll := rfl
@[simp] theorem setSess_lac (n : Nat) (x : Session) : (setSess s n x).lac = s.lac := rfl
@[simp] theorem setSess_loom (n : Nat) (x : Session) : (setSess s n x).loom = s.loom := rfl
@[simp] theorem setSess_loops (n : Nat) (x : Session) : (setSess s n x).loops = s.loops := rfl
@[simp] theorem setSess_pts (n : Nat) (x : Session) : (setSess s n x).pts = s.pts := rfl
@[simp] theorem setSess_defSel (n : Nat) (x : Session) : (setSess s n x).defSel = s.defSel := rfl
@[simp] theorem setSess_dayb (n : Nat) (x : Session) : (setSess s n x).dayb = s.dayb := rfl
@[simp] theorem setSess_eth (n : Nat) (x : Session) : (setSess s n x).eth = s.eth := rfl
@[simp] theorem setSess_bus (n : Nat) (x : Session) : (setSess s n x).bus = s.bus := rfl
@[simp] theorem setSess_sf (n : Nat) (x : Session) : (setSess s n x).sf = s.sf := rfl
@[simp] theorem setSess_fio (n : Nat) (x : Session) : (setSess s n x).fio = s.fio := rfl
@[simp] theorem setSess_vault (n : Nat) (x : Session) : (setSess s n x).vault = s.vault := rfl
@[simp] theorem setSess_wgh (n : Nat) (x : Session) : (setSess s n x).wgh = s.wgh := rfl
@[simp] theorem setSess_fact (n : Nat) (x : Session) : (setSess s n x).fact = s.fact := rfl
@[simp] theorem setSess_sgn (n : Nat) (x : Session) : (setSess s n x).sgn = s.sgn := rfl
@[simp] theorem setSess_scrv (n : Nat) (x : Session) : (setSess s n x).scrv = s.scrv := rfl
@[simp] theorem setSess_fltm (n : Nat) (x : Session) : (setSess s n x).fltm = s.fltm := rfl
@[simp] theorem setSess_upd (n : Nat) (x : Session) : (setSess s n x).upd = s.upd := rfl
@[simp] theorem setSess_pins (n : Nat) (x : Session) : (setSess s n x).pins = s.pins := rfl
@[simp] theorem setSess_past (n : Nat) (x : Session) : (setSess s n x).past = s.past := rfl
@[simp] theorem setSess_fresh (n : Nat) (x : Session) : (setSess s n x).fresh = s.fresh := rfl
@[simp] theorem setSess_replies (n : Nat) (x : Session) : (setSess s n x).replies = s.replies := rfl
@[simp] theorem setSess_free (n : Nat) (x : Session) : (setSess s n x).free = s.free := rfl
@[simp] theorem setSess_pending (n : Nat) (x : Session) : (setSess s n x).pending = s.pending := rfl

@[simp] theorem setPoint_clk (i : Nat) (x : Point) : (setPoint s i x).clk = s.clk := rfl
@[simp] theorem setPoint_guard (i : Nat) (x : Point) : (setPoint s i x).guard = s.guard := rfl
@[simp] theorem setPoint_regs (i : Nat) (x : Point) : (setPoint s i x).regs = s.regs := rfl
@[simp] theorem setPoint_staged (i : Nat) (x : Point) : (setPoint s i x).staged = s.staged := rfl
@[simp] theorem setPoint_latch (i : Nat) (x : Point) : (setPoint s i x).latch = s.latch := rfl
@[simp] theorem setPoint_dram (i : Nat) (x : Point) : (setPoint s i x).dram = s.dram := rfl
@[simp] theorem setPoint_toll (i : Nat) (x : Point) : (setPoint s i x).toll = s.toll := rfl
@[simp] theorem setPoint_lac (i : Nat) (x : Point) : (setPoint s i x).lac = s.lac := rfl
@[simp] theorem setPoint_loom (i : Nat) (x : Point) : (setPoint s i x).loom = s.loom := rfl
@[simp] theorem setPoint_loops (i : Nat) (x : Point) : (setPoint s i x).loops = s.loops := rfl
@[simp] theorem setPoint_defSel (i : Nat) (x : Point) : (setPoint s i x).defSel = s.defSel := rfl
@[simp] theorem setPoint_dayb (i : Nat) (x : Point) : (setPoint s i x).dayb = s.dayb := rfl
@[simp] theorem setPoint_eth (i : Nat) (x : Point) : (setPoint s i x).eth = s.eth := rfl
@[simp] theorem setPoint_opx (i : Nat) (x : Point) : (setPoint s i x).opx = s.opx := rfl
@[simp] theorem setPoint_bus (i : Nat) (x : Point) : (setPoint s i x).bus = s.bus := rfl
@[simp] theorem setPoint_sf (i : Nat) (x : Point) : (setPoint s i x).sf = s.sf := rfl
@[simp] theorem setPoint_fio (i : Nat) (x : Point) : (setPoint s i x).fio = s.fio := rfl
@[simp] theorem setPoint_vault (i : Nat) (x : Point) : (setPoint s i x).vault = s.vault := rfl
@[simp] theorem setPoint_wgh (i : Nat) (x : Point) : (setPoint s i x).wgh = s.wgh := rfl
@[simp] theorem setPoint_fact (i : Nat) (x : Point) : (setPoint s i x).fact = s.fact := rfl
@[simp] theorem setPoint_sgn (i : Nat) (x : Point) : (setPoint s i x).sgn = s.sgn := rfl
@[simp] theorem setPoint_scrv (i : Nat) (x : Point) : (setPoint s i x).scrv = s.scrv := rfl
@[simp] theorem setPoint_fltm (i : Nat) (x : Point) : (setPoint s i x).fltm = s.fltm := rfl
@[simp] theorem setPoint_upd (i : Nat) (x : Point) : (setPoint s i x).upd = s.upd := rfl
@[simp] theorem setPoint_pins (i : Nat) (x : Point) : (setPoint s i x).pins = s.pins := rfl
@[simp] theorem setPoint_past (i : Nat) (x : Point) : (setPoint s i x).past = s.past := rfl
@[simp] theorem setPoint_fresh (i : Nat) (x : Point) : (setPoint s i x).fresh = s.fresh := rfl
@[simp] theorem setPoint_replies (i : Nat) (x : Point) : (setPoint s i x).replies = s.replies := rfl
@[simp] theorem setPoint_free (i : Nat) (x : Point) : (setPoint s i x).free = s.free := rfl
@[simp] theorem setPoint_pending (i : Nat) (x : Point) : (setPoint s i x).pending = s.pending := rfl

@[simp] theorem setSlot_clk (n : Nat) (x : KeySlot) : (setSlot s n x).clk = s.clk := rfl
@[simp] theorem setSlot_guard (n : Nat) (x : KeySlot) : (setSlot s n x).guard = s.guard := rfl
@[simp] theorem setSlot_regs (n : Nat) (x : KeySlot) : (setSlot s n x).regs = s.regs := rfl
@[simp] theorem setSlot_staged (n : Nat) (x : KeySlot) : (setSlot s n x).staged = s.staged := rfl
@[simp] theorem setSlot_latch (n : Nat) (x : KeySlot) : (setSlot s n x).latch = s.latch := rfl
@[simp] theorem setSlot_dram (n : Nat) (x : KeySlot) : (setSlot s n x).dram = s.dram := rfl
@[simp] theorem setSlot_toll (n : Nat) (x : KeySlot) : (setSlot s n x).toll = s.toll := rfl
@[simp] theorem setSlot_lac (n : Nat) (x : KeySlot) : (setSlot s n x).lac = s.lac := rfl
@[simp] theorem setSlot_loom (n : Nat) (x : KeySlot) : (setSlot s n x).loom = s.loom := rfl
@[simp] theorem setSlot_loops (n : Nat) (x : KeySlot) : (setSlot s n x).loops = s.loops := rfl
@[simp] theorem setSlot_pts (n : Nat) (x : KeySlot) : (setSlot s n x).pts = s.pts := rfl
@[simp] theorem setSlot_defSel (n : Nat) (x : KeySlot) : (setSlot s n x).defSel = s.defSel := rfl
@[simp] theorem setSlot_dayb (n : Nat) (x : KeySlot) : (setSlot s n x).dayb = s.dayb := rfl
@[simp] theorem setSlot_eth (n : Nat) (x : KeySlot) : (setSlot s n x).eth = s.eth := rfl
@[simp] theorem setSlot_opx (n : Nat) (x : KeySlot) : (setSlot s n x).opx = s.opx := rfl
@[simp] theorem setSlot_bus (n : Nat) (x : KeySlot) : (setSlot s n x).bus = s.bus := rfl
@[simp] theorem setSlot_sf (n : Nat) (x : KeySlot) : (setSlot s n x).sf = s.sf := rfl
@[simp] theorem setSlot_fio (n : Nat) (x : KeySlot) : (setSlot s n x).fio = s.fio := rfl
@[simp] theorem setSlot_wgh (n : Nat) (x : KeySlot) : (setSlot s n x).wgh = s.wgh := rfl
@[simp] theorem setSlot_fact (n : Nat) (x : KeySlot) : (setSlot s n x).fact = s.fact := rfl
@[simp] theorem setSlot_sgn (n : Nat) (x : KeySlot) : (setSlot s n x).sgn = s.sgn := rfl
@[simp] theorem setSlot_scrv (n : Nat) (x : KeySlot) : (setSlot s n x).scrv = s.scrv := rfl
@[simp] theorem setSlot_fltm (n : Nat) (x : KeySlot) : (setSlot s n x).fltm = s.fltm := rfl
@[simp] theorem setSlot_upd (n : Nat) (x : KeySlot) : (setSlot s n x).upd = s.upd := rfl
@[simp] theorem setSlot_pins (n : Nat) (x : KeySlot) : (setSlot s n x).pins = s.pins := rfl
@[simp] theorem setSlot_past (n : Nat) (x : KeySlot) : (setSlot s n x).past = s.past := rfl
@[simp] theorem setSlot_fresh (n : Nat) (x : KeySlot) : (setSlot s n x).fresh = s.fresh := rfl
@[simp] theorem setSlot_replies (n : Nat) (x : KeySlot) : (setSlot s n x).replies = s.replies := rfl
@[simp] theorem setSlot_free (n : Nat) (x : KeySlot) : (setSlot s n x).free = s.free := rfl
@[simp] theorem setSlot_pending (n : Nat) (x : KeySlot) : (setSlot s n x).pending = s.pending := rfl

@[simp] theorem setChan_clk (c : Nat) (x : Chan) : (setChan s c x).clk = s.clk := rfl
@[simp] theorem setChan_guard (c : Nat) (x : Chan) : (setChan s c x).guard = s.guard := rfl
@[simp] theorem setChan_regs (c : Nat) (x : Chan) : (setChan s c x).regs = s.regs := rfl
@[simp] theorem setChan_staged (c : Nat) (x : Chan) : (setChan s c x).staged = s.staged := rfl
@[simp] theorem setChan_latch (c : Nat) (x : Chan) : (setChan s c x).latch = s.latch := rfl
@[simp] theorem setChan_dram (c : Nat) (x : Chan) : (setChan s c x).dram = s.dram := rfl
@[simp] theorem setChan_toll (c : Nat) (x : Chan) : (setChan s c x).toll = s.toll := rfl
@[simp] theorem setChan_lac (c : Nat) (x : Chan) : (setChan s c x).lac = s.lac := rfl
@[simp] theorem setChan_loom (c : Nat) (x : Chan) : (setChan s c x).loom = s.loom := rfl
@[simp] theorem setChan_loops (c : Nat) (x : Chan) : (setChan s c x).loops = s.loops := rfl
@[simp] theorem setChan_pts (c : Nat) (x : Chan) : (setChan s c x).pts = s.pts := rfl
@[simp] theorem setChan_defSel (c : Nat) (x : Chan) : (setChan s c x).defSel = s.defSel := rfl
@[simp] theorem setChan_dayb (c : Nat) (x : Chan) : (setChan s c x).dayb = s.dayb := rfl
@[simp] theorem setChan_eth (c : Nat) (x : Chan) : (setChan s c x).eth = s.eth := rfl
@[simp] theorem setChan_opx (c : Nat) (x : Chan) : (setChan s c x).opx = s.opx := rfl
@[simp] theorem setChan_bus (c : Nat) (x : Chan) : (setChan s c x).bus = s.bus := rfl
@[simp] theorem setChan_sf (c : Nat) (x : Chan) : (setChan s c x).sf = s.sf := rfl
@[simp] theorem setChan_fio (c : Nat) (x : Chan) : (setChan s c x).fio = s.fio := rfl
@[simp] theorem setChan_vault (c : Nat) (x : Chan) : (setChan s c x).vault = s.vault := rfl
@[simp] theorem setChan_fact (c : Nat) (x : Chan) : (setChan s c x).fact = s.fact := rfl
@[simp] theorem setChan_sgn (c : Nat) (x : Chan) : (setChan s c x).sgn = s.sgn := rfl
@[simp] theorem setChan_scrv (c : Nat) (x : Chan) : (setChan s c x).scrv = s.scrv := rfl
@[simp] theorem setChan_fltm (c : Nat) (x : Chan) : (setChan s c x).fltm = s.fltm := rfl
@[simp] theorem setChan_upd (c : Nat) (x : Chan) : (setChan s c x).upd = s.upd := rfl
@[simp] theorem setChan_pins (c : Nat) (x : Chan) : (setChan s c x).pins = s.pins := rfl
@[simp] theorem setChan_past (c : Nat) (x : Chan) : (setChan s c x).past = s.past := rfl
@[simp] theorem setChan_fresh (c : Nat) (x : Chan) : (setChan s c x).fresh = s.fresh := rfl
@[simp] theorem setChan_replies (c : Nat) (x : Chan) : (setChan s c x).replies = s.replies := rfl
@[simp] theorem setChan_free (c : Nat) (x : Chan) : (setChan s c x).free = s.free := rfl
@[simp] theorem setChan_pending (c : Nat) (x : Chan) : (setChan s c x).pending = s.pending := rfl

@[simp] theorem setSgn_clk (g : Sgn) : (setSgn s g).clk = s.clk := rfl
@[simp] theorem setSgn_guard (g : Sgn) : (setSgn s g).guard = s.guard := rfl
@[simp] theorem setSgn_regs (g : Sgn) : (setSgn s g).regs = s.regs := rfl
@[simp] theorem setSgn_staged (g : Sgn) : (setSgn s g).staged = s.staged := rfl
@[simp] theorem setSgn_latch (g : Sgn) : (setSgn s g).latch = s.latch := rfl
@[simp] theorem setSgn_dram (g : Sgn) : (setSgn s g).dram = s.dram := rfl
@[simp] theorem setSgn_toll (g : Sgn) : (setSgn s g).toll = s.toll := rfl
@[simp] theorem setSgn_lac (g : Sgn) : (setSgn s g).lac = s.lac := rfl
@[simp] theorem setSgn_loom (g : Sgn) : (setSgn s g).loom = s.loom := rfl
@[simp] theorem setSgn_loops (g : Sgn) : (setSgn s g).loops = s.loops := rfl
@[simp] theorem setSgn_pts (g : Sgn) : (setSgn s g).pts = s.pts := rfl
@[simp] theorem setSgn_defSel (g : Sgn) : (setSgn s g).defSel = s.defSel := rfl
@[simp] theorem setSgn_dayb (g : Sgn) : (setSgn s g).dayb = s.dayb := rfl
@[simp] theorem setSgn_eth (g : Sgn) : (setSgn s g).eth = s.eth := rfl
@[simp] theorem setSgn_opx (g : Sgn) : (setSgn s g).opx = s.opx := rfl
@[simp] theorem setSgn_bus (g : Sgn) : (setSgn s g).bus = s.bus := rfl
@[simp] theorem setSgn_sf (g : Sgn) : (setSgn s g).sf = s.sf := rfl
@[simp] theorem setSgn_fio (g : Sgn) : (setSgn s g).fio = s.fio := rfl
@[simp] theorem setSgn_vault (g : Sgn) : (setSgn s g).vault = s.vault := rfl
@[simp] theorem setSgn_wgh (g : Sgn) : (setSgn s g).wgh = s.wgh := rfl
@[simp] theorem setSgn_fact (g : Sgn) : (setSgn s g).fact = s.fact := rfl
@[simp] theorem setSgn_scrv (g : Sgn) : (setSgn s g).scrv = s.scrv := rfl
@[simp] theorem setSgn_fltm (g : Sgn) : (setSgn s g).fltm = s.fltm := rfl
@[simp] theorem setSgn_upd (g : Sgn) : (setSgn s g).upd = s.upd := rfl
@[simp] theorem setSgn_pins (g : Sgn) : (setSgn s g).pins = s.pins := rfl
@[simp] theorem setSgn_past (g : Sgn) : (setSgn s g).past = s.past := rfl
@[simp] theorem setSgn_fresh (g : Sgn) : (setSgn s g).fresh = s.fresh := rfl
@[simp] theorem setSgn_replies (g : Sgn) : (setSgn s g).replies = s.replies := rfl
@[simp] theorem setSgn_free (g : Sgn) : (setSgn s g).free = s.free := rfl
@[simp] theorem setSgn_pending (g : Sgn) : (setSgn s g).pending = s.pending := rfl

@[simp] theorem notePast_clk (kind idx sub ord : Nat) (old : Slot) : (notePast s kind idx sub ord old).clk = s.clk := rfl
@[simp] theorem notePast_guard (kind idx sub ord : Nat) (old : Slot) : (notePast s kind idx sub ord old).guard = s.guard := rfl
@[simp] theorem notePast_regs (kind idx sub ord : Nat) (old : Slot) : (notePast s kind idx sub ord old).regs = s.regs := rfl
@[simp] theorem notePast_staged (kind idx sub ord : Nat) (old : Slot) : (notePast s kind idx sub ord old).staged = s.staged := rfl
@[simp] theorem notePast_latch (kind idx sub ord : Nat) (old : Slot) : (notePast s kind idx sub ord old).latch = s.latch := rfl
@[simp] theorem notePast_dram (kind idx sub ord : Nat) (old : Slot) : (notePast s kind idx sub ord old).dram = s.dram := rfl
@[simp] theorem notePast_toll (kind idx sub ord : Nat) (old : Slot) : (notePast s kind idx sub ord old).toll = s.toll := rfl
@[simp] theorem notePast_lac (kind idx sub ord : Nat) (old : Slot) : (notePast s kind idx sub ord old).lac = s.lac := rfl
@[simp] theorem notePast_loom (kind idx sub ord : Nat) (old : Slot) : (notePast s kind idx sub ord old).loom = s.loom := rfl
@[simp] theorem notePast_loops (kind idx sub ord : Nat) (old : Slot) : (notePast s kind idx sub ord old).loops = s.loops := rfl
@[simp] theorem notePast_pts (kind idx sub ord : Nat) (old : Slot) : (notePast s kind idx sub ord old).pts = s.pts := rfl
@[simp] theorem notePast_defSel (kind idx sub ord : Nat) (old : Slot) : (notePast s kind idx sub ord old).defSel = s.defSel := rfl
@[simp] theorem notePast_dayb (kind idx sub ord : Nat) (old : Slot) : (notePast s kind idx sub ord old).dayb = s.dayb := rfl
@[simp] theorem notePast_eth (kind idx sub ord : Nat) (old : Slot) : (notePast s kind idx sub ord old).eth = s.eth := rfl
@[simp] theorem notePast_opx (kind idx sub ord : Nat) (old : Slot) : (notePast s kind idx sub ord old).opx = s.opx := rfl
@[simp] theorem notePast_bus (kind idx sub ord : Nat) (old : Slot) : (notePast s kind idx sub ord old).bus = s.bus := rfl
@[simp] theorem notePast_sf (kind idx sub ord : Nat) (old : Slot) : (notePast s kind idx sub ord old).sf = s.sf := rfl
@[simp] theorem notePast_fio (kind idx sub ord : Nat) (old : Slot) : (notePast s kind idx sub ord old).fio = s.fio := rfl
@[simp] theorem notePast_vault (kind idx sub ord : Nat) (old : Slot) : (notePast s kind idx sub ord old).vault = s.vault := rfl
@[simp] theorem notePast_wgh (kind idx sub ord : Nat) (old : Slot) : (notePast s kind idx sub ord old).wgh = s.wgh := rfl
@[simp] theorem notePast_fact (kind idx sub ord : Nat) (old : Slot) : (notePast s kind idx sub ord old).fact = s.fact := rfl
@[simp] theorem notePast_sgn (kind idx sub ord : Nat) (old : Slot) : (notePast s kind idx sub ord old).sgn = s.sgn := rfl
@[simp] theorem notePast_scrv (kind idx sub ord : Nat) (old : Slot) : (notePast s kind idx sub ord old).scrv = s.scrv := rfl
@[simp] theorem notePast_fltm (kind idx sub ord : Nat) (old : Slot) : (notePast s kind idx sub ord old).fltm = s.fltm := rfl
@[simp] theorem notePast_upd (kind idx sub ord : Nat) (old : Slot) : (notePast s kind idx sub ord old).upd = s.upd := rfl
@[simp] theorem notePast_pins (kind idx sub ord : Nat) (old : Slot) : (notePast s kind idx sub ord old).pins = s.pins := rfl
@[simp] theorem notePast_fresh (kind idx sub ord : Nat) (old : Slot) : (notePast s kind idx sub ord old).fresh = s.fresh := rfl
@[simp] theorem notePast_replies (kind idx sub ord : Nat) (old : Slot) : (notePast s kind idx sub ord old).replies = s.replies := rfl
@[simp] theorem notePast_free (kind idx sub ord : Nat) (old : Slot) : (notePast s kind idx sub ord old).free = s.free := rfl
@[simp] theorem notePast_pending (kind idx sub ord : Nat) (old : Slot) : (notePast s kind idx sub ord old).pending = s.pending := rfl

@[simp] theorem refSample_clk (c : Nat) : (refSample s c).clk = s.clk := by unfold refSample; split <;> rfl
@[simp] theorem refSample_guard (c : Nat) : (refSample s c).guard = s.guard := by unfold refSample; split <;> rfl
@[simp] theorem refSample_regs (c : Nat) : (refSample s c).regs = s.regs := by unfold refSample; split <;> rfl
@[simp] theorem refSample_staged (c : Nat) : (refSample s c).staged = s.staged := by unfold refSample; split <;> rfl
@[simp] theorem refSample_latch (c : Nat) : (refSample s c).latch = s.latch := by unfold refSample; split <;> rfl
@[simp] theorem refSample_dram (c : Nat) : (refSample s c).dram = s.dram := by unfold refSample; split <;> rfl
@[simp] theorem refSample_toll (c : Nat) : (refSample s c).toll = s.toll := by unfold refSample; split <;> rfl
@[simp] theorem refSample_loom (c : Nat) : (refSample s c).loom = s.loom := by unfold refSample; split <;> rfl
@[simp] theorem refSample_loops (c : Nat) : (refSample s c).loops = s.loops := by unfold refSample; split <;> rfl
@[simp] theorem refSample_pts (c : Nat) : (refSample s c).pts = s.pts := by unfold refSample; split <;> rfl
@[simp] theorem refSample_defSel (c : Nat) : (refSample s c).defSel = s.defSel := by unfold refSample; split <;> rfl
@[simp] theorem refSample_dayb (c : Nat) : (refSample s c).dayb = s.dayb := by unfold refSample; split <;> rfl
@[simp] theorem refSample_eth (c : Nat) : (refSample s c).eth = s.eth := by unfold refSample; split <;> rfl
@[simp] theorem refSample_opx (c : Nat) : (refSample s c).opx = s.opx := by unfold refSample; split <;> rfl
@[simp] theorem refSample_bus (c : Nat) : (refSample s c).bus = s.bus := by unfold refSample; split <;> rfl
@[simp] theorem refSample_sf (c : Nat) : (refSample s c).sf = s.sf := by unfold refSample; split <;> rfl
@[simp] theorem refSample_fio (c : Nat) : (refSample s c).fio = s.fio := by unfold refSample; split <;> rfl
@[simp] theorem refSample_vault (c : Nat) : (refSample s c).vault = s.vault := by unfold refSample; split <;> rfl
@[simp] theorem refSample_wgh (c : Nat) : (refSample s c).wgh = s.wgh := by unfold refSample; split <;> rfl
@[simp] theorem refSample_fact (c : Nat) : (refSample s c).fact = s.fact := by unfold refSample; split <;> rfl
@[simp] theorem refSample_sgn (c : Nat) : (refSample s c).sgn = s.sgn := by unfold refSample; split <;> rfl
@[simp] theorem refSample_scrv (c : Nat) : (refSample s c).scrv = s.scrv := by unfold refSample; split <;> rfl
@[simp] theorem refSample_fltm (c : Nat) : (refSample s c).fltm = s.fltm := by unfold refSample; split <;> rfl
@[simp] theorem refSample_upd (c : Nat) : (refSample s c).upd = s.upd := by unfold refSample; split <;> rfl
@[simp] theorem refSample_pins (c : Nat) : (refSample s c).pins = s.pins := by unfold refSample; split <;> rfl
@[simp] theorem refSample_past (c : Nat) : (refSample s c).past = s.past := by unfold refSample; split <;> rfl
@[simp] theorem refSample_fresh (c : Nat) : (refSample s c).fresh = s.fresh := by unfold refSample; split <;> rfl
@[simp] theorem refSample_replies (c : Nat) : (refSample s c).replies = s.replies := by unfold refSample; split <;> rfl
@[simp] theorem refSample_pending (c : Nat) : (refSample s c).pending = s.pending := by unfold refSample; split <;> rfl

@[simp] theorem reachPos_guard (pos : Nat) : (reachPos s pos).guard = s.guard := withClk_guard s _
@[simp] theorem reachPos_regs (pos : Nat) : (reachPos s pos).regs = s.regs := withClk_regs s _
@[simp] theorem reachPos_staged (pos : Nat) : (reachPos s pos).staged = s.staged := withClk_staged s _
@[simp] theorem reachPos_latch (pos : Nat) : (reachPos s pos).latch = s.latch := withClk_latch s _
@[simp] theorem reachPos_dram (pos : Nat) : (reachPos s pos).dram = s.dram := withClk_dram s _
@[simp] theorem reachPos_toll (pos : Nat) : (reachPos s pos).toll = s.toll := withClk_toll s _
@[simp] theorem reachPos_lac (pos : Nat) : (reachPos s pos).lac = s.lac := withClk_lac s _
@[simp] theorem reachPos_loom (pos : Nat) : (reachPos s pos).loom = s.loom := withClk_loom s _
@[simp] theorem reachPos_loops (pos : Nat) : (reachPos s pos).loops = s.loops := withClk_loops s _
@[simp] theorem reachPos_pts (pos : Nat) : (reachPos s pos).pts = s.pts := withClk_pts s _
@[simp] theorem reachPos_defSel (pos : Nat) : (reachPos s pos).defSel = s.defSel := withClk_defSel s _
@[simp] theorem reachPos_dayb (pos : Nat) : (reachPos s pos).dayb = s.dayb := withClk_dayb s _
@[simp] theorem reachPos_eth (pos : Nat) : (reachPos s pos).eth = s.eth := withClk_eth s _
@[simp] theorem reachPos_opx (pos : Nat) : (reachPos s pos).opx = s.opx := withClk_opx s _
@[simp] theorem reachPos_bus (pos : Nat) : (reachPos s pos).bus = s.bus := withClk_bus s _
@[simp] theorem reachPos_sf (pos : Nat) : (reachPos s pos).sf = s.sf := withClk_sf s _
@[simp] theorem reachPos_fio (pos : Nat) : (reachPos s pos).fio = s.fio := withClk_fio s _
@[simp] theorem reachPos_vault (pos : Nat) : (reachPos s pos).vault = s.vault := withClk_vault s _
@[simp] theorem reachPos_wgh (pos : Nat) : (reachPos s pos).wgh = s.wgh := withClk_wgh s _
@[simp] theorem reachPos_fact (pos : Nat) : (reachPos s pos).fact = s.fact := withClk_fact s _
@[simp] theorem reachPos_sgn (pos : Nat) : (reachPos s pos).sgn = s.sgn := withClk_sgn s _
@[simp] theorem reachPos_scrv (pos : Nat) : (reachPos s pos).scrv = s.scrv := withClk_scrv s _
@[simp] theorem reachPos_fltm (pos : Nat) : (reachPos s pos).fltm = s.fltm := withClk_fltm s _
@[simp] theorem reachPos_upd (pos : Nat) : (reachPos s pos).upd = s.upd := withClk_upd s _
@[simp] theorem reachPos_pins (pos : Nat) : (reachPos s pos).pins = s.pins := withClk_pins s _
@[simp] theorem reachPos_past (pos : Nat) : (reachPos s pos).past = s.past := withClk_past s _
@[simp] theorem reachPos_fresh (pos : Nat) : (reachPos s pos).fresh = s.fresh := withClk_fresh s _
@[simp] theorem reachPos_replies (pos : Nat) : (reachPos s pos).replies = s.replies := withClk_replies s _
@[simp] theorem reachPos_free (pos : Nat) : (reachPos s pos).free = s.free := withClk_free s _
@[simp] theorem reachPos_pending (pos : Nat) : (reachPos s pos).pending = s.pending := withClk_pending s _

end Sys2Proof.Laws
end

