-- ==== Sys2Proof/Laws/Regs.lean ====
section
/-!
SUPPORT. Registers and their fields: a register reads as last written, every other one as before, and a field replaced
leaves the fields beside it.
-/

namespace Sys2Proof.Laws

open Sys2Proof.Machine

/-! ### Fields of a word -/

/-- Cutting a number at two places: the field between them, what is above and what is below. -/
theorem cut (x lo n : Nat) : x = x / 2 ^ (lo + n) * 2 ^ (lo + n) + x / 2 ^ lo % 2 ^ n * 2 ^ lo + x % 2 ^ lo := by
  have h1 := Nat.div_add_mod x (2 ^ lo)
  have h2 := Nat.div_add_mod (x / 2 ^ lo) (2 ^ n)
  rw [Nat.div_div_eq_div_mul, ← pow_add] at h2
  calc x = 2 ^ lo * (x / 2 ^ lo) + x % 2 ^ lo := h1.symm
    _ = 2 ^ lo * (2 ^ n * (x / 2 ^ (lo + n)) + x / 2 ^ lo % 2 ^ n) + x % 2 ^ lo := by rw [h2]
    _ = _ := by rw [pow_add]; ring

/-- What `setFld` makes of a word, as a number. -/
theorem setFld_toNat (w : Word) {lo n : Nat} (v : Nat) (h : lo + n ≤ 32) :
    (setFld w lo n v).toNat =
      w.toNat / 2 ^ (lo + n) * 2 ^ (lo + n) + v % 2 ^ n * 2 ^ lo + w.toNat % 2 ^ lo := by
  have hc := cut w.toNat lo n
  have hv : v % 2 ^ n < 2 ^ n := Nat.mod_lt _ (by positivity)
  have hl : w.toNat % 2 ^ lo < 2 ^ lo := Nat.mod_lt _ (by positivity)
  have hw : w.toNat < 2 ^ 32 := w.isLt
  have hq : w.toNat / 2 ^ (lo + n) < 2 ^ (32 - (lo + n)) := by
    rw [Nat.div_lt_iff_lt_mul (by positivity), ← pow_add]
    simpa [Nat.sub_add_cancel h] using hw
  have hp : (2 : Nat) ^ 32 = 2 ^ (32 - (lo + n)) * 2 ^ (lo + n) := by
    rw [← pow_add, Nat.sub_add_cancel h]
  have hs : (2 : Nat) ^ (lo + n) = 2 ^ n * 2 ^ lo := by rw [pow_add]; ring
  unfold setFld fld
  rw [BitVec.toNat_ofNat]
  have e : w.toNat - w.toNat / 2 ^ lo % 2 ^ n * 2 ^ lo + v % 2 ^ n * 2 ^ lo =
      w.toNat / 2 ^ (lo + n) * 2 ^ (lo + n) + v % 2 ^ n * 2 ^ lo + w.toNat % 2 ^ lo := by omega
  rw [e]
  apply Nat.mod_eq_of_lt
  have h3 : v % 2 ^ n * 2 ^ lo + w.toNat % 2 ^ lo < 2 ^ (lo + n) := by
    rw [hs]
    calc v % 2 ^ n * 2 ^ lo + w.toNat % 2 ^ lo < v % 2 ^ n * 2 ^ lo + 2 ^ lo := by omega
      _ = (v % 2 ^ n + 1) * 2 ^ lo := by ring
      _ ≤ 2 ^ n * 2 ^ lo := Nat.mul_le_mul_right _ hv
  have h4 : (w.toNat / 2 ^ (lo + n) + 1) * 2 ^ (lo + n) ≤ 2 ^ (32 - (lo + n)) * 2 ^ (lo + n) :=
    Nat.mul_le_mul_right _ hq
  have h5 : (w.toNat / 2 ^ (lo + n) + 1) * 2 ^ (lo + n) =
      w.toNat / 2 ^ (lo + n) * 2 ^ (lo + n) + 2 ^ (lo + n) := by ring
  omega

/-- A replaced field reads as what it was replaced with. -/
theorem fld_setFld_same (w : Word) {lo n : Nat} (v : Nat) (h : lo + n ≤ 32) :
    fld (setFld w lo n v) lo n = v % 2 ^ n := by
  have hl : w.toNat % 2 ^ lo < 2 ^ lo := Nat.mod_lt _ (by positivity)
  unfold fld
  rw [setFld_toNat w v h]
  have e : w.toNat / 2 ^ (lo + n) * 2 ^ (lo + n) + v % 2 ^ n * 2 ^ lo + w.toNat % 2 ^ lo =
      w.toNat % 2 ^ lo + 2 ^ lo * (w.toNat / 2 ^ (lo + n) * 2 ^ n + v % 2 ^ n) := by rw [pow_add]; ring
  rw [e, Nat.add_mul_div_left _ _ (by positivity), Nat.div_eq_of_lt hl, zero_add, Nat.add_comm,
    Nat.add_mul_mod_self_right, Nat.mod_mod]

/-- A field below a replaced one stands. -/
theorem fld_setFld_below (w : Word) {lo n l m : Nat} (v : Nat) (h : lo + n ≤ 32) (hb : l + m ≤ lo) :
    fld (setFld w lo n v) l m = fld w l m := by
  unfold fld
  rw [setFld_toNat w v h]
  have hd : (2 : Nat) ^ lo = 2 ^ (l + m) * 2 ^ (lo - (l + m)) := by rw [← pow_add]; congr 1; omega
  have key : ∀ x : Nat, x / 2 ^ l % 2 ^ m = x % 2 ^ (l + m) / 2 ^ l := by
    intro x; rw [pow_add, Nat.mod_mul_right_div_self]
  rw [key, key]
  congr 1
  have e : w.toNat / 2 ^ (lo + n) * 2 ^ (lo + n) + v % 2 ^ n * 2 ^ lo + w.toNat % 2 ^ lo =
      w.toNat % 2 ^ lo + 2 ^ (l + m) * (2 ^ (lo - (l + m)) * (w.toNat / 2 ^ (lo + n) * 2 ^ n + v % 2 ^ n)) := by
    rw [← mul_assoc, ← hd, pow_add]; ring
  rw [e, Nat.add_mul_mod_self_left, hd, Nat.mod_mul_right_mod]

/-- A field above a replaced one stands. -/
theorem fld_setFld_above (w : Word) {lo n l m : Nat} (v : Nat) (h : lo + n ≤ 32) (ha : lo + n ≤ l) :
    fld (setFld w lo n v) l m = fld w l m := by
  have hl : w.toNat % 2 ^ lo < 2 ^ lo := Nat.mod_lt _ (by positivity)
  have hv : v % 2 ^ n < 2 ^ n := Nat.mod_lt _ (by positivity)
  have hlow : v % 2 ^ n * 2 ^ lo + w.toNat % 2 ^ lo < 2 ^ (lo + n) := by
    rw [pow_add]
    calc v % 2 ^ n * 2 ^ lo + w.toNat % 2 ^ lo < v % 2 ^ n * 2 ^ lo + 2 ^ lo := by omega
      _ = (v % 2 ^ n + 1) * 2 ^ lo := by ring
      _ ≤ 2 ^ n * 2 ^ lo := Nat.mul_le_mul_right _ hv
      _ = 2 ^ lo * 2 ^ n := by ring
  unfold fld
  rw [setFld_toNat w v h]
  have hd : (2 : Nat) ^ l = 2 ^ (lo + n) * 2 ^ (l - (lo + n)) := by rw [← pow_add]; congr 1; omega
  have e : w.toNat / 2 ^ (lo + n) * 2 ^ (lo + n) + v % 2 ^ n * 2 ^ lo + w.toNat % 2 ^ lo =
      (v % 2 ^ n * 2 ^ lo + w.toNat % 2 ^ lo) + 2 ^ (lo + n) * (w.toNat / 2 ^ (lo + n)) := by ring
  rw [e, hd, ← Nat.div_div_eq_div_mul, ← Nat.div_div_eq_div_mul, Nat.add_mul_div_left _ _ (by positivity),
    Nat.div_eq_of_lt hlow, zero_add]

/-- A bit is a field of width 1. -/
theorem bit_eq_fld (w : Word) (i : Nat) : bit w i = (fld w i 1 == 1) := by simp [bit, fld]

/-! ### The register file -/

theorem rd_wr (s : State) (a b : Nat) (v : Word) : rd (wr s a v) b = if b = a then v else rd s b := by
  unfold rd wr
  split
  · rename_i h; subst h; simp
  · rename_i h; exact look_put_other _ _ _ _ h

/-- A register reads as last written. -/
@[simp] theorem rd_wr_same (s : State) (a : Nat) (v : Word) : rd (wr s a v) a = v := by simp [rd_wr]

/-- Every other register reads as before. -/
theorem rd_wr_other (s : State) {a b : Nat} (v : Word) (h : b ≠ a) : rd (wr s a v) b = rd s b := by simp [rd_wr, h]

/-- Registers read alike in states with the same register file. -/
theorem rd_congr {s t : State} (h : t.regs = s.regs) (a : Nat) : rd t a = rd s a := by unfold rd; rw [h]

theorem rd_wrF_same (s : State) {a lo n : Nat} (v : Nat) (h : lo + n ≤ 32) : rdF (wrF s a lo n v) a lo n = v % 2 ^ n := by
  unfold rdF wrF; rw [rd_wr_same]; exact fld_setFld_same _ _ h

theorem rd_wrF_other (s : State) {a b : Nat} (lo n v : Nat) (h : b ≠ a) : rd (wrF s a lo n v) b = rd s b :=
  rd_wr_other _ _ h

theorem rd_wrB_other (s : State) {a b : Nat} (i : Nat) (x : Bool) (h : b ≠ a) : rd (wrB s a i x) b = rd s b :=
  rd_wr_other _ _ h

theorem rdB_wrB_same (s : State) {a i : Nat} (x : Bool) (h : i < 32) : rdB (wrB s a i x) a i = x := by
  unfold rdB
  rw [bit_eq_fld]
  have := rd_wrF_same s (a := a) (lo := i) (n := 1) (b2n x) (by omega)
  unfold rdF at this
  unfold wrB
  rw [this]
  cases x <;> rfl

theorem rd_bump_other (s : State) {a b : Nat} (h : b ≠ a) : rd (bump s a) b = rd s b := rd_wr_other _ _ h
theorem rd_bumpBy_other (s : State) {a b : Nat} (k : Nat) (h : b ≠ a) : rd (bumpBy s a k) b = rd s b := rd_wr_other _ _ h
theorem rd_tally_other (s : State) {a b : Nat} (h : b ≠ a) : rd (tally s a) b = rd s b := rd_wr_other _ _ h
theorem rd_satF_other (s : State) {a b : Nat} (lo n k : Nat) (h : b ≠ a) : rd (satF s a lo n k) b = rd s b :=
  rd_wr_other _ _ h

/-- Sticky bits set read as set. -/
@[simp] theorem rd_setBits_same (s : State) (a : Nat) (v : Word) : rd (setBits s a v) a = rd s a ||| v := by
  simp [setBits]

/-- Sticky bits set change their register alone. -/
theorem rd_setBits_other (s : State) {a b : Nat} (v : Word) (h : b ≠ a) : rd (setBits s a v) b = rd s b := by
  unfold setBits
  exact rd_wr_other _ _ h

/-- Sticky bits cleared read 0, but for those that the same fabric cycle has set (R359, R361). -/
@[simp] theorem rd_clearBits_same (s : State) (a : Nat) (v : Word) :
    rd (clearBits s a v) a = rd s a &&& ~~~(v &&& ~~~(freshBits s a)) := by simp [clearBits]

theorem rd_clearBits_other (s : State) {a b : Nat} (v : Word) (h : b ≠ a) : rd (clearBits s a v) b = rd s b :=
  rd_wr_other _ _ h

/-- What a fabric cycle has set in its registers after sticky bits are set. -/
theorem freshOf_setBits (s : State) (a b : Nat) (v : Word) :
    freshOf (setBits s a v) b =
      if b = a then ((freshOf s a).1 ||| v, (freshOf s a).2 ||| (v &&& ~~~(rd s a))) else freshOf s b := by
  have e : freshOf (setBits s a v) b = look (0, 0) (put (0, 0) (if s.fresh.1 = s.clk.fabric then s.fresh.2 else []) a
      ((look (0, 0) (if s.fresh.1 = s.clk.fabric then s.fresh.2 else []) a).1 ||| v,
        (look (0, 0) (if s.fresh.1 = s.clk.fabric then s.fresh.2 else []) a).2 ||| (v &&& ~~~(rd s a)))) b := if_pos rfl
  rw [e]
  unfold freshOf
  by_cases hb : b = a
  · subst hb
    rw [look_put_same, if_pos rfl]
    split <;> rfl
  · rw [look_put_other _ _ _ _ hb, if_neg hb]
    split <;> rfl

/-- What a fabric cycle has set is noted of the register set alone. -/
theorem freshOf_setBits_other (s : State) {a b : Nat} (v : Word) (h : b ≠ a) : freshOf (setBits s a v) b = freshOf s b := by
  rw [freshOf_setBits, if_neg h]

/-- Bits that a fabric cycle has set stand among its fresh ones. -/
theorem freshBits_setBits_same (s : State) (a : Nat) (v : Word) :
    freshBits (setBits s a v) a = freshBits s a ||| v := by
  unfold freshBits
  rw [freshOf_setBits, if_pos rfl]

/-- An event of a page changes the page's event register alone. -/
theorem rd_ev_other (s : State) (p b : Nat) {a : Nat} (h : evtAddr p ≠ some a) : rd (ev s p b) a = rd s a := by
  unfold ev
  split
  · rename_i e he
    refine rd_setBits_other _ _ ?_
    rintro rfl
    exact h he
  · rfl

/-- An event of a page sets its bit in the page's event register. -/
theorem rd_ev_same (s : State) {p a : Nat} (b : Nat) (h : evtAddr p = some a) :
    rd (ev s p b) a = rd s a ||| w32 (2 ^ b) := by
  unfold ev
  rw [h]
  simp

theorem rd_evIf_other (c : Bool) (s : State) (p b : Nat) {a : Nat} (h : evtAddr p ≠ some a) :
    rd (evIf c s p b) a = rd s a := by
  cases c
  · rfl
  · exact rd_ev_other s p b h

/-! ### Updates elsewhere -/

@[simp] theorem rd_with_clk (s : State) (x : Clock) (a : Nat) : rd { s with clk := x } a = rd s a := rfl
@[simp] theorem rd_with_guard (s : State) (x : Guard) (a : Nat) : rd { s with guard := x } a = rd s a := rfl
@[simp] theorem rd_with_staged (s : State) (x : List (Nat × Word)) (a : Nat) : rd { s with staged := x } a = rd s a := rfl
@[simp] theorem rd_with_latch (s : State) (x : List (Nat × Word)) (a : Nat) : rd { s with latch := x } a = rd s a := rfl
@[simp] theorem rd_with_dram (s : State) (x : List Host.Cell) (a : Nat) : rd { s with dram := x } a = rd s a := rfl
@[simp] theorem rd_with_toll (s : State) (x : Toll) (a : Nat) : rd { s with toll := x } a = rd s a := rfl
@[simp] theorem rd_with_lac (s : State) (x : Lac) (a : Nat) : rd { s with lac := x } a = rd s a := rfl
@[simp] theorem rd_with_loom (s : State) (x : Loom) (a : Nat) : rd { s with loom := x } a = rd s a := rfl
@[simp] theorem rd_with_loops (s : State) (x : List (Nat × LoopSt)) (a : Nat) : rd { s with loops := x } a = rd s a := rfl
@[simp] theorem rd_with_pts (s : State) (x : List (Nat × Point)) (a : Nat) : rd { s with pts := x } a = rd s a := rfl
@[simp] theorem rd_with_defSel (s : State) (x : List (Nat × Nat)) (a : Nat) : rd { s with defSel := x } a = rd s a := rfl
@[simp] theorem rd_with_dayb (s : State) (x : Dayb) (a : Nat) : rd { s with dayb := x } a = rd s a := rfl
@[simp] theorem rd_with_eth (s : State) (x : List (Nat × EthPort)) (a : Nat) : rd { s with eth := x } a = rd s a := rfl
@[simp] theorem rd_with_opx (s : State) (x : Opx) (a : Nat) : rd { s with opx := x } a = rd s a := rfl
@[simp] theorem rd_with_bus (s : State) (x : List (Nat × Bus)) (a : Nat) : rd { s with bus := x } a = rd s a := rfl
@[simp] theorem rd_with_sf (s : State) (x : List (Nat × SfPort)) (a : Nat) : rd { s with sf := x } a = rd s a := rfl
@[simp] theorem rd_with_fio (s : State) (x : Fio) (a : Nat) : rd { s with fio := x } a = rd s a := rfl
@[simp] theorem rd_with_vault (s : State) (x : Vault) (a : Nat) : rd { s with vault := x } a = rd s a := rfl
@[simp] theorem rd_with_wgh (s : State) (x : Wgh) (a : Nat) : rd { s with wgh := x } a = rd s a := rfl
@[simp] theorem rd_with_fact (s : State) (x : Fact) (a : Nat) : rd { s with fact := x } a = rd s a := rfl
@[simp] theorem rd_with_sgn (s : State) (x : Sgn) (a : Nat) : rd { s with sgn := x } a = rd s a := rfl
@[simp] theorem rd_with_scrv (s : State) (x : Scrv) (a : Nat) : rd { s with scrv := x } a = rd s a := rfl
@[simp] theorem rd_with_fltm (s : State) (x : Fltm) (a : Nat) : rd { s with fltm := x } a = rd s a := rfl
@[simp] theorem rd_with_upd (s : State) (x : Upd) (a : Nat) : rd { s with upd := x } a = rd s a := rfl
@[simp] theorem rd_with_pins (s : State) (x : Pins) (a : Nat) : rd { s with pins := x } a = rd s a := rfl
@[simp] theorem rd_with_past (s : State) (x : List Past) (a : Nat) : rd { s with past := x } a = rd s a := rfl
@[simp] theorem rd_with_fresh (s : State) (x : Nat × List (Nat × (Word × Word))) (a : Nat) :
    rd { s with fresh := x } a = rd s a := rfl
@[simp] theorem rd_with_replies (s : State) (x : List Reply) (a : Nat) : rd { s with replies := x } a = rd s a := rfl
@[simp] theorem rd_with_free (s : State) (x : Nat) (a : Nat) : rd { s with free := x } a = rd s a := rfl
@[simp] theorem rd_with_pending (s : State) (x : List Instr) (a : Nat) : rd { s with pending := x } a = rd s a := rfl

@[simp] theorem rd_setEth (s : State) (n : Nat) (x : EthPort) (a : Nat) : rd (setEth s n x) a = rd s a := rfl
@[simp] theorem rd_setElem (s : State) (w : Nat) (x : ElemSt) (a : Nat) : rd (setElem s w x) a = rd s a := rfl
@[simp] theorem rd_setBus (s : State) (n : Nat) (x : Bus) (a : Nat) : rd (setBus s n x) a = rd s a := rfl
@[simp] theorem rd_setSf (s : State) (n : Nat) (x : SfPort) (a : Nat) : rd (setSf s n x) a = rd s a := rfl
@[simp] theorem rd_setLane (s : State) (l : LaneNo) (x : Lane) (a : Nat) : rd (setLane s l x) a = rd s a := rfl
@[simp] theorem rd_setLoop (s : State) (n : Nat) (x : LoopSt) (a : Nat) : rd (setLoop s n x) a = rd s a := rfl
@[simp] theorem rd_setSess (s : State) (n : Nat) (x : Session) (a : Nat) : rd (setSess s n x) a = rd s a := rfl
@[simp] theorem rd_setPoint (s : State) (i : Nat) (x : Point) (a : Nat) : rd (setPoint s i x) a = rd s a := rfl
@[simp] theorem rd_setSlot (s : State) (n : Nat) (x : KeySlot) (a : Nat) : rd (setSlot s n x) a = rd s a := rfl
@[simp] theorem rd_setChan (s : State) (c : Nat) (x : Chan) (a : Nat) : rd (setChan s c x) a = rd s a := rfl
@[simp] theorem rd_setSgn (s : State) (g : Sgn) (a : Nat) : rd (setSgn s g) a = rd s a := rfl
@[simp] theorem rd_notePast (s : State) (k i u o : Nat) (x : Slot) (a : Nat) : rd (notePast s k i u o x) a = rd s a := rfl
@[simp] theorem rd_reachPos (s : State) (p a : Nat) : rd (reachPos s p) a = rd s a := rd_with_clk s _ a

end Sys2Proof.Laws
end

