-- ==== Sys2Proof/Laws/Finish.lean ====
section
/-!
SUPPORT. How a command ends: every block as its operation leaves it, the queue as it was, the lines of the pins in step
with the state, and the clock and the guard moving only the way they may.
-/

namespace Sys2Proof.Laws

open Sys2Proof.Machine

variable (s u : State)

@[simp] theorem settle_regs : (settle s u).regs = u.regs := rfl
@[simp] theorem settle_staged : (settle s u).staged = u.staged := rfl
@[simp] theorem settle_latch : (settle s u).latch = u.latch := rfl
@[simp] theorem settle_dram : (settle s u).dram = u.dram := rfl
@[simp] theorem settle_toll : (settle s u).toll = u.toll := rfl
@[simp] theorem settle_lac : (settle s u).lac = u.lac := rfl
@[simp] theorem settle_loom : (settle s u).loom = u.loom := rfl
@[simp] theorem settle_loops : (settle s u).loops = u.loops := rfl
@[simp] theorem settle_pts : (settle s u).pts = u.pts := rfl
@[simp] theorem settle_defSel : (settle s u).defSel = u.defSel := rfl
@[simp] theorem settle_dayb : (settle s u).dayb = u.dayb := rfl
@[simp] theorem settle_eth : (settle s u).eth = u.eth := rfl
@[simp] theorem settle_opx : (settle s u).opx = u.opx := rfl
@[simp] theorem settle_bus : (settle s u).bus = u.bus := rfl
@[simp] theorem settle_sf : (settle s u).sf = u.sf := rfl
@[simp] theorem settle_fio : (settle s u).fio = u.fio := rfl
@[simp] theorem settle_vault : (settle s u).vault = u.vault := rfl
@[simp] theorem settle_wgh : (settle s u).wgh = u.wgh := rfl
@[simp] theorem settle_fact : (settle s u).fact = u.fact := rfl
@[simp] theorem settle_sgn : (settle s u).sgn = u.sgn := rfl
@[simp] theorem settle_scrv : (settle s u).scrv = u.scrv := rfl
@[simp] theorem settle_fltm : (settle s u).fltm = u.fltm := rfl
@[simp] theorem settle_upd : (settle s u).upd = u.upd := rfl
@[simp] theorem settle_past : (settle s u).past = u.past := rfl
@[simp] theorem settle_fresh : (settle s u).fresh = u.fresh := rfl
@[simp] theorem settle_replies : (settle s u).replies = u.replies := rfl
@[simp] theorem settle_free : (settle s u).free = u.free := rfl
@[simp] theorem settle_clk : (settle s u).clk = u.clk := rfl
@[simp] theorem settle_guard : (settle s u).guard = u.guard := rfl
@[simp] theorem settle_pending : (settle s u).pending = u.pending := rfl
@[simp] theorem settle_pins_gpioPulse : (settle s u).pins.gpioPulse = u.pins.gpioPulse := rfl
@[simp] theorem settle_pins_gpioIn : (settle s u).pins.gpioIn = u.pins.gpioIn := rfl
@[simp] theorem settle_pins_syncOut : (settle s u).pins.syncOut = u.pins.syncOut := rfl
@[simp] theorem settle_pins_ppsOut : (settle s u).pins.ppsOut = u.pins.ppsOut := rfl
@[simp] theorem settle_pins_pcieWakeN : (settle s u).pins.pcieWakeN = u.pins.pcieWakeN := rfl
@[simp] theorem settle_pins_clkreqN : (settle s u).pins.clkreqN = u.pins.clkreqN := rfl
@[simp] theorem settle_pins_ppsAt : (settle s u).pins.ppsAt = u.pins.ppsAt := rfl
@[simp] theorem settle_pins_rstoutN : (settle s u).pins.rstoutN = u.pins.rstoutN := rfl
@[simp] theorem settle_pins_pfwAt : (settle s u).pins.pfwAt = u.pins.pfwAt := rfl
@[simp] theorem settle_pins_resetWait : (settle s u).pins.resetWait = u.pins.resetWait := rfl
@[simp] theorem settle_pins_stbyFell : (settle s u).pins.stbyFell = u.pins.stbyFell := rfl
@[simp] theorem settle_pins_wakeAt : (settle s u).pins.wakeAt = u.pins.wakeAt := rfl
@[simp] theorem settle_pins_svc : (settle s u).pins.svc = u.pins.svc := rfl
@[simp] theorem settle_faultN : (settle s u).pins.faultN = !faultLow u := rfl
@[simp] theorem settle_t0 : (settle s u).pins.t0 = intLine u 0 := rfl
@[simp] theorem rd_settle (a : Nat) : rd (settle s u) a = rd u a := rfl

/-- A command that moves neither the clock nor the guard ends in a next state. -/
theorem finish_next {p : State → Prop} :
    (∃ t, finish s u = .next t ∧ p t) ↔ p { settle s u with clk := s.clk, guard := s.guard, pending := s.pending } := by
  unfold finish
  constructor
  · rintro ⟨t, h, hp⟩
    cases h
    exact hp
  · intro h
    exact ⟨_, rfl, h⟩

/-- A command that may change the guard ends in a next state. -/
theorem finishGuard_next {p : State → Prop} :
    (∃ t, finishGuard s u = .next t ∧ p t) ↔
      p { settle s u with clk := s.clk, guard := s.guard.advance u.guard, pending := s.pending } := by
  unfold finishGuard
  constructor
  · rintro ⟨t, h, hp⟩
    cases h
    exact hp
  · intro h
    exact ⟨_, rfl, h⟩

/-- A command that may move the clock and change the guard ends in a next state. -/
theorem finishClock_next {p : State → Prop} :
    (∃ t, finishClock s u = .next t ∧ p t) ↔
      p { settle s u with clk := s.clk.later u.clk, guard := s.guard.advance u.guard, pending := s.pending } := by
  unfold finishClock
  constructor
  · rintro ⟨t, h, hp⟩
    cases h
    exact hp
  · intro h
    exact ⟨_, rfl, h⟩

/-- A module reset ends in a next state. -/
theorem finishReset_next {p : State → Prop} :
    (∃ t, finishReset s u = .next t ∧ p t) ↔ p { settle s u with pending := s.pending } := by
  unfold finishReset
  constructor
  · rintro ⟨t, h, hp⟩
    cases h
    exact hp
  · intro h
    exact ⟨_, rfl, h⟩

/-- The later of two clocks has counted at least as far as either. -/
theorem later_ge (c d : Clock) : c.acc ≤ (c.later d).acc ∧ d.acc ≤ (c.later d).acc := by
  unfold Clock.later
  split <;> simp_all
  omega

/-- The later of two clocks is the second when it has not fallen behind. -/
theorem later_of_le {c d : Clock} (h : c.acc ≤ d.acc) : c.later d = d := by simp [Clock.later, h]

@[simp] theorem later_self (c : Clock) : c.later c = c := later_of_le (le_refl _)

/-- A guard that has not changed stays as it is. -/
@[simp] theorem advance_self (g : Guard) : g.advance g = g := by
  have h : ∀ m : BitVec 8, m ||| (m &&& 4#8) = m := by decide
  unfold Guard.advance
  cases g
  simp [h]

end Sys2Proof.Laws
end

