-- ==== Sys2Proof/Laws/Exec.lean ====
section
/-!
SUPPORT. Everything a command can do: every meaning ends in one of four ways, which say what becomes of the clock, the guard
and the queue.
-/

namespace Sys2Proof.Laws

open Sys2Proof.Machine

/-- Every command ends in one of the four ways, a module reset alone in the last. -/
theorem exec_form (c : Instr) (s : State) :
    (∃ u, exec c s = finish s u) ∨ (∃ u, exec c s = finishGuard s u) ∨ (∃ u, exec c s = finishClock s u) ∨
      (resets c = true ∧ ∃ u, exec c s = finishReset s u) := by
  exact match c with
  | .registerWrite _ _ _ _ => .inr (.inr (.inl ⟨_, rfl⟩))
  | .rcRead _ _ => .inr (.inr (.inl ⟨_, rfl⟩))
  | .accountingWindowStart _ => .inr (.inr (.inl ⟨_, rfl⟩))
  | .requestGrant _ => .inr (.inr (.inl ⟨_, rfl⟩))
  | .delayBudgetExpiry _ => .inr (.inr (.inl ⟨_, rfl⟩))
  | .angleEventFire _ => .inr (.inr (.inl ⟨_, rfl⟩))
  | .angleEventDeferredFire => .inr (.inr (.inl ⟨_, rfl⟩))
  | .pulseEnd _ => .inr (.inr (.inl ⟨_, rfl⟩))
  | .angleLoRead _ _ => .inr (.inr (.inl ⟨_, rfl⟩))
  | .angleHiRead _ => .inr (.inr (.inl ⟨_, rfl⟩))
  | .aetWord0Stage _ _ _ => .inr (.inr (.inl ⟨_, rfl⟩))
  | .aetEntryCommit _ _ _ => .inr (.inr (.inl ⟨_, rfl⟩))
  | .lacCtrlWrite _ _ => .inr (.inr (.inl ⟨_, rfl⟩))
  | .lacNetSessionWrite _ _ => .inr (.inr (.inl ⟨_, rfl⟩))
  | .syncPulse _ => .inr (.inr (.inl ⟨_, rfl⟩))
  | .syncMissing => .inr (.inr (.inl ⟨_, rfl⟩))
  | .netrefLost => .inr (.inr (.inl ⟨_, rfl⟩))
  | .referenceInvalid => .inr (.inr (.inl ⟨_, rfl⟩))
  | .referenceValid _ => .inr (.inr (.inl ⟨_, rfl⟩))
  | .trackerConverged _ _ => .inr (.inr (.inl ⟨_, rfl⟩))
  | .acquireTimeout => .inr (.inr (.inl ⟨_, rfl⟩))
  | .flyLimit => .inr (.inr (.inl ⟨_, rfl⟩))
  | .scanRun _ => .inr (.inr (.inl ⟨_, rfl⟩))
  | .scanStop _ => .inr (.inr (.inl ⟨_, rfl⟩))
  | .scandbgHold _ => .inr (.inr (.inl ⟨_, rfl⟩))
  | .scandbgResume _ => .inr (.inr (.inl ⟨_, rfl⟩))
  | .scandbgStepSeg _ => .inr (.inr (.inl ⟨_, rfl⟩))
  | .scandbgStepScan _ => .inr (.inr (.inl ⟨_, rfl⟩))
  | .segmentStart _ _ _ => .inl ⟨_, rfl⟩
  | .lmNop _ => .inl ⟨_, rfl⟩
  | .lmEnd _ => .inl ⟨_, rfl⟩
  | .lmLdp _ _ _ _ => .inl ⟨_, rfl⟩
  | .lmLdq _ _ _ => .inl ⟨_, rfl⟩
  | .lmLdst _ _ _ => .inl ⟨_, rfl⟩
  | .lmStp _ _ _ _ => .inl ⟨_, rfl⟩
  | .lmStpc _ _ _ _ => .inl ⟨_, rfl⟩
  | .lmRls _ _ => .inl ⟨_, rfl⟩
  | .lmLds _ _ _ => .inl ⟨_, rfl⟩
  | .lmSts _ _ _ => .inl ⟨_, rfl⟩
  | .lmLdi _ _ _ _ => .inl ⟨_, rfl⟩
  | .lmLdih _ _ _ => .inl ⟨_, rfl⟩
  | .lmMov _ _ _ => .inl ⟨_, rfl⟩
  | .lmSel _ _ _ _ _ => .inl ⟨_, rfl⟩
  | .lmCvt _ _ _ _ _ => .inl ⟨_, rfl⟩
  | .lmAdd _ _ _ _ _ => .inl ⟨_, rfl⟩
  | .lmSub _ _ _ _ _ => .inl ⟨_, rfl⟩
  | .lmMul _ _ _ _ _ => .inl ⟨_, rfl⟩
  | .lmDiv _ _ _ _ _ => .inl ⟨_, rfl⟩
  | .lmMod _ _ _ _ => .inl ⟨_, rfl⟩
  | .lmNeg _ _ _ _ => .inl ⟨_, rfl⟩
  | .lmAbs _ _ _ _ => .inl ⟨_, rfl⟩
  | .lmMin _ _ _ _ _ => .inl ⟨_, rfl⟩
  | .lmMax _ _ _ _ _ => .inl ⟨_, rfl⟩
  | .lmAddi _ _ _ _ => .inl ⟨_, rfl⟩
  | .lmCeq _ _ _ _ _ => .inl ⟨_, rfl⟩
  | .lmCne _ _ _ _ _ => .inl ⟨_, rfl⟩
  | .lmClt _ _ _ _ _ => .inl ⟨_, rfl⟩
  | .lmCle _ _ _ _ _ => .inl ⟨_, rfl⟩
  | .lmCgt _ _ _ _ _ => .inl ⟨_, rfl⟩
  | .lmCge _ _ _ _ _ => .inl ⟨_, rfl⟩
  | .lmAnd _ _ _ _ _ => .inl ⟨_, rfl⟩
  | .lmOr _ _ _ _ _ => .inl ⟨_, rfl⟩
  | .lmXor _ _ _ _ _ => .inl ⟨_, rfl⟩
  | .lmNot _ _ _ _ => .inl ⟨_, rfl⟩
  | .lmShl _ _ _ _ _ => .inl ⟨_, rfl⟩
  | .lmShr _ _ _ _ _ => .inl ⟨_, rfl⟩
  | .lmBtst _ _ _ _ => .inl ⟨_, rfl⟩
  | .lmAndi _ _ _ _ => .inl ⟨_, rfl⟩
  | .lmOri _ _ _ _ => .inl ⟨_, rfl⟩
  | .lmLim _ _ _ _ _ _ => .inl ⟨_, rfl⟩
  | .lmScl _ _ _ _ _ _ => .inl ⟨_, rfl⟩
  | .lmIntp _ _ _ _ => .inl ⟨_, rfl⟩
  | .lmTon _ _ _ _ => .inl ⟨_, rfl⟩
  | .lmTof _ _ _ _ => .inl ⟨_, rfl⟩
  | .lmTp _ _ _ _ => .inl ⟨_, rfl⟩
  | .lmCtu _ _ _ _ => .inl ⟨_, rfl⟩
  | .lmCtd _ _ _ _ => .inl ⟨_, rfl⟩
  | .lmRtrig _ _ _ _ => .inl ⟨_, rfl⟩
  | .lmFtrig _ _ _ _ => .inl ⟨_, rfl⟩
  | .lmLspw _ _ _ => .inl ⟨_, rfl⟩
  | .lmLstr _ _ _ => .inl ⟨_, rfl⟩
  | .lmLout _ _ _ => .inl ⟨_, rfl⟩
  | .lmEmit _ _ _ => .inl ⟨_, rfl⟩
  | .lmRdf _ _ => .inl ⟨_, rfl⟩
  | .lmClf _ => .inl ⟨_, rfl⟩
  | .pgmxLoad _ => .inr (.inr (.inl ⟨_, rfl⟩))
  | .pgmxCopyDone => .inr (.inl ⟨_, rfl⟩)
  | .pgmxVerifyDone => .inl ⟨_, rfl⟩
  | .pgmxSwitch _ => .inr (.inr (.inl ⟨_, rfl⟩))
  | .pgmxCancel _ => .inr (.inr (.inl ⟨_, rfl⟩))
  | .programSwitch => .inr (.inl ⟨_, rfl⟩)
  | .forceWord0Stage _ _ _ => .inr (.inr (.inl ⟨_, rfl⟩))
  | .forceEntryCommit _ _ _ => .inr (.inr (.inl ⟨_, rfl⟩))
  | .loopSample _ _ => .inr (.inr (.inl ⟨_, rfl⟩))
  | .loopComputation _ => .inl ⟨_, rfl⟩
  | .loopOutput _ _ => .inr (.inr (.inl ⟨_, rfl⟩))
  | .loopCtrlWrite _ _ _ => .inr (.inr (.inl ⟨_, rfl⟩))
  | .loopSpWrite _ _ _ => .inr (.inr (.inl ⟨_, rfl⟩))
  | .converterSample _ _ _ => .inl ⟨_, rfl⟩
  | .returnToX32 _ => .inl ⟨_, rfl⟩
  | .gridSample _ => .inr (.inr (.inl ⟨_, rfl⟩))
  | .sampleAccumulate => .inl ⟨_, rfl⟩
  | .measurandPublish => .inr (.inr (.inl ⟨_, rfl⟩))
  | .demandIntervalEnd => .inl ⟨_, rfl⟩
  | .snap _ => .inr (.inr (.inl ⟨_, rfl⟩))
  | .clearEnergy _ => .inr (.inr (.inl ⟨_, rfl⟩))
  | .clearMaxdem _ => .inr (.inr (.inl ⟨_, rfl⟩))
  | .hselWrite _ _ => .inr (.inr (.inl ⟨_, rfl⟩))
  | .checkpointDone _ => .inl ⟨_, rfl⟩
  | .checkpointRetry => .inl ⟨_, rfl⟩
  | .powerFailTrigger => .inr (.inl ⟨_, rfl⟩)
  | .finalSaveDone => .inl ⟨_, rfl⟩
  | .powerRestored => .inr (.inl ⟨_, rfl⟩)
  | .sqTail _ _ _ => .inr (.inr (.inl ⟨_, rfl⟩))
  | .cqHead _ _ _ => .inr (.inr (.inl ⟨_, rfl⟩))
  | .solve => .inr (.inl ⟨_, rfl⟩)
  | .register => .inr (.inl ⟨_, rfl⟩)
  | .confirm => .inr (.inl ⟨_, rfl⟩)
  | .factorisationDone _ => .inr (.inl ⟨_, rfl⟩)
  | .admmIteration => .inr (.inl ⟨_, rfl⟩)
  | .residualCheck => .inr (.inl ⟨_, rfl⟩)
  | .maxIterReached => .inr (.inl ⟨_, rfl⟩)
  | .timeLimitReached => .inr (.inl ⟨_, rfl⟩)
  | .solveResume => .inr (.inl ⟨_, rfl⟩)
  | .periodBoundary _ => .inr (.inr (.inl ⟨_, rfl⟩))
  | .commandedWrite _ _ _ _ => .inr (.inr (.inl ⟨_, rfl⟩))
  | .setRelinquish _ _ _ => .inr (.inr (.inl ⟨_, rfl⟩))
  | .relinquish _ _ _ => .inr (.inr (.inl ⟨_, rfl⟩))
  | .defSel _ _ => .inr (.inr (.inl ⟨_, rfl⟩))
  | .defStage _ _ _ => .inr (.inr (.inl ⟨_, rfl⟩))
  | .defCfg _ _ => .inr (.inr (.inl ⟨_, rfl⟩))
  | .dayEntryWrite => .inl ⟨_, rfl⟩
  | .drainSeqLo _ _ => .inr (.inr (.inl ⟨_, rfl⟩))
  | .drainSeqHi _ _ => .inr (.inr (.inl ⟨_, rfl⟩))
  | .frameReceive _ _ _ _ => .inl ⟨_, rfl⟩
  | .pauseRepeat _ => .inl ⟨_, rfl⟩
  | .pauseExpiry _ => .inl ⟨_, rfl⟩
  | .pauseWatchdog _ => .inl ⟨_, rfl⟩
  | .holdoffEnd _ => .inl ⟨_, rfl⟩
  | .txFrameStart _ => .inl ⟨_, rfl⟩
  | .txFrameEnd _ => .inl ⟨_, rfl⟩
  | .txUnderrun _ => .inl ⟨_, rfl⟩
  | .ethTxrTail _ _ _ => .inr (.inr (.inl ⟨_, rfl⟩))
  | .ethRxrTail _ _ _ => .inr (.inr (.inl ⟨_, rfl⟩))
  | .opxFrameTake _ => .inl ⟨_, rfl⟩
  | .reassemblyTimeout _ _ => .inl ⟨_, rfl⟩
  | .inputImage _ _ => .inr (.inr (.inl ⟨_, rfl⟩))
  | .pointRead _ _ => .inr (.inr (.inl ⟨_, rfl⟩))
  | .pointWrite _ _ => .inr (.inr (.inl ⟨_, rfl⟩))
  | .regWindowRead _ _ => .inr (.inr (.inl ⟨_, rfl⟩))
  | .regWindowWrite _ _ => .inr (.inr (.inl ⟨_, rfl⟩))
  | .solveData _ _ => .inr (.inr (.inl ⟨_, rfl⟩))
  | .updateChunk _ _ => .inr (.inr (.inl ⟨_, rfl⟩))
  | .status _ _ => .inr (.inr (.inl ⟨_, rfl⟩))
  | .statusPeriodSend => .inl ⟨_, rfl⟩
  | .leaseTake _ _ => .inr (.inr (.inl ⟨_, rfl⟩))
  | .leaseRenew _ _ => .inr (.inr (.inl ⟨_, rfl⟩))
  | .leaseRelease _ _ => .inr (.inr (.inl ⟨_, rfl⟩))
  | .openSession _ => .inr (.inl ⟨_, rfl⟩)
  | .close _ _ => .inr (.inr (.inl ⟨_, rfl⟩))
  | .timeRef _ _ => .inr (.inr (.inl ⟨_, rfl⟩))
  | .timeRefSend => .inr (.inr (.inl ⟨_, rfl⟩))
  | .sessionIdleTimeout _ => .inr (.inl ⟨_, rfl⟩)
  | .sessClose _ _ => .inr (.inr (.inl ⟨_, rfl⟩))
  | .mbFrameReceive _ _ => .inr (.inl ⟨_, rfl⟩)
  | .objectTimeout _ _ => .inl ⟨_, rfl⟩
  | .mbQHead _ _ _ _ => .inr (.inr (.inl ⟨_, rfl⟩))
  | .txobjStage _ _ _ _ _ => .inr (.inr (.inl ⟨_, rfl⟩))
  | .txobjCommit _ _ _ _ => .inr (.inr (.inl ⟨_, rfl⟩))
  | .mbTxrTail _ _ _ => .inr (.inr (.inl ⟨_, rfl⟩))
  | .mbFrameSend _ => .inl ⟨_, rfl⟩
  | .mbTxDone _ _ => .inl ⟨_, rfl⟩
  | .busOffRecovery _ => .inl ⟨_, rfl⟩
  | .mbEnable _ _ _ => .inr (.inr (.inl ⟨_, rfl⟩))
  | .mbSleep _ _ => .inr (.inr (.inl ⟨_, rfl⟩))
  | .mbWake _ _ => .inr (.inr (.inl ⟨_, rfl⟩))
  | .mbRecover _ _ => .inr (.inr (.inl ⟨_, rfl⟩))
  | .clearQ0 _ _ => .inr (.inr (.inl ⟨_, rfl⟩))
  | .clearQ1 _ _ => .inr (.inr (.inl ⟨_, rfl⟩))
  | .busWakeEvent _ _ => .inr (.inl ⟨_, rfl⟩)
  | .sfTxStart _ => .inl ⟨_, rfl⟩
  | .sfTxDone _ => .inl ⟨_, rfl⟩
  | .characterReceive _ _ _ _ _ => .inl ⟨_, rfl⟩
  | .idleGap _ => .inl ⟨_, rfl⟩
  | .sfTxrTail _ _ _ => .inr (.inr (.inl ⟨_, rfl⟩))
  | .sfRxrHead _ _ _ => .inr (.inr (.inl ⟨_, rfl⟩))
  | .diFilterAccept _ _ => .inr (.inl ⟨_, rfl⟩)
  | .wireBreak _ => .inr (.inl ⟨_, rfl⟩)
  | .wireBreakClear _ => .inr (.inl ⟨_, rfl⟩)
  | .countEdge _ => .inr (.inl ⟨_, rfl⟩)
  | .cntClr _ _ => .inr (.inr (.inl ⟨_, rfl⟩))
  | .doCmdWrite _ _ => .inr (.inr (.inl ⟨_, rfl⟩))
  | .doThermalShutdown _ => .inl ⟨_, rfl⟩
  | .doShutdownRelease _ => .inl ⟨_, rfl⟩
  | .groupFault _ => .inr (.inl ⟨_, rfl⟩)
  | .fieldUndervoltage => .inr (.inl ⟨_, rfl⟩)
  | .fieldSupplyRestored => .inr (.inl ⟨_, rfl⟩)
  | .frameStart => .inr (.inl ⟨_, rfl⟩)
  | .frameEnd => .inl ⟨_, rfl⟩
  | .epdPgoodRise => .inl ⟨_, rfl⟩
  | .pgoodTimeout => .inl ⟨_, rfl⟩
  | .pgoodLost => .inl ⟨_, rfl⟩
  | .panelPowerOff => .inl ⟨_, rfl⟩
  | .temperatureRead _ => .inl ⟨_, rfl⟩
  | .regionStage _ _ _ _ => .inr (.inr (.inl ⟨_, rfl⟩))
  | .regionGo _ _ _ => .inr (.inr (.inl ⟨_, rfl⟩))
  | .loadLut _ => .inr (.inr (.inl ⟨_, rfl⟩))
  | .balance _ => .inr (.inr (.inl ⟨_, rfl⟩))
  | .locksmithReady => .inr (.inl ⟨_, rfl⟩)
  | .remask => .inl ⟨_, rfl⟩
  | .lockStage _ => .inr (.inr (.inl ⟨_, rfl⟩))
  | .lockCommit _ => .inr (.inr (.inl ⟨_, rfl⟩))
  | .lockCancel _ => .inr (.inr (.inl ⟨_, rfl⟩))
  | .lockErase _ => .inr (.inr (.inl ⟨_, rfl⟩))
  | .derive _ => .inr (.inr (.inl ⟨_, rfl⟩))
  | .attest _ => .inr (.inr (.inl ⟨_, rfl⟩))
  | .lcOwn _ => .inr (.inr (.inl ⟨_, rfl⟩))
  | .lcRetire _ => .inr (.inr (.inl ⟨_, rfl⟩))
  | .tamperTrip _ => .inr (.inl ⟨_, rfl⟩)
  | .backupPowerOn => .inl ⟨_, rfl⟩
  | .vbakLow => .inl ⟨_, rfl⟩
  | .secondBoundary => .inl ⟨_, rfl⟩
  | .trimCorrection => .inl ⟨_, rfl⟩
  | .calendarWrite _ _ _ => .inr (.inr (.inl ⟨_, rfl⟩))
  | .calSecRead _ => .inr (.inr (.inl ⟨_, rfl⟩))
  | .calYearRead _ => .inr (.inr (.inl ⟨_, rfl⟩))
  | .tornRead _ => .inl ⟨_, rfl⟩
  | .wakeTimer => .inl ⟨_, rfl⟩
  | .ponSet _ => .inr (.inr (.inl ⟨_, rfl⟩))
  | .ponRelease _ => .inr (.inr (.inl ⟨_, rfl⟩))
  | .clearLost _ => .inr (.inr (.inl ⟨_, rfl⟩))
  | .clearTamper _ => .inr (.inr (.inl ⟨_, rfl⟩))
  | .errorDetected _ _ _ => .inr (.inl ⟨_, rfl⟩)
  | .eccCorr _ _ => .inr (.inl ⟨_, rfl⟩)
  | .discardComplete => .inr (.inl ⟨_, rfl⟩)
  | .assayerTestStart _ => .inl ⟨_, rfl⟩
  | .assayerTestDone _ _ => .inr (.inl ⟨_, rfl⟩)
  | .transientWindowClose _ => .inl ⟨_, rfl⟩
  | .patrolTest _ _ => .inr (.inl ⟨_, rfl⟩)
  | .selftestStart _ _ _ => .inr (.inr (.inl ⟨_, rfl⟩))
  | .fltmAck _ => .inr (.inr (.inl ⟨_, rfl⟩))
  | .fire _ => .inr (.inr (.inl ⟨_, rfl⟩))
  | .capture => .inl ⟨_, rfl⟩
  | .recordWrite => .inl ⟨_, rfl⟩
  | .freeze _ => .inr (.inr (.inl ⟨_, rfl⟩))
  | .unfreeze _ => .inr (.inr (.inl ⟨_, rfl⟩))
  | .freezeTimeout => .inl ⟨_, rfl⟩
  | .clearPerm _ => .inr (.inr (.inl ⟨_, rfl⟩))
  | .modeWrite _ _ => .inr (.inr (.inl ⟨_, rfl⟩))
  | .sealedWrite _ => .inr (.inr (.inl ⟨_, rfl⟩))
  | .unsealCmd _ => .inr (.inr (.inl ⟨_, rfl⟩))
  | .unlock _ => .inr (.inr (.inl ⟨_, rfl⟩))
  | .protLock _ => .inr (.inr (.inl ⟨_, rfl⟩))
  | .fptGo _ _ => .inr (.inr (.inl ⟨_, rfl⟩))
  | .resetNLow => .inr (.inr (.inr ⟨rfl, _, rfl⟩))
  | .startUp _ _ => .inr (.inr (.inl ⟨_, rfl⟩))
  | .vholdExhausted => .inr (.inr (.inr ⟨rfl, _, rfl⟩))
  | .pfwResetDeferred => .inr (.inr (.inr ⟨rfl, _, rfl⟩))
  | .updTakeLease _ => .inr (.inr (.inl ⟨_, rfl⟩))
  | .updRenew _ => .inr (.inr (.inl ⟨_, rfl⟩))
  | .updRelease _ => .inr (.inr (.inl ⟨_, rfl⟩))
  | .updSubmit _ => .inr (.inr (.inl ⟨_, rfl⟩))
  | .updCancel _ => .inr (.inr (.inl ⟨_, rfl⟩))
  | .updConfirm _ => .inr (.inr (.inl ⟨_, rfl⟩))
  | .updFail _ => .inr (.inr (.inl ⟨_, rfl⟩))
  | .patchBuildDone _ => .inl ⟨_, rfl⟩
  | .leaseExpiry => .inl ⟨_, rfl⟩
  | .actTimeReached => .inl ⟨_, rfl⟩
  | .checkTimeout => .inr (.inl ⟨_, rfl⟩)
  | .perst => .inl ⟨_, rfl⟩
  | .hostwinCAccess _ _ _ => .inr (.inr (.inl ⟨_, rfl⟩))
  | .svcAttach => .inl ⟨_, rfl⟩
  | .regRead _ _ _ _ => .inr (.inr (.inl ⟨_, rfl⟩))
  | .regWrite _ _ _ _ => .inr (.inr (.inl ⟨_, rfl⟩))
  | .memRead _ _ _ _ => .inr (.inr (.inl ⟨_, rfl⟩))
  | .memWrite _ _ _ _ => .inr (.inr (.inl ⟨_, rfl⟩))
  | .winRead _ _ _ _ => .inr (.inr (.inl ⟨_, rfl⟩))
  | .irqPendSet _ _ _ => .inr (.inr (.inl ⟨_, rfl⟩))
  | .irqPendClr _ _ _ => .inr (.inr (.inl ⟨_, rfl⟩))
  | .irqMaskSet _ _ _ => .inr (.inr (.inl ⟨_, rfl⟩))
  | .irqMaskClr _ _ _ => .inr (.inr (.inl ⟨_, rfl⟩))
  | .pageEnable _ _ _ => .inr (.inr (.inl ⟨_, rfl⟩))
  | .softReset _ _ => .inr (.inr (.inl ⟨_, rfl⟩))
  | .intcPendSet _ _ _ => .inr (.inr (.inl ⟨_, rfl⟩))
  | .intcPendClr _ _ _ => .inr (.inr (.inl ⟨_, rfl⟩))
  | .intcMaskSet _ _ _ => .inr (.inr (.inl ⟨_, rfl⟩))
  | .intcMaskClr _ _ _ => .inr (.inr (.inl ⟨_, rfl⟩))
  | .sleepGo _ => .inr (.inr (.inl ⟨_, rfl⟩))
  | .wakeFromSleep _ => .inr (.inl ⟨_, rfl⟩)
  | .ppsIn => .inl ⟨_, rfl⟩
  | .correctionCycleEnd => .inr (.inr (.inl ⟨_, rfl⟩))
  | .ethLinkChange _ _ => .inl ⟨_, rfl⟩
  | .hostLinkChange _ _ _ => .inl ⟨_, rfl⟩
  | .svcDetach => .inl ⟨_, rfl⟩
  | .ppsOutEnd => .inl ⟨_, rfl⟩
  | .pcieWakeTimeout => .inl ⟨_, rfl⟩

end Sys2Proof.Laws
end

