-- ==== Sys2Proof/Laws/Memory.lean ====
section
/-!
SUPPORT. DRAM and the register file: every write keeps the canonical form of the lists that hold them, a byte of DRAM reads as last
written, every other one as before, and a write to DRAM leaves the registers.
-/

namespace Sys2Proof.Laws

open Sys2Proof.Machine

/-- Writing a key keeps the canonical form, when unlisted keys do not all read alike. -/
theorem wf_put_at {α : Type} [DecidableEq α] (d : Nat → α) {m : List (Nat × α)} (a : Nat) (v : α) (h : Memory.wf d m = true) :
    Memory.wf d (put (d a) m a v) = true := by
  simp only [Memory.wf, Bool.and_eq_true, List.all_eq_true, bne_iff_ne, ne_eq] at h ⊢
  unfold put
  split
  · exact ⟨rising_del a h.1, fun e he => h.2 e (mem_del he)⟩
  · rename_i hv
    refine ⟨rising_ins a v h.1, fun e he => ?_⟩
    rcases mem_ins he with rfl | he
    · exact hv
    · exact h.2 e he

/-! ### The register file -/

theorem wf_wr {s : State} (a : Nat) (v : Word) (h : Memory.wf resetVal s.regs = true) : Memory.wf resetVal (wr s a v).regs = true :=
  wf_put_at resetVal a v h

theorem wf_regs_reset : Memory.wf resetVal State.reset.regs = true := rfl

/-! ### DRAM -/

/-- The canonical form of DRAM. -/
abbrev ramWf (s : State) : Prop := Memory.wf (fun _ => Config.dramUnlisted) s.dram = true

theorem ramWf_reset : ramWf State.reset := rfl

theorem ramWf_put {s : State} (a : Nat) (b : Byte) (h : ramWf s) : ramWf (ramPut s a b) := by
  unfold ramPut
  split
  · exact wf_put Config.dramUnlisted a b h
  · exact h

theorem ramWf_write : ∀ (bs : List Byte) {s : State} (a : Nat), ramWf s → ramWf (ramWrite s a bs)
  | [], _, _, h => h
  | b :: bs, _, a, h => ramWf_write bs (a + 1) (ramWf_put a b h)

/-- What one written byte does: that byte, where it exists, and nothing else. -/
theorem ramByte_put (s : State) (a c : Nat) (b : Byte) :
    ramByte (ramPut s a b) c = if c = a ∧ a < Config.dramBytes then b else ramByte s c := by
  unfold ramPut
  by_cases h : a < Config.dramBytes
  · rw [if_pos h]
    by_cases e : c = a
    · subst e
      simp [ramByte, h]
    · simp [ramByte, e, look_put_other]
  · rw [if_neg h, if_neg fun e => h e.2]

/-- What a run of written bytes does: byte `c - a` of it in its range, and nothing else. -/
theorem ramByte_write : ∀ (bs : List Byte) (s : State) (a c : Nat), a + bs.length ≤ Config.dramBytes →
    ramByte (ramWrite s a bs) c = if a ≤ c ∧ c < a + bs.length then nthD bs (c - a) 0 else ramByte s c
  | [], s, a, c, _ => by simp [ramWrite]
  | b :: bs, s, a, c, h => by
    simp only [List.length_cons] at h ⊢
    rw [ramWrite, ramByte_write bs (ramPut s a b) (a + 1) c (by omega), ramByte_put]
    by_cases h1 : a + 1 ≤ c ∧ c < a + 1 + bs.length
    · rw [if_pos h1, if_pos (by omega), show c - a = c - (a + 1) + 1 by omega]
      rfl
    · rw [if_neg h1]
      by_cases h2 : c = a
      · subst h2
        rw [if_pos ⟨rfl, by omega⟩, if_pos (by omega), Nat.sub_self]
        rfl
      · rw [if_neg fun e => h2 e.1, if_neg (by omega)]

@[simp] theorem rd_ramPut (s : State) (a : Nat) (b : Byte) (c : Nat) : rd (ramPut s a b) c = rd s c := by
  unfold ramPut
  split <;> rfl

@[simp] theorem rd_ramWrite : ∀ (bs : List Byte) (s : State) (a c : Nat), rd (ramWrite s a bs) c = rd s c
  | [], _, _, _ => rfl
  | b :: bs, s, a, c => by rw [ramWrite, rd_ramWrite bs, rd_ramPut]

end Sys2Proof.Laws
end

