-- ==== Sys2Proof/Laws/Writes.lean ====
section
/-!
SUPPORT. What a register write does that meets nothing on its way: it changes TOLL's and the Daybook's accounts, has the
effect of its register, and is answered SERVED.
-/

namespace Sys2Proof.Laws

open Sys2Proof.Machine

/-- The registers that a request's way changes: TOLL's counters, and the Daybook's from its events on. -/
def booked (a : Nat) : Bool :=
  (pageOf a == pTOLL && decide (0x200 ≤ offOf a)) || (pageOf a == pDAYB && decide (0x084 ≤ offOf a))

/-- Two states differ in TOLL's and the Daybook's accounts alone: their structures and the registers of their pages. -/
structure Light (s t : State) : Prop where
  clk : t.clk = s.clk
  guard : t.guard = s.guard
  staged : t.staged = s.staged
  latch : t.latch = s.latch
  dram : t.dram = s.dram
  waiting : t.toll.waiting = s.toll.waiting
  held : t.toll.held = s.toll.held
  rate : t.toll.rate = s.toll.rate
  budget : t.toll.budget = s.toll.budget
  weights : t.toll.weights = s.toll.weights
  delay : t.toll.delay = s.toll.delay
  ten : t.toll.ten = s.toll.ten
  asm : t.toll.asm = s.toll.asm
  lac : t.lac = s.lac
  loom : t.loom = s.loom
  loops : t.loops = s.loops
  pts : t.pts = s.pts
  defSel : t.defSel = s.defSel
  drain : t.dayb.drain = s.dayb.drain
  ring : t.dayb.ring = s.dayb.ring
  head : s.dayb.head ≤ t.dayb.head
  eth : t.eth = s.eth
  opx : t.opx = s.opx
  bus : t.bus = s.bus
  sf : t.sf = s.sf
  fio : t.fio = s.fio
  vault : t.vault = s.vault
  wgh : t.wgh = s.wgh
  fact : t.fact = s.fact
  sgn : t.sgn = s.sgn
  scrv : t.scrv = s.scrv
  fltm : t.fltm = s.fltm
  upd : t.upd = s.upd
  pins : t.pins = s.pins
  past : t.past = s.past
  fresh : ∀ a, booked a = false → freshOf t a = freshOf s a
  replies : t.replies = s.replies
  free : t.free = s.free
  pending : t.pending = s.pending
  rd : ∀ a, booked a = false → rd t a = rd s a

theorem Light.refl (s : State) : Light s s := by constructor <;> intros <;> rfl

theorem Light.trans {s t u : State} (h : Light s t) (k : Light t u) : Light s u := by
  constructor <;> first
    | exact fun a p => (k.rd a p).trans (h.rd a p)
    | exact fun a p => (k.fresh a p).trans (h.fresh a p)
    | exact h.head.trans k.head
    | exact k.clk.trans h.clk
    | exact k.guard.trans h.guard
    | exact k.staged.trans h.staged
    | exact k.latch.trans h.latch
    | exact k.dram.trans h.dram
    | exact k.waiting.trans h.waiting
    | exact k.held.trans h.held
    | exact k.rate.trans h.rate
    | exact k.budget.trans h.budget
    | exact k.weights.trans h.weights
    | exact k.delay.trans h.delay
    | exact k.ten.trans h.ten
    | exact k.asm.trans h.asm
    | exact k.lac.trans h.lac
    | exact k.loom.trans h.loom
    | exact k.loops.trans h.loops
    | exact k.pts.trans h.pts
    | exact k.defSel.trans h.defSel
    | exact k.drain.trans h.drain
    | exact k.ring.trans h.ring
    | exact k.eth.trans h.eth
    | exact k.opx.trans h.opx
    | exact k.bus.trans h.bus
    | exact k.sf.trans h.sf
    | exact k.fio.trans h.fio
    | exact k.vault.trans h.vault
    | exact k.wgh.trans h.wgh
    | exact k.fact.trans h.fact
    | exact k.sgn.trans h.sgn
    | exact k.scrv.trans h.scrv
    | exact k.fltm.trans h.fltm
    | exact k.upd.trans h.upd
    | exact k.pins.trans h.pins
    | exact k.past.trans h.past
    | exact k.replies.trans h.replies
    | exact k.free.trans h.free
    | exact k.pending.trans h.pending

/-- A register of TOLL's or the Daybook's accounts set. -/
theorem light_wr (s : State) (a : Nat) (v : Word) (h : booked a = true) : Light s (wr s a v) := by
  constructor <;> intros <;> first | rfl | simp | skip
  refine rd_wr_other _ _ ?_
  rintro rfl
  simp_all

theorem resNum_le {k : Nat} (h : k ≤ 8) : resNum k ≤ 4 := by unfold resNum; split <;> omega

theorem clsN_le (c : Cls) : clsN c ≤ 4 := by cases c <;> decide

/-- Sticky bits set among TOLL's or the Daybook's accounts. -/
theorem light_setBits (s : State) (a : Nat) (v : Word) (h : booked a = true) : Light s (setBits s a v) := by
  constructor <;> intros <;> first | rfl | simp | skip
  · refine freshOf_setBits_other _ _ ?_
    rintro rfl
    simp_all
  · refine rd_setBits_other _ _ ?_
    rintro rfl
    simp_all

/-- A grant within budget changes TOLL's accounts alone. -/
theorem light_tollGrant (s : State) (r : Req) (k : Nat) (ks : List Nat) (d : Bool) (hk : k ≤ 8)
    (h : overBudget s r.who r.cls k 1 = false) :
    Light s (tollGrant s r k ks d) ∧ (tollGrant s r k ks d).dayb = s.dayb ∧ (tollGrant s r k ks d).fresh = s.fresh ∧
      ∀ b, pageOf b ≠ pTOLL → rd (tollGrant s r k ks d) b = rd s b := by
  have hb : budgetCheck s r.who r.cls k 1 = s := by simp [budgetCheck, h]
  have h1 : Light s (tollUse s r.who r.cls k 1) := by constructor <;> intros <;> rfl
  unfold tollGrant
  dsimp only
  rw [hb]
  split
  · exact ⟨h1, rfl, rfl, fun _ _ => rfl⟩
  · have hp : ∀ o, o ≤ 8 → 0x200 ≤ 0x200 + 0x40 * resNum k + 0x0C * clsN r.cls + o ∧
        0x200 + 0x40 * resNum k + 0x0C * clsN r.cls + o < 4096 := by
      intro o ho
      have := resNum_le hk
      have := clsN_le r.cls
      omega
    have hq : ∀ o, o ≤ 8 → booked (reg pTOLL (0x200 + 0x40 * resNum k + 0x0C * clsN r.cls + o)) = true := by
      intro o ho
      obtain ⟨hy, hx⟩ := hp o ho
      unfold booked
      simp only [Bool.or_eq_true, Bool.and_eq_true, beq_iff_eq, decide_eq_true_eq]
      left
      generalize 0x200 + 0x40 * resNum k + 0x0C * clsN r.cls + o = x at hx hy
      unfold pageOf offOf reg pTOLL
      omega
    have ho : (if (d || (decide (k < 5) && r.later)) = true then 4 else 0) ≤ 8 := by split <;> omega
    refine ⟨h1.trans (light_wr _ _ _ (hq _ ho)), rfl, rfl, fun b hpb => ?_⟩
    refine (rd_bumpBy_other _ _ ?_).trans rfl
    rintro rfl
    apply hpb
    obtain ⟨_, hx⟩ := hp _ ho
    generalize 0x200 + 0x40 * resNum k + 0x0C * clsN r.cls + (if (d || (decide (k < 5) && r.later)) = true then 4 else 0) = x
      at hx
    unfold pageOf reg pTOLL
    omega

/-- Grants at once within budget change TOLL's accounts alone, and nothing of the Daybook. -/
theorem light_passes {ks : List Nat} {s u : State} {r : Req} (hk : ∀ k ∈ ks, k ≤ 8) (h : passes ks s r = some u) :
    Light s u ∧ u.dayb = s.dayb ∧ u.fresh = s.fresh ∧ ∀ b, pageOf b ≠ pTOLL → rd u b = rd s b := by
  induction ks generalizing s with
  | nil =>
    cases h
    exact ⟨Light.refl _, rfl, rfl, fun _ _ => rfl⟩
  | cons k ks ih =>
    unfold passes at h
    split at h
    · rename_i hc
      simp only [Bool.and_eq_true, Bool.not_eq_true'] at hc
      obtain ⟨g1, g2, gf, g3⟩ := light_tollGrant s r k ks false (hk k (by simp)) hc.2
      obtain ⟨i1, i2, jf, i3⟩ := ih (fun x hx => hk x (by simp [hx])) h
      exact ⟨g1.trans i1, i2.trans g2, jf.trans gf, fun b hb => (i3 b hb).trans (g3 b hb)⟩
    · cases h

/-- A request that passes its resources at once goes on with its last stage. -/
theorem walk_passes (fin : State → Req → State) (n : Nat) {ks : List Nat} {s u : State} {r : Req}
    (h : passes ks s r = some u) : walk fin n ks s r = fin u { r with path := [] } := by
  induction ks generalizing s with
  | nil =>
    cases h
    rfl
  | cons k ks ih =>
    unfold passes at h
    split at h
    · rename_i hc
      simp only [Bool.and_eq_true, beq_iff_eq] at hc
      unfold walk
      rw [hc.1]
      exact ih h
    · cases h

/-- A request that enters at once goes on with its last stage. -/
theorem enter_entered (fin : Nat → State → Req → State) {s u : State} {r : Req} (h : entered s r = some u) :
    enter fin s r = fin s.toll.waiting.length u { r with path := [] } := by
  unfold entered at h
  split at h
  · rename_i hc
    unfold enter
    dsimp only
    rw [if_neg (by omega), if_neg (by simp [hc.2])]
    exact walk_passes _ _ h
  · cases h

/-- A request that is not for the point store changes TOLL's accounts alone as it enters. -/
theorem light_entered {s u : State} {r : Req} (hk : ∀ k ∈ r.path, k < 7) (h : entered s r = some u) :
    Light s u ∧ u.dayb = s.dayb ∧ u.fresh = s.fresh ∧ ∀ b, pageOf b ≠ pTOLL → rd u b = rd s b := by
  have hr : rated r = false := by
    unfold rated
    have : r.path.contains 7 = false := by
      rw [Bool.eq_false_iff]
      intro hc
      have := hk 7 (List.contains_iff_mem.1 hc)
      omega
    rw [this]
    rfl
  unfold entered at h
  split at h
  · have hc : rateCount s r = s := by simp [rateCount, hr]
    rw [hc] at h
    exact light_passes (fun k hm => by have := hk k hm; omega) h
  · cases h

/-- An initiator's request enters when its port takes it. -/
theorem submitPlain_open {s : State} {w : Who} (c : Cls) (b : Body) (k : Sink) (h : portOpen s w = true) :
    submitPlain s w c b k = enter finPlain s (newReq s w c b k) := by
  unfold portOpen at h
  simp only [Bool.and_eq_true, Bool.or_eq_true, bne_iff_ne, ne_eq, Bool.not_eq_true'] at h
  unfold submitPlain
  dsimp only
  rw [if_neg (by rintro ⟨q1, q2⟩; rcases h.1 with h1 | h1; exact h1 q1; simp [h1] at q2), if_neg (by simp [h.2])]

theorem evtAddr_dayb : evtAddr pDAYB = some (reg pDAYB 0x084) := by decide

theorem light_ev_dayb (c : Bool) (s : State) (b : Nat) : Light s (evIf c s pDAYB b) := by
  cases c
  · exact Light.refl s
  · unfold evIf ev
    rw [evtAddr_dayb]
    exact light_setBits _ _ _ (by decide)

theorem le_nextSeq (l : List Nat) (q n : Nat) : q ≤ nextSeq l q n := by
  induction n generalizing q with
  | zero => simp [nextSeq]
  | succ n ih =>
    unfold nextSeq
    split
    · have := ih (q + 1); omega
    · exact le_refl _

/-- A slot reserved in the Daybook changes the Daybook's accounts alone. -/
theorem light_dayReserve (s : State) (c : Change) : Light s (dayReserve s c) := by
  unfold dayReserve dayLow
  dsimp only
  refine Light.trans ?_ (light_ev_dayb _ _ _)
  constructor <;> intros <;> first | rfl | skip
  have h1 := le_nextSeq s.dayb.retired s.dayb.head s.dayb.retired.length
  have h2 := le_nextSeq s.dayb.retired (nextSeq s.dayb.retired s.dayb.head s.dayb.retired.length + 1) s.dayb.retired.length
  show s.dayb.head ≤ _
  dsimp only
  split <;> dsimp only <;> omega

theorem light_logRefusal (s : State) (c : Change) : Light s (logRefusal s c) := by
  unfold logRefusal
  split
  · exact light_dayReserve s c
  · exact light_wr _ _ _ (by decide)

/-- The answer of a write that is served: none to the host, whose writes are posted, a reply to every other initiator. -/
def served (t : State) (i : Init) (a : Nat) : State :=
  if i.who = .host then t else { t with replies := t.replies ++ [⟨i.who, a, oSERVED, []⟩] }

theorem answer_served (t : State) (s : State) (i : Init) (a : Nat) (v : Word) (d : List Word) (r : Req)
    (hs : r.sink = (writeReq s i a v).sink) (hb : r.body = .regWrite a v) : answer t r oSERVED d = served t i a := by
  unfold answer served
  have hd : (oSERVED % 16 < 2) = True := by decide
  rw [hs, hb]
  unfold writeReq newReq
  obtain ⟨w, c⟩ := i
  cases w <;> simp [hd, ownSink, hostRecord, plainData]

theorem regionOf_le (p : Nat) : regionOf p ≤ 3 := by
  unfold regionOf
  repeat' split
  all_goals omega

theorem pageRegion_le (p k : Nat) (h : pageRegion p = some k) : k ≤ 3 := by
  unfold pageRegion at h
  split at h
  · cases h
  · cases h; exact regionOf_le p

theorem srcRegion_le (w : Who) (k : Nat) (h : srcRegion w = some k) : k ≤ 3 := by
  cases w with
  | hw p => exact pageRegion_le _ _ h
  | opx n => have e : some 1 = some k := h; injection e with e; omega
  | loom => have e : some 2 = some k := h; injection e with e; omega
  | loop n => have e : some 0 = some k := h; injection e with e; omega
  | host => have e : none = some k := h; cases e
  | service => have e : none = some k := h; cases e
  | core n => have e : none = some k := h; cases e

/-- The fabric's ports. -/
theorem fabricPath_lt {a b : Option Nat} (ha : ∀ k, a = some k → k ≤ 3) (hb : ∀ k, b = some k → k ≤ 3) :
    ∀ k ∈ fabricPath a b, k < 7 := by
  intro k hk
  cases a <;> cases b <;> simp only [fabricPath] at hk
  · simp at hk; omega
  · have := hb _ rfl; simp at hk; omega
  · have := ha _ rfl; simp at hk; omega
  · have := ha _ rfl
    have := hb _ rfl
    split at hk <;> simp at hk
    omega

/-- A register access passes ports of the fabric alone. -/
theorem regPath_lt (w : Who) (p : Nat) : ∀ k ∈ fabricPath (srcRegion w) (pageRegion p), k < 7 :=
  fabricPath_lt (srcRegion_le w) (pageRegion_le p)

/-- A register write that meets nothing on its way changes TOLL's and the Daybook's accounts, has the effect of its
register, and is answered SERVED; a Locksmith command has an outcome of its own (R281). -/
theorem submitWrite_clear (s : State) (i : Init) (a : Nat) (v : Word) (h : clear s i a v = true)
    (ha : a ≠ reg pLOCK 0x090) :
    ∃ s', Light s s' ∧
      (logsWrite a v = false → s'.dayb = s.dayb ∧ s'.fresh = s.fresh ∧ ∀ b, pageOf b ≠ pTOLL → rd s' b = rd s b) ∧
      submitWrite s i a v = served (writeEffect s' ⟨i.who, clsFor s i⟩ a v) i a := by
  unfold clear at h
  dsimp only at h
  simp only [Bool.and_eq_true, Bool.or_eq_true, Bool.not_eq_true', Option.isNone_iff_eq_none] at h
  obtain ⟨⟨⟨⟨⟨h1, h3⟩, h5⟩, h6⟩, h7⟩, h8⟩ := h
  obtain ⟨u, hu⟩ := Option.isSome_iff_exists.1 h3
  have he : atPage s i a v = u := by simp [atPage, hu]
  rw [he] at h5 h6 h7 h8
  obtain ⟨l1, l1d, l1f, l1r⟩ := light_entered (regPath_lt i.who (pageOf a)) hu
  have hcode : ∀ t, writeCode t a v = oSERVED := by
    intro t; unfold writeCode; simp [ha]
  have hsub : submitWrite s i a v = finPlain s.toll.waiting.length u { writeReq s i a v with path := [] } := by
    unfold submitWrite
    rw [submitPlain_open _ _ _ h1]
    exact enter_entered _ hu
  obtain ⟨r, hr⟩ : ∃ r : Req, r = { writeReq s i a v with path := [] } := ⟨_, rfl⟩
  have hw : r.who = i.who := by rw [hr]; rfl
  have hcl : r.cls = clsFor s i := by rw [hr]; rfl
  have hbody : r.body = .regWrite a v := by rw [hr]; rfl
  have hsink : r.sink = (writeReq s i a v).sink := by rw [hr]
  have hbook : ({ r with logging := true } : Req) = bookReq s i a v := by rw [hr]; rfl
  have hd : ∀ t, delayOf t r false = 0 := by rw [hr]; exact fun t => rfl
  rw [hsub, ← hr]
  unfold finPlain
  dsimp only
  rw [hbody, hw, hcl]
  dsimp only
  rw [h5, h6, h7]
  simp only [Bool.false_eq_true, or_self, if_false]
  by_cases hl : logsWrite a v = true
  · rw [if_pos hl]
    rcases h8 with h8 | h8
    · simp [hl] at h8
    obtain ⟨x, hx⟩ := Option.isSome_iff_exists.1 h8
    obtain ⟨l2, -, -, -⟩ := light_passes (by simp) hx
    have hlog : logStage s.toll.waiting.length u r = finLogged x (bookReq s i a v) := by
      unfold logStage
      rw [hbook]
      exact walk_passes _ _ hx
    rw [hlog]
    unfold finLogged
    have hb2 : (bookReq s i a v).body = .regWrite a v := rfl
    rw [hb2]
    dsimp only
    unfold writeLogged
    dsimp only
    rw [hcode]
    have hd : ∀ t, delayOf t (bookReq s i a v) false = 0 := fun t => rfl
    have hf : finalOut oSERVED 0 = oSERVED := by decide
    generalize hX : (writeChange _ _ _ _ _ _ _ _ : Change) = X
    generalize hY : (writeChange (logChange x X) _ _ _ _ _ _ _ : Change) = Y
    generalize hT : (if districtAbsent (logChange x X) a v = true then logRefusal (logChange x X) Y else logChange x X) = T
    have hl3 : Light s T := by
      subst hT
      refine (l1.trans l2).trans ?_
      have l3 := light_dayReserve x X
      split
      · exact l3.trans (light_logRefusal _ _)
      · exact l3
    refine ⟨T, hl3, fun hn => by simp [hl] at hn, ?_⟩
    unfold endServed
    rw [hd, hf]
    exact answer_served _ s i a v _ _ rfl rfl
  · rw [if_neg hl]
    refine ⟨u, l1, fun _ => ⟨l1d, l1f, l1r⟩, ?_⟩
    unfold endServed
    rw [hcode, hd]
    exact answer_served _ s i a v _ _ hsink hbody

/-- How a command that may move the clock ends: `t` is what its operation made of the state, `u`, but for the clock, the
guard, the pins' lines and the queue. -/
structure Done (s u t : State) : Prop where
  regs : t.regs = u.regs
  staged : t.staged = u.staged
  latch : t.latch = u.latch
  dram : t.dram = u.dram
  toll : t.toll = u.toll
  lac : t.lac = u.lac
  loom : t.loom = u.loom
  loops : t.loops = u.loops
  pts : t.pts = u.pts
  defSel : t.defSel = u.defSel
  past : t.past = u.past
  fresh : t.fresh = u.fresh
  dayb : t.dayb = u.dayb
  eth : t.eth = u.eth
  opx : t.opx = u.opx
  bus : t.bus = u.bus
  sf : t.sf = u.sf
  fio : t.fio = u.fio
  vault : t.vault = u.vault
  wgh : t.wgh = u.wgh
  fact : t.fact = u.fact
  sgn : t.sgn = u.sgn
  scrv : t.scrv = u.scrv
  fltm : t.fltm = u.fltm
  upd : t.upd = u.upd
  free : t.free = u.free
  clk : t.clk = s.clk.later u.clk
  guard : t.guard = s.guard.advance u.guard
  pending : t.pending = s.pending
  rd : ∀ a, rd t a = rd u a
  gpioPulse : t.pins.gpioPulse = u.pins.gpioPulse
  syncOut : t.pins.syncOut = u.pins.syncOut
  pcieWakeN : t.pins.pcieWakeN = u.pins.pcieWakeN
  clkreqN : t.pins.clkreqN = u.pins.clkreqN
  faultN : t.pins.faultN = !faultLow u
  t0 : t.pins.t0 = intLine u 0

/-- A register row whose write meets nothing on its way: it ends in a next state, which is the effect of the register on
the state with TOLL's and the Daybook's accounts brought up to date. -/
theorem row_clear {s : State} {i : Init} {a : Nat} {v : Word} (h : clear s i a v = true) (ha : a ≠ reg pLOCK 0x090)
    {p : State → Prop}
    (hp : ∀ s' t, Light s s' → Done s (writeEffect s' ⟨i.who, clsFor s i⟩ a v) t → p t) :
    ∃ t, finishClock s (submitWrite s i a v) = .next t ∧ p t := by
  obtain ⟨s', hl, -, hs⟩ := submitWrite_clear s i a v h ha
  rw [hs]
  refine ⟨_, rfl, hp s' _ hl ?_⟩
  unfold served
  split <;> constructor <;> intros <;> rfl

/-- The same of a write that is not logged: the Daybook stands too. -/
theorem row_clear_unlogged {s : State} {i : Init} {a : Nat} {v : Word} (h : clear s i a v = true)
    (ha : a ≠ reg pLOCK 0x090) (hn : logsWrite a v = false) {p : State → Prop}
    (hp : ∀ s' t, Light s s' → s'.dayb = s.dayb → s'.fresh = s.fresh → (∀ b, pageOf b ≠ pTOLL → rd s' b = rd s b) →
      Done s (writeEffect s' ⟨i.who, clsFor s i⟩ a v) t → p t) :
    ∃ t, finishClock s (submitWrite s i a v) = .next t ∧ p t := by
  obtain ⟨s', hl, hu, hs⟩ := submitWrite_clear s i a v h ha
  obtain ⟨hu1, huf, hu2⟩ := hu hn
  rw [hs]
  refine ⟨_, rfl, hp s' _ hl hu1 huf hu2 ?_⟩
  unfold served
  split <;> constructor <;> intros <;> rfl

/-- The answer of a read that is served. -/
def readAnswer (t : State) (i : Init) (a : Nat) (x : Word) : State :=
  { t with replies := t.replies ++ [⟨i.who, a, oSERVED, [x]⟩] }

/-- A register read that meets nothing on its way changes TOLL's accounts, has the effect of reading its register, and is
answered SERVED with the register's value. -/
theorem submitRead_clear (s : State) (i : Init) (a : Nat) (h : clearRead s i a = true) :
    ∃ s', Light s s' ∧
      submitRead s i a = readAnswer (readEffect s' i.who a false) i a (readVal s' i.who a) := by
  unfold clearRead at h
  simp only [Bool.and_eq_true, Bool.not_eq_true'] at h
  obtain ⟨⟨⟨h1, h3⟩, h5⟩, h6⟩ := h
  obtain ⟨u, hu⟩ := Option.isSome_iff_exists.1 h3
  have he : atRead s i a = u := by simp [atRead, hu]
  rw [he] at h5 h6
  obtain ⟨l1, -, -, -⟩ := light_entered (regPath_lt i.who (pageOf a)) hu
  have hsub : submitRead s i a = finPlain s.toll.waiting.length u { readReq s i a with path := [] } := by
    unfold submitRead
    rw [submitPlain_open _ _ _ h1]
    exact enter_entered _ hu
  obtain ⟨r, hr⟩ : ∃ r : Req, r = { readReq s i a with path := [] } := ⟨_, rfl⟩
  have hw : r.who = i.who := by rw [hr]; rfl
  have hbody : r.body = .regRead a := by rw [hr]; rfl
  have hd : ∀ t, delayOf t r false = 0 := by rw [hr]; exact fun t => rfl
  have hs : r.sink = ownSink i.who a false := by rw [hr]; rfl
  rw [hsub, ← hr]
  unfold finPlain
  dsimp only
  rw [hbody, hw]
  dsimp only
  rw [h5, h6]
  simp only [Bool.false_eq_true, if_false, Bool.not_true]
  refine ⟨u, l1, ?_⟩
  have hf : finalOut oSERVED 0 = oSERVED := by decide
  unfold endServed
  rw [hd, hf]
  unfold answer readAnswer
  have ho : (oSERVED % 16 < 2) = True := by decide
  rw [hs, hbody]
  obtain ⟨w, c⟩ := i
  cases w <;> simp [ho, ownSink, hostRecord, plainData, nthD]

/-- A read row that meets nothing on its way ends in a next state: the effect of reading, with the value answered. -/
theorem read_clear {s : State} {i : Init} {a : Nat} (h : clearRead s i a = true) {p : State → Prop}
    (hp : ∀ s' t, Light s s' → Done s (readEffect s' i.who a false) t →
      t.replies = (readEffect s' i.who a false).replies ++ [⟨i.who, a, oSERVED, [readVal s' i.who a]⟩] → p t) :
    ∃ t, finishClock s (submitRead s i a) = .next t ∧ p t := by
  obtain ⟨s', hl, hs⟩ := submitRead_clear s i a h
  rw [hs]
  refine ⟨_, rfl, hp s' _ hl ?_ rfl⟩
  unfold readAnswer
  constructor <;> intros <;> rfl

/-! ### Page headers -/

theorem pageOf_reg (p : Nat) {o : Nat} (h : o < 4096) : pageOf (reg p o) = p := by unfold pageOf reg; omega
theorem offOf_reg (p : Nat) {o : Nat} (h : o < 4096) : offOf (reg p o) = o := by unfold offOf reg; omega

/-- A header offset of a page with a header holds a register. -/
theorem rowOf_header {p o : Nat} (hp : headed p = true) (ho : o < 0x080)
    (hr : (headerRows.find? fun r => r.covers o).isSome = true) : (rowOf (reg p o)).isNone = false := by
  unfold headed at hp
  simp only [Bool.and_eq_true, Bool.not_eq_true'] at hp
  unfold rowOf pageRows
  rw [pageOf_reg p (by omega), offOf_reg p (by omega), hp.2]
  simp only [Bool.false_eq_true, if_false, hp.1, if_true, List.find?_append]
  cases h : headerRows.find? fun r => r.covers o with
  | none => simp [h] at hr
  | some r => simp

/-- The effect of a write to a header register. -/
theorem writeEffect_header (s : State) (i : Init) {p o : Nat} (v : Word) (hp : headed p = true) (ho : o < 0x080)
    (hr : (headerRows.find? fun r => r.covers o).isSome = true) :
    writeEffect s i (reg p o) v = writeHeader s p o v := by
  have h1 := rowOf_header hp ho hr
  unfold headed at hp
  simp only [Bool.and_eq_true, Bool.not_eq_true'] at hp
  unfold writeEffect
  dsimp only
  rw [h1, pageOf_reg p (by omega), offOf_reg p (by omega), hp.2]
  simp [ho]

/-- A header register other than the Daybook's is none of a request's accounts. -/
theorem booked_header {p o : Nat} (ho : o < 0x080) : booked (reg p o) = false := by
  unfold booked
  rw [pageOf_reg p (by omega), offOf_reg p (by omega)]
  have h1 : ¬ 0x200 ≤ o := by omega
  have h2 : ¬ 0x084 ≤ o := by omega
  simp [h1, h2]

end Sys2Proof.Laws
end

