-- ==== Sys2Proof/WellFormed.lean ====
section
/-!
DEFINITION. Which commands are well formed: what the table's rows and the formats they come in allow, where the types of the
operands allow more.
-/

namespace Sys2Proof

/-- The initiators that send register accesses (R20, R355): the host, the service port, the supervisor cores and OPX
sessions. -/
def Who.sends : Who → Bool
  | .host => true
  | .service => true
  | .core _ => true
  | .opx _ => true
  | .hw _ => false
  | .loom => false
  | .loop _ => false

/-- A sender that may send register accesses. -/
def Init.wf (i : Init) : Bool := i.who.sends

/-- The data bytes of a frame's data length code (ISO 11898-1). -/
def BusFrame.size (f : BusFrame) : Nat :=
  match f.dlc.toNat with
  | 9 => 12
  | 10 => 16
  | 11 => 20
  | 12 => 24
  | 13 => 32
  | 14 => 48
  | 15 => 64
  | n => n

/-- A frame as its format allows: a base identifier of 11 bits, 8 data bytes at most without FDF, BRS only with FDF. -/
def BusFrame.wf (f : BusFrame) : Bool :=
  (f.ide || decide (f.id.toNat < 2048)) && (f.fdf || !f.brs) &&
    f.data.length == (if f.fdf then f.size else min 8 f.size)

/-- A service request's address and COUNT (R358): a word address, 1–256 words. -/
def svcCount (addr : DWord) (count : Nat) : Bool := addr.toNat % 4 == 0 && decide (1 ≤ count ∧ count ≤ 256)

/-- A well-formed command. -/
def Instr.wf : Instr → Bool
  | .registerWrite i addr _ _ => i.wf && addr.toNat % 4 == 0
  | .rcRead i addr => i.wf && addr.toNat % 4 == 0
  | .accountingWindowStart pos => pos % 8192 == 0
  | .requestGrant _ => true
  | .delayBudgetExpiry _ => true
  | .angleEventFire _ => true
  | .angleEventDeferredFire => true
  | .pulseEnd _ => true
  | .angleLoRead i _ => i.wf
  | .angleHiRead i => i.wf
  | .aetWord0Stage i _ _ => i.wf
  | .aetEntryCommit i _ _ => i.wf
  | .lacCtrlWrite i _ => i.wf
  | .lacNetSessionWrite i _ => i.wf
  | .syncPulse _ => true
  | .syncMissing => true
  | .netrefLost => true
  | .referenceInvalid => true
  | .referenceValid _ => true
  | .trackerConverged _ _ => true
  | .acquireTimeout => true
  | .flyLimit => true
  | .scanRun i => i.wf
  | .scanStop i => i.wf
  | .scandbgHold i => i.wf
  | .scandbgResume i => i.wf
  | .scandbgStepSeg i => i.wf
  | .scandbgStepScan i => i.wf
  | .segmentStart _ _ _ => true
  | .lmNop _ => true
  | .lmEnd _ => true
  | .lmLdp _ _ _ _ => true
  | .lmLdq _ _ _ => true
  | .lmLdst _ _ _ => true
  | .lmStp _ _ _ _ => true
  | .lmStpc _ _ _ _ => true
  | .lmRls _ _ => true
  | .lmLds _ _ _ => true
  | .lmSts _ _ _ => true
  | .lmLdi _ _ _ _ => true
  | .lmLdih _ _ _ => true
  | .lmMov _ _ _ => true
  | .lmSel _ _ _ _ _ => true
  | .lmCvt _ _ _ _ _ => true
  | .lmAdd _ _ _ _ _ => true
  | .lmSub _ _ _ _ _ => true
  | .lmMul _ _ _ _ _ => true
  | .lmDiv _ _ _ _ _ => true
  | .lmMod _ _ _ _ => true
  | .lmNeg _ _ _ _ => true
  | .lmAbs _ _ _ _ => true
  | .lmMin _ _ _ _ _ => true
  | .lmMax _ _ _ _ _ => true
  | .lmAddi _ t _ _ => decide (t ≠ .float32)
  | .lmCeq _ _ _ _ _ => true
  | .lmCne _ _ _ _ _ => true
  | .lmClt _ _ _ _ _ => true
  | .lmCle _ _ _ _ _ => true
  | .lmCgt _ _ _ _ _ => true
  | .lmCge _ _ _ _ _ => true
  | .lmAnd _ _ _ _ _ => true
  | .lmOr _ _ _ _ _ => true
  | .lmXor _ _ _ _ _ => true
  | .lmNot _ _ _ _ => true
  | .lmShl _ t _ _ _ => decide (t ≠ .float32)
  | .lmShr _ t _ _ _ => decide (t ≠ .float32)
  | .lmBtst _ _ _ _ => true
  | .lmAndi _ t _ _ => decide (t ≠ .float32)
  | .lmOri _ t _ _ => decide (t ≠ .float32)
  | .lmLim _ _ _ _ _ _ => true
  | .lmScl _ _ _ _ _ _ => true
  | .lmIntp _ _ _ _ => true
  | .lmTon _ _ _ _ => true
  | .lmTof _ _ _ _ => true
  | .lmTp _ _ _ _ => true
  | .lmCtu _ _ _ _ => true
  | .lmCtd _ _ _ _ => true
  | .lmRtrig _ _ _ _ => true
  | .lmFtrig _ _ _ _ => true
  | .lmLspw _ _ x => decide (x.toNat < 256)
  | .lmLstr _ _ x => decide (x.toNat < 256)
  | .lmLout _ _ x => decide (x.toNat < 256)
  | .lmEmit _ _ _ => true
  | .lmRdf _ _ => true
  | .lmClf _ => true
  | .pgmxLoad i => i.wf
  | .pgmxCopyDone => true
  | .pgmxVerifyDone => true
  | .pgmxSwitch i => i.wf
  | .pgmxCancel i => i.wf
  | .programSwitch => true
  | .forceWord0Stage i _ _ => i.wf
  | .forceEntryCommit i _ _ => i.wf
  | .loopSample _ _ => true
  | .loopComputation _ => true
  | .loopOutput _ _ => true
  | .loopCtrlWrite i _ _ => i.wf
  | .loopSpWrite i _ _ => i.wf
  | .converterSample _ _ _ => true
  | .returnToX32 _ => true
  | .gridSample pos => pos % 256 == 0
  | .sampleAccumulate => true
  | .measurandPublish => true
  | .demandIntervalEnd => true
  | .snap i => i.wf
  | .clearEnergy i => i.wf
  | .clearMaxdem i => i.wf
  | .hselWrite i _ => i.wf
  | .checkpointDone _ => true
  | .checkpointRetry => true
  | .powerFailTrigger => true
  | .finalSaveDone => true
  | .powerRestored => true
  | .sqTail i _ _ => i.wf
  | .cqHead i _ _ => i.wf
  | .solve => true
  | .register => true
  | .confirm => true
  | .factorisationDone pivots => decide (pivots.length ≤ 1572864)
  | .admmIteration => true
  | .residualCheck => true
  | .maxIterReached => true
  | .timeLimitReached => true
  | .solveResume => true
  | .periodBoundary _ => true
  | .commandedWrite i _ _ level => i.wf && decide (1 ≤ level.toNat ∧ level.toNat ≤ 16)
  | .setRelinquish i _ _ => i.wf
  | .relinquish i _ level => i.wf && decide (1 ≤ level.toNat ∧ level.toNat ≤ 16)
  | .defSel i _ => i.wf
  | .defStage i _ _ => i.wf
  | .defCfg i _ => i.wf
  | .dayEntryWrite => true
  | .drainSeqLo i _ => i.wf
  | .drainSeqHi i _ => i.wf
  | .frameReceive _ bytes _ _ => !bytes.isEmpty
  | .pauseRepeat _ => true
  | .pauseExpiry _ => true
  | .pauseWatchdog _ => true
  | .holdoffEnd _ => true
  | .txFrameStart _ => true
  | .txFrameEnd _ => true
  | .txUnderrun _ => true
  | .ethTxrTail i _ _ => i.wf
  | .ethRxrTail i _ _ => i.wf
  | .opxFrameTake _ => true
  | .reassemblyTimeout _ _ => true
  | .inputImage _ _ => true
  | .pointRead _ _ => true
  | .pointWrite _ _ => true
  | .regWindowRead _ _ => true
  | .regWindowWrite _ _ => true
  | .solveData _ _ => true
  | .updateChunk _ _ => true
  | .status _ _ => true
  | .statusPeriodSend => true
  | .leaseTake _ _ => true
  | .leaseRenew _ _ => true
  | .leaseRelease _ _ => true
  | .openSession _ => true
  | .close _ _ => true
  | .timeRef _ _ => true
  | .timeRefSend => true
  | .sessionIdleTimeout _ => true
  | .sessClose i v => i.wf && v.getLsbD 31
  | .mbFrameReceive _ f => f.wf
  | .objectTimeout _ _ => true
  | .mbQHead i _ _ _ => i.wf
  | .txobjStage i _ _ w _ => i.wf && !(w.val == 1 || w.val == 2 || w.val == 3)
  | .txobjCommit i _ _ _ => i.wf
  | .mbTxrTail i _ _ => i.wf
  | .mbFrameSend _ => true
  | .mbTxDone _ _ => true
  | .busOffRecovery _ => true
  | .mbEnable i _ v => i.wf && v.getLsbD 0
  | .mbSleep i _ => i.wf
  | .mbWake i _ => i.wf
  | .mbRecover i _ => i.wf
  | .clearQ0 i _ => i.wf
  | .clearQ1 i _ => i.wf
  | .busWakeEvent _ f => f.all BusFrame.wf
  | .sfTxStart _ => true
  | .sfTxDone _ => true
  | .characterReceive _ _ _ _ _ => true
  | .idleGap _ => true
  | .sfTxrTail i _ _ => i.wf
  | .sfRxrHead i _ _ => i.wf
  | .diFilterAccept _ _ => true
  | .wireBreak _ => true
  | .wireBreakClear _ => true
  | .countEdge _ => true
  | .cntClr i _ => i.wf
  | .doCmdWrite i _ => i.wf
  | .doThermalShutdown _ => true
  | .doShutdownRelease _ => true
  | .groupFault _ => true
  | .fieldUndervoltage => true
  | .fieldSupplyRestored => true
  | .frameStart => true
  | .frameEnd => true
  | .epdPgoodRise => true
  | .pgoodTimeout => true
  | .pgoodLost => true
  | .panelPowerOff => true
  | .temperatureRead _ => true
  | .regionStage i _ _ _ => i.wf
  | .regionGo i _ v => i.wf && v.getLsbD 2
  | .loadLut i => i.wf
  | .balance i => i.wf
  | .locksmithReady => true
  | .remask => true
  | .lockStage i => i.wf
  | .lockCommit i => i.wf
  | .lockCancel i => i.wf
  | .lockErase i => i.wf
  | .derive i => i.wf
  | .attest i => i.wf
  | .lcOwn i => i.wf
  | .lcRetire i => i.wf
  | .tamperTrip cause => cause != 0 && cause &&& 0x30 == 0
  | .backupPowerOn => true
  | .vbakLow => true
  | .secondBoundary => true
  | .trimCorrection => true
  | .calendarWrite i _ _ => i.wf
  | .calSecRead i => i.wf
  | .calYearRead i => i.wf
  | .tornRead who => who.sends
  | .wakeTimer => true
  | .ponSet i => i.wf
  | .ponRelease i => i.wf
  | .clearLost i => i.wf
  | .clearTamper i => i.wf
  | .errorDetected _ kind _ => kind != 0
  | .eccCorr _ _ => true
  | .discardComplete => true
  | .assayerTestStart _ => true
  | .assayerTestDone _ _ => true
  | .transientWindowClose _ => true
  | .patrolTest _ _ => true
  | .selftestStart i _ v => i.wf && v.getLsbD 31
  | .fltmAck i => i.wf
  | .fire i => i.wf
  | .capture => true
  | .recordWrite => true
  | .freeze i => i.wf
  | .unfreeze i => i.wf
  | .freezeTimeout => true
  | .clearPerm i => i.wf
  | .modeWrite i _ => i.wf
  | .sealedWrite i => i.wf
  | .unsealCmd i => i.wf
  | .unlock i => i.wf
  | .protLock i => i.wf
  | .fptGo i v => i.wf && v.getLsbD 31
  | .resetNLow => true
  | .startUp _ _ => true
  | .vholdExhausted => true
  | .pfwResetDeferred => true
  | .updTakeLease i => i.wf
  | .updRenew i => i.wf
  | .updRelease i => i.wf
  | .updSubmit i => i.wf
  | .updCancel i => i.wf
  | .updConfirm i => i.wf
  | .updFail i => i.wf
  | .patchBuildDone _ => true
  | .leaseExpiry => true
  | .actTimeReached => true
  | .checkTimeout => true
  | .perst => true
  | .hostwinCAccess off wr len =>
    match wr with
    | some bs => !bs.isEmpty && decide (off.toNat + bs.length ≤ 2 ^ 26)
    | none => decide (1 ≤ len ∧ off.toNat + len ≤ 2 ^ 26)
  | .svcAttach => true
  | .regRead _ _ addr count => svcCount addr count
  | .regWrite _ _ addr vs => svcCount addr vs.length
  | .memRead _ _ addr count => svcCount addr count
  | .memWrite _ _ addr vs => svcCount addr vs.length
  | .winRead _ _ addr count => svcCount addr count
  | .irqPendSet i _ _ => i.wf
  | .irqPendClr i _ _ => i.wf
  | .irqMaskSet i _ _ => i.wf
  | .irqMaskClr i _ _ => i.wf
  | .pageEnable i _ _ => i.wf
  | .softReset i _ => i.wf
  | .intcPendSet i _ _ => i.wf
  | .intcPendClr i _ _ => i.wf
  | .intcMaskSet i _ _ => i.wf
  | .intcMaskClr i _ _ => i.wf
  | .sleepGo i => i.wf
  | .wakeFromSleep _ => true
  | .ppsIn => true
  | .correctionCycleEnd => true
  | .ethLinkChange _ _ => true
  | .hostLinkChange _ _ _ => true
  | .svcDetach => true
  | .ppsOutEnd => true
  | .pcieWakeTimeout => true

end Sys2Proof
end

