-- ==== Sys2Proof/Tests/Slice0.lean ====
section
/-!
SUPPORT. Tests: an ill-formed term for each check of WellFormed, a witness for the hypotheses of each statement and of its
clauses at the ends of their ranges, and single steps on small states.
-/

namespace Sys2Proof.Tests

set_option Elab.async false

open Sys2Proof Sys2Proof.Machine

/-! ### Small states -/

/-- A module in operation with a mode word. -/
def live (m : BitVec 8) : State := { State.reset with guard := { State.reset.guard with
  operational := true, step := 0, pgood := true, inReset := false, mode := m } }

/-- A supervisor core, class OPERATOR. -/
def op : Init := ⟨.core 0, .operator⟩

/-- Registers set to values. -/
def regs (s : State) (l : List (Nat × Word)) : State := l.foldl (fun t e => wr t e.1 e.2) s

/-- The module with the host link up and the service port attached, both with every right and an OPERATOR ceiling. -/
def linked (s : State) : State :=
  { regs s [(reg pHOSTP 0x084, 0x53#32), (reg pPROT 0x08C, 0x22#32), (reg pPROT 0x090, 0x1FF#32), (reg pPROT 0x094, 0x1FF#32)] with
    pins := { s.pins with svc := true } }

/-! ### Ill-formed commands -/

theorem test_wf_sender : Instr.wf (.scanRun ⟨.loom, .control⟩) = false := by decide
theorem test_wf_torn_read : Instr.wf (.tornRead (.hw 3)) = false := by decide
theorem test_wf_register_write : Instr.wf (.registerWrite op 0x05082 0xF 0) = false := by decide
theorem test_wf_rc_read : Instr.wf (.rcRead op 0x0B0B2) = false := by decide
theorem test_wf_window : Instr.wf (.accountingWindowStart 8191) = false := by decide
theorem test_wf_addi : Instr.wf (.lmAddi 0 .float32 0 1) = false := by decide
theorem test_wf_shifts : Instr.wf (.lmShl 0 .float32 0 1 2) = false ∧ Instr.wf (.lmShr 0 .float32 0 1 2) = false := by decide
theorem test_wf_andi_ori : Instr.wf (.lmAndi 0 .float32 0 1) = false ∧ Instr.wf (.lmOri 0 .float32 0 1) = false := by decide
theorem test_wf_loop_number : Instr.wf (.lmLspw 0 0 256) = false ∧ Instr.wf (.lmLstr 0 0 256) = false ∧
    Instr.wf (.lmLout 0 0 256) = false ∧ Instr.wf (.lmLout 0 0 255) = true := by decide
theorem test_wf_grid : Instr.wf (.gridSample 257) = false := by decide
theorem test_wf_level : Instr.wf (.commandedWrite op 1 0 0) = false ∧ Instr.wf (.commandedWrite op 1 0 17) = false ∧
    Instr.wf (.relinquish op 1 0) = false ∧ Instr.wf (.relinquish op 1 16) = true := by decide
theorem test_wf_frame : Instr.wf (.frameReceive 0 [] true false) = false := by decide
theorem test_wf_sess_close : Instr.wf (.sessClose op 5) = false := by decide
theorem test_wf_bus_frame : Instr.wf (.mbFrameReceive 0 ⟨2048, false, false, false, 0, []⟩) = false ∧
    Instr.wf (.mbFrameReceive 0 ⟨1, false, false, true, 0, []⟩) = false ∧
    Instr.wf (.mbFrameReceive 0 ⟨1, false, false, false, 2, [0]⟩) = false ∧
    Instr.wf (.busWakeEvent 0 (some ⟨2048, false, false, false, 0, []⟩)) = false := by decide
theorem test_wf_txobj : Instr.wf (.txobjStage op 0 0 1 0) = false ∧ Instr.wf (.txobjStage op 0 0 3 0) = false := by decide
theorem test_wf_mb_enable : Instr.wf (.mbEnable op 0 2) = false := by decide
theorem test_wf_region_go : Instr.wf (.regionGo op 0 3) = false := by decide
theorem test_wf_tamper : Instr.wf (.tamperTrip 0) = false ∧ Instr.wf (.tamperTrip 0x10) = false := by decide
theorem test_wf_error : Instr.wf (.errorDetected ⟨0, 0, 0x48, 0⟩ 0 0) = false := by decide
theorem test_wf_selftest : Instr.wf (.selftestStart op 0 1) = false := by decide
theorem test_wf_fpt_go : Instr.wf (.fptGo op 1) = false := by decide
theorem test_wf_aperture : Instr.wf (.hostwinCAccess 0x3FFFFFF (some [0, 0]) 0) = false ∧
    Instr.wf (.hostwinCAccess 0 none 0) = false ∧ Instr.wf (.hostwinCAccess 0 (some []) 1) = false := by decide
theorem test_wf_service : Instr.wf (.regRead .operator 0 2 1) = false ∧ Instr.wf (.memRead .operator 0 0 257) = false ∧
    Instr.wf (.regWrite .operator 0 0 []) = false ∧ Instr.wf (.winRead .operator 0 4 0) = false := by decide

/-! ### Witnesses: the machine, TOLL, interrupts and the host port -/

theorem test_w_count : (∀ c ∈ ([.ppsIn] : List Instr).head?, resets c = false) ∧
    (step { State.reset with pending := [.ppsIn] } |> fun o => match o with | .next _ => true | _ => false) = true := by decide +kernel
theorem test_w_register_write : clear (live 0) op (reg pINTC 0x140) 5 = true ∧ clear (live 0) op (reg pINTC 0x15C) 5 = true ∧
    clear (live 0) op (reg pBKP 0x100) 5 = true ∧ clear (live 0) op (reg pBKP 0x13C) 5 = true ∧
    clear (live 0) op (reg pINTC 0x400) 5 = true ∧ clear (live 0) op (reg pINTC 0x7FC) 5 = true := by decide +kernel
theorem test_w_reserved_write : clear (live 0) op (reg pINTC 0xFFC) 5 = true ∧ rowOf (reg pINTC 0xFFC) = none ∧
    clear (live 0) op (reg pMOD 0x13C) 5 = true ∧ rowOf (reg pMOD 0x13C) = none := by decide +kernel
theorem test_w_rc_read : clearRead (live 0) op (reg pSCAN 0x0B0) = true ∧
    clearRead (linked (live 0)) ⟨.host, .tenant⟩ (reg pSCAN 0x0B0) = true := by decide +kernel
theorem test_w_window : 8192 % 8192 = 0 ∧ ((live 0).toll.win = 0 ∨ (live 0).toll.winStart < 8192) ∧ (live 0).clk.moves = true ∧
    (∀ r ∈ (live 0).toll.waiting, r.cls ≠ .bulk ∧ expired (reachPos (live 0) 8192) r = false) ∧ (live 0).toll.held = [] ∧
    (∀ m ∈ (live 0).toll.asm, m.todo = []) ∧ (live 0).fact.posts = [] := by decide +kernel

/-- A DRAM read of a core. -/
def dreq (c : Cls) : Req := ⟨.core 0, c, .dramRead 4096 16, .own (.core 0) 4096, [5], false, 0, 0, 1, 0, false⟩

/-- Requests that wait. -/
def waits (rs : List Req) : State := { live 0 with toll := { (live 0).toll with win := 1, waiting := rs } }

theorem test_w_grant_safety : (nextGrant (waits [dreq .operator, dreq .safety, dreq .control]) 5).map (·.2.cls) = some .safety ∧
    (∃ e ∈ grantable (waits [dreq .operator, dreq .safety, dreq .control]) 5, e.2.cls = .safety) := by decide +kernel
theorem test_w_grant_control : (nextGrant (waits [dreq .operator, dreq .control]) 5).map (·.2.cls) = some .control ∧
    (∀ e ∈ grantable (waits [dreq .operator, dreq .control]) 5, e.2.cls ≠ .safety) ∧
    ∃ e ∈ grantable (waits [dreq .operator, dreq .control]) 5, e.2.cls = .control := by decide +kernel
theorem test_w_urgent : heldRead (live 0) (dreq .safety) = false ∧ aheadOf (live 0) (dreq .safety) 5 = false ∧
    heldRead (live 0) (dreq .control) = false ∧ aheadOf (live 0) (dreq .control) 8 = false ∧ logOk (live 0) .control = true := by
  decide +kernel
theorem test_w_waiting : (waits [dreq .tenant]).toll.waiting = [dreq .tenant] ∧ (dreq .tenant).path = [5] ∧ 4096 + 16 ≤ Config.dramBytes ∧
    (waits [dreq .tenant]).toll.held = [] ∧ (∀ x ∈ (waits [dreq .tenant]).toll.asm, x.todo = []) ∧
    mayGrant (waits [dreq .tenant]) 5 .tenant = true ∧ expired (waits [dreq .tenant]) (dreq .tenant) = false ∧
    overBudget (waits [dreq .tenant]) (.core 0) .tenant 5 1 = false ∧
    overBudget (waits [dreq .control]) (.core 0) .control 5 1 = false := by
  decide +kernel
theorem test_w_delay_budget : ∀ s : State, s = { waits [dreq .tenant] with clk := { State.reset.clk with acc := 2 ^ 60 } } →
    (dreq .tenant).cls = .tenant ∧
      s.toll.delay * scanT s ≤ (dreq .tenant).waited + (count s - (dreq .tenant).arrived) := by
  rintro _ rfl; decide +kernel

theorem test_w_interrupts : headed pMOD = true ∧ clear (live 0) op (reg pMOD 0x014) 1 = true ∧ clear (live 0) op (reg pMOD 0x018) 1 = true ∧
    clear (live 0) op (reg pMOD 0x020) 1 = true ∧ clear (live 0) op (reg pMOD 0x024) 1 = true ∧ headed pHOSTP = true ∧
    clear (live 0) op (reg pHOSTP 0x014) 1 = true := by decide +kernel
theorem test_w_intc_sources : clear (live 0) op (reg pINTC 0x0A0) 1 = true ∧ clear (live 0) op (reg pINTC 0x0BC) 1 = true ∧
    clear (live 0) op (reg pINTC 0x0DC) 1 = true ∧ clear (live 0) op (reg pINTC 0x11C) 1 = true ∧
    clear (live 0) op (reg pINTC 0x13C) 1 = true := by decide +kernel

theorem test_w_event_write : clear (live 0) op (reg pLAC 0x088) 1 = true ∧
    (rowOf (reg pLAC 0x088)).map (·.w1c) = some 0x1FF := by decide +kernel

/-- A software source pending for T0 at two priorities. -/
def twoSources : State := regs (live 0) [(reg pINTC 0x090, 3#32), (reg pINTC 0x600, 1#32), (reg pINTC 0x604, 2#32)]

theorem test_w_top_source : intLine (live 0) 0 = false ∧ intLine twoSources 0 = true ∧ candidate twoSources 0 128 = true ∧
    srcBefore twoSources 128 = true ∧ candidate twoSources 0 129 = true ∧ srcBefore twoSources 129 = true ∧
    { live 0 with clk := (live 0).clk.advance 1 }.fresh.1 ≠ { live 0 with clk := (live 0).clk.advance 1 }.clk.fabric ∧ fld (topSource twoSources 0) 0 10 = 129 := by decide +kernel
theorem test_w_page_enable : headed pLOOP = true ∧ clear (live 0) op (reg pLOOP 0x008) (w32 (b2n false)) = true ∧
    clear (live 0) op (reg pLOOP 0x008) (w32 (b2n true)) = true ∧ headed pAET = true ∧
    clear (live 0) op (reg pAET 0x008) (restartWord (live 0) pAET) = true := by decide +kernel
theorem test_w_sleep : clear (live 0) op (reg pINTC 0x170) 1 = true ∧ sleepResult (live 0) = 1 ∧ wakeEn (live 0) pDAYB = false ∧
    clear (live 1) op (reg pINTC 0x170) 1 = true ∧ roleSet (live 1) = true := by decide +kernel

/-- Asleep, with a pending software source that is enabled as a wake source. -/
def dozing : State :=
  let s := regs (live 0) [(reg pINTC 0x090, 1#32), (reg pINTC 0x150, 1#32)]
  { s with guard := { s.guard with asleep := true } }

theorem test_w_wake : dozing.guard.asleep = true ∧ sleepSource 128 = true ∧ wakeEn dozing 128 = true ∧ srcPending dozing 128 = true ∧
    rdF dozing (reg pINTC (0x400 + 4 * 128)) 4 1 = 0 ∧ (live 0).pins.svc = false := by decide +kernel
theorem test_w_wake_limit : (live 0).clk.fabric < (live 0).pins.wakeAt + Config.fabricHz ∧
    ∀ s : State, s = { live 0 with clk := { State.reset.clk with fabric := Config.fabricHz } } →
      s.pins.wakeAt + Config.fabricHz ≤ s.clk.fabric := ⟨by decide +kernel, by rintro _ rfl; decide +kernel⟩
theorem test_w_aperture : rdB (linked (live 0)) (reg pHOSTP 0x084) 0 = true ∧
    rd64 (linked (live 0)) (reg pHOSTP 0x09C) / 2 ^ 26 * 2 ^ 26 + 0x3FFFFF8 + 8 ≤ Config.dramBytes ∧
    hasRight (linked (live 0)) .host rWRITE = true ∧ hasRight (linked (live 0)) .host rREAD = true ∧
    (linked (live 0)).guard.safe = false ∧ (linked (live 0)).guard.dead = false ∧
    room (linked (live 0)) .host (clsFor (linked (live 0)) ⟨.host, .operator⟩) (.dramWrite 0x3FFFFF8 [1, 2, 3, 4, 5, 6, 7, 8]) = true ∧
    room (linked (live 0)) .host (clsFor (linked (live 0)) ⟨.host, .operator⟩) (.dramRead 0x3FFFFF8 8) = true := by decide +kernel
theorem test_w_service : (linked (live 0)).pins.svc = true ∧ (∀ m ∈ (linked (live 0)).toll.asm, m.svc = false) ∧
    retiredPg (linked (live 0)) pBKP = false ∧ room (linked (live 0)) .service .operator (.regRead (reg pBKP 0x13C)) = true ∧
    hasRight (linked (live 0)) .service rREG = true ∧ clear (linked (live 0)) ⟨.service, .operator⟩ (reg pBKP 0x100) 9 = true ∧
    room (linked (live 0)) .service .operator (.dramRead (Config.dramBytes - 4) 4) = true ∧
    room (linked (live 0)) .service .operator (.dramWrite (Config.dramBytes - 4) (leBytes 4 9)) = true ∧
    room (linked (live 0)) .service .operator (.winRead 0xE00000) = true := by decide +kernel

theorem test_w_part_write : ∀ r, r = newReq (live 0) op.who (clsFor (live 0) op) (.regWritePart 0x18000) (ownSink op.who 0x18000 true) →
    portOpen (live 0) op.who = true ∧ (∃ u, entered (live 0) r = some u ∧ pageAbsent u op.who 0x18 = false) ∧ fusedOff (live 0) 0x18 = false ∧ logOk (live 0) r.cls = true ∧
    (live 0).dayb.lost = 0 := by
  rintro _ rfl
  exact ⟨by decide +kernel, ⟨_, rfl, by decide +kernel⟩, by decide +kernel⟩
theorem test_part_write : (match execRegisterWrite op 0x18000 3 0 (live 0) with
    | .next t => t.dayb.reserved.map (fun e => (e.outcome, e.old == e.new, e.target)) == [(oRIGHTS, true, 0x18000)] && t.guard == (live 0).guard &&
      rd t 0x18000 == rd (live 0) 0x18000
    | _ => false) = true := by decide +kernel

/-! ### Witnesses: Millwheel and Loom's engine -/

/-- Millwheel in service, in a tracker state. -/
def spinning (tr : Track) (m : BitVec 8) : State := { live m with lac := { State.reset.lac with
  started := true, track := tr, inService := true, refValid := true, fly := some 0, syncAt := some 0, syncGood := 1, netAt := some 0 } }

/-- LAC.CTRL.SOURCE set. -/
def sourced (s : State) (n : Nat) : State := wrF s (reg pLAC 0x080) 0 2 n

/-- Entry 64 enabled at angle 100 to RAISE, and as many more as asked at the same angle. -/
def events (s : State) (n : Nat) : State :=
  regs s ((List.range n).flatMap fun k => [(aetAddr (64 + k) 0, 0xA0000064#32), (aetAddr (64 + k) 1, w32 (1 + 256 * k))])

theorem test_w_aet_due : (aetDue (events (spinning .locked 0) 9) 100).length = 9 ∧
    (⟨72, 100, false, aetW0 (events (spinning .locked 0) 9) 72, aetW1 (events (spinning .locked 0) 9) 72⟩ : Fire) ∈
      aetDue (events (spinning .locked 0) 9) 100 ∧ aetDue (events (spinning .locked 0) 9) 101 = [] := by decide +kernel
theorem test_w_aet_fire : (events (spinning .locked 0) 9).lac.inService = true ∧ (events (spinning .locked 0) 9).lac.evald < 100 ∧
    (events (spinning .locked 0) 9).clk.moves = true ∧ (events (spinning .locked 0) 9).lac.deferred = [] ∧
    ∀ f ∈ aetDue (events (spinning .locked 0) 9) 100, userFire f = true := by decide +kernel
/-- Entry 64 changed at position 100, and the state after the count has passed it. -/
def changed : State := { regs (spinning .locked 0) [(aetAddr 64 0, 0xA0000064#32)] with past := [⟨3, 64, 0, 100, 0, 0, ⟨.int32, 7#32, 0⟩⟩] }

theorem test_w_aet_was : (∀ e ∈ (events (spinning .locked 0) 9).past, e.kind = 3 → e.pos < 100) ∧
    (∀ e ∈ changed.past, e.pos ≤ 100) ∧ aetWas changed 64 0 100 = 7#32 ∧ aetWas changed 64 0 101 = 0xA0000064#32 := by decide +kernel
theorem test_w_aet_deferred : ∀ f ∈ [(⟨511, 100, false, 0xA0000064#32, 1#32⟩ : Fire)], userFire f = true := by decide +kernel
theorem test_w_aet_nothing : (live 0).lac.inService = false ∧ 0 ≤ (spinning .locked 0).lac.evald := by decide +kernel
theorem test_w_angle_reads : retiredPg (live 0) pLAC = false ∧ clearRead (live 0) op (reg pLAC 0x08C) = true ∧
    clearRead (live 0) op (reg pLAC 0x090) = true ∧
    clearRead (submitRead (live 0) op (reg pLAC 0x08C)) op (reg pLAC 0x090) = true := by decide +kernel
theorem test_w_aet_writes : clear (live 0) op (aetAddr 64 0) 0xA0000064 = true ∧ clear (live 0) op (aetAddr 511 0) 0xA0000064 = true ∧
    clear (wr (live 0) (aetAddr 511 0) 0xA0000064) op (aetAddr 511 1) 0xFF01 = true ∧
    clear (wr (live 0) (aetAddr 64 0) 0xA0000064) op (aetAddr 64 1) 1 = true := by decide +kernel
theorem test_w_lac_ctrl : clear (spinning .locked 0) op (reg pLAC 0x080) 0x01140001 = true ∧
    fld (0x01140001#32) 0 2 ≠ fld (lacCtrl (spinning .locked 0)) 0 2 ∧ fld (0x01140001#32) 0 2 ≠ 3 ∧
    ¬(mISLAND (spinning .locked 0) = true ∧ fld (0x01140001#32) 0 2 = 0) ∧
    clear (spinning .locked 0) op (reg pLAC 0x080) 0x0A5A0400 = true ∧
    fld (0x0A5A0400#32) 0 7 = fld (lacCtrl (spinning .locked 0)) 0 7 ∧ fld (0x0A5A0400#32) 4 3 < 6 := by decide +kernel
theorem test_w_net_session : clear (sourced (spinning .locked 0) 2) op (reg pLAC 0x0AC) 7 = true ∧
    fld (lacCtrl (sourced (spinning .locked 0) 2)) 0 2 = 2 ∧ (7#32) ≠ rd (sourced (spinning .locked 0) 2) (reg pLAC 0x0AC) ∧
    fld (lacCtrl (spinning .locked 0)) 0 2 ≠ 2 := by decide +kernel
theorem test_w_references : sourceEff (sourced (spinning .locked 0) 1) = 1 ∧ sourceEff (sourced (spinning .locked 0) 2) = 2 ∧
    sourceEff (spinning .locked 0) = 0 ∧ inLockRange 42500 = true ∧ inLockRange 69000 = true ∧
    (spinning .flywheel 0).lac.track = .flywheel ∧ (spinning .acquire 0).lac.track = .acquire ∧
    (spinning .locked 0).lac.started = true ∧ (spinning .locked 0).lac.syncAt = some 0 ∧ (spinning .locked 0).lac.netAt = some 0 := by
  decide +kernel
theorem test_w_voltage : magAbove (spinning .locked 0) 0 (sagThr (spinning .locked 0)) = false ∧
    magAbove (spinning .locked 0) 10000000 (sagThr (spinning .locked 0) + 5) = true ∧ inLockRange 42499 = false ∧
    4096 ≤ (-4096 : Int).natAbs ∧ (4095 : Int).natAbs < 4096 ∧
    (∀ s : State, s = { sourced (spinning .flywheel 0) 2 with lac := { (spinning .flywheel 0).lac with netGood := 2 } } →
      sourceEff s = 2 ∧ decide (2 ≤ s.lac.netGood) = true ∧ s.lac.track = .flywheel) ∧
    (∀ (p : Int) (s : State), p = 4095 ∨ p = -4096 →
      s = { spinning .locked 0 with lac := { (spinning .locked 0).lac with seen := ⟨10000000, 42500, p⟩ } } →
      sourceEff s = 0 ∧ s.lac.track = .locked ∧ magAbove s s.lac.seen.mag (sagThr s) = true ∧
        inLockRange s.lac.seen.freq = true ∧ (p = 4095 → s.lac.seen.ph.natAbs < 4096) ∧
        (p = -4096 → 4096 ≤ s.lac.seen.ph.natAbs)) ∧
    (decide (2 ≤ (sourced (spinning .flywheel 0) 1).lac.syncGood) && inLockRange 50000) = false := by
  refine ⟨by decide +kernel, by decide +kernel, by decide +kernel, by decide, by decide, ?_, ?_, by decide +kernel⟩
  · rintro _ rfl; decide +kernel
  · rintro p _ (rfl | rfl) rfl <;> decide +kernel
theorem test_w_sync_pulse : ∀ s : State, s = { sourced (spinning .locked 0) 1 with clk := { State.reset.clk with fabric := 8000000 } } →
    sourceEff s = 1 ∧ (true = !bit (lacCtrl s) 11) ∧ s.lac.syncAt = some 0 ∧ 1 ≤ s.lac.syncGood ∧
      Config.fabricHz ≤ (s.clk.fabric - rdF s (reg pLAC 0x0A8) 8 8 * 4 - 0) * 69 ∧
      (s.clk.fabric - rdF s (reg pLAC 0x0A8) 8 8 * 4 - 0) * 85 ≤ Config.fabricHz * 2 ∧
      inLockRange (Config.fabricHz * 1000 / (s.clk.fabric - rdF s (reg pLAC 0x0A8) 8 8 * 4 - 0)) = true := by
  rintro _ rfl; decide +kernel
theorem test_w_first_lock : ∀ s : State, s = { live 0 with lac := { State.reset.lac with started := true, refValid := true } } →
    s.lac.track = .acquire ∧ s.lac.refValid = true ∧ inLockRange 50000 = true ∧ s.lac.inService = false ∧ sourceEff s ≠ 2 ∧
      s.lac.deferred = [] ∧ ∀ r ∈ s.toll.waiting, r.cls ≠ .bulk ∧ r.cls ≠ .tenant := by rintro _ rfl; decide +kernel
theorem test_w_later_lock : (spinning .acquire 0).clk.freq = 50000 * 1000 ∧
    foldAu (((656#16).toNat : Int) - angleOf (count (spinning .acquire 0))) = 656 ∧
    foldAu (((655#16).toNat : Int) - angleOf (count (spinning .acquire 0))) = 655 ∧
    foldAu (((64880#16).toNat : Int) - angleOf (count (spinning .acquire 0))) = -656 ∧
    aetStepDue (spinning .acquire 0) (count (spinning .acquire 0)) (count (spinning .acquire 0) + 656) = [] ∧
    bit (lacCtrl (wrB (spinning .acquire 0) (reg pLAC 0x080) 9 true)) 9 = true ∧
    aetStepDue (wrB (spinning .acquire 0) (reg pLAC 0x080) 9 true) 0 (65536 - 656) = [] ∧
    bit (lacCtrl (wrB (spinning .acquire 0) (reg pLAC 0x080) 9 false)) 9 = false := by decide +kernel
theorem test_w_acquire_timeout : ∀ s : State, s = { live 0 with lac := { State.reset.lac with started := true } } →
    s.lac.started = true ∧ s.lac.track = .acquire ∧ s.lac.from_ = .reset ∧ s.lac.inService = false ∧ s.lac.refValid = false := by
  rintro _ rfl; decide +kernel
theorem test_w_fly_and_correction : (spinning .flywheel 0).lac.track = .flywheel ∧ (spinning .flywheel 0).lac.fly = some 0 ∧
    ∀ s : State, s = { live 0 with clk := { State.reset.clk with corrNow := -655, corrLeft := -1, corrEnd := 65536 } } →
      s.clk.corrNow ≠ 0 ∧ count s < s.clk.corrEnd ∧ 0 < s.clk.step := by
  refine ⟨rfl, rfl, ?_⟩; rintro _ rfl; decide +kernel

/-- A program of two segments: NOP and END; LDI and END. -/
def prog : Program := ⟨1, 8, 64, 2, 7,
  [⟨0, 2, 0, [], [], [1]⟩, ⟨2, 2, 0, [], [], []⟩], [], [], [], [⟨9, 1, 1, 0, 0⟩], [0x00000000#32, 0x04000000#32, 0#32, 0x04000000#32]⟩

/-- FLOOR, COMMISSION and DEBUG with that program active, Loom in an engine state. -/
def weaving (e : Engine) : State :=
  let s := spinning .locked 0x19
  { s with loom := { s.loom with eng := e, bankA := ⟨.active, [], some prog⟩ } }

/-- A latched scan that has not committed. -/
def scan (r : Bool) : Scan := ⟨true, 100, 100, r, 5, [], [], [], [], [], [], if r then [(0, .empty), (1, .empty)] else [], [], none⟩

/-- Loom with that scan. -/
def scanning (e : Engine) (r : Bool) : State :=
  let s := weaving e
  { s with loom := { s.loom with cur := some (scan r), curDone := false } }

/-- SCAN_COMMIT placed at angle 200. -/
def committing (r : Bool) : State := regs (scanning .run r) [(aetAddr 1 0, 0x900000C8#32), (aetAddr 1 1, 5#32)]

theorem test_w_scan_run : clear (weaving .stop) op (reg pSCAN 0x08C) 1 = true ∧ (weaving .stop).loom.eng = .stop ∧
    1024 ≤ rdF (wrF (weaving .stop) (reg pSCAN 0x088) 0 23 1024) (reg pSCAN 0x088) 0 23 ∧
    rdF (wrF (weaving .stop) (reg pSCAN 0x088) 0 23 1024) (reg pSCAN 0x088) 0 23 ≤ scanT (weaving .stop) - 1024 ∧
    rdF (wrF (weaving .stop) (reg pSCAN 0x080) 0 4 0) (reg pSCAN 0x080) 0 4 = 0 := by decide +kernel
theorem test_w_scan_stop : clear (weaving .run) op (reg pSCAN 0x08C) 2 = true ∧ clear (weaving .stop) op (reg pSCAN 0x08C) 2 = true ∧
    (weaving .run).loom.eng ≠ .stop := by decide +kernel
theorem test_w_hold : clear (scanning .run false) op (reg pSCANDBG 0x080) 1 = true ∧ (scanning .run false).loom.eng = .run ∧
    (scanning .run false).loom.paused = false ∧ scanAt (scanning .run false) 0 = some (scan false) ∧
    pendingSegs (scanning .run false) (scan false) = [0, 1] ∧ busyNow (scanning .run false) = false := by decide +kernel
theorem test_w_resume_and_step : ∀ s : State, s = { scanning .hold false with loom := { (scanning .hold false).loom with paused := true } } →
    clear s op (reg pSCANDBG 0x080) 2 = true ∧ clear s op (reg pSCANDBG 0x080) 3 = true ∧
      clear s op (reg pSCANDBG 0x080) 4 = true ∧ s.loom.eng = .hold ∧ s.loom.paused = true := by rintro _ rfl; decide +kernel
theorem test_w_commit : ∀ b : Bool, (committing b).lac.inService = true ∧ (committing b).lac.evald < 200 ∧ (committing b).lac.deferred = [] ∧
    aetDue (committing b) 200 = [⟨1, 200, false, aetW0 (committing b) 1, aetW1 (committing b) 1⟩] ∧
    fld (aetW1 (committing b) 1) 0 8 = 5 ∧ (committing b).guard.asleep = false ∧ (committing b).loom.eng = .run ∧
    activeProg (committing b) = some prog ∧ (committing b).loom.prev = none ∧ scanAt (committing b) 0 = some (scan b) ∧
    (committing b).loom.paused = false ∧ (scan b).ready = b ∧ (committing b).loom.held = false ∧
    overBudget (reachPos (committing b) 200) .loom .control 7 (scanEffects (scan b)).outs.length = false := by decide +kernel

/-- The stop image of a program of one output is to be committed. -/
def stopping : State :=
  let s := committing false
  { s with loom := { s.loom with
    eng := .stop, stopPending := true, bankA := ⟨.active, [], some { prog with outs := [⟨7, 0, .q16, true, 5#32, 0⟩] }⟩ } }

theorem test_w_stop_commit : aetDue stopping 200 = [⟨1, 200, false, aetW0 stopping 1, aetW1 stopping 1⟩] ∧
    (activeProg stopping).isSome = true ∧ overBudget (reachPos stopping 200) .loom .control 7 1 = false ∧
    stopValue stopping ⟨7, 0, .q16, true, 5#32, 0⟩ = some 5#32 := by decide +kernel
theorem test_w_overrun_stop : rdF (wrF (committing false) (reg pSCAN 0x080) 8 4 1) (reg pSCAN 0x080) 8 4 ≠ 0 ∧
    rdF (wrF (committing false) (reg pSCAN 0x080) 8 4 1) (reg pSCAN 0x080) 8 4 ≤
      rdF (wrF (committing false) (reg pSCAN 0x080) 8 4 1) (reg pSCAN 0x090) 8 8 + 1 ∧
    rdF (wrF (committing false) (reg pSCAN 0x080) 8 4 0) (reg pSCAN 0x080) 8 4 = 0 ∧
    rdF (wrF (committing false) (reg pSCAN 0x080) 8 4 2) (reg pSCAN 0x090) 8 8 + 1 <
      rdF (wrF (committing false) (reg pSCAN 0x080) 8 4 2) (reg pSCAN 0x080) 8 4 := by decide +kernel

/-! ### Witnesses: segments, program exchange and forces -/

/-- Lane 3 executes segment 0 of the latched scan. -/
def laned : State :=
  let s := scanning .run false
  { s with loom := { s.loom with lanes := [(3, { Lane.idle with active := true })] } }

/-- A scan ahead at depths 1 and 2, the latched one ready. -/
def ahead : State :=
  let s := wrF (weaving .run) (reg pSCAN 0x080) 4 2 2
  let a : Scan := { scan false with latched := false }
  let b : Scan := { a with res := [(0, .empty), (1, .empty)] }
  { s with loom := { s.loom with cur := some (scan true), first := false, ahead1 := some b, ahead2 := some a } }

theorem test_w_segment_start : (lane (scanning .run false) 3).active = false ∧ cellOut (scanning .run false) pSCAN 3 = false ∧
    activeProg (scanning .run false) = some prog ∧ prog.segs.drop (0#14).toNat = ⟨0, 2, 0, [], [], [1]⟩ :: [⟨2, 2, 0, [], [], []⟩] ∧
    breakAt (scanning .run false) 0 = none ∧ scanAt (scanning .run false) 0 = some (scan false) ∧
    get? (scan false).res 0 = none ∧ inLane (scanning .run false) 0 0 = false ∧
    depsDone prog (scan false) ⟨0, 2, 0, [], [], [1]⟩ 0 = true := by decide +kernel
theorem test_w_segment_ahead : (lane ahead 0).active = false ∧ cellOut ahead pSCAN 0 = false ∧ breakAt ahead 0 = none ∧
    activeProg ahead = some prog ∧ scanAt ahead 2 = some { scan false with latched := false } ∧ aheadOpen ahead 2 = true ∧
    aheadOpen ahead 1 = true ∧ inLane ahead 2 0 = false ∧
    depsDone prog { scan false with latched := false } ⟨0, 2, 0, [], [], [1]⟩ 0 = true ∧
    mayRunAhead ahead prog 0 { scan false with latched := false } = true ∧
    0 + bufUsed ahead prog 2 { scan false with latched := false } ≤ 65536 := by decide +kernel
theorem test_w_lane : (lane laned 3).active = true ∧ scanAt laned (lane laned 3).depth = some (scan false) ∧
    eventCount laned (lane laned 3) < 256 ∧ intpTable laned (lane laned 3) 0 = none := by decide +kernel
theorem test_w_events_full : ∀ s : State, s = { laned with loom := { laned.loom with
    lanes := [(3, { Lane.idle with active := true, res := { SegRes.empty with evts := List.replicate 256 (1, 2) } })] } } →
    (lane s 3).active = true ∧ 256 ≤ eventCount s (lane s 3) := by rintro _ rfl; decide +kernel
theorem test_w_interpolation : ∀ s : State, s = { laned with loom := { laned.loom with words :=
    [(0, 2#32), (1, 0#32), (2, 0#32), (3, 10#32), (4, 20#32)] } } →
    intpTable s (lane s 3) 0 = some [(0, 0), (10, 20)] ∧ opIntp .int32 5 [(0, 0), (10, 20)] = .res (10, noFl) := by
  rintro _ rfl; decide +kernel
theorem test_w_arithmetic : F32.of 0x7FC00000 = .nan ∧ F32.of 0xFF800001 = .nan ∧ (5#32) ≠ 0 := by decide +kernel
theorem test_w_function_block : (lane laned 3).active = true ∧ (readFb laned (lane laned 3) 1).inPrev = false := by decide +kernel

/-- A state with its banks. -/
def banked (e : Engine) (a b : Bank) : State :=
  let s := weaving e
  { s with loom := { s.loom with bankA := a, bankB := b } }

theorem test_w_load : clear (weaving .run) op (reg pPGMX 0x084) 1 = true ∧ targetBank (weaving .run) = 1 ∧
    (bank (weaving .run) 1).st ≠ .loading ∧ (bank (weaving .run) 1).st ≠ .verifying ∧ (weaving .run).loom.swPending = false ∧
    rdF (wr (weaving .run) (reg pPGMX 0x098) 16777216) (reg pPGMX 0x098) 0 25 ≤ 16777216 := by decide +kernel
theorem test_w_copy_and_verify : bankIn (banked .stop ⟨.loading, [0], none⟩ .empty) .loading = some 0 ∧
    bankIn (banked .stop ⟨.active, [], some prog⟩ ⟨.verifying, [0], none⟩) .verifying = some 1 ∧
    verifyCause (banked .stop ⟨.active, [], some prog⟩ ⟨.verifying, [0], none⟩) [0] ≠ 0 ∧
    (∀ k, k = 2 ∨ k = 5 → overBudget (banked .stop ⟨.loading, [0], none⟩ .empty) .loom .control k (ceilDiv 1 64) = false) := by
  refine ⟨by decide +kernel, by decide +kernel, by decide +kernel, ?_⟩
  rintro k (rfl | rfl) <;> decide +kernel
theorem test_w_switch : ∀ s : State, s = banked .run ⟨.active, [], some prog⟩ ⟨.verified, [], some prog⟩ →
    clear s op (reg pPGMX 0x084) 2 = true ∧ clear s op (reg pPGMX 0x084) 3 = true ∧ s.loom.swPending = false ∧
      (bank s (targetBank s)).st = .verified := by rintro _ rfl; decide +kernel
theorem test_w_program_switch : ∀ s : State, s = { banked .stop ⟨.active, [], some prog⟩ ⟨.verified, [], some prog⟩ with
      loom := { (banked .stop ⟨.active, [], some prog⟩ ⟨.verified, [], some prog⟩).loom with swPending := true } } →
    s.loom.swPending = true ∧ s.loom.eng = .stop ∧ (bank s (targetBank s)).st = .verified ∧
      (bank s (targetBank s)).prog = some prog ∧ (activeBank s).prog = some prog ∧ prog.syms = [⟨9, 1, 1, 0, 0⟩] ∧
      overBudget s .loom .control 2 (1 + 1 + 1) = false ∧ overBudget s .loom .control 5 (1 + 1 + 1) = false := by
  rintro _ rfl; decide +kernel

/-- A VALUE point of type Q16.16 that may be forced. -/
def valuePt : Point := { Point.absent with cls := 2, ty := .q16, forceable := true }

/-- COMMISSION, with points at 0 (VALUE), 5 (INPUT) and 65,535 (OUTPUT). -/
def pointed (m : BitVec 8) : State := { live m with pts := [(0, valuePt), (5, { valuePt with cls := 1 }), (65535, { valuePt with cls := 3 })] }

/-- A force of point 0 staged by the core in an entry. -/
def forcing (n : Nat) (w : Word) : State := { pointed 8 with staged := [(initKey op.who (forceAddr n 0), w)] }

theorem test_w_force : clear (pointed 8) op (forceAddr 0 0) 0x80010000 = true ∧ clear (pointed 8) op (forceAddr 255 0) 0x80010000 = true ∧
    clear (forcing 0 0x80010000) op (forceAddr 0 1) 7 = true ∧ clear (forcing 255 0x8001FFFF) op (forceAddr 255 1) 7 = true ∧
    get? (forcing 0 0x80010000).staged (initKey op.who (forceAddr 0 0)) = some 0x80010000#32 ∧
    (forcing 0 0x80010000).loom.eng = .stop ∧ bit (0x80010000#32) 31 = true ∧ fld (0x80010000#32) 16 2 = 1 ∧
    (point (forcing 0 0x80010000) 0).present = true ∧ (point (forcing 0 0x80010000) 0).retired = false := by decide +kernel

/-! ### Witnesses: the loop engine and Weighhouse -/

/-- The loop engine running, a loop enabled with a destination word, at level 1, closed. -/
def looping (n : Nat) (dst : Word) : State :=
  let s := regs (spinning .locked 9) [(loopA n 0, 0x80000102#32), (loopA n 0x20, dst), (reg pLOOP 0x008, 1#32)]
  { s with pts := [(0, valuePt)] }

/-- With a sample, and with a result. -/
def sampled (good : Bool) : State :=
  let s := looping 255 0
  { s with loops := [(255, { LoopSt.zero with closing := false, sample := some ⟨8192, (List.range 32).map fun j => rd s (loopA 255 (4 * j)), 5, 3, 0, 0, good, false, true⟩ })] }
def computed (n : Nat) (dst : Word) : State := { looping n dst with loops := [(n, { LoopSt.zero with result := some ⟨160, 7, false, [], 0, 0, 0, 0⟩ })] }

theorem test_w_loop_sample : loopLive (looping 0 0) 0 = true ∧ loopLive (looping 255 0) 255 = true ∧
    8192 % (loopK (looping 0 0) 0 * 8192) = rdF (looping 0 0) (loopA 0 0x08) 0 24 ∧
    (∀ p ∈ (loopSt (looping 0 0) 0).lastPos, p < 8192) ∧ (loopSt (looping 0 0) 0).sample = none ∧ count (looping 0 0) ≤ 8192 ∧
    (looping 0 0).clk.moves = true ∧ skipped (looping 0 0) 8192 = false ∧ (looping 0 0).past = [] ∧
    (∀ k ∈ ptPath (.loop 0), overBudget (reachPos (looping 0 0) 8192) (.loop 0) .control k 4 = false) ∧
    rdB (looping 0 0) (loopA 0 0) 5 = false ∧ rdB (wrB (looping 0 0) (loopA 0 0) 5 true) (loopA 0 0) 5 = true := by decide +kernel
theorem test_w_loop_skipped : ∀ s : State, s = { looping 0 0 with lac := { (looping 0 0).lac with stepFrom := 100, stepTo := 24576 } } →
    loopLive s 0 = true ∧ skipped s 8192 = true ∧ 8192 + loopK s 0 * 8192 < s.lac.stepTo := by rintro _ rfl; decide +kernel
theorem test_w_loop_computation : ((loopSt (sampled true) 255).sample.map (·.good)) = some true ∧
    ((loopSt (sampled true) 255).sample.map fun m => fld (recAt m.rec_ 0) 0 2) = some 2 ∧
    ((loopSt (sampled false) 255).sample.map (·.good)) = some false := by decide +kernel
theorem test_w_loop_output : loopLive (computed 1 0x10000000) 1 = true ∧ (loopSt (computed 1 0x10000000) 1).result = some ⟨160, 7, false, [], 0, 0, 0, 0⟩ ∧
    count (computed 1 0x10000000) ≤ 160 ∧ (computed 1 0x10000000).clk.moves = true ∧
    (∀ k ∈ ptPath (.loop 1), overBudget (reachPos (computed 1 0x10000000) 160) (.loop 1) .control k 1 = false) ∧
    (∀ e ∈ (computed 1 0x10000000).past, e.cyc < (reachPos (computed 1 0x10000000) 160).clk.fabric) ∧
    rdF (computed 1 0x10000000) (loopA 1 0x20) 28 4 = 1 ∧
    dropCause (point (computed 1 0x10000000) (rdF (computed 1 0x10000000) (loopA 1 0x20) 0 16)) = 0 ∧
    rdF (computed 1 0x300000FF) (loopA 1 0x20) 28 4 = 3 ∧ rdF (computed 1 0x300000FF) (loopA 1 0x20) 0 16 = 255 ∧
    rdB (computed 1 0x300000FF) (loopA 255 0) 5 = false := by decide +kernel
theorem test_w_law : bit (recAt (List.replicate 32 (0x00010000#32)) 0) 3 = false ∧
    bit (recAt (List.replicate 32 (0x00010000#32)) 0) 2 = false ∧ LoopSt.zero.closing = true ∧
    hold48 (0 - 0 - 0 - 0) = 0 - 0 - 0 - 0 ∧ hold48 0 = 0 ∧ recI (List.replicate 32 (0#32)) 0x54 * 65536 ≤ 0 ∧
    0 ≤ recI (List.replicate 32 (0#32)) 0x50 * 65536 := by decide +kernel
theorem test_w_loop_ctrl : clear (live 8) op (loopA 0 0) 0x80001F3F = true ∧ bit (0x80001F3F#32) 31 = true ∧
    rdB (live 8) (loopA 0 0) 31 = false ∧ clear (live 8) op (loopA 255 0) 0x80000102 = true ∧
    clear (looping 255 0) op (loopA 255 0) 2 = true ∧ bit (2#32) 31 = false := by decide +kernel
theorem test_w_loop_sp : clear (live 8) op (loopA 0 0x24) 5 = true ∧ clear (live 8) op (loopA 255 0x24) 5 = true ∧
    spOverruled (live 8) 255 op.who = false := by decide +kernel

/-- A channel. -/
def channelled (c : Nat) (x : Chan) : State := { spinning .locked 0 with wgh := { Wgh.reset with chans := [(c, x)] } }

theorem test_w_converter : sensor (channelled 6 .reset) 6 = 1 ∧ sensor (channelled 23 .reset) 23 = 1 ∧
    rdB (channelled 6 .reset) (chA 6 0x18) 2 = false ∧ rdB (channelled 23 .reset) (chA 23 0x18) 2 = false ∧
    (chan (channelled 6 .reset) 6).run < 64 ∧ (chan (channelled 6 .reset) 6).test = none ∧
    (chan (channelled 23 { Chan.reset with test := some (true, false) }) 23).test = some (true, false) ∧
    x32Valid 7340032 (calibrate (channelled 6 .reset) 6 true 7340032) = true ∧
    (chan (channelled 6 { Chan.reset with x32 := true, run := 63 }) 6).x32 = true ∧
    x32Valid 7340033 (calibrate (channelled 6 .reset) 6 true 7340033) = false ∧ isVolt 6 = false ∧ corMode (channelled 6 .reset) 0x29 = false ∧
    runCounts 7340032 (calibrate (channelled 6 .reset) 6 false 131072) (calibrate (channelled 6 .reset) 6 true 7340032) = true ∧
    (chan (channelled 6 .reset) 6).x32 = false := by decide +kernel
theorem test_w_return : (chan (channelled 23 { Chan.reset with run := 64 }) 23).run = 64 := by decide +kernel

/-- Weighhouse running, with a grid sample that waits; circuit 1 enabled on channels 1 and 7. -/
def metering : State :=
  let s := regs (spinning .locked 1) [(cirA 0 0, 0x00010011#32), (chA 0 0, 9#32), (chA 6 0, 0xB#32), (reg pWGH 0x008, 1#32)]
  { s with wgh := { Wgh.reset with lastFab := some 0, lastPos := 0, queue := [⟨256, 12500, 12500, 0, [], [(0, 230 * 2 ^ 177), (6, 5 * 2 ^ 177)]⟩] } }

theorem test_w_grid_sample : wghRuns metering = true ∧ 256 % 256 = 0 ∧ metering.wgh.lastFab = some 0 ∧ metering.wgh.lastPos < 256 ∧
    skipped metering 256 = false ∧ count metering ≤ 256 ∧ metering.clk.moves = true ∧ metering.wgh.save ≠ .triggered := by decide +kernel
theorem test_w_accumulate : metering.wgh.queue = ⟨256, 12500, 12500, 0, [], [(0, 230 * 2 ^ 177), (6, 5 * 2 ^ 177)]⟩ :: [] ∧ cirOn metering 0 0 = true ∧
    cirOn metering 0 17 = false ∧
    (∀ p, p = cirPQ { metering with wgh := { metering.wgh with queue := [], hist := metering.wgh.queue } } 0 0 0 → 0 < p.num ∧ 0 < p.den) := by
  refine ⟨rfl, ?_, ?_, ?_⟩
  · decide +kernel
  · decide +kernel
  · rintro _ rfl; decide +kernel
theorem test_w_publish : wghRuns metering = true ∧ metering.wgh.lastFab.isSome = true ∧ metering.clk.moves = true ∧
    metering.wgh.pubHalf + 36864 ≤ (metering.wgh.pubAgg / (aggN metering * 65536) + 1) * (aggN metering * 65536) + 8192 ∧
    (∀ k ∈ ptPath (.hw (Fin.ofNat 128 pWGH)),
      overBudget (reachPos metering (metering.wgh.pubHalf + 36864)) (.hw (Fin.ofNat 128 pWGH)) .control k 60 = false) ∧
    chUsed metering 0 0 = true ∧ rdB metering (reg pWGHPQ 0x084) 12 = false ∧
    windowOf { metering with wgh := { metering.wgh with pubHalf := 32768, hist := metering.wgh.queue } } (32768 + 32768 - 65536)
      (32768 + 32768) ≠ [] := by decide +kernel
theorem test_w_demand : wghRuns metering = true ∧
    (rdF metering (reg pCAL 0x088) 0 5 * 60 + rdF metering (reg pCAL 0x084) 0 6) % ivMinutes metering.wgh.dem0.code = 0 ∧
    rdF metering (reg pCAL 0x080) 0 6 = 0 ∧ metering.wgh.ivEnd = none ∧ { metering.wgh with queue := [] }.queue = [] ∧
    metering.wgh.dem0.irr = false := by decide +kernel
theorem test_w_energy_commands : clear (live 0) op (reg pWGHEN 0x080) 1 = true ∧ clear (live 0) op (reg pWGHEN 0x080) 2 = true ∧
    clear (live 0) op (reg pWGHEN 0x080) 3 = true ∧ clear (live 0) op (reg pWGHPQ 0x084) 2 = true ∧
    clear (live 0) op (reg pWGHPQ 0x084) 0x30 = true ∧ fld (0x30#32) 1 5 = 24 ∧ fld (2#32) 1 5 = 1 ∧
    clear (live 0) op (reg pWGHPQ 0x084) 0 = true := by decide +kernel

/-- A checkpoint, without and with its CRC-32. -/
def bare : Ckpt := ⟨[(0, 5)], [], ⟨2, 0, 0, 0, 0, false⟩, none, [], [], 256, 1, 0, false, 0⟩
def ckpt : Ckpt := { bare with crc := bare.sum }

theorem sum_crc (c : Ckpt) (w : Word) : ({ c with crc := w } : Ckpt).sum = c.sum := rfl

theorem test_w_ckpt : ckpt.valid = true := by
  rw [Ckpt.valid, beq_iff_eq]; exact (sum_crc bare bare.sum).symm

theorem test_w_checkpoints : ∀ s : State, s = { live 0 with wgh := { Wgh.reset with writing := some (1, ckpt, 3) } } →
    s.wgh.writing = some (1, ckpt, 3) ∧ s.pins.pfwAt = none ∧ s.wgh.stopped = false := by rintro _ rfl; exact ⟨rfl, rfl, rfl⟩
theorem test_w_retry : ∀ s : State, s = { live 0 with wgh := { Wgh.reset with retry := some (2, ckpt, 2) } } →
    s.wgh.retry = some (2, ckpt, 2) ∧ s.wgh.stopped = false ∧ s.wgh.writing = none := by rintro _ rfl; exact ⟨rfl, rfl, rfl⟩
theorem test_w_final_save : ∀ s : State, s = { live 0 with
      wgh := { Wgh.reset with save := .triggered, capture := some ckpt, stopped := true }, pins := { State.reset.pins with pfwAt := some 0 } } →
    s.wgh.save = .triggered ∧ s.wgh.capture = some ckpt ∧ s.pins.pfwAt.isSome = true := by rintro _ rfl; exact ⟨rfl, rfl, rfl⟩

/-! ### Witnesses: Factor -/

/-- Words as bytes. -/
def bytesOf (ws : List Nat) : List Byte := ws.flatMap (leBytes 4)

/-- DISTRICT, Factor enabled with a private region, one descriptor pending on queue 0 at ring index 0, more bytes in DRAM. -/
def solving (d : List Byte) (more : List Byte) (f : Fact) : State :=
  let s := regs (spinning .locked 2) [(reg pFACT 0x008, 1#32), (reg pFACT 0x084, 0x400008#32), (reg pFACT 0x090, 0xE0000000#32), (fq 0 0x088, 2#32),
    (fq 1 0x088, 2#32), (fq 0 0x08C, 1#32), (fq 0 0x094, 0x8000#32)]
  { ramWrite (ramWrite s 0 d) 0x1000 more with fact := f }

/-- A descriptor: TYPE, FLAGS, CLASS and HANDLE in its first word, TAG 9, its first address and U's as given, the other
addresses 0x2000, REF_TAG 7. -/
def descr (w0 a u : Nat) : List Byte :=
  bytesOf ([w0, 9, a, 0] ++ [0x2000, 0, 0x2000, 0, 0x2000, 0, u, 0, 0x2000, 0, 0x2000, 0, 0x2000, 0, 0x2000, 0] ++ List.replicate 10 0 ++ [7, 0])

/-- The pending entry. -/
def one : Fact := { Fact.reset with pend := [(0, [(0, 0)])] }

/-- An empty pattern, its hash in its last 32 bytes. -/
def patHead : List Byte := bytesOf [0x4F584650, 1, 0, 0, 0, 0, 0, 64, 96, 0, 0, 0, 0, 0, 0, 0]
def pat : List Byte := patHead ++ leBytes 32 (Crypto.sha256 patHead).toNat

/-- A pattern of one variable and one row without matrix entries. -/
def small : Pattern := ⟨1, 1, 0, 0, 64, []⟩

/-- A job of that pattern. -/
def job (ph : FactPhase) (k : Nat) : Solve :=
  { id := 0, age := 0, q := 0, desc := descr 0x05020101 0x2000 0x2000
    addrs := [0x2000, 0x2000, 0x2000, 0x2000, 0x2000, 0x2000, 0x2000], eps := [], maxIter := 3, timeLimit := 0, check := 2
    mu := 10, tau := 4, adapt := false, handle := 5, tag := 9, cls := .operator, kind := 0, phase := ph, rho := 0, iter := k
    refact := 0, sinceAdapt := 4, clamped := false, suspended := false, x := [0], z := [0], y := [0], xPrev := [0], yPrev := [0]
    rPrim := 0, rDual := 0, start := 0, spent := 0, since := 0, waited := 0 }

theorem test_w_doorbell : clear (live 2) op (reg pFACTQ 0x08C) 1 = true ∧ clear (linked (live 2)) ⟨.host, .operator⟩ (reg pFACTQ 0x0CC) 255 = true ∧
    clear (live 2) op (reg pFACTQ 0x09C) 1 = true ∧ clear (live 2) op (reg pFACTQ 0x0DC) 1 = true ∧ (live 2).fact.posts = [] := by decide +kernel
theorem test_w_register_wait : ∀ s : State, s = solving (descr 0x0F020000 0x1000 0) [] { one with cqUsed := [(0, 4)] } →
    takes s (· == 0) 0 0 = true ∧ fqSize s 0 ≤ cqKept s 0 := by rintro _ rfl; decide +kernel

/-- REGISTER of that pattern as handle 15. -/
def registering : State := solving (descr 0x0F020000 0x1000 0) pat one

theorem test_w_register : ∀ (s u : State) (d : List Byte), s = registering → u = atDesc s 0 0 → d = descAt s 0 0 →
    takes s (· == 0) 0 0 = true ∧ descRoom s 0 0 = true ∧ descClassOk u 0 d = true ∧ leAt d 8 8 % 64 = 0 ∧
      leAt d 8 8 + 64 ≤ Config.dramBytes ∧ patternBytes u (leAt d 8 8) = pat ∧
      vecOk u (leAt d 8 8) (ceilDiv (patternBytes u (leAt d 8 8)).length 4) = true ∧ factStopped u = false ∧ leAt d 3 1 = 15 ∧
      patternTotal u 15 + pat.length ≤ 167772160 ∧ handleInUse u 15 = false ∧ logOk u (clsOf (leAt d 2 1)) = true := by
  rintro _ _ _ rfl rfl rfl; decide +kernel
theorem test_w_pattern : patternOk pat = true := by decide +kernel

/-- A descriptor on handle 5, registered; P, A, q and l share the word at 0x2000, u stands at 0x2040 as 0. -/
def solveOn (w0 : Nat) (q : Word) (f : Fact) : State :=
  ramWrite (solving (descr w0 0x2000 0x2040) [] { f with handles := [(5, small)] }) 0x2000 (leBytes 4 q.toNat)

theorem test_w_solve_unregistered : ∀ (s u : State) (d : List Byte), s = solving (descr 0x05020001 0 0) [] one →
    u = atDesc s 0 0 → d = descAt s 0 0 → takes s (fun y => y != 0 && y != 2) 0 0 = true ∧ descRoom s 0 0 = true ∧ leAt d 0 1 = 1 ∧
      descClassOk u 0 d = true ∧ get? s.fact.handles (leAt d 3 1) = none := by rintro _ _ _ rfl rfl rfl; decide +kernel
theorem test_w_solve : ∀ (q : Word) (s u : State) (d : List Byte), q = 0 ∨ q = 0x7F800000 → s = solveOn 0x05020001 q one →
    u = atDesc s 0 0 → d = descAt s 0 0 → get? s.fact.handles (leAt d 3 1) = some small ∧
      takes s (fun y => y != 0 && y != 2) 0 0 = true ∧ descRoom s 0 0 = true ∧ leAt d 0 1 = 1 ∧ descClassOk u 0 d = true ∧
      solveAddrsOk u d small = true ∧ factStopped u = false ∧ leAt d 1 1 / 2 % 2 = 0 ∧ heldCount u < 4 ∧
      dataOk (jobData u (solveJob u (ageOf s 0 0) 0 d small)) = decide (q = 0) := by
  rintro _ _ _ _ (rfl | rfl) rfl rfl rfl <;> decide +kernel

/-- A held context of TAG 7 on the same data. -/
def holding : Fact := { one with held := [⟨{ job .checking 3 with addrs := [0x2000, 0x2000, 0x2000, 0x2000, 0x2040, 0x2000, 0x2000], tag := 7 }, { status := 0, outcome := oSERVED }⟩] }

theorem test_w_confirm_none : ∀ (s u : State) (d : List Byte), s = solveOn 0x05020002 0 one → u = atDesc s 0 0 → d = descAt s 0 0 →
    takes s (· == 2) 0 0 = true ∧ descRoom s 0 0 = true ∧ descClassOk u 0 d = true ∧
      ∀ h ∈ s.fact.held, h.job.tag ≠ leAt d 0x78 4 := by rintro _ _ _ rfl rfl rfl; decide +kernel
theorem test_w_confirm : ∀ (q : Word) (s u : State) (d : List Byte) (h : HeldCtx), q = 0 ∨ q = 0x3F800000 → s = solveOn 0x05020002 q holding →
    u = atDesc s 0 0 → d = descAt s 0 0 → h = holding.held[0] →
    takes s (· == 2) 0 0 = true ∧ descRoom s 0 0 = true ∧ descClassOk u 0 d = true ∧
      (s.fact.held.find? fun c => c.job.tag == leAt d 0x78 4) = some h ∧ get? s.fact.handles h.job.handle = some small ∧
      solveAddrsOk u (setNth d 1 0) small = true ∧ factStopped u = false ∧
      (confirmMatch (decide (leAt d 1 1 / 8 % 2 = 0)) (w32 (leAt d 0x50 4)) (w32 (leAt d 0x54 4)) (w32 (leAt d 0x58 4))
        (jobData u (reSolve u (ageOf s 0 0) 0 d h small)) (jobData u h.job) && decide (h.rec_.status = 0)) = true ∧
      clsOf (leAt d 2 1) ≠ .control ∧ dataOk (jobData u (reSolve u (ageOf s 0 0) 0 d h small)) = true := by
  rintro _ _ _ _ _ (rfl | rfl) rfl rfl rfl rfl <;> decide +kernel
/-- The actual q differs from the held forecast's. -/
def otherData : State := solveOn 0x05020002 0 { holding with held := holding.held.map fun h => { h with job := { h.job with addrs := [0x2000, 0x2000, 0x2080, 0x2000, 0x2040, 0x2000, 0x2000] } } }
theorem test_w_confirm_rejected : ∀ (s u : State) (d : List Byte) (h : HeldCtx), s = ramWrite otherData 0x2080 (leBytes 4 0x3F800000) →
    u = atDesc s 0 0 → d = descAt s 0 0 → some h = otherData.fact.held.head? →
    takes s (· == 2) 0 0 = true ∧ descRoom s 0 0 = true ∧ descClassOk u 0 d = true ∧
      (s.fact.held.find? fun c => c.job.tag == leAt d 0x78 4) = some h ∧ get? s.fact.handles h.job.handle = some small ∧
      solveAddrsOk u (setNth d 1 0) small = true ∧ factStopped u = false ∧
      (confirmMatch (decide (leAt d 1 1 / 8 % 2 = 0)) (w32 (leAt d 0x50 4)) (w32 (leAt d 0x54 4)) (w32 (leAt d 0x58 4))
        (jobData u (reSolve u (ageOf s 0 0) 0 d h small)) (jobData u h.job) && decide (h.rec_.status = 0)) = false ∧
      dataOk (jobData u (reSolve u (ageOf s 0 0) 0 d h small)) = true := by
  rintro _ _ _ _ rfl rfl rfl h
  cases h
  decide +kernel

/-- A job that runs or is suspended, and descriptors that wait. -/
def jobbing (r su : Option Solve) (w0 : Nat) (p : List (Nat × List (Nat × Nat))) : State :=
  solveOn w0 0 { Fact.reset with run := r, susp := su, pend := p }

/-- The pivots of a matrix of one variable and one row: 1 and −1, and with 0 in place of −1. -/
def pivots (ok : Bool) : List Word := [0x3F800000, if ok then 0xBF800000 else 0]

theorem test_w_factorising : ∀ s : State, s = jobbing (some (job .factorising 0)) none 0 [] → s.fact.run = some (job .factorising 0) ∧
    factRoom s .operator (factorCost s (job .factorising 0) + 1) = true ∧ (jobPattern s (job .factorising 0)).n = 1 ∧
    (jobPattern s (job .factorising 0)).m = 1 ∧ pivotFault 1 1 (pivots true) = false ∧ pivotFault 1 1 (pivots false) = true ∧
    crossed (jobData s (job .factorising 0)) = false ∧ factFits s (job .factorising 0) = true ∧
    factFits { s with fact := { s.fact with cacheBad := true } } (job .factorising 0) = false ∧
    factRoom { s with fact := { s.fact with cacheBad := true } } .operator
      (factorCost { s with fact := { s.fact with cacheBad := true } } (job .factorising 0) + 1) = true ∧
    cqFree s 0 = true := by rintro _ rfl; decide +kernel
/-- l is 1, u 0. -/
def crossing : State := ramWrite (jobbing (some { job .factorising 0 with addrs := [0x2000, 0x2000, 0x2000, 0x2080, 0x2000, 0x2000, 0x2000] }) none 0 [])
  0x2080 (leBytes 4 0x3F800000)
theorem test_w_crossed : ∀ (s : State) (j : Solve), s = crossing → j = { job .factorising 0 with addrs := [0x2000, 0x2000, 0x2000, 0x2080, 0x2000, 0x2000, 0x2000] } →
    s.fact.run = some j ∧ factRoom s j.cls (factorCost s j + 1) = true ∧ cqFree s 0 = true ∧ crossed (jobData s j) = true := by
  rintro _ _ rfl rfl; decide +kernel
theorem test_w_iterating : ∀ s : State, s = jobbing (some (job .iterating 0)) none 0x05010001 [] →
    s.fact.run = some (job .iterating 0) ∧ oldestAny s true = none ∧
      factRoom s .operator (iterCost s (iterated s (job .iterating 0))) = true := by rintro _ rfl; decide +kernel
theorem test_w_preempt : ∀ s : State, s = jobbing (some (job .iterating 0)) none 0x05010001 [(0, [(0, 0)])] →
    s.fact.run = some (job .iterating 0) ∧ factRoom s .operator (iterCost s (iterated s (job .iterating 0))) = true ∧
      rdB s (reg pFACT 0x080) 0 = true ∧ (oldestAny s true).isSome = true ∧ s.fact.susp = none ∧
      ((job .iterating 0).iter + 1) % (job .iterating 0).check ≠ 0 ∧ limitHit s { job .iterating 0 with iter := 1 } = false := by
  rintro _ rfl; decide +kernel
theorem test_w_check_ends : ∀ s : State, (checkOutcome s (job .checking 3)).isSome = true := by
  intro s
  refine List.findSome?_isSome_iff.2 ⟨(true, 1), ?_, rfl⟩
  have h : decide ((job .checking 3).maxIter ≤ (job .checking 3).iter) = true := rfl
  rw [h]
  exact .tail _ (.tail _ (.tail _ (.tail _ (.tail _ (.head _)))))
theorem test_w_check_room : ∀ (s : State) (k : Nat), k = 2 ∨ k = 3 → s = jobbing (some (job .checking k)) none 0 [] → cqFree s 0 = true ∧
    factRoom s .operator (endCost (job .checking k)) = true ∧ factRoom s .operator (stateCost (job .checking k)) = true ∧
    (job .checking k).cls ≠ .control := by
  rintro _ _ (rfl | rfl) rfl <;> decide +kernel
theorem test_w_check_goes_on : ∀ (s : State) (j : Solve), j = job .checking 2 →
    (bad64 (residualsOf s j).1 || bad64 (residualsOf s j).2.2.1) = false → ¬(residualsOf s j).1 ≤ (residualsOf s j).2.1 →
    primalInf (jobProblem s j) (nthD j.eps 2 0) j.y j.yPrev = false →
    dualInf (jobProblem s j) (nthD j.eps 3 0) j.x j.xPrev = false → checkOutcome s j = none := by
  intro s j hj h1 h2 h3 h4
  have ht : j.timeLimit = 0 := by rw [hj]; rfl
  have hm : ¬j.maxIter ≤ j.iter := by rw [hj]; decide
  simp only [checkOutcome, h1, h3, h4]
  simp [List.findSome?, h2, ht, hm]
theorem test_w_limits : (job .checking 3).maxIter ≤ (job .checking 3).iter ∧
    ∀ s : State, s = jobbing none none 0 [] → ∀ j, j = { job .checking 2 with timeLimit := 5, spent := 5 } →
      j.timeLimit ≠ 0 ∧ j.timeLimit ≤ jobTime s j ∧ 0 < j.iter := by
  refine ⟨by decide, ?_⟩; rintro _ rfl _ rfl; decide +kernel
theorem test_w_resume : ∀ s : State, s = jobbing none (some (job .iterating 1)) 0 [] →
    s.fact.run = none ∧ s.fact.susp = some (job .iterating 1) ∧ oldestAny s true = none ∧ s.fact.begun = none ∧ factStopped s = false ∧
      factRoom s .operator (stateCost (job .iterating 1)) = true ∧ ownFactor s (job .iterating 1) = false ∧
      ownFactor { s with fact := { s.fact with resident := some 5 } } (job .iterating 1) = true := by rintro _ rfl; decide +kernel
theorem test_w_period : (spinning .locked 0).lac.inService = true ∧ fusedOff (spinning .locked 0) pFACT = false ∧
    (750 * 65536) % 65536 = 0 ∧ cycleOf (750 * 65536) % max 1 (spinning .locked 0).fact.period = 0 ∧
    (∀ p, (spinning .locked 0).fact.lastB = some p → p < 750 * 65536) ∧ (spinning .locked 0).clk.moves = true := by
  refine ⟨rfl, by decide +kernel, by decide, by decide +kernel, ?_, by decide +kernel⟩
  intro p h; cases h

/-! ### Witnesses: the point store, the Daybook and the ports -/

/-- The word of a commanded write. -/
def cmdWord (v : Word) (L : Nat) : Nat := v.toNat + L * 2 ^ 32

/-- The point of index 0 retired. -/
def retiredPt : State := { pointed 8 with pts := [(0, { valuePt with retired := true })] }

theorem test_w_commanded : cellOut (pointed 8) pPTS 0 = false ∧ clearCommand (pointed 8) op 0 (cmdWord 7 1) = true ∧
    clearCommand (pointed 8) op 65535 (cmdWord 7 16) = true ∧ (point (pointed 8) 65535).retired = false ∧
    clearCommand (pointed 8) op 0 (16 * 2 ^ 32 + 2 ^ 39) = true ∧ clearCommand (pointed 8) op 0 (7 + 2 ^ 38) = true ∧
    clearCommand retiredPt op 0 (cmdWord 7 1) = true ∧ (point retiredPt 0).retired = true ∧ cellOut retiredPt pPTS 0 = false := by decide +kernel
theorem test_w_last_in_cycle : lastInCycle (pointed 8) op 0 (cmdWord 7 1) = true ∧ lastInCycle (pointed 8) op 65535 (cmdWord 7 16) = true ∧
    lastInCycle (pointed 8) op 0 (16 * 2 ^ 32 + 2 ^ 39) = true ∧ lastInCycle (pointed 8) op 0 (7 + 2 ^ 38) = true ∧
    lastInCycle retiredPt op 0 (cmdWord 7 1) = true := by decide +kernel
theorem test_w_definitions : clear (pointed 8) op (reg pPTS 0x088) 0xFFFF = true ∧ clear (pointed 8) op (reg pPTS 0x090) 7 = true ∧
    clear (pointed 8) op (reg pPTS 0x094) 7 = true ∧ clear (pointed 8) op (reg pPTS 0x08C) 0 = true ∧ fld (0#32) 8 2 = 0 ∧ selRecord (pointed 8) op.who = 0 ∧
    (shownPoint (pointed 8) op.who 0).cls = (point (pointed 8) 0).cls ∧
    clear (pointed 8) op (reg pPTS 0x08C) 0x3100 = true ∧ fld (0x3100#32) 8 2 = 1 ∧ fld (0x3100#32) 8 2 ≠ (point (pointed 8) 0).cls ∧
    clear (pointed 8) op (reg pPTS 0x08C) 0x2200 = true ∧ fld (0x2200#32) 8 2 = (point (pointed 8) 0).cls ∧
    clear (pointed 8) op (reg pPTS 0x08C) 0x2300 = true ∧ fld (0x2300#32) 8 2 = 3 := by decide +kernel

/-- The Daybook with HEAD_SEQ 3 and DRAIN_SEQ 1, a gap entry of SEQ 16,386 still to be written. -/
def logging : State := { live 0 with dayb := { Dayb.reset with head := 3, drain := 1, reserved := [⟨16386, 0, 0, 0, 8, 0, 0, 0, 0, false, true, 0, .control⟩] } }

theorem test_w_daybook : logging.dayb.reserved = ⟨16386, 0, 0, 0, 8, 0, 0, 0, 0, false, true, 0, .control⟩ :: [] ∧
    clear logging op (reg pDAYB 0x094) 3 = true ∧ clear logging op (reg pDAYB 0x098) 0 = true ∧
    logging.dayb.drain = 0 * 2 ^ 32 + (stagedOr logging op.who (reg pDAYB 0x094) (lo32 logging.dayb.drain)).toNat ∧
    clear logging op (reg pDAYB 0x098) 1 = true ∧ logging.dayb.head < 1 * 2 ^ 32 := by decide +kernel

/-- A frame to an address, of a type, its payload padded to 64 octets with the FCS. -/
def frameTo (dst ety : Nat) (p : List Byte) : List Byte :=
  let f := beBytes 6 dst ++ beBytes 6 0x020000000001 ++ beBytes 2 ety ++ p
  f ++ List.replicate (60 - f.length) 0 ++ [0, 0, 0, 0]

/-- One to all stations. -/
def frame (ety : Nat) (p : List Byte) : List Byte := frameTo 0xFFFFFFFFFFFF ety p

/-- FLOOR, a port, tested, and the OPX engine enabled, receiving and transmitting, OPX on IPv4 at the port's address 10.0.0.1. -/
def porting (n : Nat) (p : EthPort) : State :=
  let s := regs (spinning .locked 1) [(reg (ethPg n) 0x008, 1#32), (reg pOPX 0x008, 1#32), (reg (ethPg n) 0x080, 0x05EE0007#32),
    (reg (ethPg n) 0x094, 0x0A000001#32)]
  { s with eth := [(n, { p with tested := true })] }

/-- A UDP datagram to the engine, carrying an OPX message. -/
def udp (b : List Byte) : List Byte :=
  frame 0x0800 ([0x45, 0] ++ beBytes 2 (28 + b.length) ++ [0, 0, 0, 0, 64, 17, 0, 0, 10, 0, 0, 2, 10, 0, 0, 1] ++ beBytes 2 4000 ++
    beBytes 2 (rdF (live 0) (reg pOPX 0x080) 0 16) ++ beBytes 2 (8 + b.length) ++ [0, 0] ++ b)

theorem test_w_port_stopped : ethRuns (live 0) 17 = false := by decide +kernel
theorem test_w_port_runs : ethRuns (porting 0 .reset) 0 = true ∧ rdB (porting 0 .reset) (reg (ethPg 0) 0x080) 0 = true ∧
    corMode (porting 0 .reset) (ethPg 0) = false ∧ ethRuns (porting 17 .reset) 17 = true ∧ maxLen (porting 17 .reset) 17 = 1518 := by
  decide +kernel

/-- A PAUSE frame to the group address with some quanta. -/
def pauseFrame (q : Nat) : List Byte := frameTo 0x0180C2000001 0x8808 (beBytes 2 1 ++ beBytes 2 q)

theorem test_w_frame_kinds : (frame 0x88F7 []).length = 64 ∧ (pauseFrame 5).length = 64 ∧ beAt (pauseFrame 5) 12 2 = 0x8808 ∧
    pauseFor (porting 0 .reset) 0 (pauseFrame 5) = true ∧ pauseFor (porting 0 .reset) 0 (frame 0x8808 (beBytes 2 1 ++ beBytes 2 5)) = false ∧
    beAt (pauseFrame 5) 16 2 = 5 ∧ pauseFor (porting 0 .reset) 0 (pauseFrame 0) = true ∧ beAt (pauseFrame 0) 16 2 = 0 ∧
    (ethPort (porting 0 .reset) 0).holdoff = false := by decide +kernel
theorem test_w_filter : filterOk (porting 0 .reset) 0 (frame 0x88F7 []) = true ∧ filterOk (porting 0 .reset) 0 (setNth (frame 0x88F7 []) 0 2) = false ∧
    admits (porting 0 .reset) 0 = true ∧ admits (porting 0 { EthPort.reset with rxq := List.replicate 130 (0, List.replicate 1024 0) }) 0 = false ∧
    (opxUdpOff (porting 0 .reset) 0 (udp [])).isSome = true ∧ opxUdpOff (porting 0 .reset) 0 (frame 0x88F7 []) = none := by decide +kernel
theorem test_w_receive_ring : ringSize (porting 0 .reset) (reg (ethPg 0) 0x0DC) 12 = 64 ∧
    rdF (porting 0 .reset) (reg (ethPg 0) 0x0E4) 0 12 % 64 = rdF (porting 0 .reset) (reg (ethPg 0) 0x0E0) 0 12 % 64 ∧
    ∀ s : State, s = regs (porting 0 .reset) [(reg (ethPg 0) 0x0DC, 2#32), (reg (ethPg 0) 0x0E0, 3#32)] →
      rdF s (reg (ethPg 0) 0x0E4) 0 12 % ringSize s (reg (ethPg 0) 0x0DC) 12 ≠
        rdF s (reg (ethPg 0) 0x0E0) 0 12 % ringSize s (reg (ethPg 0) 0x0DC) 12 ∧ (ethPort s 0).rxHold = [] := by
  refine ⟨by decide +kernel, by decide +kernel, ?_⟩; rintro _ rfl; decide +kernel

/-- A job of the transmit ring. -/
def txj (i : Nat) (fs : List (List Byte)) : TxJob := ⟨.ring i, .operator, false, fs, 0⟩

theorem test_w_pause : ∀ s : State, s = porting 3 { EthPort.reset with rxPausing := true, rxHold := List.replicate 100 (List.replicate 1024 0), paused := some 0 } →
    (ethPort s 3).rxPausing = true ∧ lwm s 3 < rxOcc (ethPort s 3) ∧ (ethPort s 3).paused.isSome = true ∧ corMode s (ethPg 3) = false := by
  rintro _ rfl; decide +kernel
theorem test_w_tx_start : ∀ s : State, s = porting 3 { EthPort.reset with jobs := [txj 0 [[1]]] } →
    ethRuns s 3 = true ∧ rdB s (reg (ethPg 3) 0x080) 1 = true ∧ (ethPort s 3).onWire = none ∧ (ethPort s 3).paused = none ∧
      (ethPort s 3).jobs ≠ [] ∧ ∀ k ∈ (ethPort s 3).jobs, 0 < jobRank k := by rintro _ rfl; decide +kernel
theorem test_w_tx_end : ∀ s : State, s = porting 3 { EthPort.reset with onWire := some (txj 4095 [[1], [2]]) } →
    (ethPort s 3).onWire = some (txj 4095 [[1], [2]]) ∧ (txj 4095 [[1], [2]]).frames = [1] :: [[2]] ∧
      (txj 4095 [[1]]).frames = [1] :: [] ∧ corMode s (ethPg 3) = false := by rintro _ rfl; decide +kernel
theorem test_w_tx_doorbell : ∀ (own : Bool) (s : State), s = ramWrite (regs (porting 3 .reset) [(reg (ethPg 3) 0x0C8, 1#32), (reg (ethPg 3) 0x0CC, 1#32)])
      0x2F [if own then 0x80 else 0] →
    ringSize s (reg (ethPg 3) 0x0C8) 12 = 2 ∧ rdF s (reg (ethPg 3) 0x0CC) 0 12 % 2 = 1 ∧ clear s op (reg (ethPg 3) 0x0CC) 0 = true ∧
      fld (0#32) 0 12 % 2 = (1 + 1) % 2 ∧ ramNat s (rd64 s (reg (ethPg 3) 0x0C0) + 32 * 1 + 0x10) 1 ≤ 4 ∧
      ramNat s (rd64 s (reg (ethPg 3) 0x0C0) + 32 * 1 + 0x0F) 1 = (if own then 0x80 else 0) ∧
      ramNat s (rd64 s (reg (ethPg 3) 0x0C0) + 32 * 1 + 8) 4 + 4 ≤ maxLen s 3 := by rintro (_ | _) _ rfl <;> decide +kernel
theorem test_w_rx_doorbell : ∀ s : State, s = wr (porting 3 { EthPort.reset with rxHold := [[1]] }) (reg (ethPg 3) 0x0DC) 2 →
    clear s op (reg (ethPg 3) 0x0E0) 3 = true ∧ (ethPort s 3).rxHold = [[1]] ∧
      rdF s (reg (ethPg 3) 0x0E4) 0 12 % ringSize s (reg (ethPg 3) 0x0DC) 12 ≠ fld (3#32) 0 12 % ringSize s (reg (ethPg 3) 0x0DC) 12 := by
  rintro _ rfl; decide +kernel
theorem test_w_link : true ≠ (ethPort (live 0) 0).link := by decide

/-! ### Witnesses: sessions and messages -/

/-- An open session of tenant 0 with every right. -/
def sess0 : Session := { Session.free with open_ := true, gen := 1, rights := 0x1FF, ceiling := .operator, port := 1, key := List.replicate 32 0, txSeq := 1 }

/-- The engine running with that session at a slot, and a message of a type awaiting service. -/
def served (slot ty : Nat) (b : List Byte) : State :=
  let s := porting 0 .reset
  { s with opx := { s.opx with sess := [(slot, sess0)], inbox := [⟨ty, 1, .operator, slot, 1, 77, 0, b, 5⟩] } }

/-- The message, its request and the state after the grant. -/
def msg (slot ty : Nat) (b : List Byte) : OpxMsg := ⟨ty, 1, .operator, slot, 1, 77, 0, b, 5⟩
def request (slot : Nat) (s : State) : Req := newReq s (sessWho slot) .operator (.message slot 1) .none
def granted (slot _ty : Nat) (_b : List Byte) (s : State) : State := (entered s (request slot s)).getD s

/-- The message is served at once. -/
def okServed (slot ty : Nat) (b : List Byte) (s : State) : Bool :=
  inboxMsg s slot 1 == some (msg slot ty b) && s.toll.waiting.isEmpty && s.toll.held.isEmpty && s.toll.asm.isEmpty &&
    runs s pOPX && (session s slot).open_ && decide ((session s slot).txSeq < 0xFFFFFFFF) &&
    (entered s (request slot s)).isSome && ((typeRight ty).all fun k => hasRight (granted slot ty b s) (sessWho slot) k) &&
    !leaseRefused (granted slot ty b s) (msg slot ty b)

theorem served_of_ok (slot ty : Nat) (b : List Byte) (s : State) (h : okServed slot ty b s = true) :
    msgServed s slot 1 ty (msg slot ty b) (granted slot ty b s) := by
  simp only [okServed, Bool.and_eq_true, beq_iff_eq, List.isEmpty_iff, decide_eq_true_eq, Bool.not_eq_true'] at h
  obtain ⟨⟨⟨⟨⟨⟨⟨⟨⟨h1, h2⟩, h3⟩, h4⟩, h5⟩, h6⟩, h7⟩, h8⟩, h9⟩, h10⟩ := h
  refine ⟨⟨h1, rfl, ?_, h3, ?_, ?_, h5, h6, h7⟩, ?_, ?_, h10⟩
  · simp [h2]
  · simp [h4]
  · simp [msgQueue, h2]
  · obtain ⟨u, hu⟩ := Option.isSome_iff_exists.mp h8
    simp only [granted, hu, Option.getD_some]; exact hu
  · intro k hk; simpa [hk] using h9

theorem test_w_messages_served : ([1, 3, 4, 6, 8, 9, 0xB, 0x12].all fun ty => okServed 2047 ty [] (served 2047 ty []) &&
    okServed 0 ty [1] (served 0 ty [1])) = true := by decide +kernel

/-- The state with points, and a message of one entry; where that entry's request passes its resources. -/
def pointServed (ty : Nat) (b : List Byte) : State := { served 2047 ty b with pts := (pointed 0).pts }
def entryOk (op : Nat) (b : List Byte) (body : Body) (ty : Nat) (f : State → Bool) : Bool :=
  let s := pointServed ty b
  let u := granted 2047 ty b s
  okServed 2047 ty b s && (entered (atEntry u (msg 2047 ty b) op) (entryReq u (msg 2047 ty b) op body)).any f

/-- The Daybook admits the entry. -/
def entryIn (op : Nat) (b : List Byte) (body : Body) (ty : Nat) (v : State) : Bool :=
  (passes [8] v { entryReq (granted 2047 ty b (pointServed ty b)) (msg 2047 ty b) op body with path := [], logging := true }).isSome

theorem test_w_point_read : entryOk 5 (beBytes 2 1 ++ beBytes 2 65535) (.pointRead 65535) 3 (fun v => hasRight v (sessWho 2047) rREAD &&
    visible v (sessWho 2047) (point v 65535) && !(point v 65535).retired && !cellOut v pPTS 65535) = true := by decide +kernel
theorem test_w_point_write : ∀ c b, c = cmdWord 7 16 → b = beBytes 2 1 ++ beBytes 2 0 ++ beBytes 1 16 ++ [0] ++ beBytes 4 7 →
    (entryOk 5 b (.command 0 c) 4 (fun v => visible v (sessWho 2047) (point v 0) && cmdAllowed v (sessWho 2047) (point v 0) c &&
      !mLOCK v && !v.guard.safe && !v.guard.dead && !(point v 0).retired && !cellOut v pPTS 0 && entryIn 5 b (.command 0 c) 4 v) &&
      !overruled (pointServed 4 b) 0 16 (orderOf (sessWho 2047) .operator) &&
      lastWriter (pointServed 4 b) 0 (orderOf (sessWho 2047) .operator) (origin (pointServed 4 b) (sessWho 2047)) ==
        origin (pointServed 4 b) (sessWho 2047)) = true := by
  rintro _ _ rfl rfl; decide +kernel
theorem test_w_reg_read : entryOk 6 ([0, 0] ++ beBytes 2 1 ++ beBytes 4 (reg pMOD 0x080) ++ List.replicate 8 0) (.regRead (reg pMOD 0x080)) 6
    (fun v => !pageAbsent v (sessWho 2047) pMOD && hasRight v (sessWho 2047) rREG) = true := by decide +kernel

/-- A write of 9 to the last BKP scratch register. -/
def regBody : List Byte := [1, 0] ++ beBytes 2 1 ++ beBytes 4 (reg pBKP 0x13C) ++ beBytes 4 9 ++ List.replicate 4 0

theorem test_w_reg_write : entryOk 262 regBody (.regWrite (reg pBKP 0x13C) 9) 6 (fun v =>
    !pageAbsent v (sessWho 2047) pBKP && !fusedOff v pBKP && (writeRefusal v (sessWho 2047) .operator (reg pBKP 0x13C) 9).isNone &&
      entryIn 262 regBody (.regWrite (reg pBKP 0x13C) 9) 6 v) = true := by decide +kernel

/-- A program with a station fed by the session of slot 2,047. -/
def stationed (b : List Byte) : State :=
  let s := pointServed 1 b
  let p : Program := { prog with stations := [⟨3, 0, 1, 4, 2047 + 2048⟩] }
  { s with loom := { s.loom with bankA := ⟨.active, [], some p⟩ } }

theorem test_w_input_image : ∀ (b : List Byte), b = beBytes 2 1 ++ beBytes 2 1 ++ beBytes 2 5 ++ beBytes 2 1 ++ beBytes 4 9 →
    okServed 2047 1 b (stationed b) = true ∧ (activeProg (stationed b)).map (·.stations) = some [⟨3, 0, 1, 4, 2047 + 2048⟩] ∧
      sessSlot (2047 + 2048) = 2047 ∧ (point (stationed b) 5).cls = 1 ∧ (point (stationed b) 5).retired = false ∧
      ((ptPath (sessWho 2047)).all fun k => !overBudget (granted 2047 1 b (stationed b)) (sessWho 2047) .operator k 1) = true := by rintro _ rfl; decide +kernel
theorem test_w_time_ref : rdF (wr (served 2047 8 []) (reg pLAC 0x0AC) 2047) (reg pLAC 0x0AC) 0 11 = 2047 ∧
    okServed 2047 8 [] (wr (served 2047 8 []) (reg pLAC 0x0AC) 2047) = true ∧ rdF (served 2047 8 []) (reg pLAC 0x0AC) 0 11 ≠ 2047 := by decide +kernel

/-- The lease held by the session. -/
def leased (ty : Nat) (b : List Byte) : State :=
  let s := wrF (served 2047 ty b) updStatA 0 3 1
  { s with upd := { s.upd with lease := some ⟨sessWho 2047, 0, 5, 0⟩, leases := 5 } }

/-- The Daybook admits a LEASE message. -/
def logsIn (b : List Byte) (s : State) : Bool :=
  let u := granted 2047 0xC b s
  (passes [8] u { newReq u (sessWho 2047) .operator (.message 2047 1) .none with path := [], logging := true }).isSome

theorem test_w_leases : okServed 2047 0xC [1] (served 2047 0xC [1]) = true ∧ beAt [1] 0 1 = 1 ∧ (served 2047 0xC [1]).upd.lease = none ∧
    logsIn [1] (served 2047 0xC [1]) = true ∧ okServed 2047 0xC [1] (leased 0xC [1]) = true ∧
    (leased 0xC [1]).upd.lease = some ⟨sessWho 2047, 0, 5, 0⟩ ∧ okServed 2047 0xC [2] (leased 0xC [2]) = true ∧
    okServed 2047 0xC [3] (leased 0xC [3]) = true ∧ logsIn [3] (leased 0xC [3]) = true ∧
    updState (leased 0xC [3]) = 1 ∧ okServed 2047 0xA (beBytes 4 5 ++ beBytes 4 64 ++ [1, 2, 3]) (leased 0xA (beBytes 4 5 ++ beBytes 4 64 ++ [1, 2, 3])) = true ∧
    (leased 0xA []).upd.patch.length + 3 < 128 := by decide +kernel
theorem test_w_periodic : ∀ s : State, s = regs { served 2047 3 [] with
      opx := { (served 2047 3 []).opx with inbox := [], sess := [(2047, { sess0 with tref := true })] } } [(reg pOPX 0x08C, 0x10000#32), (reg pOPX 0x090, 0x1000000#32)] →
    runs s pOPX = true ∧ (session s 2047).open_ = true ∧ (session s 2047).txSeq < 0xFFFFFFFF ∧ rdF s (reg pOPX 0x08C) 16 8 ≠ 0 ∧
      openSlots s = [2047] ∧ rdB s (reg pOPX 0x090) 24 = true ∧ trefSlots s = [2047] ∧ s.clk.moves = true := by rintro _ rfl; decide +kernel

/-- A frame's 40 octets: a STATUS of SEQ 1 from the session of slot 5, generation 1, complete, without a payload. -/
def statusHead : List Byte :=
  beBytes 2 0x4F58 ++ [1, 0xB, 1, 2, 0, 0] ++ beBytes 4 (5 + 2048) ++ beBytes 4 1 ++ List.replicate 24 0

/-- That frame in its datagram with a tag, waiting at port 0 of the running engine. -/
def arriving (tag : Nat) : State :=
  let s := porting 0 { EthPort.reset with rxq := [(9, udp (statusHead ++ leBytes 16 tag))] }
  { s with opx := { s.opx with sess := [(5, sess0)] } }

/-- The tag of that frame under a key of zeros. -/
def goodTag : Nat := 30765218754757742118056758810227465000

theorem test_w_frame_tag : leBytes 16 (Crypto.gcmTag sess0.key statusHead (nonce (5 + 2048) 1 0 false) []).toNat =
    slice (udp (statusHead ++ leBytes 16 goodTag)) 82 16 := by decide +kernel
theorem test_w_frame_bad_tag : leBytes 16 (Crypto.gcmTag sess0.key statusHead (nonce (5 + 2048) 1 0 false) []).toNat ≠
    slice (udp (statusHead ++ leBytes 16 0)) 82 16 := by rw [test_w_frame_tag]; decide +kernel
theorem test_w_frame_take : (session (arriving goodTag) 5).key = sess0.key ∧ runs (arriving goodTag) pOPX = true ∧ opxUdpOff (arriving goodTag) 0 (udp (statusHead ++ leBytes 16 goodTag)) = some 34 ∧
    slice (udp (statusHead ++ leBytes 16 goodTag)) 42 40 = statusHead ∧ beAt (udp (statusHead ++ leBytes 16 goodTag)) 38 2 = 8 + 40 + 0 + 16 ∧
    opxHdr statusHead 0 = ⟨0x4F58, 1, 0xB, 1, 2, 0, 5 + 2048, 1, 0, 0, 0, 0, 0⟩ ∧ sessSlot (5 + 2048) = 5 ∧ sessGen (5 + 2048) = (session (arriving goodTag) 5).gen ∧
    opWaiting (arriving goodTag) < 4096 ∧ (session (arriving goodTag) 5).open_ = true ∧ replayOk (session (arriving goodTag) 5) 1 = true ∧
    (session (arriving goodTag) 5).reasm = [] ∧ (arriving goodTag).opx.inbox = [] ∧ peerType 0xB = true ∧ corMode (arriving goodTag) pOPX = false := by decide +kernel

/-- The frame of an OPEN with key slot 3 for slot 2,047, its proof as given. -/
def openFrame (proof : Nat) : List Byte :=
  udp (beBytes 2 0x4F58 ++ [1, 0x10, 1, 2, 0, 0] ++ List.replicate 32 0 ++ beBytes 2 3 ++ beBytes 2 2047 ++ beBytes 2 0xFF ++ List.replicate 14 0 ++ leBytes 16 proof)

/-- The proof of that frame under the key 1, 2, 3. -/
def goodProof : Nat := 235989514597995240497002237025678860816

/-- The engine with that OPEN received, key slot 3 of kind OPX_OPEN, Locksmith ready. -/
def opening (proof : Nat) : State :=
  let s := regs (porting 0 .reset) [(reg pLOCK 0x084, 0x20#32)]
  { s with opx := { s.opx with opens := [⟨0, openFrame proof, none⟩] }, vault := { s.vault with ready := true, slots := [(3, ⟨2, 0, 0xFF, 1, [1, 2, 3], none, []⟩)] } }

theorem test_w_open_proof : leBytes 16 (Crypto.hmac [1, 2, 3] (slice (openFrame goodProof) 42 60)).toNat = slice (openFrame goodProof) 102 16 ∧
    slice (openFrame 0) 42 60 = slice (openFrame goodProof) 42 60 ∧ slice (openFrame 0) 102 16 ≠ slice (openFrame goodProof) 102 16 := by decide +kernel
theorem test_w_open : runs (opening goodProof) pOPX = true ∧ (opxUdpOff (opening goodProof) 0 (openFrame goodProof)).getD 0 + 8 = 42 ∧ beAt (openFrame goodProof) 82 2 = 3 ∧
    (slot (opening goodProof) 3).kind = 2 ∧ mLOCK (opening goodProof) = false ∧ roleSet (opening goodProof) = true ∧ (opening goodProof).guard.safe = false ∧
    (opening goodProof).guard.dead = false ∧ bit (tenWord (opening goodProof) 0 0) 31 = true ∧ sessOpen (opening goodProof) 0 < min 2048 (fld (tenWord (opening goodProof) 0 0) 0 12) ∧
    (opening goodProof).vault.ready = true ∧ rngOk (opening goodProof) = true ∧ cellOut (opening goodProof) pLOCK 3 = false ∧
    pickSlot (opening goodProof) (beAt (openFrame goodProof) 84 2) 3 = .inl 2047 ∧ logOk (opening goodProof) .operator = true ∧ openWaits (opening goodProof) = false ∧ corMode (opening goodProof) pOPX = false := by decide +kernel
theorem test_w_session_ends : (session (served 2047 0x12 []) 2047).open_ = true ∧ clear (served 2047 0x12 []) op (reg pOPX 0x0A4) 0x800007FF = true ∧
    bit (0x800007FF#32) 31 = true ∧ fld (0x800007FF#32) 0 11 = 2047 ∧ corMode (live 1) pOPX = false ∧
    ∃ r ∈ [(⟨1, 3, 0, 2, 0, 0, none, []⟩ : Reasm)], r.sq = 1 := by decide +kernel

/-! ### Witnesses: buses, serial ports and field I/O -/

/-- A base frame of identifier 5 with two bytes. -/
def can : BusFrame := ⟨5, false, false, false, 2, [1, 2]⟩

/-- A running bus with filter 63 for identifier 5 going where its CTRL word says, and a bus state. -/
def bussed (n : Nat) (ctl : Word) (b : Bus) : State :=
  let s := regs (spinning .locked 1) [(reg (mbPg n) 0x008, 1#32), (reg (mbPg n) 0x080, 3#32), (reg (mbPg n) (0x200 + 16 * 63), 0x80000005#32),
    (reg (mbPg n) (0x204 + 16 * 63), 0x1FFFFFFF#32), (reg (mbPg n) (0x208 + 16 * 63), ctl)]
  { s with bus := [(n, b)] }

theorem test_w_bus_on : busOn (bussed 7 1 .reset) 7 = true ∧ corMode (bussed 7 1 .reset) (mbPg 7) = false ∧ Bus.reset.sleeping = false ∧
    Bus.reset.busOff = false ∧ can.fdf = false ∧ rdB (bussed 7 1 .reset) (reg (mbPg 7) 0x080) 1 = true := by decide +kernel
theorem test_w_bus_filters : filterFor (bussed 7 1 .reset) 7 can = some (1, 0) ∧ filterFor (bussed 0 2 .reset) 0 can = some (2, 0) ∧
    filterFor (bussed 0 0 .reset) 0 can = some (0, 0) ∧ filterFor (bussed 0 0xF3 .reset) 0 can = some (3, 15) ∧
    filterFor (bussed 0 1 .reset) 0 { can with id := 6 } = none ∧ rdB (bussed 0 1 .reset) (reg (mbPg 0) 0x080) 4 = false ∧
    rdB (wrB (bussed 0 1 .reset) (reg (mbPg 0) 0x080) 4 true) (reg (mbPg 0) 0x080) 4 = true := by decide +kernel
/-- Bus 0 receives into object 15, of which frame group 7 consists; its class's budget fault at the point store has been raised. -/
def grouped : State :=
  let s := wr (bussed 0 0xF3 .reset) (reg (mbPg 0) 0x11C) 0x8000000F
  { s with toll := { s.toll with faulted := (ptPath (.hw (Fin.ofNat 128 (mbPg 0)))).map (budgetKey (.hw (Fin.ofNat 128 (mbPg 0))) .control) } }

theorem test_w_group_calm : groupCalm grouped 0 can ∧ filterFor grouped 0 can = some (3, 15) ∧ busOn grouped 0 = true ∧
    corMode grouped (mbPg 0) = false ∧ groupMembers grouped 0 7 = [15] ∧ rdB grouped (reg (mbPg 0) (0x100 + 4 * 7)) 31 = true := by
  refine ⟨?_, by decide +kernel⟩
  intro o _ k hk
  have h : ∀ k ∈ ptPath (.hw (Fin.ofNat 128 (mbPg (0 : Fin 8).val))),
      grouped.toll.faulted.contains (budgetKey (.hw (Fin.ofNat 128 (mbPg (0 : Fin 8).val))) .control k) = true := by decide +kernel
  simp only [overBudget, h k hk, Bool.not_true, Bool.and_false]
theorem test_w_queue_calm : ∀ (s : State) (n : Fin 8) (f : BusFrame), filterFor s n.val f = some (1, 0) ∨ filterFor s n.val f = none →
    groupCalm s n f := by
  intro s n f h o e
  rcases h with h | h <;> rw [h] at e <;> cases e
theorem test_w_bus_queues : (bus (bussed 7 1 { Bus.reset with q0 := List.replicate 63 ⟨can, 0⟩ }) 7).q0.length < 64 ∧
    64 ≤ (bus (bussed 7 1 { Bus.reset with q0 := List.replicate 64 ⟨can, 0⟩ }) 7).q0.length ∧
    (bus (bussed 7 2 { Bus.reset with q1 := List.replicate 31 ⟨can, 0⟩ }) 7).q1.length < 32 := by decide +kernel
theorem test_w_bus_timeout : rdF (wrF (bussed 7 1 .reset) (rxObj 7 15 + 4) 16 16 1) (rxObj 7 15 + 4) 16 16 ≠ 0 ∧
    busOn (wrF (bussed 7 1 .reset) (rxObj 7 15 + 4) 16 16 1) 7 = true ∧
    rxSince (wrF (bussed 7 1 .reset) (rxObj 7 15 + 4) 16 16 1) 7 15 = 0 ∧
    rdF (wrF (bussed 7 1 .reset) (rxObj 7 15 + 4) 16 16 1) (rxObj 7 15 + 4) 16 16 = 1 ∧
    count (wrF (bussed 7 1 .reset) (rxObj 7 15 + 4) 16 16 1) < 65536 ∧
    65536 ≤ count { bussed 7 1 .reset with clk := { (bussed 7 1 .reset).clk with acc := 65536 * Config.accOne } } := by decide +kernel
theorem test_w_bus_registers : clear (bussed 7 1 .reset) op (reg (mbPg 7) 0x0E0) 63 = true ∧ clear (bussed 7 1 .reset) op (reg (mbPg 7) 0x0E4) 31 = true ∧
    clear (bussed 7 1 .reset) op (reg (mbPg 7) 0x084) 4 = true ∧ clear (bussed 7 1 .reset) op (reg (mbPg 7) 0x084) 5 = true ∧
    clear (bussed 7 1 .reset) op (reg (mbPg 7) 0x0F4) 1023 = true ∧ rdB (bussed 7 1 .reset) (reg (mbPg 7) 0x080) 6 = false := by decide +kernel
theorem test_w_bus_wake : ∀ s t : State, s = bussed 7 1 { Bus.reset with sleeping := true } → t = wrB s (reg (mbPg 7) 0x080) 5 true →
    (bus s 7).sleeping = true ∧ rdB s (reg (mbPg 7) 0x080) 0 = true ∧ rdB s (reg (mbPg 7) 0x080) 5 = false ∧
      rdB t (reg (mbPg 7) 0x080) 5 = true ∧ wakeMatch t 7 { can with id := 0 } = true ∧ filterFor t 7 { can with id := 0 } = none ∧ wakeMatch t 7 { can with fdf := true } = false ∧
      corMode t (mbPg 7) = false := by rintro _ _ rfl rfl; decide +kernel
theorem test_w_txobj : clear (bussed 7 1 .reset) op (txObj 7 15 + 4 * 0) 5 = true ∧ clear (bussed 7 1 .reset) op (txObj 7 15 + 4 * 4) 5 = true ∧
    clear (bussed 7 1 .reset) op (txObj 7 15 + 4 * 19) 5 = true ∧ clear (bussed 7 1 .reset) op (txObj 7 15 + 4) 2 = true ∧
    clear (bussed 0 1 .reset) op (txObj 0 0 + 4) 15 = true := by decide +kernel

/-- Transmit objects 3 and 15 pending with identifier 5. -/
def sending (b : Bus) : State := regs (bussed 7 1 b) [(txObj 7 3, 5#32), (txObj 7 3 + 4, 0x102#32), (txObj 7 15, 5#32), (txObj 7 15 + 4, 0x102#32)]

theorem test_w_bus_send : mbNext (sending .reset) 7 = some (.obj 3) ∧ busOn (sending .reset) 7 = true ∧ Bus.reset.onBus = none ∧ Bus.reset.tref = none ∧
    stbySettled (sending .reset) = true ∧ fdOk (sending .reset) 7 (rd (sending .reset) (txObj 7 15)) = true ∧
    stbySettled { sending .reset with pins := { (sending .reset).pins with stbyFell := some 0 } } = false ∧
    rdB (sending .reset) (txObj 7 15 + 4) 8 = true ∧ mbNext (sending { Bus.reset with tref := some (0, []) }) 7 = some .tref ∧
    mbNext (regs (sending .reset) [(reg (mbPg 7) 0x0F0, 1#32), (reg (mbPg 7) 0x0F4, 1#32)]) 7 = some .ring := by decide +kernel
theorem test_w_bus_done : ∀ s : State, s = sending { Bus.reset with onBus := some (.obj 15) } → (bus s 7).onBus = some (.obj 15) ∧
    corMode s (mbPg 7) = false ∧ (bus s 7).sleepReq = false ∧ rdF (wr s (reg (mbPg 7) 0x098) 247) (reg (mbPg 7) 0x098) 0 8 < 248 ∧
    248 ≤ rdF (wr s (reg (mbPg 7) 0x098) 248) (reg (mbPg 7) 0x098) 0 8 := by rintro _ rfl; decide +kernel
theorem test_w_bus_off : ∀ s : State, s = bussed 7 1 { Bus.reset with busOff := true, recovering := true } →
    (bus s 7).busOff = true ∧ (bus s 7).recovering = true ∧ busOn s 7 = true ∧ clear s op (reg (mbPg 7) 0x084) 3 = true := by rintro _ rfl; decide +kernel
theorem test_w_bus_enable : clear (live 0) op (reg (mbPg 0) 0x080) 1 = true ∧ rdB (live 0) (reg (mbPg 0) 0x080) 0 = false ∧ bit (1#32) 0 = true ∧
    ratesOk (live 0) 0 = true ∧ ratesOk (wr (live 0) (reg (mbPg 0) 0x094) 0xFFFFFFFF) 0 = false := by decide +kernel
theorem test_w_bus_sleep : ∀ s : State, s = bussed 7 1 .reset → ∀ t : State, t = { s with guard := { s.guard with mode := 0x41 } } →
    clear t op (reg (mbPg 7) 0x084) 1 = true ∧ rdB t (reg (mbPg 7) 0x080) 0 = true ∧ (bus t 7).sleeping = false ∧ (bus t 7).onBus = none ∧
      clear (bussed 7 1 { Bus.reset with sleeping := true }) op (reg (mbPg 7) 0x084) 2 = true := by rintro _ rfl _ rfl; decide +kernel

/-- A running serial port, its transmit ring holding one descriptor of 3 characters, its receive ring of `2^k` entries. -/
def serial (k : Nat) (p : SfPort) (fl : Byte) : State :=
  let s := regs (spinning .locked 1) [(reg (sfPg 3) 0x008, 1#32), (reg (sfPg 3) 0x080, 0x0701#32), (reg (sfPg 3) 0x09C, 1#32), (reg (sfPg 3) 0x0A0, 1#32),
    (reg (sfPg 3) 0x0A8, 0x1000#32), (reg (sfPg 3) 0x0B0, w32 k)]
  { ramWrite s 8 [3, 0, fl, 1] with sf := [(3, p)] }

theorem test_w_serial_send : sfHead (serial 1 .reset 0) 3 = some 0 ∧ sfOn (serial 1 .reset 0) 3 = true ∧
    sfTurned (serial 1 .reset 0) 3 = true ∧ sfTurned (serial 1 { SfPort.reset with lastRx := some 0 } 0) 3 = false ∧
    (sfPort (serial 1 .reset 0) 3).sending = false ∧ sfHead (serial 1 { SfPort.reset with sending := true } 0) 3 = some 0 ∧
    (sfPort (serial 1 { SfPort.reset with sending := true } 0) 3).sending = true ∧ corMode (serial 1 { SfPort.reset with sending := true } 0) (sfPg 3) = false ∧ 0 + 16 ≤ Config.dramBytes ∧
    ramNat (serial 1 { SfPort.reset with sending := true } 0) (0 + 10) 1 % 2 = 0 ∧ ramNat (serial 1 { SfPort.reset with sending := true } 1) (0 + 10) 1 % 2 = 1 := by decide +kernel
theorem test_w_serial_receive : sfRing (serial 1 .reset 0) 3 0x0B0 = 2 ∧ rdF (serial 1 .reset 0) (reg (sfPg 3) 0x0B8) 0 12 % 2 = 0 ∧
    rdB (serial 1 .reset 0) (reg (sfPg 3) 0x08C) 0 = false ∧ (0 + 1) % 2 ≠ rdF (serial 1 .reset 0) (reg (sfPg 3) 0x0B4) 0 12 % 2 ∧
    rd64 (serial 1 .reset 0) (reg (sfPg 3) 0x0A8) + 2 * 0 + 2 ≤ Config.dramBytes ∧
    (0 + 1) % sfRing (serial 0 .reset 0) 3 0x0B0 = rdF (serial 0 .reset 0) (reg (sfPg 3) 0x0B4) 0 12 % 1 := by decide +kernel
theorem test_w_serial_gap : (sfPort (serial 1 { SfPort.reset with lastChar := some 0x1000 } 0) 3).lastChar = some 0x1000 ∧ sfOn (serial 1 { SfPort.reset with lastChar := some 0x1000 } 0) 3 = true ∧
    rdF (serial 1 { SfPort.reset with lastChar := some 0x1000 } 0) (reg (sfPg 3) 0x080) 8 8 ≠ 0 ∧ 0x1000 + 2 ≤ Config.dramBytes ∧
    clear (serial 1 .reset 0) op (reg (sfPg 3) 0x0A0) 4095 = true ∧ clear (serial 1 .reset 0) op (reg (sfPg 3) 0x0B4) 4095 = true := by
  decide +kernel

/-- Field I/O running, every input with a wire-break check, output 8 of owner REGISTER. -/
def fielded (l : List (Nat × Word)) : State :=
  regs (spinning .locked 1) ([(reg pFIO 0x008, 1#32), (reg pFIO 0x09C, 0x80#32), (reg pFIO 0x0DC, 0x200#32)] ++ l)

theorem test_w_field_calm : fieldCalm (fielded []) 2 ∧ fieldCalm (fielded []) 16 ∧ fieldCalm (fielded [(reg pFIO 0x080, 8#32)]) 16 := by
  refine ⟨?_, ?_, ?_⟩ <;> (unfold fieldCalm ptCalm; decide +kernel)
theorem test_w_inputs : runs (fielded []) pFIO = true ∧ fldUv (fielded []) = false ∧ rdB (fielded []) (diagDi 16) 4 = false ∧
    diCounts (fielded []) 16 = false ∧ cellOut (fielded []) pFIO 15 = false ∧ chBit (fielded []) 0x08C 16 = false ∧
    rdB (fielded []) (reg pFIO (0x0A0 + 4 * 15)) 9 = true ∧ rdF (fielded [(diagDi 1, 1#32), (reg pFIO 0x08C, 1#32)]) (diagDi 1) 0 4 = 1 ∧
    chBit (fielded [(diagDi 1, 1#32), (reg pFIO 0x08C, 1#32)]) 0x08C 1 = true ∧ diCounts (fielded [(reg pFIO 0x0A0, 0x100#32)]) 1 = true := by decide +kernel
theorem test_w_outputs : clear (fielded []) op (reg pFIO 0x1E0) 0x8001 = true ∧ clear (fielded []) op (reg pFIO 0x094) 0x8080 = true ∧
    doReg (fielded []) 8 = true ∧ bit (0x8080#32) (7 + 8) = true ∧ doForcedOff (fielded []) 8 = none ∧ get? (fielded []).fio.forced 8 = none ∧
    doAngle (fielded []) 8 = false ∧ doEffective (fielded []) 8 = false ∧ doEffective (fielded []) 1 = false := by decide +kernel
theorem test_w_field_supply : rdB (fielded []) (reg pFIO 0x080) 2 = false ∧ fldUv (fielded [(reg pFIO 0x080, 8#32)]) = true := by decide +kernel

/-! ### Witnesses: the display, the vault and the calendar -/

/-- A request of one pixel at (0, 0). -/
def rgn (r : Nat) : RgnReq := ⟨r, 0, 0, 1, 1, 0x20000, 1, 7, false, false, 1⟩

/-- FLOOR, Signwright running on a panel of 64 × 64 with its table valid, in a display state. -/
def showing (x : Sgn) : State :=
  let s := regs (spinning .locked 1) [(reg pSGN 0x008, 1#32), (reg pSGN 0x0AC, 4#32), (reg pSGN 0x084, 0x00400040#32), (reg pSGN 0x094, 0x10000#32)]
  { s with sgn := x }

theorem test_w_frame_start : ∀ (x : Sgn), x = { Sgn.reset with due := true } → x.due = true ∧ sgnRuns (showing x) = true ∧ x.stopped = false ∧
    ({ x with scan := some [] } : Sgn).scan.isSome = true ∧ corMode (showing x) pSGN = false ∧ x.scan = none ∧ x.pwrup = false ∧
    ({ x with pwrup := true, pgood := true } : Sgn).pgood = true := by rintro _ rfl; decide +kernel
theorem test_w_frame_calm : ∀ s : State, s = showing { Sgn.reset with due := true, pwrup := true, pgood := true, queued := [(31, rgn 31)] } →
    frameCalm s := by rintro _ rfl; unfold frameCalm; decide +kernel
theorem test_w_region_start : ∀ s : State, s = showing { Sgn.reset with due := true, pwrup := true, pgood := true, queued := [(31, rgn 31)] } →
    mayStart s = true ∧ s.sgn.recov = 0 ∧ s.sgn.bal = none ∧ s.sgn.waits = [] ∧ s.sgn.joining = [] ∧ s.sgn.queued = [(31, rgn 31)] ∧
      get? s.sgn.running 31 = none ∧ s.guard.safe = false ∧ reqBusy s (rgn 31) = false ∧ mayStart (wr s (reg pSGN 0x0AC) 0) = false := by
  rintro _ rfl; decide +kernel

/-- Pixel 0 busy in frame 0 of its waveform, the frame on its way out. -/
def scanned (c : Nat) : State := showing { Sgn.reset with pwrup := true, pgood := true, scan := some [(0, c)], busy := [0], running := [(31, rgn 31)] }

theorem test_w_frame_end : (scanned 1).sgn.scan = some [(0, 1)] ∧ (scanned 1).sgn.busy = [0] ∧ (scanned 1).sgn.recov = 0 ∧
    pxAddr (scanned 1) 0 + 4 ≤ Config.dramBytes ∧ corMode (scanned 1) pSGN = false ∧ (scanned 1).sgn.running = [(31, rgn 31)] ∧
    (scanned 1).sgn.waits = [] ∧ pxF (scanned 1) 0 8 6 + 1 < lutLen (scanned 1) (pxF (scanned 1) 0 16 4) (16 * pxF (scanned 1) 0 0 4 + pxF (scanned 1) 0 4 4) ∧
    lutLen (ramWrite (scanned 1) 0x10000 (List.replicate 16 0xFF)) 0 0 = 0 ∧
    pxLedger (ramWrite (scanned 1) 0 [0, 0, 0, 0x7F]) 0 + 1 = 128 := by decide +kernel
theorem test_w_frame_over : ∀ s : State, s = { scanned 1 with clk := { (scanned 1).clk with fabric := frameOver (scanned 1) } } →
    frameOver s ≤ s.clk.fabric ∧ s.sgn.scan = some [(0, 1)] ∧ (scanned 1).clk.fabric < frameOver (scanned 1) := by
  rintro _ rfl; decide +kernel
theorem test_w_panel_times : (live 0).sgn.pwrAt + rdF (live 0) (reg pSGN 0x080) 8 8 * 400000 ≠ 0 ∧
    (live 0).clk.fabric < (live 0).sgn.pwrAt + rdF (live 0) (reg pSGN 0x080) 8 8 * 400000 ∧
    (live 0).clk.fabric < (live 0).sgn.dueAt + rdF (live 0) (reg pSGN 0x080) 16 8 * 4000000 ∧
    ∀ s : State, s = { live 0 with clk := { (live 0).clk with fabric := 2 ^ 32 } } →
      s.sgn.pwrAt + rdF s (reg pSGN 0x080) 8 8 * 400000 ≤ s.clk.fabric ∧
      s.sgn.dueAt + rdF s (reg pSGN 0x080) 16 8 * 4000000 ≤ s.clk.fabric := by
  refine ⟨by decide +kernel, by decide +kernel, by decide +kernel, ?_⟩; rintro _ rfl; decide +kernel
theorem test_w_panel : ∀ x : Sgn, x = { Sgn.reset with pwrup := true } → x.pwrup = true ∧ x.pgood = false ∧
    ({ x with pgood := true, busy := [0], running := [(31, rgn 31)] } : Sgn).busy ≠ [] ∧ sgnWork (showing x) = false ∧ x.scan = none := by
  rintro _ rfl; decide +kernel
theorem test_w_bands : ∀ s : State, s = wr (live 0) (reg pSGN 0x08C) 0x5F6 → sgn 8 (rdF s (reg pSGN 0x08C) 0 8) = -10 ∧
    max 1 (rdF s (reg pSGN 0x08C) 8 4) = 5 := by rintro _ rfl; decide +kernel
theorem test_w_region_words : clear (live 1) op (rgA 0 (4 * 0)) 5 = true ∧ clear (live 1) op (rgA 31 (4 * 5)) 5 = true := by decide +kernel

/-- The words of a region of 2 × 3 pixels at (1, 4) staged by the core. -/
def regioned (r : Nat) : State :=
  { showing .reset with staged := [(initKey op.who (rgA r 0), 0x00040001#32), (initKey op.who (rgA r 4), 0x00030002#32), (initKey op.who (rgA r 20), 7#32)] }

theorem test_w_region_go : clear (regioned 31) op (rgA 31 0x18) 4 = true ∧ bit (4#32) 2 = true ∧ bit (4#32) 0 = false ∧ bit (4#32) 1 = false ∧
    clear (regioned 0) op (rgA 0 0x18) 6 = true ∧ clear (regioned 0) op (rgA 0 0x18) 5 = true ∧
    clear (live 1) op (reg pSGN 0x0A8) 1 = true ∧ clear (live 1) op (reg pSGN 0x0A8) 2 = true := by decide +kernel

/-- Locksmith ready in a life-cycle, its slots and command registers set. -/
def locked (lc : Nat) (sl : List (Nat × KeySlot)) (sel : Word) (md : Word) : State :=
  let s := regs (live 0) [(reg pLOCK 0x080, 2#32), (reg pLOCK 0x084, 0x20#32), (reg pLOCK 0x08C, sel), (reg pLOCK 0x094, md)]
  { s with vault := { s.vault with ready := true, slots := sl }, guard := { s.guard with lifecycle := lc } }

/-- A slot of a kind with a value staged over it. -/
def keyed (kind : Nat) : KeySlot := ⟨kind, 0, 0xFF, 1, [1, 2, 3], some (1, 0, 0, [9]), []⟩

theorem test_w_locksmith : (live 0).vault.ready = false ∧ fenced (live 0) pLOCK = false ∧ retiredPg (live 0) pLOCK = false ∧
    (live 0).vault.waiting = [] ∧ (locked 0 [] 0 0).vault.ready = true ∧ rdB (locked 0 [] 0 0) (reg pLOCK 0x080) 1 = true ∧
    rngOk (locked 0 [] 0 0) = true ∧
    (locked 0 [] 0 0).clk.fabric < (locked 0 [] 0 0).vault.remaskAt + remaskPeriod (locked 0 [] 0 0) * Config.fabricHz ∧
    ∀ s : State, s = { locked 0 [] 0 0 with clk := { (locked 0 [] 0 0).clk with fabric := 2 ^ 60 } } →
      s.vault.remaskAt + remaskPeriod s * Config.fabricHz ≤ s.clk.fabric := by
  refine ⟨by decide +kernel, by decide +kernel, by decide +kernel, by decide +kernel, by decide +kernel, by decide +kernel,
    by decide +kernel, by decide +kernel, ?_⟩; rintro _ rfl; decide +kernel
theorem test_w_key_slots : clear (locked 0 [] 63 5) op (reg pLOCK 0x090) 1 = true ∧ lockCheck (locked 0 [] 63 5) 1 = oSERVED ∧
    lockSel (locked 0 [] 63 5) = 63 ∧ clear (locked 0 [(63, keyed 2)] 63 5) op (reg pLOCK 0x090) 2 = true ∧
    lockCheck (locked 0 [(63, keyed 2)] 63 5) 2 = oSERVED ∧ (keyed 2).kind = 2 ∧ (keyed 4).kind ≠ 2 ∧
    clear (locked 0 [(63, keyed 2)] 63 5) op (reg pLOCK 0x090) 3 = true ∧ clear (locked 0 [(63, keyed 2)] 63 5) op (reg pLOCK 0x090) 4 = true ∧
    lockCheck (locked 0 [(63, keyed 2)] 63 5) 3 = oSERVED ∧ lockCheck (locked 0 [(63, keyed 2)] 63 5) 4 = oSERVED := by decide +kernel
theorem test_w_key_uses : clear (locked 0 [(63, keyed 1)] 63 0x3F000000) op (reg pLOCK 0x090) 5 = true ∧
    lockCheck (locked 0 [(63, keyed 1)] 63 0x3F000000) 5 = oSERVED ∧ clear (locked 0 [(0, keyed 4)] 0 0) op (reg pLOCK 0x090) 6 = true ∧
    lockCheck (locked 0 [(0, keyed 4)] 0 0) 6 = oSERVED ∧ clear (locked 1 [] 0 0) op (reg pLOCK 0x090) 7 = true ∧
    lockCheck (locked 1 [] 0 0) 7 = oSERVED ∧ clear (locked 2 [] 0 0) op (reg pLOCK 0x090) 8 = true ∧ lockCheck (locked 2 [] 0 0) 8 = oSERVED := by
  decide +kernel

/-- Every sensor armed. -/
def armed : State := wr (live 0) (reg pWTCH 0x080) 0x800003FF

theorem test_w_tamper : armedCauses (live 0) 1 = 0 ∧ armedCauses armed 0x20F = 0x20F ∧ armed.guard.operational = true ∧ armed.guard.pgood = true ∧
    armed.guard.asleep = false ∧ rd armed (reg pBKP 0x090) = 0 ∧ rd (wr armed (reg pBKP 0x090) 1) (reg pBKP 0x090) ≠ 0 := by decide +kernel

/-- A calendar second. -/
def dated (l : List Word) : State := regs (live 0) ((List.range 7).map fun f => (calReg f, nthD l f 0))

theorem test_w_second : ∀ l : List Word, l = [59, 59, 23, 6, 31, 12, 4095] ∨ l = [63, 63, 31, 7, 29, 2, 2024] ∨ l = [0, 0, 0, 0, 31, 15, 0] →
    ∀ f < 7, (nthD l f 0).toNat = (rd (dated l) (calReg f)).toNat ∧ (nthD l f 0).toNat < 2 ^ nthD [6, 6, 5, 3, 5, 4, 12] f 0 := by
  rintro _ (rfl | rfl | rfl) <;> decide +kernel
theorem test_w_second_staged : ∀ s : State, s = { dated [5, 0, 0, 0, 1, 1, 0] with vault := { Vault.reset with calNext := [(0, 7)] } } →
    s.vault.calNext ≠ [] ∧ get? s.vault.calNext 0 = some 7 ∧ get? s.vault.calNext 6 = none ∧ rd (wr s (reg pBKP 0x08C) 1) (reg pBKP 0x08C) = 1 ∧
      rd s (reg pBKP 0x08C) = 0 ∧ alarmMatch (wr s (reg pCAL 0x0C4) 0x1FF) 1 [6, 0, 0, 0, 1, 1, 0] = true := by rintro _ rfl; decide +kernel
theorem test_w_trim : ∀ (p : Nat) (s : State), p = 1 ∨ p = 255 → s = wr (live 0) (reg pCAL 0x0A8) (w32 p) → rdF s (reg pCAL 0x0A8) 0 8 = p ∧
    s.vault.trimFrom + calTick s < (1048576 / (if p < 128 then p else 256 - p) : Nat) ∧
    ∀ t : State, t = { s with vault := { s.vault with trimFrom := 1048576 } } →
      (1048576 / (if p < 128 then p else 256 - p) : Nat) ≤ t.vault.trimFrom + calTick t := by
  rintro _ _ (rfl | rfl) rfl <;> refine ⟨by decide +kernel, by decide +kernel, ?_⟩ <;> rintro _ rfl <;> decide +kernel
theorem test_w_calendar_write : clear (live 0) op (calReg 0) 59 = true ∧ clear (live 0) op (calReg 6) 0xFFFFFFFF = true ∧
    calTick (live 0) ≠ 32767 ∧ calTick { live 0 with vault := { Vault.reset with tickBase := 32767 } } = 32767 := by decide +kernel
theorem test_w_calendar_read : retiredPg (live 0) pCAL = false ∧ clearRead (live 0) op (calReg 0) = true ∧ clearRead (live 0) op (calReg 6) = true := by
  decide +kernel
theorem test_w_shadows_and_wake : ∀ v : Vault, v = { Vault.reset with shadows := [(whoIdx op.who, ⟨[1, 2, 3, 4, 5, 6, 7, 8], 0⟩)], wakeDue := true } →
    (get? v.shadows (whoIdx op.who)) = some ⟨[1, 2, 3, 4, 5, 6, 7, 8], 0⟩ ∧ v.wakeDue = true ∧
      (live 0).clk.fabric < 0 + Config.fabricHz ∧
      0 + Config.fabricHz ≤ { live 0 with clk := { (live 0).clk with fabric := Config.fabricHz } }.clk.fabric := by rintro _ rfl; decide +kernel
theorem test_w_backup_commands : clear (live 0) op (reg pBKP 0x088) 1 = true ∧ clear (live 0) op (reg pBKP 0x088) 2 = true ∧
    clear (live 0) op (reg pBKP 0x088) 3 = true ∧ clear (live 0) op (reg pBKP 0x088) 4 = true ∧ (live 0).vault.wokeAt ≠ some (tickNow (live 0)) ∧
    ∀ v : Vault, v = { Vault.reset with wokeAt := some (0, 0) } → v.wokeAt = some (tickNow { live 0 with vault := v }) := by
  refine ⟨?_, ?_, ?_, ?_, ?_, ?_⟩
  iterate 5 decide +kernel
  rintro _ rfl; decide +kernel

/-! ### A signature that verifies under every message: the neutral point as key and commitment, the scalar 0 -/

/-- A point in extended coordinates that is the neutral one. -/
def Neutral (p : Crypto.EdPoint) : Prop := p.x = 0 ∧ p.t = 0 ∧ p.y = p.z

theorem neutral_add {p q : Crypto.EdPoint} (hp : Neutral p) (hq : Neutral q) : Neutral (Crypto.edAdd p q) := by
  obtain ⟨hx, ht, hz⟩ := hp
  obtain ⟨kx, kt, kz⟩ := hq
  have hab : (p.y + Crypto.edP - p.x) * (q.y + Crypto.edP - q.x) % Crypto.edP = (p.y + p.x) * (q.y + q.x) % Crypto.edP := by
    rw [hx, kx]
    simp only [Nat.sub_zero, Nat.add_zero]
    rw [Nat.mul_mod, Nat.add_mod_right, Nat.add_mod_right, ← Nat.mul_mod]
  refine ⟨?_, ?_, ?_⟩
  · simp only [Crypto.edAdd, hab, Nat.add_sub_cancel_left, Nat.mul_mod_right]
  · simp only [Crypto.edAdd, hab, Nat.add_sub_cancel_left, Nat.mul_mod_right]
  · have hw : (p.y + Crypto.edP) * (q.y + Crypto.edP) % Crypto.edP = p.y * q.y % Crypto.edP := by
      simpa only [hx, kx, Nat.sub_zero, Nat.add_zero] using hab
    have h : (p.y * q.y % Crypto.edP + p.y * q.y % Crypto.edP) % Crypto.edP = p.y * 2 % Crypto.edP * q.y % Crypto.edP := by
      rw [← Nat.add_mod, Nat.mod_mul_mod, Nat.mul_right_comm, Nat.mul_two]
    simp only [Crypto.edAdd, ht, hx, kx, Nat.zero_mul, Nat.zero_mod, Nat.add_zero, Nat.sub_zero, ← hz, ← kz, hw]
    rw [Nat.mul_comm (p.y * 2 % Crypto.edP * q.y % Crypto.edP + Crypto.edP), Nat.mul_mod, h, Nat.mul_mod (p.y * 2 % Crypto.edP * q.y % Crypto.edP) (_ + _),
      Nat.add_mod_right]
    simp only [Nat.mod_mod, ← Nat.mul_mod]

theorem neutral_mul {p : Crypto.EdPoint} (hp : Neutral p) : ∀ k n, Neutral (Crypto.edMul p n k)
  | 0, _ => ⟨rfl, rfl, rfl⟩
  | k + 1, n => by
    have h := neutral_mul hp k (n / 2)
    simp only [Crypto.edMul]
    split
    · exact neutral_add (neutral_add h h) hp
    · exact neutral_add h h

theorem zero_mul_neutral (p : Crypto.EdPoint) : ∀ k, Neutral (Crypto.edMul p 0 k)
  | 0 => ⟨rfl, rfl, rfl⟩
  | k + 1 => by
    have h := zero_mul_neutral p k
    simp only [Crypto.edMul, Nat.zero_div, Nat.zero_mod, if_neg (by decide : ¬(0 : Nat) = 1)]
    exact neutral_add h h

/-- The neutral point's bytes. -/
def neutral : List Byte := 1 :: List.replicate 31 0

theorem neutral_verifies (msg : List Byte) : Crypto.edVerify neutral msg (neutral ++ List.replicate 32 0) = true := by
  have h1 : Crypto.edPoint neutral = some ⟨0, 1, 1, 0⟩ := by decide +kernel
  have h2 : Crypto.edPoint (slice (neutral ++ List.replicate 32 0) 0 32) = some ⟨0, 1, 1, 0⟩ := by decide +kernel
  have h3 : leNat (slice (neutral ++ List.replicate 32 0) 32 32) = 0 := by decide +kernel
  have h4 : Crypto.edBase.isSome = true := by decide +kernel
  obtain ⟨b, hb⟩ := Option.isSome_iff_exists.mp h4
  have n0 : Neutral ⟨0, 1, 1, 0⟩ := ⟨rfl, rfl, rfl⟩
  have hs : ∀ p q, Neutral p → Neutral q → Crypto.edSame p q = true := by
    rintro p q ⟨hx, -, hz⟩ ⟨kx, -, kz⟩
    simp [Crypto.edSame, hx, kx, hz, kz, Nat.mul_comm]
  unfold Crypto.edVerify
  simp only [h1, h2, h3, hb]
  rw [hs _ _ (neutral_mul (zero_mul_neutral b 253) 4 8) (neutral_mul (neutral_add n0 (neutral_mul n0 253 _)) 4 8)]
  decide +kernel

/-! ### Witnesses: images, patches and signed commands -/

/-- An image of one segment that holds END alone; HASH as given. -/
def image (h : Nat) : List Byte :=
  bytesOf [0x4F585047, 1, 1, 8, 1, 1, 0, 0, 0xA0, 1, 0, 0, 0, 0, 0, 0] ++ bytesOf [0, 0, 0, 0, 0xC0, 320, 0, 0, 0, 0, 0, 0, 0, 0, 0, 0] ++ leBytes 32 h ++
    bytesOf ([0, 1] ++ List.replicate 6 0 ++ [0x04000000] ++ List.replicate 15 0) ++ (neutral ++ List.replicate 32 0)

/-- Its hash. -/
def imageHash : Nat := 53834102110927850574916440489825780174365521877152543102616891497269070606043

/-- That image in the bank that is being verified, its key in slot 0. -/
def verifying : State :=
  let s := banked .stop ⟨.verifying, image imageHash, none⟩ .empty
  wr { s with vault := { s.vault with slots := [(0, ⟨3, 0, 0, 1, neutral, none, []⟩)] } } (reg pPGMX 0x080) 0

theorem test_w_verified : bankIn verifying .verifying = some 0 ∧ (bank verifying 0).image = image imageHash ∧ verifyCause verifying (image imageHash) = 0 := by
  refine ⟨by decide +kernel, rfl, ?_⟩
  have h1 : chk1 (image imageHash) = true := by decide +kernel
  have h2 : chk2 (image imageHash) = true := by decide +kernel
  have h3 : chk3 verifying (image imageHash) = true := by
    have e1 : rdF verifying (reg pPGMX 0x080) 0 6 = 0 := by decide +kernel
    have e2 : (image imageHash).drop ((image imageHash).length - 64) = neutral ++ List.replicate 32 0 := by decide +kernel
    have e3 : slot verifying 0 = ⟨3, 0, 0, 1, neutral, none, []⟩ := by decide +kernel
    simp only [chk3, e1, e2, e3, neutral_verifies]; rfl
  have h4 : chk4 (image imageHash) = true := by decide +kernel
  have h5 : (parseProg (image imageHash)).segs.all (segOk (parseProg (image imageHash))) = true := by decide +kernel
  have h6 : ((parseProg (image imageHash)).segs.all fun d => (segCode (parseProg (image imageHash)) d).all (operandOk (parseProg (image imageHash)) d)) = true := by
    decide +kernel
  have h7 : chk7 (parseProg (image imageHash)) (image imageHash) = true := by decide +kernel
  have h8 : chk8 (parseProg (image imageHash)) = true := by decide +kernel
  simp only [verifyCause, h1, h2, h3, h4, h5, h6, h7, h8]; decide

/-- The hash of no bytes. -/
def emptyHash : Nat := 38772261170797515502142737251560910253885555854579348417967781179871348437219

/-- A patch that builds an empty image. -/
def patch : List Byte :=
  bytesOf ([0x4F585550, 1] ++ List.replicate 8 0) ++ leBytes 32 emptyHash ++ bytesOf ([1, 7, 0, 0, 1, 0] ++ List.replicate 8 0) ++ [0] ++
    (neutral ++ List.replicate 32 0)

/-- A signed block: type, entries as address and value, and how many. -/
def signed (ty n : Nat) (es : List Nat) : List Byte :=
  bytesOf [0x4F585343, ty + n * 65536] ++ (leBytes 16 Config.moduleIdentity.toNat ++ (bytesOf ([1, 0] ++ es) ++ (neutral ++ List.replicate 32 0)))

/-- A module with the owner's root in force, owned, in a mode. -/
def owned (m : BitVec 8) : State :=
  { live m with vault := { State.reset.vault with rootOf := 2, ownerRoot := neutral }, guard := { (live m).guard with lifecycle := 2 } }

/-- With bytes at 0x1000 in DRAM, named by MOD and UPD. -/
def rooted (m : BitVec 8) (n : Nat) (b : List Byte) : State :=
  { regs (owned m) [(reg pMOD 0x094, 0x1000#32), (reg pMOD 0x09C, w32 n), (reg pUPD 0x090, 0x1000#32), (reg pUPD 0x098, w32 n)] with
    dram := b.zipIdx.map fun e => (0x1000 + e.2, e.1) }

/-- Its holder of the update lease, in a state of Cobbler. -/
def updating (st : Nat) (b : List Byte) : State :=
  let s := wrF (rooted 0 b.length b) updStatA 0 3 st
  let l : Option Lease := some ⟨op.who, origin s op.who, 1, 0⟩
  { s with upd := { s.upd with lease := l, leases := 1, patch := b.zipIdx.map fun e => (e.2, e.1) } }

theorem test_w_patch_accepted : patchCause (updating 1 patch) patch false = 0 := by
  have e1 : patch.drop (patch.length - 64) = neutral ++ List.replicate 32 0 := by decide +kernel
  have e2 : (patch.length < 192 ∨ leAt patch 0 4 ≠ 0x4F585550 ∨ leAt patch 4 2 ≠ 1 ∨ patch.length ≠ 192 + leAt patch 0x58 4 ∨
      2 ^ 26 < leAt patch 0x5C 4) = False := by simp only [eq_iff_iff, iff_false]; decide +kernel
  have e3 : leAt patch 8 32 = 0 := by decide +kernel
  have e4 : ¬leAt patch 0x48 4 ≤ (updating 1 patch).guard.arb := by decide +kernel
  simp only [patchCause, e1, e2, e3, e4, show rootForce (updating 1 patch) = neutral from rfl, neutral_verifies]; decide
theorem test_w_submit : ramBytes (updating 1 patch) (rd64 (updating 1 patch) (reg pUPD 0x090)) (rdF (updating 1 patch) (reg pUPD 0x098) 0 27) = patch ∧
    clear (updating 1 patch) op (reg pUPD 0x084) 4 = true ∧ updState (updating 1 patch) = 1 ∧ patchCause (updating 1 [0]) [0] false ≠ 0 := by decide +kernel
theorem test_w_build : patchBytes (updating 2 patch) = patch ∧ updState (updating 2 patch) = 2 ∧
    patchRun (patchBase (updating 2 patch) patch) (leAt patch 0x5C 4) (((patch.drop 128).take (leAt patch 0x58 4)).length + 1)
      ((patch.drop 128).take (leAt patch 0x58 4)) [] = some [] ∧ (Crypto.sha256 []).toNat = leAt patch 0x28 32 ∧
    (Crypto.sha256 []).toNat ≠ leAt (setNth patch 0x28 0) 0x28 32 ∧ (updating 2 patch).upd.actTime = 0 ∧
    patchRun [] 0 1 [] [] = none := by decide +kernel
theorem test_w_update_commands : clear (rooted 0 0 []) op (reg pUPD 0x084) 1 = true ∧ (rooted 0 0 []).upd.lease = none ∧
    clear (updating 1 []) op (reg pUPD 0x084) 1 = true ∧ (updating 1 []).upd.lease.isSome = true ∧ clear (updating 1 []) op (reg pUPD 0x084) 2 = true ∧
    clear (updating 1 []) op (reg pUPD 0x084) 3 = true ∧ clear (updating 3 []) op (reg pUPD 0x084) 5 = true ∧ updState (updating 3 []) = 3 ∧
    clear (updating 4 []) op (reg pUPD 0x084) 6 = true ∧ clear (updating 4 []) op (reg pUPD 0x084) 7 = true ∧ updState (updating 4 []) = 4 ∧
    (updating 4 []).guard.dead = false ∧ (updating 3 []).upd.actTime / 2 ^ 11 ≤ (calStamp (updating 3 [])).toNat / 2 ^ 11 := by decide +kernel

theorem get_zip : ∀ (b : List Byte) (k i : Nat), get? ((b.zipIdx k).map fun e => (0x1000 + e.2, e.1)) (0x1000 + (k + i)) = b[i]?
  | [], _, _ => rfl
  | x :: b, k, 0 => by simp [get?]
  | x :: b, k, i + 1 => by
    have h := get_zip b (k + 1) i
    simp only [List.zipIdx_cons, List.map_cons, get?, List.getElem?_cons_succ, ← h]
    rw [if_neg (by omega), show k + (i + 1) = k + 1 + i by omega]

theorem rooted_bytes (m : BitVec 8) (n : Nat) (b : List Byte) (h : n = b.length) (hn : n < 0x1000) : ramBytes (rooted m n b) 0x1000 n = b := by
  subst h
  refine List.ext_getElem (by simp [ramBytes]) fun i h1 h2 => ?_
  have h := get_zip b 0 i
  simp only [Nat.zero_add] at h
  have hd : 0x1000 + i < Config.dramBytes := by simp only [Config.dramBytes]; omega
  simp [ramBytes, ramByte, rooted, look, h, hd, h2]

theorem slice_mid (a b c : List Byte) (k n : Nat) (hk : k = a.length) (hn : n = b.length) : slice (a ++ (b ++ c)) k n = b := by
  subst hk hn
  refine List.ext_getElem (by simp [slice]) fun i h1 h2 => ?_
  simp [slice, List.headD_eq_head?_getD, List.head?_drop, List.getElem?_append, h2]

-- A signed block passes every check once its format, its counter and what it does pass theirs.
theorem signed_passes (m : BitVec 8) (ty n : Nat) (es : List Nat) (hn : (bytesOf ([1, 0] ++ es)).length = 8 + 8 * n)
    (hb : (signed ty n es).length = 96 + 8 * n) (h1 : leAt (signed ty n es) 0 4 = 0x4F585343) (h2 : leAt (signed ty n es) 4 2 = ty)
    (h3 : leAt (signed ty n es) 6 2 = n) (h4 : leAt (signed ty n es) 0x18 8 = 1)
    (h5 : ¬(ty = 0 ∨ 3 < ty ∨ 64 < n ∨ (ty ≠ 1 ∧ n ≠ 0)))
    (h6 : ¬((ty = 3 ∧ !decide (mLOCK (owned m) ∧ (owned m).guard.lifecycle = 2)) ∨ (ty ≠ 3 ∧ mLOCK (owned m)) ∨ (signedEntries (signed ty n es)).any (sealedHeld (owned m)) = true))
    (h7 : ((signedEntries (signed ty n es)).any fun e => !(sealedReg e.1 || clearCmd e.1 e.2)) = false)
    (s : State) (hs : s = rooted m (96 + 8 * n) (signed ty n es)) : signedCause s (signed ty n es) = 0 := by
  subst hs
  have e1 : slice (signed ty n es) 8 16 = leBytes 16 Config.moduleIdentity.toNat := slice_mid _ _ _ 8 16 rfl rfl
  have e2 : slice (signed ty n es) (32 + 8 * n) 64 = neutral ++ List.replicate 32 0 := by
    have := slice_mid (bytesOf [0x4F585343, ty + n * 65536] ++ (leBytes 16 Config.moduleIdentity.toNat ++ bytesOf ([1, 0] ++ es)))
      (neutral ++ List.replicate 32 0) [] (32 + 8 * n) 64
      (by simp only [List.length_append, hn]; show _ = 8 + (16 + _); omega) rfl
    simpa only [signed, List.append_assoc, List.append_nil] using this
  have e4 : ¬(leAt (signed ty n es) 0 4 ≠ 0x4F585343 ∨ ty = 0 ∨ 3 < ty ∨ 64 < n ∨ (ty ≠ 1 ∧ n ≠ 0) ∨
      (signed ty n es).length ≠ 96 + 8 * n) := by simp only [h1, hb, ne_eq, not_true_eq_false, or_false, false_or]; exact h5
  have e5 : ¬leAt (signed ty n es) 0x18 8 ≤ (rooted m (96 + 8 * n) (signed ty n es)).guard.scmdCtr := by rw [h4]; exact Nat.not_succ_le_zero 0
  unfold signedCause
  simp only [h2, h3]
  rw [if_neg e4, if_neg (not_not.mpr e1), if_neg e5]
  rw [show rootForce (rooted m (96 + 8 * n) (signed ty n es)) = neutral from rfl, e2, neutral_verifies, if_neg (by decide), if_neg, h7]
  · rfl
  · exact h6

theorem test_w_unseal : ∀ s, s = rooted 4 96 (signed 2 0 []) → signedBlock s = signed 2 0 [] ∧ clear s op (reg pMOD 0x090) 1 = true ∧
    signedCause s (signed 2 0 []) = 0 ∧ leAt (signed 2 0 []) 4 2 = 2 := by
  intro s h
  have hb : signedBlock s = signed 2 0 [] := by rw [h]; exact rooted_bytes 4 96 _ (by decide +kernel) (by decide)
  refine ⟨hb, by rw [h]; decide +kernel, signed_passes 4 2 0 [] ?_ ?_ ?_ ?_ ?_ ?_ ?_ ?_ ?_ s h, ?_⟩ <;> decide +kernel

theorem test_w_unlock : ∀ s, s = rooted 0x80 96 (signed 3 0 []) → signedBlock s = signed 3 0 [] ∧ clear s op (reg pMOD 0x090) 1 = true ∧
    signedCause s (signed 3 0 []) = 0 ∧ leAt (signed 3 0 []) 4 2 = 3 := by
  intro s h
  have hb : signedBlock s = signed 3 0 [] := by rw [h]; exact rooted_bytes 0x80 96 _ (by decide +kernel) (by decide)
  refine ⟨hb, by rw [h]; decide +kernel, signed_passes 0x80 3 0 [] ?_ ?_ ?_ ?_ ?_ ?_ ?_ ?_ ?_ s h, ?_⟩ <;> decide +kernel

/-- A block with one entry. -/
def oneEntry (o : Nat) : List Byte := signed 1 1 [chA 23 o, 5]

theorem test_w_sealed_write : ∀ o, o = 0x0C ∨ o = 0x14 → ∀ s, s = rooted 4 104 (oneEntry o) → signedBlock s = oneEntry o ∧
    clear s op (reg pMOD 0x090) 1 = true ∧ signedCause s (oneEntry o) = 0 ∧ leAt (oneEntry o) 4 2 = 1 ∧
    signedEntries (oneEntry o) = [(chA 23 o, 5)] := by
  have sound : ∀ o s, o = 0x0C ∨ o = 0x14 → s = rooted 4 104 (oneEntry o) → signedBlock s = oneEntry o := by
    intro o s ho h
    have hb : ramBytes (rooted 4 104 (oneEntry o)) 0x1000 104 = oneEntry o :=
      rooted_bytes 4 104 (oneEntry o) (by rcases ho with rfl | rfl <;> decide +kernel) (by decide)
    have ha : rd64 (rooted 4 104 (oneEntry o)) (reg pMOD 0x094) = 0x1000 := by rcases ho with rfl | rfl <;> decide +kernel
    have hn : rdF (rooted 4 104 (oneEntry o)) (reg pMOD 0x09C) 0 13 = 104 := by rcases ho with rfl | rfl <;> decide +kernel
    rw [h, signedBlock, ha, hn, hb]
  intro o ho s h
  refine ⟨sound o s ho h, by rw [h]; rcases ho with rfl | rfl <;> decide +kernel, signed_passes 4 1 1 [chA 23 o, 5] ?_ ?_ ?_ ?_ ?_ ?_ ?_ ?_ ?_ s h, ?_, ?_⟩ <;>
    rcases ho with rfl | rfl <;> decide +kernel

theorem test_w_signed_refused : clear (owned 0) op (reg pMOD 0x090) 1 = true ∧ signedCause (owned 0) (signedBlock (owned 0)) = 1 := by decide +kernel

/-! ### Witnesses: the fault manager and Assayer -/

/-- An element. -/
def elem (l : Fin 4) (k : Fin 4) (p : Fin 256) (c : BitVec 20) : Element := ⟨l, k, p, c⟩

/-- The module in operation with an element in a phase, in the queue of tests or not. -/
def faulty (e : Element) (p : Phase) (win : Option Nat) (failed queued : Bool) : State :=
  let x : ElemSt := ⟨p, 3, 0, 7, 0, failed, win, 0⟩
  { live 0 with fltm := { Fltm.reset with elems := [(elementWord e, x)], queue := if queued then [elementWord e] else [] } }

/-- Elements of every level: a DRAM page, point record 65535, a converter path, a block, a region. -/
def elems : List Element := [elem 0 0 0xFF 5, elem 0 0 0x38 0xFFFF, elem 0 1 0x2B 15, elem 1 0 0x18 0, elem 1 0 0x78 0, elem 2 3 0xFF 0]

theorem test_w_detected : ∀ e ∈ elems, elemExists (live 0) (elementWord e) = true ∧ (3#8).toNat ≠ 2 ∧ shadowed (live 0) (elementWord e) = false ∧
    elemLevel (elementWord e) < 3 ∧ (elementWord e ≠ moduleWord) := by decide +kernel
theorem test_w_detected_pages : moduleLevel (elemPage (elementWord (elem 0 0 0x38 0xFFFF))) = false ∧
    moduleLevel (elemPage (elementWord (elem 2 3 0xFF 0))) = false ∧ moduleLevel (elemPage (elementWord (elem 1 0 0x78 0))) = false ∧
    elementWord (elem 1 0 0x78 0) = blockWord pLOCK := by decide +kernel
theorem test_w_absorbed : ∀ p ∈ [Phase.fenced, .testing, .retired], ∀ s, s = faulty (elem 1 0 0x38 0) p none false false →
    shadowed s (cellWord 0x38 9) = true ∧ elementWord (elem 0 0 0x38 9) = cellWord 0x38 9 ∧ elemExists s (cellWord 0x38 9) = true ∧
    ((elemSt s (cellWord 0x38 9)).phase = .fenced → (elemSt s (cellWord 0x38 9)).at_ ≠ s.clk.fabric) ∧ moduleLevel 0x38 = false := by
  rintro p hp _ rfl
  simp only [List.mem_cons, List.not_mem_nil, or_false] at hp
  rcases hp with rfl | rfl | rfl <;> decide +kernel
theorem test_w_module_error : elementWord (elem 3 0 0xFF 0) = moduleWord ∧ elemExists (live 0) moduleWord = true ∧
    shadowed (live 0) moduleWord = false ∧ elemLevel moduleWord = 3 ∧ (live 0).guard.safe = false := by decide +kernel

theorem test_w_corrected : ∀ n, n = 0 ∨ n = 2 ∨ n = 3 → ∀ s, s = { live 0 with fltm := { Fltm.reset with corr := [(cellWord 0x38 0xFFFF, (n, 0))] } } →
    elemExists s (blockWord 0x38) = true ∧ n = (corrected s (cellWord 0x38 0xFFFF)).1 ∧ corMode s pFLTM = false ∧
    elemExists s (cellWord 0x38 0xFFFF) = true ∧ shadowed s (cellWord 0x38 0xFFFF) = false := by
  rintro n (rfl | rfl | rfl) _ rfl <;> decide +kernel

/-- A completion of queue 1 that waits to be posted. -/
def posting (p : Post) : State := { live 0 with fact := { (live 0).fact with posts := [p] } }

theorem test_w_discard_complete : ∀ p : Post, p = ⟨1, 9, { status := 6, outcome := oDISCARDED }, 0, .operator, true⟩ →
    (posting p).fact.posts.find? (postable (posting p)) = some p ∧ factRoom (posting p) p.cls 1 = true ∧
      (live 0).fact.posts.find? (postable (live 0)) = none := by
  rintro _ rfl; decide +kernel
theorem calm_of_idle (s : State) (hb : s.toll.budget = []) (hu : s.toll.used = []) (hf : s.clk.freq = 50000000) : calm s 256 := by
  intro w k
  have hc : 1250 ≤ capacity s k := by
    have h : 500000 ≤ capPerSec k := by unfold capPerSec; split <;> decide
    simp only [capacity, hf]
    omega
  have hp : budgetPct s k (clsN .control) = 40 := by simp only [budgetPct, hb, look, get?]; rfl
  have hz : usedOf s k (clsN .control) = 0 := by simp only [usedOf, hu]; rfl
  have h : ¬ budgetPct s k (clsN .control) * capacity s k / 100 < usedOf s k (clsN .control) + 256 := by rw [hp, hz]; omega
  simp only [overBudget, decide_eq_false h, Bool.and_false, Bool.false_and]

theorem test_w_test_start : ∀ e ∈ elems, ∀ s, s = faulty e .fenced none false true → (elemSt s (elementWord e)).phase = .fenced ∧
    (s.fltm.queue.find? fun v => seqKey v == seqKey (elementWord e)) = some (elementWord e) ∧
    (∀ v ∈ s.fltm.elems, v.2.phase = .testing → seqKey v.1 ≠ seqKey (elementWord e)) := by
  rintro e he _ rfl
  revert e
  decide +kernel
theorem test_w_test_done : ∀ e ∈ elems, ∀ w, w = none ∨ w = some 15 ∨ w = some 16 → ∀ s, s = faulty e .testing w false false →
    (elemSt s (elementWord e)).phase = .testing ∧ elementWord e ∉ s.fltm.queue ∧ elemLevel (elementWord e) < 3 ∧
    (elemSt s (elementWord e)).kind ≠ 8 ∧ (elemSt s (elementWord e)).failed = false ∧ (elemSt s (elementWord e)).win = w := by
  rintro e he w hw _ rfl
  revert e
  rcases hw with rfl | rfl | rfl <;> decide +kernel
theorem test_w_test_done_calm : ∀ e ∈ elems, ∀ w, calm (faulty e .testing w false false) 256 ∧ calm (faulty e .testing w true false) 256 := fun _ _ _ =>
  ⟨calm_of_idle _ rfl rfl rfl, calm_of_idle _ rfl rfl rfl⟩
theorem test_w_transient_window : ∀ e ∈ elems, ∀ s, s = faulty e .service (some 3) false false → (elemSt s (elementWord e)).win = some 3 ∧
    s.clk.fabric < (elemSt s (elementWord e)).winAt + 3600 * Config.fabricHz ∧
    ∀ t : State, t = { s with clk := { s.clk with fabric := 3600 * Config.fabricHz } } →
      (elemSt t (elementWord e)).winAt + 3600 * Config.fabricHz ≤ t.clk.fabric := by
  rintro e he _ rfl
  have h : (elemSt (faulty e .service (some 3) false false) (elementWord e)).win = some 3 ∧
      (faulty e .service (some 3) false false).clk.fabric < (elemSt (faulty e .service (some 3) false false) (elementWord e)).winAt + 3600 * Config.fabricHz ∧
      (elemSt (faulty e .service (some 3) false false) (elementWord e)).winAt = 0 := by revert e; decide +kernel
  refine ⟨h.1, h.2.1, ?_⟩
  rintro _ rfl
  have : (elemSt { faulty e .service (some 3) false false with clk := { (faulty e .service (some 3) false false).clk with fabric := 3600 * Config.fabricHz } }
    (elementWord e)).winAt = 0 := h.2.2
  rw [this]; exact Nat.le_of_eq (Nat.zero_add _)
theorem test_w_test_failed : (elemSt (faulty (elem 1 0 0x18 0) .testing none true false) (blockWord 0x18)).failed = true := by decide +kernel
theorem test_w_patrol : ∀ n, n = 0 ∨ n = 17 → blockWord (ethPg n) = elementWord (elem 1 0 (if n = 0 then 0x40 else 0x51) 0) ∧
    (live 0).guard.operational = true ∧ shadowed (live 0) (blockWord (ethPg n)) = false ∧
    enabled (porting n .reset) (ethPg n) = true ∧ shadowed (porting n .reset) (blockWord (ethPg n)) = false ∧
    elemExists (porting n .reset) (blockWord (ethPg n)) = true ∧ (porting n .reset).guard.operational = true ∧ elemExists (live 0) (blockWord (ethPg n)) = true := by
  rintro n (rfl | rfl) <;> decide +kernel

theorem test_w_selftest : ∀ p, p = pFIO ∨ p = pPTS → headed p = true ∧ clear (live 0) op (reg p 0x038) 0x80000017 = true ∧
    clear (live 0) op (reg p 0x038) 0x80100000 = true ∧ elemExists (live 0) (cellWord p 0x17) = true ∧
    shadowed (live 0) (cellWord p 0x17) = false ∧ elemExists (live 0) (blockWord p) = true ∧ shadowed (live 0) (blockWord p) = false := by
  rintro p (rfl | rfl) <;> decide +kernel
theorem test_w_selftest_absent : elemExists (live 0) (cellWord pFIO 24) = false ∧ clear (live 0) op (reg pFIO 0x038) 0x80000018 = true ∧
    shadowed (faulty (elem 1 0 0x38 0) .fenced none false true) (cellWord pPTS 3) = true ∧
    clear (faulty (elem 1 0 0x38 0) .fenced none false true) op (reg pPTS 0x038) 0x80000003 = true ∧
    clear (live 0) op (reg pFLTM 0x08C) 1 = true := by decide +kernel

/-! ### Witnesses: Scrivener -/

/-- The recorder with trigger 0 set to a word and firings in its queue. -/
def recorder (cfg : Word) (n : Nat) : State :=
  { live 0 with scrv := { Scrv.reset with tcfg := [(0, cfg)], queue := List.replicate n ⟨0, .operator, 0, false, 0⟩ } }

/-- Its records in the hold buffer, a freeze, an end of the permanent area. -/
def recorded (n : Nat) (frozen : Bool) (perm : Nat) : State :=
  let s := recorder 0x80000003 1
  let r : ScrvRec := ⟨5, 0, 0, 1, .operator, 0, 0, 0, 0, [7]⟩
  { s with scrv := { s.scrv with hold := List.replicate n r, frozen := frozen, slots := (List.range perm).map fun k => (k, r) } }

theorem test_w_fire : ∀ s, s = recorder 0x80000000 0 ∨ s = recorder 0x80000000 63 ∨ s = recorder 0x80000000 64 ∨ s = recorder 0 0 →
    rdF s (reg pSCRV 0x0A0) 0 6 = 0 ∧ clear s op (reg pSCRV 0x084) 3 = true ∧ runs s pSCRV = true ∧ s.scrv.off = false ∧
    bit (tcfg s 0) 31 = decide (s.scrv.tcfg ≠ [(0, 0)]) ∧ get? s.scrv.last 0 = none ∧ corMode s pSCRV = false := by
  rintro _ (rfl | rfl | rfl | rfl) <;> decide +kernel
/-- At cycle 1, the last firing of trigger 0 at a cycle, its HOLDOFF 1. -/
def held (l : Nat) : State :=
  let s := recorder 0x80000100 0
  { s with scrv := { s.scrv with last := [(0, l)] }, clk := { s.clk with acc := 2 ^ 16 * Config.accOne } }

theorem test_w_holdoff : ∀ l, l = 0 ∨ l = 1 → get? (held l).scrv.last 0 = some l ∧ bit (tcfg (held l) 0) 31 = true ∧ fld (tcfg (held l) 0) 8 8 = 1 ∧
    cycleOf (count (held l)) = 1 ∧ clear (held l) op (reg pSCRV 0x084) 3 = true ∧ runs (held l) pSCRV = true := by
  rintro l (rfl | rfl) <;> decide +kernel
theorem test_w_capture : ∀ n, n = 0 ∨ n = 31 ∨ n = 32 → ∀ s, s = recorded n false 0 →
    s.scrv.queue = [⟨0, .operator, 0, false, 0⟩] ∧ runs s pSCRV = true ∧ s.scrv.off = false ∧ s.scrv.hold.length = n ∧
      s.scrv.pathAt ≤ s.clk.fabric := by
  rintro n (rfl | rfl | rfl) _ rfl <;> decide +kernel
theorem test_w_capture_path : ∀ s, s = { recorded 0 false 0 with scrv := { (recorded 0 false 0).scrv with pathAt := 24 } } →
    s.clk.fabric < s.scrv.pathAt := by
  rintro _ rfl; decide +kernel
/-- Firings of triggers 2 and 5 of the fabric cycle in progress wait; trigger 3 fires now, between them. -/
def together : State :=
  let s := wr (recorder 0 0) (reg pSCRV 0x0A0) 3
  { s with scrv := { s.scrv with tcfg := [(3, 0x80000000)], queue := [⟨2, .operator, 0, false, s.clk.fabric⟩, ⟨5, .operator, 0, false, s.clk.fabric⟩] } }
theorem test_w_fire_order : rdF together (reg pSCRV 0x0A0) 0 6 = 3 ∧ clear together op (reg pSCRV 0x084) 3 = true ∧ runs together pSCRV = true ∧
    bit (tcfg together 3) 31 = true ∧ together.scrv.queue.length < 64 ∧ together.scrv.queue = [⟨2, .operator, 0, false, together.clk.fabric⟩] ++
      [⟨5, .operator, 0, false, together.clk.fabric⟩] := by decide +kernel
theorem test_w_record : ∀ k, k = 0 ∨ k = 2047 ∨ k = 2048 → ∀ s, s = recorded 1 false k → s.scrv.hold.length = 1 ∧ s.scrv.frozen = false ∧
    s.scrv.off = false ∧ runs s pSCRV = true ∧ permFull s = decide (k = 2048) ∧ s.scrv.bad = [] := by
  rintro k (rfl | rfl | rfl) _ rfl <;> decide +kernel
theorem test_w_freeze_over : (recorded 1 true 0).clk.fabric < (recorded 1 true 0).scrv.frozenAt +
      max 1 (rdF (recorded 1 true 0) (reg pSCRV 0x080) 0 8) * Config.fabricHz ∧
    ∀ s, s = { recorded 1 true 0 with clk := { (recorded 1 true 0).clk with fabric := 2 ^ 40 } } →
      s.scrv.frozenAt + max 1 (rdF s (reg pSCRV 0x080) 0 8) * Config.fabricHz ≤ s.clk.fabric ∧ s.scrv.frozen = true := by
  refine ⟨by decide +kernel, ?_⟩; rintro _ rfl; decide +kernel
theorem test_w_freeze : (recorded 1 true 0).scrv.frozen = true ∧ clear (recorded 1 true 0) op (reg pSCRV 0x084) 1 = true ∧
    clear (recorded 1 true 0) op (reg pSCRV 0x084) 2 = true ∧ clear { recorded 1 true 3 with guard := (live 8).guard } op (reg pSCRV 0x084) 4 = true := by decide +kernel

/-! ### Witnesses: modes, start-up, resets, the field update -/

theorem test_w_mode_write : clear (linked (live 4)) ⟨.host, .operator⟩ (reg pMOD 0x080) 0xFB = true ∧ mMETER (linked (live 4)) = true ∧
    ceiling (linked (live 4)) .host ≠ .safety ∧ clear (live 1) op (reg pMOD 0x080) 0x80 = true ∧ ceiling (live 1) op.who = .safety ∧ mFLOOR (live 1) = true ∧
    roleSet (live 1) = true := by decide +kernel
theorem test_w_locks : clear (live 0) op (reg pPROT 0x080) 1 = true ∧ clear (live 8) op (reg pPROT 0x09C) 0x80000003 = true := by decide +kernel

/-- A module before it is in operation, at a start-up step. -/
def starting (n : Nat) : State :=
  let g : Guard := { State.reset.guard with step := n, pgood := decide (1 < n), inReset := false }
  { State.reset with guard := g, lac := { State.reset.lac with inService := true } }

theorem test_w_start_up : ∀ n, (starting n).guard.step = n ∧ (starting n).guard.operational = false ∧ (starting n).guard.dead = false ∧
    (starting n).guard.pgood = decide (1 < n) ∧ (starting n).guard.safe = false ∧ shadowed (starting n) moduleWord = false ∧
    (starting n).guard.bootBad = false ∧ (starting n).guard.mode = 0 ∧ (starting n).lac.inService = true ∧ activeProg (starting n) = none ∧
    (starting n).guard.protLock = false ∧ (starting n).guard.boot ≠ 1 := fun _ => ⟨rfl, rfl, rfl, rfl, rfl, rfl, rfl, rfl, rfl, rfl, rfl,
  show State.reset.guard.boot ≠ 1 by decide⟩
theorem test_w_start_bad : ∀ e : Element, e = elem 0 0 0xFF 5 ∨ e = elem 0 0 0x38 0xFFFF → elemExists (starting 5) (elementWord e) = true ∧
    shadowed (starting 5) (elementWord e) = false ∧ elemLevel (elementWord e) = 0 ∧
    (elemPage (elementWord e) = 0xFF ∨ moduleLevel (elemPage (elementWord e)) = false) := by
  rintro _ (rfl | rfl) <;> decide +kernel
theorem test_w_start_module_bad : ∀ e : Element, e = elem 3 0 0xFF 0 → elemExists (starting 5) (elementWord e) = true ∧
    shadowed (starting 5) (elementWord e) = false ∧ elemLevel (elementWord e) = 3 := by rintro _ rfl; decide +kernel

/-- A recovery start at its third step, the owner's root in force. -/
def recovering : State :=
  let s := starting 3
  { s with guard := { s.guard with boot := 1, lifecycle := 2 }, vault := { s.vault with rootOf := 2, ownerRoot := neutral } }

theorem test_w_recovery : recovering.guard.step = 3 ∧ recovering.guard.boot = 1 ∧ recovering.guard.operational = false ∧
    patchRun (patchBase recovering patch) (leAt patch 0x5C 4) (((patch.drop 128).take (leAt patch 0x58 4)).length + 1)
      ((patch.drop 128).take (leAt patch 0x58 4)) [] = some [] ∧ (Crypto.sha256 []).toNat = leAt patch 0x28 32 ∧
    patchCause recovering [0] true ≠ 0 ∧ (Crypto.sha256 []).toNat ≠ leAt (setNth patch 0x28 0) 0x28 32 := by decide +kernel
theorem test_w_recovery_image : patchCause recovering patch true = 0 := by
  have e1 : patch.drop (patch.length - 64) = neutral ++ List.replicate 32 0 := by decide +kernel
  have e2 : (patch.length < 192 ∨ leAt patch 0 4 ≠ 0x4F585550 ∨ leAt patch 4 2 ≠ 1 ∨ patch.length ≠ 192 + leAt patch 0x58 4 ∨
      2 ^ 26 < leAt patch 0x5C 4) = False := by simp only [eq_iff_iff, iff_false]; decide +kernel
  have e3 : leAt patch 8 32 = 0 := by decide +kernel
  have e4 : ¬leAt patch 0x48 4 ≤ recovering.guard.arb := by decide +kernel
  simp only [patchCause, e1, e2, e3, e4, show rootForce recovering = neutral from rfl, neutral_verifies]; decide

/-- A module whose supply has failed, a Daybook entry not yet drained. -/
def failing (wait : Bool) : State :=
  let s := live 0
  let e : DayEntry := ⟨0, 0, 0, 0, 0, 0, 0, 0, 0, false, false, 0, .operator⟩
  { s with pins := { s.pins with pfwAt := some 0, resetWait := wait }, dayb := { s.dayb with reserved := [e] } }

theorem test_w_resets : (live 0).pins.pfwAt = none ∧ (failing false).pins.pfwAt = some 0 ∧ (failing false).dayb.reserved.length = 1 ∧
    (failing false).clk.fabric < 0 + msFabric 2 ∧ (failing true).pins.resetWait = true ∧
    resetFree (failing true) = false ∧
    ∀ s, s = { failing true with clk := { (failing true).clk with fabric := msFabric 2 } } → resetFree s = true ∧ s.pins.pfwAt = some 0 ∧
      0 + msFabric 2 ≤ s.clk.fabric := by
  refine ⟨by decide +kernel, by decide +kernel, by decide +kernel, by decide +kernel, by decide +kernel, by decide +kernel, ?_⟩
  rintro _ rfl; decide +kernel

/-- Later, at a fabric cycle. -/
def later (s : State) (f : Nat) : State := { s with clk := { s.clk with fabric := f } }

theorem test_w_update_limits : ∀ l, (updating 1 []).upd.lease = some l → ∀ ends,
    ends = l.at_ + max 1 (rdF (updating 1 []) (reg pUPD 0x080) 8 8) * (60 * Config.fabricHz) → (updating 1 []).clk.fabric < ends ∧
    ends ≤ (later (updating 1 []) (2 ^ 44)).clk.fabric ∧ (updating 4 []).clk.fabric < (updating 4 []).upd.since +
      max 1 (rdF (updating 4 []) (reg pUPD 0x080) 0 8) * Config.fabricHz ∧
    (later (updating 4 []) (2 ^ 40)).upd.since + max 1 (rdF (later (updating 4 []) (2 ^ 40)) (reg pUPD 0x080) 0 8) * Config.fabricHz ≤
      (later (updating 4 []) (2 ^ 40)).clk.fabric := by
  rintro l h _ rfl; cases h; decide +kernel
theorem test_w_update_times : (updating 1 []).upd.lease.isSome = true ∧ (updating 3 []).upd.lease.isSome = true ∧ updState (updating 1 []) ≠ 3 ∧
    updState (updating 3 []) = 3 ∧ updState (updating 4 []) = 4 ∧
    (calStamp (updating 3 [])).toNat / 2 ^ 11 < { updating 3 [] with upd := { (updating 3 []).upd with actTime := 2 ^ 63 } }.upd.actTime / 2 ^ 11 := by
  decide +kernel

/-! ### Single steps from the worked examples of the spec and from the standards it names -/

/-- The outcome is a next state that passes a check. -/
def gives (o : Host.Outcome State Fault Refusal) (p : State → Bool) : Bool :=
  match o with
  | .next t => p t
  | _ => false

/-- The record of loop 17 in chapter 5: KP 2, KI 0.25, B 1, RATE_MAX 10, OUT_HI 100. -/
def loop17 : List Word := (List.range 32).map fun j => look 0#32 [(0, 2), (11, 0x20000), (12, 0x4000), (15, 0x10000), (19, 0xA0000), (20, 0x640000)] j

/-- 05_control_loops.md, "closing and a setpoint step": the closing sample. -/
theorem test_loop_closing : (closedStep loop17 ⟨0, 0, 0, 0, 0, 0, 0, true, false⟩ 0x150000 0x140000 0 (30 * 2 ^ 32)).u = 30 * 2 ^ 32 ∧
    (closedStep loop17 ⟨0, 0, 0, 0, 0, 0, 0, true, false⟩ 0x150000 0x140000 0 (30 * 2 ^ 32)).law.integ = 28 * 2 ^ 32 := by decide +kernel
/-- The sample at 1,000,016: the rate limit holds u at 40, CLAMP keeps I at 28, and only RATE is set. -/
theorem test_loop_rate : (closedStep loop17 ⟨28 * 2 ^ 32, 0, 0, 0, 0, 0, 0, false, false⟩ 0x1E0000 0x142000 0 (30 * 2 ^ 32)).u = 40 * 2 ^ 32 ∧
    (closedStep loop17 ⟨28 * 2 ^ 32, 0, 0, 0, 0, 0, 0, false, false⟩ 0x1E0000 0x142000 0 (30 * 2 ^ 32)).law.integ = 28 * 2 ^ 32 ∧
    (closedStep loop17 ⟨28 * 2 ^ 32, 0, 0, 0, 0, 0, 0, false, false⟩ 0x1E0000 0x142000 0 (30 * 2 ^ 32)).fl = 256 := by decide +kernel
/-- The sample at 1,000,032: 50.0625, written as 0x0032_1000. -/
theorem test_loop_output : accQ (closedStep loop17 ⟨0x1E6000 * 65536, 0, 0, 0, 0, 0, 0, false, false⟩ 0x1E0000 0x154000 0 (0x316000 * 65536)).u =
    0x00321000#32 := by decide +kernel

/-- 12_vault_and_calendar.md, "an invalid date across a non-leap February": 2100-02-28, 02-30 and 02-31 at 23:59:59. -/
theorem test_second_february : gives (execSecondBoundary (dated [59, 59, 23, 6, 28, 2, 2100])) (fun t =>
    (List.range 7).map (fun f => rd t (calReg f)) == [0, 0, 0, 0, 1, 3, 2100]) = true := by decide +kernel
theorem test_second_invalid : gives (execSecondBoundary (dated [59, 59, 23, 0, 30, 2, 2100])) (fun t =>
      (List.range 7).map (fun f => rd t (calReg f)) == [0, 0, 0, 1, 31, 2, 2100]) = true ∧
    gives (execSecondBoundary (dated [59, 59, 23, 1, 31, 2, 2100])) (fun t =>
      (List.range 7).map (fun f => rd t (calReg f)) == [0, 0, 0, 2, 1, 3, 2100]) = true := by decide +kernel

/-- 02_line_angle_clock.md, "step after synthetic running": entries 71 and 72 at cycle 90,000, angle 21,000. -/
theorem test_residue : w0Matches (0x80000000#32 + 21000 + 1 * 2 ^ 24) (90000 * 65536 + 21000) = true ∧
    w0Matches (0x80000000#32 + 21000 + 1 * 2 ^ 16 + 1 * 2 ^ 24) (90000 * 65536 + 21000) = false := by decide +kernel

/-- 06_metering.md: 460.8 W over one grid sample adds 10,995,116 raw units, whatever the free choice. -/
theorem test_raw_units (w : Word) : rawOf w ⟨4608, 10⟩ 31250 = 10995116 := by
  simp [rawOf, Config.fabricHz, Nat.mod_one]

/-- 08_points_tenancy_daybook.md, "one setpoint, two tenants": the operator's write at level 3 and its relinquishment. -/
def setpoint : State :=
  { live 0 with pts := [(0x2210, { valuePt with ty := .float32, pa := [(8, 0x41B00000#32), (12, 0x41A00000#32)], value := 0x41B00000#32, level := 8 })] }
theorem test_setpoint : gives (execCommandedWrite op 0x2210 0x41980000 3 setpoint) (fun t => (point t 0x2210).mask == 0x884 &&
    (point t 0x2210).value == 0x41980000#32 && (point t 0x2210).level == 3) = true := by decide +kernel
theorem test_relinquish : gives (execRelinquish op 0x2210 8 setpoint) (fun t => (point t 0x2210).mask == 0x800 &&
    (point t 0x2210).value == 0x41A00000#32 && (point t 0x2210).level == 12) = true := by decide +kernel

/-- FIPS 180-4, "abc". -/
theorem test_sha256 : Crypto.sha256Bytes [0x61, 0x62, 0x63] = Crypto.bigBytes 32 0xba7816bf8f01cfea414140de5dae2223b00361a396177a9cb410ff61f20015ad := by
  decide +kernel
/-- FIPS 197, figure 7: three values of the S-box. -/
theorem test_aes_sub : [0x00#8, 0x53#8, 0xFF#8].map Crypto.aesSub = [0x63#8, 0xED#8, 0x16#8] := by decide +kernel
/-- RFC 8032, 7.1 TEST 1, and the same signature over another message. -/
theorem test_ed25519 : Crypto.edVerify (Crypto.bigBytes 32 0xd75a980182b10ab7d54bfed3c964073a0ee172f3daa62325af021a68f707511a) []
    (Crypto.bigBytes 64 0xe5564300c360ac729086e2cc806e828a84877f1eb8e5d974d873e065224901555fb8821590a33bacc61e39701cf9b46bd25bf5f0595bbe24655141438e7a100b) = true := by
  decide +kernel
/-- The check value of CRC-32. -/
theorem test_crc32 : Crypto.crc32 [0x31, 0x32, 0x33, 0x34, 0x35, 0x36, 0x37, 0x38, 0x39] = 0xCBF43926#32 := by decide +kernel

end Sys2Proof.Tests
end

section
/-!
PROOFS. Register accesses without a row of their own (chapter 1, R6, R7, R350): where a page map's row stands, what a write to a
plain RW register leaves, what a write with partial byte enables leaves, and what a read of SCAN.READY_MAX leaves.
-/

namespace Sys2Proof.Proofs

open Sys2Proof.Machine Sys2Proof.Laws

/-! ### The row of an address -/

/-- A row covers no offset from its end on. -/
theorem covers_eq_false_of_end_le {r : RegRow} {o : Nat} (hs : 0 < r.stride) (ho : r.off + r.n * r.stride ≤ o) :
    r.covers o = false := by
  have hn : ¬ (o - r.off) / r.stride < r.n := by
    rw [Nat.div_lt_iff_lt_mul hs]
    omega
  simp [RegRow.covers, hn]

/-- A row covers each of its words. -/
theorem covers_nth {r : RegRow} {k : Nat} (hs : 0 < r.stride) (hk : k < r.n) : r.covers (r.off + r.stride * k) = true := by
  simp [RegRow.covers, Nat.mul_div_cancel_left k hs, hk]

/-- Word `k` of a row that stands after the ends of all rows before it in its page map. -/
theorem rowOf_nth {p j k : Nat} {r : RegRow} (hj : (pageRows p)[j]? = some r) (hs : 0 < r.stride) (hk : k < r.n)
    (hb : ∀ x ∈ (pageRows p).take j, 0 < x.stride ∧ x.off + x.n * x.stride ≤ r.off) (ho : r.off + r.stride * k < 4096) :
    rowOf (reg p (r.off + r.stride * k)) = some r := by
  obtain ⟨hlt, hget⟩ := List.getElem?_eq_some_iff.1 hj
  unfold rowOf
  rw [pageOf_reg p ho, offOf_reg p ho, List.find?_eq_some_iff_append]
  refine ⟨covers_nth hs hk, (pageRows p).take j, (pageRows p).drop (j + 1), ?_, fun x hx => ?_⟩
  · rw [← hget, List.getElem_cons_drop, List.take_append_drop]
  · obtain ⟨hxs, hxe⟩ := hb x hx
    rw [covers_eq_false_of_end_le hxs (by omega)]
    rfl

/-- WAKE_EN of INTC. -/
theorem rowOf_wakeEn {k : Nat} (hk : k < 8) : rowOf (reg pINTC (0x140 + 4 * k)) = some (rRW 0x140 full 0 8) :=
  rowOf_nth (j := 23) (r := rRW 0x140 full 0 8) (by decide) (by decide) hk (by decide) (by simp only [rRW]; omega)

/-- PRIO of INTC. -/
theorem rowOf_prio {k : Nat} (hk : k < 256) : rowOf (reg pINTC (0x400 + 4 * k)) = some (rRW 0x400 0x1F 0 256) :=
  rowOf_nth (j := 28) (r := rRW 0x400 0x1F 0 256) (by decide) (by decide) hk (by decide) (by simp only [rRW]; omega)

/-- SCRATCH of BKP. -/
theorem rowOf_scratch {k : Nat} (hk : k < 16) : rowOf (reg pBKP (0x100 + 4 * k)) = some (rRW 0x100 full 0 16) :=
  rowOf_nth (j := 22) (r := rRW 0x100 full 0 16) (by decide) (by decide) hk (by decide) (by simp only [rRW]; omega)

/-! ### A write to a plain RW register (R6) -/

/-- A write to a register without W1C and W1S bits sets its RW bits and leaves the others. -/
theorem rd_mergeRw_plain (s : State) {a : Nat} {r : RegRow} (v : Word) (hr : rowOf a = some r) (hc : r.w1c = 0)
    (hs : r.w1s = 0) : rd (mergeRw s a v) a = (rd s a &&& ~~~(w32 r.rw)) ||| (v &&& w32 r.rw) := by
  have hno : w32 0 = 0#32 := rfl
  have hall : ~~~(0#32) = BitVec.allOnes 32 := rfl
  unfold mergeRw
  rw [hr]
  simp only [rd_wr_same, hc, hs, hno, BitVec.and_zero, BitVec.zero_and, BitVec.or_zero, hall, BitVec.and_allOnes]

/-- Registers of different pages have different addresses. -/
theorem reg_ne_of_page {p q o n : Nat} (h : p ≠ q) (ho : o < 4096) (hn : n < 4096) : reg p o ≠ reg q n := by
  intro e
  apply h
  rw [← pageOf_reg p ho, e, pageOf_reg q hn]

/-- No register of INTC or BKP acts as another value than the one written. -/
theorem writePlain_intc_bkp (s : State) {p o : Nat} (v : Word) (hp : p = pINTC ∨ p = pBKP) (ho : o < 4096) :
    writePlain s (reg p o) v = mergeRw s (reg p o) v := by
  have hne : ∀ q n, n < 4096 → q ≠ pINTC → q ≠ pBKP → reg p o ≠ reg q n := by
    rintro q n hn hqi hqb
    exact reg_ne_of_page (by rcases hp with rfl | rfl; exacts [hqi.symm, hqb.symm]) ho hn
  have hclean : cleanWord s (reg p o) v = (v, none) := by
    unfold cleanWord
    simp (disch := decide) only [hne, if_false, pageOf_reg p ho, offOf_reg p ho]
    rcases hp with rfl | rfl <;> simp [pINTC, pBKP, pFACTQ, pTEN, pETH, pMB]
  unfold writePlain
  rw [hclean]

/-- From WAKE_EN on, the registers of INTC but SLEEP are plain. -/
theorem writeEffect_intc (s : State) (i : Init) {o : Nat} {r : RegRow} (v : Word) (hr : rowOf (reg pINTC o) = some r)
    (ho : o < 4096) (hw : 0x140 ≤ o) (hs : o ≠ 0x170) : writeEffect s i (reg pINTC o) v = mergeRw s (reg pINTC o) v := by
  have hblock : writeEffect s i (reg pINTC o) v = writeIntc s o v := by
    unfold writeEffect writeBlock
    dsimp only
    rw [hr, pageOf_reg _ ho, offOf_reg _ ho]
    simp [isLoopbank, pINTC, pMOD, pPROT, show ¬ o < 0x080 by omega]
  rw [hblock, ← writePlain_intc_bkp s v (.inl rfl) ho]
  unfold writeIntc
  dsimp only
  rw [if_neg (by omega), if_neg (by omega), if_neg (by omega), if_neg (by omega), if_neg hs]

/-- From SCRATCH on, the registers of BKP are plain. -/
theorem writeEffect_bkp (s : State) (i : Init) {o : Nat} {r : RegRow} (v : Word) (hr : rowOf (reg pBKP o) = some r)
    (ho : o < 4096) (hw : 0x100 ≤ o) : writeEffect s i (reg pBKP o) v = mergeRw s (reg pBKP o) v := by
  rw [← writePlain_intc_bkp s v (.inr rfl) ho]
  unfold writeEffect writeBlock
  dsimp only
  rw [hr, pageOf_reg _ ho, offOf_reg _ ho]
  simp [isLoopbank, pBKP, pMOD, pPROT, pINTC, pFLTM, pTOLL, pLAC, pSCAN, pSCANDBG, pPGMX, pFORCE, pWGHEN, pWGHPQ, pFACT, pFACTQ,
    pPTS, pDAYB, pETH, pOPX, pMB, pSF, pFIO, pSGN, pSGNRG, pLOCK, pCAL, pSCRV, pUPD, show ¬ o < 0x080 by omega,
    show o ≠ 0x088 by omega]

theorem exec_registerWrite (i : Init) (a : BitVec 20) (be : BitVec 4) (v : Word) (s : State) :
    exec (.registerWrite i a be v) s = execRegisterWrite i a be v s := rfl

/-- REGISTER_WRITE of a whole word is the register write of its initiator. -/
theorem exec_registerWrite_whole (s : State) (i : Init) (a : BitVec 20) (v : Word) :
    exec (.registerWrite i a 0xF v) s = finishClock s (submitWrite s i a.toNat v) := by
  rw [exec_registerWrite]
  unfold execRegisterWrite
  dsimp only
  rw [if_pos rfl]

/-- Registers of pages other than TOLL and DAYB are none of a request's accounts. -/
theorem booked_of_page {p o : Nat} (ho : o < 4096) (ht : p ≠ pTOLL) (hd : p ≠ pDAYB) : booked (reg p o) = false := by
  unfold booked
  rw [pageOf_reg p ho]
  simp [ht, hd]

/-- A write that meets nothing on its way, to a plain RW register of INTC or BKP. -/
theorem exec_registerWrite_plain {s : State} {i : Init} {a : BitVec 20} {v : Word} {p o : Nat} {r : RegRow}
    (h : clear s i a.toNat v = true) (ha : a.toNat = reg p o) (hp : p = pINTC ∨ p = pBKP) (ho : o < 4096)
    (hr : rowOf (reg p o) = some r) (hc : r.w1c = 0) (hs : r.w1s = 0)
    (heff : ∀ s' j, writeEffect s' j (reg p o) v = mergeRw s' (reg p o) v) :
    ∃ t, exec (.registerWrite i a 0xF v) s = .next t ∧
      rd t a.toNat = (rd s a.toNat &&& ~~~(w32 r.rw)) ||| (v &&& w32 r.rw) := by
  have hlock : reg p o ≠ reg pLOCK 0x090 := reg_ne_of_page (by rcases hp with rfl | rfl <;> decide) ho (by decide)
  have hbook : booked (reg p o) = false :=
    booked_of_page ho (by rcases hp with rfl | rfl <;> decide) (by rcases hp with rfl | rfl <;> decide)
  rw [exec_registerWrite_whole]
  rw [ha] at h ⊢
  refine row_clear h hlock fun s' t hl hd => ?_
  rw [hd.rd, heff, rd_mergeRw_plain s' v hr hc hs, hl.rd _ hbook]

/-- A register all of whose bits are RW reads as written. -/
theorem merge_full (x v : Word) : (x &&& ~~~(w32 full)) ||| (v &&& w32 full) = v := by
  have hfull : w32 full = BitVec.allOnes 32 := rfl
  rw [hfull, BitVec.not_allOnes, BitVec.and_zero, BitVec.zero_or, BitVec.and_allOnes]

/-- WAKE_EN of INTC takes the value written. -/
theorem write_wakeEn {s : State} {i : Init} {a : BitVec 20} {v : Word} (h : clear s i a.toNat v = true) {k : Nat} (hk : k < 8)
    (ha : a.toNat = reg pINTC (0x140 + 4 * k)) : ∃ t, exec (.registerWrite i a 0xF v) s = .next t ∧ rd t a.toNat = v := by
  have hr := rowOf_wakeEn hk
  have hex := exec_registerWrite_plain h ha (.inl rfl) (by omega) hr rfl rfl
    fun s' j => writeEffect_intc s' j v hr (by omega) (by omega) (by omega)
  rwa [rRW, merge_full] at hex

/-- PRIO of INTC takes its five RW bits and keeps the others. -/
theorem write_prio {s : State} {i : Init} {a : BitVec 20} {v : Word} (h : clear s i a.toNat v = true) {k : Nat} (hk : k < 256)
    (ha : a.toNat = reg pINTC (0x400 + 4 * k)) : ∃ t, exec (.registerWrite i a 0xF v) s = .next t ∧
      rd t a.toNat = (rd s a.toNat &&& ~~~0x1F#32) ||| (v &&& 0x1F#32) := by
  have hr := rowOf_prio hk
  have hmask : w32 0x1F = 0x1F#32 := rfl
  have hex := exec_registerWrite_plain h ha (.inl rfl) (by omega) hr rfl rfl
    fun s' j => writeEffect_intc s' j v hr (by omega) (by omega) (by omega)
  rwa [rRW, hmask] at hex

/-- SCRATCH of BKP takes the value written. -/
theorem write_scratch {s : State} {i : Init} {a : BitVec 20} {v : Word} (h : clear s i a.toNat v = true) {k : Nat} (hk : k < 16)
    (ha : a.toNat = reg pBKP (0x100 + 4 * k)) : ∃ t, exec (.registerWrite i a 0xF v) s = .next t ∧ rd t a.toNat = v := by
  have hr := rowOf_scratch hk
  have hex := exec_registerWrite_plain h ha (.inr rfl) (by omega) hr rfl rfl
    fun s' j => writeEffect_bkp s' j v hr (by omega) (by omega)
  rwa [rRW, merge_full] at hex

/-! ### A write to a reserved offset (R6) -/

theorem logsWrite_reserved {a : Nat} (v : Word) (hr : rowOf a = none) : logsWrite a v = false := by
  simp [logsWrite, writable, hr]

theorem writeEffect_reserved (s : State) (i : Init) {a : Nat} (v : Word) (hr : rowOf a = none) : writeEffect s i a v = s := by
  simp [writeEffect, hr]

/-- A write to a reserved offset changes TOLL's accounts alone: it is not logged and has no effect. -/
theorem write_reserved {s : State} {i : Init} {a : BitVec 20} {v : Word} (h : clear s i a.toNat v = true)
    (hr : rowOf a.toNat = none) :
    ∃ t, exec (.registerWrite i a 0xF v) s = .next t ∧ t.dayb = s.dayb ∧ t.guard = s.guard ∧ t.clk = s.clk ∧
      t.loom = s.loom ∧ t.pts = s.pts ∧ ∀ b, pageOf b ≠ pTOLL → rd t b = rd s b := by
  have hlock : a.toNat ≠ reg pLOCK 0x090 := by
    intro e
    rw [e] at hr
    exact absurd hr (by decide)
  rw [exec_registerWrite_whole]
  refine row_clear_unlogged h hlock (logsWrite_reserved v hr) fun s' t hl hdayb _ hrd hd => ?_
  have heff := writeEffect_reserved s' ⟨i.who, clsFor s i⟩ v hr
  rw [heff] at hd
  refine ⟨hd.dayb.trans hdayb, ?_, ?_, hd.loom.trans hl.loom, hd.pts.trans hl.pts, fun b hb => (hd.rd b).trans (hrd b hb)⟩
  · rw [hd.guard, hl.guard, advance_self]
  · rw [hd.clk, hl.clk, later_self]

/-! ### A write with partial byte enables (R350) -/

/-- REGISTER_WRITE of a part of a word is a request that writes nothing. -/
theorem exec_registerWrite_part (s : State) (i : Init) (a : BitVec 20) {be : BitVec 4} (v : Word) (hbe : be ≠ 0xF) :
    exec (.registerWrite i a be v) s =
      finishClock s (submitPlain s i.who (clsFor s i) (.regWritePart a.toNat) (ownSink i.who a.toNat true)) := by
  have hsink : (if i.who = .host then Sink.host a.toNat true else .own i.who a.toNat) = ownSink i.who a.toNat true := by
    unfold ownSink
    cases i.who <;> rfl
  rw [exec_registerWrite]
  unfold execRegisterWrite
  dsimp only
  rw [if_neg hbe, hsink]

/-- What a host write leaves in HOSTP (R353): nothing, or its address, its outcome, a count and an event. -/
theorem hostRecord_write (s : State) (off out : Nat) : hostRecord s off true out = s ∨
    ∃ x y, hostRecord s off true out =
      ev (bump (wr (wr s (reg pHOSTP 0x08C) x) (reg pHOSTP 0x090) y) (reg pHOSTP 0x0A8)) pHOSTP 2 := by
  unfold hostRecord
  split
  · exact .inl rfl
  · exact .inr ⟨_, _, rfl⟩

/-- The record of a host write changes registers of HOSTP alone. -/
theorem hostRecord_write_keeps (s : State) (off out : Nat) :
    (hostRecord s off true out).guard = s.guard ∧ (hostRecord s off true out).loom = s.loom ∧
      (hostRecord s off true out).pts = s.pts ∧ (hostRecord s off true out).dayb = s.dayb ∧
      ∀ b, pageOf b ≠ pHOSTP → rd (hostRecord s off true out) b = rd s b := by
  rcases hostRecord_write s off out with hrec | ⟨x, y, hrec⟩ <;> rw [hrec]
  · exact ⟨rfl, rfl, rfl, rfl, fun _ _ => rfl⟩
  · refine ⟨by simp, by simp, by simp, by simp, fun b hb => ?_⟩
    have hne : ∀ o, o < 4096 → b ≠ reg pHOSTP o := by
      rintro o ho rfl
      exact hb (pageOf_reg _ ho)
    have hevt : evtAddr pHOSTP ≠ some b := by
      rw [show evtAddr pHOSTP = some (reg pHOSTP 0x088) by decide]
      exact fun e => hne 0x088 (by decide) (Option.some.inj e).symm
    rw [rd_ev_other _ _ _ hevt, rd_bump_other _ (hne _ (by decide)), rd_wr_other _ _ (hne _ (by decide)),
      rd_wr_other _ _ (hne _ (by decide))]

/-- The answer to an initiator's own register write: a reply, or the host's records. -/
theorem answer_ownWrite_keeps (s : State) {r : Req} {w : Who} {a : Nat} (out : Nat) (d : List Word)
    (hs : r.sink = ownSink w a true) :
    (answer s r out d).guard = s.guard ∧ (answer s r out d).loom = s.loom ∧ (answer s r out d).pts = s.pts ∧
      (answer s r out d).dayb = s.dayb ∧ ∀ b, pageOf b ≠ pHOSTP → rd (answer s r out d) b = rd s b := by
  unfold answer ownSink at *
  dsimp only
  rw [hs]
  cases w
  case host => exact hostRecord_write_keeps s a out
  all_goals exact ⟨rfl, rfl, rfl, rfl, fun _ _ => rfl⟩

/-- A request to write a part of a word leaves one entry, whose OLD and NEW are the same, and its answer. -/
theorem endRefused_part (s : State) {r : Req} {a : Nat} (rights waits : Bool) (code : Nat) (hb : r.body = .regWritePart a) :
    ∃ c : Change, c.old = c.new ∧ c.cls = r.cls ∧ c.outcome = finalOut code (delayOf s r waits) ∧
      endRefused s r rights waits code = answer (logRefusal s c) r c.outcome (emptyData (.regWritePart a)) := by
  unfold endRefused refusalEntries refusalEntry
  dsimp only
  rw [hb]
  exact ⟨_, rfl, rfl, rfl, rfl⟩

/-- Without losses the slot reserved is that of the change alone. -/
theorem reserved_dayReserve {s : State} (c : Change) (hl : s.dayb.lost = 0) :
    ∃ q, (dayReserve s c).dayb.reserved = s.dayb.reserved ++ [mkEntry s c q] := by
  unfold dayReserve dayLow
  dsimp only
  rw [if_pos hl, evIf_dayb]
  exact ⟨_, rfl⟩

/-- After arbitration a request to write a part of a word is refused: ABSENT for a page that is not there, else RIGHTS. -/
theorem finPlain_part (n : Nat) (u : State) {r : Req} {a : Nat} (hb : r.body = .regWritePart a) :
    ∃ code rights, finPlain n u r = endRefused u r rights false code ∧
      (pageAbsent u r.who (pageOf a) = false → fusedOff u (pageOf a) = false → code = oRIGHTS) := by
  unfold finPlain
  dsimp only
  rw [hb]
  dsimp only
  split
  · rename_i habsent
    refine ⟨_, _, rfl, fun hp hf => ?_⟩
    simp [hp, hf] at habsent
  · exact ⟨_, _, rfl, fun _ _ => rfl⟩

/-- A request to write a part of a word that enters at once ends with an entry whose OLD and NEW are the same, and its answer:
RIGHTS where the page is there. -/
theorem submit_part {s u : State} {w : Who} {k : Cls} {a : Nat} (sink : Sink) (hopen : portOpen s w = true)
    (hu : entered s (newReq s w k (.regWritePart a) sink) = some u) :
    ∃ (c : Change) (r : Req) (d : List Word), submitPlain s w k (.regWritePart a) sink = answer (logRefusal u c) r c.outcome d ∧
      r.sink = sink ∧ c.old = c.new ∧ c.cls = k ∧
      (pageAbsent u w (pageOf a) = false → fusedOff u (pageOf a) = false → c.outcome = oRIGHTS) := by
  rw [submitPlain_open _ _ _ hopen, enter_entered _ hu]
  obtain ⟨r, hr⟩ : ∃ r : Req, r = { newReq s w k (.regWritePart a) sink with path := [] } := ⟨_, rfl⟩
  have hbody : r.body = .regWritePart a := by rw [hr]; rfl
  have hwho : r.who = w := by rw [hr]; rfl
  have hcls : r.cls = k := by rw [hr]; rfl
  have hsink : r.sink = sink := by rw [hr]; rfl
  have hdelay : delayOf u r false = 0 := by rw [hr]; rfl
  rw [← hr]
  obtain ⟨code, rights, hfin, hcode⟩ := finPlain_part s.toll.waiting.length u hbody
  obtain ⟨c, hold, hc, hout, hend⟩ := endRefused_part u rights false code hbody
  refine ⟨c, r, _, hfin.trans hend, hsink, hold, hc.trans hcls, fun hp hf => ?_⟩
  rw [hout, hdelay, hcode (hwho ▸ hp) hf]
  rfl

/-- A write with partial byte enables changes accounts of TOLL, the Daybook and HOSTP alone; where the page is there and the
Daybook has room it leaves an entry with RIGHTS. -/
theorem write_part {s u : State} {i : Init} {a : BitVec 20} {v : Word} {be : BitVec 4} (hbe : be ≠ 0xF)
    (hopen : portOpen s i.who = true)
    (hu : entered s (newReq s i.who (clsFor s i) (.regWritePart a.toNat) (ownSink i.who a.toNat true)) = some u) :
    ∃ t, exec (.registerWrite i a be v) s = .next t ∧ t.guard = s.guard ∧ t.loom = s.loom ∧ t.pts = s.pts ∧
      (∀ b, pageOf b ≠ pTOLL → pageOf b ≠ pDAYB → pageOf b ≠ pHOSTP → rd t b = rd s b) ∧
      (pageAbsent u i.who (pageOf a.toNat) = false → fusedOff s (pageOf a.toNat) = false → logOk s (clsFor s i) = true →
        s.dayb.lost = 0 → ∃ e : DayEntry, t.dayb.reserved = s.dayb.reserved ++ [e] ∧ e.outcome = oRIGHTS ∧ e.old = e.new) := by
  obtain ⟨c, r, d, hsub, hsink, hold, hcls, hrights⟩ := submit_part _ hopen hu
  obtain ⟨hlight, hdayb, -, -⟩ := light_entered (regPath_lt i.who (pageOf a.toNat)) hu
  have hlogged := hlight.trans (light_logRefusal u c)
  obtain ⟨aguard, aloom, apts, adayb, ard⟩ := answer_ownWrite_keeps (logRefusal u c) c.outcome d hsink
  rw [exec_registerWrite_part s i a v hbe, finishClock_next, hsub]
  refine ⟨?_, aloom.trans hlogged.loom, apts.trans hlogged.pts, fun b ht hd hh => ?_, fun hp hf hok hlost => ?_⟩
  · show s.guard.advance _ = s.guard
    rw [aguard, hlogged.guard, advance_self]
  · have hbook : booked b = false := by simp [booked, ht, hd]
    exact (ard b hh).trans (hlogged.rd b hbook)
  · have hfused : fusedOff u (pageOf a.toNat) = false := by unfold fusedOff at hf ⊢; rwa [hlight.guard]
    have hadmit : logOk u c.cls = true := by
      rw [hcls]
      unfold logOk dayFreeFor dayFree dayHeld dayAdmits at hok ⊢
      rwa [hdayb]
    obtain ⟨q, hq⟩ := reserved_dayReserve c (hdayb ▸ hlost)
    refine ⟨mkEntry u c q, ?_, hrights hp hfused, hold⟩
    show (answer (logRefusal u c) r c.outcome d).dayb.reserved = _
    rw [adayb, logRefusal, if_pos hadmit, hq, hdayb]

/-- Settles O5: the row of each plain register gives its RW bits; a reserved offset is neither logged nor written; a partial write
is refused after arbitration, before any effect. -/
theorem registerWriteSetsRwBits : Obligations.RegisterWriteSetsRwBits := by
  unfold Obligations.RegisterWriteSetsRwBits
  refine fun s i a v => ⟨fun h => ⟨?_, ?_, ?_⟩, write_reserved, ?_⟩
  · rintro ⟨k, hk, ha⟩
    exact write_wakeEn h hk ha
  · rintro ⟨k, hk, ha⟩
    exact write_scratch h hk ha
  · rintro ⟨k, hk, ha⟩
    exact write_prio h hk ha
  · rintro be r u hbe rfl hopen hu
    exact write_part hbe hopen hu

/-! ### A read of SCAN.READY_MAX (R7) -/

/-- READY_MAX is the register whose read clears it. -/
theorem rowOf_readyMax : rowOf (reg pSCAN 0x0B0) = some { off := 0x0B0, rc := true } := by decide

/-- READY_MAX is no half of a 64-bit register that is read as under R36. -/
theorem latch_readyMax : latchLow (reg pSCAN 0x0B0) = false ∧ latchHigh (reg pSCAN 0x0B0) = false := by decide

/-- No feature of the part carries SCAN. -/
theorem fusedOff_scan (s : State) : fusedOff s pSCAN = false := by
  simp [fusedOff, featureD, featureM, featureE, pSCAN]

/-- Reading READY_MAX leaves it 0 and does nothing else. -/
theorem readEffect_readyMax (s : State) (w : Who) :
    readEffect s w (reg pSCAN 0x0B0) false = wr s (reg pSCAN 0x0B0) 0 := by
  obtain ⟨hlow, hhigh⟩ := latch_readyMax
  have hclears : clearsOnRead s (reg pSCAN 0x0B0) = true := by
    simp [clearsOnRead, rowOf_readyMax, hhigh]
  have hne : ∀ q n, n < 4096 → pSCAN ≠ q → reg pSCAN 0x0B0 ≠ reg q n := fun q n hn h =>
    reg_ne_of_page h (by decide) hn
  unfold readEffect readDo
  rw [pageOf_reg _ (by decide), fusedOff_scan, rowOf_readyMax, hlow, hhigh, hclears]
  simp (disch := decide) only [hne, Option.isNone_some, Bool.false_eq_true, or_self, if_false, if_true]

/-- READY_MAX reads as its register, or as it stood when its block was retired (R307). -/
theorem view_readyMax (s : State) (w : Who) : view s w (reg pSCAN 0x0B0) =
    if retiredPg s pSCAN then look 0 s.fltm.frozen (reg pSCAN 0x0B0) else rd s (reg pSCAN 0x0B0) := by
  have hblock : blockView s w pSCAN 0x0B0 = rd s (reg pSCAN 0x0B0) := by
    unfold blockView
    simp [pSCAN, pMOD, pPROT, pINTC, pFLTM, pLAC]
  have hbank : isLoopbank pSCAN = false := by decide
  have hpage : (pageType pSCAN).isNone = false := by decide
  unfold view
  dsimp only
  rw [pageOf_reg _ (by decide), offOf_reg _ (by decide), fusedOff_scan, rowOf_readyMax, hblock, hbank, hpage,
    if_neg Bool.false_ne_true, if_neg Bool.false_ne_true, if_neg Bool.false_ne_true, Option.isNone_some,
    if_neg Bool.false_ne_true, if_neg (show ¬ 0x0B0 < 0x080 by decide)]

/-- TOLL's and the Daybook's accounts do not show in READY_MAX. -/
theorem view_readyMax_light {s t : State} (w : Who) (h : Light s t) :
    view t w (reg pSCAN 0x0B0) = view s w (reg pSCAN 0x0B0) := by
  have hretired : retiredPg t pSCAN = retiredPg s pSCAN := by
    unfold retiredPg rdB
    rw [h.rd _ (by decide)]
  rw [view_readyMax, view_readyMax, hretired, h.fltm, h.rd _ (by decide)]

/-- A read takes READY_MAX as it is viewed: no half of it is latched. -/
theorem readVal_readyMax (s : State) (w : Who) : readVal s w (reg pSCAN 0x0B0) = view s w (reg pSCAN 0x0B0) := by
  unfold readVal
  rw [latch_readyMax.2, if_neg Bool.false_ne_true]

/-- Settles O6: the read's value and effect are those of READY_MAX on the state with TOLL's accounts brought up to date, which
the register and its view do not depend on. -/
theorem rcReadClears : Obligations.RcReadClears := by
  unfold Obligations.RcReadClears
  intro s i h
  have hexec : exec (.rcRead i (BitVec.ofNat 20 (reg pSCAN 0x0B0))) s =
      finishClock s (submitRead s i (reg pSCAN 0x0B0)) := rfl
  rw [hexec]
  refine read_clear h fun s' t hl hd hreplies => ?_
  rw [readEffect_readyMax] at hd hreplies
  refine ⟨(hd.rd _).trans (rd_wr_same _ _ _), ?_⟩
  rw [hreplies, wr_replies, hl.replies, readVal_readyMax, view_readyMax_light _ hl]

end Sys2Proof.Proofs
end

section
/-!
PROOFS. TOLL as time passes (chapter 1, R14–R29): where an accounting window starts, the order in which a resource grants, and how
a request that waits alone ends.
-/

namespace Sys2Proof.Proofs

open Sys2Proof.Machine Sys2Proof.Laws

/-! ### The clock reaches a position (R33, R34, R48) -/

theorem le_ceilDiv_mul (a : Nat) {b : Nat} (hb : 0 < b) : a ≤ ceilDiv a b * b := by
  unfold ceilDiv
  rw [if_neg hb.ne']
  have := Nat.lt_div_mul_add hb (a := a + b - 1)
  omega

@[simp] theorem slew_acc (c : Clock) : c.slew.acc = c.acc := by
  unfold Clock.slew
  dsimp only
  repeat' split
  all_goals rfl

@[simp] theorem slew_target (c : Clock) : c.slew.target = c.target := by
  unfold Clock.slew
  dsimp only
  repeat' split
  all_goals rfl

/-- A frequency that heads for one that is not 0 does not become 0. -/
theorem slew_freq_pos {c : Clock} (hf : 0 < c.freq) (ht : 0 < c.target) : 0 < c.slew.freq := by
  unfold Clock.slew
  dsimp only
  repeat' split
  all_goals dsimp only; omega

theorem runTo_acc_le (c : Clock) (pos : Nat) : c.acc ≤ (c.runTo pos).acc := by
  unfold Clock.runTo
  split
  · exact le_refl _
  · simp [Clock.run]

@[simp] theorem runTo_target (c : Clock) (pos : Nat) : (c.runTo pos).target = c.target := by
  unfold Clock.runTo
  split
  · rfl
  · simp [Clock.run]

theorem runTo_freq_pos {c : Clock} (pos : Nat) (hf : 0 < c.freq) (ht : 0 < c.target) : 0 < (c.runTo pos).freq := by
  unfold Clock.runTo
  split
  · exact hf
  · exact slew_freq_pos hf ht

/-- At one rate the count reaches a position. -/
theorem le_runTo_acc {c : Clock} (pos : Nat) (hs : 0 < c.step) : pos * Config.accOne ≤ (c.runTo pos).acc := by
  unfold Clock.runTo
  split
  · assumption
  · have := le_ceilDiv_mul (pos * Config.accOne - c.acc) hs
    simp only [Clock.run, slew_acc]
    omega

/-- The step as natural numbers, the denominator of R33 being `b`. -/
theorem clockStep_eq (c : Clock) {b : Nat} (hb : b = Config.fabricHz * 1000000 * (65536 - c.corrNow).toNat) :
    c.step = if b = 0 then 0 else (2 * (c.freq * 65536 * Config.accOne * 65536) + b) / (2 * b) := by
  unfold Clock.step roundAway
  rw [← hb]
  split
  · rfl
  · rw [if_pos (by positivity)]
    norm_cast

/-- A clock whose step is not 0 has a frequency that is not 0. -/
theorem freq_pos_of_step_pos {c : Clock} (hs : 0 < c.step) : 0 < c.freq := by
  rw [clockStep_eq c rfl] at hs
  split at hs
  · omega
  · rename_i hb
    refine Nat.pos_of_ne_zero fun hf => ?_
    simp only [hf, Nat.zero_mul, Nat.mul_zero, Nat.zero_add] at hs
    rw [Nat.div_eq_of_lt (by omega)] at hs
    exact absurd hs (lt_irrefl 0)

/-- A frequency that is not 0 moves the count in a cycle whose correction keeps to the limit of R48. -/
theorem clockStep_pos {c : Clock} (hf : 0 < c.freq) (hlo : -655 ≤ c.corrNow) (hhi : c.corrNow ≤ 655) : 0 < c.step := by
  obtain ⟨b, hb⟩ : ∃ b, b = Config.fabricHz * 1000000 * (65536 - c.corrNow).toNat := ⟨_, rfl⟩
  have hb2 : 0 < b ∧ b ≤ 2 * (c.freq * 65536 * Config.accOne * 65536) := by
    unfold Config.fabricHz at hb
    unfold Config.accOne
    omega
  rw [clockStep_eq c hb, if_neg hb2.1.ne']
  exact Nat.div_pos (by omega) (by omega)

theorem clampI_mem {lo hi : Int} (h : lo ≤ hi) (x : Int) : lo ≤ clampI lo hi x ∧ clampI lo hi x ≤ hi := by
  unfold clampI
  repeat' split
  all_goals omega

theorem moves_iff (c : Clock) : c.moves = true ↔ 0 < c.step ∧ 0 < c.target := by simp [Clock.moves]

@[simp] theorem endCorr_freq (c : Clock) : c.endCorr.freq = c.freq := rfl
@[simp] theorem endCorr_target (c : Clock) : c.endCorr.target = c.target := rfl
@[simp] theorem endCorr_acc (c : Clock) : c.endCorr.acc = c.acc := rfl
theorem endCorr_corrNow (c : Clock) : c.endCorr.corrNow = clampI (-655) 655 c.corrLeft := rfl

/-- A clock that moves moves in the cycle after a corrected one. -/
theorem moves_endCorr {c : Clock} (pos : Nat) (h : c.moves = true) : (c.runTo pos).endCorr.moves = true := by
  obtain ⟨hs, ht⟩ := (moves_iff c).1 h
  obtain ⟨hlo, hhi⟩ := clampI_mem (lo := -655) (hi := 655) (by decide) (c.runTo pos).corrLeft
  rw [← endCorr_corrNow] at hlo hhi
  refine (moves_iff _).2 ⟨clockStep_pos ?_ hlo hhi, ?_⟩
  · rw [endCorr_freq]
    exact runTo_freq_pos pos (freq_pos_of_step_pos hs) ht
  · rwa [endCorr_target, runTo_target]

theorem reachIn_acc {c : Clock} (n pos : Nat) (h : c.moves = true) :
    c.acc ≤ (c.reachIn n pos).acc ∧ pos * Config.accOne ≤ (c.reachIn n pos).acc := by
  induction n generalizing c with
  | zero => exact ⟨runTo_acc_le c pos, le_runTo_acc pos ((moves_iff c).1 h).1⟩
  | succ n ih =>
    unfold Clock.reachIn
    split
    · exact ⟨runTo_acc_le c pos, le_runTo_acc pos ((moves_iff c).1 h).1⟩
    · obtain ⟨hge, hpos⟩ := ih (moves_endCorr c.corrEnd h)
      rw [endCorr_acc] at hge
      exact ⟨(runTo_acc_le c c.corrEnd).trans hge, hpos⟩

/-- A clock that moves reaches every position, and does not go back. -/
theorem reach_acc {c : Clock} (pos : Nat) (h : c.moves = true) :
    c.acc ≤ (c.reach pos).acc ∧ pos * Config.accOne ≤ (c.reach pos).acc := by
  unfold Clock.reach
  split
  · exact ⟨le_refl _, ‹_›⟩
  · exact reachIn_acc 64 pos h

theorem reachPos_clk (s : State) (pos : Nat) : (reachPos s pos).clk = s.clk.reach pos := rfl

theorem count_congr {s t : State} (h : t.clk = s.clk) : count t = count s := by unfold count; rw [h]

/-- The count of a clock that moves is at or after the position it has run to. -/
theorem le_count_reachPos {s : State} (pos : Nat) (h : s.clk.moves = true) : pos ≤ count (reachPos s pos) := by
  unfold count
  rw [reachPos_clk]
  exact (Nat.le_div_iff_mul_le (by decide)).2 (reach_acc pos h).2

/-! ### Where nothing ends -/

/-- A command that may move the clock ends in the state of its operation. -/
theorem finishClock_done (s u : State) : ∃ t, finishClock s u = .next t ∧ Done s u t ∧ t.replies = u.replies := by
  refine ⟨_, rfl, ?_, rfl⟩
  constructor <;> intros <;> rfl

theorem enterHeld_of_held_nil {s : State} (h : s.toll.held = []) : enterHeld s = s := by
  unfold enterHeld
  rw [h]
  rfl

theorem pump_of_todo_nil {s : State} (h : ∀ m ∈ s.toll.asm, m.todo = []) : pump s = s := by
  have hsum : (s.toll.asm.map fun m => m.todo.length).sum = 0 := by
    rw [List.sum_eq_zero_iff]
    simp only [List.mem_map, forall_exists_index, and_imp, forall_apply_eq_imp_iff₂]
    exact fun m hm => by rw [h m hm]; rfl
  unfold pump
  rw [hsum]
  rfl

/-- Nothing follows where no request is held and no message's entries wait. -/
theorem moveOn_idle {s : State} (hheld : s.toll.held = []) (htodo : ∀ m ∈ s.toll.asm, m.todo = []) : moveOn s = s := by
  unfold moveOn
  rw [enterHeld_of_held_nil hheld, pump_of_todo_nil htodo]

/-- No request is refused where none is to be. -/
theorem refuseWaiting_none {s : State} {out : Req → Bool} (code : Nat) (h : ∀ r ∈ s.toll.waiting, out r = false) :
    refuseWaiting s out code = s := by
  have hgone : s.toll.waiting.filter out = [] := List.filter_eq_nil_iff.2 fun r hr => by simp [h r hr]
  have hstay : (s.toll.waiting.filter fun r => !out r) = s.toll.waiting := List.filter_eq_self.2 fun r hr => by simp [h r hr]
  unfold refuseWaiting
  dsimp only
  rw [hgone, hstay]
  rfl

/-! ### A window starts (R14, R22, R23) -/

/-- The CONGESTED bits that a window start sets (R22). -/
def congestionWord (s : State) : Nat := (((List.range 5).map fun n => (n, congestsNow s n)).map fun e => b2n e.2 * 2 ^ e.1).sum

/-- TOLL at a window start: the accounts cleared, the settings that take force (R14). -/
def tollOpened (s : State) : Toll :=
  { s.toll with
    win := s.toll.win + 1, winStart := count s, used := [], tenUsed := [], rate := [], faulted := []
    budget := budgetWords s, weights := rd s (reg pTOLL 0x094), delay := rdF s (reg pTOLL 0x098) 0 8, ten := tenantWords s }

theorem congested_congr {s t : State} (h : t.regs = s.regs) (k : Nat) : congested t k = congested s k := by
  unfold congested rdB
  rw [rd_congr h]

@[simp] theorem tollOpened_win (s : State) : (tollOpened s).win = s.toll.win + 1 := rfl
@[simp] theorem tollOpened_winStart (s : State) : (tollOpened s).winStart = count s := rfl
@[simp] theorem tollOpened_used (s : State) : (tollOpened s).used = [] := rfl
@[simp] theorem tollOpened_waiting (s : State) : (tollOpened s).waiting = s.toll.waiting := rfl
@[simp] theorem tollOpened_held (s : State) : (tollOpened s).held = s.toll.held := rfl
@[simp] theorem tollOpened_asm (s : State) : (tollOpened s).asm = s.toll.asm := rfl

/-- A bit of a field of a register. -/
theorem bit_of_field (w : Word) {i n : Nat} (h : i < n) : bit w i = (fld w 0 n).testBit i := by
  unfold bit fld
  rw [pow_zero, Nat.div_one, Nat.testBit_mod_two_pow, decide_eq_true h, Bool.true_and, Nat.testBit_eq_decide_div_mod_eq]
  rfl

theorem testBit_congestionWord (s : State) {n : Nat} (hn : n < 5) : (congestionWord s % 2 ^ 5).testBit n = congestsNow s n := by
  have hword : ∀ a b c d e : Bool, ∀ n : Fin 5,
      ((([(0, a), (1, b), (2, c), (3, d), (4, e)] : List (Nat × Bool)).map fun x : Nat × Bool =>
        b2n x.2 * 2 ^ x.1).sum % 2 ^ 5).testBit n = [a, b, c, d, e][n] := by decide
  have := hword (congestsNow s 0) (congestsNow s 1) (congestsNow s 2) (congestsNow s 3) (congestsNow s 4) ⟨n, hn⟩
  refine this.trans ?_
  interval_cases n <;> rfl

theorem resNum_of_number {n : Nat} : resNum (if n = 0 then 0 else n + 4) = n := by
  unfold resNum
  split <;> split <;> omega

section

variable {s : State} (h : ∀ r ∈ s.toll.waiting, r.cls ≠ .bulk ∧ expired s r = false)

include h

/-- A window start at which no request that waits is of class BULK or beyond its delay budget: accounts and congestion marks. -/
theorem newWindow_eq : ∃ rose, newWindow s =
    evIf rose (wrF { s with toll := tollOpened s } (reg pTOLL 0x09C) 0 5 (congestionWord s)) pTOLL 1 := by
  have hexpire : expireAll s = s := refuseWaiting_none _ fun r hr => (h r hr).2
  unfold newWindow
  rw [hexpire]
  refine ⟨_, refuseWaiting_none _ fun r hr => ?_⟩
  rw [evIf_toll, wrF_toll] at hr
  simp [(h r hr).1]

theorem newWindow_toll : (newWindow s).toll = tollOpened s := by
  obtain ⟨rose, hnew⟩ := newWindow_eq h
  rw [hnew, evIf_toll, wrF_toll]

theorem newWindow_clk : (newWindow s).clk = s.clk := by
  obtain ⟨rose, hnew⟩ := newWindow_eq h
  rw [hnew, evIf_clk, wrF_clk]

theorem newWindow_fact : (newWindow s).fact = s.fact := by
  obtain ⟨rose, hnew⟩ := newWindow_eq h
  rw [hnew, evIf_fact, wrF_fact]

/-- A window start marks a resource congested when a request congests it. -/
theorem congested_newWindow {n : Nat} (hn : n < 5) : congested (newWindow s) (if n = 0 then 0 else n + 4) = congestsNow s n := by
  obtain ⟨rose, hnew⟩ := newWindow_eq h
  have hfield := rd_wrF_same { s with toll := tollOpened s } (a := reg pTOLL 0x09C) (lo := 0) (n := 5) (congestionWord s)
    (by decide)
  unfold rdF at hfield
  unfold congested rdB
  rw [resNum_of_number, hnew, rd_evIf_other _ _ _ _ (by decide), bit_of_field _ hn, hfield, testBit_congestionWord s hn]

end

theorem postFlush_zero (s : State) : postFlush s 0 = s := rfl

/-- ACCOUNTING_WINDOW_START where nothing is held, no message's entries wait and no completion waits for DRAM. -/
theorem windowOp_eq {s : State} {pos : Nat} (hpos : pos % 8192 = 0) (hlast : s.toll.win = 0 ∨ s.toll.winStart < pos)
    (h : ∀ r ∈ (reachPos s pos).toll.waiting, r.cls ≠ .bulk ∧ expired (reachPos s pos) r = false)
    (hheld : s.toll.held = []) (htodo : ∀ m ∈ s.toll.asm, m.todo = []) (hposts : s.fact.posts = []) :
    windowOp s pos = newWindow (reachPos s pos) := by
  have hidle : moveOn (newWindow (reachPos s pos)) = newWindow (reachPos s pos) := by
    apply moveOn_idle <;> rw [newWindow_toll h]
    · rwa [tollOpened_held, reachPos_toll]
    · rwa [tollOpened_asm, reachPos_toll]
  unfold windowOp
  rw [if_pos ⟨hpos, hlast⟩]
  dsimp only
  rw [hidle, newWindow_fact h, reachPos_fact, hposts, List.length_nil, postFlush_zero]

/-- Settles O7: the clock reaches the position, and the window that opens there is `newWindow_eq`. -/
theorem windowStarts : Obligations.WindowStarts := by
  unfold Obligations.WindowStarts
  intro s pos hpos hlast hmoves hwait hheld htodo hposts
  have hwaiting : (reachPos s pos).toll.waiting = s.toll.waiting := by rw [reachPos_toll]
  have hcalm : ∀ r ∈ (reachPos s pos).toll.waiting, r.cls ≠ .bulk ∧ expired (reachPos s pos) r = false := by rwa [hwaiting]
  have hexec : exec (.accountingWindowStart pos) s = finishClock s (newWindow (reachPos s pos)) := by
    rw [← windowOp_eq hpos hlast hcalm hheld htodo hposts]
    rfl
  obtain ⟨t, hnext, hdone, -⟩ := finishClock_done s (newWindow (reachPos s pos))
  have htoll : t.toll = tollOpened (reachPos s pos) := hdone.toll.trans (newWindow_toll hcalm)
  have hcount : count t = count (reachPos s pos) := count_congr <| by
    rw [hdone.clk, newWindow_clk hcalm, reachPos_clk]
    exact later_of_le (reach_acc pos hmoves).1
  refine ⟨t, hexec.trans hnext, ?_, ?_, ?_, fun k c => ?_, ?_, fun n hn => ?_⟩
  · rw [htoll, tollOpened_win, reachPos_toll]
  · rw [htoll, tollOpened_winStart, hcount]
  · rw [hcount]
    exact le_count_reachPos pos hmoves
  · unfold usedOf
    rw [htoll, tollOpened_used]
    rfl
  · rw [htoll, tollOpened_waiting, hwaiting]
  · rw [congested_congr hdone.regs, congested_newWindow hcalm hn]
    unfold congestsNow
    rw [hwaiting]

/-! ### The order of grants (R16, R19–R21) -/

/-- The order of a class: by fabric cycle of arrival, then by rank (R20, R21). -/
def arrivalKey (e : Nat × Req) : Nat × Nat := (e.2.cyc, rankOf e.2.who)

/-- The requests of a class that a resource may grant now. -/
def grantableOf (s : State) (k : Nat) (c : Cls) : List (Nat × Req) :=
  (grantable s k).filter fun e => clsN e.2.cls == clsN c

theorem clsN_inj {c d : Cls} (h : clsN c = clsN d) : c = d := by cases c <;> cases d <;> simp_all [clsN]

theorem mem_grantableOf {s : State} {k : Nat} {c : Cls} {e : Nat × Req} :
    e ∈ grantableOf s k c ↔ e ∈ grantable s k ∧ e.2.cls = c := by
  simp only [grantableOf, List.mem_filter, beq_iff_eq, and_congr_right_iff]
  exact fun _ => ⟨clsN_inj, congrArg clsN⟩

/-- The first of the least is of the list, and no element has a smaller first number. -/
theorem leastBy_spec {α : Type} {f : α → Nat × Nat} {l : List α} {x : α} (h : leastBy f l = some x) :
    x ∈ l ∧ ∀ y ∈ l, (f x).1 ≤ (f y).1 := by
  induction l generalizing x with
  | nil => cases h
  | cons a l ih =>
    unfold leastBy at h
    cases hl : leastBy f l with
    | none =>
      rw [hl] at h
      cases h
      cases l with
      | nil => simp
      | cons b l =>
        unfold leastBy at hl
        repeat' split at hl
        all_goals cases hl
    | some b =>
      obtain ⟨hb, hle⟩ := ih hl
      rw [hl] at h
      dsimp only at h
      split at h <;> cases h
      · refine ⟨List.mem_cons_of_mem _ hb, List.forall_mem_cons.2 ⟨by omega, hle⟩⟩
      · refine ⟨List.mem_cons_self, List.forall_mem_cons.2 ⟨le_refl _, fun y hy => ?_⟩⟩
        have := hle y hy
        omega

/-- Of a list that is not empty one element has had least of its share. -/
theorem leastShare_of_ne_nil (used weight : Nat → Nat) {l : List Nat} (h : l ≠ []) :
    ∃ x ∈ l, leastShare used weight l = some x := by
  induction l with
  | nil => exact absurd rfl h
  | cons a l ih =>
    unfold leastShare
    cases hl : leastShare used weight l with
    | none => exact ⟨a, List.mem_cons_self, rfl⟩
    | some b =>
      have hb : b ∈ l := by
        have hne : l ≠ [] := by rintro rfl; cases hl
        obtain ⟨x, hx, hs⟩ := ih hne
        rw [hl] at hs
        cases hs
        exact hx
      dsimp only
      split
      · exact ⟨b, List.mem_cons_of_mem _ hb, rfl⟩
      · exact ⟨a, List.mem_cons_self, rfl⟩

/-- What a resource grants next is one of the requests that it may grant. -/
theorem nextGrant_mem {s : State} {k : Nat} {e : Nat × Req} (h : nextGrant s k = some e) : e ∈ grantable s k := by
  unfold nextGrant at h
  dsimp only at h
  split at h
  · cases h
  · have hm := (leastBy_spec h).1
    split at hm
    · split at hm
      · exact List.mem_of_mem_filter (List.mem_of_mem_filter hm)
      · cases hm
    · exact List.mem_of_mem_filter hm

/-- The most urgent class that waits, SAFETY or CONTROL, is granted next, the least of it in the order of arrival (R16, R20). -/
theorem nextGrant_urgent {s : State} {k : Nat} {c : Cls} (hc : c = .safety ∨ c = .control)
    (hfirst : ∀ e ∈ grantable s k, clsN c ≤ clsN e.2.cls) (hsome : ∃ e ∈ grantable s k, e.2.cls = c) :
    nextGrant s k = leastBy arrivalKey (grantableOf s k c) := by
  have hne : (grantableOf s k c).isEmpty = false := by
    obtain ⟨e, he⟩ := hsome
    exact List.isEmpty_eq_false_iff.2 (List.ne_nil_of_mem (mem_grantableOf.2 he))
  rcases hc with rfl | rfl
  · have hs : ((grantable s k).filter fun e => clsN e.2.cls == 0).isEmpty = false := hne
    unfold nextGrant
    dsimp only
    rw [if_pos (by simp [hs])]
    rfl
  · have hs : ((grantable s k).filter fun e => clsN e.2.cls == 0) = [] :=
      List.filter_eq_nil_iff.2 fun e he => by
        have h1 : 1 ≤ clsN e.2.cls := hfirst e he
        simp only [beq_iff_eq]
        omega
    have hcontrol : ((grantable s k).filter fun e => clsN e.2.cls == 1).isEmpty = false := hne
    unfold nextGrant
    dsimp only
    rw [if_neg (by simp [hs]), if_pos (by simp [hcontrol])]
    rfl

/-- A grant while SAFETY or CONTROL is the most urgent class that waits: it goes to that class, and to none of it that arrived
after another. -/
theorem nextGrant_urgent_spec {s : State} {k : Nat} {c : Cls} {e : Nat × Req} (h : nextGrant s k = some e)
    (hc : c = .safety ∨ c = .control) (hfirst : ∀ x ∈ grantable s k, clsN c ≤ clsN x.2.cls)
    (hsome : ∃ x ∈ grantable s k, x.2.cls = c) :
    e.2.cls = c ∧ ∀ x ∈ grantable s k, x.2.cls = c → e.2.cyc ≤ x.2.cyc := by
  rw [nextGrant_urgent hc hfirst hsome] at h
  obtain ⟨hmem, hle⟩ := leastBy_spec h
  exact ⟨(mem_grantableOf.1 hmem).2, fun x hx hcls => hle x (mem_grantableOf.2 ⟨hx, hcls⟩)⟩

/-- A SAFETY or CONTROL request that nothing of its requester holds back is granted on arrival (R16, R21, R26). -/
theorem arrive_urgent {s : State} {r : Req} {k : Nat} (hc : r.cls = .safety ∨ r.cls = .control) (hread : heldRead s r = false)
    (hahead : aheadOf s r k = false) (hlog : k = 8 → logOk s r.cls = true) : arrive s r k = .grant := by
  have hbulk : ¬ (r.cls = .bulk ∧ congested s k = true) := by rcases hc with h | h <;> simp [h]
  have hday : ¬ (k = 8 ∧ (!logOk s r.cls) = true) := by
    rintro ⟨hk, hno⟩
    simp [hlog hk] at hno
  unfold arrive
  rw [if_neg hbulk, if_neg hday, if_neg (by simp [hread, hahead]), if_pos hc]

/-- Settles O8: the most urgent of SAFETY and CONTROL that waits is granted in order of arrival, and neither waits for load. -/
theorem urgentClassesFirst : Obligations.UrgentClassesFirst := by
  unfold Obligations.UrgentClassesFirst
  refine fun s k => ⟨fun j r h => ?_, fun r hc hread hahead hlog => arrive_urgent hc hread hahead hlog⟩
  have hsafety := nextGrant_urgent_spec h (.inl rfl) fun _ _ => Nat.zero_le _
  have hcontrol (hno : ∀ e ∈ grantable s k, e.2.cls ≠ .safety) := nextGrant_urgent_spec h (.inr rfl) fun e he =>
    Nat.one_le_iff_ne_zero.2 fun h0 => hno e he (clsN_inj (d := .safety) h0)
  have hmem := nextGrant_mem h
  refine ⟨fun hsome => (hsafety hsome).1, fun hno hsome => (hcontrol hno hsome).1, ?_⟩
  rintro (hc | hc) e he hcls
  · exact (hsafety ⟨_, hmem, hc⟩).2 e he (hcls.trans hc)
  · have hno : ∀ x ∈ grantable s k, x.2.cls ≠ .safety := fun x hx hs => by
      have hr : r.cls = .safety := (hsafety ⟨x, hx, hs⟩).1
      rw [hc] at hr
      cases hr
    exact (hcontrol hno ⟨_, hmem, hc⟩).2 e he (hcls.trans hc)

/-! ### A request that waits alone (R16, R24, R29) -/

/-- The state with the requests that wait gone. -/
def noneWaiting (s : State) : State := { s with toll := { s.toll with waiting := [] } }

theorem grantable_alone {s : State} {r : Req} {k : Nat} (hwait : s.toll.waiting = [r]) (hat : waitsAt k r = true) :
    grantable s k = [(0, r)] := by
  unfold grantable heldRead aheadOf
  rw [hwait]
  simp [hat]

/-- Where none waits none is granted. -/
theorem nextGrant_none {s : State} (k : Nat) (hwait : s.toll.waiting = []) : nextGrant s k = none := by
  have hnone : grantable s k = [] := by
    unfold grantable
    rw [hwait]
    rfl
  unfold nextGrant
  rw [hnone]
  rfl

/-- The one request that a resource may grant is granted next, whatever its class. -/
theorem nextGrant_alone {s : State} {r : Req} {k i : Nat} (h : grantable s k = [(i, r)]) (ht : tenantOf s r.who < 256) :
    nextGrant s k = some (i, r) := by
  have htenants : ((List.range 256).filter fun t => tenantOf s r.who == t) ≠ [] :=
    List.ne_nil_of_mem (List.mem_filter.2 ⟨List.mem_range.2 ht, beq_self_eq_true _⟩)
  obtain ⟨t, hmem, hleast⟩ :=
    leastShare_of_ne_nil (fun t => look 0 s.toll.tenUsed (k * 256 + t)) (tenantWeight s) htenants
  have hown : (tenantOf s r.who == t) = true := (List.mem_filter.1 hmem).2
  unfold nextGrant
  rw [h]
  cases hc : r.cls
  case tenant => simp [hc, clsN, leastBy, leastShare, hleast, hown]
  all_goals simp [hc, clsN, leastBy, leastShare]

/-- Refusing the one request that waits. -/
theorem refuseWaiting_alone {s : State} {r : Req} {out : Req → Bool} (code : Nat) (hwait : s.toll.waiting = [r])
    (hout : out r = true) : refuseWaiting s out code = refuseAt (noneWaiting s) r (waitKey r) code true := by
  unfold refuseWaiting noneWaiting
  rw [hwait]
  simp [hout]

/-! ### A core's DRAM read -/

/-- The outcome word of a request served (R29). -/
theorem finalOut_served (d : Nat) : finalOut oSERVED d = if 0 < d then oDELAYED + 256 * d else oSERVED := by
  unfold finalOut outWord
  split <;> simp_all

theorem clampN_pos {lo hi : Nat} (x : Nat) (hlo : 0 < lo) (hhi : 0 < hi) : 0 < clampN lo hi x := by
  unfold clampN
  repeat' split
  all_goals omega

/-- The outcome word of a request served after a grant of its last resource (R24, R29). -/
theorem finalOut_granted {s t : State} {r q : Req} (hscan : scanT t = scanT s) (hwaited : q.waited = waitSum s r true)
    (hlater : q.later = (r.later || r.arrWin != s.toll.win)) :
    finalOut oSERVED (delayOf t q false) =
      if r.later ∨ r.arrWin ≠ s.toll.win then
        oDELAYED + 256 * clampN 1 255 (ceilDiv (r.waited + (count s - r.arrived)) (scanT s))
      else oSERVED := by
  have hsum : waitSum t q false = r.waited + (count s - r.arrived) := hwaited
  have hcond : (q.later || (false && q.arrWin != t.toll.win)) = true ↔ r.later = true ∨ r.arrWin ≠ s.toll.win := by
    simp [hlater]
  unfold delayOf
  rw [finalOut_served, hsum, hscan]
  by_cases hd : r.later = true ∨ r.arrWin ≠ s.toll.win
  · rw [if_pos (hcond.2 hd), if_pos hd, if_pos (clampN_pos _ (by decide) (by decide))]
  · rw [if_neg (mt hcond.1 hd), if_neg hd, if_neg (lt_irrefl 0)]

/-- The answer of an initiator's own DRAM read: its data, or zeros (R29, R352). -/
theorem answer_read (t : State) {r : Req} {w : Who} {m n a : Nat} (out : Nat) (d : List Word) (hbody : r.body = .dramRead m n)
    (hsink : r.sink = .own w a) : answer t r out d =
      { t with replies := t.replies ++ [⟨w, a, out, if out % 16 < 2 then d else List.replicate ((n + 3) / 4) 0⟩] } := by
  unfold answer plainData emptyData
  rw [hsink, hbody]

/-- After arbitration a core's read of addressable DRAM is served: a core holds every right. -/
theorem finAny_read (i : Nat) (t : State) {r : Req} {c : Fin 2} {m n : Nat} (hwho : r.who = .core c)
    (hbody : r.body = .dramRead m n) (hfits : m + n ≤ Config.dramBytes) :
    finAny i t r = endServed t r oSERVED (wordsOf (ramBytes t m n)) := by
  have hright : hasRight t (.core c) rREAD = true := by simp [hasRight, rightsOf, rREAD]
  unfold finAny finPlain
  dsimp only
  rw [hbody, hwho]
  dsimp only
  rw [if_neg (by omega), hright]
  rfl

/-- Bytes of DRAM read alike in states with the same DRAM. -/
theorem ramBytes_congr {s t : State} (h : t.dram = s.dram) (m n : Nat) : ramBytes t m n = ramBytes s m n := by
  unfold ramBytes ramByte
  rw [h]

/-- A DRAM read refused for load leaves TOLL's queues alone and is answered with zeros. -/
theorem refuseAt_read (t : State) {r : Req} {w : Who} {m n a : Nat} (k : Nat) (waits : Bool) (hbody : r.body = .dramRead m n)
    (hsink : r.sink = .own w a) :
    (refuseAt t r k oLOAD waits).toll = t.toll ∧ ∃ out, out % 256 = oLOAD ∧
      (refuseAt t r k oLOAD waits).replies = t.replies ++ [⟨w, a, out, List.replicate ((n + 3) / 4) 0⟩] := by
  obtain ⟨u, hu⟩ : ∃ u, u = tollCount t k r.cls 8 1 := ⟨_, rfl⟩
  obtain ⟨out, hout⟩ : ∃ out, out = finalOut oLOAD (delayOf u r waits) := ⟨_, rfl⟩
  have hword : out = 2 + 256 * delayOf u r waits := hout
  have hnoEntry : refusalEntries u r false out = [] := by
    unfold refusalEntries refusalEntry
    rw [hbody]
    rfl
  have hzeros : emptyData (.dramRead m n) = List.replicate ((n + 3) / 4) 0 := rfl
  have hend : refuseAt t r k oLOAD waits =
      { u with replies := u.replies ++ [⟨w, a, out, List.replicate ((n + 3) / 4) 0⟩] } := by
    unfold refuseAt endRefused
    dsimp only
    rw [if_neg (by decide), ← hu, ← hout, hnoEntry, List.foldl_nil, hbody]
    dsimp only
    rw [answer_read _ _ _ hbody hsink, hzeros, ite_self]
  rw [hend, hu]
  exact ⟨rfl, out, by rw [hword]; unfold oLOAD; omega, rfl⟩

/-- A core's read of addressable DRAM waits at the DRAM resource, and no other request waits or is held, nor does a
message's entry wait. -/
structure LoneRead (s : State) (r : Req) (c : Fin 2) (m n a : Nat) : Prop where
  waiting : s.toll.waiting = [r]
  who : r.who = .core c
  body : r.body = .dramRead m n
  sink : r.sink = .own (.core c) a
  path : r.path = [5]
  logging : r.logging = false
  fits : m + n ≤ Config.dramBytes
  held : s.toll.held = []
  todo : ∀ x ∈ s.toll.asm, x.todo = []

section

variable {s : State} {r : Req} {c : Fin 2} {m n a : Nat} (h : LoneRead s r c m n a)

include h

theorem LoneRead.waitsAt_dram : waitsAt 5 r = true := by
  unfold waitsAt
  rw [h.logging, h.path]
  rfl

theorem LoneRead.waitKey_dram : waitKey r = 5 := by
  unfold waitKey
  rw [h.logging, h.path]
  rfl

theorem LoneRead.nextGrant_dram : nextGrant s 5 = some (0, r) := by
  refine nextGrant_alone (grantable_alone h.waiting h.waitsAt_dram) ?_
  rw [h.who]
  exact Nat.zero_lt_succ 255

/-- The read as it goes on once the DRAM resource has granted it. -/
theorem LoneRead.resume_dram (hbudget : overBudget s r.who r.cls 5 1 = false) :
    ∃ (t : State) (q : Req), Light (noneWaiting s) t ∧ resume s 0 r 5 = endServed t q oSERVED (wordsOf (ramBytes s m n)) ∧
      q.body = r.body ∧ q.sink = r.sink ∧ q.waited = waitSum s r true ∧ q.later = (r.later || r.arrWin != s.toll.win) := by
  have hgone : { s with toll := { s.toll with waiting := dropNth s.toll.waiting 0 } } = noneWaiting s := by
    rw [h.waiting]
    rfl
  obtain ⟨q, hq⟩ : ∃ q : Req, q = { r with
      waited := waitSum s r true, later := r.later || r.arrWin != s.toll.win, path := [] } := ⟨_, rfl⟩
  obtain ⟨t, ht⟩ : ∃ t, t = tollGrant (noneWaiting s) r 5 [] (r.arrWin != s.toll.win) := ⟨_, rfl⟩
  have hlight : Light (noneWaiting s) t := ht ▸ (light_tollGrant (noneWaiting s) r 5 [] _ (by decide) hbudget).1
  refine ⟨t, q, hlight, ?_, by rw [hq], by rw [hq], by rw [hq], by rw [hq]⟩
  have hbody : q.body = .dramRead m n := by rw [hq]; exact h.body
  have hwho : q.who = .core c := by rw [hq]; exact h.who
  have hbytes : ramBytes t m n = ramBytes s m n := ramBytes_congr hlight.dram m n
  rw [← hbytes, ← finAny_read 0 t hwho hbody h.fits]
  unfold resume
  dsimp only
  rw [hgone, if_neg (fun h8 => absurd h8.1 (by decide)), h.logging, h.path, if_neg (by decide), if_neg (by decide),
    if_neg (by decide), List.drop_succ_cons, List.drop_zero, ← ht, hq]
  rfl

/-- A grant with the data that stand in DRAM, its outcome word DELAYED when the window of its arrival has ended (R16, R29). -/
theorem LoneRead.grantOp_served (hmay : mayGrant s 5 r.cls = true) (hexp : expired s r = false)
    (hbudget : overBudget s r.who r.cls 5 1 = false) :
    (grantOp s 5).toll.waiting = [] ∧ (grantOp s 5).replies = s.replies ++
      [⟨.core c, a,
        (if r.later ∨ r.arrWin ≠ s.toll.win then
          oDELAYED + 256 * clampN 1 255 (ceilDiv (r.waited + (count s - r.arrived)) (scanT s))
        else oSERVED),
        wordsOf (ramBytes s m n)⟩] := by
  obtain ⟨t, q, hlight, hresume, hbody, hsink, hwaited, hlater⟩ := h.resume_dram hbudget
  have hexpire : expireAll s = s := refuseWaiting_none _ fun x hx => by
    rw [h.waiting, List.mem_singleton] at hx
    rwa [hx]
  have hscan : scanT t = scanT s := by
    unfold scanT rdF
    rw [hlight.rd _ (by decide)]
    rfl
  obtain ⟨out, hout⟩ : ∃ out, out = finalOut oSERVED (delayOf t q false) := ⟨_, rfl⟩
  have hword := finalOut_granted hscan hwaited hlater
  rw [← hout] at hword
  have hcode : out % 16 < 2 := by
    rw [hword]
    unfold oDELAYED oSERVED
    split <;> omega
  have hserved : resume s 0 r 5 = { t with replies := t.replies ++ [⟨.core c, a, out, wordsOf (ramBytes s m n)⟩] } := by
    rw [hresume]
    unfold endServed
    rw [← hout, answer_read _ _ _ (hbody.trans h.body) (hsink.trans h.sink), if_pos hcode]
  have hgrant : grantOp s 5 = { t with replies := t.replies ++ [⟨.core c, a, out, wordsOf (ramBytes s m n)⟩] } := by
    unfold grantOp
    dsimp only
    rw [hexpire, h.nextGrant_dram]
    dsimp only
    rw [if_pos hmay, hserved]
    refine moveOn_idle (hlight.held.trans h.held) fun x hx => h.todo x ?_
    rwa [hlight.asm] at hx
  rw [hgrant, ← hword]
  exact ⟨hlight.waiting, congrArg (· ++ _) hlight.replies⟩

/-- The read refused for load (R24): nothing waits, and it is answered with zeros. -/
theorem LoneRead.refused : moveOn (refuseAt (noneWaiting s) r 5 oLOAD true) = refuseAt (noneWaiting s) r 5 oLOAD true ∧
    (refuseAt (noneWaiting s) r 5 oLOAD true).toll.waiting = [] ∧
    ∃ w, w % 256 = oLOAD ∧ (refuseAt (noneWaiting s) r 5 oLOAD true).replies =
      s.replies ++ [⟨.core c, a, w, List.replicate ((n + 3) / 4) 0⟩] := by
  obtain ⟨htoll, hreply⟩ := refuseAt_read (noneWaiting s) 5 true h.body h.sink
  refine ⟨moveOn_idle ?_ ?_, ?_, hreply⟩ <;> rw [htoll]
  · exact h.held
  · exact h.todo
  · rfl

variable (hexp : expired s r = true)

include hexp

/-- DELAY_BUDGET_EXPIRY refuses the read (R24). -/
theorem LoneRead.budgetExpiry_eq : budgetExpiry s 5 = refuseAt (noneWaiting s) r 5 oLOAD true := by
  have hfind : (s.toll.waiting.zipIdx.map fun e => (e.2, e.1)).find? (fun e => waitsAt 5 e.2 && expired s e.2) =
      some (0, r) := by
    rw [h.waiting]
    simp [h.waitsAt_dram, hexp]
  unfold budgetExpiry
  dsimp only
  rw [hfind]
  dsimp only
  rw [h.waiting]
  exact h.refused.1

/-- The next grant at the resource refuses the read (R24). -/
theorem LoneRead.grantOp_eq : grantOp s 5 = refuseAt (noneWaiting s) r 5 oLOAD true := by
  have hexpire : expireAll s = refuseAt (noneWaiting s) r 5 oLOAD true := by
    unfold expireAll
    rw [refuseWaiting_alone _ h.waiting hexp, h.waitKey_dram]
  obtain ⟨hidle, hnone, -⟩ := h.refused
  unfold grantOp
  dsimp only
  rw [hexpire, nextGrant_none 5 hnone]
  exact hidle

end

/-- Settles O9: a grant ends the read served, and where its wait has reached the delay budget either command refuses it. -/
theorem waitingRequestEnds : Obligations.WaitingRequestEnds := by
  unfold Obligations.WaitingRequestEnds
  intro s r c m n a hwait hwho hbody hsink hpath hlog hfits hheld htodo
  have h : LoneRead s r c m n a := ⟨hwait, hwho, hbody, hsink, hpath, hlog, hfits, hheld, htodo⟩
  refine ⟨fun hmay hexp hbudget => ?_, fun hcls hdelay x hx => ?_⟩
  · obtain ⟨t, hnext, hdone, hreplies⟩ := finishClock_done s (grantOp s 5)
    obtain ⟨hnone, hreply⟩ := h.grantOp_served hmay hexp hbudget
    exact ⟨t, hnext, by rw [hdone.toll, hnone], by rw [hreplies, hreply]⟩
  · have hexp : expired s r = true := by
      unfold expired waitSum
      simp [hcls, hdelay]
    have hexec : exec x s = finishClock s (refuseAt (noneWaiting s) r 5 oLOAD true) := by
      rcases hx with rfl | rfl
      · rw [← h.budgetExpiry_eq hexp]
        rfl
      · rw [← h.grantOp_eq hexp]
        rfl
    obtain ⟨t, hnext, hdone, hreplies⟩ := finishClock_done s (refuseAt (noneWaiting s) r 5 oLOAD true)
    obtain ⟨-, hnone, w, hw, hreply⟩ := h.refused
    exact ⟨t, hexec.trans hnext, by rw [hdone.toll, hnone], w, hw, by rw [hreplies, hreply]⟩

end Sys2Proof.Proofs
end

section
/-!
PROOFS. The count and what stands by it (chapter 2, R36, R47, R51): the count never falls but at a module reset, pulses end, and a
read of ANGLE_LO latches the high half where no read looks for it.
-/

namespace Sys2Proof.Proofs

open Sys2Proof.Machine Sys2Proof.Laws

/-! ### The count never falls (R47) -/

theorem run_acc_le (c : Clock) (n : Nat) : c.acc ≤ (c.run n).acc := by simp [Clock.run]

theorem advanceIn_acc_le (fuel : Nat) (c : Clock) (n : Nat) : c.acc ≤ (c.advanceIn fuel n).acc := by
  induction fuel generalizing c n with
  | zero => exact run_acc_le c n
  | succ fuel ih =>
    unfold Clock.advanceIn
    dsimp only
    split
    · exact run_acc_le c n
    · refine le_trans ?_ (ih _ _)
      rw [endCorr_acc]
      exact run_acc_le c _

theorem advance_acc_le (c : Clock) (n : Nat) : c.acc ≤ (c.advance n).acc := advanceIn_acc_le 64 c n

theorem count_mono {s t : State} (h : s.clk.acc ≤ t.clk.acc) : count s ≤ count t := Nat.div_le_div_right h

/-- A command other than a module reset does not set the accumulator back: it ends with the clock as it was, or with the later
of two. -/
theorem exec_acc_le {c : Instr} {s t : State} (hc : resets c = false) (h : exec c s = .next t) : s.clk.acc ≤ t.clk.acc := by
  rcases exec_form c s with ⟨u, hu⟩ | ⟨u, hu⟩ | ⟨u, hu⟩ | ⟨hreset, -⟩
  · cases hu.symm.trans h
    exact le_refl _
  · cases hu.symm.trans h
    exact le_refl _
  · cases hu.symm.trans h
    exact (later_ge s.clk u.clk).1
  · rw [hc] at hreset
    cases hreset

/-- Settles O3: the clock goes on over an idle fabric cycle, and no command but a module reset sets it back. -/
theorem countNeverDecreases : Obligations.CountNeverDecreases := by
  unfold Obligations.CountNeverDecreases
  intro s t hfront hstep
  apply count_mono
  unfold step at hstep
  cases hp : s.pending with
  | nil =>
    rw [hp] at hstep
    cases hstep
    exact advance_acc_le s.clk 1
  | cons c cs =>
    rw [hp] at hstep
    exact exec_acc_le (s := { s with pending := cs }) (hfront c (by rw [hp]; rfl)) hstep

/-- A command whose operation does not set the clock back ends with its clock. -/
theorem finishClock_forward {s u : State} (h : s.clk.acc ≤ u.clk.acc) :
    ∃ t, finishClock s u = .next t ∧ Done s u t ∧ t.clk = u.clk ∧ t.replies = u.replies := by
  obtain ⟨t, hnext, hdone, hreplies⟩ := finishClock_done s u
  exact ⟨t, hnext, hdone, hdone.clk.trans (later_of_le h), hreplies⟩

/-! ### Bits -/

theorem bit_eq_testBit (w : Word) (i : Nat) : bit w i = w.toNat.testBit i := by
  unfold bit
  rw [Nat.testBit_eq_decide_div_mod_eq]
  rfl

theorem bit_or (v w : Word) (i : Nat) : bit (v ||| w) i = (bit v i || bit w i) := by
  simp only [bit_eq_testBit, BitVec.toNat_or, Nat.testBit_or]

/-- A word of one bit. -/
theorem bit_w32_pow {i : Nat} (j : Nat) (hi : i < 32) : bit (w32 (2 ^ i)) j = decide (i = j) := by
  have hlt : 2 ^ i < 2 ^ 32 := Nat.pow_lt_pow_right (by decide) hi
  rw [bit_eq_testBit, w32, BitVec.toNat_ofNat, Nat.mod_eq_of_lt hlt, Nat.testBit_two_pow]

/-- A word with one bit replaced. -/
theorem bit_setFld_one (w : Word) {i : Nat} (b : Bool) (j : Nat) (hi : i < 32) :
    bit (setFld w i 1 (b2n b)) j = if j = i then b else bit w j := by
  rcases lt_trichotomy j i with hj | rfl | hj
  · rw [if_neg hj.ne, bit_eq_fld, bit_eq_fld, fld_setFld_below w (b2n b) hi hj]
  · rw [if_pos rfl, bit_eq_fld, fld_setFld_same w (b2n b) hi]
    cases b <;> rfl
  · rw [if_neg hj.ne', bit_eq_fld, bit_eq_fld, fld_setFld_above w (b2n b) hi hj]

/-! ### Pulses end (R51, R381) -/

/-- A byte of channels with one channel's bit replaced. -/
theorem getLsbD_ch8 (w : BitVec 8) {n : Nat} (b : Bool) (j : Nat) (hn : n < 8) :
    (ch8 w (n + 1) b).getLsbD j = if j = n then b else w.getLsbD j := by
  have hword : (BitVec.ofNat 32 w.toNat).toNat = w.toNat := by
    rw [BitVec.toNat_ofNat]
    exact Nat.mod_eq_of_lt (w.isLt.trans (by decide))
  unfold ch8
  rw [BitVec.getLsbD_ofNat, ← bit_eq_testBit, Nat.add_sub_cancel, bit_setFld_one _ b j (by omega), bit_eq_testBit, hword,
    BitVec.testBit_toNat]
  split
  · subst j
    simp [hn]
  · rw [Bool.and_eq_right_iff_imp]
    intro hbit
    simpa using BitVec.lt_of_getLsbD hbit

theorem exec_pulseEnd (p : Fin 9) (s : State) : exec (.pulseEnd p) s = finishClock s (pulseStop s p.val) := rfl
theorem exec_ppsIn (s : State) : exec .ppsIn s = finish s { s with pins := { s.pins with ppsAt := some (count s) } } := rfl
theorem exec_ppsOutEnd (s : State) : exec .ppsOutEnd s = finish s (ppsFall s) := rfl

/-- The pulse on a GPIO has ended and no other one. -/
theorem gpioPulse_pulseStop (s : State) {p : Nat} (j : Nat) (hp : p < 8) :
    (pulseStop s p).pins.gpioPulse.getLsbD j = if j = p then false else s.pins.gpioPulse.getLsbD j := by
  unfold pulseStop
  dsimp only
  rw [if_pos hp]
  exact getLsbD_ch8 s.pins.gpioPulse false j hp

/-- The pulse on ANG_SYNC_OUT has ended and no other one. -/
theorem pulseStop_syncOut (s : State) :
    (pulseStop s 8).pins.syncOut = false ∧ (pulseStop s 8).pins.gpioPulse = s.pins.gpioPulse := ⟨rfl, rfl⟩

/-- A command that moves neither the clock nor the guard leaves PPS_OUT and the stamp of PPS_IN as its operation does. -/
theorem finish_pps (s u : State) :
    ∃ t, finish s u = .next t ∧ t.pins.ppsOut = u.pins.ppsOut ∧ t.pins.ppsAt = u.pins.ppsAt := ⟨_, rfl, rfl, rfl⟩

theorem ppsFall_ppsOut (s : State) :
    (ppsFall s).pins.ppsOut = if s.vault.tickAt + 39987800 ≤ s.clk.fabric then false else s.pins.ppsOut := by
  unfold ppsFall
  split <;> rfl

/-- Settles O17: what a pulse's end leaves of the pins, and when PPS_OUT falls. -/
theorem pulsesEnd : Obligations.PulsesEnd := by
  unfold Obligations.PulsesEnd
  refine fun s => ⟨fun p => ?_, ?_, ?_⟩
  · obtain ⟨t, hnext, hdone, -⟩ := finishClock_done s (pulseStop s p.val)
    refine ⟨t, (exec_pulseEnd p s).trans hnext, fun hp => ⟨?_, fun j hj => ?_⟩, fun hp => ?_⟩
    · rw [hdone.gpioPulse, gpioPulse_pulseStop s _ hp, if_pos rfl]
    · rw [hdone.gpioPulse, gpioPulse_pulseStop s _ hp, if_neg hj]
    · rw [hdone.gpioPulse, hdone.syncOut, hp]
      exact pulseStop_syncOut s
  · obtain ⟨t, hnext, -, hat⟩ := finish_pps s { s with pins := { s.pins with ppsAt := some (count s) } }
    exact ⟨t, (exec_ppsIn s).trans hnext, hat⟩
  · obtain ⟨t, hnext, hout, -⟩ := finish_pps s (ppsFall s)
    exact ⟨t, (exec_ppsOutEnd s).trans hnext, hout.trans (ppsFall_ppsOut s)⟩

/-! ### Reads of LAC.ANGLE (R36) -/

theorem fusedOff_lac (s : State) : fusedOff s pLAC = false := by
  simp [fusedOff, featureD, featureM, featureE, pLAC]

/-- ANGLE_HI reads as the high half of the count while LAC is in service. -/
theorem view_angleHi (s : State) (w : Who) (hret : retiredPg s pLAC = false) :
    view s w (reg pLAC 0x090) = hi32 (count s) := by
  have hbank : isLoopbank pLAC = false := by decide
  have hpage : (pageType pLAC).isNone = false := by decide
  have hrow : (rowOf (reg pLAC 0x090)).isNone = false := by decide
  have hblock : blockView s w pLAC 0x090 = hi32 (count s) := rfl
  unfold view
  dsimp only
  rw [pageOf_reg _ (by decide), offOf_reg _ (by decide), fusedOff_lac, hrow, hret, hbank, hpage, hblock]
  rfl

/-- A 32-bit read of ANGLE_LO latches the high half under the address that it reads, the low half's. -/
theorem readEffect_angleLo (s : State) (w : Who) (hret : retiredPg s pLAC = false) :
    readEffect s w (reg pLAC 0x08C) false =
      { s with latch := ins s.latch (initKey w (reg pLAC 0x08C)) (hi32 (count s)) } := by
  have hlow : latchLow (reg pLAC 0x08C) = true := by decide
  have hrow : rowOf (reg pLAC 0x08C) = some (rRO 0x08C) := by decide
  have hhi : reg pLAC 0x08C + 4 = reg pLAC 0x090 := by decide
  have hstat : isStat (reg pLAC 0x08C) = false := by decide
  have hclears : clearsOnRead s (reg pLAC 0x08C) = false := by simp [clearsOnRead, hstat, hrow, rRO]
  have hne : ∀ q n, n < 4096 → pLAC ≠ q → reg pLAC 0x08C ≠ reg q n := fun q n hn h =>
    reg_ne_of_page h (by decide) hn
  unfold readEffect readDo
  rw [pageOf_reg _ (by decide), fusedOff_lac, hrow, hlow, hclears, hhi, view_angleHi s w hret, Option.isNone_some]
  simp (disch := decide) only [hne, Bool.false_eq_true, or_self, if_false, if_true]

/-- What ANGLE_LO_READ leaves of the latches. -/
theorem angleLoRead_latch {s : State} {i : Init} (hret : retiredPg s pLAC = false)
    (h : clearRead s i (reg pLAC 0x08C) = true) :
    ∃ t, exec (.angleLoRead i false) s = .next t ∧
      t.latch = ins s.latch (initKey i.who (reg pLAC 0x08C)) (hi32 (count s)) := by
  have hexec : exec (.angleLoRead i false) s = finishClock s (submitRead s i (reg pLAC 0x08C)) := rfl
  rw [hexec]
  refine read_clear h fun s' t hl hd _ => ?_
  have hret' : retiredPg s' pLAC = false := by
    unfold retiredPg rdB at hret ⊢
    rwa [hl.rd _ (by decide)]
  rw [hd.latch, readEffect_angleLo s' i.who hret', hl.latch, count_congr hl.clk]

/-- A supervisor core. -/
def coreZero : Init := ⟨.core 0, .safety⟩

/-- Refutes O18: after a module reset a core's 32-bit read of ANGLE_LO leaves no latch under the address of ANGLE_HI, where the
read of ANGLE_HI looks for it: the model latches the high half under the address of ANGLE_LO. -/
theorem not_angleReads : ¬ Obligations.AngleReads := by
  unfold Obligations.AngleReads
  intro h
  have hret : retiredPg State.reset pLAC = false := by decide
  have hclear : clearRead State.reset coreZero (reg pLAC 0x08C) = true := by decide +kernel
  obtain ⟨hlo, -⟩ := h State.reset coreZero hret
  obtain ⟨t, hexec, -, hlatch, -⟩ := hlo hclear
  obtain ⟨u, hexec', hu⟩ := angleLoRead_latch hret hclear
  cases hexec.symm.trans hexec'
  rw [hu, get?_ins_other _ _ (by decide)] at hlatch
  cases hlatch

end Sys2Proof.Proofs
end

section
/-!
PROOFS. The angle event table and Millwheel's registers (chapter 2, R40, R44, R51, R53): what a write to an entry, to LAC.CTRL
and to LAC.NET_SESSION leaves.
-/

namespace Sys2Proof.Proofs

open Sys2Proof.Machine Sys2Proof.Laws

/-! ### Where an entry stands -/

theorem aetAddr_eq (n w : Nat) : aetAddr n w = reg (pAET + n / 256) (0x800 + (8 * (n % 256) + 4 * w)) := by
  unfold aetAddr reg
  omega

theorem pageOf_aetAddr (n : Nat) {w : Nat} (hw : w < 2) : pageOf (aetAddr n w) = pAET + n / 256 :=
  pageOf_reg _ (by omega)

theorem offOf_aetAddr (n : Nat) {w : Nat} (hw : w < 2) : offOf (aetAddr n w) = 0x800 + 8 * (n % 256) + 4 * w :=
  offOf_reg _ (by omega)

/-- Words of entries have addresses of their own. -/
theorem aetAddr_inj {m n v w : Nat} (hv : v < 2) (hw : w < 2) : aetAddr m v = aetAddr n w ↔ m = n ∧ v = w := by
  refine ⟨fun h => ?_, fun ⟨hm, hv'⟩ => by rw [hm, hv']⟩
  have hpage := congrArg pageOf h
  have hoff := congrArg offOf h
  rw [pageOf_aetAddr m hv, pageOf_aetAddr n hw] at hpage
  rw [offOf_aetAddr m hv, offOf_aetAddr n hw] at hoff
  omega

/-- The table is none of a request's accounts. -/
theorem booked_aetAddr {n w : Nat} (hn : n < 512) (hw : w < 2) : booked (aetAddr n w) = false := by
  apply booked_of_page
  · omega
  · unfold pAET pTOLL
    omega
  · unfold pAET pDAYB
    omega

/-- No word of the table is a register of another page. -/
theorem aetAddr_ne_reg {n w p o : Nat} (hw : w < 2) (ho : o < 4096) (hp : p < pAET ∨ pAET + 1 < p) (hn : n < 512) :
    aetAddr n w ≠ reg p o :=
  reg_ne_of_page (by omega) (by omega) ho

/-- A register that some row of its page covers is no reserved offset. -/
theorem rowOf_isNone_of_mem {p k : Nat} {r : RegRow} (hr : r ∈ pageRows p) (hs : 0 < r.stride) (hk : k < r.n)
    (ho : r.off + r.stride * k < 4096) : (rowOf (reg p (r.off + r.stride * k))).isNone = false := by
  unfold rowOf
  rw [pageOf_reg _ ho, offOf_reg _ ho, ← Option.not_isSome, List.find?_isSome.2 ⟨r, hr, covers_nth hs hk⟩]
  rfl

/-- The pages of the table. -/
theorem aetPage_cases {n : Nat} (hn : n < 512) : pAET + n / 256 = 0x09 ∨ pAET + n / 256 = 0x0A := by
  unfold pAET
  omega

/-- Word 0 of an entry is RW. -/
theorem rowOf_aetAddr_zero {n : Nat} (hn : n < 512) : rowOf (aetAddr n 0) = some (rRW 0x800 full 0x40000000 256 8) := by
  have hrow : ∀ p, p = 0x09 ∨ p = 0x0A → ∀ k < 256, rowOf (reg p (0x800 + 8 * k)) = some (rRW 0x800 full 0x40000000 256 8) := by
    intro p hp k hk
    refine rowOf_nth (j := headerRows.length + 1) (r := rRW 0x800 full 0x40000000 256 8) ?_ (by decide) hk ?_
      (by simp only [rRW]; omega) <;> rcases hp with rfl | rfl <;> decide
  exact hrow _ (aetPage_cases hn) _ (Nat.mod_lt n (by decide))

theorem rowOf_aetAddr {n w : Nat} (hn : n < 512) (hw : w < 2) : (rowOf (aetAddr n w)).isNone = false := by
  interval_cases w
  · rw [rowOf_aetAddr_zero hn]
    rfl
  · have hrow : ∀ p, p = 0x09 ∨ p = 0x0A → ∀ k < 256, (rowOf (reg p (0x804 + 8 * k))).isNone = false := by
      intro p hp k hk
      refine rowOf_isNone_of_mem (r := rRW 0x804 0xFFFFFF 0 256 8) ?_ (by decide) hk (by simp only [rRW]; omega)
      rcases hp with rfl | rfl <;> decide
    rw [aetAddr_eq, show 0x800 + (8 * (n % 256) + 4 * 1) = 0x804 + 8 * (n % 256) by omega]
    exact hrow _ (aetPage_cases hn) _ (Nat.mod_lt n (by decide))

theorem aetOf_aetAddr {n w : Nat} (hn : n < 512) (hw : w < 2) : aetOf (aetAddr n w) = some (n, w) := by
  unfold aetOf
  rw [pageOf_aetAddr n hw, offOf_aetAddr n hw, if_pos ⟨aetPage_cases hn, by omega⟩]
  unfold pAET
  rw [Option.some_inj, Prod.mk.injEq]
  omega

/-- A write to the table stages a word or commits an entry. -/
theorem writeEffect_aetAddr (s : State) (i : Init) {n w : Nat} (v : Word) (hn : n < 512) (hw : w < 2) :
    writeEffect s i (aetAddr n w) v = writeAet s i.who (aetAddr n w) v := by
  have hpage : ∀ p, p = 0x09 ∨ p = 0x0A → isLoopbank p = false ∧ p ≠ pMOD ∧ p ≠ pPROT ∧ p ≠ pINTC ∧ p ≠ pFLTM ∧ p ≠ pTOLL ∧
      p ≠ pLAC := by
    rintro p (rfl | rfl) <;> decide
  obtain ⟨hbank, hmod, hprot, hintc, hfltm, htoll, hlac⟩ := hpage _ (aetPage_cases hn)
  unfold writeEffect writeBlock
  dsimp only
  rw [rowOf_aetAddr hn hw, pageOf_aetAddr n hw, offOf_aetAddr n hw, hbank, if_neg Bool.false_ne_true, if_neg Bool.false_ne_true,
    if_neg (by omega), if_neg hmod, if_neg hprot, if_neg hintc, if_neg (fun h => hfltm h.1), if_neg htoll,
    if_neg (fun h => hlac h.1), if_neg (fun h => hlac h.1), if_pos (aetPage_cases hn)]

/-! ### Staging and committing an entry (R53) -/

theorem stage_aetAddr (s : State) (w : Who) {n : Nat} (v : Word) (hn : n < 512) :
    stage s w (aetAddr n 0) v = { s with staged := ins s.staged (initKey w (aetAddr n 0)) v } := by
  have hfull : v &&& w32 (rRW 0x800 full 0x40000000 256 8).rw = v := BitVec.and_allOnes
  unfold stage
  rw [rowOf_aetAddr_zero hn]
  dsimp only
  rw [hfull]

theorem writeAet_stage (s : State) (w : Who) {n : Nat} (v : Word) (hn : n < 512) :
    writeAet s w (aetAddr n 0) v = { s with staged := ins s.staged (initKey w (aetAddr n 0)) v } := by
  rw [← stage_aetAddr s w v hn]
  unfold writeAet
  rw [aetOf_aetAddr hn (by decide)]
  rfl

theorem writeAet_commit (s : State) (w : Who) {n : Nat} (v : Word) (hn : n < 512) :
    writeAet s w (aetAddr n 1) v = aetSet { s with staged := del s.staged (initKey w (aetAddr n 0)) } n
      (aetClean ((get? s.staged (initKey w (aetAddr n 0))).getD (aetW0 s n))) (v &&& 0xFFFFFF) := by
  unfold writeAet
  rw [aetOf_aetAddr hn (by decide)]
  rfl

theorem aetSet_lac (s : State) (n : Nat) (a b : Word) : (aetSet s n a b).lac = s.lac := rfl
theorem aetSet_clk (s : State) (n : Nat) (a b : Word) : (aetSet s n a b).clk = s.clk := rfl
theorem aetSet_guard (s : State) (n : Nat) (a b : Word) : (aetSet s n a b).guard = s.guard := rfl
theorem aetSet_staged (s : State) (n : Nat) (a b : Word) : (aetSet s n a b).staged = s.staged := rfl
theorem aetSet_pins (s : State) (n : Nat) (a b : Word) : (aetSet s n a b).pins = s.pins := rfl

/-- An entry's words replaced read as replaced, every other register as before. -/
theorem rd_aetSet (s : State) (n a : Nat) (x y : Word) :
    rd (aetSet s n x y) a = if a = aetAddr n 1 then y else if a = aetAddr n 0 then x else rd s a := by
  unfold aetSet
  rw [rd_wr, rd_wr, rd_notePast, rd_notePast]

theorem aetW0_aetSet_same (s : State) (n : Nat) (x y : Word) : aetW0 (aetSet s n x y) n = x := by
  unfold aetW0
  rw [rd_aetSet, if_neg (by rw [aetAddr_inj (by decide) (by decide)]; simp), if_pos rfl]

theorem aetW1_aetSet_same (s : State) (n : Nat) (x y : Word) : aetW1 (aetSet s n x y) n = y := by
  unfold aetW1
  rw [rd_aetSet, if_pos rfl]

theorem rd_aetSet_other (s : State) {n a : Nat} (x y : Word) (h : ∀ w < 2, a ≠ aetAddr n w) :
    rd (aetSet s n x y) a = rd s a := by
  rw [rd_aetSet, if_neg (h 1 (by decide)), if_neg (h 0 (by decide))]

/-- Replacing an entry leaves every other one. -/
theorem aetSet_other (s : State) {m n : Nat} (x y : Word) (h : m ≠ n) :
    aetW0 (aetSet s n x y) m = aetW0 s m ∧ aetW1 (aetSet s n x y) m = aetW1 s m := by
  constructor <;> refine rd_aetSet_other s x y fun w hw e => h ((aetAddr_inj (by decide) hw).1 e).1

/-! ### An entry as it was (R53) -/

/-- Whether a noted change is of a word of an entry, at a position or after it. -/
def changesAt (n w pos : Nat) (e : Past) : Bool := e.kind == 3 && e.idx == n && (e.sub == w && decide (pos ≤ e.pos))

/-- A word of an entry as it was is what its first change from the position on replaced, or what it is. -/
theorem aetWas_eq (s : State) (n w pos : Nat) :
    aetWas s n w pos = (((s.past.filter (changesAt n w pos)).getLast?.map fun e => e.old.val).getD (rd s (aetAddr n w))) := by
  unfold aetWas beforePos pastSlot changesAt
  split <;> rename_i h <;> rw [h] <;> rfl

/-- Without a change from a position on an entry's words stand as they were. -/
theorem aetWas_of_past_lt {s : State} {pos : Nat} (n w : Nat) (h : ∀ e ∈ s.past, e.kind = 3 → e.pos < pos) :
    aetWas s n w pos = rd s (aetAddr n w) := by
  have hnone : s.past.filter (changesAt n w pos) = [] := List.filter_eq_nil_iff.2 fun e he hc => by
    unfold changesAt at hc
    simp only [Bool.and_eq_true, beq_iff_eq, decide_eq_true_eq] at hc
    obtain ⟨⟨hkind, -⟩, -, hpos⟩ := hc
    exact absurd (h e he hkind) (by omega)
  rw [aetWas_eq, hnone]
  rfl

theorem aetWas_congr {s t : State} (hp : t.past = s.past) (n w pos : Nat) (hr : rd t (aetAddr n w) = rd s (aetAddr n w)) :
    aetWas t n w pos = aetWas s n w pos := by
  rw [aetWas_eq, aetWas_eq, hp, hr]

/-- A change noted at the present count, where none is noted after it: the changes at it are those before and, where it is one of
them, the new one. -/
theorem changes_notePast {s : State} {n w : Nat} (k i u o : Nat) (old : Slot) (h : ∀ e ∈ s.past, e.pos ≤ count s) :
    (notePast s k i u o old).past.filter (changesAt n w (count s)) =
      (if k = 3 ∧ i = n ∧ u = w then [⟨k, i, u, count s, s.clk.fabric, o, old⟩] else []) ++
        s.past.filter (changesAt n w (count s)) := by
  have hkept : ∀ (keep : Past → Bool), (∀ e, e.pos = count s → keep e = true) →
      (s.past.filter keep).filter (changesAt n w (count s)) = s.past.filter (changesAt n w (count s)) := by
    intro keep hkeep
    rw [List.filter_filter]
    refine List.filter_congr fun e he => ?_
    rw [Bool.and_eq_left_iff_imp]
    intro hc
    unfold changesAt at hc
    simp only [Bool.and_eq_true, decide_eq_true_eq] at hc
    exact hkeep e (le_antisymm (h e he) hc.2.2)
  have hnew : changesAt n w (count s) ⟨k, i, u, count s, s.clk.fabric, o, old⟩ = decide (k = 3 ∧ i = n ∧ u = w) := by
    simp [changesAt, Bool.beq_eq_decide_eq, Bool.and_assoc]
  unfold notePast
  rw [List.filter_cons, hnew, hkept _ (fun e he => by simp [he])]
  by_cases hc : k = 3 ∧ i = n ∧ u = w <;> simp [hc]

theorem past_notePast_le {s : State} (k i u o : Nat) (old : Slot) (h : ∀ e ∈ s.past, e.pos ≤ count s) :
    ∀ e ∈ (notePast s k i u o old).past, e.pos ≤ count (notePast s k i u o old) := by
  intro e he
  rw [count_congr (notePast_clk s k i u o old)]
  rcases List.mem_cons.1 he with rfl | he
  · exact le_refl _
  · exact h e (List.mem_of_mem_filter he)

/-- A commit at the present count does not apply to the position that the count has reached. -/
theorem aetWas_aetSet {s : State} (n : Nat) {w : Nat} (x y : Word) (hw : w < 2) (h : ∀ e ∈ s.past, e.pos ≤ count s) :
    aetWas (aetSet s n x y) n w (count s) = aetWas s n w (count s) := by
  have hpast : ∃ e : Past, e.old.val = rd s (aetAddr n w) ∧
      (aetSet s n x y).past.filter (changesAt n w (count s)) = e :: s.past.filter (changesAt n w (count s)) := by
    unfold aetSet
    dsimp only
    rw [wr_past, wr_past, ← count_congr (notePast_clk s 3 n 0 0 ⟨.int32, rd s (aetAddr n 0), 0⟩),
      changes_notePast _ _ _ _ _ (past_notePast_le _ _ _ _ _ h), count_congr (notePast_clk s _ _ _ _ _),
      changes_notePast _ _ _ _ _ h]
    interval_cases w
    · rw [if_neg (by simp), if_pos ⟨rfl, rfl, rfl⟩]
      exact ⟨_, rfl, rfl⟩
    · rw [if_pos ⟨rfl, rfl, rfl⟩, if_neg (by simp)]
      exact ⟨_, rfl, rfl⟩
  obtain ⟨e, hold, hpast⟩ := hpast
  rw [aetWas_eq, aetWas_eq, hpast, List.getLast?_cons, ← hold]
  cases (s.past.filter (changesAt n w (count s))).getLast? <;> rfl

/-! ### AET_WORD0_STAGE and AET_ENTRY_COMMIT -/

theorem exec_aetWord0Stage (i : Init) (n : Fin 512) (v : Word) (s : State) :
    exec (.aetWord0Stage i n v) s = finishClock s (submitWrite s i (aetAddr n.val 0) v) := rfl
theorem exec_aetEntryCommit (i : Init) (n : Fin 512) (v : Word) (s : State) :
    exec (.aetEntryCommit i n v) s = finishClock s (submitWrite s i (aetAddr n.val 1) v) := rfl

/-- An entry reads alike in states with the same registers of the table. -/
theorem aetW_congr {s t : State} {m : Nat} (h : ∀ w < 2, rd t (aetAddr m w) = rd s (aetAddr m w)) :
    aetW0 t m = aetW0 s m ∧ aetW1 t m = aetW1 s m := ⟨h 0 (by decide), h 1 (by decide)⟩

theorem aetAddr_ne_lock {n w : Nat} (hn : n < 512) (hw : w < 2) : aetAddr n w ≠ reg pLOCK 0x090 :=
  aetAddr_ne_reg hw (by decide) (.inr (by decide)) hn

/-- A write to word 0 is staged and leaves the table. -/
theorem aetWord0Stage_stages {s : State} {i : Init} {v : Word} (n : Fin 512) (h : clear s i (aetAddr n.val 0) v = true) :
    ∃ t, exec (.aetWord0Stage i n v) s = .next t ∧ get? t.staged (initKey i.who (aetAddr n.val 0)) = some v ∧
      ∀ m < 512, aetW0 t m = aetW0 s m ∧ aetW1 t m = aetW1 s m := by
  rw [exec_aetWord0Stage]
  refine row_clear h (aetAddr_ne_lock n.isLt (by decide)) fun s' t hl hd => ?_
  have heff : writeEffect s' ⟨i.who, clsFor s i⟩ (aetAddr n.val 0) v =
      { s' with staged := ins s'.staged (initKey i.who (aetAddr n.val 0)) v } := by
    rw [writeEffect_aetAddr _ _ v n.isLt (by decide), writeAet_stage _ _ v n.isLt]
  rw [heff] at hd
  refine ⟨?_, fun m hm => aetW_congr fun w hw => ?_⟩
  · rw [hd.staged, get?_ins_same]
  · rw [hd.rd, rd_with_staged, hl.rd _ (booked_aetAddr hm hw)]

/-- A write to word 1 commits the entry. -/
theorem aetEntryCommit_commits {s : State} {i : Init} {v : Word} (n : Fin 512) (h : clear s i (aetAddr n.val 1) v = true) :
    ∃ t, exec (.aetEntryCommit i n v) s = .next t ∧ aetW1 t n.val = v &&& 0xFFFFFF#32 ∧
      aetW0 t n.val = aetClean ((get? s.staged (initKey i.who (aetAddr n.val 0))).getD (aetW0 s n.val)) ∧
      get? t.staged (initKey i.who (aetAddr n.val 0)) = none ∧
      ((∀ e ∈ s.past, e.pos ≤ count s) → ∀ w < 2, aetWas t n.val w (count s) = aetWas s n.val w (count s)) ∧
      ∀ m < 512, m ≠ n.val → aetW0 t m = aetW0 s m ∧ aetW1 t m = aetW1 s m := by
  rw [exec_aetEntryCommit]
  refine row_clear h (aetAddr_ne_lock n.isLt (by decide)) fun s' t hl hd => ?_
  rw [writeEffect_aetAddr _ _ v n.isLt (by decide), writeAet_commit _ _ v n.isLt] at hd
  have hentry (m : Nat) (hm : m < 512) (w : Nat) (hw : w < 2) : rd s' (aetAddr m w) = rd s (aetAddr m w) :=
    hl.rd _ (booked_aetAddr hm hw)
  have hw0 : aetW0 s' n.val = aetW0 s n.val := hentry n.val n.isLt 0 (by decide)
  obtain ⟨u, hu⟩ : ∃ u : State, u = { s' with staged := del s'.staged (initKey i.who (aetAddr n.val 0)) } := ⟨_, rfl⟩
  have hclk : u.clk = s.clk := by rw [hu]; exact hl.clk
  have hpast : u.past = s.past := by rw [hu]; exact hl.past
  have hrd : ∀ a, rd u a = rd s' a := fun a => by rw [hu, rd_with_staged]
  have hstaged : u.staged = del s'.staged (initKey i.who (aetAddr n.val 0)) := by rw [hu]
  rw [← hu, hw0, hl.staged] at hd
  refine ⟨?_, ?_, ?_, fun hlate w hw => ?_, fun m hm hne => ?_⟩
  · exact (hd.rd _).trans (aetW1_aetSet_same u n.val _ _)
  · exact (hd.rd _).trans (aetW0_aetSet_same u n.val _ _)
  · rw [hd.staged, aetSet_staged, hstaged, get?_del_same]
  · rw [aetWas_congr hd.past n.val w (count s) (hd.rd _), ← count_congr hclk,
      aetWas_aetSet n.val _ _ hw (by rw [hpast, count_congr hclk]; exact hlate),
      aetWas_congr hpast n.val w (count u) ((hrd _).trans (hentry n.val n.isLt w hw))]
  · obtain ⟨h0, h1⟩ := aetSet_other u (m := m) (aetClean ((get? s.staged (initKey i.who (aetAddr n.val 0))).getD (aetW0 s n.val)))
      (v &&& 0xFFFFFF) hne
    refine aetW_congr fun w hw => ?_
    rw [hd.rd, ← hentry m hm w hw, ← hrd]
    interval_cases w
    exacts [h0, h1]

end Sys2Proof.Proofs
end

section
/-!
PROOFS. Millwheel's tracker (chapter 2, R38–R44, R48, R51): what its operations leave, how LAC.CTRL and LAC.NET_SESSION are
written, and how a reference is lost and regained.
-/

namespace Sys2Proof.Proofs

open Sys2Proof.Machine Sys2Proof.Laws

/-! ### LAC's event register -/

theorem evtAddr_lac : evtAddr pLAC = some (reg pLAC 0x088) := by decide

theorem rd_evLac_other (s : State) (b : Nat) {a : Nat} (h : a ≠ reg pLAC 0x088) : rd (ev s pLAC b) a = rd s a :=
  rd_ev_other s pLAC b fun e => h (Option.some.inj (evtAddr_lac.symm.trans e)).symm

theorem rdB_evLac (s : State) {b : Nat} (j : Nat) (hb : b < 32) :
    rdB (ev s pLAC b) (reg pLAC 0x088) j = (rdB s (reg pLAC 0x088) j || decide (b = j)) := by
  unfold rdB
  rw [rd_ev_same s b evtAddr_lac, bit_or, bit_w32_pow j hb]

theorem rdB_evLac_same (s : State) {b : Nat} (hb : b < 32) : rdB (ev s pLAC b) (reg pLAC 0x088) b = true := by
  rw [rdB_evLac s b hb, decide_eq_true rfl, Bool.or_true]

/-! ### What every operation of the tracker keeps -/

/-- One state is another after operations of the tracker that do not move the count: the count and the time, the pins and the
modes stand, and of the registers LAC.EVT alone has changed, in which bits have been set. -/
structure Steered (s t : State) : Prop where
  acc : t.clk.acc = s.clk.acc
  fabric : t.clk.fabric = s.clk.fabric
  guard : t.guard = s.guard
  pins : t.pins = s.pins
  toll : t.toll = s.toll
  started : t.lac.started = s.lac.started
  deferred : t.lac.deferred = s.lac.deferred
  rd : ∀ a, a ≠ reg pLAC 0x088 → rd t a = rd s a
  evt : ∀ j, rdB s (reg pLAC 0x088) j = true → rdB t (reg pLAC 0x088) j = true

theorem Steered.refl (s : State) : Steered s s := ⟨rfl, rfl, rfl, rfl, rfl, rfl, rfl, fun _ _ => rfl, fun _ h => h⟩

theorem Steered.trans {s t u : State} (h : Steered s t) (k : Steered t u) : Steered s u where
  acc := k.acc.trans h.acc
  fabric := k.fabric.trans h.fabric
  guard := k.guard.trans h.guard
  pins := k.pins.trans h.pins
  toll := k.toll.trans h.toll
  started := k.started.trans h.started
  deferred := k.deferred.trans h.deferred
  rd := fun a ha => (k.rd a ha).trans (h.rd a ha)
  evt := fun j hj => k.evt j (h.evt j hj)

theorem Steered.lacCtrl_eq {s t : State} (h : Steered s t) : lacCtrl t = lacCtrl s := h.rd _ (by decide)

theorem Steered.sourceEff_eq {s t : State} (h : Steered s t) : sourceEff t = sourceEff s := by
  unfold sourceEff mISLAND
  rw [h.lacCtrl_eq, h.guard]

theorem Steered.nominalFreq_eq {s t : State} (h : Steered s t) : nominalFreq t = nominalFreq s := by
  unfold nominalFreq rdB
  rw [h.rd _ (by decide)]

theorem Steered.count_eq {s t : State} (h : Steered s t) : count t = count s := by
  unfold count
  rw [h.acc]

theorem steered_lac (s : State) {l : Lac} (hs : l.started = s.lac.started) (hd : l.deferred = s.lac.deferred) :
    Steered s { s with lac := l } := ⟨rfl, rfl, rfl, rfl, rfl, hs, hd, fun _ _ => rfl, fun _ h => h⟩

theorem steered_clk (s : State) {c : Clock} (ha : c.acc = s.clk.acc) (hf : c.fabric = s.clk.fabric) :
    Steered s { s with clk := c } := ⟨ha, hf, rfl, rfl, rfl, rfl, rfl, fun _ _ => rfl, fun _ h => h⟩

theorem steered_ev (s : State) {b : Nat} (hb : b < 32) : Steered s (ev s pLAC b) where
  acc := by rw [ev_clk]
  fabric := by rw [ev_clk]
  guard := ev_guard s pLAC b
  pins := ev_pins s pLAC b
  toll := ev_toll s pLAC b
  started := by rw [ev_lac]
  deferred := by rw [ev_lac]
  rd := fun a ha => rd_evLac_other s b ha
  evt := fun j hj => by rw [rdB_evLac s j hb, hj, Bool.true_or]

/-! ### The single operations -/

theorem syncLeave_lac (s : State) : ∃ p l, (syncLeave s).lac = { s.lac with syncFrom := p, spans := l } := by
  unfold syncLeave
  split <;> exact ⟨_, _, rfl⟩

theorem syncLeave_clk (s : State) : (syncLeave s).clk = s.clk := by
  unfold syncLeave
  split <;> rfl

theorem steered_syncLeave (s : State) : Steered s (syncLeave s) := by
  unfold syncLeave
  split
  · exact steered_lac s rfl rfl
  · exact .refl s

theorem hold_lac (s : State) : ∃ p l, (hold s).lac = { s.lac with syncFrom := p, spans := l } := syncLeave_lac _

theorem hold_clk (s : State) : (hold s).clk = { s.clk with target := s.clk.freq, corrNow := 0, corrLeft := 0 } :=
  syncLeave_clk _

theorem steered_hold (s : State) : Steered s (hold s) := by
  unfold hold
  refine .trans ?_ (steered_syncLeave _)
  exact steered_clk s rfl rfl

theorem seek_lac (s : State) (f : Nat) : (seek s f).lac = s.lac := rfl

theorem seek_target (s : State) (f : Nat) : (seek s f).clk.target = f := by
  unfold seek
  dsimp only
  split <;> rfl

theorem steered_seek (s : State) (f : Nat) : Steered s (seek s f) := by
  unfold seek
  split <;> exact steered_clk s rfl rfl

theorem putInService_lac (s : State) : (putInService s).lac =
    { s.lac with inService := true, evald := if s.lac.inService then s.lac.evald else count s } := by
  unfold putInService
  split
  · rename_i h
    rw [← h]
  · rfl

theorem putInService_clk (s : State) : (putInService s).clk = s.clk := by
  unfold putInService
  split <;> rfl

theorem steered_putInService (s : State) : Steered s (putInService s) := by
  unfold putInService
  split
  · exact .refl s
  · exact steered_lac s rfl rfl

theorem takeRefch_lac (s : State) : (takeRefch s).lac = { s.lac with
    refch := if sourceEff s = 0 then fld (lacCtrl s) 4 3 else s.lac.refch,
    sagged := if sourceEff s = 0 then false else s.lac.sagged } := by
  unfold takeRefch
  split <;> rfl

theorem takeRefch_clk (s : State) : (takeRefch s).clk = s.clk := by
  unfold takeRefch
  split <;> rfl

theorem steered_takeRefch (s : State) : Steered s (takeRefch s) := by
  unfold takeRefch
  split
  · exact steered_lac s rfl rfl
  · exact .refl s

/-! ### FLYWHEEL and SYNTHETIC entered (R44, R48) -/

theorem toFlywheel_lac (s : State) :
    ∃ p l, (toFlywheel s).lac = { s.lac with track := .flywheel, syncFrom := p, spans := l } := by
  unfold toFlywheel
  obtain ⟨p, l, h⟩ := hold_lac { s with lac := { s.lac with track := .flywheel } }
  rw [ev_lac, h]
  exact ⟨_, _, rfl⟩

theorem toFlywheel_clk (s : State) :
    (toFlywheel s).clk = { s.clk with target := s.clk.freq, corrNow := 0, corrLeft := 0 } := by
  unfold toFlywheel
  rw [ev_clk, hold_clk]

theorem toFlywheel_evt (s : State) : rdB (toFlywheel s) (reg pLAC 0x088) 1 = true := by
  unfold toFlywheel
  exact rdB_evLac_same _ (by decide)

theorem steered_toFlywheel (s : State) : Steered s (toFlywheel s) := by
  unfold toFlywheel
  refine .trans (.trans ?_ (steered_hold _)) (steered_ev (b := 1) _ (by decide))
  exact steered_lac s rfl rfl

/-- The state of SYNTHETIC before Millwheel is put in service. -/
def freeRun (s : State) : State :=
  let u := seek (hold s) (nominalFreq (hold s))
  ev { u with lac := { u.lac with track := .synthetic, fly := none } } pLAC 2

theorem toSynthetic_eq (s : State) : toSynthetic s = putInService (freeRun s) := rfl

theorem freeRun_lac (s : State) : ∃ p l,
    (freeRun s).lac = { s.lac with track := .synthetic, fly := none, syncFrom := p, spans := l } := by
  obtain ⟨p, l, h⟩ := hold_lac s
  unfold freeRun
  dsimp only
  rw [ev_lac, seek_lac, h]
  exact ⟨_, _, rfl⟩

theorem freeRun_clk (s : State) : (freeRun s).clk = (seek (hold s) (nominalFreq s)).clk := by
  unfold freeRun
  dsimp only
  rw [ev_clk, (steered_hold s).nominalFreq_eq]

theorem steered_freeRun (s : State) : Steered s (freeRun s) := by
  unfold freeRun
  refine .trans (.trans ((steered_hold s).trans (steered_seek _ (nominalFreq (hold s)))) ?_) (steered_ev (b := 2) _ (by decide))
  exact steered_lac _ rfl rfl

theorem steered_toSynthetic (s : State) : Steered s (toSynthetic s) :=
  (steered_freeRun s).trans (steered_putInService _)

/-- In SYNTHETIC the flywheel time has ended and Millwheel is in service. -/
theorem toSynthetic_lac (s : State) : ∃ n p l, (toSynthetic s).lac =
    { s.lac with track := .synthetic, fly := none, inService := true, evald := n, syncFrom := p, spans := l } := by
  obtain ⟨p, l, h⟩ := freeRun_lac s
  rw [toSynthetic_eq, putInService_lac, h]
  exact ⟨_, _, _, rfl⟩

/-- The tracker moves to the nominal frequency, before IN_SERVICE at once. -/
theorem toSynthetic_clk (s : State) : (toSynthetic s).clk.target = nominalFreq s ∧
    (s.lac.inService = false → (toSynthetic s).clk.freq = nominalFreq s) := by
  rw [toSynthetic_eq, putInService_clk, freeRun_clk]
  refine ⟨seek_target _ _, fun h => ?_⟩
  obtain ⟨p, l, hlac⟩ := hold_lac s
  unfold seek
  rw [hlac, h]
  rfl

theorem toSynthetic_evt (s : State) : rdB (toSynthetic s) (reg pLAC 0x088) 2 = true :=
  (steered_putInService _).evt 2 (rdB_evLac_same _ (by decide))

/-! ### The reference in use becomes invalid (R41–R44) -/

/-- The state with its reference invalid. -/
def refGone (s : State) : State := { s with lac := { s.lac with refValid := false } }

/-- From LOCKED the loss of the reference leads to FLYWHEEL, and starts the flywheel time. -/
theorem refInvalid_locked {s : State} (hs : s.lac.started = true) (hsrc : sourceEff s ≠ 3) (ht : s.lac.track = .locked) :
    refInvalid s = toFlywheel (ev { s with lac := { (refGone s).lac with fly := some s.clk.fabric } } pLAC 0) := by
  unfold refInvalid
  rw [if_neg (by simp [hs, hsrc])]
  dsimp only
  rw [ht]
  rfl

/-- The loss of the reference, whatever the tracker's state: the reference is invalid, and the pulses of R42 stand. -/
theorem refInvalid_lac {s : State} (hs : s.lac.started = true) (hsrc : sourceEff s ≠ 3) :
    ∃ tr fl sv n p l, (refInvalid s).lac = { s.lac with
      refValid := false, track := tr, fly := fl, inService := sv, evald := n, syncFrom := p, spans := l } := by
  unfold refInvalid
  rw [if_neg (by simp [hs, hsrc])]
  dsimp only
  split
  · obtain ⟨p, l, h⟩ := toFlywheel_lac (ev { s with lac := { (refGone s).lac with fly := some s.clk.fabric } } pLAC 0)
    refine ⟨.flywheel, some s.clk.fabric, s.lac.inService, s.lac.evald, p, l, h.trans ?_⟩
    rw [ev_lac]
    rfl
  · split
    · exact ⟨s.lac.track, s.lac.fly, s.lac.inService, s.lac.evald, s.lac.syncFrom, s.lac.spans, rfl⟩
    · obtain ⟨n, p, l, h⟩ := toSynthetic_lac (refGone s)
      exact ⟨.synthetic, none, true, n, p, l, h⟩
    · split
      · obtain ⟨n, p, l, h⟩ := toSynthetic_lac (refGone s)
        exact ⟨.synthetic, none, true, n, p, l, h⟩
      · obtain ⟨p, l, h⟩ := toFlywheel_lac (refGone s)
        exact ⟨.flywheel, s.lac.fly, s.lac.inService, s.lac.evald, p, l, h⟩
  · exact ⟨s.lac.track, s.lac.fly, s.lac.inService, s.lac.evald, s.lac.syncFrom, s.lac.spans, rfl⟩

theorem steered_refGone (s : State) : Steered s (refGone s) := steered_lac s rfl rfl

theorem steered_refInvalid (s : State) : Steered s (refInvalid s) := by
  unfold refInvalid
  split
  · exact .refl s
  · dsimp only
    split
    · refine .trans (.trans ?_ (steered_ev (b := 0) _ (by decide))) (steered_toFlywheel _)
      exact steered_lac s rfl rfl
    · split
      · exact steered_refGone s
      · exact (steered_refGone s).trans (steered_toSynthetic _)
      · split
        · exact (steered_refGone s).trans (steered_toSynthetic _)
        · exact (steered_refGone s).trans (steered_toFlywheel _)
    · exact steered_refGone s

/-- The loss of the reference in LOCKED: FLYWHEEL at the held frequency. -/
theorem lostLock_refInvalid {s : State} (hs : s.lac.started = true) (hsrc : sourceEff s ≠ 3) (ht : s.lac.track = .locked) :
    lostLock (refInvalid s) ∧ (refInvalid s).clk.freq = s.clk.freq := by
  rw [refInvalid_locked hs hsrc ht]
  obtain ⟨p, l, hlac⟩ := toFlywheel_lac (ev { s with lac := { (refGone s).lac with fly := some s.clk.fabric } } pLAC 0)
  have hlost : rdB (ev { s with lac := { (refGone s).lac with fly := some s.clk.fabric } } pLAC 0) (reg pLAC 0x088) 0 = true :=
    rdB_evLac_same _ (by decide)
  unfold lostLock
  rw [hlac, toFlywheel_clk, ev_lac, ev_clk]
  exact ⟨⟨rfl, rfl, rfl, rfl, rfl, (steered_toFlywheel _).evt 0 hlost, toFlywheel_evt _⟩, rfl⟩

/-! ### The reference in use is valid (R38, R44, R48) -/

/-- The state with its reference valid at a phase error. -/
def refSeenAt (s : State) (ph : Int) : State :=
  { s with lac := { s.lac with refValid := true, seen := { s.lac.seen with ph := ph } } }

theorem steered_refSeenAt (s : State) (ph : Int) : Steered s (refSeenAt s ph) := steered_lac s rfl rfl

/-- ACQUIRE sought from another state with a valid reference. -/
def acquireFrom (s : State) (fr : From) : State := { s with lac := { s.lac with track := .acquire, from_ := fr } }

section

variable {s : State} (f : Nat) (ph : Int) (hs : s.lac.started = true) (hsrc : sourceEff s ≠ 3)

include hs hsrc

/-- What a valid reference does in each state of the tracker (R44). -/
theorem refValid_eq : refValid s f ph =
    match s.lac.track with
    | .flywheel => takeRefch (hold (acquireFrom (refSeenAt s ph) .locked))
    | .synthetic => takeRefch (acquireFrom (refSeenAt s ph) .synthetic)
    | .locked => seek (refSeenAt s ph) (Config.steer f ph)
    | .acquire => seek (refSeenAt s ph) (f * 1000) := by
  unfold refValid
  rw [if_neg (by simp [hs, hsrc])]
  rfl

theorem refValid_flywheel (ht : s.lac.track = .flywheel) :
    refValid s f ph = takeRefch (hold (acquireFrom (refSeenAt s ph) .locked)) := by
  rw [refValid_eq f ph hs hsrc, ht]

theorem refValid_synthetic (ht : s.lac.track = .synthetic) :
    refValid s f ph = takeRefch (acquireFrom (refSeenAt s ph) .synthetic) := by
  rw [refValid_eq f ph hs hsrc, ht]

theorem refValid_locked (ht : s.lac.track = .locked) : refValid s f ph = seek (refSeenAt s ph) (Config.steer f ph) := by
  rw [refValid_eq f ph hs hsrc, ht]

theorem refValid_acquire (ht : s.lac.track = .acquire) : refValid s f ph = seek (refSeenAt s ph) (f * 1000) := by
  rw [refValid_eq f ph hs hsrc, ht]

/-- A valid reference, whatever the tracker's state: the reference is valid, and the pulses of R42 stand. -/
theorem refValid_lac : ∃ tr fr rc sg p l, (refValid s f ph).lac = { (refSeenAt s ph).lac with
    track := tr, from_ := fr, refch := rc, sagged := sg, syncFrom := p, spans := l } := by
  cases ht : s.lac.track
  case flywheel =>
    obtain ⟨p, l, h⟩ := hold_lac (acquireFrom (refSeenAt s ph) .locked)
    rw [refValid_flywheel f ph hs hsrc ht, takeRefch_lac, h]
    exact ⟨_, _, _, _, _, _, rfl⟩
  case synthetic =>
    rw [refValid_synthetic f ph hs hsrc ht, takeRefch_lac]
    exact ⟨_, _, _, _, s.lac.syncFrom, s.lac.spans, rfl⟩
  case locked =>
    rw [refValid_locked f ph hs hsrc ht, seek_lac]
    exact ⟨s.lac.track, s.lac.from_, s.lac.refch, s.lac.sagged, s.lac.syncFrom, s.lac.spans, rfl⟩
  case acquire =>
    rw [refValid_acquire f ph hs hsrc ht, seek_lac]
    exact ⟨s.lac.track, s.lac.from_, s.lac.refch, s.lac.sagged, s.lac.syncFrom, s.lac.spans, rfl⟩

theorem steered_refValid : Steered s (refValid s f ph) := by
  have hseen := steered_refSeenAt s ph
  have hfrom (fr : From) : Steered s (acquireFrom (refSeenAt s ph) fr) := hseen.trans (steered_lac _ rfl rfl)
  cases ht : s.lac.track
  case flywheel =>
    rw [refValid_flywheel f ph hs hsrc ht]
    exact ((hfrom .locked).trans (steered_hold _)).trans (steered_takeRefch _)
  case synthetic =>
    rw [refValid_synthetic f ph hs hsrc ht]
    exact (hfrom .synthetic).trans (steered_takeRefch _)
  case locked =>
    rw [refValid_locked f ph hs hsrc ht]
    exact hseen.trans (steered_seek _ _)
  case acquire =>
    rw [refValid_acquire f ph hs hsrc ht]
    exact hseen.trans (steered_seek _ _)

/-- A valid reference leads FLYWHEEL and SYNTHETIC to ACQUIRE at the present frequency, where REFCH takes force. -/
theorem refValid_acquires (ht : s.lac.track = .flywheel ∨ s.lac.track = .synthetic) :
    (refValid s f ph).lac.track = .acquire ∧ (refValid s f ph).clk.freq = s.clk.freq ∧
      (sourceEff s = 0 → (refValid s f ph).lac.refch = fld (lacCtrl s) 4 3) := by
  have htake : ∀ u, Steered s u → u.lac.track = .acquire → u.clk.freq = s.clk.freq →
      (takeRefch u).lac.track = .acquire ∧ (takeRefch u).clk.freq = s.clk.freq ∧
        (sourceEff s = 0 → (takeRefch u).lac.refch = fld (lacCtrl s) 4 3) := by
    intro u hu htrack hfreq
    rw [takeRefch_lac, takeRefch_clk, hu.sourceEff_eq, hu.lacCtrl_eq]
    exact ⟨htrack, hfreq, fun h => if_pos h⟩
  have hfrom (fr : From) : Steered s (acquireFrom (refSeenAt s ph) fr) :=
    (steered_refSeenAt s ph).trans (steered_lac _ rfl rfl)
  rcases ht with ht | ht
  · obtain ⟨p, l, h⟩ := hold_lac (acquireFrom (refSeenAt s ph) .locked)
    rw [refValid_flywheel f ph hs hsrc ht]
    exact htake _ ((hfrom .locked).trans (steered_hold _)) (by rw [h]; rfl) (by rw [hold_clk]; rfl)
  · rw [refValid_synthetic f ph hs hsrc ht]
    exact htake _ (hfrom .synthetic) rfl rfl

end

/-! ### A reference change (R44) -/

/-- The state with its reference forgotten. -/
def refSought (s : State) : State := takeRefch { s with lac := { s.lac with
  refValid := false, syncAt := none, syncGood := 0, netAt := none, netGood := 0, netArr := none } }

theorem steered_refSought (s : State) : Steered s (refSought s) := by
  unfold refSought
  refine .trans ?_ (steered_takeRefch _)
  exact steered_lac s rfl rfl

theorem steered_refChange (s : State) : Steered s (refChange s) := by
  have hsought := steered_refSought s
  have hleave (l : Lac) (hs : l.started = (refSought s).lac.started) (hd : l.deferred = (refSought s).lac.deferred) :
      Steered s (hold { refSought s with lac := l }) := (hsought.trans (steered_lac _ hs hd)).trans (steered_hold _)
  unfold refChange
  split
  · exact .refl s
  · dsimp only
    split
    · split
      · exact hsought
      · exact hsought.trans (steered_toSynthetic _)
    · split
      · exact hleave _ rfl rfl
      · exact hleave _ rfl rfl
      · exact hsought

/-- From LOCKED a reference change leads to ACQUIRE at the held frequency, and starts the flywheel time. -/
theorem refChange_locked {s : State} (hs : s.lac.started = true) (ht : s.lac.track = .locked) (hsrc : sourceEff s ≠ 3) :
    (refChange s).lac.track = .acquire ∧ (refChange s).lac.refValid = false ∧
      (refChange s).lac.fly = some s.clk.fabric ∧ (refChange s).clk.target = s.clk.freq := by
  have hlac := takeRefch_lac { s with lac := { s.lac with
    refValid := false, syncAt := none, syncGood := 0, netAt := none, netGood := 0, netArr := none } }
  have htrack : (refSought s).lac.track = .locked := by
    unfold refSought
    rw [hlac]
    exact ht
  have hinvalid : (refSought s).lac.refValid = false := by
    unfold refSought
    rw [hlac]
  have hclk : (refSought s).clk = s.clk := takeRefch_clk _
  have heq : refChange s = hold { refSought s with lac := { (refSought s).lac with
      track := .acquire, from_ := .locked, fly := some (refSought s).clk.fabric } } := by
    have hsrc' : sourceEff (refSought s) ≠ 3 := by rwa [(steered_refSought s).sourceEff_eq]
    unfold refChange
    rw [if_neg (by simp [hs])]
    dsimp only
    rw [← refSought, if_neg hsrc', htrack]
  obtain ⟨p, l, h⟩ := hold_lac { refSought s with lac := { (refSought s).lac with
    track := .acquire, from_ := .locked, fly := some (refSought s).clk.fabric } }
  rw [heq, h, hold_clk, ← hclk]
  exact ⟨rfl, hinvalid, rfl, rfl⟩

/-! ### LAC.CTRL as it acts (R57) -/

/-- A field of which a mask keeps every bit. -/
theorem fld_and_of_full {m : Word} {lo n : Nat} (v : Word) (h : fld m lo n = 2 ^ n - 1) : fld (v &&& m) lo n = fld v lo n := by
  unfold fld at h ⊢
  rw [BitVec.toNat_and, ← Nat.shiftRight_eq_div_pow, Nat.shiftRight_and_distrib, Nat.and_mod_two_pow,
    Nat.shiftRight_eq_div_pow, Nat.shiftRight_eq_div_pow, h, Nat.and_two_pow_sub_one_eq_mod, Nat.mod_mod]

/-- LAC.CTRL with REFCH as it acts. -/
def refchClean (v : Word) : Word :=
  if fld (v &&& 0x0FFF0F73) 4 3 < 6 then v &&& 0x0FFF0F73 else setFld (v &&& 0x0FFF0F73) 4 3 0

/-- The fields beside REFCH, SAG_THR and FLY_LIMIT act as written. -/
theorem fld_ctrlClean (v : Word) {lo n : Nat} (hm : fld 0x0FFF0F73#32 lo n = 2 ^ n - 1)
    (hl : lo + n ≤ 4 ∨ 7 ≤ lo ∧ lo + n ≤ 16) : fld (ctrlClean v) lo n = fld v lo n := by
  have hclean : ∃ x y, ctrlClean v = setFld (setFld (refchClean v) 16 8 x) 24 4 y := ⟨_, _, rfl⟩
  obtain ⟨x, y, hxy⟩ := hclean
  have hrefch : fld (refchClean v) lo n = fld v lo n := by
    rw [← fld_and_of_full v hm]
    unfold refchClean
    split
    · rfl
    · rcases hl with hl | ⟨hl, -⟩
      · exact fld_setFld_below _ 0 (by decide) hl
      · exact fld_setFld_above _ 0 (by decide) hl
  rw [hxy, fld_setFld_below _ y (by decide) (by omega), fld_setFld_below _ x (by decide) (by omega), hrefch]

theorem ctrlClean_source (v : Word) : fld (ctrlClean v) 0 2 = fld v 0 2 := fld_ctrlClean v (by decide) (by omega)

theorem ctrlClean_syncOutEn (v : Word) : bit (ctrlClean v) 10 = bit v 10 := by
  rw [bit_eq_fld, bit_eq_fld, fld_ctrlClean v (by decide) (by omega)]

/-- REFCH acts as written where it names a channel. -/
theorem ctrlClean_refch {v : Word} (h : fld v 4 3 < 6) : fld (ctrlClean v) 4 3 = fld v 4 3 := by
  have hmask : fld (v &&& 0x0FFF0F73) 4 3 = fld v 4 3 := fld_and_of_full v (by decide)
  have hclean : ∃ x y, ctrlClean v = setFld (setFld (refchClean v) 16 8 x) 24 4 y := ⟨_, _, rfl⟩
  obtain ⟨x, y, hxy⟩ := hclean
  rw [hxy, fld_setFld_below _ y (by decide) (by decide), fld_setFld_below _ x (by decide) (by decide)]
  unfold refchClean
  rw [hmask, if_pos h, hmask]

/-! ### LAC_CTRL_WRITE (R40, R44, R51) -/

theorem exec_lacCtrlWrite (i : Init) (v : Word) (s : State) :
    exec (.lacCtrlWrite i v) s = finishClock s (submitWrite s i (reg pLAC 0x080) v) := rfl
theorem exec_lacNetSessionWrite (i : Init) (v : Word) (s : State) :
    exec (.lacNetSessionWrite i v) s = finishClock s (submitWrite s i (reg pLAC 0x0AC) v) := rfl

/-- A write to a register of LAC above its header that is no reserved offset. -/
theorem writeEffect_lac (s : State) (i : Init) {o : Nat} (v : Word) (hrow : (rowOf (reg pLAC o)).isNone = false)
    (hlo : 0x080 ≤ o) (hhi : o < 4096) : writeEffect s i (reg pLAC o) v =
      if o = 0x080 then lacCtrlSet s v else if o = 0x0AC then netSessionSet s v else writePlain s (reg pLAC o) v := by
  have hbank : isLoopbank pLAC = false := by decide
  unfold writeEffect writeBlock
  dsimp only
  rw [hrow, pageOf_reg _ hhi, offOf_reg _ hhi, hbank, if_neg Bool.false_ne_true, if_neg Bool.false_ne_true,
    if_neg (Nat.not_lt.2 hlo)]
  simp [pLAC, pMOD, pPROT, pINTC, pFLTM, pTOLL, pSCAN, pSCANDBG, pPGMX, pFORCE, pWGHEN, pWGHPQ, pFACT, pFACTQ, pPTS, pDAYB,
    pETH, pOPX, pMB, pSF, pFIO, pSGN, pSGNRG, pLOCK, pCAL, pBKP, pSCRV, pUPD]

theorem writeEffect_lacCtrl (s : State) (i : Init) (v : Word) : writeEffect s i (reg pLAC 0x080) v = lacCtrlSet s v := by
  rw [writeEffect_lac s i v (by decide) (by decide) (by decide), if_pos rfl]

theorem writeEffect_netSession (s : State) (i : Init) (v : Word) :
    writeEffect s i (reg pLAC 0x0AC) v = netSessionSet s v := by
  rw [writeEffect_lac s i v (by decide) (by decide) (by decide), if_neg (by decide), if_pos rfl]

/-- LAC.CTRL stored, with entry 48 and ANG_SYNC_OUT as SYNC_OUT_EN has them. -/
def ctrlStored (s : State) (v : Word) : State :=
  let u := evIf (decide (fld v 16 8 < 10) || decide (90 < fld v 16 8)) (wr s (reg pLAC 0x080) (ctrlClean v)) pLAC 8
  if bit (ctrlClean v) 10 then aetPlace u 48 0 0 0 1 3 0
  else aetDisable { u with pins := { u.pins with syncOut := false, pulseEnd := del u.pins.pulseEnd 8 } } 48

/-- LAC.CTRL stored, and NOMINAL followed. -/
def ctrlFollowed (s : State) (v : Word) : State :=
  if bit (ctrlClean v) 8 = bit (lacCtrl s) 8 then ctrlStored s v else nominalStep (ctrlStored s v)

theorem lacCtrlSet_eq (s : State) (v : Word) : lacCtrlSet s v =
    if fld (ctrlClean v) 0 2 ≠ fld (lacCtrl s) 0 2 ∨
        (fld (ctrlClean v) 4 3 ≠ fld (lacCtrl s) 4 3 ∧ fld (ctrlClean v) 0 2 = 0 ∧ (!mISLAND s) = true) then
      refChange (ctrlFollowed s v)
    else ctrlFollowed s v := rfl

/-- The word 0 of entry 48 and ANG_SYNC_OUT as SYNC_OUT_EN has them (R51); nothing of the tracker changes. -/
theorem ctrlStored_eq (s : State) (v : Word) : ∃ u x y, ctrlStored s v = aetSet u 48 x y ∧ bit x 31 = bit v 10 ∧
    (bit v 10 = false → u.pins.syncOut = false) ∧ u.lac = s.lac ∧ u.clk = s.clk ∧ u.guard = s.guard ∧
    lacCtrl u = ctrlClean v := by
  obtain ⟨u, hu⟩ : ∃ u, u = evIf (decide (fld v 16 8 < 10) || decide (90 < fld v 16 8))
      (wr s (reg pLAC 0x080) (ctrlClean v)) pLAC 8 := ⟨_, rfl⟩
  have hlac : u.lac = s.lac := by rw [hu, evIf_lac, wr_lac]
  have hclk : u.clk = s.clk := by rw [hu, evIf_clk, wr_clk]
  have hguard : u.guard = s.guard := by rw [hu, evIf_guard, wr_guard]
  have hctrl : lacCtrl u = ctrlClean v := by
    unfold lacCtrl
    rw [hu, rd_evIf_other _ _ _ _ (by decide), rd_wr_same]
  unfold ctrlStored
  rw [← hu, ctrlClean_syncOutEn]
  dsimp only
  cases hen : bit v 10
  · refine ⟨{ u with pins := { u.pins with syncOut := false, pulseEnd := del u.pins.pulseEnd 8 } }, _, _, rfl, ?_,
      fun _ => rfl, hlac, hclk, hguard, hctrl⟩
    exact bit_setFld_one (aetW0 u 48) false 31 (by decide)
  · exact ⟨u, _, _, rfl, rfl, fun h => (Bool.noConfusion h), hlac, hclk, hguard, hctrl⟩

section

variable (s : State) (v : Word)

theorem ctrlStored_lac : (ctrlStored s v).lac = s.lac := by
  obtain ⟨u, x, y, heq, -, -, hlac, -, -, -⟩ := ctrlStored_eq s v
  rw [heq, aetSet_lac, hlac]

theorem ctrlStored_clk : (ctrlStored s v).clk = s.clk := by
  obtain ⟨u, x, y, heq, -, -, -, hclk, -, -⟩ := ctrlStored_eq s v
  rw [heq, aetSet_clk, hclk]

theorem lacCtrl_ctrlStored : lacCtrl (ctrlStored s v) = ctrlClean v := by
  obtain ⟨u, x, y, heq, -, -, -, -, -, hctrl⟩ := ctrlStored_eq s v
  rw [heq, ← hctrl]
  exact rd_aetSet_other u x y fun w hw => (aetAddr_ne_reg hw (by decide) (by decide) (by decide)).symm

theorem mISLAND_ctrlStored : mISLAND (ctrlStored s v) = mISLAND s := by
  obtain ⟨u, x, y, heq, -, -, -, -, hguard, -⟩ := ctrlStored_eq s v
  unfold mISLAND
  rw [heq, aetSet_guard, hguard]

/-- SYNC_OUT_EN enables entry 48, and its end ends the pulse. -/
theorem ctrlStored_syncOut : bit (aetW0 (ctrlStored s v) 48) 31 = bit v 10 ∧
    (bit v 10 = false → (ctrlStored s v).pins.syncOut = false) := by
  obtain ⟨u, x, y, heq, hbit, hpin, -, -, -, -⟩ := ctrlStored_eq s v
  rw [heq, aetW0_aetSet_same, aetSet_pins]
  exact ⟨hbit, hpin⟩

theorem nominalStep_lac : (nominalStep s).lac = s.lac := by
  unfold nominalStep
  split
  · exact seek_lac s _
  · rfl

theorem steered_nominalStep : Steered s (nominalStep s) := by
  unfold nominalStep
  split
  · exact steered_seek s _
  · exact .refl s

/-- The tracker follows a change of NOMINAL only where it runs at the nominal frequency. -/
theorem nominalStep_locked {s : State} (hs : s.lac.started = true) (ht : s.lac.track = .locked) : nominalStep s = s := by
  unfold nominalStep
  rw [if_neg (by simp [hs, ht])]

theorem ctrlFollowed_lac : (ctrlFollowed s v).lac = s.lac := by
  rw [← ctrlStored_lac s v]
  unfold ctrlFollowed
  split
  · rfl
  · exact nominalStep_lac _

theorem steered_ctrlFollowed : Steered (ctrlStored s v) (ctrlFollowed s v) := by
  unfold ctrlFollowed
  split
  · exact .refl _
  · exact steered_nominalStep _

theorem ctrlFollowed_locked (hs : s.lac.started = true) (ht : s.lac.track = .locked) : (ctrlFollowed s v).clk = s.clk := by
  have hlac := ctrlStored_lac s v
  unfold ctrlFollowed
  rw [nominalStep_locked (by rw [hlac, hs]) (by rw [hlac, ht]), ite_self, ctrlStored_clk]

theorem steered_lacCtrlSet : Steered (ctrlStored s v) (lacCtrlSet s v) := by
  rw [lacCtrlSet_eq]
  split
  · exact (steered_ctrlFollowed s v).trans (steered_refChange _)
  · exact steered_ctrlFollowed s v

/-- From LOCKED a change of SOURCE is a reference change (R44). -/
theorem lacCtrlSet_source (hs : s.lac.started = true) (ht : s.lac.track = .locked) (hnew : fld v 0 2 ≠ fld (lacCtrl s) 0 2)
    (hsyn : fld v 0 2 ≠ 3) (hisl : ¬ (mISLAND s = true ∧ fld v 0 2 = 0)) :
    (lacCtrlSet s v).lac.track = .acquire ∧ (lacCtrlSet s v).lac.refValid = false ∧
      (lacCtrlSet s v).lac.fly = some s.clk.fabric ∧ (lacCtrlSet s v).clk.target = s.clk.freq := by
  have hsrc : sourceEff (ctrlFollowed s v) ≠ 3 := by
    rw [(steered_ctrlFollowed s v).sourceEff_eq]
    unfold sourceEff sourceOf
    rw [lacCtrl_ctrlStored, mISLAND_ctrlStored, ctrlClean_source, if_neg (by simpa using hisl)]
    exact hsyn
  have hlac := ctrlFollowed_lac s v
  rw [lacCtrlSet_eq, ctrlClean_source, if_pos (.inl hnew), ← ctrlFollowed_locked s v hs ht]
  exact refChange_locked (by rw [hlac, hs]) (by rw [hlac, ht]) hsrc

/-- A write that changes neither SOURCE nor REFCH leaves the tracker. -/
theorem lacCtrlSet_same (hold : fld v 0 7 = fld (lacCtrl s) 0 7) (hch : fld v 4 3 < 6) : (lacCtrlSet s v).lac = s.lac := by
  have hsource : fld v 0 2 = fld (lacCtrl s) 0 2 := by
    unfold fld at hold ⊢
    omega
  have hrefch : fld v 4 3 = fld (lacCtrl s) 4 3 := by
    unfold fld at hold ⊢
    omega
  rw [lacCtrlSet_eq, ctrlClean_source, ctrlClean_refch hch, if_neg (by simp [hsource, hrefch]), ctrlFollowed_lac]

end

theorem sourceEff_congr {s t : State} (hc : lacCtrl t = lacCtrl s) (hg : t.guard = s.guard) : sourceEff t = sourceEff s := by
  unfold sourceEff mISLAND
  rw [hc, hg]

theorem lacCtrl_light {s t : State} (h : Light s t) : lacCtrl t = lacCtrl s := h.rd _ (by decide)

/-- LAC_CTRL_WRITE. -/
theorem lacCtrlWrite_writes {s : State} {i : Init} {v : Word} (h : clear s i (reg pLAC 0x080) v = true) :
    ∃ t, exec (.lacCtrlWrite i v) s = .next t ∧ lacCtrl t = ctrlClean v ∧ bit (aetW0 t 48) 31 = bit v 10 ∧
      (bit v 10 = false → t.pins.syncOut = false) ∧
      (s.lac.started = true → s.lac.track = .locked → fld v 0 2 ≠ fld (lacCtrl s) 0 2 → fld v 0 2 ≠ 3 →
        ¬(mISLAND s = true ∧ fld v 0 2 = 0) →
        t.lac.track = .acquire ∧ t.lac.refValid = false ∧ t.lac.fly = some s.clk.fabric ∧ t.clk.target = s.clk.freq) ∧
      (fld v 0 7 = fld (lacCtrl s) 0 7 → fld v 4 3 < 6 → t.lac = s.lac) := by
  rw [exec_lacCtrlWrite]
  refine row_clear h (by decide) fun s' t hl hd => ?_
  rw [writeEffect_lacCtrl] at hd
  have hst := steered_lacCtrlSet s' v
  have hctrl := lacCtrl_light hl
  have hisl : mISLAND s' = mISLAND s := by unfold mISLAND; rw [hl.guard]
  have hclk : t.clk = (lacCtrlSet s' v).clk := by
    rw [hd.clk, later_of_le]
    rw [hst.acc, ctrlStored_clk, hl.clk]
  obtain ⟨hbit, hpin⟩ := ctrlStored_syncOut s' v
  refine ⟨?_, ?_, fun hoff => ?_, fun hs ht hnew hsyn hno => ?_, fun hold hch => ?_⟩
  · exact (hd.rd _).trans (hst.lacCtrl_eq.trans (lacCtrl_ctrlStored s' v))
  · rw [← hbit]
    exact congrArg (bit · 31) ((hd.rd _).trans (hst.rd _ (by decide)))
  · rw [hd.syncOut, hst.pins]
    exact hpin hoff
  · rw [hd.lac, hclk, ← hl.clk]
    rw [← hl.lac] at hs ht
    rw [← hctrl] at hnew
    rw [← hisl] at hno
    exact lacCtrlSet_source s' v hs ht hnew hsyn hno
  · rw [← hctrl] at hold
    rw [hd.lac, lacCtrlSet_same s' v hold hch, hl.lac]

/-- LAC_NET_SESSION_WRITE. -/
theorem lacNetSessionWrite_writes {s : State} {i : Init} {v : Word} (h : clear s i (reg pLAC 0x0AC) v = true) :
    ∃ t, exec (.lacNetSessionWrite i v) s = .next t ∧ rd t (reg pLAC 0x0AC) = v ∧
      (s.lac.started = true → s.lac.track = .locked → fld (lacCtrl s) 0 2 = 2 → v ≠ rd s (reg pLAC 0x0AC) →
        t.lac.track = .acquire ∧ t.lac.refValid = false) ∧
      ((fld (lacCtrl s) 0 2 ≠ 2 ∨ v = rd s (reg pLAC 0x0AC)) → t.lac = s.lac) := by
  rw [exec_lacNetSessionWrite]
  refine row_clear h (by decide) fun s' t hl hd => ?_
  rw [writeEffect_netSession] at hd
  obtain ⟨u, hu⟩ : ∃ u, u = wr s' (reg pLAC 0x0AC) v := ⟨_, rfl⟩
  have hctrl : lacCtrl u = lacCtrl s := by
    rw [hu]
    exact (rd_wr_other s' v (by decide)).trans (lacCtrl_light hl)
  have hlac : u.lac = s.lac := by rw [hu, wr_lac, hl.lac]
  have heff : netSessionSet s' v = if v ≠ rd s (reg pLAC 0x0AC) ∧ fld (lacCtrl s) 0 2 = 2 then refChange u else u := by
    unfold netSessionSet
    dsimp only
    rw [← hu, hctrl, hl.rd _ (by decide)]
  have hrd : rd (netSessionSet s' v) (reg pLAC 0x0AC) = v := by
    have hstored : rd u (reg pLAC 0x0AC) = v := by rw [hu, rd_wr_same]
    rw [heff]
    split
    · rwa [(steered_refChange u).rd _ (by decide)]
    · exact hstored
  refine ⟨(hd.rd _).trans hrd, fun hs ht hsrc hnew => ?_, fun hno => ?_⟩
  · have hsrcEff : sourceEff u ≠ 3 := by
      unfold sourceEff sourceOf
      rw [hctrl, hsrc]
      simp
    obtain ⟨htrack, hinvalid, -, -⟩ := refChange_locked (by rw [hlac, hs]) (by rw [hlac, ht]) hsrcEff
    rw [hd.lac, heff, if_pos ⟨hnew, hsrc⟩]
    exact ⟨htrack, hinvalid⟩
  · rw [hd.lac, heff, if_neg (by tauto), hlac]

/-- Settles O19: staging and commit of an entry, and the tracker at a change of its reference. -/
theorem millwheelWrites : Obligations.MillwheelWrites := by
  unfold Obligations.MillwheelWrites
  exact fun s i v => ⟨fun n => ⟨aetWord0Stage_stages n, aetEntryCommit_commits n⟩, lacCtrlWrite_writes,
    lacNetSessionWrite_writes⟩

end Sys2Proof.Proofs
end

section
/-!
PROOFS. References lost and regained (chapter 2, R41–R44, R48), as log 28 and 54 read them.
-/

namespace Sys2Proof.Proofs

open Sys2Proof.Machine Sys2Proof.Laws

/-! ### Time passes -/

@[simp] theorem slew_fabric (c : Clock) : c.slew.fabric = c.fabric := by
  unfold Clock.slew
  dsimp only
  repeat' split
  all_goals rfl

theorem run_fabric (c : Clock) (n : Nat) : (c.run n).fabric = c.fabric + n := by simp [Clock.run]

theorem advanceIn_fabric (fuel : Nat) (c : Clock) (n : Nat) : (c.advanceIn fuel n).fabric = c.fabric + n := by
  induction fuel generalizing c n with
  | zero => exact run_fabric c n
  | succ fuel ih =>
    unfold Clock.advanceIn
    dsimp only
    split
    · exact run_fabric c n
    · rename_i hgo
      have hend (d : Clock) : d.endCorr.fabric = d.fabric := rfl
      rw [ih, hend, run_fabric]
      omega

/-- The clock runs on to a fabric cycle. -/
theorem le_untilFabric (c : Clock) (f : Nat) : f ≤ (c.untilFabric f).fabric := by
  have h := advanceIn_fabric 64 c (f - c.fabric)
  unfold Clock.untilFabric Clock.advance
  omega

theorem untilFabric_acc_le (c : Clock) (f : Nat) : c.acc ≤ (c.untilFabric f).acc := advance_acc_le c _

/-- A state ends in the state that `u` is, in all that `lostLock` speaks of. -/
theorem lostLock_congr {t u : State} (hl : t.lac = u.lac) (hc : t.clk = u.clk) (hr : ∀ a, rd t a = rd u a) :
    lostLock t ↔ lostLock u := by
  unfold lostLock rdB
  rw [hl, hc, hr]

/-! ### SYNC_MISSING and NETREF_LOST (R42, R43) -/

theorem exec_syncMissing (s : State) : exec .syncMissing s = finishClock s (syncLost s) := rfl
theorem exec_netrefLost (s : State) : exec .netrefLost s = finishClock s (netLost s) := rfl
theorem exec_referenceInvalid (s : State) : exec .referenceInvalid s = finishClock s (voltInvalid s) := rfl
theorem exec_referenceValid (x : RefSeen) (s : State) : exec (.referenceValid x) s = finishClock s (referenceValid s x) := rfl
theorem exec_syncPulse (rising : Bool) (s : State) : exec (.syncPulse rising) s = finishClock s (syncEdge s rising) := rfl

/-- A reference that its absence makes invalid in LOCKED: FLYWHEEL, and the event that was set on the way stands. -/
theorem lost_at_fabric {s u : State} {b f : Nat} (hb : b < 32) (hsrc : sourceEff s ≠ 3) (hs : s.lac.started = true)
    (ht : s.lac.track = .locked) (hclk : u.clk = s.clk.untilFabric f) (hguard : u.guard = s.guard) (hctrl : lacCtrl u = lacCtrl s)
    (hstarted : u.lac.started = s.lac.started) (htrack : u.lac.track = s.lac.track) :
    ∃ t, finishClock s (refInvalid (ev u pLAC b)) = .next t ∧ lostLock t ∧ rdB t (reg pLAC 0x088) b = true ∧
      f ≤ t.clk.fabric := by
  have hsrc' : sourceEff (ev u pLAC b) ≠ 3 := by
    rw [(steered_ev u hb).sourceEff_eq, sourceEff_congr hctrl hguard]
    exact hsrc
  have hsteer := steered_refInvalid (ev u pLAC b)
  have hacc : s.clk.acc ≤ (refInvalid (ev u pLAC b)).clk.acc := by
    rw [hsteer.acc, ev_clk, hclk]
    exact untilFabric_acc_le _ _
  obtain ⟨t, hnext, hdone, ht', -⟩ := finishClock_forward hacc
  obtain ⟨hlost, -⟩ := lostLock_refInvalid (s := ev u pLAC b) (by rw [ev_lac, hstarted, hs]) hsrc' (by rw [ev_lac, htrack, ht])
  refine ⟨t, hnext, (lostLock_congr hdone.lac ht' hdone.rd).2 hlost, ?_, ?_⟩
  · unfold rdB
    rw [hdone.rd]
    exact hsteer.evt b (rdB_evLac_same u hb)
  · rw [ht', hsteer.fabric, ev_clk, hclk]
    exact le_untilFabric _ _

theorem syncMissing_loses {s : State} (hs : s.lac.started = true) (ht : s.lac.track = .locked) {t0 : Nat} (hsrc : sourceEff s = 1)
    (hat : s.lac.syncAt = some t0) : ∃ t, exec .syncMissing s = .next t ∧ lostLock t ∧
      rdB t (reg pLAC 0x088) 6 = true ∧ t0 + s.lac.syncPer * 5 / 4 ≤ t.clk.fabric := by
  have hop : syncLost s = refInvalid (ev { s with
      clk := s.clk.untilFabric (t0 + s.lac.syncPer * 5 / 4), lac := { s.lac with syncAt := none, syncGood := 0 } } pLAC 6) := by
    unfold syncLost syncInvalid
    rw [hat]
    dsimp only
    rw [if_pos hsrc]
  rw [exec_syncMissing, hop]
  exact lost_at_fabric (by decide) (by rw [hsrc]; decide) hs ht rfl rfl rfl rfl rfl

theorem netrefLost_loses {s : State} (hs : s.lac.started = true) (ht : s.lac.track = .locked) {t0 : Nat} (hsrc : sourceEff s = 2)
    (hat : s.lac.netAt = some t0) : ∃ t, exec .netrefLost s = .next t ∧ lostLock t ∧
      rdB t (reg pLAC 0x088) 7 = true ∧ t0 + Config.fabricHz ≤ t.clk.fabric := by
  have hop : netLost s = refInvalid (ev { s with
      clk := s.clk.untilFabric (t0 + Config.fabricHz), lac := { s.lac with netAt := none, netGood := 0 } } pLAC 7) := by
    unfold netLost
    rw [hat]
    dsimp only
    rw [if_pos hsrc]
  rw [exec_netrefLost, hop]
  exact lost_at_fabric (by decide) (by rw [hsrc]; decide) hs ht rfl rfl rfl rfl rfl

/-! ### REFERENCE_INVALID and REFERENCE_VALID (R41–R44) -/

theorem voltBad_iff (s : State) (x : RefSeen) : voltBad s x = true ↔
    magAbove s x.mag (sagThr s) = false ∨ inLockRange x.freq = false ∨ s.lac.track = .locked ∧ 4096 ≤ x.ph.natAbs := by
  simp [voltBad, or_assoc]

/-- The voltage reference found invalid. -/
theorem referenceInvalid_bad {s : State} (hs : s.lac.started = true) (hsrc : sourceEff s = 0) (hbad : voltBad s s.lac.seen = true) :
    ∃ t, exec .referenceInvalid s = .next t ∧ t.lac.refValid = false ∧
      (s.lac.track = .locked → lostLock t ∧ t.clk.freq = s.clk.freq) := by
  obtain ⟨u, hu⟩ : ∃ u : State, u = { s with lac := { s.lac with sagged := true } } := ⟨_, rfl⟩
  have hsteer : Steered s u := hu ▸ steered_lac s rfl rfl
  have hs' : u.lac.started = true := by rw [hsteer.started, hs]
  have hsrc' : sourceEff u ≠ 3 := by rw [hsteer.sourceEff_eq, hsrc]; decide
  have hop : voltInvalid s = refInvalid u := by
    unfold voltInvalid
    rw [if_neg (by simp [hsrc, hbad]), hu]
  obtain ⟨tr, fl, sv, n, p, l, hlac⟩ := refInvalid_lac hs' hsrc'
  obtain ⟨t, hnext, hdone, hclk, -⟩ := finishClock_forward (s := s) (u := refInvalid u)
    (hsteer.trans (steered_refInvalid u)).acc.ge
  rw [exec_referenceInvalid, hop]
  refine ⟨t, hnext, ?_, fun ht => ?_⟩
  · rw [hdone.lac, hlac]
  · obtain ⟨hlost, hfreq⟩ := lostLock_refInvalid hs' hsrc' (by rw [hu]; exact ht)
    refine ⟨(lostLock_congr hdone.lac hclk hdone.rd).2 hlost, ?_⟩
    rw [hclk, hfreq, hu]

/-- A command whose operation changes nothing leaves the tracker and the clock. -/
theorem finishClock_same (s : State) : ∃ t, finishClock s s = .next t ∧ t.lac = s.lac ∧ t.clk = s.clk := by
  obtain ⟨t, hnext, hdone, hclk, -⟩ := finishClock_forward (s := s) (le_refl _)
  exact ⟨t, hnext, hdone.lac, hclk⟩

/-- The voltage reference stands. -/
theorem referenceInvalid_good {s : State} (hbad : voltBad s s.lac.seen = false) :
    ∃ t, exec .referenceInvalid s = .next t ∧ t.lac = s.lac ∧ t.clk = s.clk := by
  have hop : voltInvalid s = s := by
    unfold voltInvalid
    rw [if_pos (by simp [hbad])]
  rw [exec_referenceInvalid, hop]
  exact finishClock_same s

/-- The reference in use meets the condition of its kind. -/
def refMeets (s : State) (x : RefSeen) : Bool :=
  if sourceEff s = 0 then magAbove s x.mag (sagThr s + if s.lac.sagged then 5 else 0) && inLockRange x.freq
  else if sourceEff s = 1 then decide (2 ≤ s.lac.syncGood) && inLockRange x.freq
  else decide (2 ≤ s.lac.netGood)

/-- The state in which a reference that meets its condition is taken up. -/
def refMet (s : State) (x : RefSeen) : State :=
  { s with lac := { s.lac with sagged := s.lac.sagged && sourceEff s != 0, seen := x } }

theorem referenceValid_eq (s : State) (x : RefSeen) :
    referenceValid s x = if refMeets s x = true then refValid (refMet s x) x.freq x.ph else s := by
  unfold referenceValid
  change (if (!refMeets s x) = true then s else refValid (refMet s x) x.freq x.ph) = _
  cases refMeets s x <;> rfl

theorem referenceValid_met {s : State} {x : RefSeen} (hs : s.lac.started = true) (hsrc : sourceEff s ≠ 3)
    (hok : refMeets s x = true) : ∃ t, exec (.referenceValid x) s = .next t ∧ t.lac.refValid = true ∧
      (s.lac.track = .flywheel ∨ s.lac.track = .synthetic → t.lac.track = .acquire ∧ t.clk.freq = s.clk.freq ∧
        (sourceEff s = 0 → t.lac.refch = fld (lacCtrl s) 4 3)) ∧
      (s.lac.track = .acquire → t.lac.track = .acquire ∧ t.clk.target = x.freq * 1000) ∧
      (s.lac.track = .locked → t.lac.track = .locked ∧ t.clk.target = Config.steer x.freq x.ph) := by
  have hsteer : Steered s (refMet s x) := steered_lac s rfl rfl
  have hs' : (refMet s x).lac.started = true := hs
  have hsrc' : sourceEff (refMet s x) ≠ 3 := by rwa [hsteer.sourceEff_eq]
  obtain ⟨tr, fr, rc, sg, p, l, hlac⟩ := refValid_lac x.freq x.ph hs' hsrc'
  obtain ⟨t, hnext, hdone, hclk, -⟩ := finishClock_forward (s := s) (u := refValid (refMet s x) x.freq x.ph)
    (hsteer.trans (steered_refValid x.freq x.ph hs' hsrc')).acc.ge
  rw [exec_referenceValid, referenceValid_eq, if_pos hok]
  refine ⟨t, hnext, ?_, fun ht => ?_, fun ht => ?_, fun ht => ?_⟩
  · rw [hdone.lac, hlac]
    rfl
  · rw [hdone.lac, hclk, ← hsteer.sourceEff_eq, ← hsteer.lacCtrl_eq]
    exact refValid_acquires x.freq x.ph hs' hsrc' ht
  · rw [hdone.lac, hclk, refValid_acquire x.freq x.ph hs' hsrc' ht]
    exact ⟨ht, seek_target _ _⟩
  · rw [hdone.lac, hclk, refValid_locked x.freq x.ph hs' hsrc' ht]
    exact ⟨ht, seek_target _ _⟩

theorem referenceValid_unmet {s : State} {x : RefSeen} (hok : refMeets s x = false) :
    ∃ t, exec (.referenceValid x) s = .next t ∧ t.lac = s.lac ∧ t.clk = s.clk := by
  rw [exec_referenceValid, referenceValid_eq, hok, if_neg Bool.false_ne_true]
  exact finishClock_same s

/-! ### SYNC_PULSE (R42) -/

/-- The time of an edge at the pin, reduced by IN_COMP. -/
def edgeAt (s : State) : Nat := s.clk.fabric - rdF s (reg pLAC 0x0A8) 8 8 * 4

/-- A pulse comes at a rate within the lock range after the one before it. -/
def pulseGood (s : State) (t0 : Nat) : Bool :=
  decide (Config.fabricHz ≤ (edgeAt s - t0) * 69) && decide ((edgeAt s - t0) * 85 ≤ Config.fabricHz * 2)

/-- The state that has noted a pulse. -/
def pulseNoted (s : State) (good : Bool) : State := { s with lac := { s.lac with
  syncAt := some (edgeAt s), syncPer := heldPeriod s, syncGood := if good then s.lac.syncGood + 1 else 0 } }

theorem steered_pulseNoted (s : State) (good : Bool) : Steered s (pulseNoted s good) := steered_lac s rfl rfl

section

variable {s : State} {rising : Bool} {t0 : Nat} (hs : s.lac.started = true) (hsrc : sourceEff s = 1)
  (hrise : rising = !bit (lacCtrl s) 11) (hat : s.lac.syncAt = some t0)

include hsrc hrise hat

theorem syncEdge_good (hgood : pulseGood s t0 = true) : syncEdge s rising =
    if 1 ≤ s.lac.syncGood then
      refValid (pulseNoted s true) (Config.fabricHz * 1000 / (edgeAt s - t0)) (pinError s (rdF s (reg pLAC 0x0A8) 8 8 * 4))
    else pulseNoted s true := by
  have hcond : (sourceEff s = 1 ∧ 2 ≤ (pulseNoted s true).lac.syncGood) ↔ 1 ≤ s.lac.syncGood := by
    simp [hsrc, pulseNoted]
  unfold syncEdge
  rw [if_neg (by rw [hrise]; cases bit (lacCtrl s) 11 <;> decide), hat]
  change (if pulseGood s t0 = true then
    if sourceEff s = 1 ∧ 2 ≤ (pulseNoted s (pulseGood s t0)).lac.syncGood then
      refValid (pulseNoted s (pulseGood s t0)) (Config.fabricHz * 1000 / (edgeAt s - t0))
        (pinError s (rdF s (reg pLAC 0x0A8) 8 8 * 4))
    else pulseNoted s (pulseGood s t0)
    else _) = _
  rw [hgood, if_pos rfl, if_congr hcond rfl rfl]

theorem syncEdge_bad (hbad : pulseGood s t0 = false) : syncEdge s rising =
    if s.lac.refValid = true then syncInvalid (pulseNoted s false) else pulseNoted s false := by
  unfold syncEdge
  rw [if_neg (by rw [hrise]; cases bit (lacCtrl s) 11 <;> decide), hat]
  change (if pulseGood s t0 = true then _ else
    if sourceEff s = 1 ∧ s.lac.refValid = true then syncInvalid (pulseNoted s (pulseGood s t0))
    else pulseNoted s (pulseGood s t0)) = _
  rw [hbad, if_neg Bool.false_ne_true, hsrc]
  simp

include hs

/-- A pulse within the lock range: the second in a row makes the reference valid. -/
theorem syncPulse_good (hgood : pulseGood s t0 = true) : ∃ t, exec (.syncPulse rising) s = .next t ∧
    t.lac.syncAt = some (edgeAt s) ∧ t.lac.syncGood = s.lac.syncGood + 1 ∧
    (1 ≤ s.lac.syncGood → t.lac.refValid = true) := by
  have hsteer := steered_pulseNoted s true
  have hsrc' : sourceEff (pulseNoted s true) ≠ 3 := by rw [hsteer.sourceEff_eq, hsrc]; decide
  obtain ⟨t, hnext, hdone, -⟩ := finishClock_done s (syncEdge s rising)
  rw [exec_syncPulse]
  refine ⟨t, hnext, ?_⟩
  rw [hdone.lac, syncEdge_good hsrc hrise hat hgood]
  split
  · obtain ⟨tr, fr, rc, sg, p, l, hlac⟩ := refValid_lac (Config.fabricHz * 1000 / (edgeAt s - t0))
      (pinError s (rdF s (reg pLAC 0x0A8) 8 8 * 4)) (s := pulseNoted s true) hs hsrc'
    rw [hlac]
    exact ⟨rfl, rfl, fun _ => rfl⟩
  · rename_i hfirst
    exact ⟨rfl, rfl, fun h => absurd h hfirst⟩

/-- A pulse at another rate makes the reference invalid, and is itself the first of the next. -/
theorem syncPulse_bad (hbad : pulseGood s t0 = false) : ∃ t, exec (.syncPulse rising) s = .next t ∧
    t.lac.syncAt = some (edgeAt s) ∧ t.lac.syncGood = 0 ∧ t.lac.refValid = false := by
  obtain ⟨t, hnext, hdone, -⟩ := finishClock_done s (syncEdge s rising)
  rw [exec_syncPulse]
  refine ⟨t, hnext, ?_⟩
  rw [hdone.lac, syncEdge_bad hsrc hrise hat hbad]
  split
  · obtain ⟨u, hu⟩ : ∃ u : State, u = ev { pulseNoted s false with
        lac := { (pulseNoted s false).lac with syncGood := 0 } } pLAC 6 := ⟨_, rfl⟩
    have hulac : u.lac = (pulseNoted s false).lac := by rw [hu, ev_lac]; rfl
    have hsteer : Steered s u := by
      rw [hu]
      exact .trans (.trans (steered_pulseNoted s false) (steered_lac _ rfl rfl)) (steered_ev _ (by decide))
    obtain ⟨tr, fl, sv, n, p, l, hlac⟩ := refInvalid_lac (s := u) (by rw [hulac]; exact hs)
      (by rw [hsteer.sourceEff_eq, hsrc]; decide)
    have hop : syncInvalid (pulseNoted s false) = refInvalid u := by rw [hu]; rfl
    rw [hop, hlac, hulac]
    exact ⟨rfl, rfl, rfl⟩
  · rename_i hinvalid
    exact ⟨rfl, rfl, Bool.eq_false_iff.2 hinvalid⟩

end

/-- Settles O20: how each reference of the tracker is lost, and how it is taken up again. -/
theorem referencesComeAndGo : Obligations.ReferencesComeAndGo := by
  unfold Obligations.ReferencesComeAndGo
  intro s hs
  refine ⟨fun ht => ⟨fun t0 => syncMissing_loses hs ht, fun t0 => netrefLost_loses hs ht⟩, ?_, ?_, ?_⟩
  · rintro x rfl hsrc
    refine ⟨fun hbad => referenceInvalid_bad hs hsrc ((voltBad_iff s _).2 hbad), fun hmag hfreq hph =>
      referenceInvalid_good ?_⟩
    rw [← Bool.not_eq_true, voltBad_iff]
    rintro (h | h | ⟨htrack, h⟩)
    · rw [hmag] at h
      cases h
    · rw [hfreq] at h
      cases h
    · rcases hph with hph | hph
      · exact hph htrack
      · omega
  · rintro mag f ph hsrc ok hok
    exact ⟨fun h => referenceValid_met (x := ⟨mag, f, ph⟩) hs hsrc (hok.symm.trans h),
      fun h => referenceValid_unmet (x := ⟨mag, f, ph⟩) (hok.symm.trans h)⟩
  · rintro rising t0 d hsrc hrise hat rfl
    cases hgood : pulseGood s t0
    · obtain ⟨t, hnext, hnoted, hzero, hinvalid⟩ := syncPulse_bad hs hsrc hrise hat hgood
      refine ⟨t, hnext, hnoted, fun h1 h2 => ?_, fun _ => ⟨hzero, hinvalid⟩⟩
      have : pulseGood s t0 = true := by
        unfold pulseGood edgeAt
        simp [h1, h2]
      rw [hgood] at this
      cases this
    · obtain ⟨t, hnext, hnoted, hmore, hvalid⟩ := syncPulse_good hs hsrc hrise hat hgood
      refine ⟨t, hnext, hnoted, fun _ _ => ⟨hmore, hvalid⟩, fun h => ?_⟩
      unfold pulseGood edgeAt at hgood
      simp only [Bool.and_eq_true, decide_eq_true_eq] at hgood
      omega

end Sys2Proof.Proofs
end

section
/-!
PROOFS. The actions of the angle event table (chapter 2, R45, R51–R53, R55): which entries are due at a position, and what the
first eight leave.
-/

namespace Sys2Proof.Proofs

open Sys2Proof.Machine Sys2Proof.Laws

/-! ### Which entries are due (R52, R53) -/

theorem mem_aetOrder {l : List Fire} {f : Fire} : f ∈ aetOrder l ↔ f ∈ l := by
  unfold aetOrder
  rw [List.mem_append, List.mem_filter, List.mem_filter, ← and_or_left]
  refine and_iff_left ?_
  cases hc : fld f.w0 28 3 == 0 <;> simp [bne, hc]

theorem mem_aetAll {n : Nat} : n ∈ aetAll ↔ n < 512 := List.mem_range

/-- An entry's action at a position, as the entry stood when it was reached. -/
def fireAt (s : State) (pos n : Nat) : Fire := ⟨n, pos, false, aetWas s n 0 pos, aetWas s n 1 pos⟩

theorem mem_aetDue {s : State} {pos : Nat} {f : Fire} :
    f ∈ aetDue s pos ↔ w0Matches f.w0 pos = true ∧ ∃ n < 512, f = fireAt s pos n := by
  unfold aetDue
  rw [mem_aetOrder, List.mem_filter, List.mem_map]
  constructor
  · rintro ⟨⟨n, hn, rfl⟩, hmatch⟩
    exact ⟨hmatch, n, mem_aetAll.1 hn, rfl⟩
  · rintro ⟨hmatch, n, hn, rfl⟩
    exact ⟨⟨n, mem_aetAll.2 hn, rfl⟩, hmatch⟩

/-- Word 0 of an entry matches cycle `c` at angle `φ`. -/
theorem w0Matches_iff (w : Word) {c φ : Nat} (hφ : φ < 65536) : w0Matches w (c * 65536 + φ) = true ↔
    bit w 31 = true ∧ fld w 0 16 = φ ∧ c % 2 ^ min 8 (fld w 24 4) = fld w 16 8 % 2 ^ min 8 (fld w 24 4) := by
  have hangle : angleOf (c * 65536 + φ) = φ := by unfold angleOf; omega
  have hcycle : cycleOf (c * 65536 + φ) = c := by unfold cycleOf; omega
  unfold w0Matches
  rw [hangle, hcycle]
  simp [and_assoc]

theorem aetDue_congr {s t : State} (hp : t.past = s.past) (hr : ∀ a, rd t a = rd s a) (pos : Nat) :
    aetDue t pos = aetDue s pos := by
  unfold aetDue
  simp only [fun n w => aetWas_congr hp n w pos (hr (aetAddr n w))]

/-! ### What the actions of a user keep (R51, R361, R386) -/

/-- One state is another after actions of a user: the clock, the tracker and the modes stand, the pages of PROT and the header of
LAC too, and a source once latched and a pulse once begun stand. -/
structure Acts (s t : State) : Prop where
  clk : t.clk = s.clk
  lac : t.lac = s.lac
  guard : t.guard = s.guard
  toll : t.toll = s.toll
  prot : ∀ o < 4096, rd t (reg pPROT o) = rd s (reg pPROT o)
  header : ∀ o < 0x080, rd t (reg pLAC o) = rd s (reg pLAC o)
  latch : ∀ k < 8, ∀ j, rdB s (reg pINTC (0x080 + 4 * k)) j = true → rdB t (reg pINTC (0x080 + 4 * k)) j = true
  pulse : ∀ n, s.pins.gpioPulse.getLsbD n = true → t.pins.gpioPulse.getLsbD n = true
  sync : s.pins.syncOut = true → t.pins.syncOut = true

theorem Acts.refl (s : State) : Acts s s :=
  ⟨rfl, rfl, rfl, rfl, fun _ _ => rfl, fun _ _ => rfl, fun _ _ _ h => h, fun _ h => h, fun h => h⟩

theorem Acts.trans {s t u : State} (h : Acts s t) (k : Acts t u) : Acts s u where
  clk := k.clk.trans h.clk
  lac := k.lac.trans h.lac
  guard := k.guard.trans h.guard
  toll := k.toll.trans h.toll
  prot := fun o ho => (k.prot o ho).trans (h.prot o ho)
  header := fun o ho => (k.header o ho).trans (h.header o ho)
  latch := fun n hn j hj => k.latch n hn j (h.latch n hn j hj)
  pulse := fun n hn => k.pulse n (h.pulse n hn)
  sync := fun hs => k.sync (h.sync hs)

theorem Acts.gpioOutput_eq {s t : State} (h : Acts s t) (n : Nat) : gpioOutput t n = gpioOutput s n := by
  unfold gpioOutput rdB
  rw [h.prot _ (by decide), h.prot _ (by decide)]

theorem Acts.corMode_eq {s t : State} (h : Acts s t) : corMode t pLAC = corMode s pLAC := by
  unfold corMode mCOMM mLOCK fenced rdB
  rw [h.guard, h.header _ (by decide)]

/-- The pins alone change, to more pulses. -/
theorem acts_pins (s : State) {p : Pins} (hg : ∀ n, s.pins.gpioPulse.getLsbD n = true → p.gpioPulse.getLsbD n = true)
    (hs : s.pins.syncOut = true → p.syncOut = true) : Acts s { s with pins := p } :=
  ⟨rfl, rfl, rfl, rfl, fun _ _ => rfl, fun _ _ => rfl, fun _ _ _ h => h, hg, hs⟩

/-- A register outside PROT, INTC and the header of LAC changes. -/
theorem acts_wr (s : State) {p o : Nat} (v : Word) (ho : o < 4096) (hprot : p ≠ pPROT) (hintc : p ≠ pINTC)
    (hlac : p = pLAC → 0x080 ≤ o) : Acts s (wr s (reg p o) v) where
  clk := rfl
  lac := rfl
  guard := rfl
  toll := rfl
  prot := fun n hn => rd_wr_other s v (reg_ne_of_page hprot.symm hn ho)
  header := fun n hn => by
    refine rd_wr_other s v fun e => ?_
    by_cases hp : p = pLAC
    · have := hlac hp
      unfold reg at e
      omega
    · exact reg_ne_of_page (Ne.symm hp) (by omega) ho e
  latch := fun k hk j hj => by
    unfold rdB at hj ⊢
    rwa [rd_wr_other s v (reg_ne_of_page hintc.symm (by omega) ho)]
  pulse := fun _ h => h
  sync := fun h => h

theorem acts_evLac (s : State) (b : Nat) : Acts s (ev s pLAC b) := by
  have hother {p o : Nat} (ho : o < 4096) (hp : p ≠ pLAC) : rd (ev s pLAC b) (reg p o) = rd s (reg p o) :=
    rd_evLac_other s b (reg_ne_of_page hp ho (by decide))
  refine ⟨ev_clk s _ _, ev_lac s _ _, ev_guard s _ _, ev_toll s _ _, fun o ho => hother ho (by decide), fun o ho => ?_,
    fun k hk j hj => ?_, fun n hn => by rwa [ev_pins], fun h => by rwa [ev_pins]⟩
  · exact rd_evLac_other s b (by unfold reg; omega)
  · unfold rdB at hj ⊢
    rwa [hother (by omega) (by decide)]

theorem rdB_setBits_mono (s : State) (a : Nat) (v : Word) {b j : Nat} (h : rdB s b j = true) :
    rdB (setBits s a v) b j = true := by
  unfold rdB at h ⊢
  by_cases e : b = a
  · rw [e] at h ⊢
    rw [rd_setBits_same, bit_or, h, Bool.true_or]
  · rwa [rd_setBits_other _ _ e]

/-! ### RAISE, PULSE_GPIO and SYNC_OUT -/

theorem acts_raiseSrc (s : State) {n : Nat} (hn : n < 128) : Acts s (raiseSrc s n) where
  clk := rfl
  lac := rfl
  guard := rfl
  toll := rfl
  prot := fun o ho => rd_setBits_other _ _ (reg_ne_of_page (by decide) ho (by omega))
  header := fun o ho => rd_setBits_other _ _ (reg_ne_of_page (by decide) (by omega) (by omega))
  latch := fun k _ j hj => rdB_setBits_mono s _ _ hj
  pulse := fun _ h => h
  sync := fun h => h

theorem rdB_raiseSrc (s : State) (n : Nat) :
    rdB (raiseSrc s n) (reg pINTC (0x080 + 4 * ((128 + n) / 32))) ((128 + n) % 32) = true := by
  unfold raiseSrc rdB
  rw [rd_setBits_same, bit_or, bit_w32_pow _ (Nat.mod_lt _ (by decide)), decide_eq_true rfl, Bool.or_true]

theorem acts_pulseStart (s : State) {n : Nat} (us : Nat) (hn : n < 8) : Acts s (pulseStart s (n + 1) us) := by
  unfold pulseStart
  split
  · refine acts_pins s (fun j hj => ?_) id
    show (ch8 s.pins.gpioPulse (n + 1) true).getLsbD j = true
    rw [getLsbD_ch8 _ _ _ hn, hj, ite_self]
  · exact .refl s

theorem gpioPulse_pulseStart (s : State) {n : Nat} (us : Nat) (hn : n < 8) (hout : gpioOutput s (n + 1) = true) :
    (pulseStart s (n + 1) us).pins.gpioPulse.getLsbD n = true := by
  unfold pulseStart
  rw [if_pos hout]
  show (ch8 s.pins.gpioPulse (n + 1) true).getLsbD n = true
  rw [getLsbD_ch8 _ _ _ hn, if_pos rfl]

theorem acts_syncStart (s : State) : Acts s (syncStart s) := acts_pins s (fun _ h => h) fun _ => rfl

/-- An action of a user by its code. -/
def userDo (s : State) (code target : Nat) : State :=
  if code = 1 then raiseSrc s (target % 128)
  else if code = 2 then pulseStart s (target % 8 + 1) (target / 256 + 1)
  else if code = 3 then syncStart s
  else s

/-- No other code than those of users stands behind a user action. -/
theorem actionDo_user (s : State) (f : Fire) {code : Nat} (target : Nat) (h : code ≤ 3 ∨ 12 < code) :
    actionDo s f code target = userDo s code target := by
  rcases h with h | h
  · interval_cases code <;> rfl
  · obtain ⟨n, rfl⟩ := Nat.exists_eq_add_of_lt h
    unfold userDo
    rw [if_neg (by omega), if_neg (by omega), if_neg (by omega), Nat.add_right_comm, Nat.add_comm _ n]
    rfl

theorem acts_userDo (s : State) (code target : Nat) : Acts s (userDo s code target) := by
  unfold userDo
  split
  · exact acts_raiseSrc s (Nat.mod_lt _ (by decide))
  · split
    · exact acts_pulseStart s _ (Nat.mod_lt _ (by decide))
    · split
      · exact acts_syncStart s
      · exact .refl s

theorem rd_userDo_lac (s : State) (code target : Nat) {o : Nat} (ho : o < 4096) :
    rd (userDo s code target) (reg pLAC o) = rd s (reg pLAC o) := by
  unfold userDo
  split
  · exact rd_setBits_other _ _ (reg_ne_of_page (by decide) ho (by omega))
  · split
    · unfold pulseStart
      split <;> rfl
    · split <;> rfl

/-! ### An action that fires (R49, R50, R56) -/

/-- What an action that fires counts and records before its effect. -/
def fireNoted (s : State) (f : Fire) : State :=
  if f.late then
    ev (bump (wrB (bump s (reg pLAC 0x0A0)) (reg (pAET + f.entry / 256) (0x080 + 4 * (f.entry % 256 / 32))) (f.entry % 32) true)
      (reg pLAC 0x0A4)) pLAC 5
  else bump s (reg pLAC 0x0A0)

theorem acts_fireNoted (s : State) (f : Fire) : Acts s (fireNoted s f) := by
  have hcount : Acts s (bump s (reg pLAC 0x0A0)) :=
    acts_wr s _ (by decide) (by decide) (by decide) fun _ => by decide
  unfold fireNoted
  split
  · have hmark := acts_wr (bump s (reg pLAC 0x0A0)) (p := pAET + f.entry / 256) (o := 0x080 + 4 * (f.entry % 256 / 32))
      (setFld (rd (bump s (reg pLAC 0x0A0)) (reg (pAET + f.entry / 256) (0x080 + 4 * (f.entry % 256 / 32)))) (f.entry % 32) 1
        (b2n true)) (by omega) (by unfold pAET pPROT; omega) (by unfold pAET pINTC; omega) fun _ => by omega
    refine .trans (.trans (hcount.trans hmark) ?_) (acts_evLac _ 5)
    exact acts_wr _ _ (by decide) (by decide) (by decide) fun _ => by decide
  · exact hcount

/-- Every action that fires is counted once. -/
theorem rd_fireNoted (s : State) (f : Fire) : rd (fireNoted s f) (reg pLAC 0x0A0) =
    w32 (countUp (corMode s pLAC) 32 (rd s (reg pLAC 0x0A0)).toNat 1) := by
  have hpage : statPage (reg pLAC 0x0A0) = pLAC := by decide
  have hbump : rd (bump s (reg pLAC 0x0A0)) (reg pLAC 0x0A0) =
      w32 (countUp (corMode s pLAC) 32 (rd s (reg pLAC 0x0A0)).toNat 1) := by
    unfold bump bumpBy
    rw [rd_wr_same, hpage]
  unfold fireNoted
  split
  · rw [rd_evLac_other _ _ (by decide), rd_bump_other _ (by decide),
      rd_wrB_other _ _ _ (reg_ne_of_page (by unfold pAET pLAC; omega) (by decide) (by omega)), hbump]
  · exact hbump

/-- Nothing is settled where TOLL's accounts are the same. -/
theorem budgetSettle_same {s t : State} (h : t.toll = s.toll) : budgetSettle s t = t := by
  have hnone : (t.toll.faulted.filter fun k => !s.toll.faulted.contains k) = [] := by
    rw [h]
    exact List.filter_eq_nil_iff.2 fun k hk => by simp [hk]
  unfold budgetSettle
  rw [hnone]
  rfl

/-- A user action that fires, in sleep and out of it (R365). -/
theorem fireOne_user (s : State) {f : Fire} (tick : Bool) (h : userFire f = true) :
    fireOne s f tick = userDo (fireNoted s f) (fld f.w1 0 8) (fld f.w1 8 16) := by
  have hcode : fld f.w1 0 8 ≤ 3 ∨ 12 < fld f.w1 0 8 := by simpa [userFire] using h
  have hsettle : budgetSettle (fireNoted s f) (userDo (fireNoted s f) (fld f.w1 0 8) (fld f.w1 8 16)) =
      userDo (fireNoted s f) (fld f.w1 0 8) (fld f.w1 8 16) := budgetSettle_same (acts_userDo _ _ _).toll
  unfold fireOne
  change (if ((fireNoted s f).guard.asleep = true ∧ (!actsAsleep (fld f.w1 0 8)) = true) ∨ (tick = true ∧ fld f.w1 0 8 = 10)
    then fireNoted s f else budgetSettle (fireNoted s f) (actionDo (fireNoted s f) f (fld f.w1 0 8) (fld f.w1 8 16))) = _
  rw [actionDo_user _ _ _ hcode, hsettle]
  split
  · rename_i hidle
    have hno : fld f.w1 0 8 ≠ 1 ∧ fld f.w1 0 8 ≠ 2 ∧ fld f.w1 0 8 ≠ 3 := by
      rcases hidle with ⟨-, hidle⟩ | ⟨-, hidle⟩
      · simpa [actsAsleep] using hidle
      · omega
    obtain ⟨h1, h2, h3⟩ := hno
    unfold userDo
    rw [if_neg h1, if_neg h2, if_neg h3]
  · rfl

theorem acts_fireOne {s : State} {f : Fire} (tick : Bool) (h : userFire f = true) : Acts s (fireOne s f tick) := by
  rw [fireOne_user s tick h]
  exact (acts_fireNoted s f).trans (acts_userDo _ _ _)

/-- A latched source from 128 on is pending. -/
theorem srcPending_of_latch {s : State} {n : Nat} (h : rdB s (reg pINTC (0x080 + 4 * (n / 32))) (n % 32) = true) :
    srcPending s n = true := by
  unfold srcPending
  rw [h, Bool.true_or]

/-- What a user action leaves that has fired, by the latch of its source. -/
theorem fired_fireOne {s : State} {f : Fire} (tick : Bool) (h : userFire f = true) : fired s (fireOne s f tick) f := by
  rw [fireOne_user s tick h]
  unfold fired
  refine ⟨fun h1 => ?_, fun h2 hout => ?_, fun h3 => ?_⟩
  · unfold userDo
    rw [if_pos h1]
    exact srcPending_of_latch (rdB_raiseSrc _ _)
  · unfold userDo
    rw [if_neg (by omega), if_pos h2]
    rw [← (acts_fireNoted s f).gpioOutput_eq] at hout
    exact gpioPulse_pulseStart _ _ (Nat.mod_lt _ (by decide)) hout
  · unfold userDo
    rw [if_neg (by omega), if_neg (by omega), if_pos h3]
    rfl

/-- What has fired stands over later actions. -/
theorem fired_acts {s t u : State} {f : Fire} (h : fired s t f) (k : Acts t u) : fired s u f := by
  obtain ⟨hraise, hpulse, hsync⟩ := h
  refine ⟨fun h1 => ?_, fun h2 hout => k.pulse _ (hpulse h2 hout), fun h3 => k.sync (hsync h3)⟩
  have hlt : ¬ 128 + fld f.w1 8 16 % 128 < 128 := by omega
  have hpend := hraise h1
  unfold srcPending at hpend
  rw [decide_eq_false hlt, Bool.false_and, Bool.or_false] at hpend
  exact srcPending_of_latch (k.latch _ (by omega) _ hpend)

theorem fired_congr {s t u : State} {f : Fire} (h : fired t u f) (k : Acts s t) : fired s u f := by
  obtain ⟨hraise, hpulse, hsync⟩ := h
  exact ⟨hraise, fun h2 hout => hpulse h2 (by rwa [k.gpioOutput_eq]), hsync⟩

/-! ### The actions of a fabric cycle (R55) -/

/-- The count of `k + 1` events is that of one and then of `k`. -/
theorem countUp_succ (cor : Bool) (v k : Nat) :
    countUp cor 32 (w32 (countUp cor 32 v 1)).toNat k = countUp cor 32 v (k + 1) := by
  unfold countUp w32
  rw [BitVec.toNat_ofNat]
  cases cor
  · simp only [Bool.false_eq_true, if_false]
    omega
  · simp only [if_true]
    omega

theorem countUp_zero (cor : Bool) (w : Word) : countUp cor 32 w.toNat 0 = w.toNat := by
  have := w.isLt
  unfold countUp
  cases cor
  · simp only [Bool.false_eq_true, if_false]
    omega
  · simp only [if_true]
    omega

/-- User actions that fire on a fabric cycle: each is counted, and what each leaves stands. -/
theorem fireAll_user {l : List Fire} {s : State} (tick : Bool) (h : ∀ f ∈ l, userFire f = true) :
    Acts s (fireAll s tick l) ∧
      (rd (fireAll s tick l) (reg pLAC 0x0A0)).toNat = countUp (corMode s pLAC) 32 (rd s (reg pLAC 0x0A0)).toNat l.length ∧
      ∀ f ∈ l, fired s (fireAll s tick l) f := by
  induction l generalizing s tick with
  | nil => exact ⟨.refl s, (countUp_zero _ _).symm, fun f hf => absurd hf List.not_mem_nil⟩
  | cons f fs ih =>
    have hf : userFire f = true := h f List.mem_cons_self
    have hacts := acts_fireOne (s := s) tick hf
    obtain ⟨iacts, icount, ifired⟩ := ih (s := fireOne s f tick) (tick || fld f.w1 0 8 == 10)
      fun g hg => h g (List.mem_cons_of_mem _ hg)
    have hcount : rd (fireOne s f tick) (reg pLAC 0x0A0) =
        w32 (countUp (corMode s pLAC) 32 (rd s (reg pLAC 0x0A0)).toNat 1) := by
      rw [fireOne_user s tick hf, rd_userDo_lac _ _ _ (by decide), rd_fireNoted]
    unfold fireAll
    refine ⟨hacts.trans iacts, ?_, fun g hg => ?_⟩
    · rw [icount, hcount, hacts.corMode_eq, countUp_succ, List.length_cons]
    · rcases List.mem_cons.1 hg with rfl | hg
      · exact fired_acts (fired_fireOne tick hf) iacts
      · exact fired_congr (ifired g hg) hacts

theorem exec_angleEventFire (pos : Nat) (s : State) : exec (.angleEventFire pos) s = finishClock s (positionFire s pos) := rfl
theorem exec_angleEventDeferredFire (s : State) : exec .angleEventDeferredFire s = finishClock s (deferredFire s) := rfl

/-- Where a command ends as a user action has left its pins and registers, it has fired. -/
theorem fired_done {s u t : State} {f : Fire} (hd : Done s u t) (h : fired s u f) : fired s t f := by
  obtain ⟨hraise, hpulse, hsync⟩ := h
  refine ⟨fun h1 => ?_, fun h2 hout => by rw [hd.gpioPulse]; exact hpulse h2 hout, fun h3 => by rw [hd.syncOut]; exact hsync h3⟩
  rw [← hraise h1]
  unfold srcPending pageReq irqPend rdB
  simp only [hd.rd]

/-- The first eight user actions fire, and the rest is deferred. -/
theorem fireEight_user {s u : State} {l : List Fire} (hr : ∀ a, rd u a = rd s a) (hg : u.guard = s.guard)
    (h : ∀ f ∈ l.take 8, userFire f = true) :
    (fireEight u l).clk = u.clk ∧ (fireEight u l).lac = { u.lac with deferred := l.drop 8 } ∧
      (rd (fireEight u l) (reg pLAC 0x0A0)).toNat =
        countUp (corMode s pLAC) 32 (rd s (reg pLAC 0x0A0)).toNat (min 8 l.length) ∧
      ∀ f ∈ l.take 8, fired s (fireEight u l) f := by
  obtain ⟨v, hv⟩ : ∃ v : State, v = { u with lac := { u.lac with deferred := l.drop 8 } } := ⟨_, rfl⟩
  have hrd (a : Nat) : rd v a = rd s a := by rw [hv, rd_with_lac, hr]
  have hguard : v.guard = s.guard := by rw [hv]; exact hg
  have hcor : corMode v pLAC = corMode s pLAC := by
    unfold corMode mCOMM mLOCK fenced rdB
    rw [hguard, hrd]
  obtain ⟨hacts, hcount, hfired⟩ := fireAll_user (s := v) false h
  rw [hcor, hrd, List.length_take] at hcount
  unfold fireEight
  rw [← hv]
  refine ⟨hacts.clk.trans (by rw [hv]), hacts.lac.trans (by rw [hv]), hcount, fun f hf => ?_⟩
  obtain ⟨hraise, hpulse, hsync⟩ := hfired f hf
  refine ⟨hraise, fun h2 hout => hpulse h2 ?_, hsync⟩
  unfold gpioOutput rdB at hout ⊢
  rwa [hrd, hrd]

/-- The positions up to `pos` are evaluated. -/
def evalAt (s : State) (pos : Nat) : State := { s with lac := { s.lac with evald := pos } }

theorem evalAt_lac (s : State) (pos : Nat) : (evalAt s pos).lac = { s.lac with evald := pos } := rfl
theorem evalAt_clk (s : State) (pos : Nat) : (evalAt s pos).clk = s.clk := rfl
theorem evalAt_guard (s : State) (pos : Nat) : (evalAt s pos).guard = s.guard := rfl
theorem rd_evalAt (s : State) (pos a : Nat) : rd (evalAt s pos) a = rd s a := rfl

/-- ANGLE_EVENT_FIRE at a position not yet evaluated. -/
theorem angleEventFire_fires {s : State} {pos : Nat} (hserv : s.lac.inService = true) (hlate : s.lac.evald < pos)
    (hmoves : s.clk.moves = true) (hdef : s.lac.deferred = []) (huser : ∀ f ∈ aetDue s pos, userFire f = true) :
    ∃ t, exec (.angleEventFire pos) s = .next t ∧ pos ≤ count t ∧ t.lac.evald = pos ∧
      t.lac.deferred = (aetDue s pos).drop 8 ∧
      (rd t (reg pLAC 0x0A0)).toNat =
        countUp (corMode s pLAC) 32 (rd s (reg pLAC 0x0A0)).toNat (min 8 (aetDue s pos).length) ∧
      ∀ f ∈ (aetDue s pos).take 8, fired s t f := by
  obtain ⟨u, hu⟩ : ∃ u : State, u = evalAt (reachPos s pos) pos := ⟨_, rfl⟩
  have hdue : (reachPos s pos).lac.deferred ++ aetDue (reachPos s pos) pos = aetDue s pos := by
    rw [reachPos_lac, hdef, List.nil_append, aetDue_congr (reachPos_past s pos) (rd_reachPos s pos)]
  have hop : positionFire s pos = fireEight u (aetDue s pos) := by
    unfold positionFire
    rw [if_neg (by simp [hserv, hlate]), hu, ← hdue]
    rfl
  have hulac : u.lac = { s.lac with evald := pos } := by rw [hu, evalAt_lac, reachPos_lac]
  have huclk : u.clk = s.clk.reach pos := by rw [hu, evalAt_clk, reachPos_clk]
  obtain ⟨hclk, hlac, hcount, hfired⟩ := fireEight_user (s := s) (u := u) (l := aetDue s pos)
    (fun a => by rw [hu, rd_evalAt, rd_reachPos]) (by rw [hu, evalAt_guard, reachPos_guard])
    fun f hf => huser f (List.mem_of_mem_take hf)
  have hacc : s.clk.acc ≤ (fireEight u (aetDue s pos)).clk.acc := by
    rw [hclk, huclk]
    exact (reach_acc pos hmoves).1
  obtain ⟨t, hnext, hdone, ht, -⟩ := finishClock_forward hacc
  rw [exec_angleEventFire, hop]
  refine ⟨t, hnext, ?_, ?_, ?_, ?_, fun f hf => fired_done hdone (hfired f hf)⟩
  · rw [count_congr (s := reachPos s pos) (by rw [ht, hclk, huclk, reachPos_clk])]
    exact le_count_reachPos pos hmoves
  · rw [hdone.lac, hlac, hulac]
  · rw [hdone.lac, hlac]
  · rw [hdone.rd, hcount]

/-- ANGLE_EVENT_DEFERRED_FIRE. -/
theorem deferredFire_fires {s : State} (huser : ∀ f ∈ s.lac.deferred, userFire f = true) :
    ∃ t, exec .angleEventDeferredFire s = .next t ∧ t.lac.deferred = s.lac.deferred.drop 8 ∧
      ∀ f ∈ s.lac.deferred.take 8, fired s t f := by
  rw [exec_angleEventDeferredFire]
  by_cases hnone : s.lac.deferred = []
  · have hop : deferredFire s = s := by
      unfold deferredFire
      rw [hnone]
      rfl
    obtain ⟨t, hnext, hlac, -⟩ := finishClock_same s
    rw [hop]
    refine ⟨t, hnext, ?_, fun f hf => ?_⟩
    · rw [hlac, hnone]
      rfl
    · rw [hnone] at hf
      exact absurd hf List.not_mem_nil
  · have hop : deferredFire s = fireEight { s with clk := s.clk.advance 1 } s.lac.deferred := by
      unfold deferredFire
      rw [if_neg (by simpa using hnone)]
    obtain ⟨-, hlac, -, hfired⟩ := fireEight_user (s := s) (u := { s with clk := s.clk.advance 1 }) (l := s.lac.deferred)
      (fun a => rfl) rfl fun f hf => huser f (List.mem_of_mem_take hf)
    obtain ⟨t, hnext, hdone, -⟩ := finishClock_done s (deferredFire s)
    rw [hop] at hdone hnext ⊢
    exact ⟨t, hnext, by rw [hdone.lac, hlac], fun f hf => fired_done hdone (hfired f hf)⟩

/-- Settles O16: an entry is due where its word 0 matches, as it was; of the actions due the first eight fire, each leaving what
stands over those after it. -/
theorem angleEventsFire : Obligations.AngleEventsFire := by
  unfold Obligations.AngleEventsFire
  refine ⟨fun s n c φ hn hφ w hw => ?_, fun s n pos hpast => ⟨aetWas_of_past_lt n 0 hpast, aetWas_of_past_lt n 1 hpast⟩,
    fun s pos => angleEventFire_fires, fun s => deferredFire_fires, fun s pos hno => ?_⟩
  · rw [mem_aetDue, w0Matches_iff w hφ, hw]
    exact and_iff_left ⟨n, hn, rfl⟩
  · have hop : positionFire s pos = s := by
      unfold positionFire
      rw [if_pos (by simpa using hno)]
    obtain ⟨t, hnext, hdone, hclk, -⟩ := finishClock_forward (s := s) (le_refl _)
    rw [exec_angleEventFire, hop]
    exact ⟨t, hnext, hdone.regs, hclk, hdone.lac, hdone.gpioPulse, hdone.syncOut⟩

end Sys2Proof.Proofs
end

section
/-!
PROOFS. The tracker locks, steps and corrects, or goes on without a reference (chapter 2, R44–R49), as log 28 and 54 read them.
-/

namespace Sys2Proof.Proofs

open Sys2Proof.Machine Sys2Proof.Laws

theorem exec_trackerConverged (a : BitVec 16) (f : Nat) (s : State) :
    exec (.trackerConverged a f) s = finishClock s (trackerLocks s a.toNat f) := rfl
theorem exec_acquireTimeout (s : State) : exec .acquireTimeout s = finishClock s (acquireFail s) := rfl
theorem exec_flyLimit (s : State) : exec .flyLimit s = finishClock s (flyEnd s) := rfl
theorem exec_correctionCycleEnd (s : State) : exec .correctionCycleEnd s = finishClock s (corrCycleEnd s) := rfl

/-! ### The single operations -/

theorem syncEnter_lac (s : State) : ∃ p, (syncEnter s).lac = { s.lac with syncFrom := p } := by
  unfold syncEnter
  split <;> exact ⟨_, rfl⟩

theorem steered_syncEnter (s : State) : Steered s (syncEnter s) := by
  unfold syncEnter
  split
  · exact .refl s
  · exact steered_lac s rfl rfl

theorem syncEnter_clk (s : State) : (syncEnter s).clk = s.clk := by
  unfold syncEnter
  split <;> rfl

theorem moveTo_lac (s : State) (p : Nat) : (moveTo s p).lac = s.lac := rfl
theorem moveTo_toll (s : State) (p : Nat) : (moveTo s p).toll = s.toll := rfl

theorem acc_le_moveTo (s : State) (p : Nat) : s.clk.acc ≤ (moveTo s p).clk.acc := le_max_left _ _

/-- A move forward ends at its position. -/
theorem count_moveTo {s : State} {p : Nat} (h : count s ≤ p) : count (moveTo s p) = p := by
  have hpos : 0 < Config.accOne := by decide
  change max s.clk.acc (p * Config.accOne) / Config.accOne = p
  rcases le_total s.clk.acc (p * Config.accOne) with hle | hle
  · rw [max_eq_right hle, Nat.mul_div_cancel p hpos]
  · rw [max_eq_left hle]
    exact le_antisymm h ((Nat.le_div_iff_mul_le hpos).2 hle)

/-- The tracker in LOCKED at a phase error. -/
def lockedAt (s : State) (ph : Int) : State :=
  { s with lac := { s.lac with track := .locked, fly := none, seen := { s.lac.seen with ph := ph } } }

theorem steered_lockedAt (s : State) (ph : Int) : Steered s (lockedAt s ph) := steered_lac s rfl rfl

theorem lockedAt_lac (s : State) (ph : Int) :
    (lockedAt s ph).lac = { s.lac with track := .locked, fly := none, seen := { s.lac.seen with ph := ph } } := rfl

theorem lockedAt_clk (s : State) (ph : Int) : (lockedAt s ph).clk = s.clk := rfl

theorem evtAddr_toll : evtAddr pTOLL = some (reg pTOLL 0x0A0) := by decide

/-! ### A lock ends its command (R14, R44, R55) -/

theorem fireEight_nil (s : State) : fireEight s [] = { s with lac := { s.lac with deferred := [] } } := rfl

section

variable {s u : State} {a : BitVec 16} {f : Nat}
  (hwait : ∀ r ∈ u.toll.waiting, r.cls ≠ .bulk ∧ r.cls ≠ .tenant)

include hwait

/-- A window that starts in a move of the count changes TOLL alone. -/
theorem newWindow_keeps : (newWindow u).clk = u.clk ∧ (newWindow u).lac = u.lac ∧
    ∀ o < 4096, rd (newWindow u) (reg pLAC o) = rd u (reg pLAC o) := by
  have hstays : ∀ r ∈ u.toll.waiting, r.cls ≠ .bulk ∧ expired u r = false := fun r hr =>
    ⟨(hwait r hr).1, by simp [expired, (hwait r hr).2]⟩
  obtain ⟨rose, hnew⟩ := newWindow_eq hstays
  refine ⟨newWindow_clk hstays, ?_, fun o ho => ?_⟩
  · rw [hnew, evIf_lac, wrF_lac]
  · have hevt : evtAddr pTOLL ≠ some (reg pLAC o) := fun e =>
      reg_ne_of_page (by decide) (by decide) ho (Option.some.inj (evtAddr_toll.symm.trans e))
    rw [hnew, rd_evIf_other _ _ _ _ hevt, rd_wrF_other _ _ _ _ (reg_ne_of_page (by decide) ho (by decide))]
    rfl

/-- Where no action is due, TRACKER_CONVERGED ends with the clock, the tracker and LAC's registers as the lock leaves them. -/
theorem trackerConverged_ends (hu : converged s a.toNat f = u) (hacc : s.clk.acc ≤ u.clk.acc) (hdef : u.lac.deferred = []) :
    ∃ t, exec (.trackerConverged a f) s = .next t ∧ t.clk = u.clk ∧ t.lac = u.lac ∧
      ∀ o < 4096, rd t (reg pLAC o) = rd u (reg pLAC o) := by
  have hnone (v : State) (hv : v.lac.deferred = []) : { v.lac with deferred := [] } = v.lac := by rw [← hv]
  obtain ⟨nclk, nlac, nrd⟩ := newWindow_keeps hwait
  have hop : (trackerLocks s a.toNat f).clk = u.clk ∧ (trackerLocks s a.toNat f).lac = u.lac ∧
      ∀ o < 4096, rd (trackerLocks s a.toNat f) (reg pLAC o) = rd u (reg pLAC o) := by
    unfold trackerLocks
    rw [hu]
    dsimp only
    rw [hdef]
    split
    · rw [fireEight_nil]
      split
      · exact ⟨nclk, (hnone _ (by rw [nlac, hdef])).trans nlac, nrd⟩
      · exact ⟨rfl, hnone u hdef, fun _ _ => rfl⟩
    · exact ⟨rfl, rfl, fun _ _ => rfl⟩
  obtain ⟨hclk, hlac, hrd⟩ := hop
  obtain ⟨t, hnext, hdone, ht, -⟩ := finishClock_forward (s := s) (u := trackerLocks s a.toNat f) (by rw [hclk]; exact hacc)
  exact ⟨t, (exec_trackerConverged a f s).trans hnext, ht.trans hclk, hdone.lac.trans hlac,
    fun o ho => (hdone.rd _).trans (hrd o ho)⟩

end

/-! ### The lock that sets IN_SERVICE (R45, R46) -/

/-- The position of the first lock at a reference angle. -/
def firstPos (s : State) (refAngle : Nat) : Nat :=
  let p := if angleOf (count s) = refAngle then count s else nextAt (count s) refAngle
  if sourceEff s = 2 ∧ cycleOf p < cycleOf (masterPos s refAngle) then masterPos s refAngle else p

theorem firstLock_eq (s : State) (refAngle f : Nat) : firstLock s refAngle f =
    syncEnter (putInService (moveTo (lockedAt (seek s (f * 1000)) 0) (firstPos (seek s (f * 1000)) refAngle))) := rfl

theorem masterPos_congr {s t : State} (hc : count t = count s) (hl : t.lac.netOff = s.lac.netOff) (a : Nat) :
    masterPos t a = masterPos s a := by
  unfold masterPos
  rw [hc, hl]

theorem firstPos_seek (s : State) (f a : Nat) : firstPos (seek s f) a = firstPos s a := by
  have hsteer := steered_seek s f
  unfold firstPos
  rw [hsteer.count_eq, hsteer.sourceEff_eq, masterPos_congr hsteer.count_eq (by rw [seek_lac])]

/-- The next position at an angle is less than a cycle on. -/
theorem nextAt_spec (a : Nat) {φ : Nat} (h : φ < 65536) :
    angleOf (nextAt a φ) = φ ∧ a < nextAt a φ ∧ (angleOf a ≠ φ → nextAt a φ < a + 65536) := by
  unfold nextAt angleOf
  omega

/-- A position of the master in a cycle above 0 stands at the reference angle. -/
theorem angleOf_masterPos {s : State} {φ : Nat} (h : φ < 65536) (hpos : 0 < masterPos s φ) : angleOf (masterPos s φ) = φ := by
  unfold masterPos foldAu at hpos ⊢
  unfold angleOf
  dsimp only at hpos ⊢
  omega

theorem firstPos_spec (s : State) {φ : Nat} (h : φ < 65536) :
    angleOf (firstPos s φ) = φ ∧ count s ≤ firstPos s φ ∧ (sourceEff s ≠ 2 → firstPos s φ < count s + 65536) ∧
      (sourceEff s = 2 → cycleOf (masterPos s φ) ≤ cycleOf (firstPos s φ)) := by
  obtain ⟨p, hp⟩ : ∃ p, p = if angleOf (count s) = φ then count s else nextAt (count s) φ := ⟨_, rfl⟩
  have hplace : angleOf p = φ ∧ count s ≤ p ∧ p < count s + 65536 := by
    obtain ⟨hangle, hlt, hnear⟩ := nextAt_spec (count s) h
    rw [hp]
    split
    · exact ⟨‹_›, le_refl _, by omega⟩
    · exact ⟨hangle, hlt.le, hnear ‹_›⟩
  obtain ⟨hangle, hle, hnear⟩ := hplace
  unfold firstPos
  rw [← hp]
  dsimp only
  split
  · rename_i hmaster
    obtain ⟨hsrc, hcycle⟩ := hmaster
    have hlt : p < masterPos s φ := by
      unfold cycleOf at hcycle
      omega
    exact ⟨angleOf_masterPos h (by omega), by omega, fun hno => absurd hsrc hno, fun _ => le_refl _⟩
  · rename_i hown
    exact ⟨hangle, hle, fun _ => hnear, fun hsrc => not_lt.1 fun hlt => hown ⟨hsrc, hlt⟩⟩

/-- The lock that sets IN_SERVICE stands at its position, where nothing fires. -/
theorem firstLock_spec {s : State} (f : Nat) {φ : Nat} (h : φ < 65536) (hserv : s.lac.inService = false) :
    count (firstLock s φ f) = firstPos s φ ∧ s.clk.acc ≤ (firstLock s φ f).clk.acc ∧ (firstLock s φ f).toll = s.toll ∧
      (firstLock s φ f).lac.track = .locked ∧ (firstLock s φ f).lac.inService = true ∧
      (firstLock s φ f).lac.evald = firstPos s φ ∧ (firstLock s φ f).lac.deferred = s.lac.deferred := by
  obtain ⟨u, hu⟩ : ∃ u : State, u = lockedAt (seek s (f * 1000)) 0 := ⟨_, rfl⟩
  have hsteer : Steered s u := hu ▸ (steered_seek s _).trans (steered_lockedAt _ 0)
  have hlac : u.lac = { s.lac with track := .locked, fly := none, seen := { s.lac.seen with ph := 0 } } := by
    rw [hu, lockedAt_lac, seek_lac]
  have hcount : count (moveTo u (firstPos s φ)) = firstPos s φ := by
    refine count_moveTo ?_
    rw [hsteer.count_eq]
    exact (firstPos_spec s h).2.1
  rw [firstLock_eq, firstPos_seek, ← hu]
  have hend : Steered (moveTo u (firstPos s φ)) (syncEnter (putInService (moveTo u (firstPos s φ)))) :=
    (steered_putInService _).trans (steered_syncEnter _)
  obtain ⟨p, hp⟩ := syncEnter_lac (putInService (moveTo u (firstPos s φ)))
  refine ⟨hend.count_eq.trans hcount, ?_, ?_, ?_, ?_, ?_, ?_⟩
  · rw [hend.acc, ← hsteer.acc]
    exact acc_le_moveTo u _
  · rw [hend.toll, moveTo_toll, hsteer.toll]
  · rw [hp, putInService_lac, moveTo_lac, hlac]
  · rw [hp, putInService_lac]
  · rw [hp, putInService_lac, moveTo_lac, hlac, hserv, hcount]
    rfl
  · rw [hend.deferred, moveTo_lac, hsteer.deferred]

theorem converged_first {s : State} {φ f : Nat} (ht : s.lac.track = .acquire) (hvalid : s.lac.refValid = true)
    (hf : inLockRange f = true) (hserv : s.lac.inService = false) : converged s φ f = firstLock s φ f := by
  unfold converged
  rw [if_neg (by simp [ht, hvalid, hf]), hserv]
  rfl

/-- The first lock. -/
theorem trackerConverged_first {s : State} {a : BitVec 16} {f : Nat} (hdef : s.lac.deferred = [])
    (hwait : ∀ r ∈ s.toll.waiting, r.cls ≠ .bulk ∧ r.cls ≠ .tenant) (ht : s.lac.track = .acquire)
    (hvalid : s.lac.refValid = true) (hf : inLockRange f = true) (hserv : s.lac.inService = false) :
    ∃ t, exec (.trackerConverged a f) s = .next t ∧
      t.lac.track = .locked ∧ t.lac.inService = true ∧ angleOf (count t) = a.toNat ∧ count s ≤ count t ∧
      t.lac.evald = count t ∧ (sourceEff s ≠ 2 → count t < count s + 65536) ∧
      (sourceEff s = 2 → cycleOf (masterPos s a.toNat) ≤ cycleOf (count t)) := by
  obtain ⟨hcount, hacc, htoll, htrack, hin, heval, hdefer⟩ := firstLock_spec (s := s) f a.isLt hserv
  obtain ⟨hangle, hle, hnear, hmaster⟩ := firstPos_spec s a.isLt
  obtain ⟨t, hnext, hclk, hlac, -⟩ := trackerConverged_ends (a := a) (by rw [htoll]; exact hwait)
    (converged_first ht hvalid hf hserv) hacc (hdefer.trans hdef)
  have hat : count t = firstPos s a.toNat := (count_congr hclk).trans hcount
  refine ⟨t, hnext, ?_⟩
  rw [hat, hlac]
  exact ⟨htrack, hin, hangle, hle, heval, hnear, hmaster⟩

/-! ### A later lock (R48, R49) -/

/-- The state of a later lock before its correction. -/
def lockNoted (s : State) (e : Int) : State := ev (lockedAt s e) pLAC 3

theorem steered_lockNoted (s : State) (e : Int) : Steered s (lockNoted s e) :=
  (steered_lockedAt s e).trans (steered_ev _ (by decide))

theorem lockNoted_lac (s : State) (e : Int) : (lockNoted s e).lac = (lockedAt s e).lac := ev_lac _ _ _

theorem lockNoted_clk (s : State) (e : Int) : (lockNoted s e).clk = s.clk := (ev_clk _ _ _).trans (lockedAt_clk s e)

theorem lockNoted_evt (s : State) (e : Int) : rdB (lockNoted s e) (reg pLAC 0x088) 3 = true :=
  rdB_evLac_same _ (by decide)

theorem foldAu_mem (x : Int) : -32768 ≤ foldAu x ∧ foldAu x ≤ 32767 := by
  unfold foldAu
  omega

theorem aetStepDue_steered {s t : State} (h : Steered s t) (a b : Nat) : aetStepDue t a b = aetStepDue s a b := by
  have hne (n w : Nat) : aetAddr n w ≠ reg pLAC 0x088 := by
    unfold aetAddr reg pAET pLAC
    omega
  unfold aetStepDue aetW0 aetW1
  simp only [fun n w => h.rd _ (hne n w)]

/-- A forward step at which no action is due. -/
theorem forwardStep_spec {s : State} {k : Nat} (hdue : s.lac.inService = true → aetStepDue s (count s) (count s + k) = []) :
    count (forwardStep s k) = count s + k ∧ s.clk.acc ≤ (forwardStep s k).clk.acc ∧ (forwardStep s k).toll = s.toll ∧
      (forwardStep s k).lac = { s.lac with
        evald := max s.lac.evald (count s + k), stepFrom := count s, stepTo := count s + k } ∧
      rd (forwardStep s k) (reg pLAC 0x09C) = w32 (k % 65536) ∧ rdB (forwardStep s k) (reg pLAC 0x088) 4 = true ∧
      ∀ j, rdB s (reg pLAC 0x088) j = true → rdB (forwardStep s k) (reg pLAC 0x088) j = true := by
  have hnone : (if s.lac.inService = true then aetStepDue s (count s) (count s + k) else []) = [] := by
    split
    · exact hdue ‹_›
    · rfl
  obtain ⟨l, hl⟩ : ∃ l : Lac, l = { s.lac with
      evald := max s.lac.evald (count s + k), stepFrom := count s, stepTo := count s + k } := ⟨_, rfl⟩
  obtain ⟨v, hv⟩ : ∃ v : State, v = moveTo { s with lac := l } (count s + k) := ⟨_, rfl⟩
  obtain ⟨w, hw⟩ : ∃ w : State, w = wr { v with clk := { v.clk with corrNow := 0, corrLeft := 0 } } (reg pLAC 0x09C)
    (w32 (k % 65536)) := ⟨_, rfl⟩
  have hop : forwardStep s k = ev w pLAC 4 := by
    unfold forwardStep
    dsimp only
    rw [hnone, List.append_nil, hw, hv, hl]
  have hwclk : w.clk = { v.clk with corrNow := 0, corrLeft := 0 } := by rw [hw, wr_clk]
  have hacc : w.clk.acc = v.clk.acc := by rw [hwclk]
  have hcount : count v = count s + k := by
    rw [hv]
    exact count_moveTo (Nat.le_add_right _ _)
  have hsteer := steered_ev w (b := 4) (by decide)
  rw [hop]
  refine ⟨?_, ?_, ?_, ?_, ?_, rdB_evLac_same w (by decide), fun j hj => hsteer.evt j ?_⟩
  · rw [hsteer.count_eq, ← hcount]
    unfold count
    rw [hacc]
  · rw [hsteer.acc, hacc, hv]
    exact acc_le_moveTo { s with lac := l } _
  · rw [hsteer.toll, hw, wr_toll, hv]
    rfl
  · rw [ev_lac, hw, wr_lac, hv, hl]
    rfl
  · rw [hsteer.rd _ (by decide), hw, rd_wr_same]
  · unfold rdB at hj ⊢
    rw [hw, rd_wr_other _ _ (by decide), hv]
    exact hj

section

variable {s : State} {a : BitVec 16} {f : Nat} {e : Int} (hdef : s.lac.deferred = [])
  (hwait : ∀ r ∈ s.toll.waiting, r.cls ≠ .bulk ∧ r.cls ≠ .tenant) (ht : s.lac.track = .acquire)
  (hvalid : s.lac.refValid = true) (hf : inLockRange f = true) (hserv : s.lac.inService = true)
  (hfreq : s.clk.freq = f * 1000) (he : e = foldAu ((a.toNat : Int) - angleOf (count s)))

include ht hvalid hf hserv hfreq he in
theorem converged_later : converged s a.toNat f = syncEnter (correction (lockNoted s e) e) := by
  unfold converged
  rw [if_neg (by simp [ht, hvalid, hf]), if_neg (by simp [hserv]), if_neg (by simp [hfreq]), he]
  rfl

theorem bit_step_lockNoted (s : State) (e : Int) : bit (lacCtrl (lockNoted s e)) 9 = bit (lacCtrl s) 9 := by
  rw [(steered_lockNoted s e).lacCtrl_eq]

include he in
/-- A phase difference above 655 au, or below −655 au under STEP, is a forward step of less than a cycle. -/
theorem correction_step {k : Nat} (hk : 655 < e ∧ (k : Int) = e ∨ e < -655 ∧ bit (lacCtrl s) 9 = true ∧ (k : Int) = 65536 + e) :
    k < 65536 ∧ correction (lockNoted s e) e = forwardStep (lockNoted s e) k := by
  obtain ⟨hlo, hhi⟩ := he ▸ foldAu_mem ((a.toNat : Int) - angleOf (count s))
  unfold correction
  rw [if_neg (by omega), bit_step_lockNoted]
  rcases hk with ⟨hbig, hk⟩ | ⟨hsmall, hstep, hk⟩
  · rw [if_pos hbig, ← hk, Int.toNat_natCast]
    exact ⟨by omega, rfl⟩
  · rw [if_neg (by omega), if_neg (by simp [hstep, hsmall]), ← hk, Int.toNat_natCast]
    exact ⟨by omega, rfl⟩

include hdef hwait ht hvalid hf hserv hfreq he

/-- A later lock with a forward step. -/
theorem trackerConverged_step {k : Nat}
    (hk : 655 < e ∧ (k : Int) = e ∨ e < -655 ∧ bit (lacCtrl s) 9 = true ∧ (k : Int) = 65536 + e)
    (hdue : aetStepDue s (count s) (count s + k) = []) :
    ∃ t, exec (.trackerConverged a f) s = .next t ∧ t.lac.track = .locked ∧ count t = count s + k ∧
      rd t (reg pLAC 0x09C) = w32 k ∧ rdB t (reg pLAC 0x088) 3 = true ∧ rdB t (reg pLAC 0x088) 4 = true ∧
      t.lac.evald = max s.lac.evald (count s + k) := by
  have hnoted := steered_lockNoted s e
  obtain ⟨hlt, hcorr⟩ := correction_step he hk
  obtain ⟨hcount, hacc, htoll, hlac, hcapt, hevt, hmono⟩ := forwardStep_spec (s := lockNoted s e) (k := k) fun _ => by
    rw [aetStepDue_steered hnoted, hnoted.count_eq]
    exact hdue
  have henter := steered_syncEnter (forwardStep (lockNoted s e) k)
  obtain ⟨p, hp⟩ := syncEnter_lac (forwardStep (lockNoted s e) k)
  rw [hnoted.count_eq] at hcount
  rw [hnoted.acc] at hacc
  rw [lockNoted_lac, lockedAt_lac, hnoted.count_eq] at hlac
  rw [hlac] at hp
  obtain ⟨t, hnext, hclk, htlac, hrd⟩ := trackerConverged_ends (a := a)
    (by rw [henter.toll, htoll, hnoted.toll]; exact hwait)
    ((converged_later ht hvalid hf hserv hfreq he).trans (congrArg syncEnter hcorr))
    (by rw [henter.acc]; exact hacc) (by rw [hp]; exact hdef)
  refine ⟨t, hnext, ?_, ?_, ?_, ?_, ?_, ?_⟩
  · rw [htlac, hp]
  · rw [count_congr hclk, henter.count_eq, hcount]
  · rw [hrd _ (by decide), henter.rd _ (by decide), hcapt, Nat.mod_eq_of_lt hlt]
  · unfold rdB
    rw [hrd _ (by decide)]
    exact henter.evt 3 (hmono 3 (lockNoted_evt s e))
  · unfold rdB
    rw [hrd _ (by decide)]
    exact henter.evt 4 hevt
  · rw [htlac, hp]

/-- A later lock that slows or quickens. -/
theorem trackerConverged_correct (hne : e ≠ 0) (hle : e ≤ 655) (hslow : -655 ≤ e ∨ bit (lacCtrl s) 9 = false) :
    ∃ t, exec (.trackerConverged a f) s = .next t ∧ t.lac.track = .locked ∧ t.clk.acc = s.clk.acc ∧
      t.clk.corrNow = max (-655) e ∧ t.clk.corrLeft = e - max (-655) e ∧ rdB t (reg pLAC 0x088) 3 = true := by
  have hclamp : clampI (-655) 655 e = max (-655) e := by
    unfold clampI
    split <;> omega
  have hcorr : correction (lockNoted s e) e = correctBy (lockNoted s e) e := by
    unfold correction
    rw [if_neg hne, if_neg (by omega), bit_step_lockNoted, if_pos (by simpa using hslow)]
  obtain ⟨v, hv⟩ : ∃ v : State, v = correctBy (lockNoted s e) e := ⟨_, rfl⟩
  have hsteer : Steered (lockNoted s e) v := hv ▸ steered_clk _ rfl rfl
  have hvlac : v.lac = (lockedAt s e).lac := hv ▸ lockNoted_lac s e
  have hnow : v.clk.corrNow = max (-655) e ∧ v.clk.corrLeft = e - max (-655) e := by
    rw [hv, ← hclamp]
    exact ⟨rfl, rfl⟩
  have hall : Steered s (syncEnter v) := ((steered_lockNoted s e).trans hsteer).trans (steered_syncEnter v)
  obtain ⟨p, hp⟩ := syncEnter_lac v
  obtain ⟨t, hnext, hclk, htlac, hrd⟩ := trackerConverged_ends (a := a) (by rw [hall.toll]; exact hwait)
    ((converged_later ht hvalid hf hserv hfreq he).trans (by rw [hcorr, ← hv])) hall.acc.ge (hall.deferred.trans hdef)
  refine ⟨t, hnext, ?_, ?_, ?_, ?_, ?_⟩
  · rw [htlac, hp, hvlac, lockedAt_lac]
  · rw [hclk, hall.acc]
  · rw [hclk, syncEnter_clk, hnow.1]
  · rw [hclk, syncEnter_clk, hnow.2]
  · unfold rdB
    rw [hrd _ (by decide)]
    exact (steered_syncEnter v).evt 3 (hsteer.evt 3 (lockNoted_evt s e))

end

/-! ### Without a reference (R44) -/

/-- SYNTHETIC entered at a fabric cycle. -/
theorem finishClock_toSynthetic (s : State) (f : Nat) :
    ∃ t, finishClock s (toSynthetic { s with clk := s.clk.untilFabric f }) = .next t ∧ t.lac.track = .synthetic ∧
      t.lac.inService = true ∧ t.lac.fly = none ∧ t.clk.target = nominalFreq s ∧
      (s.lac.inService = false → t.clk.freq = nominalFreq s) ∧ rdB t (reg pLAC 0x088) 2 = true ∧ f ≤ t.clk.fabric := by
  obtain ⟨u, hu⟩ : ∃ u : State, u = { s with clk := s.clk.untilFabric f } := ⟨_, rfl⟩
  have hclk : u.clk = s.clk.untilFabric f := by rw [hu]
  have hlac : u.lac = s.lac := by rw [hu]
  have hnom : nominalFreq u = nominalFreq s := by rw [hu]; rfl
  have hsteer := steered_toSynthetic u
  have hacc : s.clk.acc ≤ (toSynthetic u).clk.acc := by
    rw [hsteer.acc, hclk]
    exact untilFabric_acc_le _ _
  obtain ⟨t, hnext, hdone, htclk, -⟩ := finishClock_forward hacc
  obtain ⟨n, p, l, hsynth⟩ := toSynthetic_lac u
  obtain ⟨htarget, hfreq⟩ := toSynthetic_clk u
  rw [hlac] at hfreq
  rw [← hu]
  refine ⟨t, hnext, ?_, ?_, ?_, ?_, fun hserv => ?_, ?_, ?_⟩
  · rw [hdone.lac, hsynth]
  · rw [hdone.lac, hsynth]
  · rw [hdone.lac, hsynth]
  · rw [htclk, htarget, hnom]
  · rw [htclk, hfreq hserv, hnom]
  · unfold rdB
    rw [hdone.rd]
    exact toSynthetic_evt u
  · rw [htclk, hsteer.fabric, hclk]
    exact le_untilFabric _ _

/-! ### A cycle of a correction ends (R48) -/

theorem endCorr_corrLeft (c : Clock) : c.endCorr.corrLeft = c.corrLeft - clampI (-655) 655 c.corrLeft := rfl
theorem endCorr_corrEnd (c : Clock) : c.endCorr.corrEnd = c.corrEnd + 65536 := rfl

theorem slew_corr (c : Clock) : c.slew.corrLeft = c.corrLeft ∧ c.slew.corrEnd = c.corrEnd := by
  unfold Clock.slew
  dsimp only
  repeat' split
  all_goals exact ⟨rfl, rfl⟩

theorem runTo_corr (c : Clock) (pos : Nat) : (c.runTo pos).corrLeft = c.corrLeft ∧ (c.runTo pos).corrEnd = c.corrEnd := by
  unfold Clock.runTo
  split
  · exact ⟨rfl, rfl⟩
  · exact slew_corr _

/-- On the way to the end of its corrected cycle the clock begins the next correction, and stands there. -/
theorem reachIn_corrEnd {c : Clock} (n : Nat) (hnow : c.corrNow ≠ 0) (hstep : 0 < c.step) :
    c.reachIn (n + 2) c.corrEnd = (c.runTo c.corrEnd).endCorr := by
  have hreached : c.corrEnd * Config.accOne ≤ (c.runTo c.corrEnd).endCorr.acc := by
    rw [endCorr_acc]
    exact le_runTo_acc c.corrEnd hstep
  have hnext : c.corrEnd < (c.runTo c.corrEnd).endCorr.corrEnd := by
    rw [endCorr_corrEnd, (runTo_corr c _).2]
    omega
  unfold Clock.reachIn
  rw [if_neg (by simp [hnow])]
  generalize (c.runTo c.corrEnd).endCorr = d at hreached hnext
  unfold Clock.reachIn
  rw [if_pos (Or.inr hnext)]
  unfold Clock.runTo
  rw [if_pos hreached]

theorem reach_corrEnd {c : Clock} (hnow : c.corrNow ≠ 0) (hlt : c.acc < c.corrEnd * Config.accOne) (hstep : 0 < c.step) :
    c.reach c.corrEnd = (c.runTo c.corrEnd).endCorr := by
  unfold Clock.reach
  rw [if_neg (by omega)]
  exact reachIn_corrEnd 62 hnow hstep

theorem correctionCycleEnd_ends {s : State} (hnow : s.clk.corrNow ≠ 0) (hlt : count s < s.clk.corrEnd) (hstep : 0 < s.clk.step) :
    ∃ t, exec .correctionCycleEnd s = .next t ∧ s.clk.corrEnd ≤ count t ∧
      t.clk.corrNow = clampI (-655) 655 s.clk.corrLeft ∧
      t.clk.corrLeft = s.clk.corrLeft - clampI (-655) 655 s.clk.corrLeft ∧ t.clk.corrEnd = s.clk.corrEnd + 65536 := by
  have hop : corrCycleEnd s = reachPos s s.clk.corrEnd := by
    unfold corrCycleEnd
    rw [if_neg hnow]
  have hreach : (reachPos s s.clk.corrEnd).clk = (s.clk.runTo s.clk.corrEnd).endCorr := by
    rw [reachPos_clk]
    exact reach_corrEnd hnow ((Nat.div_lt_iff_lt_mul (by decide)).1 hlt) hstep
  obtain ⟨hleft, hend⟩ := runTo_corr s.clk s.clk.corrEnd
  obtain ⟨t, hnext, -, hclk, -⟩ := finishClock_forward (s := s) (u := reachPos s s.clk.corrEnd) (by
    rw [hreach, endCorr_acc]
    exact runTo_acc_le _ _)
  rw [exec_correctionCycleEnd, hop]
  refine ⟨t, hnext, ?_, ?_, ?_, ?_⟩
  · refine (Nat.le_div_iff_mul_le (by decide)).2 ?_
    rw [hclk, hreach, endCorr_acc]
    exact le_runTo_acc _ hstep
  · rw [hclk, hreach, endCorr_corrNow, hleft]
  · rw [hclk, hreach, endCorr_corrLeft, hleft]
  · rw [hclk, hreach, endCorr_corrEnd, hend]

/-- Settles O21: the first lock, later ones with a step or a correction, and the ends of ACQUIRE, FLYWHEEL and a correction's
cycle. -/
theorem trackerMoves : Obligations.TrackerMoves := by
  unfold Obligations.TrackerMoves
  intro s a f hdef hwait
  refine ⟨fun ht hvalid hf => ⟨fun hserv => trackerConverged_first hdef hwait ht hvalid hf hserv, fun hserv hfreq e he =>
    ⟨fun k => trackerConverged_step hdef hwait ht hvalid hf hserv hfreq he,
      trackerConverged_correct hdef hwait ht hvalid hf hserv hfreq he⟩⟩, fun hs ht hfrom hserv hvalid => ?_, fun t0 ht hfly => ?_,
    correctionCycleEnd_ends⟩
  · have hop : acquireFail s = toSynthetic { s with clk := s.clk.untilFabric (s.lac.startAt + msFabric 500) } := by
      unfold acquireFail
      rw [if_pos (by simp [hs, ht, hfrom, hserv, hvalid])]
    obtain ⟨t, hnext, htrack, hin, -, -, hfreq, hevt, hfabric⟩ := finishClock_toSynthetic s (s.lac.startAt + msFabric 500)
    rw [exec_acquireTimeout, hop]
    exact ⟨t, hnext, htrack, hin, hfreq hserv, hevt, hfabric⟩
  · have hop : flyEnd s = toSynthetic { s with clk := s.clk.untilFabric (t0 + flyMax s) } := by
      unfold flyEnd
      rw [ht, hfly]
    obtain ⟨t, hnext, htrack, -, hfly', htarget, -, hevt, hfabric⟩ := finishClock_toSynthetic s (t0 + flyMax s)
    rw [exec_flyLimit, hop]
    exact ⟨t, hnext, htrack, hfly', htarget, hevt, hfabric⟩

end Sys2Proof.Proofs
end

section
/-!
PROOFS. Loom's single-scan operation (chapter 3, R81, R83, R85): what the commands of SCANDBG.CMD leave.
-/

namespace Sys2Proof.Proofs

open Sys2Proof.Machine Sys2Proof.Laws

/-! ### Loom's engine state -/

theorem evtAddr_scan : evtAddr pSCAN = some (reg pSCAN 0x094) := by decide
theorem evtAddr_scandbg : evtAddr pSCANDBG = some (reg pSCANDBG 0x088) := by decide

@[simp] theorem setEngine_loom (s : State) (e : Engine) : (setEngine s e).loom = { s.loom with eng := e } := by
  unfold setEngine
  split
  · rename_i h
    rw [← h]
  · rw [ev_loom]

theorem rd_setEngine_other (s : State) (e : Engine) {a : Nat} (h : a ≠ reg pSCAN 0x094) : rd (setEngine s e) a = rd s a := by
  unfold setEngine
  split
  · rfl
  · exact rd_ev_other _ _ _ fun hevt => h (Option.some.inj (evtAddr_scan.symm.trans hevt)).symm

theorem scanAt_zero_congr {s t : State} (hcur : t.loom.cur = s.loom.cur) (hdone : t.loom.curDone = s.loom.curDone) :
    scanAt t 0 = scanAt s 0 := by
  unfold scanAt
  rw [hcur, hdone]
  rfl

/-- The segments still to execute depend on the program banks and the scan alone. -/
theorem pendingSegs_congr {s t : State} (ha : t.loom.bankA = s.loom.bankA) (hb : t.loom.bankB = s.loom.bankB) (c : Scan) :
    pendingSegs t c = pendingSegs s c := by
  unfold pendingSegs segNos activeProg
  rw [ha, hb]

/-! ### SCANDBG.CMD -/

theorem exec_scandbgHold (i : Init) (s : State) :
    exec (.scandbgHold i) s = finishClock s (submitWrite s i (reg pSCANDBG 0x080) 1) := rfl
theorem exec_scandbgResume (i : Init) (s : State) :
    exec (.scandbgResume i) s = finishClock s (submitWrite s i (reg pSCANDBG 0x080) 2) := rfl
theorem exec_scandbgStepSeg (i : Init) (s : State) :
    exec (.scandbgStepSeg i) s = finishClock s (submitWrite s i (reg pSCANDBG 0x080) 3) := rfl
theorem exec_scandbgStepScan (i : Init) (s : State) :
    exec (.scandbgStepScan i) s = finishClock s (submitWrite s i (reg pSCANDBG 0x080) 4) := rfl

theorem writeEffect_scandbgCmd (s : State) (i : Init) (v : Word) :
    writeEffect s i (reg pSCANDBG 0x080) v = scandbgCmd s (fld v 0 3) := by
  have hrow : (rowOf (reg pSCANDBG 0x080)).isNone = false := by decide
  have hpage : pageOf (reg pSCANDBG 0x080) = pSCANDBG := by decide
  have hoff : offOf (reg pSCANDBG 0x080) = 0x080 := by decide
  unfold writeEffect writeBlock writeLoom
  dsimp only
  rw [hrow, hpage, hoff]
  simp [isLoopbank, pSCANDBG, pMOD, pPROT, pINTC, pFLTM, pTOLL, pLAC, pSCAN]

/-- A command of SCANDBG.CMD that meets nothing on its way acts on Loom as it stands. -/
theorem scandbgCmd_clear {s : State} {i : Init} {v : Word} (h : clear s i (reg pSCANDBG 0x080) v = true) {p : State → Prop}
    (hp : ∀ s' t, s'.loom = s.loom → Done s (scandbgCmd s' (fld v 0 3)) t → p t) :
    ∃ t, finishClock s (submitWrite s i (reg pSCANDBG 0x080) v) = .next t ∧ p t :=
  row_clear h (by decide) fun s' t hl hd => hp s' t hl.loom (by rwa [writeEffect_scandbgCmd] at hd)

/-- The state as HOLD leaves it before Loom looks for a segment boundary (R81). -/
def holdEntered (s : State) : State :=
  let u := setEngine (wr (dropAhead s) (reg pSCANDBG 0x08C) 0) .hold
  { u with loom := { u.loom with stepping := 0 } }

theorem holdEntered_loom (s : State) : (holdEntered s).loom = { s.loom with
    ahead1 := none, ahead2 := none, lanes := s.loom.lanes.filter fun e => e.2.depth == 0, eng := .hold, stepping := 0 } := by
  unfold holdEntered
  dsimp only
  rw [setEngine_loom]
  rfl

theorem rd_holdEntered_heldCount (s : State) : rd (holdEntered s) (reg pSCANDBG 0x08C) = 0 := by
  unfold holdEntered
  dsimp only
  rw [rd_with_loom, rd_setEngine_other _ _ (by decide), rd_wr_same]

theorem scanHold_eq {s : State} (h : s.loom.eng = .run) : scanHold s = holdBoundary (holdEntered s) := by
  unfold scanHold
  rw [if_neg (by simp [h])]
  rfl

/-- Dropping the lanes that run ahead leaves those of the latched scan. -/
theorem busyNow_holdEntered (s : State) : busyNow (holdEntered s) = busyNow s := by
  unfold busyNow
  rw [holdEntered_loom, List.any_filter]
  congr 1
  funext e
  cases e.2.depth == 0 <;> simp

/-- A pause in HOLD takes Loom's lanes, scans and engine state as they are. -/
theorem holdBoundary_keeps (s : State) : (holdBoundary s).loom.eng = s.loom.eng ∧
    (holdBoundary s).loom.ahead1 = s.loom.ahead1 ∧ (holdBoundary s).loom.ahead2 = s.loom.ahead2 ∧
    rd (holdBoundary s) (reg pSCANDBG 0x08C) = rd s (reg pSCANDBG 0x08C) := by
  have hpause (n k : Nat) : rd (pauseAt s n k) (reg pSCANDBG 0x08C) = rd s (reg pSCANDBG 0x08C) := by
    unfold pauseAt
    rw [rd_ev_other _ _ _ (by decide), rd_wrF_other _ _ _ _ (by decide), rd_with_loom]
  unfold holdBoundary
  split
  · exact ⟨rfl, rfl, rfl, rfl⟩
  · split
    · exact ⟨rfl, rfl, rfl, rfl⟩
    · split
      · exact ⟨rfl, rfl, rfl, rfl⟩
      · refine ⟨?_, ?_, ?_, hpause _ _⟩ <;> unfold pauseAt <;> rw [ev_loom] <;> rfl

/-- In HOLD an idle latched scan pauses before the next of its segments. -/
theorem holdBoundary_pauses {s : State} {c : Scan} {n : Nat} {ns : List Nat} (heng : s.loom.eng = .hold)
    (hrun : s.loom.paused = false) (hstep : s.loom.stepping = 0) (hbusy : busyNow s = false) (hscan : scanAt s 0 = some c)
    (hsegs : pendingSegs s c = n :: ns) : holdBoundary s = pauseAt s n 1 := by
  unfold holdBoundary
  rw [if_neg (by simp [heng, hrun, hstep, hbusy]), hscan]
  dsimp only
  rw [hsegs]
  dsimp only
  rw [if_neg (by omega)]

theorem pauseAt_pauses (s : State) (n : Nat) {k : Nat} (hk : k < 4) : (pauseAt s n k).loom.paused = true ∧
    (pauseAt s n k).loom.pauseSeg = n ∧ rdF (pauseAt s n k) (reg pSCANDBG 0x084) 17 2 = k := by
  refine ⟨?_, ?_, ?_⟩ <;> unfold pauseAt
  · rw [ev_loom]
    rfl
  · rw [ev_loom]
    rfl
  · unfold rdF
    rw [rd_ev_other _ _ _ (by decide)]
    exact (rd_wrF_same _ k (by decide)).trans (Nat.mod_eq_of_lt hk)

/-- HOLD in RUN (R81). -/
theorem scandbgHold_holds {s : State} {i : Init} (h : clear s i (reg pSCANDBG 0x080) 1 = true) (heng : s.loom.eng = .run)
    (hrun : s.loom.paused = false) :
    ∃ t, exec (.scandbgHold i) s = .next t ∧ t.loom.eng = .hold ∧ t.loom.ahead1 = none ∧ t.loom.ahead2 = none ∧
      rd t (reg pSCANDBG 0x08C) = 0 ∧
      ∀ c n ns, scanAt s 0 = some c → pendingSegs s c = n :: ns → busyNow s = false →
        t.loom.paused = true ∧ t.loom.pauseSeg = n ∧ rdF t (reg pSCANDBG 0x084) 17 2 = 1 := by
  rw [exec_scandbgHold]
  refine scandbgCmd_clear h fun s' t hloom hd => ?_
  have hcmd : scandbgCmd s' (fld 1 0 3) = holdBoundary (holdEntered s') := by
    rw [← scanHold_eq (by rw [hloom, heng])]
    rfl
  rw [hcmd] at hd
  obtain ⟨keng, kahead1, kahead2, kcount⟩ := holdBoundary_keeps (holdEntered s')
  rw [holdEntered_loom] at keng kahead1 kahead2
  refine ⟨by rw [hd.loom, keng], by rw [hd.loom, kahead1], by rw [hd.loom, kahead2],
    by rw [hd.rd, kcount, rd_holdEntered_heldCount], fun c n ns hscan hsegs hbusy => ?_⟩
  have hpause : holdBoundary (holdEntered s') = pauseAt (holdEntered s') n 1 := by
    refine holdBoundary_pauses (c := c) (ns := ns) ?_ ?_ ?_ ?_ ?_ ?_
    · rw [holdEntered_loom]
    · rw [holdEntered_loom, hloom, hrun]
    · rw [holdEntered_loom]
    · rw [busyNow_holdEntered, ← hbusy]
      unfold busyNow
      rw [hloom]
    · rw [← hscan]
      refine scanAt_zero_congr ?_ ?_ <;> rw [holdEntered_loom, hloom]
    · rw [← hsegs]
      refine pendingSegs_congr ?_ ?_ c <;> rw [holdEntered_loom, hloom]
  obtain ⟨hpaused, hseg, hcause⟩ := pauseAt_pauses (holdEntered s') n (k := 1) (by decide)
  rw [hpause] at hd
  refine ⟨by rw [hd.loom, hpaused], by rw [hd.loom, hseg], ?_⟩
  rw [← hcause]
  unfold rdF
  rw [hd.rd]

/-- RESUME in HOLD (R81, R85). -/
theorem scandbgResume_runs {s : State} {i : Init} (h : clear s i (reg pSCANDBG 0x080) 2 = true) (heng : s.loom.eng = .hold) :
    ∃ t, exec (.scandbgResume i) s = .next t ∧ t.loom.eng = .run ∧ t.loom.paused = false ∧ t.loom.cur = s.loom.cur ∧
      t.loom.curDone = s.loom.curDone := by
  rw [exec_scandbgResume]
  refine scandbgCmd_clear h fun s' t hloom hd => ?_
  have hcmd : (scandbgCmd s' (fld 2 0 3)).loom = { s'.loom with
      paused := false, stepping := 0, resumed := if s'.loom.paused then some s'.loom.pauseSeg else s'.loom.resumed,
      eng := .run } := by
    change (scanResume s').loom = _
    unfold scanResume
    rw [if_neg (by simp [hloom, heng]), wrF_loom, setEngine_loom]
  have ht := hd.loom.trans hcmd
  rw [hloom] at ht
  rw [ht]
  exact ⟨rfl, rfl, rfl, rfl⟩

/-- STEP_SEG in a pause (R81). -/
theorem scandbgStepSeg_steps {s : State} {i : Init} (h : clear s i (reg pSCANDBG 0x080) 3 = true) (heng : s.loom.eng = .hold)
    (hpause : s.loom.paused = true) :
    ∃ t, exec (.scandbgStepSeg i) s = .next t ∧ t.loom.eng = .hold ∧ t.loom.paused = false ∧ t.loom.stepping = 1 ∧
      t.loom.cur = s.loom.cur := by
  rw [exec_scandbgStepSeg]
  refine scandbgCmd_clear h fun s' t hloom hd => ?_
  have hcmd : (scandbgCmd s' (fld 3 0 3)).loom =
      { s'.loom with paused := false, stepping := 1, resumed := some s'.loom.pauseSeg } := by
    change (scanStepSeg s').loom = _
    unfold scanStepSeg
    rw [if_pos (by simp [hloom, heng, hpause])]
  have ht := hd.loom.trans hcmd
  rw [hloom] at ht
  rw [ht]
  exact ⟨heng, rfl, rfl, rfl⟩

/-- STEP_SCAN in HOLD (R81). -/
theorem scandbgStepScan_steps {s : State} {i : Init} (h : clear s i (reg pSCANDBG 0x080) 4 = true)
    (heng : s.loom.eng = .hold) :
    ∃ t, exec (.scandbgStepScan i) s = .next t ∧ t.loom.eng = .hold ∧ t.loom.paused = false ∧ t.loom.stepping = 2 ∧
      t.loom.cur = s.loom.cur := by
  rw [exec_scandbgStepScan]
  refine scandbgCmd_clear h fun s' t hloom hd => ?_
  have hcmd : (scandbgCmd s' (fld 4 0 3)).loom = { s'.loom with
      paused := false, stepping := 2, resumed := if s'.loom.paused then some s'.loom.pauseSeg else s'.loom.resumed } := by
    change (scanStepScan s').loom = _
    unfold scanStepScan
    rw [if_pos (by rw [hloom, heng])]
  have ht := hd.loom.trans hcmd
  rw [hloom] at ht
  rw [ht]
  exact ⟨heng, rfl, rfl, rfl⟩

/-- Settles O23: each command of SCANDBG.CMD acts on Loom as it stands; HOLD pauses at the boundary it finds. -/
theorem scanHoldsAndSteps : Obligations.ScanHoldsAndSteps := by
  unfold Obligations.ScanHoldsAndSteps
  exact fun s i => ⟨scandbgHold_holds, scandbgResume_runs, scandbgStepSeg_steps, scandbgStepScan_steps⟩

end Sys2Proof.Proofs
end

section
/-!
PROOFS. What a commit does beyond Loom's scans (chapter 3, R66, R80, R107, R184): the point store, the destinations, the stations and
the supervisor's runtime leave the scan engine and its page as they are, and raise no budget fault that a block handles.
-/

namespace Sys2Proof.Proofs

open Sys2Proof.Machine Sys2Proof.Laws

/-! ### What stays within Loom -/

/-- Of Loom only the destinations' slots and forces have changed; SCAN's registers stand, and a budget fault that is new is of a
supervisor core (R26). -/
structure Outward (s t : State) : Prop where
  loom : t.loom = { s.loom with slots := t.loom.slots, forcedOut := t.loom.forcedOut }
  scan : ∀ a, pageOf a = pSCAN → rd t a = rd s a
  faulted : ∀ k ∈ t.toll.faulted, k ∈ s.toll.faulted ∨ 0xF0 ≤ k % 256

theorem Outward.refl (s : State) : Outward s s := ⟨rfl, fun _ _ => rfl, fun _ h => .inl h⟩

theorem Outward.trans {s t u : State} (h : Outward s t) (k : Outward t u) : Outward s u where
  loom := by
    rw [k.loom, h.loom]
  scan := fun a ha => (k.scan a ha).trans (h.scan a ha)
  faulted := fun x hx => (k.faulted x hx).elim (h.faulted x) .inr

theorem Outward.foldl {α : Type} {f : State → α → State} (l : List α) (h : ∀ s, ∀ x ∈ l, Outward s (f s x)) (s : State) :
    Outward s (l.foldl f s) := by
  induction l generalizing s with
  | nil => exact .refl s
  | cons x xs ih =>
    exact (h s x List.mem_cons_self).trans (ih (fun t y hy => h t y (List.mem_cons_of_mem _ hy)) (f s x))

/-- States with the same Loom, registers and accounts. -/
theorem outward_of_eq {s t : State} (hl : t.loom = s.loom) (hr : t.regs = s.regs) (ht : t.toll.faulted = s.toll.faulted) :
    Outward s t := ⟨by rw [hl], fun a _ => rd_congr hr a, fun k hk => .inl (by rwa [ht] at hk)⟩

theorem Outward.wr {s t : State} (h : Outward s t) {a : Nat} (v : Word) (ha : pageOf a ≠ pSCAN) : Outward s (wr t a v) :=
  h.trans ⟨rfl, fun b hb => rd_wr_other t v fun e => ha (by rw [← e, hb]), fun _ hk => .inl hk⟩

theorem Outward.wrF {s t : State} (h : Outward s t) {a : Nat} (lo n v : Nat) (ha : pageOf a ≠ pSCAN) :
    Outward s (wrF t a lo n v) := h.wr _ ha
theorem Outward.wrB {s t : State} (h : Outward s t) {a : Nat} (i : Nat) (b : Bool) (ha : pageOf a ≠ pSCAN) :
    Outward s (wrB t a i b) := h.wr _ ha
theorem Outward.bump {s t : State} (h : Outward s t) {a : Nat} (ha : pageOf a ≠ pSCAN) : Outward s (bump t a) := h.wr _ ha
theorem Outward.tally {s t : State} (h : Outward s t) {a : Nat} (ha : pageOf a ≠ pSCAN) : Outward s (tally t a) := h.wr _ ha

/-- A page's event register stands on the page. -/
theorem pageOf_evtAddr {p a : Nat} (h : evtAddr p = some a) : pageOf a = p := by
  have hpage {o : Nat} (ho : o < 4096) (e : some (reg p o) = some a) : pageOf a = p := Option.some.inj e ▸ pageOf_reg p ho
  unfold evtAddr at h
  split_ifs at h <;> exact hpage (by decide) h

theorem Outward.ev {s t : State} (h : Outward s t) {p : Nat} (b : Nat) (hp : p ≠ pSCAN) : Outward s (ev t p b) :=
  h.trans ⟨by rw [ev_loom], fun a ha => rd_ev_other t p b fun e => hp ((pageOf_evtAddr e).symm.trans ha),
    fun k hk => .inl (by rwa [ev_toll] at hk)⟩

theorem Outward.evIf {s t : State} (h : Outward s t) (c : Bool) {p : Nat} (b : Nat) (hp : p ≠ pSCAN) :
    Outward s (evIf c t p b) := by
  cases c
  · exact h
  · exact h.ev b hp

/-! ### TOLL's accounts -/

theorem outward_tollUse (s : State) (w : Who) (c : Cls) (k n : Nat) : Outward s (tollUse s w c k n) := outward_of_eq rfl rfl rfl

theorem pageOf_tollCount (k : Nat) (c : Cls) {o : Nat} (hk : k ≤ 8) (ho : o ≤ 8) :
    pageOf (reg pTOLL (0x200 + 0x40 * resNum k + 0x0C * clsN c + o)) = pTOLL := by
  have := resNum_le hk
  have := clsN_le c
  exact pageOf_reg _ (by omega)

theorem outward_tollCount (s : State) {k : Nat} (c : Cls) {o : Nat} (n : Nat) (hk : k ≤ 8) (ho : o ≤ 8) :
    Outward s (tollCount s k c o n) :=
  (Outward.refl s).wr _ (by rw [pageOf_tollCount k c hk ho]; decide)

theorem outward_tollServed (s : State) (w : Who) (c : Cls) {k : Nat} (n : Nat) (hk : k ≤ 8) : Outward s (tollServed s w c k n) := by
  unfold tollServed
  split
  · exact .refl s
  · exact (outward_tollUse s w c k n).trans (outward_tollCount _ c n hk (by decide))

/-- Grants of hardware within budget, or of a core. -/
theorem outward_hwGrant (s : State) (w : Who) (c : Cls) {k : Nat} (ks : List Nat) (n : Nat) (hk : k ≤ 8)
    (h : overBudget s w c k n = false ∨ isCore w = true) : Outward s (hwGrant s w c k ks n) := by
  have hmark : Outward s (if overBudget s w c k n then budgetMark s w c k else s) := by
    split
    · rename_i hover
      rcases h with h | h
      · rw [h] at hover
        cases hover
      · have hkey : 0xF0 ≤ budgetKey w c k % 256 := by
          cases w with
          | core m =>
            have := m.isLt
            change 0xF0 ≤ (resNum k * 2 ^ 16 + clsN c * 2 ^ 8 + (0xF0 + m.val)) % 256
            omega
          | _ => cases h
        refine .wr (.ev (t := { s with toll := { s.toll with faulted := budgetKey w c k :: s.toll.faulted } })
          ⟨rfl, fun _ _ => rfl, fun x hx => ?_⟩ 0 (by decide)) _ (by decide)
        rcases List.mem_cons.1 hx with rfl | hx
        · exact .inr hkey
        · exact .inl hx
    · exact .refl s
  have huse := hmark.trans (outward_tollUse _ w c k n)
  unfold hwGrant
  dsimp only
  split
  · exact huse
  · exact huse.trans (outward_tollCount _ c n hk (by decide))

theorem outward_hwGrants_core (m : Fin 2) (c : Cls) {ks : List Nat} (n : Nat) (hk : ∀ k ∈ ks, k ≤ 8) (s : State) :
    Outward s (hwGrants s (.core m) c ks n) := by
  induction ks generalizing s with
  | nil => exact .refl s
  | cons k ks ih =>
    unfold hwGrants
    split
    · exact .refl s
    · exact (outward_hwGrant s _ c ks n (hk k List.mem_cons_self) (.inr rfl)).trans
        (ih (fun j hj => hk j (List.mem_cons_of_mem _ hj)) _)

/-! ### The Daybook -/

theorem outward_dayReserve (s : State) (c : Change) : Outward s (dayReserve s c) := by
  unfold dayReserve dayLow
  dsimp only
  refine .evIf ?_ _ _ (by decide)
  exact outward_of_eq rfl rfl rfl

theorem outward_logMade (s : State) (w : Who) (c : Change) : Outward s (logMade s w c) := by
  unfold logMade
  dsimp only
  split
  · exact (outward_tollServed s w c.cls 1 (by decide)).trans (outward_dayReserve _ c)
  · refine .ev (.tally ?_ (by decide)) 2 (by decide)
    exact outward_of_eq rfl rfl rfl

theorem outward_logAdmit (s : State) (w : Who) (c : Change) : Outward s (logAdmit s w c).1 := by
  unfold logAdmit
  split
  · exact (outward_tollServed s w c.cls 1 (by decide)).trans (outward_dayReserve _ c)
  · unfold admitRefused
    exact (((outward_tollCount s c.cls 1 (by decide) (by decide)).bump (by decide)).ev 1 (by decide)).bump (by decide)

/-! ### The point store -/

theorem outward_writePoint (s : State) (i level ord : Nat) (w : Word) (q : Point) (pos : Nat) :
    Outward s (writePoint s i level ord w q pos) := outward_of_eq rfl rfl rfl

theorem outward_dropWrite (s : State) (w : Who) (i cause : Nat) : Outward s (dropWrite s w i cause) := by
  unfold dropWrite
  dsimp only
  exact (((Outward.refl s).bump (by decide)).wr _ (by decide)).ev 3 (by decide)

/-- Loom's path to the point store is the point-store port alone. -/
theorem ptPath_loom : ptPath .loom = [7] := by decide

theorem ptUse_loom (s : State) {n : Nat} (hn : n ≠ 0) : ptUse s .loom n = hwGrant s .loom .control 7 [] n := by
  unfold ptUse
  rw [ptPath_loom]
  unfold hwGrants
  rw [if_neg hn]
  rfl

theorem outward_ptInternal {s : State} (i level : Nat) (v : Option Word) (pos : Nat)
    (h : overBudget s .loom .control 7 1 = false) : Outward s (ptInternal s .loom i level v pos) := by
  have huse : Outward s (ptUse s .loom 1) := by
    rw [ptUse_loom s (by decide)]
    exact outward_hwGrant s _ _ _ _ (by decide) (.inl h)
  unfold ptInternal
  dsimp only
  split
  · exact huse.trans (outward_dropWrite _ _ _ _)
  · exact huse.trans (outward_writePoint _ _ _ _ _ _ _)

theorem outward_forcePoints (s : State) (pos : Nat) : Outward s (forcePoints s pos) := by
  refine Outward.foldl _ (fun t p _ => ?_) s
  unfold forcePoint
  dsimp only
  split
  · exact .refl t
  · exact outward_of_eq rfl rfl rfl

/-! ### The destinations of Loom's outputs -/

theorem outward_busWake (s : State) {n : Nat} (hn : n < 8) : Outward s (busWake s n) := by
  unfold busWake
  dsimp only
  split
  · have hpage : mbPg n ≠ pSCAN := by
      unfold mbPg pMB pSCAN
      omega
    have hev (b : Bus) : Outward s (ev (setBus s n b) (mbPg n) 8) := by
      refine .ev ?_ 8 hpage
      exact outward_of_eq rfl rfl rfl
    unfold stbyFollow
    split
    · exact (hev _).trans (outward_of_eq rfl rfl rfl)
    · exact hev _
  · exact .refl s

theorem pageOf_txObj {n o w : Nat} (ho : o < 16) (hw : w < 0x50) : pageOf (txObj n o + w) = mbPg n := by
  unfold txObj
  rw [show reg (mbPg n) (0x600 + 0x50 * o) + w = reg (mbPg n) (0x600 + 0x50 * o + w) by unfold reg; omega]
  exact pageOf_reg _ (by omega)

theorem outward_objCommitLoom (s : State) {n o : Nat} (v : Word) (hn : n < 8) (ho : o < 16) :
    Outward s (objCommitLoom s n o v) := by
  have hpage (w : Nat) (hw : w < 0x50) : pageOf (txObj n o + w) ≠ pSCAN := by
    rw [pageOf_txObj ho hw]
    unfold mbPg pMB pSCAN
    omega
  unfold objCommitLoom objPending
  dsimp only
  have hset (t : State) (w : Word) (b : Bus) :
      Outward t (wrB (setBus (wr t (txObj n o + 0x10) w) n b) (txObj n o + 4) 8 true) :=
    .wrB (t := setBus (wr t (txObj n o + 0x10) w) n b)
      (((Outward.refl t).wr w (hpage 0x10 (by decide))).trans (outward_of_eq rfl rfl rfl)) 8 true (hpage 4 (by decide))
  split
  · exact (hset _ _ _).trans (outward_busWake _ hn)
  · exact hset _ _ _

/-- The slots, forces and last values of Loom's outputs stand or fall with one another alone. -/
theorem outward_slots (s : State) (l : List (Nat × List (Nat × (Word × Nat)))) :
    Outward s { s with loom := { s.loom with slots := l } } := ⟨rfl, fun _ _ => rfl, fun _ h => .inl h⟩

theorem outward_outPlace (s : State) (p : Program) (o : OutSlot) (v : Word) : Outward s (outPlace s p o v) := by
  unfold outPlace
  dsimp only
  split
  · exact outward_slots s _
  · split
    · exact outward_of_eq rfl rfl rfl
    · split
      · exact outward_objCommitLoom s _ (Nat.mod_lt _ (by decide)) (Nat.mod_lt _ (by decide))
      · exact .refl s

theorem outward_placeAt (s : State) (p : Program) (q : Nat) (v : Word) : Outward s (placeAt s p q v) :=
  Outward.foldl _ (fun t o _ => outward_outPlace t p o v) s

theorem outward_outClear (s : State) (p : Program) (o : OutSlot) : Outward s (outClear s p o) := by
  unfold outClear
  split
  · exact outward_slots s _
  · split
    · exact outward_of_eq rfl rfl rfl
    · exact .refl s

theorem outward_forceOut (s : State) (p : Program) (q : Nat) : Outward s (forceOut s p q) := by
  have hset : ∀ l, Outward s { s with loom := { s.loom with forcedOut := l } } := fun _ =>
    ⟨rfl, fun _ _ => rfl, fun _ h => .inl h⟩
  unfold forceOut
  dsimp only
  split
  · exact .refl s
  · split
    · exact (hset _).trans (outward_placeAt _ p q _)
    · exact (hset _).trans (Outward.foldl _ (fun t o _ => outward_outClear t p o) _)

theorem outward_forceAll (s : State) (pos : Nat) : Outward s (forceAll s pos) := by
  have hdo : ∀ t : State, Outward t (doForces t) := fun _ => outward_of_eq rfl rfl rfl
  unfold forceAll
  dsimp only
  split
  · exact ((outward_forcePoints s pos).trans (Outward.foldl _ (fun t q _ => outward_forceOut t _ q) _)).trans (hdo _)
  · exact (outward_forcePoints s pos).trans (hdo _)

theorem outward_doSync (s : State) : Outward s (doSync s) := by
  unfold doSync doRefresh
  refine .wr (Outward.foldl _ (fun t k _ => ?_) s) _ (by decide)
  unfold doFollow
  dsimp only
  split
  · exact outward_of_eq rfl rfl rfl
  · exact .refl t

/-! ### The stations -/

theorem outward_leaseEnd (s : State) : Outward s (leaseEnd s) := by
  have hshow (t : State) : Outward t (leaseShow t) := by
    unfold leaseShow
    dsimp only
    exact (((Outward.refl t).wrB _ _ (by decide)).wrB _ _ (by decide)).ev 6 (by decide)
  have hgone : Outward s (leaseGone s) := by
    unfold leaseGone
    dsimp only
    refine .trans ?_ (hshow _)
    refine .wr (.wr (.wr ?_ _ (by decide)) _ (by decide)) _ (by decide)
    exact outward_of_eq rfl rfl rfl
  have hclear (t : State) : Outward t (updClear t) := outward_of_eq rfl rfl rfl
  have hev := hgone.ev (p := pUPD) 3 (by decide)
  unfold leaseEnd
  dsimp only
  split
  · exact .refl s
  · split
    · unfold updGo
      exact ((hev.wrF 8 4 8 (by decide)).trans (hclear _)).wrF 0 3 0 (by decide)
    · exact hev

theorem outward_closeFree (s : State) (n : Nat) : Outward s (closeFree s n) := by
  unfold closeFree
  dsimp only
  split
  · exact .refl s
  · refine .ev ?_ 1 (by decide)
    split
    · unfold updLog logHw
      refine .trans (.trans ?_ (outward_leaseEnd _)) (outward_logMade _ _ _)
      exact outward_of_eq rfl rfl rfl
    · exact outward_of_eq rfl rfl rfl

theorem outward_opxSendAt (s : State) (pos n ty fl : Nat) (c : Cls) (req out : Nat) (body : List Byte) :
    Outward s (opxSendAt s pos n ty fl c req out body) := by
  unfold opxSendAt
  dsimp only
  split
  · exact .refl s
  · split
    · unfold closeSession closeAs
      split
      · exact (outward_closeFree s n).trans (outward_logMade _ _ _)
      · exact .refl s
    · exact .trans (.bump (outward_of_eq rfl rfl rfl) (by decide)) (outward_of_eq rfl rfl rfl)

theorem outward_sendImages (s : State) (pos : Nat) : Outward s (sendImages s pos) := by
  unfold sendImages
  split
  · refine Outward.foldl _ (fun t k _ => ?_) s
    unfold sendSlot
    split
    · exact outward_opxSendAt t _ _ _ _ _ _ _ _
    · exact .refl t
  · exact .refl s

/-! ### The loops and the supervisor's runtime -/

theorem outward_loopSp (s : State) (w : Who) {n : Nat} (v : Word) (hn : n < 256) : Outward s (loopSp s w n v) := by
  unfold loopSp
  split
  · exact (Outward.refl s).ev 3 (by decide)
  · unfold loopWr
    have hpage : pageOf (loopA n 0x24) ≠ pSCAN := by
      unfold loopA
      rw [pageOf_reg _ (by omega)]
      unfold pSCAN
      omega
    refine .wr ?_ _ hpage
    exact outward_of_eq rfl rfl rfl

theorem outward_setpointWrite (s : State) (e : Nat × Word) : Outward s (setpointWrite s e) := by
  unfold setpointWrite
  dsimp only
  split
  · unfold cmdApply
    exact (outward_writePoint s _ _ _ _ _ _).bump (by decide)
  · exact .refl s

theorem outward_districtApply (s : State) : Outward s (districtApply s) := by
  have hpath : ∀ k ∈ ptPath (.core 0), k ≤ 8 := by decide
  unfold districtApply
  split
  · exact .refl s
  · dsimp only
    split
    · exact .refl s
    · have hready : Outward s { s with fact := { s.fact with ready := none } } := outward_of_eq rfl rfl rfl
      split
      · exact hready
      · split
        · exact ((hready.trans (outward_logAdmit _ _ _)).trans (outward_hwGrants_core 0 .control _ hpath _)).trans
            (Outward.foldl _ (fun t e _ => outward_setpointWrite t e) _)
        · exact hready.trans (outward_logAdmit _ _ _)

/-! ### Budget faults of cores (R26) -/

theorem rd_faultLog_other (s : State) (w o t k d p : Nat) {a : Nat} (ha : pageOf a ≠ pFLTM) :
    rd (faultLog s w o t k d p) a = rd s a := by
  have hne (x : Nat) (hx : x < 16) : a ≠ reg pFLTM (0x100 + 0x10 * rdF s (reg pFLTM 0x0A4) 0 5) + x := by
    have hlt : rdF s (reg pFLTM 0x0A4) 0 5 < 2 ^ 5 := Nat.mod_lt _ (by decide)
    rintro rfl
    apply ha
    rw [show reg pFLTM (0x100 + 0x10 * rdF s (reg pFLTM 0x0A4) 0 5) + x =
      reg pFLTM (0x100 + 0x10 * rdF s (reg pFLTM 0x0A4) 0 5 + x) by unfold reg; omega]
    exact pageOf_reg _ (by omega)
  have hcount : a ≠ reg pFLTM 0x0A4 := fun e => ha (by rw [e]; decide)
  unfold faultLog wr64
  dsimp only
  rw [rd_wr_other _ _ hcount, rd_wr_other _ _ (hne 12 (by decide)), rd_wr_other _ _ (hne 8 (by decide)),
    rd_wr_other _ _ (hne 4 (by decide))]
  exact rd_wr_other _ _ (hne 0 (by decide))

/-- Settling the budget faults of cores leaves a record of each and nothing else of Loom or of another page. -/
theorem budgetSettle_cores {s t : State} (h : ∀ k ∈ t.toll.faulted, k ∈ s.toll.faulted ∨ 0xF0 ≤ k % 256) :
    (budgetSettle s t).loom = t.loom ∧ ∀ a, pageOf a ≠ pFLTM → rd (budgetSettle s t) a = rd t a := by
  have hfold : ∀ (l : List Nat) (u : State), (∀ k ∈ l, 0xF0 ≤ k % 256) →
      (l.foldl (fun v k => budgetFault v (k % 256)) u).loom = u.loom ∧
        ∀ a, pageOf a ≠ pFLTM → rd (l.foldl (fun v k => budgetFault v (k % 256)) u) a = rd u a := by
    intro l
    induction l with
    | nil => exact fun u _ => ⟨rfl, fun _ _ => rfl⟩
    | cons k ks ih =>
      intro u hcores
      have hfault : budgetFault u (k % 256) = faultLog u moduleWord 3 0 7 0 (count u) := by
        unfold budgetFault
        rw [if_pos (hcores k List.mem_cons_self)]
      obtain ⟨hloom, hrd⟩ := ih (budgetFault u (k % 256)) fun j hj => hcores j (List.mem_cons_of_mem _ hj)
      rw [hfault] at hloom hrd
      rw [List.foldl_cons, hfault]
      exact ⟨hloom, fun a ha => (hrd a ha).trans (rd_faultLog_other _ _ _ _ _ _ _ ha)⟩
  refine hfold _ t fun k hk => ?_
  obtain ⟨hmem, hnew⟩ := List.mem_filter.1 hk
  exact (h k hmem).resolve_left (by simpa using hnew)

end Sys2Proof.Proofs
end

section
/-!
PROOFS. SCAN_COMMIT (chapter 3, R66, R72, R76, R77, R82): what the commit of a scan, the commit of the stop image and an overrun
leave.
-/

namespace Sys2Proof.Proofs

open Sys2Proof.Machine Sys2Proof.Laws

/-! ### Loom's accesses within its budget (R26) -/

/-- Whether a budget is exceeded depends on the clock, the budgets in force, the faults raised and the accesses counted. -/
theorem overBudget_of_used {s t : State} {k m : Nat} (n : Nat) (hc : t.clk = s.clk) (hb : t.toll.budget = s.toll.budget)
    (hf : t.toll.faulted = s.toll.faulted) (hu : usedOf t k (clsN .control) = usedOf s k (clsN .control) + m) :
    overBudget t .loom .control k n = overBudget s .loom .control k (m + n) := by
  unfold overBudget budgetPct capacity
  rw [hc, hb, hf, hu, Nat.add_assoc]

theorem overBudget_congr {s t : State} (ht : t.toll = s.toll) (hc : t.clk = s.clk) (k n : Nat) :
    overBudget t .loom .control k n = overBudget s .loom .control k n := by
  have hused : usedOf t k (clsN .control) = usedOf s k (clsN .control) + 0 := by
    unfold usedOf
    rw [ht]
    rfl
  rw [overBudget_of_used n hc (by rw [ht]) (by rw [ht]) hused, Nat.zero_add]

/-- Fewer accesses stay within a budget too. -/
theorem overBudget_mono {s : State} {w : Who} {c : Cls} {k m n : Nat} (hmn : m ≤ n) (h : overBudget s w c k n = false) :
    overBudget s w c k m = false := by
  unfold overBudget at h ⊢
  simp only [Bool.and_eq_false_iff, decide_eq_false_iff_not] at h ⊢
  refine h.imp (Or.imp id fun hle => ?_) id
  omega

theorem tollUse_clk (s : State) (w : Who) (c : Cls) (k m : Nat) : (tollUse s w c k m).clk = s.clk := by
  unfold tollUse
  rfl

theorem tollUse_budget (s : State) (w : Who) (c : Cls) (k m : Nat) : (tollUse s w c k m).toll.budget = s.toll.budget := by
  unfold tollUse
  rfl

theorem tollUse_faulted (s : State) (w : Who) (c : Cls) (k m : Nat) : (tollUse s w c k m).toll.faulted = s.toll.faulted := by
  unfold tollUse
  rfl

theorem usedOf_tollUse (s : State) (w : Who) (k m : Nat) :
    usedOf (tollUse s w .control k m) k (clsN .control) = usedOf s k (clsN .control) + m := by
  unfold usedOf tollUse
  dsimp only
  rw [look_put_same]

/-- Accesses made count with those to come. -/
theorem overBudget_tollUse (s : State) (k m n : Nat) :
    overBudget (tollUse s .loom .control k m) .loom .control k n = overBudget s .loom .control k (m + n) :=
  overBudget_of_used n (tollUse_clk s ..) (tollUse_budget s ..) (tollUse_faulted s ..) (usedOf_tollUse s ..)

theorem ptInternal_accounts (s : State) (w : Who) (i level : Nat) (v : Option Word) (pos : Nat) :
    (ptInternal s w i level v pos).toll = (ptUse s w 1).toll ∧ (ptInternal s w i level v pos).clk = (ptUse s w 1).clk := by
  unfold ptInternal
  generalize ptUse s w 1 = t
  dsimp only
  split
  · unfold dropWrite
    dsimp only
    rw [ev_toll, wr_toll, bump_toll, ev_clk, wr_clk, bump_clk]
    exact ⟨rfl, rfl⟩
  · unfold writePoint
    exact ⟨rfl, rfl⟩

/-- Of a number of accesses within budget one is made. -/
theorem overBudget_ptInternal {s : State} {n : Nat} (i level : Nat) (v : Option Word) (pos : Nat)
    (h : overBudget s .loom .control 7 (n + 1) = false) :
    overBudget (ptInternal s .loom i level v pos) .loom .control 7 n = false := by
  obtain ⟨htoll, hclk⟩ := ptInternal_accounts s .loom i level v pos
  have huse : ptUse s .loom 1 = tollCount (tollUse s .loom .control 7 1) 7 .control 0 1 := by
    rw [ptUse_loom s (by decide)]
    unfold hwGrant
    rw [overBudget_mono (m := 1) (by omega) h, if_neg Bool.false_ne_true]
    rfl
  rw [huse] at htoll hclk
  unfold tollCount at htoll hclk
  rw [bumpBy_toll] at htoll
  rw [bumpBy_clk] at hclk
  rw [overBudget_congr htoll hclk, overBudget_tollUse, Nat.add_comm, h]

/-- An update that every step of a fold leaves alone. -/
theorem foldl_keeps {α β : Type} {f : State → α → State} (g : State → β) (h : ∀ s x, g (f s x) = g s) (l : List α) (s : State) :
    g (l.foldl f s) = g s := by
  induction l generalizing s with
  | nil => rfl
  | cons x xs ih => rw [List.foldl_cons, ih, h]

theorem objCommitLoom_accounts (s : State) (n o : Nat) (v : Word) :
    (objCommitLoom s n o v).toll = s.toll ∧ (objCommitLoom s n o v).clk = s.clk := by
  unfold objCommitLoom objPending
  dsimp only
  split
  · unfold busWake stbyFollow
    dsimp only
    split
    · split
      · exact ⟨by rw [ev_toll]; rfl, by rw [ev_clk]; rfl⟩
      · exact ⟨by rw [ev_toll]; rfl, by rw [ev_clk]; rfl⟩
    · exact ⟨rfl, rfl⟩
  · exact ⟨rfl, rfl⟩

theorem outPlace_accounts (s : State) (p : Program) (o : OutSlot) (v : Word) :
    (outPlace s p o v).toll = s.toll ∧ (outPlace s p o v).clk = s.clk := by
  unfold outPlace
  dsimp only
  split
  · exact ⟨rfl, rfl⟩
  · split
    · exact ⟨rfl, rfl⟩
    · split
      · exact objCommitLoom_accounts _ _ _ _
      · exact ⟨rfl, rfl⟩

theorem placeAt_accounts (s : State) (p : Program) (q : Nat) (v : Word) :
    (placeAt s p q v).toll = s.toll ∧ (placeAt s p q v).clk = s.clk :=
  ⟨foldl_keeps State.toll (fun t o => (outPlace_accounts t p o v).1) _ s,
    foldl_keeps State.clk (fun t o => (outPlace_accounts t p o v).2) _ s⟩

/-! ### Outputs committed -/

/-- The last committed values of Loom's outputs replaced. -/
def withLast (s : State) (l : List (Nat × (Word × Bool))) : State := { s with loom := { s.loom with lastOut := l } }

theorem Outward.withLast {s t : State} (h : Outward s t) (l : List (Nat × (Word × Bool))) :
    Outward (Proofs.withLast s l) (Proofs.withLast t l) where
  loom := by
    change { t.loom with lastOut := l } = _
    rw [h.loom]
    rfl
  scan := h.scan
  faulted := h.faulted

theorem Outward.last {s t : State} (h : Outward s t) : Outward (Proofs.withLast s t.loom.lastOut) t :=
  h.withLast t.loom.lastOut

/-- An output's commit to its point and then to its destinations. -/
theorem outward_withLast {s t u : State} (l : List (Nat × (Word × Bool))) (h : Outward s t) (k : Outward (withLast t l) u) :
    Outward (withLast s l) u := (h.withLast l).trans k

/-- A committed output changes of Loom only the last value beside the slots, and makes one access to the point store. -/
theorem outCommit_outward {s : State} {n : Nat} (p : Program) (q : Nat) (g : Stg) (pos : Nat)
    (h : overBudget s .loom .control 7 (n + 1) = false) :
    (∃ l, Outward (withLast s l) (outCommit s p q g pos)) ∧ overBudget (outCommit s p q g pos) .loom .control 7 n = false := by
  have hone := overBudget_mono (m := 1) (by omega) h
  unfold outCommit
  cases g with
  | relinquish =>
    dsimp only
    have hpt := outward_ptInternal q (clampN 1 16 p.prio) none pos hone
    have hroom := overBudget_ptInternal q (clampN 1 16 p.prio) none pos h
    generalize ptInternal s .loom q (clampN 1 16 p.prio) none pos = u at hpt hroom ⊢
    split
    · exact ⟨⟨_, hpt.withLast _⟩, hroom⟩
    · exact ⟨⟨_, hpt.last⟩, hroom⟩
  | value v =>
    dsimp only
    have hpt := outward_ptInternal q (clampN 1 16 p.prio) (some v) pos hone
    have hroom := overBudget_ptInternal q (clampN 1 16 p.prio) (some v) pos h
    generalize ptInternal s .loom q (clampN 1 16 p.prio) (some v) pos = u at hpt hroom ⊢
    obtain ⟨htoll, hclk⟩ := placeAt_accounts (withLast u (ins u.loom.lastOut q (v, false))) p q v
    change (∃ l, Outward (withLast s l) (placeAt (withLast u (ins u.loom.lastOut q (v, false))) p q v)) ∧
      overBudget (placeAt (withLast u (ins u.loom.lastOut q (v, false))) p q v) .loom .control 7 n = false
    rw [overBudget_congr (s := u) htoll hclk]
    exact ⟨⟨_, outward_withLast _ hpt (outward_placeAt _ p q v)⟩, hroom⟩

theorem outCommits_outward {s : State} (p : Program) (l : List (Nat × Stg)) (pos : Nat)
    (h : overBudget s .loom .control 7 l.length = false) :
    ∃ m, Outward (withLast s m) (l.foldl (fun t x => outCommit t p x.1 x.2 pos) s) := by
  induction l generalizing s with
  | nil => exact ⟨s.loom.lastOut, .refl s⟩
  | cons x xs ih =>
    obtain ⟨⟨l, hfirst⟩, hroom⟩ := outCommit_outward p x.1 x.2 pos h
    obtain ⟨m, hrest⟩ := ih hroom
    exact ⟨m, (hfirst.withLast m).trans hrest⟩

/-! ### The effects of a scan -/

theorem get?_none_of_lt {α : Type} {m : List (Nat × α)} {k : Nat} (h : ∀ e ∈ m, k < e.1) : get? m k = none := by
  induction m with
  | nil => rfl
  | cons e es ih =>
    have hne : e.1 ≠ k := (h e List.mem_cons_self).ne'
    unfold get?
    rw [if_neg hne]
    exact ih fun x hx => h x (List.mem_cons_of_mem _ hx)

/-- Entries put one after the other from a list in the order of its keys: each reads as the list has it. -/
theorem look_foldl_put {α : Type} [DecidableEq α] (d : α) {e : List (Nat × α)} (h : rising e = true) (m : List (Nat × α))
    (k : Nat) : look d (e.foldl (fun m x => put d m x.1 x.2) m) k = (get? e k).getD (look d m k) := by
  induction e generalizing m with
  | nil => rfl
  | cons x xs ih =>
    rw [List.foldl_cons, ih (rising_tail h)]
    by_cases hk : x.1 = k
    · have hnone : get? xs k = none := get?_none_of_lt (hk ▸ rising_head h)
      have hsome : get? (x :: xs) k = some x.2 := by
        unfold get?
        rw [if_pos hk]
      rw [hnone, hsome, ← hk]
      exact look_put_same d m x.1 x.2
    · have hother : get? (x :: xs) k = get? xs k := by
        conv_lhs => unfold get?
        rw [if_neg hk]
      rw [hother, look_put_other d d m x.2 (Ne.symm hk)]

/-- One kind of effect of a list of segments, in program order. -/
def gathered {α : Type} (f : SegRes → List (Nat × α)) (l : List (Nat × SegRes)) : List (Nat × α) :=
  l.foldl (fun m e => (f e.2).foldl (fun m x => ins m x.1 x.2) m) []

theorem scanEffects_words (c : Scan) : (scanEffects c).words = gathered SegRes.words c.res :=
  (List.foldl_hom SegRes.words fun _ _ => rfl).symm
theorem scanEffects_fbs (c : Scan) : (scanEffects c).fbs = gathered SegRes.fbs c.res :=
  (List.foldl_hom SegRes.fbs fun _ _ => rfl).symm
theorem scanEffects_outs (c : Scan) : (scanEffects c).outs = gathered SegRes.outs c.res :=
  (List.foldl_hom SegRes.outs fun _ _ => rfl).symm

theorem rising_foldl_ins {α : Type} (l : List (Nat × α)) {m : List (Nat × α)} (h : rising m = true) :
    rising (l.foldl (fun m x => ins m x.1 x.2) m) = true := by
  induction l generalizing m with
  | nil => exact h
  | cons x xs ih => exact ih (rising_ins x.1 x.2 h)

theorem rising_gathered {α : Type} (f : SegRes → List (Nat × α)) (l : List (Nat × SegRes)) : rising (gathered f l) = true := by
  have hfold : ∀ (l : List (Nat × SegRes)) (m : List (Nat × α)), rising m = true →
      rising (l.foldl (fun m e => (f e.2).foldl (fun m x => ins m x.1 x.2) m) m) = true := by
    intro l
    induction l with
    | nil => exact fun _ h => h
    | cons e es ih => exact fun m h => ih _ (rising_foldl_ins _ h)
  exact hfold l [] rfl

/-- The cap on a scan's events (R95) leaves every other effect. -/
theorem gathered_capEvents {α : Type} {f : SegRes → List (Nat × α)} (hf : ∀ r ev fl, f { r with evts := ev, fl := fl } = f r)
    (n : Nat) (l : List (Nat × SegRes)) : gathered f (capEvents n l) = gathered f l := by
  have hfold : ∀ (l : List (Nat × SegRes)) (n : Nat) (m : List (Nat × α)),
      (capEvents n l).foldl (fun m e => (f e.2).foldl (fun m x => ins m x.1 x.2) m) m =
        l.foldl (fun m e => (f e.2).foldl (fun m x => ins m x.1 x.2) m) m := by
    intro l
    induction l with
    | nil => exact fun _ _ => rfl
    | cons e es ih =>
      intro n m
      unfold capEvents
      rw [List.foldl_cons, List.foldl_cons, ih, hf]
  exact hfold l n []

/-- The scan as it is shown: its events capped. -/
def capped (c : Scan) : Scan := { c with res := capEvents 256 c.res }

theorem scanEffects_capped (c : Scan) : (scanEffects (capped c)).words = (scanEffects c).words ∧
    (scanEffects (capped c)).fbs = (scanEffects c).fbs ∧ (scanEffects (capped c)).outs = (scanEffects c).outs := by
  rw [scanEffects_words, scanEffects_fbs, scanEffects_outs, scanEffects_words, scanEffects_fbs, scanEffects_outs]
  exact ⟨gathered_capEvents (fun _ _ _ => rfl) 256 c.res, gathered_capEvents (fun _ _ _ => rfl) 256 c.res,
    gathered_capEvents (fun _ _ _ => rfl) 256 c.res⟩

/-- Program state after a commit: a word that the scan wrote takes its last value, every other one stands (R72, R90). -/
theorem look_commitState (s : State) (c : Scan) :
    (∀ w, look 0 (commitState s (scanEffects c)).loom.words w =
        (get? (scanEffects c).words w).getD (look 0 s.loom.words w)) ∧
      ∀ k, look Fb.zero (commitState s (scanEffects c)).loom.fbs k =
        (get? (scanEffects c).fbs k).getD (look .zero s.loom.fbs k) := by
  refine ⟨fun w => look_foldl_put 0 ?_ _ w, fun k => look_foldl_put Fb.zero ?_ _ k⟩
  · rw [scanEffects_words]
    exact rising_gathered _ _
  · rw [scanEffects_fbs]
    exact rising_gathered _ _

/-! ### A ready scan commits (R66, R77) -/

/-- The outputs, output forces and setpoints of a scan's effects released. -/
def released (s : State) (p : Program) (e : SegRes) (pos : Nat) : State :=
  e.sps.foldl (fun t x => if x.1 < 256 then loopSp t .loom x.1 x.2 else t)
    (forceAll (e.outs.foldl (fun t x => outCommit t p x.1 x.2 pos) (commitState s e)) pos)

/-- A released scan is over: its events delivered, its image shown. -/
def scanOver (s : State) (c : Scan) (e : SegRes) : State :=
  { s with loom := { s.loom with
    events := s.loom.events ++ e.evts.map fun x => (x.1, x.2, c.nom), shown := some c, curDone := true } }

/-- The counts, the hold offset and a pending switch after a commit. -/
def scanCounted (s : State) (c : Scan) (e : SegRes) : State := commitSwitch (commitHold (commitCounts (commitFlags s c e) c))

theorem commitScan_eq (s : State) (p : Program) (c : Scan) (pos : Nat) : commitScan s p c pos =
    districtApply (doSync (sendImages (scanCounted (scanOver (released s p (scanEffects (capped c)) pos) (capped c)
      (scanEffects (capped c))) (capped c) (scanEffects (capped c))) pos)) := rfl

theorem released_outward {s : State} (p : Program) (e : SegRes) (pos : Nat)
    (h : overBudget s .loom .control 7 e.outs.length = false) :
    ∃ m, Outward (withLast (commitState s e) m) (released s p e pos) := by
  obtain ⟨m, houts⟩ := outCommits_outward (s := commitState s e) p e.outs pos h
  refine ⟨m, (houts.trans (outward_forceAll _ pos)).trans (Outward.foldl _ (fun t x _ => ?_) _)⟩
  split
  · exact outward_loopSp t _ _ ‹_›
  · exact .refl t

theorem commitFlags_keeps (s : State) (c : Scan) (e : SegRes) :
    (commitFlags s c e).loom = s.loom ∧ (commitFlags s c e).toll = s.toll := by
  unfold commitFlags
  dsimp only
  split <;> exact ⟨rfl, rfl⟩

theorem commitHold_keeps (s : State) (c : Scan) : ∃ h, (commitHold (commitCounts s c)).loom =
      { s.loom with holdOff := h, held := false, heldN := 0 } ∧ (commitHold (commitCounts s c)).toll = s.toll := by
  have hloom : (commitCounts s c).loom = s.loom := by
    unfold commitCounts
    dsimp only
    rw [wrF_loom, wr_loom, wr_loom, tally_loom, wr64_loom]
  have htoll : (commitCounts s c).toll = s.toll := by
    unfold commitCounts
    dsimp only
    rw [wrF_toll, wr_toll, wr_toll, tally_toll, wr64_toll]
  unfold commitHold
  dsimp only
  rw [wr64_loom, wr64_toll, hloom, htoll]
  exact ⟨_, rfl, rfl⟩

/-- A commit's counts leave what the commit has made of Loom, and CONSEC_OVR at 0. -/
theorem scanCounted_keeps (s : State) (c : Scan) (e : SegRes) :
    (scanCounted s c e).loom.words = s.loom.words ∧ (scanCounted s c e).loom.fbs = s.loom.fbs ∧
      (scanCounted s c e).loom.shown = s.loom.shown ∧ (scanCounted s c e).loom.curDone = s.loom.curDone ∧
      (scanCounted s c e).toll = s.toll ∧ rdF (scanCounted s c e) (reg pSCAN 0x090) 8 8 = 0 := by
  have hconsec (t : State) : rdF (commitHold (commitCounts t c)) (reg pSCAN 0x090) 8 8 = 0 := by
    unfold commitHold commitCounts wr64 rdF
    dsimp only
    rw [rd_wr_other _ _ (by decide), rd_wr_other _ _ (by decide), rd_with_loom]
    exact rd_wrF_same _ 0 (by decide)
  obtain ⟨hloom, htoll⟩ := commitFlags_keeps s c e
  obtain ⟨h, hhold, htoll'⟩ := commitHold_keeps (commitFlags s c e) c
  rw [hloom] at hhold
  rw [htoll] at htoll'
  have hzero := hconsec (commitFlags s c e)
  unfold scanCounted
  generalize commitHold (commitCounts (commitFlags s c e) c) = u at hhold htoll' hzero ⊢
  unfold commitSwitch
  split
  · refine ⟨?_, ?_, ?_, ?_, htoll', hzero⟩ <;> unfold dropAhead <;> dsimp only <;> rw [hhold]
  · exact ⟨by rw [hhold], by rw [hhold], by rw [hhold], by rw [hhold], htoll', hzero⟩

/-- A ready scan committed. -/
theorem commitScan_commits {s : State} (p : Program) (c : Scan) (pos : Nat)
    (h : overBudget s .loom .control 7 (scanEffects c).outs.length = false) :
    (commitScan s p c pos).loom.curDone = true ∧ (commitScan s p c pos).loom.shown = some (capped c) ∧
      rdF (commitScan s p c pos) (reg pSCAN 0x090) 8 8 = 0 ∧
      (∀ w, look 0 (commitScan s p c pos).loom.words w = (get? (scanEffects c).words w).getD (look 0 s.loom.words w)) ∧
      (∀ k, look Fb.zero (commitScan s p c pos).loom.fbs k = (get? (scanEffects c).fbs k).getD (look .zero s.loom.fbs k)) ∧
      ∀ k ∈ (commitScan s p c pos).toll.faulted, k ∈ s.toll.faulted ∨ 0xF0 ≤ k % 256 := by
  obtain ⟨ewords, efbs, eouts⟩ := scanEffects_capped c
  obtain ⟨m, hrel⟩ := released_outward (s := s) p (scanEffects (capped c)) pos (by rw [eouts]; exact h)
  obtain ⟨r, hr⟩ : ∃ r, r = released s p (scanEffects (capped c)) pos := ⟨_, rfl⟩
  obtain ⟨u, hu⟩ : ∃ u, u = scanCounted (scanOver r (capped c) (scanEffects (capped c))) (capped c)
    (scanEffects (capped c)) := ⟨_, rfl⟩
  obtain ⟨kwords, kfbs, kshown, kdone, ktoll, kconsec⟩ := scanCounted_keeps (scanOver r (capped c) (scanEffects (capped c)))
    (capped c) (scanEffects (capped c))
  rw [← hu] at kwords kfbs kshown kdone ktoll kconsec
  have hout : Outward u (commitScan s p c pos) := by
    rw [commitScan_eq, ← hr, ← hu]
    exact ((outward_sendImages u pos).trans (outward_doSync _)).trans (outward_districtApply _)
  rw [← hr] at hrel
  obtain ⟨lwords, lfbs⟩ := look_commitState s (capped c)
  rw [ewords] at lwords
  rw [efbs] at lfbs
  have hwords : (commitScan s p c pos).loom.words = (commitState s (scanEffects (capped c))).loom.words := by
    rw [hout.loom]
    change u.loom.words = _
    rw [kwords]
    change r.loom.words = _
    rw [hrel.loom]
    rfl
  have hfbs : (commitScan s p c pos).loom.fbs = (commitState s (scanEffects (capped c))).loom.fbs := by
    rw [hout.loom]
    change u.loom.fbs = _
    rw [kfbs]
    change r.loom.fbs = _
    rw [hrel.loom]
    rfl
  refine ⟨?_, ?_, ?_, fun w => by rw [hwords, lwords w], fun k => by rw [hfbs, lfbs k], fun k hk => ?_⟩
  · rw [hout.loom]
    exact kdone
  · rw [hout.loom]
    exact kshown
  · unfold rdF
    rw [hout.scan _ (by decide)]
    exact kconsec
  · rcases hout.faulted k hk with hk | hk
    · rw [ktoll] at hk
      exact hrel.faulted k hk
    · exact .inr hk

/-! ### The stop image (R81, R82) -/

theorem stopOut_none {s : State} {p : Program} {o : OutSlot} {pos : Nat} (h : stopValue s o = none) : stopOut s p o pos = s := by
  unfold stopOut
  rw [h]

/-- An output's stop value committed: it is the last committed one. -/
theorem stopOut_some {s : State} {n : Nat} {p : Program} {o : OutSlot} {v : Word} (pos : Nat) (h : stopValue s o = some v)
    (hroom : overBudget s .loom .control 7 (n + 1) = false) :
    Outward (withLast s (ins s.loom.lastOut o.point (v, false))) (stopOut s p o pos) ∧
      overBudget (stopOut s p o pos) .loom .control 7 n = false := by
  have hpt := outward_ptInternal o.point (clampN 1 16 p.prio) (some v) pos (overBudget_mono (m := 1) (by omega) hroom)
  obtain ⟨u, hu⟩ : ∃ u, u = ptInternal s .loom o.point (clampN 1 16 p.prio) (some v) pos := ⟨_, rfl⟩
  have hleft := overBudget_ptInternal o.point (clampN 1 16 p.prio) (some v) pos hroom
  rw [← hu] at hpt hleft
  have hlast : u.loom.lastOut = s.loom.lastOut := by
    rw [hpt.loom]
  have hstop : stopOut s p o pos = outPlace (withLast u (ins s.loom.lastOut o.point (v, false))) p o v := by
    unfold stopOut
    rw [h]
    dsimp only
    rw [← hu, ← hlast]
    rfl
  obtain ⟨htoll, hclk⟩ := outPlace_accounts (withLast u (ins s.loom.lastOut o.point (v, false))) p o v
  rw [hstop]
  rw [overBudget_congr (s := u) htoll hclk]
  exact ⟨outward_withLast _ hpt (outward_outPlace _ p o v), hleft⟩

theorem stopOuts_outward {s : State} (p : Program) (l : List OutSlot) (pos : Nat)
    (h : l ≠ [] → overBudget s .loom .control 7 l.length = false) :
    ∃ m, Outward (withLast s m) (l.foldl (fun t o => stopOut t p o pos) s) := by
  induction l generalizing s with
  | nil => exact ⟨s.loom.lastOut, .refl s⟩
  | cons o os ih =>
    have hroom := h (List.cons_ne_nil o os)
    rw [List.foldl_cons]
    cases hv : stopValue s o with
    | none =>
      rw [stopOut_none hv]
      exact ih fun _ => overBudget_mono (Nat.le_succ _) hroom
    | some v =>
      obtain ⟨hfirst, hleft⟩ := stopOut_some (p := p) pos hv hroom
      obtain ⟨m, hrest⟩ := ih fun _ => hleft
      exact ⟨m, (hfirst.withLast m).trans hrest⟩

theorem bit_aetDisable (s : State) (n k : Nat) :
    bit (aetW0 (aetDisable s n) k) 31 = (decide (k ≠ n) && bit (aetW0 s k) 31) := by
  unfold aetDisable
  by_cases hk : k = n
  · subst hk
    rw [aetW0_aetSet_same]
    exact (bit_setFld_one (aetW0 s k) false 31 (by decide)).trans (by simp)
  · rw [(aetSet_other s _ _ hk).1]
    simp [hk]

theorem rd_doSync_other (s : State) {a : Nat} (h : a ≠ reg pFIO 0x090) : rd (doSync s) a = rd s a := by
  unfold doSync doRefresh
  dsimp only
  rw [rd_wr_other _ _ h]
  refine foldl_keeps (fun t => rd t a) (fun t k => ?_) _ s
  unfold doFollow
  dsimp only
  split <;> rfl

/-- The stop image released to the points, the destinations and the stations. -/
def stopReleased (s : State) (p : Program) (pos : Nat) : State :=
  sendImages (forceAll (p.outs.foldl (fun t o => stopOut t p o pos) s) pos) pos

/-- The stop image is committed: none is pending any more, and entries 0–3 are disabled. -/
def stopOver (s : State) : State := [0, 1, 2, 3].foldl aetDisable { s with loom := { s.loom with stopPending := false } }

theorem commitStop_eq {s : State} {p : Program} (pos : Nat) (h : activeProg s = some p) :
    commitStop s pos = doSync (stopOver (stopReleased s p pos)) := by
  unfold commitStop
  rw [h]
  rfl

theorem aetDisable_keeps (s : State) (n : Nat) : (aetDisable s n).loom = s.loom ∧ (aetDisable s n).toll = s.toll := by
  unfold aetDisable aetSet
  dsimp only
  rw [wr_loom, wr_loom, notePast_loom, notePast_loom, wr_toll, wr_toll, notePast_toll, notePast_toll]
  exact ⟨rfl, rfl⟩

theorem stopOver_loom (s : State) : (stopOver s).loom = { s.loom with stopPending := false } :=
  foldl_keeps State.loom (fun t n => (aetDisable_keeps t n).1) _ _

theorem stopOver_toll (s : State) : (stopOver s).toll = s.toll :=
  foldl_keeps State.toll (fun t n => (aetDisable_keeps t n).2) _ _

theorem bit_stopOver (s : State) {k : Nat} (hk : k < 4) : bit (aetW0 (stopOver s) k) 31 = false := by
  unfold stopOver
  simp only [List.foldl_cons, List.foldl_nil, bit_aetDisable]
  interval_cases k <;> simp

/-- The stop image committed. -/
theorem commitStop_commits {s : State} {p : Program} (pos : Nat) (hprog : activeProg s = some p)
    (h : p.outs ≠ [] → overBudget s .loom .control 7 p.outs.length = false) :
    (commitStop s pos).loom.eng = s.loom.eng ∧ (commitStop s pos).loom.stopPending = false ∧
      (∀ k < 4, bit (aetW0 (commitStop s pos) k) 31 = false) ∧
      (∀ o v, p.outs = [o] → stopValue s o = some v → get? (commitStop s pos).loom.lastOut o.point = some (v, false)) ∧
      ∀ k ∈ (commitStop s pos).toll.faulted, k ∈ s.toll.faulted ∨ 0xF0 ≤ k % 256 := by
  obtain ⟨m, houts⟩ := stopOuts_outward (s := s) p p.outs pos h
  have hrel (t : State) : Outward t (sendImages (forceAll t pos) pos) :=
    (outward_forceAll t pos).trans (outward_sendImages _ pos)
  have hout := houts.trans (hrel _)
  change Outward (withLast s m) (stopReleased s p pos) at hout
  have hsync := outward_doSync (stopOver (stopReleased s p pos))
  rw [commitStop_eq pos hprog]
  refine ⟨?_, ?_, fun k hk => ?_, fun o v hone hv => ?_, fun k hk => ?_⟩
  · rw [hsync.loom, stopOver_loom, hout.loom]
    rfl
  · rw [hsync.loom, stopOver_loom]
  · rw [← bit_stopOver (stopReleased s p pos) hk]
    unfold aetW0
    rw [rd_doSync_other _ (aetAddr_ne_reg (by decide) (by decide) (.inr (by decide)) (by omega))]
  · have hroom : overBudget s .loom .control 7 (0 + 1) = false := by
      have := h (by rw [hone]; exact List.cons_ne_nil _ _)
      rwa [hone] at this
    have hlast := (stopOut_some (p := p) pos hv hroom).1.trans (hrel _)
    rw [hsync.loom, stopOver_loom]
    unfold stopReleased
    rw [hone]
    change get? (sendImages (forceAll (stopOut s p o pos) pos) pos).loom.lastOut o.point = _
    rw [hlast.loom]
    exact get?_ins_same _ _ _
  · rcases hsync.faulted k hk with hk | hk
    · rw [stopOver_toll] at hk
      exact hout.faulted k hk
    · exact .inr hk

/-! ### An overrun (R76, R77) -/

/-- What an overrun leaves: the scans dropped, everything committed as it was, EVT.OVERRUN and the count of overruns in a row. -/
structure Overran (s t : State) : Prop where
  curDone : t.loom.curDone = true
  ahead1 : t.loom.ahead1 = none
  ahead2 : t.loom.ahead2 = none
  words : t.loom.words = s.loom.words
  fbs : t.loom.fbs = s.loom.fbs
  lastOut : t.loom.lastOut = s.loom.lastOut
  slots : t.loom.slots = s.loom.slots
  pts : t.pts = s.pts
  toll : t.toll = s.toll
  evt : rdB t (reg pSCAN 0x094) 0 = true
  consec : rdF t (reg pSCAN 0x090) 8 8 = min 255 (rdF s (reg pSCAN 0x090) 8 8 + 1)

theorem rdB_evScan (s : State) {b : Nat} (j : Nat) (hb : b < 32) :
    rdB (ev s pSCAN b) (reg pSCAN 0x094) j = (rdB s (reg pSCAN 0x094) j || decide (b = j)) := by
  unfold rdB
  rw [rd_ev_same s b evtAddr_scan, bit_or, bit_w32_pow j hb]

/-- The scans dropped and the overrun counted, before Scrivener and OVR_STOP take part. -/
def overrunCounted (s : State) : State :=
  satF (bump (ev (dropScans s) pSCAN 0) (reg pSCAN 0x0B4)) (reg pSCAN 0x090) 8 8 1

theorem overrunCounted_loom (s : State) : (overrunCounted s).loom = (dropScans s).loom := by
  unfold overrunCounted
  rw [satF_loom, bump_loom, ev_loom]

theorem overran_overrunCounted (s : State) : Overran s (overrunCounted s) := by
  have hconsec : rdF (overrunCounted s) (reg pSCAN 0x090) 8 8 = min 255 (rdF s (reg pSCAN 0x090) 8 8 + 1) := by
    have hbefore : rdF (bump (ev (dropScans s) pSCAN 0) (reg pSCAN 0x0B4)) (reg pSCAN 0x090) 8 8 =
        rdF s (reg pSCAN 0x090) 8 8 := by
      unfold rdF
      rw [rd_bump_other _ (by decide), rd_ev_other _ _ _ (by decide)]
      rfl
    unfold overrunCounted satF
    rw [rd_wrF_same _ _ (by decide), hbefore]
    omega
  have hevt : rdB (overrunCounted s) (reg pSCAN 0x094) 0 = true := by
    unfold overrunCounted rdB
    rw [rd_satF_other _ _ _ _ (by decide), rd_bump_other _ (by decide)]
    exact (rdB_evScan (dropScans s) 0 (by decide)).trans (Bool.or_true _)
  have hpts : (overrunCounted s).pts = s.pts := by
    unfold overrunCounted
    rw [satF_pts, bump_pts, ev_pts]
    rfl
  have htoll : (overrunCounted s).toll = s.toll := by
    unfold overrunCounted
    rw [satF_toll, bump_toll, ev_toll]
    rfl
  have hloom := overrunCounted_loom s
  constructor
  case pts => exact hpts
  case toll => exact htoll
  case evt => exact hevt
  case consec => exact hconsec
  all_goals rw [hloom]; rfl

/-- A firing trigger is ignored, suppressed, lost or queued (R316, R317, R320). -/
theorem scrvFire_cases (s : State) (n : Nat) (c : Cls) (pos : Nat) (late : Bool) : scrvFire s n c pos late = s ∨
    scrvFire s n c pos late = bump s (reg pSCRV 0x09C) ∨ scrvFire s n c pos late = scrvLose s ∨
    ∃ x, scrvFire s n c pos late = { s with scrv := x } := by
  unfold scrvFire
  dsimp only
  cases get? s.scrv.last n <;> dsimp only <;> split_ifs <;> simp

/-- Scrivener's trigger leaves Loom, the points, the accounts and SCAN. -/
theorem scrvFire_keeps (s : State) (n : Nat) (c : Cls) (pos : Nat) (late : Bool) :
    (scrvFire s n c pos late).loom = s.loom ∧ (scrvFire s n c pos late).pts = s.pts ∧
      (scrvFire s n c pos late).toll = s.toll ∧
      ∀ a, pageOf a = pSCAN → rd (scrvFire s n c pos late) a = rd s a := by
  have hother {a : Nat} (ha : pageOf a = pSCAN) {o : Nat} (ho : o < 4096) : a ≠ reg pSCRV o := by
    rintro rfl
    rw [pageOf_reg _ ho] at ha
    exact absurd ha (by decide)
  have hevt {a : Nat} (ha : pageOf a = pSCAN) : evtAddr pSCRV ≠ some a := fun e =>
    absurd ((pageOf_evtAddr e).symm.trans ha) (by decide)
  rcases scrvFire_cases s n c pos late with h | h | h | ⟨x, h⟩ <;> rw [h]
  · exact ⟨rfl, rfl, rfl, fun _ _ => rfl⟩
  · exact ⟨rfl, rfl, rfl, fun a ha => rd_bump_other _ (hother ha (by decide))⟩
  · unfold scrvLose
    refine ⟨by rw [ev_loom, bump_loom], by rw [ev_pts, bump_pts], by rw [ev_toll, bump_toll], fun a ha => ?_⟩
    rw [rd_ev_other _ _ _ (hevt ha), rd_bump_other _ (hother ha (by decide)), rd_with_scrv]
  · exact ⟨rfl, rfl, rfl, fun _ _ => rfl⟩

/-- The overrun's effect does not see an update that leaves Loom, the points, the accounts and SCAN. -/
theorem Overran.congr {s t u : State} (h : Overran s t) (hl : u.loom = t.loom) (hp : u.pts = t.pts) (ht : u.toll = t.toll)
    (hr : ∀ a, pageOf a = pSCAN → rd u a = rd t a) : Overran s u := by
  have hevt : rd u (reg pSCAN 0x094) = rd t (reg pSCAN 0x094) := hr _ (by decide)
  have hconsec : rd u (reg pSCAN 0x090) = rd t (reg pSCAN 0x090) := hr _ (by decide)
  constructor
  case pts => rw [hp, h.pts]
  case toll => rw [ht, h.toll]
  case evt => unfold rdB; rw [hevt]; exact h.evt
  case consec => unfold rdF; rw [hconsec]; exact h.consec
  case curDone => rw [hl]; exact h.curDone
  case ahead1 => rw [hl]; exact h.ahead1
  case ahead2 => rw [hl]; exact h.ahead2
  all_goals rw [hl]
  exacts [h.words, h.fbs, h.lastOut, h.slots]

/-- Loom in STOP with the uncommitted scans discarded (R81). -/
def haltedLoom (l : Loom) : Loom :=
  { l with
    curDone := true, ahead1 := none, ahead2 := none, lanes := [], prevReplayed := [], prev := none, stopPending := true
    paused := false, held := false, heldN := 0, stepping := 0, resumed := none, swReady := l.swPending, eng := .stop }

theorem scanHalt_loom {s : State} (h : s.loom.eng ≠ .stop) : (scanHalt s).loom = haltedLoom s.loom := by
  unfold scanHalt
  rw [if_neg h]
  dsimp only
  rw [wrF_loom, setEngine_loom]
  rfl

/-- The stop after OVR_STOP overruns in a row: EVT.OVR_STOP, and STOP entered (R77). -/
theorem Overran.halt {s t : State} (h : Overran s t) (heng : t.loom.eng ≠ .stop) :
    Overran s (scanHalt (ev t pSCAN 1)) ∧ (scanHalt (ev t pSCAN 1)).loom.eng = .stop ∧
      rdB (scanHalt (ev t pSCAN 1)) (reg pSCAN 0x094) 1 = true := by
  have heng' : (ev t pSCAN 1).loom.eng ≠ .stop := by rwa [ev_loom]
  have hloom := scanHalt_loom heng'
  rw [ev_loom] at hloom
  obtain ⟨u, hu⟩ : ∃ u : State, u = { dropScans (ev t pSCAN 1) with loom := { (dropScans (ev t pSCAN 1)).loom with
      prev := none, stopPending := true, paused := false, held := false, heldN := 0, stepping := 0, resumed := none
      swReady := (dropScans (ev t pSCAN 1)).loom.swPending } } := ⟨_, rfl⟩
  have hhalt : scanHalt (ev t pSCAN 1) = wrF (ev { u with loom := { u.loom with eng := .stop } } pSCAN 8)
      (reg pSCANDBG 0x084) 17 2 0 := by
    have hne : u.loom.eng ≠ .stop := by rw [hu]; exact heng'
    unfold scanHalt
    rw [if_neg heng']
    dsimp only
    rw [← hu]
    unfold setEngine
    rw [if_neg hne]
  have hrd (a : Nat) : rd u a = rd (ev t pSCAN 1) a := by rw [hu]; rfl
  have hevt (j : Nat) : rdB (scanHalt (ev t pSCAN 1)) (reg pSCAN 0x094) j =
      (rdB t (reg pSCAN 0x094) j || decide (1 = j) || decide (8 = j)) := by
    rw [hhalt]
    unfold rdB
    rw [rd_wrF_other _ _ _ _ (by decide)]
    change rdB _ _ j = _
    rw [rdB_evScan _ j (by decide)]
    change (rdB u _ j || _) = _
    unfold rdB
    rw [hrd]
    change (rdB _ _ j || _) = _
    rw [rdB_evScan t j (by decide)]
    rfl
  refine ⟨?_, by rw [hloom]; rfl, by rw [hevt 1]; simp⟩
  constructor
  case pts =>
    rw [hhalt, wrF_pts, ev_pts, ← h.pts]
    change u.pts = _
    rw [hu]
    exact ev_pts t pSCAN 1
  case toll =>
    rw [hhalt, wrF_toll, ev_toll, ← h.toll]
    change u.toll = _
    rw [hu]
    exact ev_toll t pSCAN 1
  case evt => rw [hevt 0, h.evt]; rfl
  case consec =>
    rw [← h.consec, hhalt]
    unfold rdF
    rw [rd_wrF_other _ _ _ _ (by decide), rd_ev_other _ _ _ (by decide), rd_with_loom, hrd, rd_ev_other _ _ _ (by decide)]
  case curDone => rw [hloom]; rfl
  case ahead1 => rw [hloom]; rfl
  case ahead2 => rw [hloom]; rfl
  all_goals rw [hloom]
  exacts [h.words, h.fbs, h.lastOut, h.slots]

/-- An overrun in RUN: at OVR_STOP overruns in a row Loom enters STOP, before that it stays in RUN. -/
theorem overrun_overruns {s : State} (pos : Nat) (heng : s.loom.eng = .run) :
    Overran s (overrun s pos) ∧
      (rdF s (reg pSCAN 0x080) 8 4 ≠ 0 →
        (rdF s (reg pSCAN 0x080) 8 4 ≤ rdF s (reg pSCAN 0x090) 8 8 + 1 →
          (overrun s pos).loom.eng = .stop ∧ rdB (overrun s pos) (reg pSCAN 0x094) 1 = true) ∧
        (rdF s (reg pSCAN 0x090) 8 8 + 1 < rdF s (reg pSCAN 0x080) 8 4 → (overrun s pos).loom.eng = .run)) ∧
      (rdF s (reg pSCAN 0x080) 8 4 = 0 → (overrun s pos).loom.eng = .run) := by
  obtain ⟨u, hu⟩ : ∃ u, u = (if bit (rd (overrunCounted s) (reg pSCAN 0x080)) 22 then
      scrvFire (overrunCounted s) (fld (rd (overrunCounted s) (reg pSCAN 0x080)) 16 6) .bulk pos false
    else overrunCounted s) := ⟨_, rfl⟩
  have hctrl : rd (overrunCounted s) (reg pSCAN 0x080) = rd s (reg pSCAN 0x080) := by
    unfold overrunCounted
    rw [rd_satF_other _ _ _ _ (by decide), rd_bump_other _ (by decide), rd_ev_other _ _ _ (by decide)]
    rfl
  have hover : overrun s pos = if rdF s (reg pSCAN 0x080) 8 4 ≠ 0 ∧
      rdF s (reg pSCAN 0x080) 8 4 ≤ rdF u (reg pSCAN 0x090) 8 8 then scanHalt (ev u pSCAN 1) else u := by
    unfold rdF
    rw [hu, ← hctrl]
    rfl
  obtain ⟨hran, hueng⟩ : Overran s u ∧ u.loom.eng = .run := by
    have hcounted := overran_overrunCounted s
    have heng' : (overrunCounted s).loom.eng = .run := by rw [overrunCounted_loom]; exact heng
    obtain ⟨kloom, kpts, ktoll, krd⟩ := scrvFire_keeps (overrunCounted s)
      (fld (rd (overrunCounted s) (reg pSCAN 0x080)) 16 6) .bulk pos false
    rw [hu]
    split
    · exact ⟨hcounted.congr kloom kpts ktoll krd, by rw [kloom, heng']⟩
    · exact ⟨hcounted, heng'⟩
  obtain ⟨hhalt, hstop, hevt⟩ := hran.halt (by rw [hueng]; decide)
  have hfield : rdF s (reg pSCAN 0x080) 8 4 < 2 ^ 4 := Nat.mod_lt _ (by decide)
  rw [hran.consec] at hover
  by_cases hc : rdF s (reg pSCAN 0x080) 8 4 ≠ 0 ∧
      rdF s (reg pSCAN 0x080) 8 4 ≤ min 255 (rdF s (reg pSCAN 0x090) 8 8 + 1)
  · rw [if_pos hc] at hover
    rw [hover]
    exact ⟨hhalt, fun _ => ⟨fun _ => ⟨hstop, hevt⟩, fun hlt => absurd hc.2 (by omega)⟩, fun h0 => absurd h0 hc.1⟩
  · rw [if_neg hc] at hover
    rw [hover]
    exact ⟨hran, fun h0 => ⟨fun hle => absurd ⟨h0, by omega⟩ hc, fun _ => hueng⟩, fun _ => hueng⟩

/-! ### SCAN_COMMIT fires -/

/-- The state in which SCAN_COMMIT fires alone at a position: the clock there, the action counted (R45, R50). -/
def atCommit (s : State) (pos : Nat) : State :=
  bump { reachPos s pos with lac := { s.lac with evald := pos, deferred := [] } } (reg pLAC 0x0A0)

theorem atCommit_loom (s : State) (pos : Nat) : (atCommit s pos).loom = s.loom := by
  unfold atCommit
  rw [bump_loom]
  exact reachPos_loom s pos

theorem atCommit_toll (s : State) (pos : Nat) : (atCommit s pos).toll = (reachPos s pos).toll := by
  unfold atCommit
  rw [bump_toll]

theorem atCommit_clk (s : State) (pos : Nat) : (atCommit s pos).clk = (reachPos s pos).clk := by
  unfold atCommit
  rw [bump_clk]

theorem atCommit_pts (s : State) (pos : Nat) : (atCommit s pos).pts = s.pts := by
  unfold atCommit
  rw [bump_pts]
  exact reachPos_pts s pos

theorem rd_atCommit (s : State) (pos : Nat) {a : Nat} (h : pageOf a ≠ pLAC) : rd (atCommit s pos) a = rd s a := by
  unfold atCommit
  rw [rd_bump_other _ (fun e => h (by rw [e]; decide)), rd_with_lac, rd_reachPos]

theorem stopValue_atCommit (s : State) (pos : Nat) (o : OutSlot) : stopValue (atCommit s pos) o = stopValue s o := by
  unfold stopValue doSafe rdB
  rw [atCommit_loom, rd_atCommit s pos (by decide)]

/-- SCAN_COMMIT as an action of the table. -/
theorem fireOne_commit {s : State} {f : Fire} (hlate : f.late = false) (hact : fld f.w1 0 8 = 5)
    (hawake : s.guard.asleep = false) : fireOne s f false =
      budgetSettle (bump s (reg pLAC 0x0A0)) (scanCommit (bump s (reg pLAC 0x0A0)) f.pos false) := by
  unfold fireOne
  dsimp only
  rw [hact, hlate, if_neg Bool.false_ne_true, if_neg (by rw [bump_guard, hawake]; simp)]
  unfold actionDo
  rw [hlate]
  rfl

/-- SCAN_COMMIT fires alone at its position. -/
theorem exec_scanCommit {s : State} {pos n : Nat} {w0 w1 : Word} (hserv : s.lac.inService = true) (hlate : s.lac.evald < pos)
    (hdef : s.lac.deferred = []) (hdue : aetDue s pos = [⟨n, pos, false, w0, w1⟩]) (hact : fld w1 0 8 = 5)
    (hawake : s.guard.asleep = false) : exec (.angleEventFire pos) s =
      finishClock s (budgetSettle (atCommit s pos) (scanCommit (atCommit s pos) pos false)) := by
  have hdue' : (reachPos s pos).lac.deferred ++ aetDue (reachPos s pos) pos = [⟨n, pos, false, w0, w1⟩] := by
    rw [reachPos_lac, hdef, List.nil_append, aetDue_congr (reachPos_past s pos) (rd_reachPos s pos), hdue]
  have hfire : positionFire s pos = fireOne { reachPos s pos with lac := { s.lac with evald := pos, deferred := [] } }
      ⟨n, pos, false, w0, w1⟩ false := by
    unfold positionFire
    rw [if_neg (by simp [hserv, hlate])]
    dsimp only
    rw [hdue', reachPos_lac]
    rfl
  rw [exec_angleEventFire, hfire, fireOne_commit rfl hact (by rw [reachPos_guard, hawake])]
  rfl

theorem scanCommit_stop {s : State} (pos : Nat) (heng : s.loom.eng = .stop) (hpend : s.loom.stopPending = true) :
    scanCommit s pos false = commitStop s pos := by
  unfold scanCommit evIf
  dsimp only
  rw [if_neg Bool.false_ne_true, heng]
  dsimp only
  rw [if_pos hpend]

theorem scanCommit_run {s : State} {p : Program} {c : Scan} (pos : Nat) (heng : s.loom.eng = .run)
    (hprog : activeProg s = some p) (hprev : s.loom.prev = none) (hscan : scanAt s 0 = some c) (hpause : s.loom.paused = false) :
    scanCommit s pos false =
      if c.ready then commitScan s p c pos else if s.loom.held then commitHeld s else overrun s pos := by
  unfold scanCommit evIf
  dsimp only
  rw [if_neg Bool.false_ne_true, heng, hprog, hscan, hprev]
  dsimp only
  rw [ite_self]
  simp [hpause]

/-- Settles O24: SCAN_COMMIT commits the stop image in STOP, a ready scan in RUN, and overruns another. -/
theorem scanCommitsOrOverruns : Obligations.ScanCommitsOrOverruns := by
  unfold Obligations.ScanCommitsOrOverruns
  intro s pos n w0 w1 p c hserv hlate hdef hdue hact hawake hprog
  have hexec := exec_scanCommit hserv hlate hdef hdue hact hawake
  have hroom (k : Nat) : overBudget (atCommit s pos) .loom .control 7 k = overBudget (reachPos s pos) .loom .control 7 k :=
    overBudget_congr (atCommit_toll s pos) (atCommit_clk s pos) 7 k
  have hloom := atCommit_loom s pos
  have hprog' : activeProg (atCommit s pos) = some p := by
    unfold activeProg
    rwa [hloom]
  have hscan' : scanAt (atCommit s pos) 0 = scanAt s 0 := scanAt_zero_congr (by rw [hloom]) (by rw [hloom])
  rw [hexec]
  refine ⟨fun heng hpend hbudget => ?_, fun heng hprev hscan hpause hready hbudget => ?_,
    fun heng hprev hscan hpause hready hheld => ?_⟩
  · obtain ⟨keng, kpend, kbits, klast, kfault⟩ := commitStop_commits pos hprog' fun hne => by
      obtain ⟨o, os, ho⟩ := List.exists_cons_of_ne_nil hne
      rw [hroom]
      exact hbudget o (by rw [ho]; exact List.mem_cons_self)
    obtain ⟨ksettled, hrd⟩ := budgetSettle_cores kfault
    rw [scanCommit_stop pos (by rwa [atCommit_loom]) (by rwa [atCommit_loom])]
    obtain ⟨t, hnext, hdone, -⟩ := finishClock_done s (budgetSettle (atCommit s pos) (commitStop (atCommit s pos) pos))
    refine ⟨t, hnext, ?_, ?_, fun k hk => ?_, fun o v hone hv => ?_⟩
    · rw [hdone.loom, ksettled, keng, atCommit_loom, heng]
    · rw [hdone.loom, ksettled, kpend]
    · rw [← kbits k hk]
      unfold aetW0
      rw [hdone.rd, hrd _ (by rw [pageOf_aetAddr k (by decide)]; unfold pAET pFLTM; omega)]
    · rw [hdone.loom, ksettled]
      exact klast o v hone (by rw [stopValue_atCommit, hv])
  · obtain ⟨kdone, kshown, kconsec, kwords, kfbs, kfault⟩ := commitScan_commits (s := atCommit s pos) p c pos
      (by rw [hroom, hbudget])
    obtain ⟨ksettled, hrd⟩ := budgetSettle_cores kfault
    rw [scanCommit_run pos (by rwa [atCommit_loom]) hprog' (by rwa [atCommit_loom]) (hscan'.trans hscan)
      (by rwa [atCommit_loom]), if_pos hready]
    obtain ⟨t, hnext, hdone, -⟩ := finishClock_done s (budgetSettle (atCommit s pos) (commitScan (atCommit s pos) p c pos))
    refine ⟨t, hnext, ?_, ?_, ?_, fun w => ?_, fun k => ?_⟩
    · rw [hdone.loom, ksettled, kdone]
    · rw [hdone.loom, ksettled, kshown]
      rfl
    · unfold rdF
      rw [hdone.rd, hrd _ (by decide)]
      exact kconsec
    · rw [hdone.loom, ksettled, kwords w, atCommit_loom]
    · rw [hdone.loom, ksettled, kfbs k, atCommit_loom]
  · obtain ⟨kran, kstop, krun⟩ := overrun_overruns (s := atCommit s pos) pos (by rwa [atCommit_loom])
    have hctrl : rdF (atCommit s pos) (reg pSCAN 0x080) 8 4 = rdF s (reg pSCAN 0x080) 8 4 := by
      unfold rdF
      rw [rd_atCommit s pos (by decide)]
    have hconsec : rdF (atCommit s pos) (reg pSCAN 0x090) 8 8 = rdF s (reg pSCAN 0x090) 8 8 := by
      unfold rdF
      rw [rd_atCommit s pos (by decide)]
    rw [hctrl, hconsec] at kstop
    rw [hctrl] at krun
    rw [scanCommit_run pos (by rwa [atCommit_loom]) hprog' (by rwa [atCommit_loom]) (hscan'.trans hscan)
      (by rwa [atCommit_loom]), if_neg (by simp [hready]), atCommit_loom, if_neg (by simp [hheld]), budgetSettle_same kran.toll]
    obtain ⟨t, hnext, hdone, -⟩ := finishClock_done s (overrun (atCommit s pos) pos)
    have hfld (a lo n : Nat) : rdF t a lo n = rdF (overrun (atCommit s pos) pos) a lo n := by
      unfold rdF
      rw [hdone.rd]
    have hbit (a i : Nat) : rdB t a i = rdB (overrun (atCommit s pos) pos) a i := by
      unfold rdB
      rw [hdone.rd]
    refine ⟨t, hnext, ?_⟩
    rw [hdone.loom, hdone.pts, hfld, hbit, hbit, kran.consec, hconsec, ← hloom, ← atCommit_pts s pos]
    exact ⟨kran.curDone, kran.ahead1, kran.ahead2, kran.words, kran.fbs, kran.lastOut, kran.slots, kran.pts, kran.evt, rfl,
      kstop, krun⟩

end Sys2Proof.Proofs
end


section
/-!
PROOFS. Messages of a session (chapter 9, R232): what becomes of a message whose entries are all answered and whose reply has not
left, when an entry of another message is answered. `asmFlush` sends a reply together with the answer that completes its message,
but the statement is of every state, and `msgAt` does not exclude one in which such a reply is still to leave.
-/

namespace Sys2Proof.Proofs

open Sys2Proof.Machine Sys2Proof.Laws

/-! ### A whole message beside the one that is served -/

/-- An open session of tenant 0 with every right. -/
def fullSession : Session := { Session.free with open_ := true, rights := 0x1FF, ceiling := .operator, port := 1 }

/-- A POINT_READ of point 0 from the session of slot 5, with SEQ 1. -/
def readMsg : OpxMsg := ⟨3, 1, .operator, 5, 1, 0, 0, beBytes 2 1 ++ beBytes 2 0, 0⟩

/-- A POINT_READ of the session with SEQ 2 whose one entry is answered, its reply not yet sent. -/
def wholeMsg : Assembly := ⟨false, 5, 2, 5, .operator, oSERVED, 1, [(0, ⟨oSERVED, pointWords 0 Point.absent⟩)], []⟩

/-- The module in operation under FLOOR with the engine enabled, the session open, one VALUE point, and both messages at hand. -/
def twoMessages : State :=
  let s := wr State.reset (reg pOPX 0x008) 1
  { s with
    guard := { s.guard with operational := true, step := 0, pgood := true, inReset := false, mode := 1 }
    pts := [(0, { Point.absent with cls := 2 })]
    opx := { s.opx with sess := [(5, fullSession)], inbox := [readMsg] }
    toll := { s.toll with asm := [wholeMsg] } }

/-- That state once the session service has granted the message. -/
def messageGranted : State :=
  (entered twoMessages (newReq twoMessages (sessWho 5) .operator (.message 5 1) .none)).getD twoMessages

/-- The state once the resources of the message's entry have granted it. -/
def entryGranted : State :=
  (entered (atEntry messageGranted readMsg 5) (entryReq messageGranted readMsg 5 (.pointRead 0))).getD messageGranted

theorem twoMessages_msgAt : msgAt twoMessages 5 1 3 readMsg := by
  refine ⟨by decide +kernel, rfl, fun _ hr => (List.not_mem_nil hr).elim, rfl, fun a ha => ?_, by decide +kernel,
    by decide +kernel, by decide +kernel, by decide +kernel⟩
  rw [List.mem_singleton.mp ha]
  exact ⟨rfl, .inr (.inr (by decide))⟩

/-- The session service grants the message at once. -/
theorem twoMessages_served : msgServed twoMessages 5 1 3 readMsg messageGranted :=
  ⟨twoMessages_msgAt,
    (Option.getD_of_ne_none (Option.isSome_iff_ne_none.mp (by decide +kernel)) _).symm,
    fun _ hk => (Option.some_ne_none _ hk.symm).elim, by decide +kernel⟩

/-- The resources of its entry grant it at once. -/
theorem twoMessages_entry : entryAt messageGranted readMsg 5 (.pointRead 0) entryGranted :=
  (Option.getD_of_ne_none (Option.isSome_iff_ne_none.mp (by decide +kernel)) _).symm

/-- How many messages stand sent where a command ends. -/
def sentCount : Host.Outcome State Fault Refusal → Nat
  | .next t => t.opx.outq.length
  | _ => 0

/-- Two replies leave: the one of the message that stood whole, and the one of the message served. -/
theorem twoMessages_sent : sentCount (exec (.pointRead 5 1) twoMessages) = 2 := by decide +kernel

/-- Refutes O47: a POINT_READ is not answered with its one reply alone while another message of its session stands in TOLL's
assembly with all its entries answered, which `msgAt` lets pass: the answer of the entry sends that message's reply too. -/
theorem not_messagesAreServed : ¬ Obligations.MessagesAreServed := by
  unfold Obligations.MessagesAreServed
  intro h
  obtain ⟨hread, -⟩ := h twoMessages messageGranted 5 1 readMsg
  obtain ⟨t, hexec, -, hreplied⟩ := hread 0 entryGranted twoMessages_served rfl (by decide) twoMessages_entry
    (by decide +kernel) (by decide +kernel) (by decide +kernel) (by decide +kernel)
  have hsent := twoMessages_sent
  rw [hexec] at hsent
  unfold sentCount at hsent
  dsimp only at hsent
  rw [hreplied, List.length_append] at hsent
  exact absurd hsent (by decide +kernel)

end Sys2Proof.Proofs
end

section
/-!
PROOFS. Loom's lanes (chapter 4, R92): how a command on a lane ends, what writes to its working registers leave, and what a
lane reads of its own results.
-/

namespace Sys2Proof.Proofs

open Sys2Proof.Machine Sys2Proof.Laws

/-! ### The lanes of Loom -/

@[simp] theorem lane_setLane_same (s : State) (l : LaneNo) (x : Lane) : lane (setLane s l x) l = x :=
  look_put_same _ _ _ _

theorem lane_setLane_other (s : State) {l m : LaneNo} (x : Lane) (h : m ≠ l) : lane (setLane s l x) m = lane s m :=
  look_put_other _ _ _ _ fun e => h (Fin.ext e)

/-- A command that replaces one lane, and may have drawn a free value, changes nothing else. -/
theorem finish_setLane {s : State} {l : LaneNo} {x : Lane} (n : Nat) {p : State → Prop}
    (hp : ∀ t, laneOnly s t l → lane t l = x → p t) :
    ∃ t, finish s (setLane { s with free := n } l x) = .next t ∧ p t :=
  ⟨_, rfl, hp _ ⟨rfl, rfl, rfl, rfl, rfl, rfl, rfl, rfl, fun _ hm => lane_setLane_other s x hm⟩ (lane_setLane_same s l x)⟩

/-- An instruction on a lane that executes a segment acts on that lane alone and moves it to the next instruction (R92). -/
theorem finish_onLane {s : State} {l : LaneNo} {f : Lane → Lane} (h : (lane s l).active = true) {p : State → Prop}
    (hp : ∀ t, laneOnly s t l → lane t l = { f (lane s l) with pc := (lane s l).pc + 1 } → p t) :
    ∃ t, finish s (onLane s l f) = .next t ∧ p t := by
  unfold onLane
  dsimp only
  rw [if_pos h]
  exact finish_setLane s.free hp

/-- An instruction that draws a free value acts on its lane alone too (log 4). -/
theorem finish_onLaneFree {s : State} {l : LaneNo} {f : Lane → Word → Lane} (h : (lane s l).active = true) {p : State → Prop}
    (hp : ∀ t, laneOnly s t l → lane t l = { f (lane s l) (freshWord s).1 with pc := (lane s l).pc + 1 } → p t) :
    ∃ t, finish s (onLaneFree s l f) = .next t ∧ p t := by
  unfold onLaneFree
  dsimp only
  rw [if_pos h]
  exact finish_setLane (s.free + 1) hp

/-! ### Working registers -/

@[simp] theorem get_set_same (x : Lane) (d : Wr) (v : Word) : (x.set d v).get d = v := look_put_same _ _ _ _

theorem get_set_other (x : Lane) {d w : Wr} (v : Word) (h : w ≠ d) : (x.set d v).get w = x.get w :=
  look_put_other _ _ _ _ fun e => h (Fin.ext e)

/-- A write without flags sets none. -/
theorem res2_noFl (x : Lane) (d : Wr) (v : Word) : x.res2 d (v, noFl) = x.set d v := by
  change { x.set d v with fl := x.fl ||| 0 } = _
  rw [Nat.or_zero]
  rfl

/-- A result written to WD, with what CF holds then, leaves the lane's other registers and its results as they are. -/
theorem wrote_of_lane {s t : State} {l : LaneNo} {d : Wr} {r : Res} {c : Bool} (h : (lane s l).active = true)
    (honly : laneOnly s t l) (hlane : lane t l = { (lane s l).res2 d r with cf := c, pc := (lane s l).pc + 1 }) :
    wrote s t l d r ∧ (lane t l).cf = c := by
  unfold wrote
  rw [hlane]
  exact ⟨⟨honly, get_set_same _ d r.1, fun w hw => get_set_other _ r.1 hw, rfl, rfl, rfl, rfl, rfl, h⟩, rfl⟩

section

variable {s : State} {l : LaneNo} {d : Wr} (h : (lane s l).active = true)

include h

/-- An instruction whose result has flags (R93, R96). -/
theorem finish_res2 (r : Lane → Res) :
    ∃ t, finish s (onLane s l fun x => x.res2 d (r x)) = .next t ∧ wrote s t l d (r (lane s l)) :=
  finish_onLane h fun _ honly hlane => (wrote_of_lane h honly hlane).1

/-- An instruction whose result sets no flag. -/
theorem finish_set {v : Lane → Word} {w : Word} (hv : v (lane s l) = w) :
    ∃ t, finish s (onLane s l fun x => x.set d (v x)) = .next t ∧ wrote s t l d (w, noFl) := by
  subst hv
  simpa only [res2_noFl] using finish_res2 (d := d) h fun x => (v x, noFl)

/-- An instruction that may write a free value (log 4). -/
theorem finish_free {f : Lane → Word → Lane} {r : Res} (hf : f (lane s l) (freshWord s).1 = (lane s l).res2 d r) :
    ∃ t, finish s (onLaneFree s l f) = .next t ∧ wrote s t l d r :=
  finish_onLaneFree h fun _ honly hlane => (wrote_of_lane h honly (by rw [hlane, hf])).1

/-- A comparison (R94). -/
theorem finish_relOp (r : Rel) (ty : Ty) (a b : Wr) :
    ∃ t, finish s (onLane s l (relOp r ty d a b)) = .next t ∧
      compared s t l d (opRel r ty ((lane s l).get a) ((lane s l).get b)) :=
  finish_onLane h fun _ honly hlane => wrote_of_lane h honly hlane

end

/-! ### What a lane reads of its own results (R72) -/

/-- A lane reads what it has written itself first. -/
theorem laneRead_own {α : Type} (t : State) {x : Lane} {f : SegRes → Option α} {v : α} (committed : α) (h : f x.res = some v) :
    laneRead t x f committed = v := by
  unfold laneRead
  dsimp only
  rw [h]
  rfl

theorem readFb_of_staged (t : State) {x : Lane} {n : Nat} {f : Fb} (h : get? x.res.fbs n = some f) : readFb t x n = f :=
  laneRead_own t _ h

theorem readWord_of_staged (t : State) {x : Lane} {n : Nat} {v : Word} (h : get? x.res.words n = some v) : readWord t x n = v :=
  laneRead_own t _ h

end Sys2Proof.Proofs
end

section
/-!
PROOFS. The register instructions (chapter 4, R93, R94): what each writes to WD, with its flags, and no more.
-/

namespace Sys2Proof.Proofs

open Sys2Proof.Machine Sys2Proof.Laws

/-! ### Values -/

/-- A result limited as R93 limits it is one clamped to the range. -/
theorem satI_eq_limited (x : Int) : satI x = limited x := by
  unfold satI limited
  rcases lt_or_ge x (-2147483648) with hlow | hlow
  · rw [if_pos hlow, min_eq_right (by omega), max_eq_left hlow.le, decide_eq_true (.inl hlow)]
    rfl
  · rw [if_neg hlow.not_gt]
    rcases lt_or_ge 2147483647 x with hhigh | hhigh
    · rw [if_pos hhigh, min_eq_left hhigh.le, decide_eq_true (.inr hhigh)]
      rfl
    · rw [if_neg hhigh.not_gt, min_eq_right hhigh, max_eq_right hlow, decide_eq_false (by omega)]
      rfl

/-- LDIH keeps the low half. -/
theorem setFld_high (w : Word) (imm : BitVec 16) :
    setFld w 16 16 imm.toNat = w32 (w.toNat % 65536 + imm.toNat * 65536) := by
  have hw := w.isLt
  have himm := imm.isLt
  apply BitVec.eq_of_toNat_eq
  rw [setFld_toNat w imm.toNat (by decide), w32, BitVec.toNat_ofNat]
  omega

theorem opNot_eq (ty : Ty) (a : Word) : opNot ty a = if ty = .bool then w32 (b2n (a == 0)) else ~~~a := by
  cases ty with
  | bool =>
    unfold opNot b2n
    simp only [beq_iff_eq, if_true]
    split <;> rfl
  | int32 => rfl
  | q16 => rfl
  | float32 => rfl

/-- A shift left is a product by a power of two, cut to 32 bits. -/
theorem opShl_eq (a b : Word) : opShl a b = w32 (a.toNat * 2 ^ fld b 0 6) := by
  unfold opShl w32
  split
  · rename_i hn
    obtain ⟨k, hk⟩ := Nat.exists_eq_add_of_le hn
    apply BitVec.eq_of_toNat_eq
    rw [hk, pow_add, BitVec.toNat_ofNat, mul_left_comm, Nat.mul_mod_right]
    rfl
  · apply BitVec.eq_of_toNat_eq
    rw [BitVec.toNat_shiftLeft, Nat.shiftLeft_eq, BitVec.toNat_ofNat]

/-- A shift right is a quotient by a power of two: of the pattern, or of the number where the type is signed. -/
theorem storeT_opShr (ty : Ty) (a b : Word) : storeT ty (opShr ty a b) =
    if ty = .int32 ∨ ty = .q16 then i32 (sw a / 2 ^ fld b 0 6) else storeT ty (w32 (a.toNat / 2 ^ fld b 0 6)) := by
  have hsigned : a.sshiftRight (fld b 0 6) = i32 (sw a / 2 ^ fld b 0 6) := by
    unfold i32 sw
    rw [BitVec.sshiftRight_eq, Int.shiftRight_eq_div_pow]
    norm_cast
  have hplain : (if 32 ≤ fld b 0 6 then 0 else a >>> fld b 0 6) = w32 (a.toNat / 2 ^ fld b 0 6) := by
    apply BitVec.eq_of_toNat_eq
    have ha := a.isLt
    have hle : a.toNat / 2 ^ fld b 0 6 ≤ a.toNat := Nat.div_le_self _ _
    rw [w32, BitVec.toNat_ofNat, Nat.mod_eq_of_lt (by omega)]
    split
    · rename_i hn
      exact (Nat.div_eq_of_lt (ha.trans_le (Nat.pow_le_pow_right (by decide) hn))).symm
    · rw [BitVec.toNat_ushiftRight, Nat.shiftRight_eq_div_pow]
  cases ty with
  | bool => exact congrArg (storeT .bool) hplain
  | int32 => exact hsigned
  | q16 => exact hsigned
  | float32 => exact hplain

/-- ANDI's and ORI's immediate is zero-extended. -/
theorem setWidth_imm (imm : BitVec 16) : imm.setWidth 32 = w32 imm.toNat := by
  apply BitVec.eq_of_toNat_eq
  rw [BitVec.toNat_setWidth, w32, BitVec.toNat_ofNat]

/-- ADDI's sum on the integer types is limited. -/
theorem addImm_limited {ty : Ty} (w : Word) (imm : BitVec 16) (h : ty = .int32 ∨ ty = .q16) :
    addImm ty w imm = limited (sw w + imm.toInt) := by
  rw [← satI_eq_limited]
  rcases h with rfl | rfl <;> rfl

/-! ### Instructions with a free value (log 4) -/

section

variable {s : State} {l : LaneNo} (h : (lane s l).active = true)

include h

omit h in
theorem exec_lmDiv (s : State) (l : LaneNo) (ty : Ty) (d a b : Wr) : exec (.lmDiv l ty d a b) s = finish s
    (if ty = .bool ∧ (lane s l).get b = 0 then onLaneFree s l fun x fr => x.res2 d (opDiv fr ty (x.get a) (x.get b))
     else onLane s l fun x => x.res2 d (opDiv 0 ty (x.get a) (x.get b))) := rfl

omit h in
theorem exec_lmAddi (s : State) (l : LaneNo) (ty : Ty) (d : Wr) (imm : BitVec 16) : exec (.lmAddi l ty d imm) s = finish s
    (if ty = .float32 then onLaneFree s l fun x fr => x.set d fr
     else onLane s l fun x => x.res2 d (addImm ty (x.get d) imm)) := rfl

/-- DIV: the quotient of BOOL by zero is free (R93). -/
theorem lmDiv_writes (ty : Ty) (d a b : Wr) : ∃ t fr, exec (.lmDiv l ty d a b) s = .next t ∧
    wrote s t l d (opDiv fr ty ((lane s l).get a) ((lane s l).get b)) := by
  rw [exec_lmDiv]
  by_cases hfree : ty = .bool ∧ (lane s l).get b = 0
  · rw [if_pos hfree]
    obtain ⟨t, hnext, hwrote⟩ := finish_free (d := d) (f := fun x fr => x.res2 d (opDiv fr ty (x.get a) (x.get b))) h rfl
    exact ⟨t, _, hnext, hwrote⟩
  · rw [if_neg hfree]
    obtain ⟨t, hnext, hwrote⟩ := finish_res2 (d := d) h fun x => opDiv 0 ty (x.get a) (x.get b)
    exact ⟨t, _, hnext, hwrote⟩

/-- ADDI: what a raw pattern adds to a FLOAT32 is free (R94). -/
theorem lmAddi_writes (ty : Ty) (d : Wr) (imm : BitVec 16) : ∃ t r, exec (.lmAddi l ty d imm) s = .next t ∧
    wrote s t l d r ∧ (ty = .int32 ∨ ty = .q16 → r = limited (sw ((lane s l).get d) + imm.toInt)) := by
  rw [exec_lmAddi]
  by_cases hfloat : ty = .float32
  · rw [if_pos hfloat]
    obtain ⟨t, hnext, hwrote⟩ := finish_free (f := fun x fr => x.set d fr) h (res2_noFl _ d _).symm
    exact ⟨t, _, hnext, hwrote, by simp [hfloat]⟩
  · rw [if_neg hfloat]
    obtain ⟨t, hnext, hwrote⟩ := finish_res2 (d := d) h fun x => addImm ty (x.get d) imm
    exact ⟨t, _, hnext, hwrote, addImm_limited _ imm⟩

omit h in
/-- INTP writes the result its table gives, and a free value where the spec states none. -/
theorem intpOp_eq (s : State) (ty : Ty) (d : Wr) (idx : Nat) (x : Lane) (fr : Word) :
    ∃ r, intpOp s ty d idx x fr = x.res2 d r ∧ (intpTable s x idx = none → r = (0, flI)) ∧
      ∀ tab q, intpTable s x idx = some tab → opIntp ty (x.get d) tab = .res q → r = q := by
  unfold intpOp
  cases htab : intpTable s x idx with
  | none => exact ⟨_, rfl, fun _ => rfl, fun _ _ h => nomatch h⟩
  | some tab =>
    dsimp only
    cases hval : opIntp ty (x.get d) tab with
    | res r =>
      refine ⟨r, rfl, nofun, fun tab' q ht hq => ?_⟩
      obtain rfl := Option.some.inj ht
      exact Interp.res.inj (hval.symm.trans hq)
    | unstated =>
      refine ⟨(fr, noFl), (res2_noFl x d fr).symm, nofun, fun tab' q ht hq => ?_⟩
      obtain rfl := Option.some.inj ht
      exact nomatch hval.symm.trans hq

theorem lmIntp_writes (ty : Ty) (d : Wr) (imm : BitVec 16) : ∃ t r, exec (.lmIntp l ty d imm) s = .next t ∧
    wrote s t l d r ∧ (intpTable s (lane s l) imm.toNat = none → r = (0, flI)) ∧
    ∀ tab q, intpTable s (lane s l) imm.toNat = some tab → opIntp ty ((lane s l).get d) tab = .res q → r = q := by
  obtain ⟨r, hval, hcases⟩ := intpOp_eq s ty d imm.toNat (lane s l) (freshWord s).1
  obtain ⟨t, hnext, hwrote⟩ := finish_free (f := intpOp s ty d imm.toNat) h hval
  exact ⟨t, r, hnext, hwrote, hcases⟩

/-! ### BTST and CLF -/

/-- BTST writes the bit to WD and CF. -/
theorem lmBtst_writes (d a : Wr) (j : BitVec 5) : ∃ t, exec (.lmBtst l d a j) s = .next t ∧
    wrote s t l d (w32 (b2n (bit ((lane s l).get a) j.toNat)), noFl) ∧ (lane t l).cf = bit ((lane s l).get a) j.toNat :=
  finish_onLane h fun _ honly hlane => wrote_of_lane h honly (by rw [hlane, res2_noFl]; rfl)

theorem lmClf_clears : ∃ t, exec (.lmClf l) s = .next t ∧ laneOnly s t l ∧ (lane t l).fl = 0 ∧
    (lane t l).w = (lane s l).w :=
  finish_onLane h fun _ honly hlane => ⟨honly, by rw [hlane], by rw [hlane]⟩

end

/-- Settles O26: each instruction acts on its lane by one write of its result; DIV of BOOL by zero, ADDI of FLOAT32 and INTP may
write a free value. -/
theorem registerInstructionsWriteResults : Obligations.RegisterInstructionsWriteResults := by
  unfold Obligations.RegisterInstructionsWriteResults
  intro s l ty src d a b x imm j h
  exact ⟨finish_set h rfl, finish_set h (setFld_high _ imm), finish_set h rfl, finish_set h (ite_not _ _ _), finish_res2 h _,
    finish_res2 h _, finish_res2 h _, finish_res2 h _, lmDiv_writes h ty d a b, finish_res2 h _, finish_res2 h _,
    finish_res2 h _, finish_res2 h _, finish_res2 h _, lmAddi_writes h ty d imm, finish_set h rfl, finish_set h rfl,
    finish_set h rfl, finish_set h (opNot_eq ty _), finish_set h (congrArg (storeT ty) (opShl_eq _ _)),
    finish_set h (storeT_opShr ty _ _), lmBtst_writes h d a j, finish_set h (by rw [setWidth_imm]),
    finish_set h (by rw [setWidth_imm]), finish_res2 h _, finish_res2 h _, lmIntp_writes h ty d imm, finish_set h rfl,
    lmClf_clears h, finish_relOp h .eq ty a b, finish_relOp h .ne ty a b, finish_relOp h .lt ty a b,
    finish_relOp h .le ty a b, finish_relOp h .gt ty a b, finish_relOp h .ge ty a b⟩

end Sys2Proof.Proofs
end

section
/-!
PROOFS. Timers, counters and edge detectors (chapter 4, R97–R99): what a function block's record holds after its instruction,
and what each rule makes of its input.
-/

namespace Sys2Proof.Proofs

open Sys2Proof.Machine Sys2Proof.Laws

/-! ### The flags byte of a record -/

theorem getLsbD_fbByte : ∀ inp q run : Bool, (fbByte inp q run).getLsbD 0 = inp ∧ (fbByte inp q run).getLsbD 1 = q ∧
    (fbByte inp q run).getLsbD 2 = run := by decide

section

variable (lo : DWord) (et : Word) (inp q run : Bool) (unit : Byte)

theorem inPrev_fbByte : Fb.inPrev ⟨lo, et, fbByte inp q run, unit⟩ = inp := (getLsbD_fbByte inp q run).1
theorem q_fbByte : (Fb.mk lo et (fbByte inp q run) unit).fl.getLsbD 1 = q := (getLsbD_fbByte inp q run).2.1
theorem running_fbByte : Fb.running ⟨lo, et, fbByte inp q run, unit⟩ = run := (getLsbD_fbByte inp q run).2.2

end

/-! ### Numbers -/

theorem preset_eq (w : Word) : preset w = (max 0 (sw w)).toNat := by
  unfold preset sw
  have hw := BitVec.toInt_eq_toNat_cond w
  split <;> omega

/-- No time has passed at the start. -/
theorem elapsed_self (f : Fb) (nom : Nat) : elapsed f nom nom = 0 := by
  unfold elapsed
  dsimp only
  rw [Nat.sub_self, Nat.zero_div, Nat.min_zero]

theorem i32_sw (w : Word) : i32 (sw w) = w := BitVec.ofInt_toInt

/-- The low half of a record read as CV. -/
theorem sgn_toNat (w : Word) : sgn 32 w.toNat = sw w := by
  unfold sgn sw
  rw [BitVec.toInt_eq_toNat_cond, Nat.mod_eq_of_lt w.isLt]
  dsimp only
  split <;> split <;> omega

theorem sgn_mod (v : Nat) : sgn 32 (v % 2 ^ 32) = sgn 32 v := by
  unfold sgn
  rw [Nat.mod_mod]

theorem cv_withCv (f : Fb) (w : Word) (inp : Bool) : (f.withCv (sw w) inp).cv = sw w := by
  have hlo : (BitVec.ofNat 64 (f.lo.toNat / 2 ^ 32 * 2 ^ 32 + w.toNat)).toNat % 2 ^ 32 = w.toNat := by
    rw [BitVec.toNat_ofNat]
    omega
  unfold Fb.withCv Fb.cv
  rw [i32_sw, ← sgn_mod, hlo, sgn_toNat]

theorem inPrev_withCv (f : Fb) (cv : Int) (inp : Bool) : (f.withCv cv inp).inPrev = inp :=
  inPrev_fbByte _ _ _ _ _ _

/-! ### The timers' rules (R97) -/

/-- A timer's rule records the ET and the Q that it answers, with its input. -/
def Records (rule : Fb → Nat → Bool → Nat → FbOut) : Prop :=
  ∀ f nom inp pt, (rule f nom inp pt).1.et = w32 (rule f nom inp pt).2.2 ∧ (rule f nom inp pt).1.inPrev = inp ∧
    (rule f nom inp pt).1.fl.getLsbD 1 = (rule f nom inp pt).2.1

theorem records_ton : Records tonRule := fun _ _ _ _ => ⟨rfl, inPrev_fbByte _ _ _ _ _ _, q_fbByte _ _ _ _ _ _⟩
theorem records_tof : Records tofRule := fun _ _ _ _ => ⟨rfl, inPrev_fbByte _ _ _ _ _ _, q_fbByte _ _ _ _ _ _⟩
theorem records_tp : Records tpRule := fun _ _ _ _ => ⟨rfl, inPrev_fbByte _ _ _ _ _ _, q_fbByte _ _ _ _ _ _⟩

section

variable (f : Fb) (nom pt : Nat)

theorem tonRule_low : (tonRule f nom false pt).2 = (false, 0) := rfl

/-- TON at a rise: the time starts at the scan's nominal timestamp. -/
theorem tonRule_rise (h : f.inPrev = false) :
    (tonRule f nom true pt).2 = (decide (pt = 0), 0) ∧ (tonRule f nom true pt).1.lo = BitVec.ofNat 64 nom := by
  simp [tonRule, h, elapsed_self]

/-- TON while its input stays. -/
theorem tonRule_high (h : f.inPrev = true) :
    (tonRule f nom true pt).2 = (decide (pt ≤ elapsed f nom f.lo.toNat), elapsed f nom f.lo.toNat) ∧
      (tonRule f nom true pt).1.lo = f.lo := by
  simp [tonRule, h]

theorem tofRule_high : (tofRule f nom true pt).2 = (true, 0) := rfl

/-- TOF at a fall: the time starts at the scan's nominal timestamp. -/
theorem tofRule_fall (h : f.inPrev = true) :
    (tofRule f nom false pt).2 = (decide (0 < pt), 0) ∧ (tofRule f nom false pt).1.lo = BitVec.ofNat 64 nom := by
  simp [tofRule, h, elapsed_self]

/-- TOF while it times. -/
theorem tofRule_timing (h : f.inPrev = false) (hrun : f.running = true) : (tofRule f nom false pt).2 =
    (decide (elapsed f nom f.lo.toNat < pt), elapsed f nom f.lo.toNat) := by
  simp [tofRule, h, hrun]

theorem tofRule_idle (h : f.inPrev = false) (hrun : f.running = false) : (tofRule f nom false pt).2 = (false, 0) := by
  simp [tofRule, h, hrun]

/-- TP at a rise: its pulse begins at the scan's nominal timestamp. -/
theorem tpRule_rise (h : f.inPrev = false) (hrun : f.running = false) (hpt : 0 < pt) :
    (tpRule f nom true pt).2 = (true, 0) ∧ (tpRule f nom true pt).1.lo = BitVec.ofNat 64 nom := by
  simp [tpRule, h, hrun, elapsed_self, hpt.ne']

/-- TP within its pulse, whatever its input does. -/
theorem tpRule_pulse (inp : Bool) (hrun : f.running = true) (hlt : elapsed f nom f.lo.toNat < pt) :
    (tpRule f nom inp pt).2 = (true, elapsed f nom f.lo.toNat) := by
  simp [tpRule, hrun, hlt]

/-- TP at the end of its pulse. -/
theorem tpRule_ends (inp : Bool) (hrun : f.running = true) (hle : pt ≤ elapsed f nom f.lo.toNat) :
    (tpRule f nom inp pt).2 = (false, pt) ∧ (tpRule f nom inp pt).1.running = false := by
  simp [tpRule, hrun, hle, running_fbByte]

/-- TP outside a pulse, without a rise. -/
theorem tpRule_idle (inp : Bool) (h : inp = f.inPrev) (hrun : f.running = false) :
    (tpRule f nom inp pt).2 = (false, if inp then pt else 0) := by
  simp [tpRule, hrun, h]

end

/-! ### The counters' rules (R98) -/

/-- A counter's rule records the CV that it answers, with its input. -/
def RecordsCv (rule : Fb → Bool → Bool → Int → Fb × Bool × Res) : Prop :=
  ∀ f inp r pv, (rule f inp r pv).1 = f.withCv (sw (rule f inp r pv).2.2.1) inp

theorem recordsCv_ctu : RecordsCv ctuRule := fun _ _ _ _ => rfl
theorem recordsCv_ctd : RecordsCv ctdRule := fun _ _ _ _ => rfl

section

variable (f : Fb) (inp : Bool) (pv : Int)

theorem ctuRule_reset {r : Bool} (h : r = true) : (ctuRule f inp r pv).2.2.1 = 0 := by
  rw [h]
  rfl

/-- CTU counts up at a rise. -/
theorem ctuRule_counts {r : Bool} (h : r = false) :
    (ctuRule f inp r pv).2.2.1 = if inp && !f.inPrev then (limited (f.cv + 1)).1 else i32 f.cv := by
  rw [h, ← satI_eq_limited]
  exact apply_ite Prod.fst _ _ _

theorem ctdRule_load {ld : Bool} (h : ld = true) : (ctdRule f inp ld pv).2.2.1 = i32 pv := by
  rw [h]
  rfl

/-- CTD counts down at a rise. -/
theorem ctdRule_counts {ld : Bool} (h : ld = false) :
    (ctdRule f inp ld pv).2.2.1 = if inp && !f.inPrev then (limited (f.cv - 1)).1 else i32 f.cv := by
  rw [h, ← satI_eq_limited]
  exact apply_ite Prod.fst _ _ _

end

/-! ### The instructions -/

theorem nextWr_ne : ∀ d : Wr, d ≠ nextWr d := by decide

/-- A lane whose results hold a record, after writes to its registers. -/
theorem readFb_stageFb (t : State) {x y : Lane} {n : Nat} {f : Fb} (h : y.res = (stageFb x n f).res) : readFb t y n = f :=
  readFb_of_staged t (by rw [h]; exact get?_ins_same _ _ _)

/-- What each instruction stages beside its registers is its record. -/
theorem timerOp_res (s : State) (rule : Fb → Nat → Bool → Nat → FbOut) (d a : Wr) (n : Nat) (x : Lane) :
    (timerOp s rule d a n x).res = (stageFb x n
      (rule (readFb s x n) (laneNom s x) (decide (x.get a ≠ 0)) (preset (x.get d))).1).res := rfl
theorem counterOp_res (s : State) (rule : Fb → Bool → Bool → Int → Fb × Bool × Res) (d a : Wr) (n : Nat) (x : Lane) :
    (counterOp s rule d a n x).res = (stageFb x n (rule (readFb s x n) (decide (x.get a ≠ 0))
      (decide (x.get (nextWr a) ≠ 0)) (sw (x.get d))).1).res := rfl
theorem edgeOp_res (s : State) (rise : Bool) (d a : Wr) (n : Nat) (x : Lane) :
    (edgeOp s rise d a n x).res = (stageFb x n { readFb s x n with
      fl := fbByte (decide (x.get a ≠ 0)) ((readFb s x n).fl.getLsbD 1) (readFb s x n).running }).res := rfl

section

variable {s : State} {l : LaneNo} {d a : Wr} {n : Nat} (h : (lane s l).active = true)

include h

/-- A timer instruction leaves what its rule answers (R97). -/
theorem finish_timerOp {rule : Fb → Nat → Bool → Nat → FbOut} (hrule : Records rule) {f : Fb} {inp : Bool} {nom pt : Nat}
    (hf : f = readFb s (lane s l) n) (hinp : inp = decide ((lane s l).get a ≠ 0)) (hnom : nom = laneNom s (lane s l))
    (hpt : pt = (max 0 (sw ((lane s l).get d))).toNat) {p : State → Prop}
    (hp : ∀ t, laneOnly s t l → readFb t (lane t l) n = (rule f nom inp pt).1 →
      timed t l d n (rule f nom inp pt).2.1 (rule f nom inp pt).2.2 inp → p t) :
    ∃ t, finish s (onLane s l (timerOp s rule d a n)) = .next t ∧ p t := by
  subst hf hinp hnom
  rw [← preset_eq] at hpt
  subst hpt
  refine finish_onLane h fun t honly hlane => ?_
  obtain ⟨het, hprev, hq⟩ := hrule (readFb s (lane s l) n) (laneNom s (lane s l)) (decide ((lane s l).get a ≠ 0))
    (preset ((lane s l).get d))
  have hrec := readFb_stageFb t (y := lane t l) (n := n) (by rw [hlane]; exact timerOp_res s rule d a n (lane s l))
  refine hp t honly hrec ⟨?_, ?_, ?_, ?_, ?_⟩
  · rw [hlane]
    exact (get_set_other _ _ (nextWr_ne d)).trans (get_set_same _ _ _)
  · rw [hlane]
    exact get_set_same _ _ _
  · rw [hrec, het]
  · rw [hrec, hprev]
  · rw [hrec, hq]

/-- A counter instruction leaves what its rule answers (R98). -/
theorem finish_counterOp {rule : Fb → Bool → Bool → Int → Fb × Bool × Res} (hrule : RecordsCv rule) {f : Fb} {inp r : Bool}
    {pv : Int} (hf : f = readFb s (lane s l) n) (hinp : inp = decide ((lane s l).get a ≠ 0))
    (hr : r = decide ((lane s l).get (nextWr a) ≠ 0)) (hpv : pv = sw ((lane s l).get d)) {p : State → Prop}
    (hp : ∀ t, laneOnly s t l → counted t l d n (rule f inp r pv).2.1 (rule f inp r pv).2.2.1 inp → p t) :
    ∃ t, finish s (onLane s l (counterOp s rule d a n)) = .next t ∧ p t := by
  subst hf hinp hr hpv
  refine finish_onLane h fun t honly hlane => hp t honly ?_
  have hrec := readFb_stageFb t (y := lane t l) (n := n) (by rw [hlane]; exact counterOp_res s rule d a n (lane s l))
  refine ⟨?_, ?_, ?_, ?_⟩
  · rw [hlane]
    exact (get_set_other _ _ (nextWr_ne d)).trans (get_set_same _ _ _)
  · rw [hlane]
    exact get_set_same _ _ _
  · rw [hrec, hrule, cv_withCv]
  · rw [hrec, hrule, inPrev_withCv]

/-- An edge detector reports the edge and keeps its input (R99). -/
theorem finish_edgeOp (rise : Bool) {f : Fb} {inp : Bool} (hf : f = readFb s (lane s l) n)
    (hinp : inp = decide ((lane s l).get a ≠ 0)) :
    ∃ t, finish s (onLane s l (edgeOp s rise d a n)) = .next t ∧ laneOnly s t l ∧
      (lane t l).get d = w32 (b2n (if rise then inp && !f.inPrev else f.inPrev && !inp)) ∧
      (readFb t (lane t l) n).inPrev = inp := by
  subst hf hinp
  refine finish_onLane h fun t honly hlane => ⟨honly, ?_, ?_⟩
  · rw [hlane]
    exact get_set_same _ _ _
  · rw [readFb_stageFb t (y := lane t l) (by rw [hlane]; exact edgeOp_res s rise d a n (lane s l))]
    exact inPrev_fbByte _ _ _ _ _ _

end

/-- Settles O28: each timer, counter and edge detector leaves what its rule answers, and each rule goes by cases of its
input and its record. -/
theorem functionBlocks : Obligations.FunctionBlocks := by
  unfold Obligations.FunctionBlocks
  intro s l d a n h f inp nom pt hf hinp hnom hpt
  refine ⟨?_, ?_, ?_, ?_, ?_, finish_edgeOp h true hf hinp, finish_edgeOp h false hf hinp⟩
  · refine finish_timerOp h records_ton hf hinp hnom hpt fun t honly hrec htimed => ⟨honly, _, _, htimed, ?_, ?_, ?_⟩
    · rintro rfl
      exact ⟨rfl, rfl⟩
    · rintro rfl hprev
      obtain ⟨hans, hlo⟩ := tonRule_rise f nom pt hprev
      rw [hrec, hans, hlo]
      exact ⟨rfl, rfl, rfl⟩
    · rintro rfl hprev
      obtain ⟨hans, hlo⟩ := tonRule_high f nom pt hprev
      rw [hrec, hans, hlo]
      exact ⟨rfl, rfl, rfl⟩
  · refine finish_timerOp h records_tof hf hinp hnom hpt fun t honly hrec htimed => ⟨honly, _, _, htimed, ?_, ?_, ?_, ?_⟩
    · rintro rfl
      exact ⟨rfl, rfl⟩
    · rintro rfl hprev
      obtain ⟨hans, hlo⟩ := tofRule_fall f nom pt hprev
      rw [hrec, hans, hlo]
      exact ⟨rfl, rfl, rfl⟩
    · rintro rfl hprev hrun
      rw [tofRule_timing f nom pt hprev hrun]
      exact ⟨rfl, rfl⟩
    · rintro rfl hprev hrun
      rw [tofRule_idle f nom pt hprev hrun]
      exact ⟨rfl, rfl⟩
  · refine finish_timerOp h records_tp hf hinp hnom hpt fun t honly hrec htimed => ⟨honly, _, _, htimed, ?_, ?_, ?_, ?_⟩
    · rintro rfl hprev hrun hpos
      obtain ⟨hans, hlo⟩ := tpRule_rise f nom pt hprev hrun hpos
      rw [hrec, hans, hlo]
      exact ⟨rfl, rfl, rfl⟩
    · intro hrun hlt
      rw [tpRule_pulse f nom pt inp hrun hlt]
      exact ⟨rfl, rfl⟩
    · intro hrun hle
      obtain ⟨hans, hstops⟩ := tpRule_ends f nom pt inp hrun hle
      rw [hrec, hans, hstops]
      exact ⟨rfl, rfl, rfl⟩
    · intro hrun hsame
      rw [tpRule_idle f nom pt inp hsame hrun]
      exact ⟨rfl, rfl⟩
  · refine finish_counterOp h recordsCv_ctu hf hinp rfl rfl fun t honly hcounted => ⟨honly, _, hcounted, ?_, ?_⟩
    · exact fun hr => ctuRule_reset f inp (sw ((lane s l).get d)) (decide_eq_true hr)
    · exact fun hr => ctuRule_counts f inp (sw ((lane s l).get d)) (decide_eq_false (not_not_intro hr))
  · refine finish_counterOp h recordsCv_ctd hf hinp rfl rfl fun t honly hcounted => ⟨honly, _, hcounted, ?_, ?_⟩
    · exact fun hld => (ctdRule_load f inp (sw _) (decide_eq_true hld)).trans (i32_sw _)
    · exact fun hld => ctdRule_counts f inp (sw _) (decide_eq_false (not_not_intro hld))

end Sys2Proof.Proofs
end

section
/-!
PROOFS. Segments (chapter 4, R71, R92, R94, R95): how a lane takes one and ends it, what it loads, and what it stages.
-/

namespace Sys2Proof.Proofs

open Sys2Proof.Machine Sys2Proof.Laws

/-! ### A segment starts (R69, R71, R92) -/

@[simp] theorem setScan_regs (s : State) (d : Nat) (c : Scan) : (setScan s d c).regs = s.regs := by
  unfold setScan
  split_ifs <;> rfl

@[simp] theorem setScan_pts (s : State) (d : Nat) (c : Scan) : (setScan s d c).pts = s.pts := by
  unfold setScan
  split_ifs <;> rfl

/-- A lane that is idle and in service looks for the segment at its depth. -/
theorem segmentStartOp_eq {s : State} {l : LaneNo} {p : Program} {n : Nat} {sd : SegDesc} {rest : List SegDesc}
    (hidle : (lane s l).active = false) (hcell : cellOut s pSCAN l.val = false) (hprog : activeProg s = some p)
    (hseg : p.segs.drop n = sd :: rest) (dep : Nat) :
    segmentStartOp s l dep n = if dep = 0 then startNow s p l n sd else startAhead s p l dep n sd := by
  unfold segmentStartOp
  rw [hprog]
  dsimp only
  rw [hseg]
  dsimp only
  rw [if_neg (by simp [hidle, hcell])]

theorem startNow_takes {s : State} {l : LaneNo} {p : Program} {n : Nat} {sd : SegDesc} {c : Scan}
    (hbreak : breakAt s n = none) (hscan : scanAt s 0 = some c) (heng : s.loom.eng = .run) (hres : get? c.res n = none)
    (hlane : inLane s 0 n = false) (hdeps : depsDone p c sd n = true) : startNow s p l n sd = takeLane s l 0 n := by
  unfold startNow
  rw [hscan]
  dsimp only
  rw [if_neg (by simp [heng, hres, hlane, hdeps]), hbreak]

theorem startAhead_takes {s : State} {l : LaneNo} {p : Program} {n dep : Nat} {sd : SegDesc} {c : Scan}
    (hscan : scanAt s dep = some c) (hopen : aheadOpen s dep = true) (hres : get? c.res n = none)
    (hlane : inLane s dep n = false) (hdeps : depsDone p c sd n = true) (hmay : mayRunAhead s p n c = true)
    (hroom : sd.writes.length + bufUsed s p dep c ≤ 65536) :
    startAhead s p l dep n sd = takeLane (setScan s dep c) l dep n := by
  unfold startAhead
  rw [if_neg (by simp [hopen]), hscan]
  dsimp only [Option.getD_some]
  rw [if_neg (by simp [hres, hlane, hdeps, hmay]), if_neg (by omega)]

/-! ### A segment ends (R66, R81, R92) -/

/-- Program state, points and lanes stand, and every scan in Loom keeps its results. -/
structure ResultsKept (s t : State) : Prop where
  lanes : t.loom.lanes = s.loom.lanes
  words : t.loom.words = s.loom.words
  fbs : t.loom.fbs = s.loom.fbs
  pts : t.pts = s.pts
  scan : ∀ d c, scanAt s d = some c → ∃ c', scanAt t d = some c' ∧ c'.res = c.res

theorem ResultsKept.trans {s t u : State} (h : ResultsKept s t) (k : ResultsKept t u) : ResultsKept s u where
  lanes := k.lanes.trans h.lanes
  words := k.words.trans h.words
  fbs := k.fbs.trans h.fbs
  pts := k.pts.trans h.pts
  scan := fun d c hc => by
    obtain ⟨c', ht, hres⟩ := h.scan d c hc
    obtain ⟨c'', hu, hres'⟩ := k.scan d c' ht
    exact ⟨c'', hu, hres'.trans hres⟩

/-- A pause, or a step that is over, touches no scan. -/
theorem resultsKept_of_pause {s t : State} {paused held : Bool} {seg step : Nat} (hpts : t.pts = s.pts)
    (hloom : t.loom = { s.loom with paused := paused, pauseSeg := seg, held := held, stepping := step }) : ResultsKept s t := by
  refine ⟨?_, ?_, ?_, hpts, fun d c hc => ⟨c, ?_, rfl⟩⟩
  · rw [hloom]
  · rw [hloom]
  · rw [hloom]
  · rw [← hc]
    unfold scanAt
    rw [hloom]

theorem resultsKept_holdBoundary (s : State) : ResultsKept s (holdBoundary s) := by
  unfold holdBoundary
  split
  · exact resultsKept_of_pause rfl rfl
  · split
    · exact resultsKept_of_pause rfl rfl
    · split
      · exact resultsKept_of_pause rfl rfl
      · exact resultsKept_of_pause (ev_pts _ _ _) (ev_loom _ _ _)

/-- A scan replaced where one stands is the scan there. -/
theorem scanAt_setScan_same {s : State} {d : Nat} {c : Scan} (x : Scan) (h : scanAt s d = some c) :
    scanAt (setScan s d x) d = some x := by
  unfold scanAt at h ⊢
  unfold setScan
  split_ifs at h ⊢ <;> rfl

theorem scanAt_setScan_other {s : State} {d : Nat} (x : Scan) (h : d ≠ 0) : scanAt (setScan s 0 x) d = scanAt s d := by
  unfold scanAt setScan
  rw [if_neg h, if_neg h]
  rfl

theorem resultsKept_markReady (s : State) : ResultsKept s (markReady s) := by
  unfold markReady
  split
  · rename_i c hc
    split
    · exact resultsKept_of_pause rfl rfl
    · refine ⟨rfl, rfl, rfl, rfl, fun d x hx => ?_⟩
      by_cases hd : d = 0
      · subst hd
        obtain rfl := Option.some.inj (hc.symm.trans hx)
        exact ⟨_, scanAt_setScan_same _ hc, rfl⟩
      · exact ⟨x, (scanAt_setScan_other _ hd).trans hx, rfl⟩
  · exact resultsKept_of_pause rfl rfl

/-- The state with a segment's results in its scan and its lane free. -/
def segRecorded (s : State) (l : LaneNo) (c : Scan) : State :=
  setLane (setScan s (lane s l).depth
    { c with res := ins c.res (lane s l).seg { (lane s l).res with fl := (lane s l).fl } }) l .idle

theorem segEnd_eq {s : State} {l : LaneNo} {c : Scan} (h : (lane s l).active = true)
    (hscan : scanAt s (lane s l).depth = some c) : segEnd s l = holdBoundary (markReady (segRecorded s l c)) := by
  unfold segEnd
  dsimp only
  rw [if_neg (by simp [h]), hscan]
  rfl

theorem lmEnd_records {s : State} {l : LaneNo} {c : Scan} (h : (lane s l).active = true)
    (hscan : scanAt s (lane s l).depth = some c) : ∃ t, exec (.lmEnd l) s = .next t ∧ lane t l = .idle ∧
      t.loom.words = s.loom.words ∧ t.loom.fbs = s.loom.fbs ∧ t.pts = s.pts ∧
      ∃ c', scanAt t (lane s l).depth = some c' ∧
        get? c'.res (lane s l).seg = some { (lane s l).res with fl := (lane s l).fl } := by
  have hkept := (resultsKept_markReady (segRecorded s l c)).trans (resultsKept_holdBoundary _)
  rw [← segEnd_eq h hscan] at hkept
  obtain ⟨c', hat, hres⟩ := hkept.scan (lane s l).depth _ (scanAt_setScan_same _ hscan)
  refine ⟨_, rfl, ?_, ?_, ?_, ?_, c', hat, ?_⟩
  · change lane (segEnd s l) l = .idle
    unfold lane
    rw [hkept.lanes]
    exact lane_setLane_same _ l .idle
  · refine hkept.words.trans ?_
    unfold segRecorded setScan
    split_ifs <;> rfl
  · refine hkept.fbs.trans ?_
    unfold segRecorded setScan
    split_ifs <;> rfl
  · exact hkept.pts.trans (setScan_pts _ _ _)
  · rw [hres]
    exact get?_ins_same _ _ _

/-! ### What a segment stages (R94, R95) -/

/-- Loom's program does not change with a lane. -/
theorem activeProg_of_laneOnly {s t : State} {l : LaneNo} (h : laneOnly s t l) : activeProg t = activeProg s := by
  obtain ⟨-, -, -, -, -, -, -, hloom, -⟩ := h
  have hbankA : t.loom.bankA = s.loom.bankA := by rw [hloom]
  have hbankB : t.loom.bankB = s.loom.bankB := by rw [hloom]
  unfold activeProg
  rw [hbankA, hbankB]

theorem stateWord_of_laneOnly {s t : State} {l : LaneNo} (h : laneOnly s t l) {x y : Lane} (hseg : y.seg = x.seg) (idx : Nat) :
    stateWord t y idx = stateWord s x idx := by
  unfold stateWord segDesc
  rw [activeProg_of_laneOnly h, hseg]

section

variable {s : State} {l : LaneNo} (h : (lane s l).active = true) (d : Wr) (x : BitVec 16)

include h

/-- STP stages the value in its output's type. -/
theorem lmStp_stages (ty : Ty) : ∃ t, exec (.lmStp l ty d x) s = .next t ∧ laneOnly s t l ∧ (lane t l).w = (lane s l).w ∧
    get? (lane t l).res.outs x.toNat = some (.value (conv ty (outType s x.toNat) ((lane s l).get d)).1) := by
  refine finish_onLane h fun t honly hlane => ⟨honly, ?_, ?_⟩ <;> rw [hlane]
  · rfl
  · exact get?_ins_same _ _ _

/-- STPC stages the value when CF is set, and sets no flag. -/
theorem lmStpc_stages (ty : Ty) : ∃ t, exec (.lmStpc l ty d x) s = .next t ∧ laneOnly s t l ∧
    (lane t l).w = (lane s l).w ∧ (lane t l).fl = (lane s l).fl ∧ get? (lane t l).res.outs x.toNat =
      if (lane s l).cf then some (.value (conv ty (outType s x.toNat) ((lane s l).get d)).1)
      else get? (lane s l).res.outs x.toNat := by
  refine finish_onLane h fun t honly hlane => ⟨honly, ?_⟩
  rw [hlane]
  by_cases hcf : (lane s l).cf = true
  · rw [if_pos hcf, if_pos hcf]
    exact ⟨rfl, rfl, get?_ins_same _ _ _⟩
  · rw [if_neg hcf, if_neg hcf]
    exact ⟨rfl, rfl, rfl⟩

theorem lmRls_stages : ∃ t, exec (.lmRls l x) s = .next t ∧ laneOnly s t l ∧
    get? (lane t l).res.outs x.toNat = some .relinquish :=
  finish_onLane h fun t honly hlane => ⟨honly, by rw [hlane]; exact get?_ins_same _ _ _⟩

/-- The lane reads a state word back as it has stored it. -/
theorem lmSts_stages : ∃ t, exec (.lmSts l d x) s = .next t ∧ laneOnly s t l ∧
    readWord t (lane t l) (stateWord t (lane t l) x.toNat) = (lane s l).get d := by
  refine finish_onLane h fun t honly hlane => ⟨honly, readWord_of_staged t ?_⟩
  rw [stateWord_of_laneOnly honly (x := lane s l) (by rw [hlane]; rfl), hlane]
  exact get?_ins_same _ _ _

theorem lmLspw_stages : ∃ t, exec (.lmLspw l d x) s = .next t ∧ laneOnly s t l ∧
    get? (lane t l).res.sps x.toNat = some ((lane s l).get d) :=
  finish_onLane h fun t honly hlane => ⟨honly, by rw [hlane]; exact get?_ins_same _ _ _⟩

/-- EMIT stages an event, or sets E where 256 stand (R95). -/
theorem lmEmit_stages : ∃ t, exec (.lmEmit l d x) s = .next t ∧ laneOnly s t l ∧
    (eventCount s (lane s l) < 256 → (lane t l).res.evts = (lane s l).res.evts ++ [(x.toNat, (lane s l).get d)]) ∧
    (256 ≤ eventCount s (lane s l) → (lane t l).res.evts = (lane s l).res.evts ∧ (lane t l).fl.testBit 3 = true) := by
  refine finish_onLane h fun t honly hlane => ⟨honly, fun hroom => ?_, fun hfull => ?_⟩ <;> rw [hlane] <;> unfold emitOp
  · rw [if_pos hroom]
  · rw [if_neg hfull.not_gt]
    exact ⟨rfl, (Nat.testBit_or _ _ 3).trans (Bool.or_true _)⟩

end

/-- Settles O25: a segment that may start takes its lane, END records its results, loads write what the scan reads, and each
store is staged in the lane's results. -/
theorem segmentsLoadAndStage : Obligations.SegmentsLoadAndStage := by
  unfold Obligations.SegmentsLoadAndStage
  refine fun s l d x ty => ⟨fun p c n sd rest hidle hcell hprog hseg hbreak => ⟨?_, ?_⟩, fun h => ?_⟩
  · intro hscan heng hres hlane hdeps
    have hstart : exec (.segmentStart l 0 n) s = finish s (takeLane s l 0 n.toNat) := by
      rw [← startNow_takes (l := l) hbreak hscan heng hres hlane hdeps]
      exact congrArg (finish s) (segmentStartOp_eq hidle hcell hprog hseg 0)
    rw [hstart]
    exact finish_setLane s.free fun t honly hlane => ⟨honly, hlane⟩
  · intro k hk hscan hopen hres hlane hdeps hmay hroom
    have hstart : exec (.segmentStart l k n) s = finish s (takeLane (setScan s k.val c) l k.val n.toNat) := by
      rw [← startAhead_takes (l := l) hscan hopen hres hlane hdeps hmay hroom]
      exact congrArg (finish s) ((segmentStartOp_eq hidle hcell hprog hseg k.val).trans
        (if_neg fun e => hk (Fin.ext e)))
    rw [hstart]
    exact ⟨_, rfl, lane_setLane_same _ l _, setScan_regs s k.val c⟩
  · exact ⟨finish_onLane h fun t honly hlane => ⟨honly, hlane⟩, fun c hscan => lmEnd_records h hscan, finish_res2 h _,
      finish_set h rfl, finish_set h rfl, finish_set h rfl, finish_set h rfl, finish_set h rfl, lmStp_stages h d x ty,
      lmStpc_stages h d x ty, lmRls_stages h x, lmSts_stages h d x, lmLspw_stages h d x, lmEmit_stages h d x⟩

end Sys2Proof.Proofs
end

section
/-!
PROOFS. The law of a closed loop (chapter 5, R119–R121, R125): accumulators as held values, the limits of steps 8 and 9,
anti-windup by holding the integrator, and the sample in CLOSED that they make up, closing or not.
-/

namespace Sys2Proof.Proofs

open Sys2Proof.Machine Sys2Proof.Laws

/-! ### Accumulators and flags (R121) -/

theorem clampI_eq {lo hi : Int} (h : lo ≤ hi) (x : Int) : clampI lo hi x = max lo (min hi x) := by
  unfold clampI
  split_ifs <;> omega

@[simp] theorem acc48_fst (x : Int) : (acc48 x).1 = hold48 x := clampI_eq (by decide) x

theorem testBit_flagBit (n k : Nat) (b : Bool) : (flagBit n b).testBit k = (b && decide (n = k)) := by
  cases b
  · exact Nat.zero_testBit k
  · simp [flagBit, Nat.testBit_two_pow]

/-! ### The terms of a sample (R119) -/

/-- P(n). -/
def propTerm (r : List Word) (sp y : Int) : Int :=
  hold48 (roundAway (recI r 0x2C * (recI r 0x3C * sp - y * 65536)) 65536)

/-- D(n), without a step of e_d on the first good sample after a PV fault (R128). -/
def derivTerm (r : List Word) (l : Law) (sp y : Int) : Int :=
  hold48 (roundAway (recI r 0x34 * l.d) 65536 + roundAway (recI r 0x38 *
    (recI r 0x40 * sp - y * 65536 - (if l.afterFault then recI r 0x40 * sp - y * 65536 else l.ed))) 65536)

/-- FF(n). -/
def feedTerm (r : List Word) (f : Int) : Int := hold48 (recI r 0x44 * f)

@[simp] theorem dStep_fst (r : List Word) (l : Law) (sp y : Int) : (dStep r l (edOf r sp y)).1 = derivTerm r l sp y :=
  acc48_fst _

/-! ### The limits (R119 steps 8 and 9, R120) -/

/-- u_r(n): a value within the rate limit about the last output; a limit of 0 or less is none. -/
def rateLimited (w u1 rate : Int) : Int := if 0 < rate then min (max w (u1 - rate)) (u1 + rate) else w

theorem rateLimited_self (u1 rate : Int) : rateLimited u1 u1 rate = u1 := by
  unfold rateLimited
  split_ifs <;> omega

theorem limitStep_rate (w u1 rate : Int) :
    (if 0 < rate then clampI (u1 - rate) (u1 + rate) w else w) = rateLimited w u1 rate := by
  unfold rateLimited
  split_ifs with hrate
  · rw [clampI_eq (by omega)]
    omega
  · rfl

/-- The output limits hold the rate-limited value, OUT_HI last. -/
theorem limitStep_fst (w u1 rate lo hi : Int) :
    (limitStep w u1 rate lo hi).1 = min (max (rateLimited w u1 rate) lo) hi := by
  unfold limitStep
  rw [limitStep_rate]
  dsimp only
  split_ifs <;> dsimp only <;> omega

/-- RATE is flagged where the rate limit has acted. -/
theorem limitStep_testBit_rate (w u1 rate lo hi : Int) :
    (limitStep w u1 rate lo hi).2.testBit 8 = decide (rateLimited w u1 rate ≠ w) := by
  unfold limitStep
  rw [limitStep_rate]
  dsimp only
  split_ifs <;> simp [testBit_flagBit]

/-- Within the output limits the last output passes both limits. -/
theorem limitStep_last {u1 lo hi : Int} (rate : Int) (hlo : lo ≤ u1) (hhi : u1 ≤ hi) :
    (limitStep u1 u1 rate lo hi).1 = u1 := by
  rw [limitStep_fst, rateLimited_self]
  omega

/-! ### Anti-windup and the biquad -/

/-- Without BACK_CALC the integrator is held where its step points further beyond the limit (R120). -/
theorem antiWindup_hold {r : List Word} (h : bit (recAt r 0) 2 = false) (iPrev iPre kie u w : Int) :
    (antiWindup r iPrev iPre kie u w).1 = if 0 < kie * (w - u) then iPrev else iPre := by
  have hiff : (u ≠ w ∧ ((0 < kie ∧ u < w) ∨ (kie < 0 ∧ w < u))) ↔ 0 < kie * (w - u) := by
    rw [mul_pos_iff, sub_pos, sub_neg]
    exact ⟨And.right, fun hside => ⟨by omega, hside⟩⟩
  unfold antiWindup
  rw [h, if_neg Bool.false_ne_true]
  simp only [hiff]
  split_ifs <;> rfl

theorem biquad_off {r : List Word} (h : bit (recAt r 0) 3 = false) (l : Law) (v : Int) : biquad r l v = (v, false) := by
  unfold biquad
  rw [h, if_neg Bool.false_ne_true]

/-! ### A sample in CLOSED (R119, R125) -/

/-- v(n), the sum of the terms with an integrator. -/
def lawSum (r : List Word) (l : Law) (sp y f i : Int) : Int :=
  hold48 (propTerm r sp y + i + derivTerm r l sp y + feedTerm r f)

/-- Steps 8 and 9 with the limits of the record. -/
def recordLimits (r : List Word) (w u1 : Int) : Int × Nat :=
  limitStep w u1 (recI r 0x4C * 65536) (recI r 0x54 * 65536) (recI r 0x50 * 65536)

section

variable {r : List Word} {l : Law} (sp y f u1 : Int)

/-- The law state keeps D(n), and the next sample is no closing one. -/
theorem closedStep_law : (closedStep r l sp y f u1).law.d = derivTerm r l sp y ∧
    (closedStep r l sp y f u1).law.closing = false := ⟨dStep_fst r l sp y, rfl⟩

/-- A sample that is no closing one: the sum with the integrator advanced, limited; then anti-windup. -/
theorem closedStep_open (hbiquad : bit (recAt r 0) 3 = false) (hclosing : l.closing = false) (hfault : l.afterFault = false)
    {i w : Int} (hi : i = hold48 (l.integ + recI r 0x30 * (sp - y))) (hw : w = lawSum r l sp y f i) :
    (closedStep r l sp y f u1).u = (recordLimits r w u1).1 ∧
      (closedStep r l sp y f u1).law.integ =
        (antiWindup r l.integ i (recI r 0x30 * (sp - y)) (recordLimits r w u1).1 w).1 ∧
      (closedStep r l sp y f u1).fl.testBit 8 = (recordLimits r w u1).2.testBit 8 := by
  have hsum : w = hold48 ((acc48 (rnd16 (recI r 0x2C * (recI r 0x3C * sp - y * 65536)))).1 +
      (acc48 (l.integ + recI r 0x30 * (sp - y))).1 + (dStep r l (edOf r sp y)).1 + (acc48 (recI r 0x44 * f)).1) := by
    rw [acc48_fst, acc48_fst, acc48_fst, dStep_fst, ← hi]
    exact hw
  unfold closedStep recordLimits
  simp only [hclosing, hfault, Bool.or_self, Bool.false_eq_true, if_false, biquad_off hbiquad]
  rw [acc48_fst (_ + _ + _ + _), ← hsum, acc48_fst (l.integ + _), ← hi]
  exact ⟨rfl, rfl, by simp [Nat.testBit_or, testBit_flagBit]⟩

/-- A closing sample: the integrator that would give the last output, and the sum with it, limited. -/
theorem closedStep_closing (hbiquad : bit (recAt r 0) 3 = false) (hclosing : l.closing = true) {i : Int}
    (hi : i = hold48 (u1 - propTerm r sp y - derivTerm r l sp y - feedTerm r f)) :
    (closedStep r l sp y f u1).u = (recordLimits r (lawSum r l sp y f i) u1).1 ∧
      (closedStep r l sp y f u1).law.integ = i := by
  unfold closedStep recordLimits
  simp only [hclosing, Bool.true_or, if_true, biquad_off hbiquad, acc48_fst, dStep_fst]
  rw [hi]
  exact ⟨rfl, rfl⟩

/-- A closing sample whose accumulators do not clamp gives the last output again where it lies within the output limits. -/
theorem closedStep_bumpless (hbiquad : bit (recAt r 0) 3 = false) (hclosing : l.closing = true)
    (hinteg : hold48 (u1 - propTerm r sp y - derivTerm r l sp y - feedTerm r f) =
      u1 - propTerm r sp y - derivTerm r l sp y - feedTerm r f) (hlast : hold48 u1 = u1)
    (hlo : recI r 0x54 * 65536 ≤ u1) (hhi : u1 ≤ recI r 0x50 * 65536) :
    (closedStep r l sp y f u1).u = u1 ∧
      (closedStep r l sp y f u1).law.integ = u1 - propTerm r sp y - derivTerm r l sp y - feedTerm r f := by
  obtain ⟨hu, hi⟩ := closedStep_closing sp y f u1 hbiquad hclosing hinteg.symm
  refine ⟨?_, hi⟩
  have hsum : lawSum r l sp y f (u1 - propTerm r sp y - derivTerm r l sp y - feedTerm r f) = u1 :=
    (congrArg hold48 (by ring)).trans hlast
  rw [hu, hsum]
  exact limitStep_last _ hlo hhi

end

/-- A rate limit in units of 2^-16 acts where it is above 0. -/
theorem rateLimited_scaled (w u1 rate : Int) : rateLimited w u1 (rate * 65536) =
    if 0 < rate then min (max w (u1 - rate * 65536)) (u1 + rate * 65536) else w := by
  unfold rateLimited
  simp only [show 0 < rate * 65536 ↔ 0 < rate by omega]

/-- Settles O32: a sample in CLOSED is its terms' sum within the limits, with the integrator held by anti-windup; a closing sample
takes the integrator from the last output. -/
theorem closedLoopLaw : Obligations.ClosedLoopLaw := by
  unfold Obligations.ClosedLoopLaw
  rintro r l sp y f u1 hbiquad hback p d ff rfl rfl rfl
  obtain ⟨hd, hclosed⟩ := closedStep_law (r := r) (l := l) sp y f u1
  refine ⟨fun hclosing hfault i w ur hi hw hur => ?_, fun hclosing hinteg hlast hlo hhi => ?_⟩
  · obtain ⟨hu, hinteg, hfl⟩ := closedStep_open sp y f u1 hbiquad hclosing hfault hi hw
    rw [← rateLimited_scaled] at hur
    refine ⟨?_, ?_, hd, ?_⟩
    · rw [hu, recordLimits, limitStep_fst, hur]
    · rw [hinteg, antiWindup_hold hback, hu]
    · rw [hfl, recordLimits, limitStep_testBit_rate, hur]
  · obtain ⟨hu, hi⟩ := closedStep_bumpless sp y f u1 hbiquad hclosing hinteg hlast hlo hhi
    exact ⟨hu, hi, hclosed⟩

end Sys2Proof.Proofs
end

section
/-!
PROOFS. Writes to a loop record (chapter 5, R115, R117, R124, R125, R127): where a record stands, which writes its page refuses,
and what an accepted write to CTRL or SP leaves.
-/

namespace Sys2Proof.Proofs

open Sys2Proof.Machine Sys2Proof.Laws

/-! ### Where a record stands (R132) -/

theorem pageOf_loopA (n : Nat) {o : Nat} (ho : o < 128) : pageOf (loopA n o) = 0x19 + n / 32 := pageOf_reg _ (by omega)

theorem offOf_loopA (n : Nat) {o : Nat} (ho : o < 128) : offOf (loopA n o) = 128 * (n % 32) + o := offOf_reg _ (by omega)

/-- Registers of records have addresses of their own. -/
theorem loopA_inj {m n o x : Nat} (ho : o < 128) (hx : x < 128) : loopA m o = loopA n x ↔ m = n ∧ o = x := by
  refine ⟨fun h => ?_, fun ⟨hm, hox⟩ => by rw [hm, hox]⟩
  have hpage := congrArg pageOf h
  have hoff := congrArg offOf h
  rw [pageOf_loopA m ho, pageOf_loopA n hx] at hpage
  rw [offOf_loopA m ho, offOf_loopA n hx] at hoff
  omega

theorem loopOf_loopA (n : Nat) {o : Nat} (ho : o < 128) : loopOf (loopA n o) = (n, o) := by
  unfold loopOf
  rw [pageOf_loopA n ho, offOf_loopA n ho, Prod.mk.injEq]
  omega

theorem isLoopbank_loopA {n o : Nat} (hn : n < 256) (ho : o < 128) : isLoopbank (pageOf (loopA n o)) = true := by
  rw [pageOf_loopA n ho]
  unfold isLoopbank
  simp only [Bool.and_eq_true, decide_eq_true_eq]
  omega

/-- A record is none of a request's accounts. -/
theorem booked_loopA {n o : Nat} (hn : n < 256) (ho : o < 128) : booked (loopA n o) = false := by
  apply booked_of_page
  · omega
  · unfold pTOLL
    omega
  · unfold pDAYB
    omega

theorem loopA_ne_lock {n o : Nat} (hn : n < 256) (ho : o < 128) : loopA n o ≠ reg pLOCK 0x090 :=
  reg_ne_of_page (by unfold pLOCK; omega) (by omega) (by decide)

/-- A row of the records covers its own offset of each record. -/
theorem covers_loopbank {r : RegRow} (hr : r ∈ loopbankRows) {k o : Nat} (hk : k < 32) (ho : o < 128) :
    r.covers (128 * k + o) = (r.off == o) := by
  have hrows : ∀ r ∈ loopbankRows, r.off < 128 ∧ r.stride = 128 ∧ r.n = 32 := by decide
  obtain ⟨hoff, hstride, hn⟩ := hrows r hr
  unfold RegRow.covers
  rw [hstride, hn, Bool.eq_iff_iff]
  simp only [Bool.and_eq_true, decide_eq_true_eq, beq_iff_eq]
  omega

theorem rowOf_loopA {n o : Nat} (hn : n < 256) (ho : o < 128) :
    rowOf (loopA n o) = loopbankRows.find? fun r => r.off == o := by
  unfold rowOf pageRows
  rw [isLoopbank_loopA hn ho, if_pos rfl, offOf_loopA n ho]
  exact List.find?_congr fun r hr => covers_loopbank hr (Nat.mod_lt n (by decide)) ho

/-! ### What the page refuses (R117, R124, R127) -/

/-- A write to a register of a record with an RW field is refused by the rules of the loop engine alone. -/
theorem pageRefusal_loopA (s : State) (w : Who) {n o : Nat} (v : Word) (hn : n < 256) (ho : o < 128)
    (hrow : inert (loopA n o) = false) : pageRefusal s w (loopA n o) v = (loopRefuse s n o v).map (loopRefused s n) := by
  have hbank := isLoopbank_loopA hn ho
  have hpage : ∀ q < 0x19, pageOf (loopA n o) ≠ q := by
    intro q hq
    rw [pageOf_loopA n ho]
    omega
  have hand : ∀ q < 0x19, ∀ c : Prop, ¬ (pageOf (loopA n o) = q ∧ c) := fun q hq c h => hpage q hq h.1
  unfold pageRefusal
  dsimp only
  rw [hrow, hbank, if_neg Bool.false_ne_true, if_neg (by simp), if_neg (by simp), if_neg (hand pMOD (by decide) _),
    if_neg (hand pPROT (by decide) _), if_neg (hand pINTC (by decide) _), if_neg (hand pTOLL (by decide) _),
    if_neg (not_or.2 ⟨hpage _ (by decide), hpage _ (by decide)⟩), if_neg (hpage pSCAN (by decide)),
    if_neg (hpage pSCANDBG (by decide)), if_neg (hand pPGMX (by decide) _), if_neg (hpage pFORCE (by decide)), if_pos rfl,
    loopOf_loopA n ho]
  dsimp only
  cases loopRefuse s n o v <;> rfl

/-- A write that passes the rights stage passes the rules of its page. -/
theorem pageRefusal_of_writeRefusal {s : State} {w : Who} {c : Cls} {a : Nat} {v : Word}
    (h : writeRefusal s w c a v = none) : pageRefusal s w a v = none := by
  unfold writeRefusal at h
  split at h
  · cases h
  · split at h
    · split at h <;> cases h
    · split at h
      · cases h
      · exact h

/-- A write that meets nothing on its way passes the rights stage once the ports have granted it. -/
theorem clear_passes {s : State} {i : Init} {a : Nat} {v : Word} (h : clear s i a v = true) :
    ∃ u, Light s u ∧ writeRefusal u i.who (clsFor s i) a v = none := by
  unfold clear at h
  dsimp only at h
  simp only [Bool.and_eq_true, Option.isNone_iff_eq_none] at h
  obtain ⟨⟨⟨⟨⟨-, hentered⟩, -⟩, -⟩, hrefusal⟩, -⟩ := h
  obtain ⟨u, hu⟩ := Option.isSome_iff_exists.1 hentered
  have hat : atPage s i a v = u := by rw [atPage, hu, Option.getD_some]
  rw [hat] at hrefusal
  exact ⟨u, (light_entered (regPath_lt i.who (pageOf a)) hu).1, hrefusal⟩

/-! ### The schedule (R115, R117) -/

/-- Two states hold the same loop records. -/
def sameRecords (s t : State) : Prop := ∀ n < 256, ∀ o < 128, rd t (loopA n o) = rd s (loopA n o)

theorem sameRecords_light {s t : State} (h : Light s t) : sameRecords s t :=
  fun _ hn _ ho => h.rd _ (booked_loopA hn ho)

section

variable {s t : State} (h : sameRecords s t)

include h

theorem sameRecords.rdF {n o : Nat} (lo k : Nat) (hn : n < 256) (ho : o < 128) :
    rdF t (loopA n o) lo k = rdF s (loopA n o) lo k := congrArg (fld · lo k) (h n hn o ho)

theorem sameRecords.rdB {n o : Nat} (k : Nat) (hn : n < 256) (ho : o < 128) :
    rdB t (loopA n o) k = rdB s (loopA n o) k := congrArg (bit · k) (h n hn o ho)

theorem sameRecords.loopK {n : Nat} (hn : n < 256) : loopK t n = loopK s n :=
  congrArg (· + 1) (h.rdF 0 11 hn (by decide))

theorem sameRecords.loopSlots {n : Nat} (hn : n < 256) : loopSlots t n = loopSlots s n := by
  unfold Machine.loopSlots
  rw [h.loopK hn, h.rdF 0 24 hn (by decide)]

theorem sameRecords.enabledLoops : enabledLoops t = enabledLoops s :=
  List.filter_congr fun _ hm => h.rdB 31 (List.mem_range.1 hm) (by decide)

theorem sameRecords.slotLoad (j : Nat) : slotLoad t j = slotLoad s j := by
  unfold Machine.slotLoad
  rw [h.enabledLoops]
  refine congrArg List.length (List.filter_congr fun m hm => ?_)
  rw [h.loopSlots (List.mem_range.1 (List.mem_of_mem_filter hm))]

theorem sameRecords.loopCheck {n : Nat} (hn : n < 256) : loopCheck t n = loopCheck s n := by
  unfold Machine.loopCheck
  rw [h.loopSlots hn, h.loopK hn, h.rdF 0 24 hn (by decide), h.rdF 0 24 hn (by decide), funext h.slotLoad]

theorem sameRecords.loopRefuse {n o : Nat} (v : Word) (hn : n < 256) (ho : o < 128) :
    loopRefuse t n o v = loopRefuse s n o v := by
  unfold Machine.loopRefuse
  rw [h n hn o ho, h n hn 0 (by decide), h.loopCheck hn]

end

/-- A write to a record that meets nothing on its way is one that the loop engine accepts. -/
theorem clear_loopRefuse {s : State} {i : Init} {n o : Nat} {v : Word} (hn : n < 256) (ho : o < 128)
    (hrow : inert (loopA n o) = false) (h : clear s i (loopA n o) v = true) : loopRefuse s n o v = none := by
  obtain ⟨u, hl, hu⟩ := clear_passes h
  have hpage := pageRefusal_of_writeRefusal hu
  rwa [pageRefusal_loopA u i.who v hn ho hrow, Option.map_eq_none_iff, (sameRecords_light hl).loopRefuse v hn ho] at hpage

/-- A loop that passes the checks of R117: a place in each of its slots, OUT_DELAY and PHASE within the period. -/
theorem loopCheck_none {s : State} {n : Nat} (h : loopCheck s n = none) :
    160 ≤ rdF s (loopA n 0x0C) 0 24 ∧ rdF s (loopA n 0x0C) 0 24 ≤ loopK s n * 8192 ∧
      rdF s (loopA n 0x08) 0 24 < loopK s n * 8192 ∧ ∀ j ∈ loopSlots s n, slotLoad s j < 96 := by
  unfold loopCheck at h
  dsimp only at h
  split at h
  · cases h
  · rename_i hslots
    have hfree : ∀ j ∈ loopSlots s n, slotLoad s j < 96 := by simpa using hslots
    split_ifs at h with hshort hlong hphase
    exact ⟨by omega, by omega, by omega, hfree⟩

/-! ### CTRL as it acts -/

theorem clampN_eq {lo hi : Nat} (h : lo ≤ hi) (x : Nat) : clampN lo hi x = max lo (min hi x) := by
  unfold clampN
  split_ifs <;> omega

/-- CTRL with MODE as it acts. -/
def modeClean (v : Word) : Word :=
  if fld (v &&& 0x80001F3F) 0 2 = 3 then setFld (v &&& 0x80001F3F) 0 2 0 else v &&& 0x80001F3F

theorem loopCtrlClean_eq (v : Word) : loopCtrlClean v = setFld (modeClean v) 8 5 (clampN 1 16 (fld (modeClean v) 8 5)) := rfl

/-- The fields beside MODE act as written. -/
theorem fld_modeClean (v : Word) {lo n : Nat} (hm : fld 0x80001F3F#32 lo n = 2 ^ n - 1) (hlo : 2 ≤ lo) :
    fld (modeClean v) lo n = fld v lo n := by
  unfold modeClean
  split
  · exact (fld_setFld_above _ 0 (by decide) hlo).trans (fld_and_of_full v hm)
  · exact fld_and_of_full v hm

/-- MODE = 3 acts as 0. -/
theorem loopCtrlClean_mode (v : Word) : fld (loopCtrlClean v) 0 2 = if fld v 0 2 = 3 then 0 else fld v 0 2 := by
  have hmask : fld (v &&& 0x80001F3F) 0 2 = fld v 0 2 := fld_and_of_full v (by decide)
  rw [loopCtrlClean_eq, fld_setFld_below _ _ (by decide) (by decide)]
  unfold modeClean
  rw [hmask]
  split
  · exact fld_setFld_same _ 0 (by decide)
  · exact hmask

/-- PRIORITY acts within 1–16. -/
theorem loopCtrlClean_priority (v : Word) : fld (loopCtrlClean v) 8 5 = max 1 (min 16 (fld v 8 5)) := by
  rw [loopCtrlClean_eq, fld_setFld_same _ _ (by decide), fld_modeClean v (by decide) (by decide), clampN_eq (by decide)]
  omega

theorem loopCtrlClean_enable (v : Word) : bit (loopCtrlClean v) 31 = bit v 31 := by
  rw [bit_eq_fld, bit_eq_fld, loopCtrlClean_eq, fld_setFld_above _ _ (by decide) (by decide),
    fld_modeClean v (by decide) (by decide)]

/-- A write to CTRL that sets ENABLE is accepted after the checks of R117. -/
theorem loopCheck_of_accepted {s : State} {n : Nat} {v : Word} (h : loopRefuse s n 0 v = none) (hen : bit v 31 = true)
    (hold : rdB s (loopA n 0) 31 = false) : loopCheck s n = none := by
  unfold rdB at hold
  unfold loopRefuse at h
  simp only [if_true, loopCtrlClean_enable, hen, hold] at h
  split_ifs at h with hcoef hcheck
  simpa using hcheck

/-! ### The effects -/

section

variable (s : State) (n : Nat)

@[simp] theorem rd_loopWr_same (o ord : Nat) (v : Word) : rd (loopWr s n o ord v) (loopA n o) = v := rd_wr_same _ _ v

theorem rd_loopWr_other (o ord : Nat) (v : Word) {a : Nat} (h : a ≠ loopA n o) : rd (loopWr s n o ord v) a = rd s a :=
  rd_wr_other _ v h

@[simp] theorem loopSt_loopWr (o ord : Nat) (v : Word) (m : Nat) : loopSt (loopWr s n o ord v) m = loopSt s m := rfl

@[simp] theorem loopSt_setLoop_same (x : LoopSt) : loopSt (setLoop s n x) n = x := look_put_same _ _ _ _

/-- A write to CTRL holds it as it acts. -/
theorem rd_loopSet_ctrl (v : Word) : rd (loopSet s n 0 v) (loopA n 0) = loopCtrlClean v := by
  have hout : loopA n 0 ≠ loopA n 0x70 := fun h => absurd ((loopA_inj (by decide) (by decide)).1 h).2 (by decide)
  have hstored := rd_loopWr_same s n 0 0 (loopCtrlClean v)
  unfold loopSet
  rw [if_neg (not_not_intro rfl)]
  dsimp only
  split_ifs
  · rwa [rd_loopWr_other _ _ _ _ _ hout, rd_setLoop]
  all_goals exact hstored

variable {v : Word}

/-- A write that sets ENABLE loads OUT with SAFE_VALUE, and the next sample in CLOSED closes (R117, R125). -/
theorem loopSet_enables (hen : bit v 31 = true) (hold : rdB s (loopA n 0) 31 = false) :
    rd (loopSet s n 0 v) (loopA n 0x70) = rd s (loopA n 0x6C) ∧ (loopSt (loopSet s n 0 v) n).closing = true := by
  have hsafe : loopA n 0x6C ≠ loopA n 0 := fun h => absurd ((loopA_inj (by decide) (by decide)).1 h).2 (by decide)
  unfold rdB at hold
  unfold loopSet
  rw [if_neg (not_not_intro rfl)]
  dsimp only
  rw [if_pos ⟨(loopCtrlClean_enable v).trans hen, by rw [hold]; rfl⟩, rd_loopWr_same, rd_loopWr_other _ _ _ _ _ hsafe,
    loopSt_loopWr, loopSt_setLoop_same]
  exact ⟨rfl, rfl⟩

/-- A write that leaves ENABLE clear drops the sample and the result in flight. -/
theorem loopSet_disables (hen : bit v 31 = false) :
    (loopSt (loopSet s n 0 v) n).sample = none ∧ (loopSt (loopSet s n 0 v) n).result = none := by
  unfold loopSet
  rw [if_neg (not_not_intro rfl)]
  dsimp only
  rw [loopCtrlClean_enable, hen, if_neg (fun h => Bool.false_ne_true h.1), if_pos (show (!false) = true from rfl),
    loopSt_setLoop_same]
  exact ⟨rfl, rfl⟩

end

/-- A write to a register of a record below OUT. -/
theorem writeEffect_loopA (s : State) (i : Init) {n o : Nat} (v : Word) (hn : n < 256) (ho : o < 0x70)
    (hrow : inert (loopA n o) = false) :
    writeEffect s i (loopA n o) v = if o = 0x24 then loopSp s i.who n v else loopSet s n o v := by
  have hsome : (rowOf (loopA n o)).isNone = false := by
    unfold inert at hrow
    split at hrow
    · rename_i hr
      rw [hr]
      rfl
    · cases hrow
  unfold writeEffect writeLoopbank
  dsimp only
  rw [hsome, isLoopbank_loopA hn (by omega), if_neg Bool.false_ne_true, if_pos rfl, loopOf_loopA n (by omega)]
  dsimp only
  rw [if_neg (Nat.not_le.2 ho)]

theorem inert_loopCtrl {n : Nat} (hn : n < 256) : inert (loopA n 0) = false := by
  unfold inert
  rw [rowOf_loopA hn (by decide)]
  decide

theorem inert_loopSp {n : Nat} (hn : n < 256) : inert (loopA n 0x24) = false := by
  unfold inert
  rw [rowOf_loopA hn (by decide)]
  decide

/-! ### LOOP_CTRL_WRITE and LOOP_SP_WRITE -/

theorem exec_loopCtrlWrite (i : Init) (n : Fin 256) (v : Word) (s : State) :
    exec (.loopCtrlWrite i n v) s = finishClock s (submitWrite s i (loopA n.val 0) v) := rfl
theorem exec_loopSpWrite (i : Init) (n : Fin 256) (v : Word) (s : State) :
    exec (.loopSpWrite i n v) s = finishClock s (submitWrite s i (loopA n.val 0x24) v) := rfl

/-- LOOP_CTRL_WRITE. -/
theorem loopCtrlWrite_writes {s : State} {i : Init} (n : Fin 256) {v : Word} (h : clear s i (loopA n.val 0) v = true) :
    ∃ t, exec (.loopCtrlWrite i n v) s = .next t ∧ rd t (loopA n.val 0) = loopCtrlClean v ∧
      (bit v 31 = true → rdB s (loopA n.val 0) 31 = false → loopCheck s n.val = none ∧
        rd t (loopA n.val 0x70) = rd s (loopA n.val 0x6C) ∧ (loopSt t n.val).closing = true) ∧
      (bit v 31 = false → (loopSt t n.val).sample = none ∧ (loopSt t n.val).result = none) := by
  have haccepted := clear_loopRefuse n.isLt (by decide) (inert_loopCtrl n.isLt) h
  rw [exec_loopCtrlWrite]
  refine row_clear h (loopA_ne_lock n.isLt (by decide)) fun s' t hl hd => ?_
  rw [writeEffect_loopA s' _ v n.isLt (by decide) (inert_loopCtrl n.isLt), if_neg (by decide)] at hd
  have hsame := sameRecords_light hl
  have hloop : loopSt t n.val = loopSt (loopSet s' n.val 0 v) n.val := congrArg (look LoopSt.zero · n.val) hd.loops
  rw [hloop]
  refine ⟨(hd.rd _).trans (rd_loopSet_ctrl s' n.val v), fun hen hold => ⟨loopCheck_of_accepted haccepted hen hold, ?_⟩,
    loopSet_disables s' n.val⟩
  rw [hd.rd, ← hsame n.val n.isLt 0x6C (by decide)]
  exact loopSet_enables s' n.val hen ((hsame.rdB 31 n.isLt (by decide)).trans hold)

/-- A setpoint that no writer of the same fabric cycle overrules is taken where SP_SRC is 0 (R127). -/
theorem loopSp_sets {s : State} {w : Who} {n : Nat} (v : Word) (hsrc : rdB s (loopA n 0) 5 = false)
    (hlast : spOverruled s n w = false) : loopSp s w n v = loopWr s n 0x24 (rankOf w) v := by
  unfold loopSp
  rw [hsrc, hlast, if_neg Bool.false_ne_true, if_neg Bool.false_ne_true]

/-- An accepted write to SP finds SP_SRC at 0. -/
theorem spSrc_of_accepted {s : State} {n : Nat} {v : Word} (h : loopRefuse s n 0x24 v = none) :
    rdB s (loopA n 0) 5 = false := by
  unfold loopRefuse at h
  simpa [isRouting, isCoef, rdB] using h

/-- LOOP_SP_WRITE. -/
theorem loopSpWrite_writes {s : State} {i : Init} (n : Fin 256) {v : Word} (h : clear s i (loopA n.val 0x24) v = true)
    (hlast : spOverruled s n.val i.who = false) :
    ∃ t, exec (.loopSpWrite i n v) s = .next t ∧ rd t (loopA n.val 0x24) = v ∧
      ∀ m < 256, m ≠ n.val → rd t (loopA m 0x24) = rd s (loopA m 0x24) := by
  have haccepted := clear_loopRefuse n.isLt (by decide) (inert_loopSp n.isLt) h
  rw [exec_loopSpWrite]
  refine row_clear h (loopA_ne_lock n.isLt (by decide)) fun s' t hl hd => ?_
  have hsame := sameRecords_light hl
  have hsrc := (hsame.rdB 5 n.isLt (by decide)).trans (spSrc_of_accepted haccepted)
  have hstands : spOverruled s' n.val i.who = false := by
    unfold spOverruled at hlast ⊢
    rwa [hl.past, hl.clk]
  rw [writeEffect_loopA s' _ v n.isLt (by decide) (inert_loopSp n.isLt), if_pos rfl, loopSp_sets v hsrc hstands] at hd
  refine ⟨(hd.rd _).trans (rd_loopWr_same s' _ _ _ v), fun m hm hne => ?_⟩
  have hother : loopA m 0x24 ≠ loopA n.val 0x24 := fun he => hne ((loopA_inj (by decide) (by decide)).1 he).1
  rw [hd.rd, rd_loopWr_other _ _ _ _ _ hother, hsame m hm 0x24 (by decide)]

/-- Settles O33: CTRL is held as it acts, ENABLE set has passed the checks of R117 and ENABLE clear drops what is in flight; a
setpoint is taken. -/
theorem loopWrites : Obligations.LoopWrites := by
  unfold Obligations.LoopWrites
  refine fun s i n v => ⟨fun h => ?_, loopSpWrite_writes n⟩
  obtain ⟨t, ht, hctrl, henables, hdisables⟩ := loopCtrlWrite_writes n h
  refine ⟨t, ht, ?_, ?_, ?_, fun hen hold => ?_, hdisables⟩
  · rw [rdF, hctrl, loopCtrlClean_mode]
  · rw [rdF, hctrl, loopCtrlClean_priority]
  · rw [rdB, hctrl, loopCtrlClean_enable]
  · obtain ⟨hcheck, hout, hclosing⟩ := henables hen hold
    obtain ⟨hshort, hlong, hphase, hslots⟩ := loopCheck_none hcheck
    exact ⟨hshort, hlong, hphase, hslots, hout, hclosing⟩

end Sys2Proof.Proofs
end

section
/-!
PROOFS. The paths of a current channel (chapter 6, R138, R141): which path a decimated sample is taken from, how it leaves the
run that leads back to ×32, and what STAT.PATH and SWITCH_COUNT show of it.
-/

namespace Sys2Proof.Proofs

open Sys2Proof.Machine Sys2Proof.Laws

/-! ### A channel and its record -/

@[simp] theorem chan_setChan_same (s : State) (c : Nat) (x : Chan) : chan (setChan s c x) c = x := look_put_same _ _ _ _

theorem chan_congr {s t : State} (h : t.wgh = s.wgh) (c : Nat) : chan t c = chan s c := by unfold chan; rw [h]

theorem chA_inj {c o x : Nat} : chA c o = chA c x ↔ o = x := by
  unfold chA reg
  omega

theorem evtAddr_wgh : evtAddr pWGH = some (reg pWGH 0x084) := by decide

/-- WGH.EVT is no register of a channel's record. -/
theorem evtAddr_wgh_ne_chA (c o : Nat) : evtAddr pWGH ≠ some (chA c o) := by
  rw [evtAddr_wgh, ne_eq, Option.some.injEq]
  unfold chA reg pWGH
  omega

@[simp] theorem chan_pathShow (s : State) (c d : Nat) : chan (pathShow s c) d = chan s d := rfl

theorem rdB_pathShow (s : State) (c : Nat) : rdB (pathShow s c) (chA c 0x18) 0 = (!isVolt c && !(chan s c).x32) :=
  rdB_wrB_same s _ (by decide)

theorem rd_pathShow_other (s : State) (c : Nat) {o : Nat} (h : o ≠ 0x18) : rd (pathShow s c) (chA c o) = rd s (chA c o) :=
  rd_wrB_other s _ _ (chA_inj.not.2 h)

/-! ### A sample of the selected path -/

@[simp] theorem overloaded_x32 (s : State) (x : Chan) : (overloaded s x).x32 = x.x32 := by
  unfold overloaded; split <;> rfl
@[simp] theorem overloaded_run (s : State) (x : Chan) : (overloaded s x).run = x.run := by
  unfold overloaded; split <;> rfl

@[simp] theorem chFilter_x32 (s : State) (c : Nat) (x : Chan) (v : Int) : (chFilter s c x v).1.x32 = x.x32 := by
  unfold chFilter; dsimp only; split <;> rfl
@[simp] theorem chFilter_run (s : State) (c : Nat) (x : Chan) (v : Int) : (chFilter s c x v).1.run = x.run := by
  unfold chFilter; dsimp only; split <;> rfl

/-- The channel after its filters, and after the overload of its integrator. -/
def filtered (s : State) (c : Nat) (x : Chan) (v : Int) : Chan :=
  if (chFilter s c x v).2 then overloaded s (chFilter s c x v).1 else (chFilter s c x v).1

@[simp] theorem filtered_x32 (s : State) (c : Nat) (x : Chan) (v : Int) : (filtered s c x v).x32 = x.x32 := by
  unfold filtered; split <;> simp
@[simp] theorem filtered_run (s : State) (c : Nat) (x : Chan) (v : Int) : (filtered s c x v).run = x.run := by
  unfold filtered; split <;> simp

theorem chanTake_eq (s : State) (c : Nat) (x : Chan) (v : Int) :
    chanTake s c x v = pathShow (evIf (chFilter s c x v).2 (setChan s c (filtered s c x v)) pWGH 3) c := rfl

@[simp] theorem chan_chanTake (s : State) (c : Nat) (x : Chan) (v : Int) : chan (chanTake s c x v) c = filtered s c x v := by
  rw [chanTake_eq, chan_pathShow, chan_congr (evIf_wgh _ _ _ _), chan_setChan_same]

/-- STAT.PATH shows the path of the sample taken. -/
theorem rdB_chanTake (s : State) (c : Nat) (x : Chan) (v : Int) :
    rdB (chanTake s c x v) (chA c 0x18) 0 = (!isVolt c && !x.x32) := by
  rw [chanTake_eq, rdB_pathShow, ← chan_pathShow, ← chanTake_eq, chan_chanTake, filtered_x32]

theorem rd_chanTake_other (s : State) (c : Nat) (x : Chan) (v : Int) {o : Nat} (h : o ≠ 0x18) :
    rd (chanTake s c x v) (chA c o) = rd s (chA c o) := by
  rw [chanTake_eq, rd_pathShow_other _ _ h, rd_evIf_other _ _ _ _ (evtAddr_wgh_ne_chA c o), rd_setChan]

/-! ### The selection of a path -/

/-- SWITCH_COUNT after a selection: one more for a switch to ×1 (R138, R334). -/
def switchCount (s : State) (c : Nat) (x32 : Bool) : Word :=
  if (chan s c).x32 && !x32 then
    w32 (countUp (corMode s (statPage (chA c 0x1C))) 32 (rd s (chA c 0x1C)).toNat 1)
  else rd s (chA c 0x1C)

theorem switchCount_kept {s : State} {c : Nat} {x32 : Bool} (h : ((chan s c).x32 && !x32) = false) :
    switchCount s c x32 = rd s (chA c 0x1C) := by
  rw [switchCount, h, if_neg Bool.false_ne_true]

/-- A counter of 32 bits that rolls over counts one. -/
theorem countUp_roll (w : Word) : w32 (countUp false 32 w.toNat 1) = w + 1 := by
  apply BitVec.eq_of_toNat_eq
  simp [countUp, w32, BitVec.toNat_add]

/-- A switch to ×1 adds one to SWITCH_COUNT of a channel of the first page, where that page's counters roll over. -/
theorem switchCount_switch {s : State} {c : Nat} (hc : c < 8) (hx : (chan s c).x32 = true) (hcor : corMode s 0x29 = false) :
    switchCount s c false = rd s (chA c 0x1C) + 1 := by
  have hpage : statPage (chA c 0x1C) = 0x29 := by
    have hrec : pageOf (chA c 0x1C) = 0x29 := by unfold pageOf chA reg; omega
    rw [statPage, hrec]
    rfl
  rw [switchCount, hx, hpage, hcor]
  exact countUp_roll _

@[simp] theorem chan_selectPath (s : State) (c : Nat) (x32 : Bool) :
    chan (selectPath s c x32) c = { chan s c with x32 := x32 } := by
  unfold selectPath
  dsimp only
  rw [chan_pathShow]
  split
  · rename_i hswitch
    rw [chan_congr (bump_wgh _ _), chan_setChan_same, (by simpa using hswitch : _ ∧ x32 = false).2]
  · rw [chan_setChan_same]

theorem rd_selectPath (s : State) (c : Nat) (x32 : Bool) :
    rd (selectPath s c x32) (chA c 0x1C) = switchCount s c x32 := by
  unfold selectPath switchCount
  dsimp only
  rw [rd_pathShow_other _ _ (by decide)]
  split
  · exact rd_wr_same _ _ _
  · rw [rd_setChan]

/-! ### A sample of both paths -/

/-- The overload of the ×1 modulator noted (R138). -/
def noteOver (s : State) (c : Nat) (b : Bool) : State :=
  if b then ev (bump (setChan s c (overloaded s (chan s c))) (chA c 0x20)) pWGH 3 else s

theorem chan_noteOver (s : State) (c : Nat) (b : Bool) :
    (chan (noteOver s c b) c).x32 = (chan s c).x32 ∧ (chan (noteOver s c b) c).run = (chan s c).run := by
  unfold noteOver
  split
  · rw [chan_congr (ev_wgh _ _ _), chan_congr (bump_wgh _ _), chan_setChan_same]
    exact ⟨overloaded_x32 s _, overloaded_run s _⟩
  · exact ⟨rfl, rfl⟩

theorem rd_noteOver (s : State) (c : Nat) (b : Bool) : rd (noteOver s c b) (chA c 0x1C) = rd s (chA c 0x1C) := by
  unfold noteOver
  split
  · rw [rd_ev_other _ _ _ (evtAddr_wgh_ne_chA c _), rd_bump_other _ (chA_inj.not.2 (by decide)), rd_setChan]
  · rfl

/-- The path that a sample of a current channel with both paths is taken from. -/
def use32 (s : State) (c : Nat) (r32 : Int) : Bool := takes32 (chan s c) true r32 (calibrate s c true r32)

/-- The run of such a channel after the sample. -/
def runAfter (s : State) (c : Nat) (r1 r32 : Int) : Nat :=
  if use32 s c r32 || (chan s c).test.isSome || !runCounts r32 (calibrate s c false r1) (calibrate s c true r32) then 0
  else (chan s c).run + 1

/-- Such a channel with a sample of both paths, before one is selected. -/
def sampled (s : State) (c : Nat) (r1 r32 : Int) : Chan :=
  { chan s c with run := runAfter s c r1 r32, last1 := calibrate s c false r1, last32 := calibrate s c true r32 }

/-- A sample that is counted in a run is one of the ×1 path, outside an injection. -/
theorem of_runAfter_ne_zero {s : State} {c : Nat} {r1 r32 : Int} (h : runAfter s c r1 r32 ≠ 0) :
    use32 s c r32 = false ∧ (chan s c).test = none ∧
      runCounts r32 (calibrate s c false r1) (calibrate s c true r32) = true := by
  unfold runAfter at h
  split at h
  · exact absurd rfl h
  · rename_i hcounts
    simpa [and_assoc] using hcounts

/-- The ×32 path was not selected before a sample that is counted in a run. -/
theorem x32_of_runAfter_ne_zero {s : State} {c : Nat} {r1 r32 : Int} (h : runAfter s c r1 r32 ≠ 0) :
    (chan s c).x32 = false := by
  obtain ⟨huse, htest, hcounts⟩ := of_runAfter_ne_zero h
  have hvalid : x32Valid r32 (calibrate s c true r32) = true := (Bool.and_eq_true_iff.1 hcounts).1
  rw [use32, takes32, htest, hvalid] at huse
  simpa using huse

section
variable {s : State} {c : Nat} (hsensor : sensor s c = 1) (hpaths : rdB s (chA c 0x18) 2 = false) (hrun : (chan s c).run < 64)
include hsensor hpaths hrun

/-- A sample of a current channel with both paths: the one that completes a run of 64 waits, any other is taken from its path. -/
theorem convSample_dual (r1 r32 : Int) : convSample s c r1 r32 =
    if 64 ≤ runAfter s c r1 r32 then setChan s c (sampled s c r1 r32)
    else
      let t := noteOver (selectPath (setChan s c (sampled s c r1 r32)) c (use32 s c r32)) c (!use32 s c r32 && rawOver r1)
      chanTake t c (chan t c) (if use32 s c r32 then calibrate s c true r32 else calibrate s c false r1) := by
  have hstay : toX32 s c = s := if_pos hrun
  have hdual : (decide (1 = 1 ∨ 1 = 2) && !false) = true := rfl
  have hstream : decide (1 = 3) = false := rfl
  unfold convSample
  dsimp only
  rw [hstay, hsensor, hpaths, hdual, hstream]
  simp only [Bool.not_true, Bool.or_false, Bool.not_false, Bool.and_true, Bool.false_eq_true, if_false]
  rfl

/-- What a sample of a current channel with both paths leaves of the selection. -/
theorem convSample_selects (r1 r32 : Int) :
    (chan (convSample s c r1 r32) c).x32 = use32 s c r32 ∧ (chan (convSample s c r1 r32) c).run = runAfter s c r1 r32 ∧
      (runAfter s c r1 r32 < 64 →
        rdB (convSample s c r1 r32) (chA c 0x18) 0 = (!isVolt c && !use32 s c r32) ∧
          rd (convSample s c r1 r32) (chA c 0x1C) = switchCount s c (use32 s c r32)) := by
  rw [convSample_dual hsensor hpaths hrun]
  split
  · rename_i hwait
    have hne : runAfter s c r1 r32 ≠ 0 := by omega
    have hpath := (x32_of_runAfter_ne_zero hne).trans (of_runAfter_ne_zero hne).1.symm
    rw [chan_setChan_same]
    exact ⟨hpath, rfl, fun h => absurd h (not_lt.2 hwait)⟩
  · dsimp only
    obtain ⟨hx32, hkept⟩ := chan_noteOver (selectPath (setChan s c (sampled s c r1 r32)) c (use32 s c r32)) c
      (!use32 s c r32 && rawOver r1)
    have hcount : switchCount (setChan s c (sampled s c r1 r32)) c (use32 s c r32) = switchCount s c (use32 s c r32) := by
      unfold switchCount
      rw [chan_setChan_same]
      rfl
    rw [chan_chanTake, filtered_x32, filtered_run, rdB_chanTake, rd_chanTake_other _ _ _ _ (by decide), rd_noteOver,
      rd_selectPath, hcount, hx32, hkept, chan_selectPath, chan_setChan_same]
    exact ⟨rfl, rfl, fun _ => ⟨rfl, rfl⟩⟩

end

/-! ### The commands -/

theorem exec_converterSample (c : Fin 24) (r1 r32 : Int) (s : State) :
    exec (.converterSample c r1 r32) s = finish s (refSample (convSample s c.val r1 r32) c.val) := rfl

theorem exec_returnToX32 (c : Fin 24) (s : State) : exec (.returnToX32 c) s = finish s (toX32 s c.val) := rfl

/-- A command that moves neither the clock nor the guard leaves channels and registers as its operation does. -/
theorem finish_chan (s u : State) (c : Nat) : ∃ t, finish s u = .next t ∧ chan t c = chan u c ∧ ∀ a, rd t a = rd u a :=
  ⟨_, rfl, rfl, fun _ => rfl⟩

/-- CONVERTER_SAMPLE leaves the selection as the sample does: the tracker's measurement does not touch it. -/
theorem converterSample_selects {s : State} {c : Fin 24} (hsensor : sensor s c.val = 1)
    (hpaths : rdB s (chA c.val 0x18) 2 = false) (hrun : (chan s c.val).run < 64) (r1 r32 : Int) :
    ∃ t, exec (.converterSample c r1 r32) s = .next t ∧ (chan t c.val).x32 = use32 s c.val r32 ∧
      (chan t c.val).run = runAfter s c.val r1 r32 ∧
      (runAfter s c.val r1 r32 < 64 → rdB t (chA c.val 0x18) 0 = (!isVolt c.val && !use32 s c.val r32) ∧
        rd t (chA c.val 0x1C) = switchCount s c.val (use32 s c.val r32)) := by
  obtain ⟨t, ht, hchan, hrd⟩ := finish_chan s (refSample (convSample s c.val r1 r32) c.val) c.val
  have hregs (a : Nat) : rd t a = rd (convSample s c.val r1 r32) a := (hrd a).trans (rd_congr (refSample_regs _ _) a)
  obtain ⟨hx32, hafter, hshown⟩ := convSample_selects hsensor hpaths hrun r1 r32
  rw [chan_congr (refSample_wgh _ _)] at hchan
  refine ⟨t, (exec_converterSample c r1 r32 s).trans ht, ?_, ?_, ?_⟩
  · rw [hchan, hx32]
  · rw [hchan, hafter]
  · rw [rdB, hregs, hregs]
    exact hshown

/-- RETURN_TO_X32 takes the sample that has completed a run of 64 from the ×32 path. -/
theorem returnToX32_selects {s : State} {c : Fin 24} (hrun : (chan s c.val).run = 64) :
    ∃ t, exec (.returnToX32 c) s = .next t ∧ (chan t c.val).x32 = true ∧ (chan t c.val).run = 0 ∧
      rdB t (chA c.val 0x18) 0 = false := by
  have htake : toX32 s c.val =
      chanTake s c.val { chan s c.val with x32 := true, run := 0 } (chan s c.val).last32 := if_neg (by omega)
  obtain ⟨t, ht, hchan, hrd⟩ := finish_chan s (toX32 s c.val) c.val
  rw [htake] at hchan hrd
  refine ⟨t, (exec_returnToX32 c s).trans ht, ?_, ?_, ?_⟩
  · rw [hchan, chan_chanTake, filtered_x32]
  · rw [hchan, chan_chanTake, filtered_run]
  · rw [rdB, hrd]
    exact (rdB_chanTake _ _ _ _).trans (by simp)

/-! ### Which path, and which run -/

section
variable {s : State} {c : Nat} {r1 r32 : Int}

theorem use32_test {p w : Bool} (h : (chan s c).test = some (p, w)) : use32 s c r32 = !p := by
  rw [use32, takes32, h]
  rfl

theorem use32_free (h : (chan s c).test = none) :
    use32 s c r32 = ((chan s c).x32 && x32Valid r32 (calibrate s c true r32)) := by
  rw [use32, takes32, h]
  rfl

theorem runAfter_test (h : (chan s c).test.isSome = true) : runAfter s c r1 r32 = 0 := by simp [runAfter, h]

theorem runAfter_x32 (h : use32 s c r32 = true) : runAfter s c r1 r32 = 0 := by simp [runAfter, h]

theorem runAfter_invalid (h : x32Valid r32 (calibrate s c true r32) = false) : runAfter s c r1 r32 = 0 := by
  simp [runAfter, runCounts, h]

theorem runAfter_counts (htest : (chan s c).test = none) (huse : use32 s c r32 = false)
    (h : runCounts r32 (calibrate s c false r1) (calibrate s c true r32) = true) :
    runAfter s c r1 r32 = (chan s c).run + 1 := by simp [runAfter, htest, huse, h]

end

/-- Settles O34: each clause says which path the sample is taken from and what becomes of the run. -/
theorem converterPathsSwitch : Obligations.ConverterPathsSwitch := by
  unfold Obligations.ConverterPathsSwitch
  refine fun s c hsensor hpaths =>
    ⟨fun r1 r32 w hrun p htest => ?_, fun r1 r32 hrun htest => ?_, returnToX32_selects⟩
  · obtain ⟨t, ht, hx32, hafter, -⟩ := converterSample_selects hsensor hpaths hrun r1 r32
    exact ⟨t, ht, hx32.trans (use32_test htest), hafter.trans (runAfter_test (by rw [htest]; rfl))⟩
  · obtain ⟨t, ht, hx32, hafter, hshown⟩ := converterSample_selects hsensor hpaths hrun r1 r32
    refine ⟨fun hvalid hsel => ?_, fun hvalid => ?_, fun hcounts hsel => ?_⟩
    · have huse : use32 s c.val r32 = true := by rw [use32_free htest, hsel, hvalid]; rfl
      have hzero := runAfter_x32 (r1 := r1) huse
      obtain ⟨-, hcount⟩ := hshown (by omega)
      refine ⟨t, ht, hx32.trans huse, hafter.trans hzero, hcount.trans (switchCount_kept ?_)⟩
      rw [huse, Bool.not_true, Bool.and_false]
    · have huse : use32 s c.val r32 = false := by rw [use32_free htest, hvalid, Bool.and_false]
      have hzero := runAfter_invalid (r1 := r1) hvalid
      obtain ⟨hpath, hcount⟩ := hshown (by omega)
      rw [huse] at hpath hcount
      exact ⟨t, ht, hx32.trans huse, hafter.trans hzero, fun hvolt => by rw [hpath, hvolt]; rfl,
        fun hsel hcor hc => hcount.trans (switchCount_switch hc hsel hcor)⟩
    · have huse : use32 s c.val r32 = false := by rw [use32_free htest, hsel, Bool.false_and]
      exact ⟨t, ht, hx32.trans huse, hafter.trans (runAfter_counts htest huse hcounts)⟩

end Sys2Proof.Proofs
end

section
/-!
PROOFS. Checkpoints and the power failure (chapter 6, R157–R159, R206, R321, R378): what a slot of MRAM holds after a write, and
what the power-fail trigger and the return of the supply leave of Weighhouse, the Daybook and Scrivener.
-/

namespace Sys2Proof.Proofs

open Sys2Proof.Machine Sys2Proof.Laws

/-! ### Registers of WGH -/

theorem rdB_evWgh_same (s : State) {b : Nat} (hb : b < 32) : rdB (ev s pWGH b) (reg pWGH 0x084) b = true := by
  rw [rdB, rd_ev_same s b evtAddr_wgh, bit_or, bit_w32_pow b hb, decide_eq_true rfl, Bool.or_true]

/-- A 64-bit register pair reads as last written. -/
theorem rd64_wr64_same (s : State) (a v : Nat) : rd64 (wr64 s a v) a = v % 2 ^ 64 := by
  have hne : a ≠ a + 4 := by omega
  rw [rd64, wr64, rd_wr_same, rd_wr_other _ _ hne, rd_wr_same, cat64, hi32, lo32, BitVec.toNat_ofNat, BitVec.toNat_ofNat]
  omega

/-- A 64-bit register pair reads alike where both its words do. -/
theorem rd64_congr {s t : State} {a : Nat} (hlo : rd t a = rd s a) (hhi : rd t (a + 4) = rd s (a + 4)) :
    rd64 t a = rd64 s a := by rw [rd64, rd64, hlo, hhi]

/-! ### The slots of MRAM (R157, R158) -/

/-- The CRC-32 of a checkpoint is over the rest of it. -/
theorem ckpt_sum_withCrc (c : Ckpt) (w : Word) : ({ c with crc := w } : Ckpt).sum = c.sum := rfl

theorem not_word_ne (w : Word) : ~~~w ≠ w := by
  intro h
  have hbit := congrArg (BitVec.getLsbD · 0) h
  simp at hbit

/-- A checkpoint whose CRC-32 is spoilt is not valid. -/
theorem ckpt_spoilt_not_valid {c : Ckpt} (h : c.valid = true) : ({ c with crc := ~~~c.crc } : Ckpt).valid = false := by
  have hcrc : c.crc = c.sum := beq_iff_eq.1 h
  rw [Ckpt.valid, ckpt_sum_withCrc, beq_eq_false_iff_ne, ← hcrc]
  exact not_word_ne c.crc

@[simp] theorem slotDone_wgh (s : State) (k : Nat) (c : Ckpt) :
    (slotDone s k c).wgh = { s.wgh with slots := ins s.wgh.slots k c } := rfl

/-- CKPT_POS is the position of the checkpoint last verified. -/
theorem slotDone_pos (s : State) (k : Nat) (c : Ckpt) : rd64 (slotDone s k c) (reg pWGH 0x090) = c.pos % 2 ^ 64 := by
  unfold slotDone
  dsimp only
  rw [rd64_congr (rd_wrF_other _ _ _ _ (by decide)) (rd_wrF_other _ _ _ _ (by decide)),
    rd64_congr (rd_bump_other _ (by decide)) (rd_bump_other _ (by decide)), rd64_wr64_same]

theorem ckptDone_verified {s : State} {k n : Nat} {c : Ckpt} (h : s.wgh.writing = some (k, c, n)) :
    ckptDone s true = slotDone { s with wgh := { s.wgh with writing := none } } k c := by
  unfold ckptDone
  rw [h]
  rfl

theorem ckptDone_failed {s : State} {k n : Nat} {c : Ckpt} (h : s.wgh.writing = some (k, c, n)) :
    ckptDone s false = ev { s with wgh := { s.wgh with
      writing := none, slots := ins s.wgh.slots k { c with crc := ~~~c.crc }
      retry := if n < 3 then some (k, c, n) else none } } pWGH 0 := by
  unfold ckptDone
  rw [h]
  rfl

theorem ckptRetry_again {s : State} {k n : Nat} {c : Ckpt} (h : s.wgh.retry = some (k, c, n)) (hstop : s.wgh.stopped = false)
    (hidle : s.wgh.writing = none) :
    ckptRetry s = { s with wgh := { s.wgh with writing := some (k, c, n + 1), retry := none } } := by
  unfold ckptRetry
  rw [h]
  simp [hstop, hidle]

theorem finalSave_captured {s : State} {c : Ckpt} (h : s.wgh.save = .triggered) (hcap : s.wgh.capture = some c) :
    finalSave s = ev (slotDone { s with wgh := { s.wgh with save := .saved, capture := none, ckSeq := c.seq } } 3 c) pWGH 1 := by
  unfold finalSave
  rw [h, hcap]

/-! ### Weighhouse at the trigger and at the return of the supply (R158) -/

theorem wghPowerFail_stopped {s : State} (h : s.wgh.stopped = true) : wghPowerFail s = s := if_pos h

theorem wghPowerFail_running {s : State} (h : s.wgh.stopped = false) : (wghPowerFail s).wgh = { s.wgh with
    save := .triggered, intent := some (count s, s.wgh.ckSeq), writing := none, retry := none, capture := none
    stopped := true } := by
  unfold wghPowerFail
  rw [h]
  rfl

/-- The trigger stops the checkpoints and keeps the accumulators. -/
theorem wghPowerFail_stops (s : State) : (wghPowerFail s).wgh.stopped = true ∧ (wghPowerFail s).wgh.raws = s.wgh.raws := by
  cases h : s.wgh.stopped with
  | true => rw [wghPowerFail_stopped h]; exact ⟨h, rfl⟩
  | false => rw [wghPowerFail_running h]; exact ⟨rfl, rfl⟩

theorem wghPowerFail_dayb (s : State) : (wghPowerFail s).dayb = s.dayb := by unfold wghPowerFail; split <;> rfl
theorem wghPowerFail_clk (s : State) : (wghPowerFail s).clk = s.clk := by unfold wghPowerFail; split <;> rfl

/-! ### Signwright leaves Weighhouse alone -/

@[simp] theorem ramWrite_wgh (s : State) (a : Nat) (bs : List Byte) : (ramWrite s a bs).wgh = s.wgh := by
  induction bs generalizing s a with
  | nil => rfl
  | cons b bs ih =>
    rw [ramWrite, ih]
    unfold ramPut
    split <;> rfl

@[simp] theorem sgnPowerFail_wgh (s : State) : (sgnPowerFail s).wgh = s.wgh := rfl

@[simp] theorem recovBegin_wgh (s : State) : (recovBegin s).wgh = s.wgh := by
  unfold recovBegin
  dsimp only
  split <;> rfl

@[simp] theorem sgnInterrupt_wgh (s : State) : (sgnInterrupt s).wgh = s.wgh := by
  unfold sgnInterrupt balShow
  dsimp only
  rw [wrB_wgh, setSgn_wgh]
  exact (foldl_keeps State.wgh (fun t _ => ramWrite_wgh t _ _) _ _).trans
    (foldl_keeps State.wgh (fun t _ => wrF_wgh t _ _ _ _) _ _)

@[simp] theorem sgnPowerBack_wgh (s : State) : (sgnPowerBack s).wgh = s.wgh := by
  unfold sgnPowerBack
  dsimp only
  split
  · rfl
  · rw [recovBegin_wgh, pwrShow, wrF_wgh, setSgn_wgh]
    split
    · rfl
    · exact sgnInterrupt_wgh s

/-! ### The commands -/

theorem exec_checkpointDone (ok : Bool) (s : State) : exec (.checkpointDone ok) s = finish s (ckptDone s ok) := rfl
theorem exec_checkpointRetry (s : State) : exec .checkpointRetry s = finish s (ckptRetry s) := rfl
theorem exec_powerFailTrigger (s : State) : exec .powerFailTrigger s = finishGuard s (powerFailOp s) := rfl
theorem exec_finalSaveDone (s : State) : exec .finalSaveDone s = finish s (finalSave s) := rfl
theorem exec_powerRestored (s : State) : exec .powerRestored s = finishGuard s (powerBackOp s) := rfl

/-- A command that moves neither the clock nor the guard leaves Weighhouse and the registers as its operation does. -/
theorem finish_wgh (s u : State) : ∃ t, finish s u = .next t ∧ t.wgh = u.wgh ∧ ∀ a, rd t a = rd u a :=
  ⟨_, rfl, rfl, fun _ => rfl⟩

/-- A command that may change the guard leaves what the trigger and the return of the supply change as its operation does. -/
theorem finishGuard_blocks (s u : State) : ∃ t, finishGuard s u = .next t ∧ t.wgh = u.wgh ∧ t.dayb = u.dayb ∧
    t.scrv = u.scrv ∧ t.pins.pfwAt = u.pins.pfwAt := ⟨_, rfl, rfl, rfl, rfl, rfl⟩

section
variable {s : State} {k n : Nat} {c : Ckpt}

/-- A checkpoint verified stands in its slot. -/
theorem checkpointDone_verified (h : s.wgh.writing = some (k, c, n)) :
    ∃ t, exec (.checkpointDone true) s = .next t ∧ get? t.wgh.slots k = some c ∧ t.wgh.writing = none ∧
      rd64 t (reg pWGH 0x090) = c.pos % 2 ^ 64 := by
  obtain ⟨t, ht, hwgh, hrd⟩ := finish_wgh s (ckptDone s true)
  rw [ckptDone_verified h] at hwgh hrd
  refine ⟨t, (exec_checkpointDone true s).trans ht, ?_, ?_, (rd64_congr (hrd _) (hrd _)).trans (slotDone_pos _ k c)⟩
  · rw [hwgh]
    exact get?_ins_same _ _ _
  · rw [hwgh]
    rfl

/-- A checkpoint that fails leaves its slot invalid and waits for its retry, if it has one left. -/
theorem checkpointDone_failed (h : s.wgh.writing = some (k, c, n)) :
    ∃ t, exec (.checkpointDone false) s = .next t ∧ get? t.wgh.slots k = some { c with crc := ~~~c.crc } ∧
      (c.valid = true → ({ c with crc := ~~~c.crc } : Ckpt).valid = false) ∧ t.wgh.writing = none ∧
      rdB t (reg pWGH 0x084) 0 = true ∧ t.wgh.retry = if n < 3 then some (k, c, n) else none := by
  obtain ⟨t, ht, hwgh, hrd⟩ := finish_wgh s (ckptDone s false)
  rw [ckptDone_failed h] at hwgh hrd
  rw [ev_wgh] at hwgh
  refine ⟨t, (exec_checkpointDone false s).trans ht, ?_, ckpt_spoilt_not_valid, ?_, ?_, ?_⟩
  · rw [hwgh]
    exact get?_ins_same _ _ _
  · rw [hwgh]
  · rw [rdB, hrd]
    exact rdB_evWgh_same _ (by decide)
  · rw [hwgh]

theorem checkpointRetry_writes (h : s.wgh.retry = some (k, c, n)) (hstop : s.wgh.stopped = false)
    (hidle : s.wgh.writing = none) :
    ∃ t, exec .checkpointRetry s = .next t ∧ t.wgh.writing = some (k, c, n + 1) ∧ t.wgh.retry = none := by
  obtain ⟨t, ht, hwgh, -⟩ := finish_wgh s (ckptRetry s)
  rw [ckptRetry_again h hstop hidle] at hwgh
  refine ⟨t, (exec_checkpointRetry s).trans ht, ?_, ?_⟩ <;> rw [hwgh]

/-- The capture of the power-fail save stands in slot F. -/
theorem finalSaveDone_saves (h : s.wgh.save = .triggered) (hcap : s.wgh.capture = some c) :
    ∃ t, exec .finalSaveDone s = .next t ∧ get? t.wgh.slots 3 = some c ∧ t.wgh.save = .saved ∧
      rdB t (reg pWGH 0x084) 1 = true := by
  obtain ⟨t, ht, hwgh, hrd⟩ := finish_wgh s (finalSave s)
  rw [finalSave_captured h hcap] at hwgh hrd
  rw [ev_wgh, slotDone_wgh] at hwgh
  refine ⟨t, (exec_finalSaveDone s).trans ht, ?_, ?_, ?_⟩
  · rw [hwgh]
    exact get?_ins_same _ _ _
  · rw [hwgh]
  · rw [rdB, hrd]
    exact rdB_evWgh_same _ (by decide)

end

/-- The power-fail trigger stops what does not outlast the hold-up energy. -/
theorem powerFailTrigger_stops {s : State} (h : s.pins.pfwAt = none) :
    ∃ t, exec .powerFailTrigger s = .next t ∧ t.dayb.powerFail = true ∧ t.scrv.off = true ∧ t.scrv.hold = [] ∧
      t.pins.pfwAt = some s.clk.fabric ∧ t.wgh.stopped = true ∧
      (s.wgh.stopped = false →
        t.wgh.save = .triggered ∧ t.wgh.intent = some (count s, s.wgh.ckSeq) ∧ t.wgh.writing = none) ∧
      t.wgh.raws = s.wgh.raws ∧ t.dayb.ring = s.dayb.ring := by
  have hop : powerFailOp s =
      { sgnPowerFail (wghPowerFail s) with
        dayb := { (wghPowerFail s).dayb with powerFail := true }
        scrv := { (wghPowerFail s).scrv with off := true, queue := [], hold := [] }
        pins := { (wghPowerFail s).pins with pfwAt := some (wghPowerFail s).clk.fabric } } := if_neg (by simp [h])
  obtain ⟨t, ht, hwgh, hdayb, hscrv, hpfw⟩ := finishGuard_blocks s (powerFailOp s)
  obtain ⟨hstopped, hraws⟩ := wghPowerFail_stops s
  rw [hop] at hwgh hdayb hscrv hpfw
  rw [sgnPowerFail_wgh] at hwgh
  rw [wghPowerFail_dayb] at hdayb
  rw [wghPowerFail_clk] at hpfw
  refine ⟨t, (exec_powerFailTrigger s).trans ht, ?_, ?_, ?_, hpfw, ?_, fun hrun => ?_, ?_, ?_⟩
  · rw [hdayb]
  · rw [hscrv]
  · rw [hscrv]
  · rw [hwgh, hstopped]
  · rw [hwgh, wghPowerFail_running hrun]
    exact ⟨rfl, rfl, rfl⟩
  · rw [hwgh, hraws]
  · rw [hdayb]

/-- Power restored before a reset lets Weighhouse, the Daybook and Scrivener go on. -/
theorem powerRestored_resumes {s : State} (h : s.pins.pfwAt.isSome = true) :
    ∃ t, exec .powerRestored s = .next t ∧ t.dayb.powerFail = false ∧ t.scrv.off = false ∧ t.pins.pfwAt = none ∧
      t.wgh.stopped = false ∧ t.wgh.raws = s.wgh.raws := by
  have hop : powerBackOp s =
      { sgnPowerBack (wghPowerBack s) with
        dayb := { (sgnPowerBack (wghPowerBack s)).dayb with powerFail := false }
        scrv := { (sgnPowerBack (wghPowerBack s)).scrv with off := false }
        pins := { (sgnPowerBack (wghPowerBack s)).pins with pfwAt := none, resetWait := false } } :=
    if_neg (by simpa [Option.isSome_iff_ne_none] using h)
  obtain ⟨t, ht, hwgh, hdayb, hscrv, hpfw⟩ := finishGuard_blocks s (powerBackOp s)
  rw [hop] at hwgh hdayb hscrv hpfw
  rw [sgnPowerBack_wgh] at hwgh
  refine ⟨t, (exec_powerRestored s).trans ht, ?_, ?_, hpfw, ?_, ?_⟩
  · rw [hdayb]
  · rw [hscrv]
  · rw [hwgh]
    rfl
  · rw [hwgh]
    rfl

/-- Settles O37: what each command leaves of the slots, of the power-fail save, and of what the trigger stops. -/
theorem checkpointsAndPowerFailure : Obligations.CheckpointsAndPowerFailure := by
  unfold Obligations.CheckpointsAndPowerFailure
  exact fun s => ⟨fun k c n h => ⟨checkpointDone_verified h, checkpointDone_failed h⟩, fun k c n => checkpointRetry_writes,
    powerFailTrigger_stops, fun c => finalSaveDone_saves, powerRestored_resumes⟩

end Sys2Proof.Proofs
end

section
/-!
PROOFS. The rings of Factor's queues (chapter 7, R170, R187): what a doorbell and a freed completion entry leave.
-/

namespace Sys2Proof.Proofs

open Sys2Proof.Machine Sys2Proof.Laws

/-! ### The registers of FACTQ -/

theorem pageOf_fq {q o : Nat} (h : o + 0x40 * q < 4096) : pageOf (fq q o) = pFACTQ := pageOf_reg _ h

theorem fq_ne {q p o n : Nat} (h : o + 0x40 * q ≠ n + 0x40 * p) : fq q o ≠ fq p n := by
  unfold fq reg
  omega

/-- No request's way changes a register of FACTQ. -/
theorem booked_fq {q o : Nat} (h : o + 0x40 * q < 4096) : booked (fq q o) = false :=
  booked_of_page h (by decide) (by decide)

theorem fld_w32 (n : Nat) {k : Nat} (hk : k ≤ 32) : fld (w32 n) 0 k = n % 2 ^ k := by
  unfold fld w32
  rw [BitVec.toNat_ofNat, pow_zero, Nat.div_one, Nat.mod_mod_of_dvd _ (Nat.pow_dvd_pow 2 hk)]

/-- A field kept whole in a word of its own. -/
theorem fld_w32_fld (v : Word) {k : Nat} (hk : k ≤ 32) : fld (w32 (fld v 0 k)) 0 k = fld v 0 k := by
  rw [fld_w32 _ hk]
  exact Nat.mod_mod _ _

/-- The registers that a queue's rings are read by stand at FACTQ. -/
theorem fqSize_congr {s t : State} {q : Nat} (h : rd t (fq q 0x088) = rd s (fq q 0x088)) : fqSize t q = fqSize s q := by
  unfold fqSize rdF
  rw [h]

theorem ringFrom_congr {s t : State} {q : Nat} (tail : Nat) (hsize : rd t (fq q 0x088) = rd s (fq q 0x088))
    (hhead : rd t (fq q 0x090) = rd s (fq q 0x090)) : ringFrom t q tail = ringFrom s q tail := by
  unfold ringFrom rdF
  rw [fqSize_congr hsize, hhead]

theorem fqPend_congr {s t : State} (h : t.fact = s.fact) (q : Nat) : fqPend t q = fqPend s q := by
  unfold fqPend
  rw [h]

/-! ### A doorbell (R187) -/

/-- The entries that a doorbell makes pending, in the order of the ring. -/
def rung (s : State) (q : Nat) (v : Word) : List (Nat × Nat) :=
  (ringFrom s q (fld v 0 8)).filterMap fun i =>
    match (fqPend s q).find? fun e => e.1 == i with
    | some e => some e
    | none => if (ringFrom s q (rdF s (fq q 0x08C) 0 8)).contains i then none else some (i, s.clk.fabric)

theorem sqTailOp_eq (s : State) (q : Nat) (v : Word) : sqTailOp s q v =
    { wr s (fq q 0x08C) (w32 (fld v 0 8)) with
      fact := { s.fact with pend := put [] s.fact.pend q (sortBy (·.2) (rung s q v)) } } := rfl

/-- One that was pending keeps its age, one taken out of order stays taken, any other is as old as the doorbell. -/
theorem mem_rung {s : State} {q : Nat} {v : Word} {k a : Nat} : (k, a) ∈ rung s q v ↔ k ∈ ringFrom s q (fld v 0 8) ∧
    (((fqPend s q).find? fun e => e.1 == k) = some (k, a) ∨
      (((fqPend s q).find? fun e => e.1 == k) = none ∧
        k ∉ ringFrom s q (rdF s (fq q 0x08C) 0 8) ∧ a = s.clk.fabric)) := by
  unfold rung
  rw [List.mem_filterMap]
  constructor
  · rintro ⟨i, hi, hentry⟩
    split at hentry
    · rename_i e he
      cases hentry
      have hki : k = i := by simpa using List.find?_some he
      subst hki
      exact ⟨hi, .inl he⟩
    · rename_i hnone
      split at hentry
      · cases hentry
      · rename_i hnew
        cases hentry
        exact ⟨hi, .inr ⟨hnone, by simpa using hnew, rfl⟩⟩
  · rintro ⟨hk, h⟩
    refine ⟨k, hk, ?_⟩
    rcases h with h | ⟨hnone, hnew, rfl⟩
    · rw [h]
    · rw [hnone]
      exact if_neg (by simpa using hnew)

/-- What a doorbell leaves of the entries that pend. -/
theorem fqPend_sqTailOp_same (s : State) (q : Nat) (v : Word) : fqPend (sqTailOp s q v) q = sortBy (·.2) (rung s q v) := by
  rw [sqTailOp_eq]
  exact look_put_same _ _ _ _

theorem fqPend_sqTailOp_other (s : State) {q p : Nat} (v : Word) (h : p ≠ q) : fqPend (sqTailOp s q v) p = fqPend s p := by
  rw [sqTailOp_eq]
  exact look_put_other _ _ _ _ h

/-- What a doorbell does depends on Factor, its queue's registers and the clock. -/
theorem rung_light {s t : State} {q : Nat} (v : Word) (h : Light s t) (hq : q < 2) : rung t q v = rung s q v := by
  have hreg (o : Nat) (ho : o < 0x100) : rd t (fq q o) = rd s (fq q o) := h.rd _ (booked_fq (by omega))
  have hring (tail : Nat) : ringFrom t q tail = ringFrom s q tail :=
    ringFrom_congr tail (hreg 0x088 (by decide)) (hreg 0x090 (by decide))
  have hold : rdF t (fq q 0x08C) 0 8 = rdF s (fq q 0x08C) 0 8 := congrArg (fld · 0 8) (hreg 0x08C (by decide))
  unfold rung
  rw [hring, hring, hold, fqPend_congr h.fact, h.clk]

/-! ### SQ_TAIL and CQ_HEAD -/

theorem exec_sqTail (i : Init) (q : Fin 2) (v : Word) (s : State) :
    exec (.sqTail i q v) s = finishClock s (submitWrite s i (reg pFACTQ (0x08C + 0x40 * q.val)) v) := rfl
theorem exec_cqHead (i : Init) (q : Fin 2) (v : Word) (s : State) :
    exec (.cqHead i q v) s = finishClock s (submitWrite s i (reg pFACTQ (0x09C + 0x40 * q.val)) v) := rfl

/-- A write to a block register of FACTQ is one of Factor's. -/
theorem writeEffect_factq (s : State) (i : Init) {o : Nat} (v : Word) (hrow : (rowOf (reg pFACTQ o)).isNone = false)
    (ho : o < 4096) (hblock : 0x080 ≤ o) : writeEffect s i (reg pFACTQ o) v = writeFact s pFACTQ o v := by
  unfold writeEffect writeBlock
  dsimp only
  rw [hrow, pageOf_reg _ ho, offOf_reg _ ho]
  simp [isLoopbank, pFACTQ, pMOD, pPROT, pINTC, pFLTM, pTOLL, pLAC, pSCAN, pSCANDBG, pPGMX, pFORCE, pWGHEN, pWGHPQ, pFACT,
    show ¬ o < 0x080 by omega]

theorem writeEffect_sqTail (s : State) (i : Init) (q : Fin 2) (v : Word) :
    writeEffect s i (reg pFACTQ (0x08C + 0x40 * q.val)) v = sqTailOp s q.val v := by
  have hq := q.isLt
  have hrow : (rowOf (reg pFACTQ (0x08C + 0x40 * q.val))).isNone = false := by
    revert q
    decide
  rw [writeEffect_factq s i v hrow (by omega) (by omega)]
  unfold writeFact
  rw [if_neg (by simp [pFACT, pFACTQ]), if_pos ⟨rfl, by omega⟩, show (0x08C + 0x40 * q.val - 0x08C) / 0x40 = q.val by omega]

theorem writeEffect_cqHead (s : State) (i : Init) (q : Fin 2) (v : Word) :
    writeEffect s i (reg pFACTQ (0x09C + 0x40 * q.val)) v = budgetSettle s (cqHeadOp s q.val v) := by
  have hq := q.isLt
  have hrow : (rowOf (reg pFACTQ (0x09C + 0x40 * q.val))).isNone = false := by
    revert q
    decide
  rw [writeEffect_factq s i v hrow (by omega) (by omega)]
  unfold writeFact
  rw [if_neg (by simp [pFACT, pFACTQ]), if_neg (by omega), if_pos ⟨rfl, by omega⟩,
    show (0x09C + 0x40 * q.val - 0x09C) / 0x40 = q.val by omega]

theorem reg_factq_ne_lock {o : Nat} (ho : o < 4096) : reg pFACTQ o ≠ reg pLOCK 0x090 :=
  reg_ne_of_page (by decide) ho (by decide)

/-- SQ_TAIL. -/
theorem sqTail_rings {s : State} {i : Init} (q : Fin 2) {v : Word}
    (h : clear s i (reg pFACTQ (0x08C + 0x40 * q.val)) v = true) :
    ∃ t, exec (.sqTail i q v) s = .next t ∧ fqPend t q.val = sortBy (·.2) (rung s q.val v) ∧
      rdF t (fq q.val 0x08C) 0 8 = fld v 0 8 ∧ (∀ p < 2, p ≠ q.val → fqPend t p = fqPend s p) ∧
      t.fact.run = s.fact.run ∧ t.fact.handles = s.fact.handles ∧ t.dram = s.dram := by
  have hq := q.isLt
  rw [exec_sqTail]
  refine row_clear h (reg_factq_ne_lock (by omega)) fun s' t hl hd => ?_
  rw [writeEffect_sqTail] at hd
  have hpend (p : Nat) : fqPend t p = fqPend (sqTailOp s' q.val v) p := fqPend_congr hd.fact p
  refine ⟨?_, ?_, fun p _ hp => ?_, ?_, ?_, ?_⟩
  · rw [hpend, fqPend_sqTailOp_same, rung_light v hl hq]
  · unfold rdF
    rw [hd.rd, sqTailOp_eq, rd_with_fact, rd_wr_same, fld_w32_fld v (by decide)]
  · rw [hpend, fqPend_sqTailOp_other _ v hp, fqPend_congr hl.fact]
  · rw [hd.fact, sqTailOp_eq, ← hl.fact]
  · rw [hd.fact, sqTailOp_eq, ← hl.fact]
  · rw [hd.dram, sqTailOp_eq]
    exact hl.dram

/-- Entries freed while no completion waits (R170). -/
theorem cqHeadOp_eq {s : State} (q : Nat) (v : Word) (h : s.fact.posts = []) : cqHeadOp s q v =
    { wr s (fq q 0x09C) (w32 (fld v 0 8)) with fact := { s.fact with cqUsed := put 0 s.fact.cqUsed q (cqUsed s q -
      (fld v 0 8 % fqSize s q + fqSize s q - rdF s (fq q 0x09C) 0 8 % fqSize s q) % fqSize s q) } } := by
  unfold cqHeadOp
  dsimp only
  rw [wr_fact, h]
  rfl

/-- CQ_HEAD. -/
theorem cqHead_frees {s : State} {i : Init} (q : Fin 2) {v : Word}
    (h : clear s i (reg pFACTQ (0x09C + 0x40 * q.val)) v = true) (hposts : s.fact.posts = []) :
    ∃ t, exec (.cqHead i q v) s = .next t ∧
      cqUsed t q.val = cqUsed s q.val - (fld v 0 8 % fqSize s q.val + fqSize s q.val -
        rdF s (fq q.val 0x09C) 0 8 % fqSize s q.val) % fqSize s q.val ∧
      rdF t (fq q.val 0x09C) 0 8 = fld v 0 8 ∧ t.fact.pend = s.fact.pend ∧ t.dram = s.dram := by
  have hq := q.isLt
  rw [exec_cqHead]
  refine row_clear h (reg_factq_ne_lock (by omega)) fun s' t hl hd => ?_
  have hreg (o : Nat) (ho : o < 0x100) : rd s' (fq q.val o) = rd s (fq q.val o) := hl.rd _ (booked_fq (by omega))
  have hhead : rdF s' (fq q.val 0x09C) 0 8 = rdF s (fq q.val 0x09C) 0 8 := congrArg (fld · 0 8) (hreg 0x09C (by decide))
  have hused : cqUsed s' q.val = cqUsed s q.val := by
    unfold cqUsed
    rw [hl.fact]
  rw [writeEffect_cqHead, cqHeadOp_eq q.val v (by rw [hl.fact, hposts]), budgetSettle_same (by rfl), hused, hhead,
    fqSize_congr (hreg 0x088 (by decide))] at hd
  refine ⟨?_, ?_, ?_, ?_⟩
  · unfold cqUsed
    rw [hd.fact]
    exact look_put_same _ _ _ _
  · unfold rdF
    rw [hd.rd, rd_with_fact, rd_wr_same, fld_w32_fld v (by decide)]
  · rw [hd.fact, ← hl.fact]
  · rw [hd.dram]
    exact hl.dram

/-- Settles O38: the entries that a doorbell makes pending are `rung`, in the order of their ages, and CQ_HEAD frees entries
where no completion waits for one. -/
theorem factorRingsTurn : Obligations.FactorRingsTurn := by
  unfold Obligations.FactorRingsTurn
  refine fun s i q v => ⟨fun h => ?_, cqHead_frees q⟩
  obtain ⟨t, ht, hpend, hrest⟩ := sqTail_rings q h
  refine ⟨t, ht, fun k a => ?_, ?_, hrest⟩
  · rw [hpend, (sortBy_perm _ _).mem_iff, mem_rung]
  · rw [hpend]
    exact sortBy_sorted _ _

end Sys2Proof.Proofs
end

section
/-!
PROOFS. Factor's requests to DRAM and its completions (chapter 7, R161, R169, R170, R26): what they leave, and what leaves them room.
-/

namespace Sys2Proof.Proofs

open Sys2Proof.Machine Sys2Proof.Laws

/-! ### Bytes -/

theorem leNat_leBytes (n v : Nat) : leNat (leBytes n v) = v % 256 ^ n := by
  induction n generalizing v with
  | zero => simp [leBytes, leNat, Nat.mod_one]
  | succ n ih =>
    rw [leBytes, leNat, ih, BitVec.toNat_ofNat, pow_succ' 256 n]
    exact Nat.mod_mul.symm

@[simp] theorem length_leBytes (n v : Nat) : (leBytes n v).length = n := by
  induction n generalizing v with
  | zero => rfl
  | succ n ih => rw [leBytes, List.length_cons, ih]

/-- A field beyond the first bytes of a list. -/
theorem leAt_append_right (xs ys : List Byte) (o n : Nat) : leAt (xs ++ ys) (xs.length + o) n = leAt ys o n := by
  unfold leAt slice
  congr 1
  refine List.map_congr_left fun i _ => ?_
  rw [Nat.add_assoc, List.drop_append, List.drop_of_length_le (by omega), Nat.add_sub_cancel_left, List.nil_append]

/-- A field that fills the first bytes of a list. -/
theorem leAt_leBytes_append (n v : Nat) (ys : List Byte) : leAt (leBytes n v ++ ys) 0 n = v % 256 ^ n := by
  have hslice : slice (leBytes n v ++ ys) 0 n = leBytes n v := by
    refine List.ext_getElem (by simp [slice]) fun i _ hi => ?_
    simp [slice, List.getElem?_append_left hi, List.getElem?_eq_getElem hi]
  rw [leAt, hslice, leNat_leBytes]

/-! ### DRAM written -/

theorem ramWrite_eq : ∀ (bs : List Byte) (s : State) (a : Nat), ∃ m, ramWrite s a bs = { s with dram := m }
  | [], s, _ => ⟨s.dram, rfl⟩
  | b :: bs, s, a => by
    obtain ⟨m, hm⟩ := ramWrite_eq bs (ramPut s a b) (a + 1)
    refine ⟨m, ?_⟩
    rw [ramWrite, hm]
    unfold ramPut
    split <;> rfl

@[simp] theorem ramWrite_fact (s : State) (a : Nat) (bs : List Byte) : (ramWrite s a bs).fact = s.fact := by
  obtain ⟨m, hm⟩ := ramWrite_eq bs s a
  rw [hm]

/-- A field of the bytes just written. -/
theorem ramNat_ramWrite (s : State) {a o n : Nat} {bs : List Byte} (hbs : o + n ≤ bs.length)
    (hram : a + bs.length ≤ Config.dramBytes) : ramNat (ramWrite s a bs) (a + o) n = leAt bs o n := by
  unfold ramNat ramBytes leAt slice
  congr 1
  refine List.map_congr_left fun i hi => ?_
  have hlt := List.mem_range.1 hi
  rw [ramByte_write bs s a (a + o + i) hram, if_pos (by omega), show a + o + i - a = o + i by omega]
  rfl

theorem ramNat_congr {s t : State} (h : t.dram = s.dram) (a n : Nat) : ramNat t a n = ramNat s a n := by
  unfold ramNat
  rw [ramBytes_congr h]

/-! ### The completion record (R169) -/

theorem length_complBytes (s : State) (p : Post) : (complBytes s p).length = 64 := by
  unfold complBytes
  simp only [List.length_append, length_leBytes]

theorem complBytes_tag (s : State) (p : Post) : leAt (complBytes s p) 0 4 = p.tag % 2 ^ 32 := by
  unfold complBytes
  simp only [List.append_assoc]
  exact leAt_leBytes_append 4 _ _

theorem complBytes_status (s : State) (p : Post) : leAt (complBytes s p) 4 1 = p.compl.status % 256 := by
  unfold complBytes
  simp only [List.append_assoc]
  have h := leAt_append_right (leBytes 4 p.tag)
  simp only [length_leBytes] at h
  exact (h _ 0 1).trans (leAt_leBytes_append 1 _ _)

theorem complBytes_confirm (s : State) (p : Post) : leAt (complBytes s p) 5 1 = p.compl.confirm % 256 := by
  unfold complBytes
  simp only [List.append_assoc]
  have h4 := leAt_append_right (leBytes 4 p.tag)
  have h1 := leAt_append_right (leBytes 1 p.compl.status)
  simp only [length_leBytes] at h4 h1
  exact ((h4 _ 1 1).trans (h1 _ 0 1)).trans (leAt_leBytes_append 1 _ _)

/-! ### Steps beside Factor's requests and completions -/

/-- The registers that Factor's requests and completions are judged by: CTRL, FLT_STAT and SOLVE_COUNT of FACT, and the queues'
of FACTQ. -/
def ledger (a : Nat) : Bool :=
  a == reg pFACT 0x080 || a == reg pFACT 0x028 || a == reg pFACT 0x0A4 || (pageOf a == pFACTQ && decide (offOf a < 0x100))

/-- What Factor's requests at some resources and its completions are judged by stands; a budget fault that is new is of a
supervisor core (R26). -/
structure Beside (ks : List Nat) (s t : State) : Prop where
  clk : t.clk = s.clk
  guard : t.guard = s.guard
  win : t.toll.win = s.toll.win
  budget : t.toll.budget = s.toll.budget
  kept : ∀ k ∈ s.toll.faulted, k ∈ t.toll.faulted
  faulted : ∀ k ∈ t.toll.faulted, k ∈ s.toll.faulted ∨ 0xF0 ≤ k % 256
  used : ∀ k ∈ ks, ∀ x < 8, usedOf t k x = usedOf s k x
  posts : t.fact.posts = s.fact.posts
  cqUsed : t.fact.cqUsed = s.fact.cqUsed
  winUsed : t.fact.winUsed = s.fact.winUsed
  winNo : t.fact.winNo = s.fact.winNo
  susp : t.fact.susp = s.fact.susp
  rd : ∀ a, ledger a = true → rd t a = rd s a

variable {ks : List Nat} {s t u : State}

theorem Beside.trans (h : Beside ks s t) (k : Beside ks t u) : Beside ks s u where
  clk := k.clk.trans h.clk
  guard := k.guard.trans h.guard
  win := k.win.trans h.win
  budget := k.budget.trans h.budget
  kept := fun x hx => k.kept x (h.kept x hx)
  faulted := fun x hx => (k.faulted x hx).elim (h.faulted x) .inr
  used := fun j hj x hx => (k.used j hj x hx).trans (h.used j hj x hx)
  posts := k.posts.trans h.posts
  cqUsed := k.cqUsed.trans h.cqUsed
  winUsed := k.winUsed.trans h.winUsed
  winNo := k.winNo.trans h.winNo
  susp := k.susp.trans h.susp
  rd := fun a ha => (k.rd a ha).trans (h.rd a ha)

/-- States with the same accounts of TOLL and the same Factor. -/
theorem beside_of_eq (hclk : t.clk = s.clk) (hguard : t.guard = s.guard) (htoll : t.toll = s.toll) (hfact : t.fact = s.fact)
    (hrd : ∀ a, ledger a = true → Machine.rd t a = Machine.rd s a) : Beside ks s t where
  clk := hclk
  guard := hguard
  win := by rw [htoll]
  budget := by rw [htoll]
  kept := by rw [htoll]; exact fun _ h => h
  faulted := by rw [htoll]; exact fun _ h => .inl h
  used := fun _ _ _ _ => by unfold usedOf; rw [htoll]
  posts := by rw [hfact]
  cqUsed := by rw [hfact]
  winUsed := by rw [hfact]
  winNo := by rw [hfact]
  susp := by rw [hfact]
  rd := hrd

theorem Beside.refl (ks : List Nat) (s : State) : Beside ks s s := beside_of_eq rfl rfl rfl rfl fun _ _ => rfl

theorem Beside.wr (h : Beside ks s t) {a : Nat} (v : Word) (ha : ledger a = false) : Beside ks s (wr t a v) :=
  h.trans (beside_of_eq rfl rfl rfl rfl fun b hb => rd_wr_other t v fun e => by rw [e, ha] at hb; cases hb)

theorem Beside.bump (h : Beside ks s t) {a : Nat} (ha : ledger a = false) : Beside ks s (bump t a) := h.wr _ ha

theorem ledger_page {a p : Nat} (ha : pageOf a = p) (hp : p ≠ pFACT ∧ p ≠ pFACTQ) : ledger a = false := by
  have hne (o : Nat) (ho : o < 4096) : a ≠ reg pFACT o := by
    rintro rfl
    exact hp.1 (ha.symm.trans (pageOf_reg _ ho))
  simp [ledger, hne, ha, hp.2]

theorem ledger_evtAddr {p a : Nat} (h : evtAddr p = some a) : ledger a = false := by
  by_cases hf : p = pFACT
  · subst hf
    cases h
    decide
  · by_cases hq : p = pFACTQ
    · subst hq
      cases h
      decide
    · exact ledger_page (pageOf_evtAddr h) ⟨hf, hq⟩

theorem Beside.ev (h : Beside ks s t) (p b : Nat) : Beside ks s (ev t p b) :=
  h.trans (beside_of_eq (ev_clk ..) (ev_guard ..) (ev_toll ..) (ev_fact ..) fun a ha => rd_ev_other t p b fun e => by
    rw [ledger_evtAddr e] at ha
    cases ha)

theorem Beside.evIf (h : Beside ks s t) (c : Bool) (p b : Nat) : Beside ks s (evIf c t p b) := by
  cases c
  · exact h
  · exact h.ev p b

theorem Beside.ramWrite (h : Beside ks s t) (a : Nat) (bs : List Byte) : Beside ks s (ramWrite t a bs) := by
  obtain ⟨m, hm⟩ := ramWrite_eq bs t a
  rw [hm]
  exact h.trans (beside_of_eq rfl rfl rfl rfl fun _ _ => rfl)

/-- Factor's state beside its rings and its requests. -/
theorem Beside.withFact (h : Beside ks s t) {x : Fact} (hposts : x.posts = t.fact.posts) (hcq : x.cqUsed = t.fact.cqUsed)
    (hused : x.winUsed = t.fact.winUsed) (hno : x.winNo = t.fact.winNo) (hsusp : x.susp = t.fact.susp) :
    Beside ks s { t with fact := x } :=
  h.trans { Beside.refl ks t with posts := hposts, cqUsed := hcq, winUsed := hused, winNo := hno, susp := hsusp }

theorem ledger_tollCount {k : Nat} (c : Cls) {o : Nat} (hk : k ≤ 8) (ho : o ≤ 8) :
    ledger (reg pTOLL (0x200 + 0x40 * resNum k + 0x0C * clsN c + o)) = false :=
  ledger_page (pageOf_tollCount k c hk ho) (by decide)

theorem usedOf_tollUse_at (s : State) (w : Who) (c : Cls) (k n j : Nat) {x : Nat} (hx : x < 8) :
    usedOf (tollUse s w c k n) j x = usedOf s j x + if j = k ∧ x = clsN c then n else 0 := by
  have hc := clsN_le c
  unfold usedOf tollUse
  dsimp only
  by_cases h : j = k ∧ x = clsN c
  · obtain ⟨rfl, rfl⟩ := h
    rw [look_put_same, if_pos ⟨rfl, rfl⟩]
  · rw [look_put_other _ _ _ _ (by omega), if_neg h, Nat.add_zero]

theorem Beside.tollUse (h : Beside ks s t) (w : Who) (c : Cls) {k : Nat} (n : Nat) (hks : k ∉ ks) :
    Beside ks s (tollUse t w c k n) := by
  refine h.trans ⟨rfl, rfl, rfl, rfl, fun _ h => h, fun _ h => .inl h, fun j hj x hx => ?_, rfl, rfl, rfl, rfl, rfl, fun _ _ => rfl⟩
  rw [usedOf_tollUse_at t w c k n j hx, if_neg (by rintro ⟨rfl, -⟩; exact hks hj), Nat.add_zero]

theorem Beside.tollServed (h : Beside ks s t) (w : Who) (c : Cls) {k : Nat} (n : Nat) (hk : k ≤ 8) (hks : k ∉ ks) :
    Beside ks s (tollServed t w c k n) := by
  unfold Machine.tollServed
  split
  · exact h
  · exact (h.tollUse w c n hks).wr _ (ledger_tollCount c hk (by decide))

theorem Beside.dayReserve (h : Beside ks s t) (c : Change) : Beside ks s (dayReserve t c) := by
  unfold Machine.dayReserve dayLow
  dsimp only
  refine .evIf (h.trans ?_) _ _ _
  exact beside_of_eq rfl rfl rfl rfl fun _ _ => rfl

/-! ### Room for requests -/

/-- Factor may issue `n` requests at once in a class: within what is left of its windows, and within the budgets of the resources
of its path to DRAM, the port of its region and DRAM itself (R9, R16, R26, R161). -/
def issuable (s : State) (c : Cls) (n : Nat) : Prop :=
  n ≤ factLeft s c ∧ ∀ k ∈ [2, 5], overBudget s whoFact c k n = false

theorem factPath : fabricPath (srcRegion whoFact) none ++ [5] = [2, 5] := by decide

theorem issuable_of_factRoom {c : Cls} {n : Nat} (h : factRoom s c n = true) : issuable s c n := by
  unfold factRoom at h
  simp only [Bool.and_eq_true, decide_eq_true_eq, List.all_eq_true, Bool.not_eq_true', List.mem_range] at h
  exact ⟨h.1, fun k hk => h.2 k (by simp at hk; omega)⟩

theorem issuable_mono {c : Cls} {m n : Nat} (hmn : m ≤ n) (h : issuable s c n) : issuable s c m :=
  ⟨hmn.trans h.1, fun k hk => overBudget_mono hmn (h.2 k hk)⟩

/-- Whether a budget is exceeded depends on the frequency, the budgets, the grants counted and the faults raised. -/
theorem overBudget_of_accounts {w : Who} {c : Cls} {k m n : Nat} (hclk : t.clk = s.clk) (hbudget : t.toll.budget = s.toll.budget)
    (hkept : ∀ x ∈ s.toll.faulted, x ∈ t.toll.faulted) (hused : usedOf t k (clsN c) = usedOf s k (clsN c) + m)
    (h : overBudget s w c k (m + n) = false) : overBudget t w c k n = false := by
  unfold overBudget budgetPct capacity at h ⊢
  rw [hclk, hbudget, hused, Nat.add_assoc]
  simp only [Bool.and_eq_false_iff, Bool.not_eq_false', List.contains_iff_mem] at h ⊢
  exact h.imp id (hkept _)

theorem usedAll_eq (s : State) (k : Nat) :
    usedAll s k = usedOf s k 0 + usedOf s k 1 + usedOf s k 2 + usedOf s k 3 + usedOf s k 4 := by
  simp [usedAll, List.range, List.range.loop, Nat.add_assoc]

/-- What is left of Factor's windows, by its share, DRAM's capacity, and the requests counted to Factor and to all (R16, R161). -/
def leftOf (pct cap used all : Nat) (c : Cls) : Nat :=
  if clsN c < 2 then pct * cap / 100 - used else min (pct * cap / 100 - used) (cap - all)

theorem factLeft_eq (s : State) (c : Cls) :
    factLeft s c = leftOf (rdF s (reg pFACT 0x080) 8 8) (capacity s 5) (factUsed s) (usedAll s 5) c := rfl

theorem leftOf_issued (pct cap used all n : Nat) (c : Cls) : leftOf pct cap (used + n) (all + n) c = leftOf pct cap used all c - n := by
  unfold leftOf
  split <;> omega

theorem capacity_congr (h : t.clk = s.clk) (k : Nat) : capacity t k = capacity s k := by
  unfold capacity
  rw [h]

theorem rdF_congr {a : Nat} (h : rd t a = rd s a) (lo n : Nat) : rdF t a lo n = rdF s a lo n := congrArg (fld · lo n) h

theorem Beside.factLeft (h : Beside ks s t) (h5 : 5 ∈ ks) (c : Cls) : factLeft t c = factLeft s c := by
  have hwindow : factUsed t = factUsed s := by
    unfold factUsed
    rw [h.win, h.winUsed, h.winNo]
  have hall : usedAll t 5 = usedAll s 5 := by
    rw [usedAll_eq, usedAll_eq, h.used 5 h5 0 (by decide), h.used 5 h5 1 (by decide), h.used 5 h5 2 (by decide),
      h.used 5 h5 3 (by decide), h.used 5 h5 4 (by decide)]
  rw [factLeft_eq, factLeft_eq, capacity_congr h.clk, hwindow, hall, rdF_congr (h.rd (reg pFACT 0x080) (by decide))]

theorem Beside.overBudget (h : Beside ks s t) {w : Who} {c : Cls} {k n : Nat} (hk : k ∈ ks)
    (hin : overBudget s w c k n = false) : overBudget t w c k n = false :=
  overBudget_of_accounts h.clk h.budget h.kept (m := 0) (h.used k hk _ (by have := clsN_le c; omega)) (by rwa [Nat.zero_add])

theorem Beside.issuable (h : Beside [2, 5] s t) {c : Cls} {n : Nat} (hin : issuable s c n) : issuable t c n :=
  ⟨(h.factLeft (by decide) c).symm ▸ hin.1, fun k hk => h.overBudget hk (hin.2 k hk)⟩

/-- A budget that no number of grants exceeds: of a class without one, or of an issuer that has exceeded it in the window. -/
theorem overBudget_never {w : Who} {c : Cls} {k : Nat} :
    (∀ n, overBudget s w c k n = false) ↔ 2 ≤ clsN c ∨ budgetKey w c k ∈ s.toll.faulted := by
  unfold overBudget
  constructor
  · intro h
    have hn := h (budgetPct s k (clsN c) * capacity s k / 100 + 1)
    simp only [Bool.and_eq_false_iff, decide_eq_false_iff_not, Bool.not_eq_false', List.contains_iff_mem, Nat.not_lt] at hn
    rcases hn with (hn | hn) | hn
    · exact .inl hn
    · omega
    · exact .inr hn
  · rintro (h | h) n
    · simp [Nat.not_lt.2 h]
    · simp [h]

/-- Grants to others at the port of Factor's region leave it room where no number of them would exceed its budget there. -/
theorem Beside.issuable_calm (h : Beside [5] s t) {c : Cls} {n : Nat} (hin : Proofs.issuable s c n)
    (hcalm : ∀ m, Machine.overBudget s whoFact c 2 m = false) : Proofs.issuable t c n := by
  refine ⟨(h.factLeft (by decide) c).symm ▸ hin.1, fun k hk => ?_⟩
  rcases List.mem_cons.1 hk with rfl | hk
  · exact overBudget_never.2 ((overBudget_never.1 hcalm).imp id (h.kept _)) n
  · exact h.overBudget hk (hin.2 k (List.mem_cons_of_mem _ hk))

/-! ### Requests granted -/

/-- `n` requests of a class granted within budget at some resources. -/
structure Granted (ks : List Nat) (c : Cls) (n : Nat) (s t : State) : Prop where
  clk : t.clk = s.clk
  guard : t.guard = s.guard
  dram : t.dram = s.dram
  fact : t.fact = s.fact
  win : t.toll.win = s.toll.win
  budget : t.toll.budget = s.toll.budget
  faulted : t.toll.faulted = s.toll.faulted
  used : ∀ k x, x < 8 → usedOf t k x = usedOf s k x + if k ∈ ks ∧ x = clsN c then n else 0
  rd : ∀ a, pageOf a ≠ pTOLL → rd t a = rd s a

theorem granted_hwGrant {w : Who} {c : Cls} {k n : Nat} (ks : List Nat) (hk : k ≤ 8) (h : overBudget s w c k n = false) :
    Granted [k] c n s (hwGrant s w c k ks n) := by
  have huse : Granted [k] c n s (tollUse s w c k n) :=
    ⟨rfl, rfl, rfl, rfl, rfl, rfl, rfl, fun j x hx => by simpa using usedOf_tollUse_at s w c k n j hx, fun _ _ => rfl⟩
  unfold hwGrant
  rw [h, if_neg Bool.false_ne_true]
  dsimp only
  split
  · exact huse
  · refine { huse with rd := fun a ha => (rd_bumpBy_other _ _ ?_).trans (huse.rd a ha) }
    rintro rfl
    exact ha (pageOf_tollCount k c hk (by decide))

theorem granted_hwGrants {w : Who} {c : Cls} {n : Nat} {ks : List Nat} (hnodup : ks.Nodup) (hk : ∀ k ∈ ks, k ≤ 8)
    (h : ∀ k ∈ ks, overBudget s w c k n = false) : Granted ks c n s (hwGrants s w c ks n) := by
  induction ks generalizing s with
  | nil => exact ⟨rfl, rfl, rfl, rfl, rfl, rfl, rfl, fun _ _ _ => by simp [hwGrants], fun _ _ => rfl⟩
  | cons k ks ih =>
    unfold hwGrants
    split
    · rename_i hn
      exact ⟨rfl, rfl, rfl, rfl, rfl, rfl, rfl, fun _ _ _ => by simp [hn], fun _ _ => rfl⟩
    · obtain ⟨hnew, hnodup⟩ := List.nodup_cons.1 hnodup
      have hfirst := granted_hwGrant ks (hk k List.mem_cons_self) (h k List.mem_cons_self)
      have hrest := ih hnodup (fun j hj => hk j (List.mem_cons_of_mem _ hj)) fun j hj =>
        overBudget_of_accounts (m := 0) hfirst.clk hfirst.budget (by rw [hfirst.faulted]; exact fun _ hx => hx)
          (by
            have hc := clsN_le c
            rw [hfirst.used j _ (by omega), if_neg]
            rintro ⟨hjk, -⟩
            rw [List.mem_singleton] at hjk
            exact hnew (hjk ▸ hj))
          (by rw [Nat.zero_add]; exact h j (List.mem_cons_of_mem _ hj))
      refine ⟨hrest.clk.trans hfirst.clk, hrest.guard.trans hfirst.guard, hrest.dram.trans hfirst.dram, hrest.fact.trans hfirst.fact,
        hrest.win.trans hfirst.win, hrest.budget.trans hfirst.budget, hrest.faulted.trans hfirst.faulted, fun j x hx => ?_,
        fun a ha => (hrest.rd a ha).trans (hfirst.rd a ha)⟩
      rw [hrest.used j x hx, hfirst.used j x hx, Nat.add_assoc]
      congr 1
      by_cases hjk : j = k
      · subst hjk
        simp [hnew]
      · simp [hjk]

/-- Requests that Factor has issued: entered in its window and in TOLL's accounts (R161). -/
structure Issued (c : Cls) (n : Nat) (s t : State) : Prop where
  clk : t.clk = s.clk
  guard : t.guard = s.guard
  dram : t.dram = s.dram
  faulted : t.toll.faulted = s.toll.faulted
  fact : t.fact = { s.fact with winUsed := factUsed s + n, winNo := s.toll.win }
  rd : ∀ a, pageOf a ≠ pTOLL → rd t a = rd s a
  room : ∀ m, issuable s c (n + m) → issuable t c m

/-- Factor's requests within its room. -/
theorem issued_factIssue {c : Cls} {n : Nat} (h : issuable s c n) : Issued c n s (factIssue s c n) := by
  have hg : Granted [2, 5] c n s (hwGrants s whoFact c [2, 5] n) :=
    granted_hwGrants (by decide) (by decide) h.2
  unfold factIssue
  rw [factPath]
  dsimp only
  refine ⟨hg.clk, hg.guard, hg.dram, hg.faulted, by rw [hg.fact], hg.rd, fun m hm => ⟨?_, fun k hk => ?_⟩⟩
  · have hall : usedAll (hwGrants s whoFact c [2, 5] n) 5 = usedAll s 5 + n := by
      rw [usedAll_eq, usedAll_eq, hg.used 5 0 (by decide), hg.used 5 1 (by decide), hg.used 5 2 (by decide),
        hg.used 5 3 (by decide), hg.used 5 4 (by decide)]
      cases c <;> simp [clsN] <;> omega
    have hleft := hm.1
    rw [factLeft_eq] at hleft
    have hnow : factLeft { hwGrants s whoFact c [2, 5] n with fact := { (hwGrants s whoFact c [2, 5] n).fact with
        winUsed := factUsed s + n, winNo := s.toll.win } } c =
        leftOf (rdF s (reg pFACT 0x080) 8 8) (capacity s 5) (factUsed s + n) (usedAll s 5 + n) c := by
      rw [← hall, ← capacity_congr hg.clk, ← rdF_congr (hg.rd (reg pFACT 0x080) (by decide))]
      exact congrArg (leftOf _ _ · _ c) (if_pos hg.win.symm)
    rw [hnow, leftOf_issued]
    omega
  · have hc := clsN_le c
    refine overBudget_of_accounts (s := s) (m := n) hg.clk hg.budget (by rw [hg.faulted]; exact fun _ hx => hx) ?_ (hm.2 k hk)
    exact (hg.used k _ (by omega)).trans (by rw [if_pos ⟨hk, rfl⟩])

end Sys2Proof.Proofs
end

section
/-!
PROOFS. What a completion of Factor's leaves (chapter 7, R169, R170, R186), what a result that is shown leaves beside it (R184,
R185), and how Factor's commands end (R26).
-/

namespace Sys2Proof.Proofs

open Sys2Proof.Machine Sys2Proof.Laws

variable {ks : List Nat} {s t u : State}

/-! ### A record posted -/

/-- The bytes of a completion record written, its ring moved on (R169). -/
def recorded (s : State) (p : Post) (bs : List Byte) : State :=
  let t := ramWrite (factIssue s p.cls 1) (cqAddr s p.q) bs
  let t := wr t (fq p.q 0x0A0) (w32 ((rdF t (fq p.q 0x0A0) 0 8 + 1) % fqSize t p.q))
  { t with fact := { t.fact with cqUsed := put 0 t.fact.cqUsed p.q (cqUsed t p.q + 1) } }

theorem postOne_eq (s : State) (p : Post) : postOne s p =
    ev (ev (if p.counts then bump (recorded s p (complBytes s p)) (reg pFACT 0x0A4) else recorded s p (complBytes s p)) pFACT 0)
      pFACTQ p.q := by
  unfold postOne recorded cqAddr
  rfl

theorem recorded_fact {p : Post} (bs : List Byte) (h : issuable s p.cls 1) : (recorded s p bs).fact = { s.fact with
    winUsed := factUsed s + 1, winNo := s.toll.win, cqUsed := put 0 s.fact.cqUsed p.q (cqUsed s p.q + 1) } := by
  unfold recorded
  dsimp only
  unfold cqUsed
  rw [wr_fact, ramWrite_fact, (issued_factIssue h).fact]

theorem recorded_eq (s : State) (p : Post) (bs : List Byte) : ∃ v x, recorded s p bs =
    { wr (ramWrite (factIssue s p.cls 1) (cqAddr s p.q) bs) (fq p.q 0x0A0) v with fact := x } := ⟨_, _, rfl⟩

theorem recorded_guard {p : Post} (bs : List Byte) (h : issuable s p.cls 1) : (recorded s p bs).guard = s.guard := by
  obtain ⟨v, x, he⟩ := recorded_eq s p bs
  obtain ⟨m, hm⟩ := ramWrite_eq bs (factIssue s p.cls 1) (cqAddr s p.q)
  rw [he, hm]
  exact (issued_factIssue h).guard

theorem recorded_faulted {p : Post} (bs : List Byte) (h : issuable s p.cls 1) : (recorded s p bs).toll.faulted = s.toll.faulted := by
  obtain ⟨v, x, he⟩ := recorded_eq s p bs
  obtain ⟨m, hm⟩ := ramWrite_eq bs (factIssue s p.cls 1) (cqAddr s p.q)
  rw [he, hm]
  exact (issued_factIssue h).faulted

theorem recorded_dram (s : State) (p : Post) (bs : List Byte) :
    (recorded s p bs).dram = (ramWrite (factIssue s p.cls 1) (cqAddr s p.q) bs).dram := by
  unfold recorded
  dsimp only
  rw [wr_dram]

theorem rd_recorded {p : Post} (bs : List Byte) (h : issuable s p.cls 1) {a : Nat} (ha : pageOf a = pFACT) :
    rd (recorded s p bs) a = rd s a := by
  obtain ⟨v, x, he⟩ := recorded_eq s p bs
  have hne : a ≠ fq p.q 0x0A0 := by
    rintro rfl
    have : (pFACTQ * 4096 + (0x0A0 + 0x40 * p.q)) / 4096 = pFACT := ha
    unfold pFACTQ pFACT at this
    omega
  rw [he, rd_with_fact, rd_wr_other _ _ hne, rd_ramWrite]
  exact (issued_factIssue h).rd a (by rw [ha]; decide)

/-- What a posted completion leaves. -/
structure Posting (p : Post) (s t : State) : Prop where
  posted : posted s t p.q p.tag (p.compl.status % 256) (p.compl.confirm % 256)
  fact : t.fact = { s.fact with winUsed := factUsed s + 1, winNo := s.toll.win
                                cqUsed := put 0 s.fact.cqUsed p.q (cqUsed s p.q + 1) }
  faulted : t.toll.faulted = s.toll.faulted
  counted : p.counts = true → corMode s pFACT = false → rd t (reg pFACT 0x0A4) = rd s (reg pFACT 0x0A4) + 1
  events : rd t (reg pFACT 0x088) = rd s (reg pFACT 0x088) ||| w32 (2 ^ 0)

theorem rd_bump_same (s : State) {a p : Nat} (ha : statPage a = p) (hcor : corMode s p = false) : rd (bump s a) a = rd s a + 1 := by
  unfold bump bumpBy
  rw [rd_wr_same, ha, hcor, countUp_roll]

theorem corMode_congr (hguard : t.guard = s.guard) {p : Nat} (hstat : rd t (reg p 0x028) = rd s (reg p 0x028)) :
    corMode t p = corMode s p := by
  unfold corMode fenced rdB mCOMM mLOCK
  rw [hguard, hstat]

theorem postOne_posting {p : Post} (hq : p.q < 2) (h : issuable s p.cls 1) : Posting p s (postOne s p) := by
  have hpost := postOne_eq s p
  obtain ⟨bs, hbs⟩ : ∃ bs, bs = complBytes s p := ⟨_, rfl⟩
  rw [← hbs] at hpost
  obtain ⟨t, ht⟩ : ∃ t, t = if p.counts then bump (recorded s p bs) (reg pFACT 0x0A4) else recorded s p bs := ⟨_, rfl⟩
  rw [← ht] at hpost
  have hfact : t.fact = (recorded s p bs).fact := by rw [ht]; split <;> rfl
  have hdram : t.dram = (recorded s p bs).dram := by rw [ht]; split <;> rfl
  have htoll : t.toll = (recorded s p bs).toll := by rw [ht]; split <;> rfl
  have hother {a : Nat} (ha : a ≠ reg pFACT 0x0A4) : rd t a = rd (recorded s p bs) a := by
    rw [ht]
    split
    · exact rd_bump_other _ ha
    · rfl
  have hevt : evtAddr pFACT = some (reg pFACT 0x088) := by decide
  have hevtq : evtAddr pFACTQ = some (reg pFACTQ 0x100) := by decide
  have hkeep {a : Nat} (ha : pageOf a = pFACT) : evtAddr pFACTQ ≠ some a := by
    intro e
    rw [hevtq] at e
    cases e
    exact absurd ha (by decide)
  rw [hpost]
  constructor
  · refine ⟨?_, ?_, ?_, fun hram => ?_⟩
    · have hused : (ev (ev t pFACT 0) pFACTQ p.q).fact.cqUsed = put 0 s.fact.cqUsed p.q (cqUsed s p.q + 1) := by
        rw [ev_fact, ev_fact, hfact, recorded_fact bs h]
      rw [cqUsed, hused]
      exact look_put_same _ _ _ _
    · unfold rdB
      rw [rd_ev_other _ _ _ (hkeep (by decide)), rd_ev_same _ _ hevt, bit_or, bit_w32_pow _ (by decide)]
      simp
    · unfold rdB
      rw [rd_ev_same _ _ hevtq, bit_or, bit_w32_pow _ (by omega)]
      simp
    · have hrecord : (ev (ev t pFACT 0) pFACTQ p.q).dram =
          (ramWrite (factIssue s p.cls 1) (cqAddr s p.q) bs).dram := by
        rw [ev_dram, ev_dram, hdram, recorded_dram]
      have hlen : bs.length = 64 := by rw [hbs, length_complBytes]
      have hfield (o n : Nat) (ho : o + n ≤ 64) : ramNat (ev (ev t pFACT 0) pFACTQ p.q) (cqAddr s p.q + o) n =
          leAt (complBytes s p) o n := by
        rw [ramNat_congr hrecord, ramNat_ramWrite _ (by omega) (by omega), hbs]
      have htag := hfield 0 4 (by decide)
      rw [Nat.add_zero, complBytes_tag] at htag
      exact ⟨htag, (hfield 4 1 (by decide)).trans (complBytes_status s p),
        (hfield 5 1 (by decide)).trans (complBytes_confirm s p)⟩
  · rw [ev_fact, ev_fact, hfact, recorded_fact bs h]
  · rw [ev_toll, ev_toll, htoll, recorded_faulted bs h]
  · intro hcounts hcor
    have hmode : corMode (recorded s p bs) pFACT = false :=
      (corMode_congr (recorded_guard bs h) (rd_recorded bs h (by decide))).trans hcor
    rw [rd_ev_other _ _ _ (hkeep (by decide)), rd_ev_other _ _ _ (by decide), ht, if_pos hcounts,
      rd_bump_same (p := pFACT) _ (by decide) hmode, rd_recorded bs h (by decide)]
  · rw [rd_ev_other _ _ _ (hkeep (by decide)), rd_ev_same _ _ hevt, hother (by decide), rd_recorded bs h (by decide)]

/-- A descriptor's completion, where none waits and its ring and Factor's windows have room. -/
theorem complete_posting {q : Nat} {d : List Byte} {c : Compl} {start : Nat} (hq : q < 2) (hfree : cqFree s q = true)
    (h : issuable s (clsOf (leAt d 2 1)) 1) :
    Posting ⟨q, leAt d 4 4, c, start, clsOf (leAt d 2 1), descCounts d⟩ s (complete s q d c start) := by
  obtain ⟨p, hp⟩ : ∃ p : Post, p = ⟨q, leAt d 4 4, c, start, clsOf (leAt d 2 1), descCounts d⟩ := ⟨_, rfl⟩
  unfold cqFree at hfree
  simp only [Bool.and_eq_true, List.isEmpty_iff, Bool.not_eq_true'] at hfree
  obtain ⟨hposts, hfull⟩ := hfree
  have hnone : ∀ l, s.fact.posts = l → { s with fact := { s.fact with posts := l } } = s := by
    rintro _ rfl
    rfl
  have hready : postable { s with fact := { s.fact with posts := [p] } } p = true := by
    have hleft : 0 < factLeft s p.cls := by rw [hp]; exact h.1
    have hring : cqFull s p.q = false := by rw [hp]; exact hfull
    unfold postable
    simp only [Bool.and_eq_true, Bool.not_eq_true', decide_eq_true_eq]
    exact ⟨hring, hleft⟩
  have hpost : complete s q d c start = postOne s p := by
    unfold complete postAll
    rw [← hp, hposts]
    simp only [List.nil_append, List.length_singleton, postFlush, List.find?_cons, hready, List.erase_cons_head]
    rw [hnone [] hposts]
  rw [hpost, ← hp]
  exact postOne_posting (by rw [hp]; exact hq) (by rw [hp]; exact h)

/-! ### Completions seen from before a step beside them -/

theorem ledger_fq {q o : Nat} (hq : q < 2) (ho : o < 0x100 - 0x40) : ledger (fq q o) = true := by
  have hoff : offOf (fq q o) = o + 0x40 * q := offOf_reg _ (by omega)
  simp [ledger, pageOf_fq (show o + 0x40 * q < 4096 by omega), hoff]
  omega

theorem Beside.cqFree (h : Beside ks s t) {q : Nat} (hq : q < 2) : cqFree t q = cqFree s q := by
  have hsize : fqSize t q = fqSize s q := fqSize_congr (h.rd _ (ledger_fq hq (by decide)))
  unfold Machine.cqFree cqFull Machine.cqUsed
  rw [h.posts, h.cqUsed, hsize]

theorem Beside.posted (h : Beside ks s t) {q tag st confirm : Nat} (hq : q < 2) (hp : posted t u q tag st confirm) :
    posted s u q tag st confirm := by
  have hreg (o : Nat) (ho : o < 0x100 - 0x40) : Machine.rd t (fq q o) = Machine.rd s (fq q o) := h.rd _ (ledger_fq hq ho)
  have haddr : cqAddr t q = cqAddr s q := by
    have hhi : fq q 0x094 + 4 = fq q 0x098 := by unfold fq reg; omega
    unfold cqAddr rd64 rdF
    rw [fqSize_congr (hreg 0x088 (by decide)), hreg 0x0A0 (by decide), hreg 0x094 (by decide), hhi, hreg 0x098 (by decide)]
  have hused : Machine.cqUsed t q = Machine.cqUsed s q := by
    unfold Machine.cqUsed
    rw [h.cqUsed]
  unfold Machine.posted at hp ⊢
  rwa [haddr, hused] at hp

/-! ### A result shown (R184, R185) -/

theorem beside_hwGrant_core (m : Fin 2) (c : Cls) {k : Nat} (js : List Nat) (n : Nat) (hk : k ≤ 8) (hks : k ∉ ks)
    (h : Beside ks s t) : Beside ks s (hwGrant t (.core m) c k js n) := by
  have hmark : Beside ks s (if overBudget t (.core m) c k n then budgetMark t (.core m) c k else t) := by
    split
    · have hkey : 0xF0 ≤ budgetKey (.core m) c k % 256 := by
        have := m.isLt
        change 0xF0 ≤ (resNum k * 2 ^ 16 + clsN c * 2 ^ 8 + (0xF0 + m.val)) % 256
        omega
      have hfault : Beside ks t { t with toll := { t.toll with faulted := budgetKey (.core m) c k :: t.toll.faulted } } := by
        refine ⟨rfl, rfl, rfl, rfl, fun _ hx => List.mem_cons_of_mem _ hx, fun x hx => ?_, fun _ _ _ _ => rfl, rfl, rfl, rfl, rfl,
          rfl, fun _ _ => rfl⟩
        rcases List.mem_cons.1 hx with rfl | hx
        · exact .inr hkey
        · exact .inl hx
      exact ((h.trans hfault).ev _ _).wr _ (by decide)
    · exact h
  unfold hwGrant
  dsimp only
  split
  · exact hmark.tollUse _ c n hks
  · exact (hmark.tollUse _ c n hks).wr _ (ledger_tollCount c hk (by decide))

theorem beside_hwGrants_core (m : Fin 2) (c : Cls) {js : List Nat} (n : Nat) (hjs : ∀ j ∈ js, j ≤ 8 ∧ j ∉ ks)
    (h : Beside ks s t) : Beside ks s (hwGrants t (.core m) c js n) := by
  induction js generalizing t with
  | nil => exact h
  | cons j js ih =>
    unfold hwGrants
    split
    · exact h
    · obtain ⟨hj, hnot⟩ := hjs j List.mem_cons_self
      exact ih (fun i hi => hjs i (List.mem_cons_of_mem _ hi)) (beside_hwGrant_core m c js n hj hnot h)

theorem beside_logAdmit (w : Who) (c : Change) (h8 : 8 ∉ ks) (h : Beside ks s t) : Beside ks s (logAdmit t w c).1 := by
  unfold logAdmit
  split
  · exact (h.tollServed w c.cls 1 (by decide) h8).dayReserve c
  · unfold admitRefused
    exact (((h.wr _ (ledger_tollCount c.cls (by decide) (by decide))).bump (by decide)).ev _ _).bump (by decide)

theorem beside_setpointWrite (e : Nat × Word) (h : Beside ks s t) : Beside ks s (setpointWrite t e) := by
  unfold setpointWrite
  dsimp only
  split
  · unfold cmdApply writePoint changePoint
    dsimp only
    refine .bump (h.trans ?_) (by decide)
    exact beside_of_eq rfl rfl rfl rfl fun _ _ => rfl
  · exact h

theorem Beside.foldl {α : Type} {f : State → α → State} (hf : ∀ t x, Beside ks s t → Beside ks s (f t x)) (l : List α)
    (h : Beside ks s t) : Beside ks s (l.foldl f t) := by
  induction l generalizing t with
  | nil => exact h
  | cons x xs ih => exact ih (hf t x h)

/-- The supervisor's runtime passes the compute region's port, the point store's and the Daybook. -/
theorem beside_districtApply (h : Beside [5] s t) : Beside [5] s (districtApply t) := by
  have hready : Beside [5] s { t with fact := { t.fact with ready := none } } := h.withFact rfl rfl rfl rfl rfl
  have hpath : ∀ k ∈ ptPath (.core 0), k ≤ 8 ∧ k ∉ [5] := by decide
  unfold districtApply
  split
  · exact h
  · dsimp only
    split
    · exact h
    · split
      · exact hready
      · have hlog (c : Change) := beside_logAdmit (.core 0) c (by decide) hready
        split
        · exact .foldl (fun _ e => beside_setpointWrite e) _ (beside_hwGrants_core 0 .control _ hpath (hlog _))
        · exact hlog _

/-- Out of DISTRICT nothing is applied. -/
theorem beside_districtApply_off (h : Beside ks s t) (hmode : mDISTRICT t = false) : Beside ks s (districtApply t) := by
  unfold districtApply
  split
  · exact h
  · have hoff : mDISTRICT { t with fact := { t.fact with ready := none } } = false := hmode
    simp only [hmode, hoff, Bool.false_and, Bool.false_eq_true, if_false, Bool.not_false, if_true]
    exact h.withFact rfl rfl rfl rfl rfl

/-- A result shown to the vector window. -/
def shown (s : State) (j : Solve) (tag : Nat) (p : Pattern) : State :=
  wr { s with fact := { s.fact with win := some (nthD j.addrs 5 0, nthD j.addrs 6 0, p.n, p.m) } } (reg pFACT 0x0A0) (w32 tag)

theorem showResult_eq (s : State) {j : Solve} (q tag : Nat) (c : Cls) {p : Pattern} (hp : get? s.fact.handles j.handle = some p) :
    showResult s j q tag c = if q = 0 ∧ c = .control then
      districtApply { shown s j tag p with fact := { (shown s j tag p).fact with
        ready := some (tag, vec (shown s j tag p) (nthD j.addrs 5 0) p.n) } }
    else shown s j tag p := by
  unfold showResult
  rw [hp]
  rfl

theorem beside_shown (h : Beside ks s t) (j : Solve) (tag : Nat) (p : Pattern) : Beside ks s (shown t j tag p) :=
  (h.withFact (x := { t.fact with win := some (nthD j.addrs 5 0, nthD j.addrs 6 0, p.n, p.m) }) rfl rfl rfl rfl rfl).wr _ (by decide)

/-- A result that is shown leaves Factor's completion its room, where the setpoints that follow are calm (R26, R184). -/
theorem issuable_showResult {j : Solve} {q tag n : Nat} {c : Cls} {p : Pattern} (hp : get? s.fact.handles j.handle = some p)
    (hcalm : calmWrites s q c) (h : issuable s c n) :
    Beside [5] s (showResult s j q tag c) ∧ issuable (showResult s j q tag c) c n := by
  have hshown (ks : List Nat) : Beside ks s (shown s j tag p) := beside_shown (.refl ks s) j tag p
  have hready (ks : List Nat) (r : Option (Nat × List Word)) :
      Beside ks s { shown s j tag p with fact := { (shown s j tag p).fact with ready := r } } :=
    (hshown ks).withFact rfl rfl rfl rfl rfl
  rw [showResult_eq s q tag c hp]
  split
  · rename_i hcontrol
    refine ⟨beside_districtApply (hready [5] _), ?_⟩
    rcases hcalm with hq | hc | hmode | hcalm
    · exact absurd hcontrol.1 hq
    · exact absurd hcontrol.2 hc
    · exact (beside_districtApply_off (hready [2, 5] _) hmode).issuable h
    · exact (beside_districtApply (hready [5] _)).issuable_calm h hcalm
  · exact ⟨hshown [5], (hshown [2, 5]).issuable h⟩

/-! ### What a result that is shown leaves of Factor -/

theorem hwGrants_fact (w : Who) (c : Cls) (js : List Nat) (n : Nat) (s : State) : (hwGrants s w c js n).fact = s.fact := by
  induction js generalizing s with
  | nil => rfl
  | cons j js ih =>
    unfold hwGrants
    split
    · rfl
    · rw [ih]
      unfold hwGrant budgetMark
      dsimp only
      split <;> split <;> simp [tollCount, tollUse]

theorem dayReserve_fact (s : State) (c : Change) : (dayReserve s c).fact = s.fact := by
  unfold dayReserve dayLow
  rw [evIf_fact]

theorem tollServed_fact (s : State) (w : Who) (c : Cls) (k n : Nat) : (tollServed s w c k n).fact = s.fact := by
  unfold tollServed
  split <;> rfl

theorem logAdmit_fact (s : State) (w : Who) (c : Change) : (logAdmit s w c).1.fact = s.fact := by
  unfold logAdmit
  split
  · rw [dayReserve_fact, tollServed_fact]
  · unfold admitRefused
    rw [bump_fact, ev_fact]
    rfl

theorem setpointWrite_fact (s : State) (e : Nat × Word) : (setpointWrite s e).fact = s.fact := by
  unfold setpointWrite
  dsimp only
  split <;> rfl

theorem districtApply_fact (s : State) : ∃ r, (districtApply s).fact = { s.fact with ready := r } := by
  have hready : ∀ l : List (Nat × Word), ∀ t : State, (l.foldl setpointWrite t).fact = t.fact :=
    fun l t => foldl_keeps State.fact setpointWrite_fact l t
  unfold districtApply
  split
  · exact ⟨s.fact.ready, rfl⟩
  · dsimp only
    split
    · exact ⟨s.fact.ready, rfl⟩
    · refine ⟨none, ?_⟩
      split
      · rfl
      · split
        · unfold ptUse
          rw [hready, hwGrants_fact, logAdmit_fact]
        · rw [logAdmit_fact]

theorem showResult_fact {j : Solve} {q tag : Nat} {c : Cls} {p : Pattern} (hp : get? s.fact.handles j.handle = some p) :
    ∃ r, (showResult s j q tag c).fact = { s.fact with
      win := some (nthD j.addrs 5 0, nthD j.addrs 6 0, p.n, p.m), ready := r } := by
  rw [showResult_eq s q tag c hp]
  split
  · obtain ⟨r, hr⟩ := districtApply_fact { shown s j tag p with fact := { (shown s j tag p).fact with
      ready := some (tag, vec (shown s j tag p) (nthD j.addrs 5 0) p.n) } }
    exact ⟨r, hr⟩
  · exact ⟨s.fact.ready, rfl⟩

/-! ### How Factor's commands end (R26) -/

/-- What no record of the fault manager's changes stands as the budget faults of cores are settled. -/
theorem budgetSettle_keeps {β : Type} (g : State → β) (hg : ∀ (v : State) (w o k d i p : Nat), g (faultLog v w o k d i p) = g v)
    (h : ∀ k ∈ t.toll.faulted, k ∈ s.toll.faulted ∨ 0xF0 ≤ k % 256) : g (budgetSettle s t) = g t := by
  have hfold : ∀ (l : List Nat) (v : State), (∀ k ∈ l, 0xF0 ≤ k % 256) →
      g (l.foldl (fun x k => budgetFault x (k % 256)) v) = g v := by
    intro l
    induction l with
    | nil => exact fun _ _ => rfl
    | cons k ks ih =>
      intro v hcores
      rw [List.foldl_cons, ih _ fun j hj => hcores j (List.mem_cons_of_mem _ hj)]
      unfold budgetFault
      rw [if_pos (hcores k List.mem_cons_self), hg]
  refine hfold _ t fun k hk => ?_
  obtain ⟨hmem, hnew⟩ := List.mem_filter.1 hk
  exact (h k hmem).resolve_left (by simpa using hnew)

/-- A command of Factor's whose new budget faults are of supervisor cores ends with what its operation leaves. -/
theorem factor_ends (h : ∀ k ∈ u.toll.faulted, k ∈ s.toll.faulted ∨ 0xF0 ≤ k % 256) :
    ∃ t, finishGuard s (budgetSettle s u) = .next t ∧ t.fact = u.fact ∧ t.dram = u.dram ∧
      ∀ a, pageOf a ≠ pFLTM → rd t a = rd u a :=
  (finishGuard_next s _).2 ⟨budgetSettle_keeps State.fact (fun _ _ _ _ _ _ _ => rfl) h,
    budgetSettle_keeps State.dram (fun _ _ _ _ _ _ _ => rfl) h, fun a ha => (budgetSettle_cores h).2 a ha⟩

/-- A completion posted stands in the state in which its command ends. -/
theorem posted_of_eq {v : State} {q tag st confirm : Nat} (hp : posted s u q tag st confirm) (hfact : v.fact = u.fact)
    (hdram : v.dram = u.dram) (hrd : ∀ a, pageOf a ≠ pFLTM → rd v a = rd u a) : posted s v q tag st confirm := by
  have hused : cqUsed v q = cqUsed u q := by
    unfold cqUsed
    rw [hfact]
  unfold posted rdB at hp ⊢
  rw [hused, hrd _ (by decide), hrd _ (by decide), ramNat_congr hdram, ramNat_congr hdram, ramNat_congr hdram]
  exact hp

end Sys2Proof.Proofs
end

section
/-!
PROOFS. The descriptors of Factor's queues (chapter 7, R164, R165, R169–R173, R178–R181): one that is taken, and what its execution
leaves.
-/

namespace Sys2Proof.Proofs

open Sys2Proof.Machine Sys2Proof.Laws

variable {s t u v : State} {q i : Nat} {d : List Byte}

/-! ### A descriptor taken (R161, R169, R170) -/

theorem issuable_congr {c : Cls} {n : Nat} (hclk : t.clk = s.clk) (htoll : t.toll = s.toll)
    (hused : t.fact.winUsed = s.fact.winUsed) (hno : t.fact.winNo = s.fact.winNo)
    (hctrl : rd t (reg pFACT 0x080) = rd s (reg pFACT 0x080)) (h : issuable s c n) : issuable t c n := by
  unfold issuable factLeft factUsed usedAll overBudget budgetPct capacity rdF usedOf at h ⊢
  rw [hclk, htoll, hused, hno, hctrl]
  exact h

theorem issuable_withFact {c : Cls} {n : Nat} {x : Fact} (hused : x.winUsed = s.fact.winUsed) (hno : x.winNo = s.fact.winNo)
    (h : issuable s c n) : issuable { s with fact := x } c n :=
  issuable_congr (s := s) (t := { s with fact := x }) rfl rfl hused hno rfl h

theorem issuable_wr {c : Cls} {n a : Nat} {w : Word} (ha : reg pFACT 0x080 ≠ a) (h : issuable s c n) : issuable (wr s a w) c n :=
  issuable_congr (s := s) (t := wr s a w) rfl rfl rfl rfl (rd_wr_other s w ha) h

/-- The first entry of a queue's ring that is not yet taken, once one is. -/
theorem sqTake_eq (s : State) (q i : Nat) : ∃ l w, sqTake s q i =
    wr { s with fact := { s.fact with pend := l } } (fq q 0x090) w := ⟨_, _, rfl⟩

theorem sqTake_guard (s : State) (q i : Nat) : (sqTake s q i).guard = s.guard := by
  unfold sqTake
  rw [wr_guard]

theorem sqTake_dram (s : State) (q i : Nat) : (sqTake s q i).dram = s.dram := by
  unfold sqTake
  rw [wr_dram]

theorem sqTake_toll (s : State) (q i : Nat) : (sqTake s q i).toll = s.toll := by
  unfold sqTake
  rw [wr_toll]

theorem rd_sqTake (s : State) (i : Nat) {a : Nat} (ha : a ≠ fq q 0x090) : rd (sqTake s q i) a = rd s a := by
  unfold sqTake
  rw [rd_wr_other _ _ ha, rd_with_fact]

theorem issuable_sqTake {c : Cls} {n : Nat} (h : issuable s c n) : issuable (sqTake s q i) c n := by
  obtain ⟨l, w, he⟩ := sqTake_eq s q i
  have hne : reg pFACT 0x080 ≠ fq q 0x090 := by
    unfold fq reg pFACT pFACTQ
    omega
  rw [he]
  exact issuable_wr hne (issuable_withFact rfl rfl h)

/-- The state in which a step's work is done, once its requests are issued (R161). -/
def stepped (s : State) (c : Cls) (n : Nat) : State :=
  let t := factIssue s c (n - s.fact.paid)
  { t with fact := { t.fact with paid := 0, waitFrom := none, waited := s.fact.waited +
    match s.fact.waitFrom with | some p => count s - p | none => 0 } }

theorem factStep_of_room {c : Cls} {n : Nat} (h : n ≤ factLeft s c) (f : State → State) :
    factStep s c n f = f (stepped s c n) := by
  unfold factStep
  dsimp only
  rw [if_pos (by omega)]
  rfl

theorem room_of_descRoom (h : descRoom s q i = true) :
    issuable s (clsOf (leAt (descAt s q i) 2 1)) (2 + (descCost (factBegin s q i) (descAt s q i) + 1)) := by
  unfold descRoom at h
  simp only [Bool.and_eq_true] at h
  rw [show ∀ n, 2 + (n + 1) = 3 + n by omega]
  exact issuable_of_factRoom h.2

/-- A descriptor read whole and taken from its ring. -/
structure Begun (s : State) (q i : Nat) (t : State) : Prop where
  guard : t.guard = s.guard
  dram : t.dram = s.dram
  faulted : t.toll.faulted = s.toll.faulted
  fact : ∃ l n w, t.fact = { s.fact with pend := l, winUsed := n, winNo := w, begun := some (q, ageOf s q i, descAt s q i), paid := 0
                                         waitFrom := none, waited := 0 }
  rd : ∀ a, pageOf a ≠ pTOLL → a ≠ fq q 0x090 → rd t a = rd s a
  room : issuable t (clsOf (leAt (descAt s q i) 2 1)) (descCost t (descAt s q i) + 1)

/-- A state in which a descriptor's bytes are held, to be worked on. -/
def holdsDesc (t : State) (q age : Nat) (d : List Byte) : State :=
  { t with fact := { t.fact with begun := some (q, age, d), paid := 0, waitFrom := none, waited := 0 } }

theorem factBegin_eq (s : State) (q i : Nat) : factBegin s q i =
    holdsDesc (factIssue (sqTake s q i) (clsOf (leAt (descAt s q i) 2 1)) 2) q (ageOf s q i) (descAt s q i) := rfl

theorem begun_holdsDesc {c : Cls} {n : Nat} (h : Issued c n (sqTake s q i) t)
    (hroom : issuable t (clsOf (leAt (descAt s q i) 2 1)) (descCost (holdsDesc t q (ageOf s q i) (descAt s q i)) (descAt s q i) + 1)) :
    Begun s q i (holdsDesc t q (ageOf s q i) (descAt s q i)) where
  guard := h.guard.trans (sqTake_guard s q i)
  dram := h.dram.trans (sqTake_dram s q i)
  faulted := h.faulted.trans (congrArg Toll.faulted (sqTake_toll s q i))
  fact := by
    obtain ⟨l, w, htake⟩ := sqTake_eq s q i
    rw [holdsDesc, h.fact, htake, wr_fact]
    exact ⟨_, _, _, rfl⟩
  rd := fun a ha hne => (h.rd a ha).trans (rd_sqTake s i hne)
  room := issuable_withFact rfl rfl hroom

theorem begun_factBegin (h : descRoom s q i = true) : Begun s q i (factBegin s q i) := by
  have hroom := issuable_sqTake (q := q) (i := i) (room_of_descRoom h)
  have hissued := issued_factIssue (issuable_mono (Nat.le_add_right 2 _) hroom)
  rw [factBegin_eq] at hroom ⊢
  exact begun_holdsDesc hissued (hissued.room _ hroom)

/-- A taken descriptor, its requests issued, as its execution begins. -/
structure Taken (s : State) (q i : Nat) (u : State) : Prop where
  dram : u.dram = s.dram
  faulted : u.toll.faulted = s.toll.faulted
  fact : ∃ l n w, u.fact = { s.fact with pend := l, winUsed := n, winNo := w, begun := none, paid := 0, waitFrom := none
                                         waited := 0 }
  free : cqFree u q = true
  room : issuable u (clsOf (leAt (descAt s q i) 2 1)) 1

/-- A state in which a descriptor executes. -/
def executing (t : State) : State := { t with fact := { t.fact with begun := none } }

theorem atDesc_eq (s : State) (q i : Nat) : atDesc s q i =
    executing (factIssue (factBegin s q i) (clsOf (leAt (descAt s q i) 2 1)) (descCost (factBegin s q i) (descAt s q i))) := rfl

/-- A descriptor for which an entry of the completion ring can be kept finds one free. -/
theorem cqFree_of_descRoom (h : descRoom s q i = true) (hposts : t.fact.posts = s.fact.posts) (hused : t.fact.cqUsed = s.fact.cqUsed)
    (hsize : fqSize t q = fqSize s q) : cqFree t q = true := by
  unfold descRoom cqKept cqUsed at h
  simp only [Bool.and_eq_true, List.isEmpty_iff, decide_eq_true_eq] at h
  obtain ⟨⟨hnone, hkept⟩, -⟩ := h
  unfold cqFree cqFull cqUsed
  rw [hsize, hposts, hused, hnone]
  simp only [List.isEmpty_nil, Bool.true_and, Bool.not_eq_true', decide_eq_false_iff_not]
  omega

theorem taken_executing {c : Cls} {n : Nat} (hq : q < 2) (hdesc : descRoom s q i = true) (hbegun : Begun s q i u)
    (h : Issued c n u t) (hroom : issuable t (clsOf (leAt (descAt s q i) 2 1)) 1) : Taken s q i (executing t) := by
  have hfact : ∃ l n w, t.fact = { s.fact with pend := l, winUsed := n, winNo := w
                                               begun := some (q, ageOf s q i, descAt s q i), paid := 0, waitFrom := none
                                               waited := 0 } := by
    obtain ⟨l, n, w, hfact⟩ := hbegun.fact
    rw [h.fact, hfact]
    exact ⟨_, _, _, rfl⟩
  have hpage : pageOf (fq q 0x088) ≠ pTOLL := by
    rw [pageOf_fq (by omega)]
    decide
  have hsize : fqSize (executing t) q = fqSize s q :=
    fqSize_congr ((h.rd _ hpage).trans (hbegun.rd _ hpage (fq_ne (by omega))))
  obtain ⟨l, n, w, hfact⟩ := hfact
  refine ⟨h.dram.trans hbegun.dram, h.faulted.trans hbegun.faulted, ⟨l, n, w, ?_⟩, cqFree_of_descRoom hdesc ?_ ?_ hsize,
    issuable_withFact rfl rfl hroom⟩ <;> rw [executing, hfact]

theorem taken_atDesc (hq : q < 2) (h : descRoom s q i = true) : Taken s q i (atDesc s q i) := by
  have hbegun := begun_factBegin h
  have hissued := issued_factIssue (issuable_mono (Nat.le_add_right _ 1) hbegun.room)
  rw [atDesc_eq]
  exact taken_executing hq h hbegun hissued (hissued.room 1 hbegun.room)

/-- A descriptor that is begun has no request issued and has not waited. -/
theorem stepped_begun {c : Cls} {n : Nat} (hbegun : Begun s q i u) (h : Issued c n u (factIssue u c n)) :
    executing (stepped u c n) = executing (factIssue u c n) := by
  obtain ⟨l, k, w, hfact⟩ := hbegun.fact
  have hpaid : u.fact.paid = 0 := by rw [hfact]
  have hfrom : u.fact.waitFrom = none := by rw [hfact]
  have hwaited : u.fact.waited = 0 := by rw [hfact]
  have hissued := h.fact
  unfold stepped
  rw [hpaid, hfrom, hwaited, Nat.sub_zero]
  obtain ⟨t, ht⟩ : ∃ t, t = factIssue u c n := ⟨_, rfl⟩
  rw [← ht] at hissued ⊢
  unfold executing
  dsimp only
  rw [hissued, hfact]

/-- Factor, free, executes the descriptor that it takes next. -/
theorem factRunDesc_takes {want : Nat → Bool} (htakes : takes s want q i = true) (hroom : descRoom s q i = true)
    (f : State → Nat → Nat → List Byte → State) :
    factRunDesc s want f = f (atDesc s q i) q (ageOf s q i) (descAt s q i) := by
  have hbegun := begun_factBegin hroom
  have hissued := issued_factIssue (issuable_mono (Nat.le_add_right _ 1) hbegun.room)
  obtain ⟨l, n, w, hfact⟩ := hbegun.fact
  have hwork : factWork (factBegin s q i) f = f (atDesc s q i) q (ageOf s q i) (descAt s q i) := by
    have hsome : (factBegin s q i).fact.begun = some (q, ageOf s q i, descAt s q i) := by rw [hfact]
    have hleft := (issuable_mono (Nat.le_add_right _ 1) hbegun.room).1
    unfold factWork
    rw [hsome]
    dsimp only
    rw [factStep_of_room hleft, atDesc_eq, ← stepped_begun hbegun hissued]
    rfl
  have hleft : ¬ factLeft s (clsOf (leAt (descAt s q i) 2 1)) < 2 :=
    Nat.not_lt.2 ((Nat.le_add_right 2 _).trans (room_of_descRoom hroom).1)
  have hkept : ¬ fqSize s q ≤ cqKept s q := by
    unfold descRoom at hroom
    simp only [Bool.and_eq_true, decide_eq_true_eq] at hroom
    exact Nat.not_le.2 hroom.1.2
  unfold takes at htakes
  simp only [Bool.and_eq_true, Option.isNone_iff_eq_none, beq_iff_eq] at htakes
  obtain ⟨⟨⟨⟨hrun, hlive⟩, hnone⟩, hnext⟩, hwant⟩ := htakes
  unfold factRunDesc
  rw [hrun, hlive, hnone, hnext]
  simp [hwant, hkept, hleft, hwork]

/-- Without an entry of its completion ring the descriptor waits. -/
theorem factRunDesc_waits {want : Nat → Bool} (htakes : takes s want q i = true) (hkept : fqSize s q ≤ cqKept s q)
    (f : State → Nat → Nat → List Byte → State) : factRunDesc s want f = ev s pFACTQ 2 := by
  unfold takes at htakes
  simp only [Bool.and_eq_true, Option.isNone_iff_eq_none, beq_iff_eq] at htakes
  obtain ⟨⟨⟨⟨hrun, hlive⟩, hnone⟩, hnext⟩, hwant⟩ := htakes
  unfold factRunDesc
  rw [hrun, hlive, hnone, hnext]
  simp [hwant, hkept]

end Sys2Proof.Proofs
end

section
/-!
PROOFS. Factor's descriptors executed (chapter 7, R164, R165, R171–R173, R178–R181): REGISTER, SOLVE and CONFIRM.
-/

namespace Sys2Proof.Proofs

open Sys2Proof.Machine Sys2Proof.Laws

variable {ks : List Nat} {s t u v : State} {q i : Nat} {d : List Byte}

/-! ### A completion as the command's end shows it -/

/-- A descriptor taken in the state `u` is completed from the state `v`. -/
structure Completed (u v : State) (q : Nat) (d : List Byte) (c : Compl) (t : State) : Prop where
  posted : posted u t q (leAt d 4 4) (c.status % 256) (c.confirm % 256)
  fact : t.fact = { v.fact with winUsed := factUsed v + 1, winNo := v.toll.win
                                cqUsed := put 0 v.fact.cqUsed q (cqUsed v q + 1) }
  counted : corMode u pFACT = false → descCounts d = true → rd t (reg pFACT 0x0A4) = rd u (reg pFACT 0x0A4) + 1
  events : ∀ b, rdB v (reg pFACT 0x088) b = true → rdB t (reg pFACT 0x088) b = true

theorem completed_complete (hq : q < 2) (hfaulted : u.toll.faulted = s.toll.faulted) (hfree : cqFree u q = true)
    (hb : Beside ks u v) (hroom : issuable v (clsOf (leAt d 2 1)) 1) (c : Compl) (start : Nat) :
    ∃ t, finishGuard s (budgetSettle s (complete v q d c start)) = .next t ∧ Completed u v q d c t := by
  have hposting := complete_posting (c := c) (start := start) hq ((hb.cqFree hq).trans hfree) hroom
  obtain ⟨t, hend, hfact, hdram, hrd⟩ := factor_ends (s := s) (u := complete v q d c start) (by
    rw [hposting.faulted, ← hfaulted]
    exact hb.faulted)
  refine ⟨t, hend, posted_of_eq (hb.posted hq hposting.posted) hfact hdram hrd, hfact.trans hposting.fact, fun hcor hcounts => ?_,
    fun b hbit => ?_⟩
  · have hcor' : corMode v pFACT = false := (corMode_congr hb.guard (hb.rd _ (by decide))).trans hcor
    rw [hrd _ (by decide), hposting.counted hcounts hcor', hb.rd _ (by decide)]
  · unfold rdB at hbit ⊢
    rw [hrd _ (by decide), hposting.events, bit_or, hbit, Bool.true_or]

theorem completed_invalid (hq : q < 2) (hfaulted : u.toll.faulted = s.toll.faulted) (hfree : cqFree u q = true)
    (hroom : issuable u (clsOf (leAt d 2 1)) 1) (cause : Nat) :
    ∃ t, finishGuard s (budgetSettle s (invalid u q d cause)) = .next t ∧ posted u t q (leAt d 4 4) 7 0 ∧
      t.fact.run = u.fact.run ∧ t.fact.held = u.fact.held := by
  obtain ⟨t, hend, hdone⟩ := completed_complete hq hfaulted hfree (.refl [] u) hroom
    { status := 7, outcome := factOut u (if cause = 3 ∨ cause = 5 then oABSENT else if cause = 9 then oLOG else oRIGHTS),
      cause := cause } (count u)
  exact ⟨t, hend, hdone.posted, by rw [hdone.fact], by rw [hdone.fact]⟩

/-! ### REGISTER (R164, R165) -/

theorem beside_privPatterns (h : Beside ks s t) : Beside ks s (privPatterns t) ∧ (privPatterns t).fact = t.fact := by
  unfold privPatterns
  exact List.foldlRecOn (motive := fun e : State × Nat => Beside ks s e.1 ∧ e.1.fact = t.fact) _ _ ⟨h, rfl⟩
    fun e ⟨hb, hf⟩ p _ => ⟨hb.ramWrite _ _, (ramWrite_fact _ _ _).trans hf⟩

/-- The state in which a registered pattern's completion is posted: the handle's pattern replaced, the patterns that Factor
keeps in DRAM written anew (R166), the change logged. -/
theorem registerDo_eq (u : State) (q : Nat) (d : List Byte) (h : Nat) (pat : List Byte) :
    ∃ (x : Fact) (c : Change) (k : Compl) (n : Nat) (v : State),
    x = { u.fact with handles := ins u.fact.handles h (patternOf pat)
                      resident := if u.fact.resident = some h then none else u.fact.resident } ∧
    v = dayReserve (tollServed (privPatterns { u with fact := x }) (queueOwner q) (clsOf (leAt d 2 1)) 8 1) c ∧
    k.status = 8 ∧ k.confirm = 0 ∧ registerDo u q d h pat = complete v q d k n :=
  ⟨_, _, { status := 8, outcome := _ }, _, _, rfl, rfl, rfl, rfl, rfl⟩

theorem registerDesc_accepts {age : Nat} (hclass : descClassOk u q d = true) (halign : leAt d 8 8 % 64 = 0)
    (hram : leAt d 8 8 + 64 ≤ Config.dramBytes)
    (hvec : vecOk u (leAt d 8 8) (ceilDiv (patternBytes u (leAt d 8 8)).length 4) = true) (hrun : factStopped u = false)
    (hhandle : leAt d 3 1 < 16) (hpat : patternOk (patternBytes u (leAt d 8 8)) = true)
    (htotal : patternTotal u (leAt d 3 1) + (patternBytes u (leAt d 8 8)).length ≤ 167772160)
    (hfree : handleInUse u (leAt d 3 1) = false) (hlog : logOk u (clsOf (leAt d 2 1)) = true) :
    registerDesc u q age d = registerDo u q d (leAt d 3 1) (patternBytes u (leAt d 8 8)) := by
  unfold registerDesc
  dsimp only
  rw [hclass, halign, hvec, hrun, hpat, hfree, hlog]
  simp [Nat.not_lt.2 hram, Nat.not_le.2 hhandle, Nat.not_lt.2 htotal]

theorem registerDo_completes (hq : q < 2) (hfaulted : u.toll.faulted = s.toll.faulted) (hfree : cqFree u q = true)
    (hroom : issuable u (clsOf (leAt d 2 1)) 1) (h : Nat) (pat : List Byte) :
    ∃ t, finishGuard s (budgetSettle s (registerDo u q d h pat)) = .next t ∧ posted u t q (leAt d 4 4) 8 0 ∧
      t.fact.handles = ins u.fact.handles h (patternOf pat) := by
  obtain ⟨x, c, k, n, v, hx, hv, hstatus, hconfirm, hdo⟩ := registerDo_eq u q d h pat
  have hfact : Beside [2, 5] u { u with fact := x } := (Beside.refl [2, 5] u).withFact (by rw [hx]) (by rw [hx]) (by rw [hx])
    (by rw [hx]) (by rw [hx])
  obtain ⟨hpriv, hkeep⟩ := beside_privPatterns hfact
  have hb : Beside [2, 5] u v := hv ▸ (hpriv.tollServed _ _ _ (by decide) (by decide)).dayReserve c
  obtain ⟨t, hend, hdone⟩ := completed_complete hq hfaulted hfree hb (hb.issuable hroom) k n
  rw [hdo]
  refine ⟨t, hend, ?_, ?_⟩
  · have hposted := hdone.posted
    rwa [hstatus, hconfirm] at hposted
  · have hhandles : v.fact = x := by rw [hv, dayReserve_fact, tollServed_fact, hkeep]
    rw [hdone.fact, hhandles, hx]

/-! ### SOLVE (R167–R173) -/

theorem jobData_congr (hdram : t.dram = s.dram) (hhandles : t.fact.handles = s.fact.handles) (j : Solve) :
    jobData t j = jobData s j := by
  have hvec (a k : Nat) : vec t a k = vec s a k := by
    unfold vec
    simp only [ramNat_congr hdram]
  unfold jobData
  rw [hhandles]
  simp only [hvec]

/-- A job's state as it begins. -/
def started (s : State) (j : Solve) : State :=
  { evIf j.clamped s pFACT 6 with fact := { (evIf j.clamped s pFACT 6).fact with
    run := some j, nextId := (evIf j.clamped s pFACT 6).fact.nextId + 1 } }

theorem jobStart_eq (s : State) (j : Solve) :
    jobStart s j = if dataOk (jobData s j) then started s j else jobEnd (started s j) j 5 := by
  have hdata : jobData (started s j) j = jobData s j := jobData_congr (evIf_dram ..) (congrArg Fact.handles (evIf_fact ..)) j
  rw [← hdata]
  rfl

theorem started_fact (s : State) (j : Solve) : (started s j).fact = { s.fact with run := some j, nextId := s.fact.nextId + 1 } := by
  unfold started
  rw [evIf_fact]

theorem beside_started (h : Beside ks s t) (j : Solve) : Beside ks s (started t j) := (h.evIf ..).withFact rfl rfl rfl rfl rfl

/-- A job runs from its command's end. -/
theorem started_ends (hfaulted : u.toll.faulted = s.toll.faulted) (j : Solve) :
    ∃ t, finishGuard s (budgetSettle s (started u j)) = .next t ∧
      t.fact = { u.fact with run := some j, nextId := u.fact.nextId + 1 } ∧ t.dram = u.dram ∧
      (j.clamped = true → rdB t (reg pFACT 0x088) 6 = true) := by
  obtain ⟨t, hend, hfact, hdram, hrd⟩ := factor_ends (s := s) (u := started u j) (by
    rw [← hfaulted]
    exact (beside_started (.refl [] u) j).faulted)
  refine ⟨t, hend, hfact.trans (started_fact u j), hdram.trans (evIf_dram ..), fun hclamped => ?_⟩
  have hevt : evtAddr pFACT = some (reg pFACT 0x088) := by decide
  have hset : rd (started u j) (reg pFACT 0x088) = rd u (reg pFACT 0x088) ||| w32 (2 ^ 6) := by
    unfold started
    rw [rd_with_fact, hclamped]
    exact rd_ev_same u 6 hevt
  unfold rdB
  rw [hrd _ (by decide), hset, bit_or, bit_w32_pow _ (by decide)]
  simp

/-- The state in which the record of a solve that ends NUMERIC_FAULT is posted. -/
def faulted (s : State) (j : Solve) : State :=
  let t := ev { s with fact := { s.fact with run := none } } pFACT 4
  if j.kind = 1 then { t with fact := { t.fact with held := t.fact.held ++ [⟨j, jobCompl s j 5 j.x⟩] } } else t

theorem jobEnd_fault {j : Solve} (hkind : j.kind ≠ 2) :
    jobEnd s j 5 = complete (faulted s j) j.q j.desc (jobCompl s j 5 j.x) j.start := by
  unfold jobEnd jobOut faulted
  simp [hkind, evIf]

theorem beside_faulted (h : Beside ks s t) (j : Solve) : Beside ks s (faulted t j) := by
  have hev : Beside ks s (ev { t with fact := { t.fact with run := none } } pFACT 4) :=
    (h.withFact (x := { t.fact with run := none }) rfl rfl rfl rfl rfl).ev pFACT 4
  unfold faulted
  dsimp only
  split
  · exact hev.withFact rfl rfl rfl rfl rfl
  · exact hev

theorem faulted_fact (s : State) (j : Solve) : ∃ l, (faulted s j).fact = { s.fact with run := none, held := l } := by
  unfold faulted
  dsimp only
  split
  · rw [ev_fact]
    exact ⟨_, rfl⟩
  · rw [ev_fact]
    exact ⟨_, rfl⟩

theorem faulted_event (s : State) (j : Solve) : rdB (faulted s j) (reg pFACT 0x088) 4 = true := by
  have hevt : evtAddr pFACT = some (reg pFACT 0x088) := by decide
  have hset : rdB (ev { s with fact := { s.fact with run := none } } pFACT 4) (reg pFACT 0x088) 4 = true := by
    unfold rdB
    rw [rd_ev_same _ 4 hevt, bit_or, bit_w32_pow _ (by decide)]
    simp
  unfold faulted
  dsimp only
  split
  · exact hset
  · exact hset

/-- A solve of a descriptor's ends NUMERIC_FAULT, where its record finds room. -/
theorem jobEnd_fault_ended {j : Solve} (hkind : j.kind ≠ 2) (hq : j.q < 2) (htag : j.tag = leAt j.desc 4 4)
    (hfaulted : u.toll.faulted = s.toll.faulted) (hfree : cqFree u j.q = true) (hroom : issuable u (clsOf (leAt j.desc 2 1)) 1)
    (hb : Beside [2, 5] u v) :
    ∃ t, finishGuard s (budgetSettle s (jobEnd v j 5)) = .next t ∧ ended u t j 5 ∧ rdB t (reg pFACT 0x088) 4 = true := by
  have hbeside := beside_faulted hb j
  obtain ⟨t, hend, hdone⟩ := completed_complete hq hfaulted hfree hbeside (hbeside.issuable hroom) (jobCompl v j 5 j.x) j.start
  obtain ⟨l, hfact⟩ := faulted_fact v j
  have hconfirm : (jobCompl v j 5 j.x).confirm % 256 = confirmOf j := by
    change confirmOf j % 256 = confirmOf j
    unfold confirmOf
    rw [if_neg hkind]
    split
    · rfl
    · rfl
  rw [jobEnd_fault hkind]
  refine ⟨t, hend, ⟨by rw [hdone.fact, hfact], ?_, ?_, hdone.counted⟩, hdone.events 4 (faulted_event v j)⟩
  · rw [hdone.fact, hfact]
    exact hb.susp
  · have hposted := hdone.posted
    rwa [hconfirm, ← htag] at hposted

/-- A job begins on data without a numeric fault. -/
theorem jobStart_runs {j : Solve} (hfaulted : u.toll.faulted = s.toll.faulted) (hdata : dataOk (jobData u j) = true) :
    ∃ t, finishGuard s (budgetSettle s (jobStart u j)) = .next t ∧
      t.fact = { u.fact with run := some j, nextId := u.fact.nextId + 1 } ∧ t.dram = u.dram ∧
      (j.clamped = true → rdB t (reg pFACT 0x088) 6 = true) := by
  rw [jobStart_eq, hdata, if_pos rfl]
  exact started_ends hfaulted j

theorem solveDesc_unregistered {age : Nat} (htype : leAt d 0 1 = 1) (hclass : descClassOk u q d = true)
    (hnone : get? u.fact.handles (leAt d 3 1) = none) : solveDesc u q age d = invalid u q d 3 := by
  unfold solveDesc
  rw [hclass, hnone]
  simp [htype]

theorem solveDesc_accepts {age : Nat} {p : Pattern} (htype : leAt d 0 1 = 1) (hclass : descClassOk u q d = true)
    (hp : get? u.fact.handles (leAt d 3 1) = some p) (haddrs : solveAddrsOk u d p = true) (hrun : factStopped u = false)
    (hheld : leAt d 1 1 / 2 % 2 = 0 ∨ heldCount u < 4) : solveDesc u q age d = jobStart u (solveJob u age q d p) := by
  have hspace : ¬(leAt d 1 1 / 2 % 2 = 1 ∧ 4 ≤ heldCount u) := by omega
  unfold solveDesc
  rw [hclass, hp, hrun]
  simp only [htype, haddrs, hspace, ne_eq, not_true_eq_false, Bool.not_true, Bool.false_eq_true, if_false]

/-! ### CONFIRM (R179–R181) -/

theorem confirmDesc_unheld {age : Nat} (hclass : descClassOk u q d = true)
    (hnone : ∀ h ∈ u.fact.held, h.job.tag ≠ leAt d 0x78 4) : confirmDesc u q age d = invalid u q d 5 := by
  have hfind : u.fact.held.find? (fun h => h.job.tag == leAt d 0x78 4) = none := by simpa using hnone
  unfold confirmDesc
  rw [hclass, hfind]
  rfl

/-- The held contexts without one of them. -/
def withoutHeld (s : State) (h : HeldCtx) : State := { s with fact := { s.fact with held := s.fact.held.erase h } }

theorem confirmDesc_accepts {age : Nat} {h : HeldCtx} {p : Pattern} (hclass : descClassOk u q d = true)
    (hfind : u.fact.held.find? (fun c => c.job.tag == leAt d 0x78 4) = some h) (hp : get? u.fact.handles h.job.handle = some p)
    (haddrs : solveAddrsOk u (setNth d 1 0) p = true) (hrun : factStopped u = false) :
    confirmDesc u q age d =
      if (confirmMatch (decide (leAt d 1 1 / 8 % 2 = 0)) (w32 (leAt d 0x50 4)) (w32 (leAt d 0x54 4)) (w32 (leAt d 0x58 4))
          (jobData u (reSolve u age q d h p)) (jobData u h.job) && decide (h.rec_.status = 0)) = true
        then keepHeld (withoutHeld u h) q d h else jobStart (withoutHeld u h) (reSolve u age q d h p) := by
  unfold confirmDesc
  rw [hclass, hfind]
  dsimp only
  rw [hp]
  simp only [haddrs, hrun, Bool.not_true, Bool.false_eq_true, if_false, Bool.and_eq_true, decide_eq_true_eq]
  rfl

theorem beside_withoutHeld (h : Beside ks s t) (c : HeldCtx) : Beside ks s (withoutHeld t c) := h.withFact rfl rfl rfl rfl rfl

theorem Beside.calmWrites {c : Cls} (h : Beside [2, 5] s t) (hcalm : calmWrites s q c) : calmWrites t q c := by
  have hmode : mDISTRICT t = mDISTRICT s := congrArg (fun g => g.mode.getLsbD 1) h.guard
  unfold Machine.calmWrites
  rw [hmode]
  exact hcalm.imp id (.imp id (.imp id fun hnever n => h.overBudget (by decide) (hnever n)))

/-- A held result that is kept is completed under the CONFIRM's TAG. -/
theorem keepHeld_completes {h : HeldCtx} {p : Pattern} (hq : q < 2) (hfaulted : u.toll.faulted = s.toll.faulted)
    (hfree : cqFree u q = true) (hroom : issuable u (clsOf (leAt d 2 1)) 1) (hp : get? u.fact.handles h.job.handle = some p)
    (hstatus : h.rec_.status = 0) (hcalm : calmWrites u q (clsOf (leAt d 2 1))) :
    ∃ t, finishGuard s (budgetSettle s (keepHeld (withoutHeld u h) q d h)) = .next t ∧ posted u t q (leAt d 4 4) 0 2 ∧
      t.fact.held = u.fact.held.erase h ∧ t.fact.run = u.fact.run ∧
      t.fact.win = some (nthD h.job.addrs 5 0, nthD h.job.addrs 6 0, p.n, p.m) := by
  obtain ⟨v, hv⟩ : ∃ v, v = bump (withoutHeld u h) (reg pFACT 0x0B0) := ⟨_, rfl⟩
  have hb (ks : List Nat) : Beside ks u v := hv ▸ (beside_withoutHeld (.refl ks u) h).bump (by decide)
  have hfact : v.fact = { u.fact with held := u.fact.held.erase h } := by
    rw [hv, bump_fact, withoutHeld]
  have hpattern : get? v.fact.handles h.job.handle = some p := by rw [hfact]; exact hp
  obtain ⟨hshow, hroom'⟩ := issuable_showResult (tag := leAt d 4 4) hpattern ((hb [2, 5]).calmWrites hcalm)
    ((hb [2, 5]).issuable hroom)
  obtain ⟨r, hshown⟩ := showResult_fact (q := q) (tag := leAt d 4 4) (c := clsOf (leAt d 2 1)) hpattern
  obtain ⟨t, hend, hdone⟩ := completed_complete hq hfaulted hfree ((hb [5]).trans hshow) hroom' { h.rec_ with confirm := 2 }
    h.job.start
  have hkept := hdone.fact
  rw [hshown, hfact] at hkept
  unfold keepHeld
  rw [← hv]
  refine ⟨t, hend, ?_, by rw [hkept], by rw [hkept], by rw [hkept]⟩
  have hposted := hdone.posted
  dsimp only at hposted
  rwa [hstatus] at hposted

/-! ### The commands -/

theorem run_of_takes {want : Nat → Bool} (h : takes s want q i = true) : s.fact.run = none := by
  unfold takes at h
  simp only [Bool.and_eq_true, Option.isNone_iff_eq_none] at h
  exact h.1.1.1.1

/-- A taken descriptor leaves Factor's handles, its held contexts and the completions posted; no job runs. -/
theorem Taken.keeps (h : Taken s q i u) : u.fact.handles = s.fact.handles ∧ u.fact.held = s.fact.held ∧
    u.fact.cqUsed = s.fact.cqUsed ∧ u.fact.run = s.fact.run := by
  obtain ⟨l, n, w, hfact⟩ := h.fact
  rw [hfact]
  exact ⟨rfl, rfl, rfl, rfl⟩

theorem exec_register_waits (htakes : takes s (· == 0) q i = true) (hkept : fqSize s q ≤ cqKept s q) :
    ∃ t, exec .register s = .next t ∧ t.fact = s.fact ∧ rdB t (reg pFACTQ 0x100) 2 = true := by
  have hwaits := factRunDesc_waits htakes hkept registerDesc
  obtain ⟨t, hend, hfact, -, hrd⟩ := factor_ends (s := s) (u := ev s pFACTQ 2) fun k hk => .inl (by rwa [ev_toll] at hk)
  rw [← hwaits] at hend
  have hevt : evtAddr pFACTQ = some (reg pFACTQ 0x100) := by decide
  refine ⟨t, hend, hfact.trans (ev_fact ..), ?_⟩
  unfold rdB
  rw [hrd _ (by decide), rd_ev_same _ 2 hevt, bit_or, bit_w32_pow _ (by decide)]
  simp

theorem exec_register_takes (hu : u = atDesc s q i) (htakes : takes s (· == 0) q i = true)
    (hroom : descRoom s q i = true) :
    exec .register s = finishGuard s (budgetSettle s (registerDesc u q (ageOf s q i) (descAt s q i))) := by
  rw [hu, ← factRunDesc_takes htakes hroom registerDesc]
  rfl

theorem exec_solve_takes (hu : u = atDesc s q i) (htakes : takes s (fun y => y != 0 && y != 2) q i = true)
    (hroom : descRoom s q i = true) :
    exec .solve s = finishGuard s (budgetSettle s (solveDesc u q (ageOf s q i) (descAt s q i))) := by
  rw [hu, ← factRunDesc_takes htakes hroom solveDesc]
  rfl

theorem exec_confirm_takes (hu : u = atDesc s q i) (htakes : takes s (· == 2) q i = true)
    (hroom : descRoom s q i = true) :
    exec .confirm s = finishGuard s (budgetSettle s (confirmDesc u q (ageOf s q i) (descAt s q i))) := by
  rw [hu, ← factRunDesc_takes htakes hroom confirmDesc]
  rfl

/-- Settles O39: a taken descriptor executes in a state whose completion ring and window have room for its record, and what each
kind of descriptor does beside that record leaves them so. -/
theorem descriptorsAreServed : Obligations.DescriptorsAreServed := by
  unfold Obligations.DescriptorsAreServed
  rintro s u q i d hq hu rfl
  refine ⟨fun htakes => ⟨exec_register_waits htakes, fun hroom hclass halign hram hvec hrun hhandle hpat htotal hfree hlog => ?_⟩,
    fun htakes hroom htype hclass => ?_, fun htakes hroom hclass => ?_⟩
  · have htaken : Taken s q i u := hu ▸ taken_atDesc hq hroom
    obtain ⟨hhandles, -, -, -⟩ := htaken.keeps
    rw [exec_register_takes hu htakes hroom,
      registerDesc_accepts hclass halign hram hvec hrun hhandle hpat htotal hfree hlog]
    obtain ⟨t, hend, hposted, hnew⟩ := registerDo_completes hq htaken.faulted htaken.free htaken.room
      (leAt (descAt s q i) 3 1) (patternBytes u (leAt (descAt s q i) 8 8))
    rw [hhandles] at hnew
    exact ⟨t, hend, hposted, by rw [hnew, get?_ins_same], fun h hne => by rw [hnew, get?_ins_other _ _ hne]⟩
  · have htaken : Taken s q i u := hu ▸ taken_atDesc hq hroom
    obtain ⟨hhandles, -, hused, hidle⟩ := htaken.keeps
    have hnone := run_of_takes htakes
    rw [exec_solve_takes hu htakes hroom, ← hhandles]
    refine ⟨fun hunregistered => ?_, fun p hp haddrs hrun hheld => ?_⟩
    · rw [solveDesc_unregistered htype hclass hunregistered]
      obtain ⟨t, hend, hposted, hrun, -⟩ := completed_invalid hq htaken.faulted htaken.free htaken.room 3
      exact ⟨t, hend, hposted, hrun.trans (hidle.trans hnone)⟩
    · rw [solveDesc_accepts htype hclass hp haddrs hrun hheld]
      refine ⟨fun hdata => ?_, fun hdata => ?_⟩
      · obtain ⟨t, hend, hfact, hdram, hclamped⟩ := jobStart_runs htaken.faulted hdata
        exact ⟨t, hend, by rw [hfact], hdram.trans htaken.dram, by rw [hfact], by rw [hfact]; exact hused, hclamped⟩
      · have hkind : (solveJob u (ageOf s q i) q (descAt s q i) p).kind ≠ 2 := by
          change (if _ then 1 else 0) ≠ 2
          split <;> decide
        rw [jobStart_eq, hdata, if_neg Bool.false_ne_true]
        exact jobEnd_fault_ended hkind hq rfl htaken.faulted htaken.free htaken.room (beside_started (.refl [2, 5] _) _)
  · have htaken : Taken s q i u := hu ▸ taken_atDesc hq hroom
    obtain ⟨hhandles, hheld, -, hidle⟩ := htaken.keeps
    have hnone := run_of_takes htakes
    rw [exec_confirm_takes hu htakes hroom, ← hhandles, ← hheld]
    refine ⟨fun hunheld => ?_, fun h p hfind hp haddrs hrun ok hok => ?_⟩
    · rw [confirmDesc_unheld hclass hunheld]
      obtain ⟨t, hend, hposted, -, hkept⟩ := completed_invalid hq htaken.faulted htaken.free htaken.room 5
      exact ⟨t, hend, hposted, hkept⟩
    · rw [confirmDesc_accepts hclass hfind hp haddrs hrun, ← hok]
      refine ⟨fun hsame hcalm => ?_, fun hdiffers hdata => ?_⟩
      · have hstatus : h.rec_.status = 0 := by
          rw [hsame] at hok
          exact of_decide_eq_true (Bool.and_eq_true _ _ ▸ hok.symm).2
        rw [hsame, if_pos rfl, ← hnone, ← hidle]
        exact keepHeld_completes hq htaken.faulted htaken.free htaken.room hp hstatus hcalm
      · rw [hdiffers, if_neg Bool.false_ne_true]
        have hdata' := (jobData_congr (t := withoutHeld u h) rfl rfl _).symm ▸ hdata
        obtain ⟨t, hend, hfact, hdram, -⟩ := jobStart_runs (u := withoutHeld u h) htaken.faulted hdata'
        exact ⟨t, hend, by rw [hfact]; rfl, by rw [hfact], hdram.trans htaken.dram⟩

end Sys2Proof.Proofs
end

section
/-!
PROOFS. The course of a solve (chapter 7, R169, R173, R177): a factorisation with a bad pivot, and a job whose TAG is not its
descriptor's.
-/

namespace Sys2Proof.Proofs

open Sys2Proof.Machine Sys2Proof.Laws

variable {s u : State} {j : Solve}

/-- A bad pivot ends the job once the step's requests are issued. -/
theorem factorDone_pivotFault {piv : List Word} (hrun : s.fact.run = some j) (hphase : j.phase = .factorising)
    (hroom : issuable s j.cls (factorCost s j)) (hpivots : pivotFault (jobPattern s j).n (jobPattern s j).m piv = true) :
    factorDone s piv = jobEnd (stepped s j.cls (factorCost s j)) j 5 := by
  have hstep := factStep_of_room hroom.1 fun t => jobEnd t j 5
  unfold factorDone
  rw [hrun]
  simp only [hphase, hpivots, ne_eq, not_true_eq_false, if_false, if_true]
  exact hstep

/-- The record of a job that ends NUMERIC_FAULT carries its descriptor's TAG, whatever the job's. -/
theorem jobEnd_fault_tag (hkind : j.kind ≠ 2) (hq : j.q < 2) (hfaulted : u.toll.faulted = s.toll.faulted)
    (hfree : cqFree u j.q = true) (hroom : issuable u (clsOf (leAt j.desc 2 1)) 1) (hram : cqAddr u j.q + 64 ≤ Config.dramBytes) :
    ∃ t, finishGuard s (budgetSettle s (jobEnd u j 5)) = .next t ∧ ramNat t (cqAddr u j.q) 4 = leAt j.desc 4 4 % 2 ^ 32 := by
  have hbeside := beside_faulted (.refl [2, 5] u) j
  obtain ⟨t, hend, hdone⟩ := completed_complete hq hfaulted hfree hbeside (hbeside.issuable hroom) (jobCompl u j 5 j.x) j.start
  obtain ⟨-, -, -, hrecord⟩ := hdone.posted
  rw [jobEnd_fault hkind]
  exact ⟨t, hend, (hrecord hram).1⟩

/-- A factorising job of TAG 1 from a SOLVE descriptor of class OPERATOR and TAG 0. -/
def mistagged : Solve :=
  { id := 0, age := 0, q := 0, desc := [1, 0, 2], addrs := [], eps := [], maxIter := 1, timeLimit := 0, check := 1, mu := 2, tau := 2,
    adapt := false, handle := 0, tag := 1, cls := .operator, kind := 0, phase := .factorising, rho := 0, iter := 0, refact := 0,
    sinceAdapt := 0, clamped := false, suspended := false, x := [], z := [], y := [], xPrev := [], yPrev := [], rPrim := 0,
    rDual := 0, start := 0, spent := 0, since := 0, waited := 0 }

/-- Factor from power-on with the job running on a pattern of one variable and no row. -/
def mistaggedRun : State :=
  { State.reset with fact := { Fact.reset with run := some mistagged, handles := [(0, ⟨1, 0, 0, 0, 0, []⟩)] } }

theorem mistaggedRun_hypotheses : factRoom mistaggedRun .operator (factorCost mistaggedRun mistagged + 1) = true ∧
    cqFree mistaggedRun 0 = true ∧ cqAddr mistaggedRun 0 = 0 ∧
    pivotFault (jobPattern mistaggedRun mistagged).n (jobPattern mistaggedRun mistagged).m [0] = true := by
  decide +kernel

theorem mistaggedRun_stepped : ∀ u, u = stepped mistaggedRun .operator (factorCost mistaggedRun mistagged) →
    u.toll.faulted = mistaggedRun.toll.faulted ∧ cqFree u 0 = true ∧ factRoom u .operator 1 = true ∧ cqAddr u 0 = 0 := by
  rintro _ rfl
  decide +kernel

theorem mistaggedRun_record : ∃ t, exec (.factorisationDone [0]) mistaggedRun = .next t ∧ ramNat t 0 4 = 0 := by
  obtain ⟨hroom, -, -, hpivots⟩ := mistaggedRun_hypotheses
  obtain ⟨u, hu⟩ : ∃ u, u = stepped mistaggedRun .operator (factorCost mistaggedRun mistagged) := ⟨_, rfl⟩
  obtain ⟨hfaulted, hfree, hrecord, haddr⟩ := mistaggedRun_stepped u hu
  have hdone : factorDone mistaggedRun [0] = jobEnd u mistagged 5 :=
    hu ▸ factorDone_pivotFault rfl rfl (issuable_mono (Nat.le_add_right _ 1) (issuable_of_factRoom hroom)) hpivots
  have hexec : exec (.factorisationDone [0]) mistaggedRun =
      finishGuard mistaggedRun (budgetSettle mistaggedRun (jobEnd u mistagged 5)) := by
    rw [← hdone]
    rfl
  have haddr' : cqAddr u mistagged.q = 0 := haddr
  obtain ⟨t, hend, htag⟩ := jobEnd_fault_tag (j := mistagged) (by decide) (by decide) hfaulted hfree
    (issuable_of_factRoom hrecord) (by rw [haddr']; decide)
  rw [haddr'] at htag
  exact ⟨t, hexec.trans hend, htag⟩

/-- Refutes O40: the statement takes every job that may stand in Factor's state, one whose TAG is not its descriptor's among them.
On a pivot of 0 the solve of `mistaggedRun` ends NUMERIC_FAULT, and its record carries the descriptor's TAG 0 (R169), where the
statement says the job's TAG 1. A job of its descriptor's TAG that is no re-solve ends as the statement says
(`jobEnd_fault_ended`). -/
theorem not_solveTakesItsCourse : ¬ Obligations.SolveTakesItsCourse := by
  unfold Obligations.SolveTakesItsCourse
  intro h
  obtain ⟨hroom, hfree, haddr, hpivots⟩ := mistaggedRun_hypotheses
  have haddr' : cqAddr mistaggedRun mistagged.q = 0 := haddr
  obtain ⟨hjob, -⟩ := h mistaggedRun
  obtain ⟨hfactorised, -⟩ := hjob mistagged rfl (by decide)
  obtain ⟨-, hbad, -⟩ := hfactorised [0] rfl hroom
  obtain ⟨t, hexec, ⟨-, -, ⟨-, -, -, hrecord⟩, -⟩, -⟩ := hbad hfree hpivots
  obtain ⟨u, hexec', htag⟩ := mistaggedRun_record
  cases hexec.symm.trans hexec'
  rw [haddr'] at hrecord
  obtain ⟨hone, -⟩ := hrecord (by decide)
  rw [htag] at hone
  cases hone

end Sys2Proof.Proofs
end

section
/-!
PROOFS. The Daybook's ring and DRAIN_SEQ (chapter 8, R201, R202, R205): what a reserved entry leaves as it is written, and what
the staged pair of DRAIN_SEQ commits.
-/

namespace Sys2Proof.Proofs

open Sys2Proof.Machine Sys2Proof.Laws

/-! ### Staged words (R351) -/

/-- A register that is RW throughout is staged as it is written. -/
theorem stage_whole (s : State) (w : Who) {a : Nat} {r : RegRow} (v : Word) (hr : rowOf a = some r) (hrw : r.rw = full) :
    stage s w a v = { s with staged := ins s.staged (initKey w a) v } := by
  have hmask : v &&& w32 full = v := BitVec.and_allOnes
  unfold stage
  rw [hr]
  dsimp only
  rw [hrw, hmask]

theorem stagedOr_congr {s t : State} (h : t.staged = s.staged) (w : Who) (a : Nat) (cur : Word) :
    stagedOr t w a cur = stagedOr s w a cur := by
  unfold stagedOr
  rw [h]

/-- The words of an initiator have keys of their own. -/
theorem initKey_inj {w : Who} {a b : Nat} : initKey w a = initKey w b ↔ a = b := by
  unfold initKey
  omega

/-! ### The page DAYB -/

/-- From 0x080 on, the registers of DAYB are its block's. -/
theorem writeEffect_dayb (s : State) (i : Init) {o : Nat} (v : Word) (hr : (rowOf (reg pDAYB o)).isNone = false)
    (hlow : 0x080 ≤ o) (ho : o < 4096) : writeEffect s i (reg pDAYB o) v = writeDayb s i.who o v := by
  unfold writeEffect writeBlock
  dsimp only
  rw [hr, pageOf_reg _ ho, offOf_reg _ ho]
  simp [isLoopbank, pDAYB, pMOD, pPROT, pINTC, pFLTM, pTOLL, pLAC, pSCAN, pSCANDBG, pPGMX, pFORCE, pWGHEN, pWGHPQ, pFACT,
    pFACTQ, pPTS, Nat.not_lt.2 hlow]

/-- The two halves of DRAIN_SEQ are RW throughout. -/
theorem rowOf_drainSeqLo : rowOf (reg pDAYB 0x094) = some (rRW 0x094 full 0 2) := by decide

theorem rowOf_drainSeqHi : rowOf (reg pDAYB 0x098) = some (rRW 0x094 full 0 2) := by decide

/-- A write to DRAIN_SEQ is not logged (R200). -/
theorem logsWrite_drainSeqHi (v : Word) : logsWrite (reg pDAYB 0x098) v = false := by
  simp [logsWrite]

theorem rdB_evDayb_same (s : State) {b : Nat} (hb : b < 32) : rdB (ev s pDAYB b) (reg pDAYB 0x084) b = true := by
  rw [rdB, rd_ev_same s b evtAddr_dayb, bit_or, bit_w32_pow b hb, decide_eq_true rfl, Bool.or_true]

/-! ### The commands -/

theorem exec_dayEntryWrite (s : State) : exec .dayEntryWrite s = finish s (dayWrite s) := rfl
theorem exec_drainSeqLo (i : Init) (v : Word) (s : State) :
    exec (.drainSeqLo i v) s = finishClock s (submitWrite s i (reg pDAYB 0x094) v) := rfl
theorem exec_drainSeqHi (i : Init) (v : Word) (s : State) :
    exec (.drainSeqHi i v) s = finishClock s (submitWrite s i (reg pDAYB 0x098) v) := rfl

/-- What the first reserved entry leaves in the Daybook as it is written. -/
theorem dayWrite_dayb {s : State} {e : DayEntry} {es : List DayEntry} (h : s.dayb.reserved = e :: es) :
    (dayWrite s).dayb = { s.dayb with reserved := es, ring := ins s.dayb.ring (e.seq % 16384) e } := by
  unfold dayWrite
  rw [h]
  exact evIf_dayb ..

/-- A gap entry raises EVT.GAP as it is written (R205). -/
theorem dayWrite_gap {s : State} {e : DayEntry} {es : List DayEntry} (h : s.dayb.reserved = e :: es) (hgap : e.gap = true) :
    rdB (dayWrite s) (reg pDAYB 0x084) 4 = true := by
  unfold dayWrite
  rw [h]
  dsimp only
  rw [hgap]
  exact rdB_evDayb_same _ (by decide)

/-- DAYBOOK_ENTRY_WRITE. -/
theorem dayEntryWrite_writes {s : State} {e : DayEntry} {es : List DayEntry} (h : s.dayb.reserved = e :: es) :
    ∃ t, exec .dayEntryWrite s = .next t ∧ t.dayb.reserved = es ∧
      get? t.dayb.ring (e.seq % 16384) = some e ∧ (e.gap = true → rdB t (reg pDAYB 0x084) 4 = true) ∧
      t.dayb.head = s.dayb.head ∧ t.dayb.drain = s.dayb.drain ∧
      ∀ k, k ≠ e.seq % 16384 → get? t.dayb.ring k = get? s.dayb.ring k := by
  rw [exec_dayEntryWrite, finish_next]
  dsimp only
  rw [settle_dayb, dayWrite_dayb h]
  exact ⟨rfl, get?_ins_same _ _ _, dayWrite_gap h, rfl, rfl, fun k hk => get?_ins_other _ _ hk⟩

/-- DRAIN_SEQ_LO: the low half is held for its initiator. -/
theorem drainSeqLo_stages {s : State} {i : Init} {v : Word} (h : clear s i (reg pDAYB 0x094) v = true) :
    ∃ t, exec (.drainSeqLo i v) s = .next t ∧ t.dayb.drain = s.dayb.drain ∧
      stagedOr t i.who (reg pDAYB 0x094) 0 = v := by
  rw [exec_drainSeqLo]
  refine row_clear h (by decide) fun s' t hl hd => ?_
  have heffect : writeEffect s' ⟨i.who, clsFor s i⟩ (reg pDAYB 0x094) v =
      { s' with staged := ins s'.staged (initKey i.who (reg pDAYB 0x094)) v } := by
    rw [writeEffect_dayb _ _ v (by decide) (by decide) (by decide)]
    exact stage_whole s' i.who v rowOf_drainSeqLo rfl
  rw [heffect] at hd
  refine ⟨(congrArg Dayb.drain hd.dayb).trans hl.drain, ?_⟩
  unfold stagedOr
  rw [hd.staged, get?_ins_same]
  rfl

/-- A value that neither lowers DRAIN_SEQ nor passes HEAD_SEQ is committed (R202). -/
theorem drainCommit_taken {s : State} {n : Nat} (hlow : s.dayb.drain ≤ n) (hhigh : n ≤ s.dayb.head) :
    (drainCommit s n).dayb.drain = n := by
  unfold drainCommit
  rw [if_pos ⟨hlow, hhigh⟩]

/-- Any other value is ignored in full, with EVT.DRAIN_ERR. -/
theorem drainCommit_ignored {s : State} {n : Nat} (h : n < s.dayb.drain ∨ s.dayb.head < n) :
    drainCommit s n = ev s pDAYB 3 := by
  unfold drainCommit
  exact if_neg (by omega)

/-- DRAIN_SEQ_HI: the pair is committed, the Daybook's state being that of the start. -/
theorem drainSeqHi_commits {s : State} {i : Init} {v : Word} {n : Nat}
    (hn : n = v.toNat * 2 ^ 32 + (stagedOr s i.who (reg pDAYB 0x094) (lo32 s.dayb.drain)).toNat)
    (h : clear s i (reg pDAYB 0x098) v = true) :
    ∃ t, exec (.drainSeqHi i v) s = .next t ∧ ∃ u, u.dayb = s.dayb ∧ Done s (drainCommit u n) t := by
  rw [exec_drainSeqHi]
  refine row_clear_unlogged h (by decide) (logsWrite_drainSeqHi v) fun s' t hl hdayb _ _ hd => ?_
  have heffect : writeEffect s' ⟨i.who, clsFor s i⟩ (reg pDAYB 0x098) v =
      drainCommit (unstage s' i.who [reg pDAYB 0x094]) n := by
    rw [writeEffect_dayb _ _ v (by decide) (by decide) (by decide), hn, ← hdayb, ← stagedOr_congr hl.staged]
    rfl
  exact ⟨unstage s' i.who [reg pDAYB 0x094], hdayb, heffect ▸ hd⟩

/-- Settles O43: the written entry is put into the ring under its slot's key alone; the high half of DRAIN_SEQ finds the pair as
it was staged and the Daybook as it stood, for its write is not logged. -/
theorem daybookRing : Obligations.DaybookRing := by
  unfold Obligations.DaybookRing
  refine fun s => ⟨fun e es => dayEntryWrite_writes, fun i v => ⟨drainSeqLo_stages, fun n hn h => ?_⟩⟩
  obtain ⟨t, hexec, u, hdayb, hd⟩ := drainSeqHi_commits hn h
  refine ⟨fun hlow hhigh => ⟨t, hexec, ?_⟩, fun hout => ⟨t, hexec, ?_⟩⟩
  · rw [hd.dayb]
    exact drainCommit_taken (hdayb ▸ hlow) (hdayb ▸ hhigh)
  · rw [drainCommit_ignored (hdayb.symm ▸ hout)] at hd
    rw [hd.dayb, ev_dayb, hdayb, rdB, hd.rd]
    exact ⟨rfl, rdB_evDayb_same u (by decide)⟩

end Sys2Proof.Proofs
end

section
/-!
PROOFS. The point store (chapter 8, R188–R199): how a record shows, and what a definition commits.
-/

namespace Sys2Proof.Proofs

open Sys2Proof.Machine Sys2Proof.Laws

/-! ### Records -/

theorem point_congr {s t : State} (h : t.pts = s.pts) (n : Nat) : point t n = point s n := by
  unfold point
  rw [h]

@[simp] theorem point_changePoint_same (s : State) (n level ord : Nat) (p : Point) :
    point (changePoint s n level ord p) n = p := look_put_same _ _ _ _

theorem point_changePoint_other (s : State) {n q : Nat} (level ord : Nat) (p : Point) (h : q ≠ n) :
    point (changePoint s n level ord p) q = point s q := look_put_other _ _ _ _ h

/-! ### Who sees a record (R195, R196) -/

theorem tenantOf_congr {s t : State} (h : t.opx = s.opx) (w : Who) : tenantOf t w = tenantOf s w := by
  unfold tenantOf session
  rw [h]

theorem origin_congr {s t : State} (h : t.opx = s.opx) (w : Who) : origin t w = origin s w := by
  unfold origin
  rw [tenantOf_congr h]

theorem shownPoint_congr {s t : State} (hpts : t.pts = s.pts) (hopx : t.opx = s.opx) (w : Who) (n : Nat) :
    shownPoint t w n = shownPoint s w n := by
  unfold shownPoint visible
  rw [point_congr hpts, tenantOf_congr hopx]

theorem selRecord_congr {s t : State} (h : t.defSel = s.defSel) (w : Who) : selRecord t w = selRecord s w := by
  unfold selRecord
  rw [h]

/-! ### The priority array resolved (R190) -/

/-- Resolving a record sets its VALUE, LEVEL and QUALITY alone. -/
theorem resolve_eq (p : Point) : ∃ v l q, p.resolve = { p with value := v, level := l, qual := q } := by
  unfold Point.resolve
  split
  · exact ⟨_, _, _, rfl⟩
  · split <;> exact ⟨_, _, _, rfl⟩

/-- An empty array leaves RELINQUISH at LEVEL 0, GOOD. -/
theorem resolve_empty {p : Point} (hcls : p.cls ≠ 1) (hpa : p.pa = []) :
    p.resolve = { p with value := p.relq, level := 0, qual := qGOOD } := by
  unfold Point.resolve
  rw [if_neg hcls, hpa]
  rfl

/-- A stamp sets TIMESTAMP alone. -/
theorem stamp_eq (old new : Point) (pos : Nat) : ∃ ts, Point.stamp old new pos = { new with ts := ts } := by
  unfold Point.stamp
  split <;> exact ⟨_, rfl⟩

/-! ### A definition (R199) -/

/-- The record that a definition makes of one with CLASS NONE. -/
def deletedPoint (old : Point) : Point := { Point.absent with retired := old.retired }

/-- The fields that a definition gives a record of another CLASS than NONE. -/
def definedPoint (old : Point) (cfg eu relq : Word) : Point :=
  { old with cls := fld cfg 8 2, ty := tyOfCode (fld cfg 12 2), tenant := fld cfg 0 8, priv := bit cfg 10
             relq := relq, eu := eu }

section

variable {s : State} {n : Nat} {old : Point} {cfg eu relq : Word}

/-- CLASS NONE deletes the record. -/
theorem defineAt_none (h : fld cfg 8 2 = 0) : defineAt s n old cfg eu relq = changePoint s n 18 0 (deletedPoint old) := by
  unfold defineAt
  dsimp only
  rw [if_pos h]
  rfl

/-- A definition of the same CLASS keeps the priority array, and VALUE, LEVEL, QUALITY and TIMESTAMP follow from it. -/
theorem defineAt_sameClass (h : fld cfg 8 2 ≠ 0) (hcls : fld cfg 8 2 = old.cls) : ∃ v l q ts,
    defineAt s n old cfg eu relq =
      changePoint s n 18 0 { definedPoint old cfg eu relq with value := v, level := l, qual := q, ts := ts } := by
  unfold defineAt
  dsimp only
  rw [if_neg h, if_pos hcls]
  split
  · exact ⟨_, _, _, _, rfl⟩
  · obtain ⟨v, l, q, hresolve⟩ := resolve_eq (definedPoint old cfg eu relq)
    obtain ⟨ts, hstamp⟩ := stamp_eq old { definedPoint old cfg eu relq with value := v, level := l, qual := q } (count s)
    have hpoint := (congrArg (Point.stamp old · (count s)) hresolve).trans hstamp
    exact ⟨v, l, q, ts, congrArg (changePoint s n 18 0) hpoint⟩

/-- A new CLASS empties the priority array: an INPUT reads 0 STALE. -/
theorem defineAt_newInput (hcls : fld cfg 8 2 ≠ old.cls) (hinput : fld cfg 8 2 = 1) :
    defineAt s n old cfg eu relq = changePoint s n 18 0
      { definedPoint old cfg eu relq with pa := [], value := 0, level := 0xFF, qual := qSTALE, ts := count s } := by
  unfold defineAt
  dsimp only
  rw [if_neg (by omega), if_neg hcls, if_pos hinput]
  rfl

/-- Every other point of a new CLASS reads RELINQUISH at LEVEL 0, GOOD. -/
theorem defineAt_newClass (h : fld cfg 8 2 ≠ 0) (hcls : fld cfg 8 2 ≠ old.cls) (hinput : fld cfg 8 2 ≠ 1) :
    defineAt s n old cfg eu relq = changePoint s n 18 0
      { definedPoint old cfg eu relq with pa := [], value := relq, level := 0, qual := qGOOD, ts := count s } := by
  unfold defineAt
  dsimp only
  rw [if_neg h, if_neg hcls, if_neg hinput, resolve_empty hinput rfl]
  rfl

/-- A definition replaces its record and does nothing else. -/
theorem defineAt_eq_changePoint (s : State) (n : Nat) (old : Point) (cfg eu relq : Word) :
    ∃ p, defineAt s n old cfg eu relq = changePoint s n 18 0 p := by
  unfold defineAt
  dsimp only
  split
  · exact ⟨_, rfl⟩
  · split
    · exact ⟨_, rfl⟩
    · split <;> exact ⟨_, rfl⟩

@[simp] theorem defineAt_staged (s : State) (n : Nat) (old : Point) (cfg eu relq : Word) :
    (defineAt s n old cfg eu relq).staged = s.staged := by
  obtain ⟨p, hp⟩ := defineAt_eq_changePoint s n old cfg eu relq
  rw [hp]
  rfl

theorem point_defineAt_other {q : Nat} (h : q ≠ n) : point (defineAt s n old cfg eu relq) q = point s q := by
  obtain ⟨p, hp⟩ := defineAt_eq_changePoint s n old cfg eu relq
  rw [hp, point_changePoint_other s 18 0 p h]

/-- What a record reads after a definition with another CLASS than NONE (R199). -/
theorem point_defineAt_some {p : Point} (hp : p = point (defineAt s n old cfg eu relq) n) (h : fld cfg 8 2 ≠ 0) :
    p.cls = fld cfg 8 2 ∧ p.tenant = fld cfg 0 8 ∧ p.priv = bit cfg 10 ∧ p.ty = tyOfCode (fld cfg 12 2) ∧ p.eu = eu ∧
      p.relq = relq ∧ (fld cfg 8 2 = old.cls → p.pa = old.pa) ∧
      (fld cfg 8 2 ≠ old.cls → p.pa = [] ∧ p.ts = count s ∧
        (fld cfg 8 2 = 1 → p.value = 0 ∧ p.level = 0xFF ∧ p.qual = 2) ∧
        (fld cfg 8 2 ≠ 1 → p.value = p.relq ∧ p.level = 0 ∧ p.qual = 1)) := by
  by_cases hcls : fld cfg 8 2 = old.cls
  · obtain ⟨v, l, q, ts, hsame⟩ := defineAt_sameClass (s := s) (n := n) (eu := eu) (relq := relq) h hcls
    rw [hsame, point_changePoint_same] at hp
    subst hp
    exact ⟨rfl, rfl, rfl, rfl, rfl, rfl, fun _ => rfl, fun hnew => absurd hcls hnew⟩
  · by_cases hinput : fld cfg 8 2 = 1
    · rw [defineAt_newInput hcls hinput, point_changePoint_same] at hp
      subst hp
      exact ⟨rfl, rfl, rfl, rfl, rfl, rfl, fun hsame => absurd hsame hcls,
        fun _ => ⟨rfl, rfl, fun _ => ⟨rfl, rfl, rfl⟩, fun hother => absurd hinput hother⟩⟩
    · rw [defineAt_newClass h hcls hinput, point_changePoint_same] at hp
      subst hp
      exact ⟨rfl, rfl, rfl, rfl, rfl, rfl, fun hsame => absurd hsame hcls,
        fun _ => ⟨rfl, rfl, fun h => absurd h hinput, fun _ => ⟨rfl, rfl, rfl⟩⟩⟩

end

/-! ### The registers of PTS -/

/-- From 0x080 on, the registers of PTS are its block's. -/
theorem writeEffect_pts (s : State) (i : Init) {o : Nat} (v : Word) (hr : (rowOf (reg pPTS o)).isNone = false)
    (hlow : 0x080 ≤ o) (ho : o < 4096) : writeEffect s i (reg pPTS o) v = writePts s i.who o v := by
  unfold writeEffect writeBlock
  dsimp only
  rw [hr, pageOf_reg _ ho, offOf_reg _ ho]
  simp [isLoopbank, pPTS, pMOD, pPROT, pINTC, pFLTM, pTOLL, pLAC, pSCAN, pSCANDBG, pPGMX, pFORCE, pWGHEN, pWGHPQ, pFACT,
    pFACTQ, Nat.not_lt.2 hlow]

/-- DEF_EU and DEF_RELQ. -/
def defStageOff (relq : Bool) : Nat := if relq then 0x094 else 0x090

theorem rowOf_defStage (relq : Bool) :
    rowOf (reg pPTS (defStageOff relq)) = some (rRW (defStageOff relq) full) := by
  cases relq <;> decide

/-! ### The commands -/

theorem exec_defSel (i : Init) (v : Word) (s : State) :
    exec (.defSel i v) s = finishClock s (submitWrite s i (reg pPTS 0x088) v) := rfl
theorem exec_defStage (i : Init) (relq : Bool) (v : Word) (s : State) :
    exec (.defStage i relq v) s = finishClock s (submitWrite s i (reg pPTS (defStageOff relq)) v) := rfl
theorem exec_defCfg (i : Init) (v : Word) (s : State) :
    exec (.defCfg i v) s = finishClock s (submitWrite s i (reg pPTS 0x08C) v) := rfl

/-- DEF_SEL: the record selected for the initiator alone. -/
theorem defSel_selects {s : State} {i : Init} {v : Word} (h : clear s i (reg pPTS 0x088) v = true) :
    ∃ t, exec (.defSel i v) s = .next t ∧ selRecord t i.who = fld v 0 16 ∧ t.pts = s.pts ∧
      ∀ w, whoIdx w ≠ whoIdx i.who → selRecord t w = selRecord s w := by
  rw [exec_defSel]
  refine row_clear h (by decide) fun s' t hl hd => ?_
  have heffect : writeEffect s' ⟨i.who, clsFor s i⟩ (reg pPTS 0x088) v =
      { s' with defSel := put 0 s'.defSel (whoIdx i.who) (fld v 0 16) } :=
    writeEffect_pts _ _ v (by decide) (by decide) (by decide)
  rw [heffect] at hd
  refine ⟨?_, hd.pts.trans hl.pts, fun w hw => ?_⟩
  · rw [selRecord_congr hd.defSel]
    exact look_put_same _ _ _ _
  · rw [selRecord_congr hd.defSel, ← selRecord_congr hl.defSel]
    exact look_put_other _ _ _ _ hw

/-- DEF_EU and DEF_RELQ are staged for their initiator alone. -/
theorem defStage_stages {s : State} {i : Init} {v : Word} {relq : Bool}
    (h : clear s i (reg pPTS (defStageOff relq)) v = true) :
    ∃ t, exec (.defStage i relq v) s = .next t ∧ t.pts = s.pts ∧ stagedOr t i.who (reg pPTS (defStageOff relq)) 0 = v ∧
      ∀ k, k ≠ initKey i.who (reg pPTS (defStageOff relq)) → get? t.staged k = get? s.staged k := by
  have hrow := rowOf_defStage relq
  rw [exec_defStage]
  refine row_clear h (by cases relq <;> decide) fun s' t hl hd => ?_
  have hstage : writePts s' i.who (defStageOff relq) v = stage s' i.who (reg pPTS (defStageOff relq)) v := by
    cases relq <;> rfl
  rw [writeEffect_pts _ _ v (by rw [hrow]; rfl) (by cases relq <;> decide) (by cases relq <;> decide), hstage,
    stage_whole s' i.who v hrow rfl] at hd
  refine ⟨hd.pts.trans hl.pts, ?_, fun k hk => ?_⟩
  · unfold stagedOr
    rw [hd.staged, get?_ins_same]
    rfl
  · rw [hd.staged, get?_ins_other _ _ hk, hl.staged]

/-- The staged words of a definition are gone at its commit. -/
theorem get?_unstage_def (s : State) (w : Who) :
    get? (unstage s w [reg pPTS 0x090, reg pPTS 0x094]).staged (initKey w (reg pPTS 0x090)) = none ∧
      get? (unstage s w [reg pPTS 0x090, reg pPTS 0x094]).staged (initKey w (reg pPTS 0x094)) = none := by
  have hne : initKey w (reg pPTS 0x090) ≠ initKey w (reg pPTS 0x094) := fun h => absurd (initKey_inj.1 h) (by decide)
  refine ⟨?_, get?_del_same _ _⟩
  exact (get?_del_other _ hne).trans (get?_del_same _ _)

/-- DEF_CFG: the selected record, as it shows to the initiator, takes the definition with the words staged. -/
theorem defCfg_defines {s : State} {i : Init} {v : Word} {n : Nat} {o : Point} (h : clear s i (reg pPTS 0x08C) v = true)
    (hn : n = selRecord s i.who) (ho : o = shownPoint s i.who n) :
    ∃ t, exec (.defCfg i v) s = .next t ∧ ∃ u, u.pts = s.pts ∧ count u = count s ∧
      t.staged = (unstage s i.who [reg pPTS 0x090, reg pPTS 0x094]).staged ∧
      t.pts = (defineAt u n o v (stagedOr s i.who (reg pPTS 0x090) o.eu) (stagedOr s i.who (reg pPTS 0x094) o.relq)).pts := by
  rw [exec_defCfg]
  refine row_clear h (by decide) fun s' t hl hd => ?_
  have heffect : writeEffect s' ⟨i.who, clsFor s i⟩ (reg pPTS 0x08C) v =
      defineAt (unstage s' i.who [reg pPTS 0x090, reg pPTS 0x094]) n o v (stagedOr s i.who (reg pPTS 0x090) o.eu)
        (stagedOr s i.who (reg pPTS 0x094) o.relq) := by
    rw [writeEffect_pts _ _ v (by decide) (by decide) (by decide), ho, hn, ← selRecord_congr hl.defSel,
      ← shownPoint_congr hl.pts hl.opx, ← stagedOr_congr hl.staged, ← stagedOr_congr hl.staged]
    rfl
  rw [heffect] at hd
  refine ⟨unstage s' i.who [reg pPTS 0x090, reg pPTS 0x094], hl.pts, count_congr hl.clk, ?_, hd.pts⟩
  rw [hd.staged, defineAt_staged, unstage, unstage, hl.staged]

/-- Settles O42: each command has its register's effect; DEF_CFG finds the selection, the record as it shows and the staged words
as they stood, and the definition's cases are those of its CLASS. -/
theorem pointDefinitions : Obligations.PointDefinitions := by
  unfold Obligations.PointDefinitions
  refine fun s i v => ⟨defSel_selects, fun relq => defStage_stages, fun n o h hn ho => ?_⟩
  obtain ⟨t, hexec, u, hu, hcount, hstaged, hpts⟩ := defCfg_defines h hn ho
  have hpoint (q : Nat) := point_congr hpts q
  obtain ⟨heu, hrelq⟩ := get?_unstage_def s i.who
  refine ⟨t, hexec, fun q hq => ?_, by rw [hstaged, heu], by rw [hstaged, hrelq], fun hnone => ?_, fun hsome => ?_⟩
  · rw [hpoint, point_defineAt_other hq, point_congr hu]
  · rw [hpoint, defineAt_none hnone, point_changePoint_same]
    rfl
  · rw [← hcount]
    exact point_defineAt_some (hpoint n) hsome

end Sys2Proof.Proofs
end

section
/-!
PROOFS. Commanded writes (chapter 8, R189–R194): the priority array, the way of a COMMAND word to its record, and what it leaves
there.
-/

namespace Sys2Proof.Proofs

open Sys2Proof.Machine Sys2Proof.Laws

/-! ### The priority array (R190) -/

theorem get?_ins {α : Type} (m : List (Nat × α)) (a b : Nat) (v : α) :
    get? (ins m a v) b = if b = a then some v else get? m b := by
  split
  · subst b
    exact get?_ins_same m a v
  · exact get?_ins_other m v ‹_›

theorem get?_del {α : Type} (m : List (Nat × α)) (a b : Nat) : get? (del m a) b = if b = a then none else get? m b := by
  split
  · subst b
    exact get?_del_same m a
  · exact get?_del_other m ‹_›

theorem lowest_eq_none {m : List (Nat × Word)} : lowest m = none ↔ m = [] := by
  cases m with
  | nil => simp [lowest]
  | cons e m =>
    simp only [lowest, reduceCtorEq, iff_false]
    split
    · simp
    · split <;> simp

/-- The lowest-numbered occupied level with its entry. -/
theorem lowest_spec {m : List (Nat × Word)} {e : Nat × Word} (h : lowest m = some e) :
    get? m e.1 = some e.2 ∧ ∀ l v, get? m l = some v → e.1 ≤ l := by
  induction m generalizing e with
  | nil => cases h
  | cons f m ih =>
    obtain ⟨k, x⟩ := f
    unfold lowest at h
    split at h
    · rename_i hrest
      cases h
      rw [lowest_eq_none.1 hrest]
      simp [get?]
    · rename_i g hrest
      obtain ⟨hentry, hleast⟩ := ih hrest
      split at h
      · rename_i hlt
        cases h
        refine ⟨?_, fun l v hl => ?_⟩
        · rw [get?, if_neg (by omega), hentry]
        · unfold get? at hl
          split at hl
          · omega
          · exact hleast l v hl
      · rename_i hge
        cases h
        refine ⟨by simp [get?], fun l v hl => ?_⟩
        unfold get? at hl
        split at hl
        · exact le_of_eq ‹_›
        · exact (not_lt.1 hge).trans (hleast l v hl)

/-- A record that is not an INPUT point shows its lowest-numbered occupied level when resolved (R190). -/
theorem resolved_resolve {p : Point} (hcls : p.cls ≠ 1) : resolved p.resolve := by
  cases hlow : lowest p.pa with
  | none =>
    have hempty := lowest_eq_none.1 hlow
    rw [resolve_empty hcls hempty]
    unfold resolved
    simp [hempty, get?]
  | some e =>
    obtain ⟨hentry, hleast⟩ := lowest_spec hlow
    have hresolve : p.resolve = { p with value := e.2, level := e.1, qual := qGOOD } := by
      unfold Point.resolve
      rw [if_neg hcls, hlow]
    rw [hresolve]
    refine ⟨hleast, fun _ => hentry, fun hnone => ?_⟩
    cases (hnone e.1).symm.trans hentry

/-! ### An accepted write (R190, R192) -/

/-- TIMESTAMP moves when, and only when, what readers see of the record does. -/
theorem stamped_stamp (old new : Point) (pos : Nat) : stamped old (Point.stamp old new pos) pos := by
  unfold Point.stamp
  split
  · rename_i hsame
    obtain ⟨hseen, hqual, hlevel⟩ := hsame
    refine ⟨fun _ _ _ => rfl, ?_⟩
    rintro (h | h | h)
    exacts [absurd hseen h, absurd hqual h, absurd hlevel h]
  · rename_i hdiffers
    exact ⟨fun hseen hqual hlevel => absurd ⟨hseen, hqual, hlevel⟩ hdiffers, fun _ => rfl⟩

/-- What an accepted write leaves of the record that it writes. -/
structure Accepted (old new : Point) (w : Word) (pos : Nat) (p : Point) : Prop where
  resolved : resolved p
  seq : p.seq = old.seq + 1
  writer : p.writer = w
  stamped : stamped old p pos
  ty : p.ty = new.ty
  cls : p.cls = new.cls
  tenant : p.tenant = new.tenant
  pa : p.pa = new.pa
  relq : p.relq = new.relq

theorem accepted_accept {new : Point} (old : Point) (w : Word) (pos : Nat) (hcls : new.cls ≠ 1) :
    Accepted old new w pos (Point.accept old new w pos) := by
  obtain ⟨v, l, q, hresolve⟩ := resolve_eq new
  obtain ⟨ts, hstamp⟩ := stamp_eq old { new.resolve with seq := old.seq + 1, writer := w } pos
  have hres := resolved_resolve hcls
  have hst : stamped old (Point.accept old new w pos) pos := stamped_stamp old _ pos
  unfold Point.accept at hst ⊢
  rw [hstamp] at hst ⊢
  refine ⟨hres, rfl, rfl, hst, ?_, ?_, ?_, ?_, ?_⟩ <;> rw [hresolve]

/-- The record that a COMMAND word asks for: its level's entry set or freed, or RELINQUISH set (R193). -/
def commanded (p : Point) (c : Nat) : Point :=
  if cmdRelqDef c then { p with relq := cmdValue c }
  else if cmdRelq c then p.free (cmdLevel c) else p.atLevel (cmdLevel c) (cmdValue c)

/-- A COMMAND word sets the priority array and RELINQUISH alone. -/
theorem commanded_eq (p : Point) (c : Nat) : ∃ pa relq, commanded p c = { p with pa := pa, relq := relq } := by
  unfold commanded
  split
  · exact ⟨_, _, rfl⟩
  · split <;> exact ⟨_, _, rfl⟩

/-- A commanded write that is the last of its fabric cycle is accepted as it asks (R191). -/
theorem point_cmdApply_same {s : State} {w : Who} {cl : Cls} {n c : Nat}
    (hlast : overruled s n (if cmdRelqDef c then 0 else cmdLevel c) (orderOf w cl) = false)
    (hwriter : lastWriter s n (orderOf w cl) (origin s w) = origin s w) :
    point (cmdApply s w cl n c) n = Point.accept (point s n) (commanded (point s n) c) (origin s w) (count s) := by
  unfold cmdApply writePoint
  dsimp only
  rw [hlast, hwriter]
  exact point_changePoint_same ..

theorem point_cmdApply_other {s : State} (w : Who) (cl : Cls) {n q : Nat} (c : Nat) (h : q ≠ n) :
    point (cmdApply s w cl n c) q = point s q :=
  point_changePoint_other s _ _ _ h

/-- A commanded write changes its record and what is kept beside it. -/
theorem cmdApply_keeps (s : State) (w : Who) (cl : Cls) (n c : Nat) : (cmdApply s w cl n c).loom = s.loom ∧
    (cmdApply s w cl n c).loops = s.loops ∧ (cmdApply s w cl n c).dram = s.dram := ⟨rfl, rfl, rfl⟩

/-! ### The COMMAND words (R193) -/

section

variable (v : Word) (L : BitVec 5)

/-- A value at a level. -/
theorem command_write : cmdRelqDef (v.toNat + L.toNat * 2 ^ 32) = false ∧ cmdRelq (v.toNat + L.toNat * 2 ^ 32) = false ∧
    cmdLevel (v.toNat + L.toNat * 2 ^ 32) = L.toNat ∧ cmdValue (v.toNat + L.toNat * 2 ^ 32) = v := by
  have hv := v.isLt
  have hL := L.isLt
  unfold cmdRelqDef cmdRelq cmdLevel cmdValue w32
  refine ⟨?_, ?_, by omega, ?_⟩
  · simp only [beq_eq_false_iff_ne]; omega
  · simp only [beq_eq_false_iff_ne]; omega
  · apply BitVec.eq_of_toNat_eq
    rw [BitVec.toNat_ofNat]
    omega

/-- Bit 39 with a level. -/
theorem command_relinquish : cmdRelqDef (L.toNat * 2 ^ 32 + 2 ^ 39) = false ∧ cmdRelq (L.toNat * 2 ^ 32 + 2 ^ 39) = true ∧
    cmdLevel (L.toNat * 2 ^ 32 + 2 ^ 39) = L.toNat := by
  have hL := L.isLt
  unfold cmdRelqDef cmdRelq cmdLevel
  refine ⟨?_, ?_, by omega⟩
  · simp only [beq_eq_false_iff_ne]; omega
  · simp only [beq_iff_eq]; omega

/-- Bit 38 with a value. -/
theorem command_setRelinquish : cmdRelqDef (v.toNat + 2 ^ 38) = true ∧ cmdValue (v.toNat + 2 ^ 38) = v := by
  have hv := v.isLt
  unfold cmdRelqDef cmdValue w32
  refine ⟨?_, ?_⟩
  · simp only [beq_iff_eq]; omega
  · apply BitVec.eq_of_toNat_eq
    rw [BitVec.toNat_ofNat]
    omega

variable (p : Point)

theorem commanded_write : commanded p (v.toNat + L.toNat * 2 ^ 32) = p.atLevel L.toNat v := by
  obtain ⟨hdef, hfree, hlevel, hvalue⟩ := command_write v L
  unfold commanded
  rw [hdef, hfree, hlevel, hvalue]
  rfl

theorem commanded_relinquish : commanded p (L.toNat * 2 ^ 32 + 2 ^ 39) = p.free L.toNat := by
  obtain ⟨hdef, hfree, hlevel⟩ := command_relinquish L
  unfold commanded
  rw [hdef, hfree, hlevel]
  rfl

theorem commanded_setRelinquish : commanded p (v.toNat + 2 ^ 38) = { p with relq := v } := by
  obtain ⟨hdef, hvalue⟩ := command_setRelinquish v
  unfold commanded
  rw [hdef, hvalue]
  rfl

end

/-! ### The way of a COMMAND word -/

/-- A request of an initiator passes ports of the fabric, then the point store's. -/
theorem cmdReq_path_le (s : State) (i : Init) (n c : Nat) : ∀ k ∈ (cmdReq s i n c).path, k ≤ 8 := by
  intro k hk
  have hpath : k ∈ fabricPath (srcRegion i.who) (some 2) ++ [7] := hk
  rcases List.mem_append.1 hpath with hk | hk
  · have := fabricPath_lt (srcRegion_le i.who) (b := some 2) (by simp) k hk
    omega
  · have := List.mem_singleton.1 hk
    omega

/-- A request that enters at once changes the accounts of TOLL alone, its tenant's rate among them. -/
theorem light_entered_rated {s u : State} {r : Req} (hk : ∀ k ∈ r.path, k ≤ 8) (h : entered s r = some u) :
    ∃ x, Light { s with toll := x } u := by
  obtain ⟨x, hx⟩ : ∃ x, rateCount s r = { s with toll := x } := by
    unfold rateCount
    dsimp only
    split <;> exact ⟨_, rfl⟩
  unfold entered at h
  split at h
  · rw [hx] at h
    exact ⟨x, (light_passes hk h).1⟩
  · cases h

/-- No commanded write of an INPUT point passes the rights stage (R189, R194). -/
theorem cls_of_cmdAllowed {u : State} {w : Who} {p : Point} {c : Nat} (h : cmdAllowed u w p c = true) : p.cls ≠ 1 := by
  unfold cmdAllowed at h
  simp only [Bool.and_eq_true, bne_iff_ne, ne_eq] at h
  obtain ⟨⟨⟨⟨⟨hcls, -⟩, -⟩, -⟩, -⟩, -⟩ := h
  exact hcls

/-- The request of a commanded write at its execution. -/
def grantedCommand (s : State) (i : Init) (n c : Nat) : Req := { cmdReq s i n c with path := [], logging := true }

/-- A commanded write that its point and the module's state let pass goes on to the Daybook (R194). -/
theorem finPlain_command {u : State} {r : Req} {n c : Nat} (k : Nat) (hbody : r.body = .command n c)
    (hvisible : visible u r.who (point u n) = true) (hallowed : cmdAllowed u r.who (point u n) c = true)
    (hlock : (mLOCK u && !(r.cls == .safety && ceiling u r.who == .safety)) = false)
    (hdram : dramAllowed u r.who = true) (hdead : (u.guard.dead && !isCore r.who) = false) :
    finPlain k u r = logStage k u r := by
  unfold finPlain
  dsimp only
  rw [hbody]
  dsimp only
  rw [hvisible, hallowed, hlock, hdram, hdead]
  rfl

/-- A commanded write that meets nothing on its way is for no INPUT point, and is executed on the state with TOLL's accounts
brought up to date. -/
theorem submitCommand_clear {s : State} {i : Init} {n c : Nat} (h : clearCommand s i n c = true) :
    (point s n).cls ≠ 1 ∧ ∃ x u, Light { s with toll := x } u ∧
      submitCommand s i n c = commandLogged u (grantedCommand s i n c) n c := by
  unfold clearCommand at h
  dsimp only at h
  simp only [Bool.and_eq_true, Bool.not_eq_true'] at h
  obtain ⟨⟨⟨⟨⟨⟨⟨hopen, henters⟩, hvisible⟩, hallowed⟩, hlock⟩, hdram⟩, hdead⟩, hbook⟩ := h
  obtain ⟨u, hu⟩ := Option.isSome_iff_exists.1 henters
  have hstore : atStore s i n c = u := by simp [atStore, hu]
  rw [hstore] at hvisible hallowed hlock hbook
  obtain ⟨x, hl⟩ := light_entered_rated (cmdReq_path_le s i n c) hu
  obtain ⟨y, hy⟩ := Option.isSome_iff_exists.1 hbook
  obtain ⟨hbooked, -, -, -⟩ := light_passes (by simp) hy
  have hguard : u.guard = s.guard := hl.guard
  have hpoint : point u n = point s n := point_congr hl.pts n
  refine ⟨cls_of_cmdAllowed hallowed, x, y, hl.trans hbooked, ?_⟩
  have hlogged : submitCommand s i n c = logStage s.toll.waiting.length u { cmdReq s i n c with path := [] } := by
    have henter : submitCommand s i n c = enter finPlain s (cmdReq s i n c) := submitPlain_open _ _ _ hopen
    rw [henter, enter_entered _ hu]
    refine finPlain_command _ rfl (hpoint.symm ▸ hvisible) (hpoint.symm ▸ hallowed) ?_ ?_ ?_
    · unfold mLOCK at hlock ⊢
      rwa [hguard]
    · unfold dramAllowed at hdram ⊢
      rwa [hguard]
    · rwa [hguard]
  rw [hlogged]
  exact walk_passes _ _ hy

/-- What R191 asks of the writes of a fabric cycle does not depend on the accounts. -/
theorem lastInCycle_light {s w : State} {x : Toll} {i : Init} {n c : Nat} (hl : Light { s with toll := x } w)
    (h : lastInCycle s i n c = true) :
    overruled w n (if cmdRelqDef c then 0 else cmdLevel c) (orderOf i.who (clsFor s i)) = false ∧
      lastWriter w n (orderOf i.who (clsFor s i)) (origin w i.who) = origin w i.who := by
  unfold lastInCycle at h
  simp only [Bool.and_eq_true, Bool.not_eq_true', beq_iff_eq] at h
  obtain ⟨hstands, hwriter⟩ := h
  have hpoint : point w n = point s n := point_congr hl.pts n
  rw [origin_congr (s := s) hl.opx]
  unfold overruled lastWriter at *
  rw [hl.past, hl.clk, hpoint]
  exact ⟨hstands, hwriter⟩

/-! ### The execution of a COMMAND word -/

/-- The answer to an initiator's own write: a reply, or the host's records. -/
theorem answer_ownWrite_frame (s : State) {r : Req} {w : Who} {a : Nat} (out : Nat) (d : List Word)
    (hs : r.sink = ownSink w a true) : (answer s r out d).loops = s.loops ∧
    (answer s r out d).dram = s.dram := by
  unfold answer ownSink at *
  dsimp only
  rw [hs]
  cases w
  case host =>
    dsimp only
    rw [if_pos rfl]
    rcases hostRecord_write s a out with hrec | ⟨x, y, hrec⟩ <;> rw [hrec]
    · exact ⟨rfl, rfl⟩
    · simp
  all_goals exact ⟨rfl, rfl⟩

@[simp] theorem grantedCommand_who (s : State) (i : Init) (n c : Nat) : (grantedCommand s i n c).who = i.who := rfl
@[simp] theorem grantedCommand_cls (s : State) (i : Init) (n c : Nat) : (grantedCommand s i n c).cls = clsFor s i := rfl

theorem grantedCommand_sink (s : State) (i : Init) (n c : Nat) :
    (grantedCommand s i n c).sink = ownSink i.who (0x100000 + 128 * n + 0x78) true := by
  unfold grantedCommand cmdReq newReq ownSink
  dsimp only
  cases i.who <;> rfl

/-- On a RETIRED record a commanded write leaves its entry and its answer (R194). -/
theorem commandLogged_retired {u : State} {n c : Nat} (r : Req) (h : (point u n).retired = true) :
    ∃ e out d, commandLogged u r n c = answer (logChange u e) r out d := by
  unfold commandLogged endServed
  dsimp only
  rw [if_pos (Or.inl h)]
  exact ⟨_, _, _, rfl⟩

/-- On any other record in service it has its effect (R190, R194). -/
theorem commandLogged_served {u : State} {n c : Nat} (r : Req) (h : (point u n).retired = false)
    (hcell : cellOut u pPTS n = false) :
    ∃ e out d, commandLogged u r n c = answer (cmdApply (logChange u e) r.who r.cls n c) r out d := by
  have hserves : ¬((point u n).retired = true ∨ cellOut u pPTS n = true) := by simp [h, hcell]
  unfold commandLogged endServed
  dsimp only
  rw [if_neg hserves]
  exact ⟨_, _, _, rfl⟩

section

variable {s : State} {i : Init} {n c : Nat} (h : clearCommand s i n c = true)
include h

/-- A commanded write to a RETIRED record changes no record. -/
theorem command_retired (hretired : (point s n).retired = true) :
    ∃ t, finishClock s (submitCommand s i n c) = .next t ∧ t.pts = s.pts := by
  obtain ⟨-, x, u, hl, hsub⟩ := submitCommand_clear h
  have hpoint : point u n = point s n := point_congr hl.pts n
  obtain ⟨e, out, d, hlogged⟩ := commandLogged_retired (c := c) (grantedCommand s i n c) (hpoint.symm ▸ hretired)
  obtain ⟨-, -, hpts, -⟩ := answer_ownWrite_keeps (logChange u e) out d (grantedCommand_sink s i n c)
  obtain ⟨t, hexec, hd, -⟩ := finishClock_done s (submitCommand s i n c)
  refine ⟨t, hexec, ?_⟩
  rw [hd.pts, hsub, hlogged, hpts]
  exact (light_dayReserve u e).pts.trans hl.pts

/-- A commanded write to any other record in service is applied to the state with TOLL's and the Daybook's accounts brought up to
date. -/
theorem submitCommand_applies (hcell : cellOut s pPTS n = false) (hretired : (point s n).retired = false) :
    ∃ x w, Light { s with toll := x } w ∧ (submitCommand s i n c).pts = (cmdApply w i.who (clsFor s i) n c).pts ∧
      (submitCommand s i n c).loom = s.loom ∧ (submitCommand s i n c).loops = s.loops ∧
      (submitCommand s i n c).dram = s.dram := by
  obtain ⟨-, x, u, hl, hsub⟩ := submitCommand_clear h
  have hpoint : point u n = point s n := point_congr hl.pts n
  have hcell' : cellOut u pPTS n = false := by
    unfold cellOut elemSt at hcell ⊢
    rwa [hl.fltm]
  obtain ⟨e, out, d, hlogged⟩ :=
    commandLogged_served (c := c) (grantedCommand s i n c) (hpoint.symm ▸ hretired) hcell'
  rw [grantedCommand_who, grantedCommand_cls] at hlogged
  have hlight : Light { s with toll := x } (logChange u e) := hl.trans (light_dayReserve u e)
  have hsink := grantedCommand_sink s i n c
  obtain ⟨-, hloom, hpts, -⟩ := answer_ownWrite_keeps (cmdApply (logChange u e) i.who (clsFor s i) n c) out d hsink
  obtain ⟨hloops, hdram⟩ := answer_ownWrite_frame (cmdApply (logChange u e) i.who (clsFor s i) n c) out d hsink
  obtain ⟨kloom, kloops, kdram⟩ := cmdApply_keeps (logChange u e) i.who (clsFor s i) n c
  refine ⟨x, logChange u e, hlight, ?_, ?_, ?_, ?_⟩ <;> rw [hsub, hlogged]
  · exact hpts
  · exact (hloom.trans kloom).trans hlight.loom
  · exact (hloops.trans kloops).trans hlight.loops
  · exact (hdram.trans kdram).trans hlight.dram

/-- A commanded write to any other record, the last of its fabric cycle at its level, is accepted there, and changes no other
record. -/
theorem command_written (hlast : lastInCycle s i n c = true) (hcell : cellOut s pPTS n = false)
    (hretired : (point s n).retired = false) :
    ∃ t, finishClock s (submitCommand s i n c) = .next t ∧ pointWritten s t i n ∧
      (point t n).relq = (commanded (point s n) c).relq ∧ (point t n).pa = (commanded (point s n) c).pa := by
  obtain ⟨hcls, -⟩ := submitCommand_clear h
  obtain ⟨x, w, hl, hpts, hloom, hloops, hdram⟩ := submitCommand_applies h hcell hretired
  obtain ⟨hstands, hwriter⟩ := lastInCycle_light hl hlast
  have hpoint (q : Nat) : point w q = point s q := point_congr hl.pts q
  obtain ⟨pa, relq, hcommanded⟩ := commanded_eq (point s n) c
  have haccepted := accepted_accept (point s n) (new := commanded (point s n) c) (origin s i.who) (count s)
    (by rwa [hcommanded])
  obtain ⟨t, hexec, hd, -⟩ := finishClock_done s (submitCommand s i n c)
  have hsame : point t n = Point.accept (point s n) (commanded (point s n) c) (origin s i.who) (count s) := by
    rw [point_congr (hd.pts.trans hpts), point_cmdApply_same hstands hwriter, hpoint, origin_congr (s := s) hl.opx,
      count_congr (s := s) hl.clk]
  rw [← hsame] at haccepted
  refine ⟨t, hexec, ⟨haccepted.resolved, haccepted.seq, haccepted.writer, haccepted.stamped, ?_, ?_, ?_, fun q hq => ?_,
    hd.loom.trans hloom, hd.loops.trans hloops, hd.dram.trans hdram⟩, haccepted.relq, haccepted.pa⟩
  · rw [haccepted.ty, hcommanded]
  · rw [haccepted.cls, hcommanded]
  · rw [haccepted.tenant, hcommanded]
  · rw [point_congr (hd.pts.trans hpts), point_cmdApply_other _ _ _ hq, hpoint]

end

/-! ### The commands -/

theorem exec_commandedWrite (i : Init) (p : BitVec 16) (v : Word) (L : BitVec 5) (s : State) :
    exec (.commandedWrite i p v L) s = finishClock s (submitCommand s i p.toNat (v.toNat + L.toNat * 2 ^ 32)) := rfl
theorem exec_relinquish (i : Init) (p : BitVec 16) (L : BitVec 5) (s : State) :
    exec (.relinquish i p L) s = finishClock s (submitCommand s i p.toNat (L.toNat * 2 ^ 32 + 2 ^ 39)) := rfl
theorem exec_setRelinquish (i : Init) (p : BitVec 16) (v : Word) (s : State) :
    exec (.setRelinquish i p v) s = finishClock s (submitCommand s i p.toNat (v.toNat + 2 ^ 38)) := rfl

/-- Settles O41: a COMMAND word that meets nothing on its way is accepted at its record (`command_written`); its form says which
entry of the priority array, or RELINQUISH, it sets. -/
theorem commandedWrites : Obligations.CommandedWrites := by
  unfold Obligations.CommandedWrites
  refine fun s i p v L hcell => ⟨fun h hlast => ⟨fun hret => ?_, command_retired h⟩, fun h hlast hret => ?_,
    fun h hlast hret => ?_⟩
  · obtain ⟨t, hexec, hwritten, hrelq, hpa⟩ := command_written h hlast hcell hret
    rw [commanded_write] at hrelq hpa
    refine ⟨t, hexec, hwritten, hrelq, fun l => ?_⟩
    rw [hpa]
    exact get?_ins _ _ _ _
  · obtain ⟨t, hexec, hwritten, hrelq, hpa⟩ := command_written h hlast hcell hret
    rw [commanded_relinquish] at hrelq hpa
    refine ⟨t, hexec, hwritten, hrelq, fun l => ?_⟩
    rw [hpa]
    exact get?_del _ _ _
  · obtain ⟨t, hexec, hwritten, hrelq, hpa⟩ := command_written h hlast hcell hret
    rw [commanded_setRelinquish] at hrelq hpa
    exact ⟨t, hexec, hwritten, hrelq, fun l => by rw [hpa]⟩

end Sys2Proof.Proofs
end

section
/-!
PROOFS. The registers of the Ethernet ports (chapter 9, R212, R219, R222): what counting a port's statistics leaves as it was, and
what the port's flow control changes.
-/

namespace Sys2Proof.Proofs

open Sys2Proof.Machine Sys2Proof.Laws

/-! ### Events of a page -/

theorem rdB_ev_same (s : State) {p a b : Nat} (h : evtAddr p = some a) (hb : b < 32) : rdB (ev s p b) a b = true := by
  rw [rdB, rd_ev_same s b h, bit_or, bit_w32_pow b hb, decide_eq_true rfl, Bool.or_true]

/-- An event takes no bit of a register back. -/
theorem rdB_ev_mono (s : State) (p b : Nat) {a j : Nat} (h : rdB s a j = true) : rdB (ev s p b) a j = true := by
  unfold ev
  split
  · exact rdB_setBits_mono s _ _ h
  · exact h

/-- An event changes registers, and nothing else but what its fabric cycle has set. -/
theorem ev_rest (s : State) (p b : Nat) : ev s p b = { s with regs := (ev s p b).regs, fresh := (ev s p b).fresh } := by
  unfold ev
  split <;> rfl

/-! ### The statistics counters of a port (R222) -/

theorem ethPg_ne {n p : Nat} (hn : n < 18) (hp : p < 0x40 ∨ 0x52 ≤ p) : ethPg n ≠ p := by
  unfold ethPg pETH
  omega

theorem evtAddr_ethPg {n : Nat} (hn : n < 18) : evtAddr (ethPg n) = some (reg (ethPg n) 0x088) := by
  have hall : ∀ m : Fin 18, evtAddr (ethPg m.val) = some (reg (ethPg m.val) 0x088) := by decide
  exact hall ⟨n, hn⟩

theorem reg_right_inj {p o q : Nat} : reg p o = reg p q ↔ o = q := by
  unfold reg
  omega

/-- The offsets of a counter's words: 0, 1 and 24 have two. -/
def cntWords (k : Nat) : List Nat :=
  if k = 0 ∨ k = 1 ∨ k = 24 then [ethCntOff k, ethCntOff k + 4] else [ethCntOff k]

/-- The offsets of what counting some counters of a port writes: the page's events, its half-range bits, the counters. -/
def statWords (K : List Nat) : List Nat := [0x088, 0x0B4, 0x0B8] ++ K.flatMap cntWords

theorem statWords_subset {K L : List Nat} (h : K ⊆ L) : statWords K ⊆ statWords L := by
  intro o ho
  rcases List.mem_append.1 ho with ho | ho
  · exact List.mem_append_left _ ho
  · obtain ⟨k, hk, ho⟩ := List.mem_flatMap.1 ho
    exact List.mem_append_right _ (List.mem_flatMap.2 ⟨k, h hk, ho⟩)

/-- One state is another after some counters of a port have counted: registers alone have changed, among them those of the counters,
of the half-range bits and the page's events, of which none is taken back. -/
structure Tallied (n : Nat) (K : List Nat) (s t : State) : Prop where
  rest : t = { s with regs := t.regs, fresh := t.fresh }
  rd : ∀ a, (∀ o ∈ statWords K, a ≠ reg (ethPg n) o) → rd t a = rd s a
  events : ∀ b, rdB s (reg (ethPg n) 0x088) b = true → rdB t (reg (ethPg n) 0x088) b = true

variable {n : Nat} {K L : List Nat} {s t u : State}

theorem Tallied.refl (n : Nat) (K : List Nat) (s : State) : Tallied n K s s := ⟨rfl, fun _ _ => rfl, fun _ h => h⟩

theorem Tallied.trans (h : Tallied n K s t) (k : Tallied n K t u) : Tallied n K s u where
  rest := by rw [k.rest, h.rest]
  rd := fun a ha => (k.rd a ha).trans (h.rd a ha)
  events := fun b hb => k.events b (h.events b hb)

theorem Tallied.mono (h : Tallied n K s t) (hsub : K ⊆ L) : Tallied n L s t where
  rest := h.rest
  rd := fun a ha => h.rd a fun o ho => ha o (statWords_subset hsub ho)
  events := h.events

theorem Tallied.wr (h : Tallied n K s t) {o : Nat} (v : Word) (ho : o ∈ statWords K) (hne : o ≠ 0x088) :
    Tallied n K s (wr t (reg (ethPg n) o) v) :=
  h.trans ⟨rfl, fun _ ha => rd_wr_other t v (ha o ho), fun b hb => by
    unfold rdB at hb ⊢
    rwa [rd_wr_other t v fun e => hne (reg_right_inj.1 e).symm]⟩

theorem Tallied.ev (h : Tallied n K s t) (hn : n < 18) (b : Nat) : Tallied n K s (ev t (ethPg n) b) :=
  h.trans ⟨ev_rest t _ b, fun a ha => rd_ev_other t _ b fun e => by
    rw [evtAddr_ethPg hn] at e
    exact ha 0x088 (by simp [statWords]) (Option.some.inj e).symm, fun _ hb => rdB_ev_mono t _ b hb⟩

/-- A counter's words before its half-range bit. -/
def countWritten (s : State) (n k d : Nat) : State :=
  let a := reg (ethPg n) (ethCntOff k)
  let cor := corMode s (ethPg n)
  if k = 0 ∨ k = 1 ∨ k = 24 then wr64 s a (countUp cor 64 (rd64 s a) d) else wr s a (w32 (countUp cor 32 (rd s a).toNat d))

/-- Counting writes the counter's words, and may show that it has passed the middle of its range. -/
theorem ethCount_cases (s : State) (n k d : Nat) : ethCount s n k d = countWritten s n k d ∨
    ethCount s n k d = ev (wrB (countWritten s n k d) (reg (ethPg n) (if k < 32 then 0x0B4 else 0x0B8)) (k % 32) true)
      (ethPg n) 3 := by
  unfold ethCount countWritten
  dsimp only
  by_cases hwide : k = 0 ∨ k = 1 ∨ k = 24
  · simp only [if_pos hwide]
    split
    · exact .inr rfl
    · exact .inl rfl
  · simp only [if_neg hwide]
    split
    · exact .inr rfl
    · exact .inl rfl

theorem ethCntOff_ge (k : Nat) : 0x200 ≤ ethCntOff k := by
  unfold ethCntOff
  split_ifs <;> omega

theorem mem_statWords {k o : Nat} (hk : k ∈ K) (ho : o ∈ cntWords k) : o ∈ statWords K :=
  List.mem_append_right _ (List.mem_flatMap.2 ⟨k, hk, ho⟩)

theorem statWords_lt (hK : ∀ k ∈ K, k ≤ 40) {o : Nat} (ho : o ∈ statWords K) : o < 4096 := by
  rcases List.mem_append.1 ho with ho | ho
  · simp at ho
    omega
  · obtain ⟨k, hk, ho⟩ := List.mem_flatMap.1 ho
    have := hK k hk
    unfold cntWords ethCntOff at ho
    split_ifs at ho <;> simp at ho <;> omega

theorem tallied_countWritten (s : State) (n : Nat) {k : Nat} (d : Nat) (hk : k ∈ K) : Tallied n K s (countWritten s n k d) := by
  have hge := ethCntOff_ge k
  unfold countWritten
  dsimp only
  split
  · rename_i hwide
    have hwords : cntWords k = [ethCntOff k, ethCntOff k + 4] := if_pos hwide
    have hhigh : reg (ethPg n) (ethCntOff k) + 4 = reg (ethPg n) (ethCntOff k + 4) := Nat.add_assoc _ _ _
    unfold wr64
    rw [hhigh]
    exact ((Tallied.refl n K s).wr _ (mem_statWords hk (by simp [hwords])) (by omega)).wr _
      (mem_statWords hk (by simp [hwords])) (by omega)
  · rename_i hwide
    have hwords : cntWords k = [ethCntOff k] := if_neg hwide
    exact (Tallied.refl n K s).wr _ (mem_statWords hk (by simp [hwords])) (by omega)

theorem Tallied.ethCount (h : Tallied n K s t) (hn : n < 18) {k : Nat} (d : Nat) (hk : k ∈ K) :
    Tallied n K s (ethCount t n k d) := by
  have hw := h.trans (tallied_countWritten t n d hk)
  rcases ethCount_cases t n k d with e | e
  · rwa [e]
  · rw [e]
    refine Tallied.ev (hw.wr (o := if k < 32 then 0x0B4 else 0x0B8) _ ?_ ?_) hn 3
    · split <;> simp [statWords]
    · split <;> decide

/-- A 32-bit counter counts one event, rolling over (R334). -/
theorem cnt_ethCount_same {k : Nat} (hn : n < 18) (hk : k ≠ 0 ∧ k ≠ 1 ∧ k ≠ 24) (hcor : corMode s (ethPg n) = false) :
    cnt (ethCount s n k 1) n k = cnt s n k + 1 := by
  have hge := ethCntOff_ge k
  have hw : cnt (countWritten s n k 1) n k = cnt s n k + 1 := by
    unfold cnt countWritten
    dsimp only
    rw [if_neg (by omega), rd_wr_same, hcor, countUp_roll]
  rcases ethCount_cases s n k 1 with e | e
  · rwa [e]
  · rw [e, cnt, rd_ev_other _ _ _ fun e => ?_, rd_wrB_other _ _ _ fun e => ?_]
    · exact hw
    · have := reg_right_inj.1 e
      split at this <;> omega
    · rw [evtAddr_ethPg hn] at e
      have := reg_right_inj.1 (Option.some.inj e)
      omega

/-! ### What counting leaves -/

section

variable (h : Tallied n K s t)

include h

theorem Tallied.at {o : Nat} (ho : o ∉ statWords K) : Machine.rd t (reg (ethPg n) o) = Machine.rd s (reg (ethPg n) o) :=
  h.rd _ fun _ hx e => ho (reg_right_inj.1 e ▸ hx)

theorem Tallied.cnt {k : Nat} (hk : ethCntOff k ∉ statWords K) : cnt t n k = cnt s n k := h.at hk

/-- The registers that set a port up stand below its counters. -/
theorem Tallied.setting {o : Nat} (ho : o < 0x200) (hne : o ∉ [0x088, 0x0B4, 0x0B8]) :
    Machine.rd t (reg (ethPg n) o) = Machine.rd s (reg (ethPg n) o) := by
  refine h.at fun hmem => ?_
  rcases List.mem_append.1 hmem with hmem | hmem
  · exact hne hmem
  · obtain ⟨k, -, hk⟩ := List.mem_flatMap.1 hmem
    have := ethCntOff_ge k
    unfold cntWords at hk
    split at hk <;> simp at hk <;> omega

theorem Tallied.guard : t.guard = s.guard := by rw [h.rest]
theorem Tallied.clk : t.clk = s.clk := by rw [h.rest]
theorem Tallied.eth : t.eth = s.eth := by rw [h.rest]
theorem Tallied.opx : t.opx = s.opx := by rw [h.rest]

theorem Tallied.port (m : Nat) : ethPort t m = ethPort s m := by rw [ethPort, ethPort, h.eth]

theorem Tallied.corMode : corMode t (ethPg n) = corMode s (ethPg n) :=
  corMode_congr h.guard (h.setting (by decide) (by decide))

theorem Tallied.maxLen : maxLen t n = maxLen s n := rdF_congr (h.setting (by decide) (by decide)) _ _

theorem Tallied.stationMac : stationMac t n = stationMac s n := by
  rw [Machine.stationMac, rdF_congr (h.setting (by decide) (by decide)), h.setting (o := 0x08C) (by decide) (by decide)]
  rfl

theorem Tallied.pauseFor (f : List Byte) : pauseFor t n f = pauseFor s n f := by
  rw [Machine.pauseFor, h.stationMac]
  rfl

theorem Tallied.filterOk (f : List Byte) : filterOk t n f = filterOk s n f := by
  rw [Machine.filterOk, h.stationMac, rdB, h.setting (by decide) (by decide)]
  rfl

theorem Tallied.admits : admits t n = admits s n := by
  have hused : poolUsed t = poolUsed s := by
    unfold poolUsed
    simp only [h.port]
  unfold Machine.admits
  rw [h.port, h.maxLen, hused, rdF_congr (h.setting (by decide) (by decide))]

theorem Tallied.ringSize {o : Nat} (m : Nat) (ho : o < 0x200) (hne : o ∉ [0x088, 0x0B4, 0x0B8]) :
    ringSize t (reg (ethPg n) o) m = ringSize s (reg (ethPg n) o) m := by
  rw [Machine.ringSize, rdF_congr (h.setting ho hne)]
  rfl

theorem Tallied.opxUdpOff (hn : n < 18) (hK : ∀ k ∈ K, k ≤ 40) (f : List Byte) :
    opxUdpOff t n f = opxUdpOff s n f := by
  have hopx : Machine.rd t (reg pOPX 0x080) = Machine.rd s (reg pOPX 0x080) := h.rd _ fun o ho =>
    reg_ne_of_page (ethPg_ne hn (by decide)).symm (by decide) (statWords_lt hK ho)
  have hset {o : Nat} (ho : o < 0x0B4) (hne : o ≠ 0x088) := h.setting (o := o) (by omega) (by simp; omega)
  unfold Machine.opxUdpOff rdF rdB
  rw [hopx, hset (o := 0x080) (by decide) (by decide), hset (o := 0x094) (by decide) (by decide),
    hset (o := 0x098) (by decide) (by decide), hset (o := 0x09C) (by decide) (by decide),
    hset (o := 0x0A0) (by decide) (by decide), hset (o := 0x0A4) (by decide) (by decide)]

end

end Sys2Proof.Proofs
end

section
/-!
PROOFS. Frames at an Ethernet port (chapter 9, R209–R212, R215, R219, R220): flow control, the receive ring, and where a frame goes.
-/

namespace Sys2Proof.Proofs

open Sys2Proof.Machine Sys2Proof.Laws

variable {n : Nat} {s t : State}

@[simp] theorem ethPort_setEth_same (s : State) (n : Nat) (p : EthPort) : ethPort (setEth s n p) n = p := look_put_same _ _ _ _

theorem ethPort_congr (h : t.eth = s.eth) (n : Nat) : ethPort t n = ethPort s n := by
  unfold ethPort
  rw [h]

/-! ### Flow control (R219) -/

/-- One state is another after a port's flow control: its jobs alone have changed, and whether it has paused its peer. -/
structure Flowed (n : Nat) (s t : State) : Prop where
  rest : t = { s with eth := t.eth }
  port : ethPort t n = { ethPort s n with jobs := (ethPort t n).jobs, rxPausing := (ethPort t n).rxPausing }

theorem Flowed.refl (n : Nat) (s : State) : Flowed n s s := ⟨rfl, rfl⟩

theorem Flowed.regs (h : Flowed n s t) : t.regs = s.regs := by rw [h.rest]
theorem Flowed.rd (h : Flowed n s t) (a : Nat) : Machine.rd t a = Machine.rd s a := rd_congr h.regs a
theorem Flowed.rxq (h : Flowed n s t) : (ethPort t n).rxq = (ethPort s n).rxq := by rw [h.port]
theorem Flowed.rxHold (h : Flowed n s t) : (ethPort t n).rxHold = (ethPort s n).rxHold := by rw [h.port]

theorem flowed_sendPause (s : State) (n q : Nat) : Flowed n s (sendPause s n q) := by
  unfold sendPause
  exact ⟨rfl, by rw [ethPort_setEth_same]⟩

theorem flowed_occRose (s : State) (n : Nat) : Flowed n s (occRose s n) := by
  unfold occRose
  dsimp only
  split
  · exact flowed_sendPause s n _
  · exact .refl n s

theorem flowed_occFell (s : State) (n : Nat) : Flowed n s (occFell s n) := by
  unfold occFell
  dsimp only
  split
  · exact flowed_sendPause s n _
  · exact .refl n s

/-! ### The receive ring (R215) -/

theorem ringSize_le (s : State) (cfg : Nat) : ringSize s cfg 12 ≤ 4096 :=
  Nat.pow_le_pow_right (by decide) (Nat.min_le_left _ _)

theorem ringSize_pos (s : State) (cfg m : Nat) : 0 < ringSize s cfg m := Nat.pow_pos (by decide)

/-- A ring's next index, written to a field of 12 bits, reads back. -/
theorem rdF_wr_ringNext (s : State) (a i cfg : Nat) (u : State) :
    rdF (wr s a (w32 ((i + 1) % ringSize u cfg 12))) a 0 12 = (i + 1) % ringSize u cfg 12 := by
  have hlt := Nat.mod_lt (i + 1) (ringSize_pos u cfg 12)
  have hle := ringSize_le u cfg
  rw [rdF, rd_wr_same, fld_w32 _ (by decide), Nat.mod_eq_of_lt (by omega)]

/-- Without a descriptor at the head of the ring, held frames stay. -/
theorem ringPlace_empty (fuel : Nat)
    (h : rdF s (reg (ethPg n) 0x0E4) 0 12 % ringSize s (reg (ethPg n) 0x0DC) 12 =
      rdF s (reg (ethPg n) 0x0E0) 0 12 % ringSize s (reg (ethPg n) 0x0DC) 12) :
    ringPlace s n (fuel + 1) = s := by
  unfold ringPlace
  dsimp only
  split
  · rfl
  · exact if_pos h

theorem rd_evEth_other (s : State) (b : Nat) {a : Nat} (hn : n < 18) (ha : a ≠ reg (ethPg n) 0x088) :
    rd (ev s (ethPg n) b) a = rd s a :=
  rd_ev_other s _ b fun e => ha (Option.some.inj ((evtAddr_ethPg hn).symm.trans e)).symm

/-- Placing held frames changes the ring's head and the port's events. -/
theorem rd_ringPlace (hn : n < 18) {a : Nat} (hhead : a ≠ reg (ethPg n) 0x0E4) (hevt : a ≠ reg (ethPg n) 0x088) (fuel : Nat) :
    rd (ringPlace s n fuel) a = rd s a := by
  induction fuel generalizing s with
  | zero => rfl
  | succ fuel ih =>
    unfold ringPlace
    dsimp only
    split
    · rfl
    · split
      · rfl
      · rw [(flowed_occFell _ n).rd, ih, rd_evEth_other _ _ hn hevt, rd_wr_other _ _ hhead, rd_setEth, rd_ramWrite, rd_ramWrite]
        rfl

/-- What placing one frame in the receive ring leaves. -/
structure Placed (n : Nat) (s t : State) : Prop where
  port : ethPort t n = { ethPort s n with rxHold := [], jobs := (ethPort t n).jobs, rxPausing := (ethPort t n).rxPausing }
  event : rdB t (reg (ethPg n) 0x088) 6 = true
  head : rdF t (reg (ethPg n) 0x0E4) 0 12 =
    (rdF s (reg (ethPg n) 0x0E4) 0 12 % ringSize s (reg (ethPg n) 0x0DC) 12 + 1) % ringSize s (reg (ethPg n) 0x0DC) 12

theorem Placed.flowed {u : State} (h : Placed n s t) (k : Flowed n t u) : Placed n s u where
  port := by rw [k.port, h.port]
  event := by rw [rdB, k.rd]; exact h.event
  head := by rw [rdF, k.rd]; exact h.head

/-- The one held frame goes to the descriptor at the head of the ring. -/
theorem ringPlace_one {f : List Byte} (hn : n < 18) (hhold : (ethPort s n).rxHold = [f])
    (h : rdF s (reg (ethPg n) 0x0E4) 0 12 % ringSize s (reg (ethPg n) 0x0DC) 12 ≠
      rdF s (reg (ethPg n) 0x0E0) 0 12 % ringSize s (reg (ethPg n) 0x0DC) 12) :
    Placed n s (ringPlace s n 1) := by
  unfold ringPlace
  dsimp only
  rw [hhold]
  dsimp only
  rw [if_neg h]
  refine Placed.flowed ?_ (flowed_occFell _ n)
  unfold ringPlace
  refine ⟨?_, rdB_ev_same _ (evtAddr_ethPg hn) (by decide), ?_⟩
  · rw [ethPort_congr (ev_eth _ _ _), ethPort_congr (wr_eth _ _ _), ethPort_setEth_same]
  · rw [rdF, rd_evEth_other _ _ hn fun e => absurd (reg_right_inj.1 e) (by decide)]
    exact rdF_wr_ringNext _ _ _ _ s

/-! ### Where a frame goes (R209–R212, R215, R220) -/

/-- What a frame that ends its reception does, once sized and counted. -/
def routed (s : State) (n : Nat) (f : List Byte) : State :=
  if beAt f 12 2 = 0x8808 then
    (if pauseFor s n f then pauseRx (ethCount s n 6 1) n (beAt f 16 2) else ethCount s n 7 1)
  else if !filterOk s n f then ethCount s n 23 1
  else if !admits s n then ev (ethCount s n 21 1) (ethPg n) 4
  else
    let p := ethPort s n
    if (opxUdpOff s n f).isSome then occRose (setEth s n { p with rxq := p.rxq ++ [(count s, f)] }) n
    else occRose (ringPlace (setEth s n { p with rxHold := p.rxHold ++ [f] }) n (p.rxHold.length + 1)) n

/-- The octets of every frame count, and a symbol error. -/
theorem tallied_arrival (s : State) (hn : n < 18) (f : List Byte) (sym : Bool) :
    Tallied n [1, 20] s (if sym then ethCount (ethCount s n 1 f.length) n 20 1 else ethCount s n 1 f.length) := by
  have hoctets := (Tallied.refl n [1, 20] s).ethCount hn (k := 1) f.length (by decide)
  split
  · exact hoctets.ethCount hn 1 (by decide)
  · exact hoctets

/-- A frame of a bad size or FCS is counted where the table says, and that is all. -/
theorem rxWhole_bad (hn : n < 18) {f : List Byte} {ok : Bool} (sym : Bool)
    (hbad : f.length ≤ 63 ∨ maxLen s n < f.length ∨ ok = false) :
    ∃ u, Tallied n [1, 20] s u ∧ rxWhole s n f ok sym = ethCount u n
      (if f.length ≤ 63 then (if ok then 15 else 16) else if maxLen s n < f.length then (if ok then 17 else 18) else 19) 1 := by
  refine ⟨_, tallied_arrival s hn f sym, ?_⟩
  unfold rxWhole
  dsimp only
  by_cases hshort : f.length ≤ 63
  · simp only [if_pos hshort]
  · by_cases hlong : maxLen s n < f.length
    · simp only [if_neg hshort, if_pos hlong]
    · have hok : ok = false := (hbad.resolve_left hshort).resolve_left hlong
      simp [hshort, hlong, hok]

/-- The counters of a valid frame (R212) other than RX_FRAMES. -/
def validStats : List Nat := [0, 1, 3, 4, 5, 8, 9, 10, 11, 12, 13, 14, 20, 22]

theorem bucket_le (size : Nat) : bucket size ≤ 6 := by
  unfold bucket
  split_ifs <;> decide

/-- A valid frame counts in RX_FRAMES once. -/
theorem countValid_counts (hn : n < 18) (f : List Byte) : ∃ u, Tallied n validStats s u ∧
    Tallied n validStats (ethCount u n 2 1) (countValid s n f) := by
  have hbucket : 8 + bucket f.length ∈ validStats := by
    have := bucket_le f.length
    interval_cases bucket f.length <;> decide
  refine ⟨ethCount s n 0 f.length, (Tallied.refl n _ s).ethCount hn _ (by decide), ?_⟩
  have hsize := (Tallied.refl n validStats (ethCount (ethCount s n 0 f.length) n 2 1)).ethCount hn 1 hbucket
  have hcast (k : Nat) (hk : k ∈ [3, 4, 5]) := hsize.ethCount hn (k := k) 1 (by revert k; decide)
  unfold countValid
  dsimp only
  generalize hu : (if beAt f 0 6 = 0xFFFFFFFFFFFF then _ else _ : State) = u
  have hkind : Tallied n validStats (ethCount (ethCount s n 0 f.length) n 2 1) u := by
    rw [← hu]
    split_ifs
    exacts [hcast 5 (by decide), hcast 4 (by decide), hcast 3 (by decide)]
  split
  · exact hkind.ethCount hn 1 (by decide)
  · exact hkind

/-- A valid frame counts in RX_FRAMES and goes on to its place. -/
theorem rxWhole_valid (hn : n < 18) {f : List Byte} (sym : Bool) (hmin : 64 ≤ f.length) (hmax : f.length ≤ maxLen s n)
    (hcor : corMode s (ethPg n) = false) :
    ∃ u, Tallied n (2 :: validStats) s u ∧ cnt u n 2 = cnt s n 2 + 1 ∧ rxWhole s n f true sym = routed u n f := by
  have harrive := (tallied_arrival s hn f sym).mono (L := validStats) (by decide)
  have hwhole : rxWhole s n f true sym = routed (countValid
      (if sym then ethCount (ethCount s n 1 f.length) n 20 1 else ethCount s n 1 f.length) n f) n f := by
    unfold rxWhole
    dsimp only
    rw [if_neg (by omega), if_neg (by omega)]
    rfl
  rw [hwhole]
  generalize (if sym then ethCount (ethCount s n 1 f.length) n 20 1 else ethCount s n 1 f.length) = a at harrive
  obtain ⟨u, hbefore, hafter⟩ := countValid_counts (s := a) hn f
  have hu := harrive.trans hbefore
  have hsub : validStats ⊆ 2 :: validStats := List.subset_cons_self _ _
  refine ⟨_, ((hu.mono hsub).ethCount hn (k := 2) 1 (by decide)).trans (hafter.mono hsub), ?_, rfl⟩
  rw [hafter.cnt (by decide), cnt_ethCount_same hn (by decide) (hu.corMode.trans hcor), hu.cnt (by decide)]

/-! ### A PAUSE frame obeyed (R220) -/

/-- Obeying a PAUSE frame touches the port's registers only in TX_PAUSE_QUANTA. -/
theorem rd_pauseRx (s : State) (n q : Nat) {a : Nat} (ha : a ≠ reg (ethPg n) 0x2B0) : rd (pauseRx s n q) a = rd s a := by
  unfold pauseRx pauseEnd pauseSpent
  dsimp only
  split_ifs
  · rfl
  · exact rd_bumpBy_other s _ ha
  · rfl
  · exact rd_bumpBy_other s _ ha
  · rfl

/-- A pause time replaces what was left of the last one. -/
theorem pauseRx_quanta {q : Nat} (hhold : (ethPort s n).holdoff = false) (hq : 0 < q) :
    (ethPort (pauseRx s n q) n).paused.isSome = true ∧ (ethPort (pauseRx s n q) n).pauseQ = q ∧
      (ethPort (pauseRx s n q) n).pauseFrom = s.clk.fabric := by
  unfold pauseRx
  dsimp only
  rw [hhold, if_neg Bool.false_ne_true, if_neg (by omega), ethPort_setEth_same]
  exact ⟨rfl, rfl, rfl⟩

/-- A pause time of 0 lets the port transmit. -/
theorem pauseRx_zero (hhold : (ethPort s n).holdoff = false) : (ethPort (pauseRx s n 0) n).paused = none := by
  unfold pauseRx
  dsimp only
  rw [hhold, if_neg Bool.false_ne_true, if_pos rfl]
  split
  · unfold pauseEnd
    rw [ethPort_setEth_same]
  · rename_i h
    exact Option.not_isSome_iff_eq_none.1 h

/-! ### The places of a frame -/

/-- RX_FRAMES counts no frame again at its place. -/
theorem cnt_routed (hn : n < 18) (f : List Byte) : cnt (routed s n f) n 2 = cnt s n 2 := by
  have hcount (k : Nat) (hk : ethCntOff 2 ∉ statWords [k]) : cnt (ethCount s n k 1) n 2 = cnt s n 2 :=
    ((Tallied.refl n [k] s).ethCount hn 1 (List.mem_singleton_self k)).cnt hk
  have hne {o : Nat} (ho : ethCntOff 2 ≠ o) : reg (ethPg n) (ethCntOff 2) ≠ reg (ethPg n) o := fun e => ho (reg_right_inj.1 e)
  unfold routed
  dsimp only
  split_ifs
  · exact (rd_pauseRx _ n _ (hne (by decide))).trans (hcount 6 (by decide))
  · exact hcount 7 (by decide)
  · exact hcount 23 (by decide)
  · exact (rd_evEth_other _ _ hn (hne (by decide))).trans (hcount 21 (by decide))
  · exact (flowed_occRose _ n).rd _
  · exact ((flowed_occRose _ n).rd _).trans (rd_ringPlace hn (hne (by decide)) (hne (by decide)) _)

section

variable {f : List Byte} (hn : n < 18) (hcor : corMode s (ethPg n) = false)

include hn hcor

/-- A MAC control frame that is no PAUSE frame for the port is counted. -/
theorem routed_control (htype : beAt f 12 2 = 0x8808) (hpause : pauseFor s n f = false) :
    (routed s n f).eth = s.eth ∧ cnt (routed s n f) n 7 = cnt s n 7 + 1 := by
  unfold routed
  rw [if_pos htype, hpause, if_neg Bool.false_ne_true]
  exact ⟨((Tallied.refl n [7] s).ethCount hn 1 (by decide)).eth, cnt_ethCount_same hn (by decide) hcor⟩

/-- A PAUSE frame for the port is counted and obeyed. -/
theorem routed_pause (htype : beAt f 12 2 = 0x8808) (hpause : pauseFor s n f = true) :
    cnt (routed s n f) n 6 = cnt s n 6 + 1 ∧ ((ethPort s n).holdoff = false →
      (0 < beAt f 16 2 → (ethPort (routed s n f) n).paused.isSome = true ∧ (ethPort (routed s n f) n).pauseQ = beAt f 16 2 ∧
        (ethPort (routed s n f) n).pauseFrom = s.clk.fabric) ∧
      (beAt f 16 2 = 0 → (ethPort (routed s n f) n).paused = none)) := by
  have hcounted := (Tallied.refl n [6] s).ethCount hn 1 (List.mem_singleton_self 6)
  unfold routed
  rw [if_pos htype, hpause, if_pos rfl]
  refine ⟨(rd_pauseRx _ n _ fun e => absurd (reg_right_inj.1 e) (by decide)).trans (cnt_ethCount_same hn (by decide) hcor),
    fun hhold => ?_⟩
  rw [← hcounted.port n] at hhold
  refine ⟨fun hq => ?_, fun hq => ?_⟩
  · rw [← hcounted.clk]
    exact pauseRx_quanta hhold hq
  · rw [hq]
    exact pauseRx_zero hhold

/-- A frame that the address filter turns away is counted. -/
theorem routed_filtered (htype : beAt f 12 2 ≠ 0x8808) (hfilter : filterOk s n f = false) :
    (routed s n f).eth = s.eth ∧ cnt (routed s n f) n 23 = cnt s n 23 + 1 := by
  unfold routed
  rw [if_neg htype, hfilter, if_pos (by rfl)]
  exact ⟨((Tallied.refl n [23] s).ethCount hn 1 (by decide)).eth, cnt_ethCount_same hn (by decide) hcor⟩

/-- A frame that the port cannot hold is counted and shown. -/
theorem routed_overrun (htype : beAt f 12 2 ≠ 0x8808) (hfilter : filterOk s n f = true) (hfull : admits s n = false) :
    (routed s n f).eth = s.eth ∧ cnt (routed s n f) n 21 = cnt s n 21 + 1 ∧
      rdB (routed s n f) (reg (ethPg n) 0x088) 4 = true := by
  unfold routed
  rw [if_neg htype, hfilter, if_neg (by decide), hfull, if_pos (by rfl)]
  refine ⟨?_, (rd_evEth_other _ _ hn fun e => absurd (reg_right_inj.1 e) (by decide)).trans
    (cnt_ethCount_same hn (by decide) hcor), rdB_ev_same _ (evtAddr_ethPg hn) (by decide)⟩
  rw [ev_eth, ((Tallied.refl n [21] s).ethCount hn 1 (by decide)).eth]

end

section

variable {f : List Byte} (htype : beAt f 12 2 ≠ 0x8808) (hfilter : filterOk s n f = true) (hroom : admits s n = true)

include htype hfilter hroom

/-- A frame for the OPX engine waits for it, with the count at its arrival. -/
theorem routed_opx (hopx : (opxUdpOff s n f).isSome = true) :
    (ethPort (routed s n f) n).rxq = (ethPort s n).rxq ++ [(count s, f)] := by
  unfold routed
  dsimp only
  rw [if_neg htype, hfilter, if_neg (by decide), hroom, if_neg (by decide), if_pos hopx, (flowed_occRose _ n).rxq,
    ethPort_setEth_same]

/-- Any other frame joins those that wait for a descriptor. -/
theorem routed_ring (hopx : opxUdpOff s n f = none) : ∃ u, Flowed n (ringPlace (setEth s n
    { ethPort s n with rxHold := (ethPort s n).rxHold ++ [f] }) n ((ethPort s n).rxHold.length + 1)) u ∧ routed s n f = u := by
  refine ⟨_, flowed_occRose _ n, ?_⟩
  unfold routed
  dsimp only
  rw [if_neg htype, hfilter, if_neg (by decide), hroom, if_neg (by decide), if_neg (by rw [hopx]; decide)]

/-- Without a descriptor it is held. -/
theorem routed_held (hopx : opxUdpOff s n f = none)
    (h : rdF s (reg (ethPg n) 0x0E4) 0 12 % ringSize s (reg (ethPg n) 0x0DC) 12 =
      rdF s (reg (ethPg n) 0x0E0) 0 12 % ringSize s (reg (ethPg n) 0x0DC) 12) :
    (ethPort (routed s n f) n).rxHold = (ethPort s n).rxHold ++ [f] := by
  obtain ⟨u, hflow, hu⟩ := routed_ring htype hfilter hroom hopx
  rw [hu, hflow.rxHold, ringPlace_empty (s := setEth s n _) _ h, ethPort_setEth_same]

/-- With a descriptor, and no frame before it, it is placed in the ring. -/
theorem routed_placed (hn : n < 18) (hopx : opxUdpOff s n f = none) (hhold : (ethPort s n).rxHold = [])
    (h : rdF s (reg (ethPg n) 0x0E4) 0 12 % ringSize s (reg (ethPg n) 0x0DC) 12 ≠
      rdF s (reg (ethPg n) 0x0E0) 0 12 % ringSize s (reg (ethPg n) 0x0DC) 12) :
    Placed n (setEth s n { ethPort s n with rxHold := [f] }) (routed s n f) := by
  obtain ⟨u, hflow, hu⟩ := routed_ring htype hfilter hroom hopx
  rw [hu]
  rw [hhold] at hflow
  exact (ringPlace_one (s := setEth s n { ethPort s n with rxHold := [f] }) hn (by rw [ethPort_setEth_same]) h).flowed hflow

end

/-! ### FRAME_RECEIVE -/

theorem exec_frameReceive (p : Fin 18) (f : List Byte) (ok sym : Bool) (s : State) :
    exec (.frameReceive p f ok sym) s = finish s (rxFrame s p.val f ok sym) := rfl

theorem rxFrame_stopped (f : List Byte) (ok sym : Bool)
    (h : ethRuns s n = false ∨ rdB s (reg (ethPg n) 0x080) 0 = false) : rxFrame s n f ok sym = s := by
  unfold rxFrame
  rw [if_neg (by simpa using fun hruns => h.resolve_left (by rw [hruns]; decide))]

theorem rxFrame_running (f : List Byte) (ok sym : Bool) (hruns : ethRuns s n = true)
    (hen : rdB s (reg (ethPg n) 0x080) 0 = true) : rxFrame s n f ok sym = rxWhole s n f ok sym := by
  unfold rxFrame
  rw [hruns, hen, if_pos (by rfl)]

/-- The counters of frames that are dropped for their size or FCS are 32 bits wide and apart from the others. -/
theorem badStat_apart : ∀ k ∈ [15, 16, 17, 18, 19],
    ethCntOff k ∉ statWords [1, 20] ∧ ethCntOff 2 ∉ statWords [k] ∧ k ≠ 0 ∧ k ≠ 1 ∧ k ≠ 24 := by decide

section

variable {u : State} {f : List Byte} (hn : n < 18) (hu : Tallied n (2 :: validStats) s u) (hcor : corMode s (ethPg n) = false)

include hn hu hcor

/-- A valid MAC control frame, seen from before its counting. -/
theorem valid_control (htype : beAt f 12 2 = 0x8808) :
    (pauseFor s n f = false → (routed u n f).eth = s.eth ∧ cnt (routed u n f) n 7 = cnt s n 7 + 1) ∧
    (pauseFor s n f = true → cnt (routed u n f) n 6 = cnt s n 6 + 1 ∧ ((ethPort s n).holdoff = false →
      (0 < beAt f 16 2 → (ethPort (routed u n f) n).paused.isSome = true ∧ (ethPort (routed u n f) n).pauseQ = beAt f 16 2 ∧
        (ethPort (routed u n f) n).pauseFrom = s.clk.fabric) ∧
      (beAt f 16 2 = 0 → (ethPort (routed u n f) n).paused = none))) := by
  have hucor := hu.corMode.trans hcor
  rw [← hu.pauseFor, ← hu.eth, ← hu.clk, ← hu.port, ← hu.cnt (k := 6) (by decide), ← hu.cnt (k := 7) (by decide)]
  exact ⟨routed_control hn hucor htype, routed_pause hn hucor htype⟩

/-- A valid frame of another type that the port does not take. -/
theorem valid_dropped (htype : beAt f 12 2 ≠ 0x8808) :
    (filterOk s n f = false → (routed u n f).eth = s.eth ∧ cnt (routed u n f) n 23 = cnt s n 23 + 1) ∧
    (filterOk s n f = true → admits s n = false → (routed u n f).eth = s.eth ∧ cnt (routed u n f) n 21 = cnt s n 21 + 1 ∧
      rdB (routed u n f) (reg (ethPg n) 0x088) 4 = true) := by
  have hucor := hu.corMode.trans hcor
  rw [← hu.filterOk, ← hu.admits, ← hu.eth, ← hu.cnt (k := 21) (by decide), ← hu.cnt (k := 23) (by decide)]
  exact ⟨routed_filtered hn hucor htype, routed_overrun hn hucor htype⟩

omit hcor in
/-- A valid frame of another type that the port takes. -/
theorem valid_taken (htype : beAt f 12 2 ≠ 0x8808) (hfilter : filterOk s n f = true) (hroom : admits s n = true) :
    ((opxUdpOff s n f).isSome = true → (ethPort (routed u n f) n).rxq = (ethPort s n).rxq ++ [(count s, f)]) ∧
    (opxUdpOff s n f = none → ∀ sz, sz = ringSize s (reg (ethPg n) 0x0DC) 12 →
      (rdF s (reg (ethPg n) 0x0E4) 0 12 % sz = rdF s (reg (ethPg n) 0x0E0) 0 12 % sz →
        (ethPort (routed u n f) n).rxHold = (ethPort s n).rxHold ++ [f]) ∧
      (rdF s (reg (ethPg n) 0x0E4) 0 12 % sz ≠ rdF s (reg (ethPg n) 0x0E0) 0 12 % sz → (ethPort s n).rxHold = [] →
        (ethPort (routed u n f) n).rxHold = [] ∧ rdB (routed u n f) (reg (ethPg n) 0x088) 6 = true ∧
        rdF (routed u n f) (reg (ethPg n) 0x0E4) 0 12 = (rdF s (reg (ethPg n) 0x0E4) 0 12 % sz + 1) % sz)) := by
  rw [← hu.filterOk] at hfilter
  rw [← hu.admits] at hroom
  rw [← hu.opxUdpOff hn (by decide), ← count_congr hu.clk, ← hu.port, ← hu.ringSize 12 (by decide) (by decide),
    ← rdF_congr (hu.setting (o := 0x0E4) (by decide) (by decide)),
    ← rdF_congr (hu.setting (o := 0x0E0) (by decide) (by decide))]
  refine ⟨routed_opx htype hfilter hroom, fun hopx sz hsz => ?_⟩
  subst hsz
  refine ⟨routed_held htype hfilter hroom hopx, fun hring hhold => ?_⟩
  have hplaced := routed_placed htype hfilter hroom hn hopx hhold hring
  refine ⟨?_, hplaced.event, hplaced.head⟩
  rw [hplaced.port, ethPort_setEth_same]

end

/-- Settles O44: a frame on a running port is sized and counted (`rxWhole_bad`, `rxWhole_valid`), and a valid one goes where
`routed` says. -/
theorem framesAreReceived : Obligations.FramesAreReceived := by
  unfold Obligations.FramesAreReceived
  refine fun s n f ok sym => ⟨fun hstop => ?_, fun hruns hen hcor => ⟨fun k hk hbad => ?_, fun hmin hmax hok => ?_⟩⟩
  · rw [exec_frameReceive, rxFrame_stopped f ok sym hstop]
    exact (finish_next s s).2 ⟨rfl, rfl⟩
  · rw [exec_frameReceive, rxFrame_running f ok sym hruns hen]
    obtain ⟨u, hu, hwhole⟩ := rxWhole_bad n.isLt sym hbad
    rw [hwhole, ← hk]
    have hmem : k ∈ [15, 16, 17, 18, 19] := by
      rw [hk]
      split_ifs <;> decide
    obtain ⟨hapart, h2, hnarrow⟩ := badStat_apart k hmem
    have hcount := (Tallied.refl n.val [k] u).ethCount n.isLt 1 (List.mem_singleton_self k)
    refine (finish_next s _).2 ⟨hcount.eth.trans hu.eth, ?_, (hcount.cnt h2).trans (hu.cnt (by decide))⟩
    exact (cnt_ethCount_same n.isLt hnarrow (hu.corMode.trans hcor)).trans (by rw [hu.cnt hapart])
  · subst hok
    rw [exec_frameReceive, rxFrame_running f true sym hruns hen]
    obtain ⟨u, hu, h2, hwhole⟩ := rxWhole_valid n.isLt sym hmin hmax hcor
    have hframes := (cnt_routed n.isLt f).trans h2
    have hcontrol := valid_control n.isLt hu hcor (f := f)
    have hdropped := valid_dropped n.isLt hu hcor (f := f)
    have htaken := valid_taken n.isLt hu (f := f)
    rw [hwhole]
    generalize routed u n.val f = v at *
    refine (finish_next s v).2 ⟨hframes, fun htype => (hcontrol htype).1, fun htype hpause => ?_, fun htype =>
      ⟨(hdropped htype).1, fun hfilter => ⟨(hdropped htype).2 hfilter, fun hroom => (htaken htype hfilter hroom).1,
        fun hroom => (htaken htype hfilter hroom).2⟩⟩⟩
    obtain ⟨h6, hobey⟩ := (hcontrol htype).2 hpause
    refine ⟨h6, fun q hq => ?_⟩
    rw [hq]
    exact hobey

end Sys2Proof.Proofs
end

section
/-!
PROOFS. Ethernet ports pause, transmit and link (chapter 9, R213–R215, R218–R220, R239): what the pauses, the frames sent, the
doorbells and a change of link leave.
-/

namespace Sys2Proof.Proofs

open Sys2Proof.Machine Sys2Proof.Laws

variable {n : Nat} {s t : State}

/-! ### Pauses (R219, R220) -/

theorem pauseAgain_sends (h : (ethPort s n).rxPausing = true) (hlwm : lwm s n < rxOcc (ethPort s n)) :
    pauseAgain s n = sendPause s n (quantaOf s n) := if_pos ⟨h, hlwm⟩

/-- A PAUSE frame goes ahead of every frame but the PAUSE frames before it. -/
theorem jobs_sendPause (s : State) (n q : Nat) : ∃ j : TxJob, j.src = .pause q ∧ (ethPort (sendPause s n q) n).jobs =
    (ethPort s n).jobs.filter (fun k => jobRank k == 0) ++ j :: (ethPort s n).jobs.filter (fun k => jobRank k != 0) := by
  unfold sendPause
  rw [ethPort_setEth_same]
  exact ⟨_, rfl, rfl⟩

theorem statPage_ethPg {o : Nat} (hn : n < 18) (ho : o < 4096) : statPage (reg (ethPg n) o) = ethPg n := by
  unfold statPage
  rw [pageOf_reg _ ho, if_neg (ethPg_ne hn (by decide))]

theorem countUp_add (w : Word) (k : Nat) : w32 (countUp false 32 w.toNat k) = w + w32 k := by
  apply BitVec.eq_of_toNat_eq
  simp [countUp, w32]

/-- TX_PAUSE_QUANTA counts the quanta of a pause that ends. -/
theorem rd_pauseEnd_same (q : Nat) (hn : n < 18) (hcor : corMode s (ethPg n) = false) :
    rd (pauseEnd s n q) (reg (ethPg n) 0x2B0) = rd s (reg (ethPg n) 0x2B0) + w32 q := by
  unfold pauseEnd pauseSpent bumpBy
  rw [rd_setEth, rd_wr_same, statPage_ethPg hn (by decide), hcor, countUp_add]

theorem rd_pauseEnd_other (s : State) (n q : Nat) {o : Nat} (ho : o ≠ 0x2B0) :
    rd (pauseEnd s n q) (reg (ethPg n) o) = rd s (reg (ethPg n) o) :=
  rd_bumpBy_other s q fun e => ho (reg_right_inj.1 e)

@[simp] theorem ethPort_pauseEnd (s : State) (n q : Nat) :
    ethPort (pauseEnd s n q) n = { ethPort s n with paused := none, pauseQ := 0 } := ethPort_setEth_same _ _ _

theorem pauseDone_paused (h : (ethPort s n).paused.isSome = true) : pauseDone s n = pauseEnd s n (ethPort s n).pauseQ := if_pos h

/-- The state of a port whose watchdog has ended its pause, before it is counted. -/
def heldOff (s : State) (n : Nat) : State :=
  setEth (pauseEnd s n (pauseRun s n)) n { ethPort (pauseEnd s n (pauseRun s n)) n with holdoff := true }

theorem pauseWatch_paused (h : (ethPort s n).paused.isSome = true) :
    pauseWatch s n = ev (ethCount (heldOff s n) n 40 1) (ethPg n) 2 :=
  if_neg (by rw [Option.isNone_eq_false_iff.2 h]; decide)

theorem rd_heldOff (s : State) (n : Nat) {o : Nat} (ho : o ≠ 0x2B0) :
    rd (heldOff s n) (reg (ethPg n) o) = rd s (reg (ethPg n) o) := rd_pauseEnd_other s n _ ho

theorem corMode_heldOff (s : State) (n : Nat) : corMode (heldOff s n) (ethPg n) = corMode s (ethPg n) :=
  corMode_congr (s := s) (t := heldOff s n) rfl (rd_heldOff s n (by decide))

/-- The watchdog lets the port transmit, begins its hold-off and counts. -/
theorem pauseWatch_ends (hn : n < 18) (h : (ethPort s n).paused.isSome = true) (hcor : corMode s (ethPg n) = false) :
    ethPort (pauseWatch s n) n = { ethPort s n with paused := none, pauseQ := 0, holdoff := true } ∧
      cnt (pauseWatch s n) n 40 = cnt s n 40 + 1 ∧ rdB (pauseWatch s n) (reg (ethPg n) 0x088) 2 = true := by
  have hcount := (Tallied.refl n [40] (heldOff s n)).ethCount hn 1 (List.mem_singleton_self 40)
  rw [pauseWatch_paused h]
  refine ⟨?_, ?_, rdB_ev_same _ (evtAddr_ethPg hn) (by decide)⟩
  · rw [ethPort_congr (ev_eth _ _ _), hcount.port, heldOff, ethPort_setEth_same, ethPort_pauseEnd]
  · refine (rd_evEth_other _ _ hn fun e => absurd (reg_right_inj.1 e) (by decide)).trans ?_
    refine (cnt_ethCount_same hn (by decide) ((corMode_heldOff s n).trans hcor)).trans ?_
    rw [cnt, rd_heldOff s n (by decide)]
    rfl

/-! ### The next frame (R215, R220) -/

theorem bestJob_eq_none {l : List TxJob} (h : bestJob l = none) : l = [] := by
  cases l with
  | nil => rfl
  | cons j js =>
    unfold bestJob at h
    split at h
    · cases h
    · split at h <;> cases h

/-- The job chosen is of the lowest rank. -/
theorem bestJob_least {l : List TxJob} {j : TxJob} (h : bestJob l = some j) : j ∈ l ∧ ∀ k ∈ l, jobRank j ≤ jobRank k := by
  induction l generalizing j with
  | nil => cases h
  | cons i is ih =>
    unfold bestJob at h
    split at h
    · rename_i hnone
      cases h
      rw [bestJob_eq_none hnone]
      simp
    · rename_i b hb
      obtain ⟨hmem, hleast⟩ := ih hb
      split at h
      · rename_i hlt
        cases h
        refine ⟨List.mem_cons_of_mem _ hmem, fun k hk => ?_⟩
        rcases List.mem_cons.1 hk with rfl | hk
        · exact hlt.le
        · exact hleast k hk
      · rename_i hge
        cases h
        refine ⟨List.mem_cons_self, fun k hk => ?_⟩
        rcases List.mem_cons.1 hk with rfl | hk
        · exact le_refl _
        · exact (Nat.not_lt.1 hge).trans (hleast k hk)

theorem dropJob_eq_erase (j : TxJob) (l : List TxJob) : dropJob j l = l.erase j := by
  induction l with
  | nil => rfl
  | cons k ks ih =>
    unfold dropJob
    by_cases h : k = j
    · rw [if_pos h, h, List.erase_cons_head]
    · rw [if_neg h, ih, List.erase_cons_tail (by simpa using h)]

/-- A port that transmits and is not paused starts the most urgent of its jobs. -/
theorem txStart_starts (hruns : ethRuns s n = true) (hen : rdB s (reg (ethPg n) 0x080) 1 = true)
    (hwire : (ethPort s n).onWire = none) (hpause : (ethPort s n).paused = none) (hjobs : (ethPort s n).jobs ≠ []) :
    ∃ j, bestJob (ethPort s n).jobs = some j ∧
      ethPort (txStart s n) n = { ethPort s n with jobs := (ethPort s n).jobs.erase j, onWire := some j } := by
  obtain ⟨j, hj⟩ := Option.ne_none_iff_exists'.1 fun h => hjobs (bestJob_eq_none h)
  refine ⟨j, hj, ?_⟩
  unfold txStart
  dsimp only
  rw [hwire]
  dsimp only
  rw [hruns, hen, if_neg (by decide), hpause, if_neg (by decide), hj]
  dsimp only
  rw [dropJob_eq_erase]
  split
  · split
    · rw [ethPort, setEth]
      exact look_put_same _ _ _ _
    · exact ethPort_setEth_same _ _ _
  · exact ethPort_setEth_same _ _ _

/-- A paused port starts none but its PAUSE frames. -/
theorem txStart_paused (hwire : (ethPort s n).onWire = none) (hpause : (ethPort s n).paused.isSome = true)
    (hjobs : ∀ k ∈ (ethPort s n).jobs, 0 < jobRank k) : txStart s n = s := by
  have hnone : (ethPort s n).jobs.filter (fun j => jobRank j == 0) = [] := List.filter_eq_nil_iff.2 fun k hk => by
    have := hjobs k hk
    simp
    omega
  unfold txStart
  dsimp only
  rw [hwire]
  dsimp only
  rw [hpause, if_pos rfl, hnone]
  split <;> rfl

/-! ### A job completed (R214, R215) -/

@[simp] theorem ramWrite_eth (s : State) (a : Nat) (bs : List Byte) : (ramWrite s a bs).eth = s.eth := by
  obtain ⟨m, hm⟩ := ramWrite_eq bs s a
  rw [hm]

/-- TX_SEGMENTED counts a segmented job. -/
def segCounted (s : State) (n : Nat) (seg : Bool) : State := if seg then bump s (reg (ethPg n) 0x2B4) else s

@[simp] theorem segCounted_eth (s : State) (n : Nat) (seg : Bool) : (segCounted s n seg).eth = s.eth := by
  unfold segCounted
  split <;> rfl

theorem rd_segCounted (s : State) (n : Nat) (seg : Bool) {o : Nat} (ho : o ≠ 0x2B4) :
    rd (segCounted s n seg) (reg (ethPg n) o) = rd s (reg (ethPg n) o) := by
  unfold segCounted
  split
  · exact rd_bump_other s fun e => ho (reg_right_inj.1 e)
  · rfl

/-- What a descriptor written back leaves of the port and its registers. -/
theorem descDone_leaves (s : State) {n : Nat} (hn : n < 18) (idx : Nat) (seg : Bool) (status outcome frames : Nat) :
    (descDone s n idx seg status outcome frames).eth = s.eth ∧
      (∀ o, o ≠ 0x088 → o ≠ 0x2B4 →
        rd (descDone s n idx seg status outcome frames) (reg (ethPg n) o) = rd s (reg (ethPg n) o)) ∧
      rd (descDone s n idx seg status outcome frames) (reg (ethPg n) 0x088) =
        rd s (reg (ethPg n) 0x088) ||| w32 (2 ^ 5) := by
  unfold descDone
  dsimp only
  refine ⟨?_, fun o h8 hb => ?_, ?_⟩
  · rw [ev_eth, ramWrite_eth, ramWrite_eth, ramWrite_eth, ramWrite_eth]
    exact segCounted_eth s n seg
  · rw [rd_evEth_other _ _ hn fun e => h8 (reg_right_inj.1 e), rd_ramWrite, rd_ramWrite, rd_ramWrite, rd_ramWrite]
    exact rd_segCounted s n seg hb
  · rw [rd_ev_same _ 5 (evtAddr_ethPg hn), rd_ramWrite, rd_ramWrite, rd_ramWrite, rd_ramWrite]
    exact congrArg (· ||| w32 (2 ^ 5)) (rd_segCounted s n seg (by decide))

/-- What a completed job leaves of its port and the port's registers: beside TX_SEGMENTED, the completion of a descriptor with its
event and the ring's head. -/
structure JobOver (n : Nat) (j : TxJob) (s t : State) : Prop where
  eth : t.eth = s.eth
  rd : ∀ o, o ∉ [0x088, 0x0D0, 0x2B4] → rd t (reg (ethPg n) o) = rd s (reg (ethPg n) o)
  events : ∀ b, rdB s (reg (ethPg n) 0x088) b = true → rdB t (reg (ethPg n) 0x088) b = true
  ring : ∀ i < 4096, j.src = .ring i → rdB t (reg (ethPg n) 0x088) 5 = true ∧
    rdF t (reg (ethPg n) 0x0D0) 0 12 = (i + 1) % ringSize s (reg (ethPg n) 0x0C8) 12

theorem jobOver_jobDone (s : State) (hn : n < 18) (j : TxJob) (status outcome : Nat) :
    JobOver n j s (jobDone s n j status outcome) := by
  have hother (hsrc : ∀ i, j.src ≠ .ring i) : JobOver n j s (segCounted s n j.seg) := by
    refine ⟨segCounted_eth s n _, fun o ho => rd_segCounted s n _ fun e => ho (by simp [e]), fun b hb => ?_,
      fun i _ hi => absurd hi (hsrc i)⟩
    rw [rdB, rd_segCounted s n _ (by decide)]
    exact hb
  unfold jobDone
  split
  · rename_i i hsrc
    dsimp only
    obtain ⟨heth, hrd, hevt⟩ := descDone_leaves s hn i j.seg status outcome j.sent
    have hev : rd (wr (descDone s n i j.seg status outcome j.sent) (reg (ethPg n) 0x0D0)
        (w32 ((i + 1) % ringSize s (reg (ethPg n) 0x0C8) 12))) (reg (ethPg n) 0x088) =
        rd s (reg (ethPg n) 0x088) ||| w32 (2 ^ 5) := by
      rw [rd_wr_other _ _ fun e => absurd (reg_right_inj.1 e) (by decide), hevt]
    refine ⟨heth, fun o ho => ?_, fun b hb => ?_, fun k _ hk => ⟨?_, ?_⟩⟩
    · simp only [List.mem_cons, List.not_mem_nil, or_false, not_or] at ho
      rw [rd_wr_other _ _ fun e => ho.2.1 (reg_right_inj.1 e), hrd o ho.1 ho.2.2]
    · unfold rdB at hb ⊢
      rw [hev, bit_or, hb, Bool.true_or]
    · rw [rdB, hev, bit_or, bit_w32_pow 5 (by decide), decide_eq_true rfl, Bool.or_true]
    · cases hsrc.symm.trans hk
      exact rdF_wr_ringNext _ _ _ _ s
  · rename_i hsrc
    exact hother hsrc

/-! ### The frame on the wire ends (R213, R215, R218, R222) -/

/-- The counters of a frame sent other than TX_FRAMES. -/
def sentStats : List Nat := [24, 26, 27, 28, 29, 30, 31, 32, 33, 34, 35, 36, 38]

/-- The counting of a frame sent. -/
def sentCounted (s : State) (n : Nat) (j : TxJob) : State :=
  let f := j.frames.headD []
  let size := max 64 (f.length + 4)
  let s := if f.length + 4 < 64 then ethCount s n 38 1 else s
  let s := ethCount s n 24 size
  let s := ethCount s n 25 1
  let s := if beAt f 0 6 = 0xFFFFFFFFFFFF then ethCount s n 28 1
    else if beAt f 0 1 % 2 = 1 then ethCount s n 27 1 else ethCount s n 26 1
  let s := ethCount s n (30 + bucket size) 1
  match j.src with | .pause _ => ethCount s n 29 1 | _ => s

/-- A frame sent counts in TX_FRAMES once. -/
theorem sentCounted_counts (hn : n < 18) (j : TxJob) (hcor : corMode s (ethPg n) = false) :
    Tallied n (25 :: sentStats) s (sentCounted s n j) ∧ cnt (sentCounted s n j) n 25 = cnt s n 25 + 1 := by
  have hbucket (size : Nat) : 30 + bucket size ∈ sentStats := by
    have := bucket_le size
    interval_cases bucket size <;> decide
  unfold sentCounted
  dsimp only
  generalize hu : ethCount (if (j.frames.headD []).length + 4 < 64 then ethCount s n 38 1 else s) n 24
    (max 64 ((j.frames.headD []).length + 4)) = u
  generalize hv : (if beAt (j.frames.headD []) 0 6 = 0xFFFFFFFFFFFF then _ else _ : State) = v
  generalize hw : (match j.src with | .pause _ => _ | _ => _ : State) = w
  have hbefore : Tallied n sentStats s u := by
    rw [← hu]
    refine Tallied.ethCount ?_ hn _ (by decide)
    split
    · exact (Tallied.refl n _ s).ethCount hn 1 (by decide)
    · exact .refl n _ s
  have hkind : Tallied n sentStats (ethCount u n 25 1) v := by
    have hcast (k : Nat) (hk : k ∈ [26, 27, 28]) := (Tallied.refl n sentStats (ethCount u n 25 1)).ethCount hn (k := k) 1
      (by revert k; decide)
    rw [← hv]
    split_ifs
    exacts [hcast 28 (by decide), hcast 27 (by decide), hcast 26 (by decide)]
  have hafter : Tallied n sentStats (ethCount u n 25 1) w := by
    rw [← hw]
    split
    · exact (hkind.ethCount hn 1 (hbucket _)).ethCount hn 1 (by decide)
    · exact hkind.ethCount hn 1 (hbucket _)
  have hsub : sentStats ⊆ 25 :: sentStats := List.subset_cons_self _ _
  refine ⟨((hbefore.mono hsub).ethCount hn (k := 25) 1 (by decide)).trans (hafter.mono hsub), ?_⟩
  rw [hafter.cnt (by decide), cnt_ethCount_same hn (by decide) (hbefore.corMode.trans hcor), hbefore.cnt (by decide)]

/-- The wire is free again. -/
def wireFree (s : State) (n : Nat) : State := setEth s n { ethPort s n with onWire := none }

/-- The job whose frame has been sent goes on or completes. -/
def sentOn (s : State) (n : Nat) (j : TxJob) : State :=
  match j.frames with
  | [] => jobDone (wireFree s n) n j 0 (outWord oSERVED 0)
  | _ => setEth s n { ethPort s n with onWire := none, jobs := j :: (ethPort s n).jobs }

theorem txEnd_eq {j : TxJob} {f : List Byte} {rest : List (List Byte)} (hwire : (ethPort s n).onWire = some j)
    (hframes : j.frames = f :: rest) :
    txEnd s n = sentOn (sentCounted s n j) n { j with frames := rest, sent := j.sent + 1 } := by
  have hrest : rest = j.frames.drop 1 := by rw [hframes, List.drop_one, List.tail_cons]
  unfold txEnd
  dsimp only
  rw [hwire, hrest]
  rfl

/-- A frame that ends frees the wire; its job goes on, or completes its descriptor. -/
theorem txEnd_sends {j : TxJob} {f : List Byte} {rest : List (List Byte)} (hn : n < 18)
    (hwire : (ethPort s n).onWire = some j) (hframes : j.frames = f :: rest) (hcor : corMode s (ethPg n) = false) :
    (ethPort (txEnd s n) n).onWire = none ∧ cnt (txEnd s n) n 25 = cnt s n 25 + 1 ∧
      (rest ≠ [] → (ethPort (txEnd s n) n).jobs = { j with frames := rest, sent := j.sent + 1 } :: (ethPort s n).jobs) ∧
      (rest = [] → (ethPort (txEnd s n) n).jobs = (ethPort s n).jobs ∧ ∀ i < 4096, j.src = .ring i →
        rdB (txEnd s n) (reg (ethPg n) 0x088) 5 = true ∧
        rdF (txEnd s n) (reg (ethPg n) 0x0D0) 0 12 = (i + 1) % ringSize s (reg (ethPg n) 0x0C8) 12) := by
  obtain ⟨hcounts, h25⟩ := sentCounted_counts hn j hcor
  rw [txEnd_eq hwire hframes, ← hcounts.port, ← hcounts.ringSize 12 (by decide) (by decide)]
  generalize sentCounted s n j = u at *
  cases rest with
  | nil =>
    have hover := jobOver_jobDone (wireFree u n) hn { j with frames := [], sent := j.sent + 1 } 0 (outWord oSERVED 0)
    have hport : ethPort (sentOn u n { j with frames := [], sent := j.sent + 1 }) n = { ethPort u n with onWire := none } :=
      (ethPort_congr hover.eth n).trans (ethPort_setEth_same _ _ _)
    rw [hport]
    exact ⟨rfl, (hover.rd _ (by decide)).trans h25, fun h => absurd rfl h, fun _ => ⟨rfl, hover.ring⟩⟩
  | cons g gs =>
    have hport : ethPort (sentOn u n { j with frames := g :: gs, sent := j.sent + 1 }) n = { ethPort u n with
        onWire := none, jobs := { j with frames := g :: gs, sent := j.sent + 1 } :: (ethPort u n).jobs } :=
      ethPort_setEth_same _ _ _
    rw [hport]
    exact ⟨rfl, h25, fun _ => rfl, fun h => absurd h (List.cons_ne_nil _ _)⟩

/-- The state of a port whose transmit area has run dry, before its job completes. -/
def ranDry (s : State) (n : Nat) : State :=
  let t := ev (ethCount s n 37 1) (ethPg n) 1
  setEth (wrF t (reg (ethPg n) 0x0B0) 0 6 (min 38 (max 1 (rdF t (reg (ethPg n) 0x0B0) 0 6) + 1))) n
    { ethPort s n with onWire := none }

theorem txDry_eq {j : TxJob} (hwire : (ethPort s n).onWire = some j) :
    txDry s n = jobDone (ranDry s n) n j 2 (outWord oSERVED 0) := by
  unfold txDry
  dsimp only
  rw [hwire]
  rfl

/-- An underrun frees the wire, counts, and raises THR. -/
theorem ranDry_leaves (hn : n < 18) (hcor : corMode s (ethPg n) = false) :
    ethPort (ranDry s n) n = { ethPort s n with onWire := none } ∧ cnt (ranDry s n) n 37 = cnt s n 37 + 1 ∧
      cnt (ranDry s n) n 25 = cnt s n 25 ∧ rdB (ranDry s n) (reg (ethPg n) 0x088) 1 = true ∧
      rdF (ranDry s n) (reg (ethPg n) 0x0B0) 0 6 = min 38 (max 1 (rdF s (reg (ethPg n) 0x0B0) 0 6) + 1) := by
  have hcount := (Tallied.refl n [37] s).ethCount hn 1 (List.mem_singleton_self 37)
  have hevt := hcount.ev hn 1
  have hrd {o : Nat} (ho : o ≠ 0x0B0) : rd (ranDry s n) (reg (ethPg n) o) =
      rd (ev (ethCount s n 37 1) (ethPg n) 1) (reg (ethPg n) o) := by
    unfold ranDry
    dsimp only
    rw [rd_setEth, rd_wrF_other _ _ _ _ fun e => ho (reg_right_inj.1 e)]
  refine ⟨?_, ?_, ?_, ?_, ?_⟩
  · exact ethPort_setEth_same _ _ _
  · rw [cnt, hrd (by decide), rd_evEth_other _ _ hn fun e => absurd (reg_right_inj.1 e) (by decide)]
    exact cnt_ethCount_same hn (by decide) hcor
  · rw [cnt, hrd (by decide)]
    exact hevt.cnt (by decide)
  · rw [rdB, hrd (by decide)]
    exact rdB_ev_same _ (evtAddr_ethPg hn) (by decide)
  · unfold ranDry
    dsimp only
    rw [rdF, rd_setEth, ← rdF, rd_wrF_same _ _ (by decide), rdF_congr (hevt.setting (by decide) (by decide)), Nat.mod_eq_of_lt (by omega)]

/-- A frame that runs dry frees the wire and completes its job. -/
theorem txDry_ends {j : TxJob} (hn : n < 18) (hwire : (ethPort s n).onWire = some j) (hcor : corMode s (ethPg n) = false) :
    ethPort (txDry s n) n = { ethPort s n with onWire := none } ∧ cnt (txDry s n) n 37 = cnt s n 37 + 1 ∧
      cnt (txDry s n) n 25 = cnt s n 25 ∧ rdB (txDry s n) (reg (ethPg n) 0x088) 1 = true ∧
      rdF (txDry s n) (reg (ethPg n) 0x0B0) 0 6 = min 38 (max 1 (rdF s (reg (ethPg n) 0x0B0) 0 6) + 1) := by
  obtain ⟨hport, h37, h25, hevt, hthr⟩ := ranDry_leaves hn hcor
  have hover := jobOver_jobDone (ranDry s n) hn j 2 (outWord oSERVED 0)
  rw [txDry_eq hwire]
  exact ⟨(ethPort_congr hover.eth n).trans hport, (hover.rd _ (by decide)).trans h37, (hover.rd _ (by decide)).trans h25,
    hover.events 1 hevt, (rdF_congr (hover.rd _ (by decide)) 0 6).trans hthr⟩

/-! ### The doorbells (R215) -/

/-- A write to a block register of an Ethernet page is one of its port's. -/
theorem writeEffect_eth (s : State) (i : Init) {o : Nat} (v : Word) (hn : n < 18) (ho : o < 4096) (hblock : 0x080 ≤ o)
    (hrow : (rowOf (reg (ethPg n) o)).isNone = false) : writeEffect s i (reg (ethPg n) o) v = writeEth s n o v := by
  have hbank : isLoopbank (ethPg n) = false := by
    have hall : ∀ m : Fin 18, isLoopbank (ethPg m.val) = false := by decide
    exact hall ⟨n, hn⟩
  have hlow : 0x40 ≤ ethPg n := Nat.le_add_right _ _
  have hhigh : ethPg n ≤ 0x51 := by
    unfold ethPg pETH
    omega
  have hport : ethPg n - pETH = n := Nat.add_sub_cancel_left _ _
  have hne {p : Nat} (hp : p < 0x40) : ethPg n ≠ p := by omega
  have hand {p : Nat} (hp : p < 0x40) (q : Prop) : ¬ (ethPg n = p ∧ q) := fun h => hne hp h.1
  unfold writeEffect writeBlock
  dsimp only
  rw [hrow, pageOf_reg _ ho, offOf_reg _ ho, hbank, if_neg Bool.false_ne_true, if_neg Bool.false_ne_true, if_neg (by omega),
    if_neg (hne (by decide)), if_neg (hne (by decide)), if_neg (hne (by decide)), if_neg (hand (by decide) _),
    if_neg (hne (by decide)), if_neg (hand (by decide) _), if_neg (hand (by decide) _), if_neg (by omega),
    if_neg (by unfold pSCAN pSCANDBG pPGMX pFORCE; omega), if_neg (by unfold pWGHEN; omega), if_neg (hand (by decide) _),
    if_neg (by unfold pFACT pFACTQ; omega), if_neg (hne (by decide)), if_neg (hne (by decide)),
    if_pos ⟨hlow, hhigh⟩, hport]

theorem writeEffect_txrTail (s : State) (i : Init) (v : Word) (hn : n < 18) :
    writeEffect s i (reg (ethPg n) 0x0CC) v = txrTail s n v := by
  have hrow : ∀ m : Fin 18, (rowOf (reg (ethPg m.val) 0x0CC)).isNone = false := by decide
  rw [writeEffect_eth s i v hn (by decide) (by decide) (hrow ⟨n, hn⟩), writeEth, if_pos rfl]

theorem writeEffect_rxrTail (s : State) (i : Init) (v : Word) (hn : n < 18) :
    writeEffect s i (reg (ethPg n) 0x0E0) v = rxrTail s n v := by
  have hrow : ∀ m : Fin 18, (rowOf (reg (ethPg m.val) 0x0E0)).isNone = false := by decide
  rw [writeEffect_eth s i v hn (by decide) (by decide) (hrow ⟨n, hn⟩), writeEth, if_neg (by decide), if_pos rfl]

/-- A doorbell that hands over one descriptor. -/
theorem txrTail_one {v : Word} {sz old : Nat} (hsz : sz = ringSize s (reg (ethPg n) 0x0C8) 12)
    (hold : old = rdF s (reg (ethPg n) 0x0CC) 0 12 % sz) (hnew : fld v 0 12 % sz = (old + 1) % sz) (hone : 1 < sz) :
    txrTail s n v = descLoad (wr s (reg (ethPg n) 0x0CC) (w32 (fld v 0 12))) n old := by
  have hlt : old < sz := by
    rw [hold]
    exact Nat.mod_lt _ (by omega)
  have hcount : ((old + 1) % sz + sz - old) % sz = 1 := by
    rcases Nat.lt_or_ge (old + 1) sz with h | h
    · rw [Nat.mod_eq_of_lt h, show old + 1 + sz - old = 1 + sz by omega, Nat.add_mod_right, Nat.mod_eq_of_lt hone]
    · rw [show old + 1 = sz by omega, Nat.mod_self, show 0 + sz - old = 1 by omega, Nat.mod_eq_of_lt hone]
  unfold txrTail
  dsimp only
  rw [← hsz, ← hold, hnew, hcount]
  unfold descHand descHand
  rw [Nat.mod_eq_of_lt hlt]

/-- Where a descriptor of a port's transmit ring stands. -/
def descAddr (s : State) (n idx : Nat) : Nat := rd64 s (reg (ethPg n) 0x0C0) + 32 * idx

/-- A descriptor that the MAC does not own is passed over. -/
theorem descLoad_notOwned {idx : Nat} (h : ramNat s (descAddr s n idx + 0x0F) 1 / 128 % 2 = 0) : descLoad s n idx = s :=
  if_pos h

/-- A descriptor whose frame needs no segmentation makes one job of one frame. -/
theorem descLoad_whole {idx : Nat} (hown : ramNat s (descAddr s n idx + 0x0F) 1 / 128 % 2 = 1)
    (hcls : ramNat s (descAddr s n idx + 0x10) 1 ≤ 4) (hopx : ramNat s (descAddr s n idx + 0x0F) 1 / 16 % 2 = 0)
    (hseg : ramNat s (descAddr s n idx + 0x0F) 1 / 64 % 2 = 0) (hlen : ramNat s (descAddr s n idx + 8) 4 + 4 ≤ maxLen s n) :
    ∃ j : TxJob, descLoad s n idx = setEth s n { ethPort s n with jobs := (ethPort s n).jobs ++ [j] } ∧ j.src = .ring idx ∧
      j.cls = clsOf (ramNat s (descAddr s n idx + 0x10) 1) ∧ j.frames.length = 1 ∧ j.sent = 0 := by
  have hmax : maxLen s n < 2 ^ 14 := Nat.mod_lt _ (by decide)
  unfold descAddr at *
  unfold descLoad
  dsimp only
  rw [if_neg (by omega), if_neg (by omega), if_neg (by simp only [hseg]; simp; omega)]
  refine ⟨_, rfl, rfl, rfl, ?_, rfl⟩
  simp [hseg]

/-! ### The link (R239) -/

theorem linkSet_shows (hn : n < 18) (up : Bool) : (ethPort (linkSet s n up) n).link = up ∧
    (up ≠ (ethPort s n).link → rdB (linkSet s n up) (reg (ethPg n) 0x088) 0 = true) := by
  unfold linkSet
  dsimp only
  split
  · rename_i h
    exact ⟨h, fun hne => absurd h.symm hne⟩
  · rw [ethPort_congr (ev_eth _ _ _), ethPort_setEth_same]
    exact ⟨rfl, fun _ => rdB_ev_same _ (evtAddr_ethPg hn) (by decide)⟩

/-! ### The commands -/

theorem exec_pauseRepeat (p : Fin 18) (s : State) : exec (.pauseRepeat p) s = finish s (pauseAgain s p.val) := rfl
theorem exec_pauseExpiry (p : Fin 18) (s : State) : exec (.pauseExpiry p) s = finish s (pauseDone s p.val) := rfl
theorem exec_pauseWatchdog (p : Fin 18) (s : State) : exec (.pauseWatchdog p) s = finish s (pauseWatch s p.val) := rfl
theorem exec_holdoffEnd (p : Fin 18) (s : State) : exec (.holdoffEnd p) s = finish s (holdEnd s p.val) := rfl
theorem exec_txFrameStart (p : Fin 18) (s : State) : exec (.txFrameStart p) s = finish s (txStart s p.val) := rfl
theorem exec_txFrameEnd (p : Fin 18) (s : State) : exec (.txFrameEnd p) s = finish s (txEnd s p.val) := rfl
theorem exec_txUnderrun (p : Fin 18) (s : State) : exec (.txUnderrun p) s = finish s (txDry s p.val) := rfl
theorem exec_ethLinkChange (p : Fin 18) (up : Bool) (s : State) : exec (.ethLinkChange p up) s = finish s (linkSet s p.val up) := rfl
theorem exec_ethTxrTail (i : Init) (p : Fin 18) (v : Word) (s : State) :
    exec (.ethTxrTail i p v) s = finishClock s (submitWrite s i (reg (ethPg p.val) 0x0CC) v) := rfl
theorem exec_ethRxrTail (i : Init) (p : Fin 18) (v : Word) (s : State) :
    exec (.ethRxrTail i p v) s = finishClock s (submitWrite s i (reg (ethPg p.val) 0x0E0) v) := rfl

/-- A command that moves neither the clock nor the guard leaves the ports and the registers as its operation does. -/
theorem finish_ports (s u : State) : ∃ t, finish s u = .next t ∧ t.eth = u.eth ∧ t.regs = u.regs := ⟨_, rfl, rfl, rfl⟩

theorem booked_ethPg {o : Nat} (hn : n < 18) (ho : o < 4096) : booked (reg (ethPg n) o) = false :=
  booked_of_page ho (ethPg_ne hn (by decide)) (ethPg_ne hn (by decide))

/-- A doorbell write that meets nothing on its way hands one descriptor over: the MAC reads it as it stood. -/
theorem txrTail_hands {w : State} {v : Word} {sz old : Nat} (hl : Light s w) (hn : n < 18)
    (hsz : sz = ringSize s (reg (ethPg n) 0x0C8) 12) (hold : old = rdF s (reg (ethPg n) 0x0CC) 0 12 % sz)
    (hnew : fld v 0 12 % sz = (old + 1) % sz) (hone : 1 < sz) :
    ∃ u, txrTail w n v = descLoad u n old ∧ u.dram = s.dram ∧ u.eth = s.eth ∧ descAddr u n old = descAddr s n old ∧
      maxLen u n = maxLen s n := by
  have hrd {o : Nat} (ho : o < 4096) : rd w (reg (ethPg n) o) = rd s (reg (ethPg n) o) := hl.rd _ (booked_ethPg hn ho)
  have hwr {o : Nat} (ho : o < 4096) (hne : o ≠ 0x0CC) :
      rd (wr w (reg (ethPg n) 0x0CC) (w32 (fld v 0 12))) (reg (ethPg n) o) = rd s (reg (ethPg n) o) :=
    (rd_wr_other _ _ fun e => hne (reg_right_inj.1 e)).trans (hrd ho)
  have hsz' : sz = ringSize w (reg (ethPg n) 0x0C8) 12 := by
    rw [ringSize, rdF_congr (hrd (by decide))]
    exact hsz
  refine ⟨_, txrTail_one hsz' (by rw [hold, rdF_congr (hrd (by decide))]) hnew hone, hl.dram, hl.eth, ?_,
    rdF_congr (hwr (by decide) (by decide)) _ _⟩
  have hhigh : reg (ethPg n) 0x0C0 + 4 = reg (ethPg n) 0x0C4 := rfl
  unfold descAddr
  rw [rd64_congr (s := s) (hwr (by decide) (by decide)) (by rw [hhigh]; exact hwr (by decide) (by decide))]

section

variable {i : Init} {v : Word} {sz old : Nat} (hn : n < 18) (hclear : clear s i (reg (ethPg n) 0x0CC) v = true)
  (hsz : sz = ringSize s (reg (ethPg n) 0x0C8) 12) (hold : old = rdF s (reg (ethPg n) 0x0CC) 0 12 % sz)
  (hnew : fld v 0 12 % sz = (old + 1) % sz) (hone : 1 < sz)

include hn hclear hsz hold hnew hone

theorem txr_notOwned (hown : ramNat s (descAddr s n old + 0x0F) 1 / 128 % 2 = 0) :
    ∃ t, finishClock s (submitWrite s i (reg (ethPg n) 0x0CC) v) = .next t ∧ (ethPort t n).jobs = (ethPort s n).jobs ∧
      t.dram = s.dram := by
  refine row_clear hclear (reg_ne_of_page (ethPg_ne hn (by decide)) (by decide) (by decide)) fun w t hl hd => ?_
  obtain ⟨u, htail, hdram, heth, haddr, -⟩ := txrTail_hands hl hn hsz hold hnew hone
  rw [writeEffect_txrTail w _ v hn, htail, descLoad_notOwned (by rw [haddr, ramNat_congr hdram]; exact hown)] at hd
  exact ⟨by rw [ethPort_congr (hd.eth.trans heth)], hd.dram.trans hdram⟩

theorem txr_owned (hown : ramNat s (descAddr s n old + 0x0F) 1 / 128 % 2 = 1)
    (hcls : ramNat s (descAddr s n old + 0x10) 1 ≤ 4) (hopx : ramNat s (descAddr s n old + 0x0F) 1 / 16 % 2 = 0)
    (hseg : ramNat s (descAddr s n old + 0x0F) 1 / 64 % 2 = 0) (hlen : ramNat s (descAddr s n old + 8) 4 + 4 ≤ maxLen s n) :
    ∃ t j, finishClock s (submitWrite s i (reg (ethPg n) 0x0CC) v) = .next t ∧
      (ethPort t n).jobs = (ethPort s n).jobs ++ [j] ∧ j.src = .ring old ∧
      j.cls = clsOf (ramNat s (descAddr s n old + 0x10) 1) ∧ j.frames.length = 1 ∧ j.sent = 0 := by
  suffices h : ∃ t, finishClock s (submitWrite s i (reg (ethPg n) 0x0CC) v) = .next t ∧ ∃ j,
      (ethPort t n).jobs = (ethPort s n).jobs ++ [j] ∧ j.src = .ring old ∧
      j.cls = clsOf (ramNat s (descAddr s n old + 0x10) 1) ∧ j.frames.length = 1 ∧ j.sent = 0 by
    obtain ⟨t, hexec, j, hj⟩ := h
    exact ⟨t, j, hexec, hj⟩
  refine row_clear hclear (reg_ne_of_page (ethPg_ne hn (by decide)) (by decide) (by decide)) fun w t hl hd => ?_
  obtain ⟨u, htail, hdram, heth, haddr, hmax⟩ := txrTail_hands hl hn hsz hold hnew hone
  rw [← ramNat_congr hdram, ← haddr] at hown hcls hopx hseg hlen ⊢
  obtain ⟨j, hload, hsrc, hjcls, hframes, hsent⟩ := descLoad_whole hown hcls hopx hseg (by rw [hmax]; exact hlen)
  rw [writeEffect_txrTail w _ v hn, htail, hload] at hd
  refine ⟨j, ?_, hsrc, hjcls, hframes, hsent⟩
  rw [ethPort_congr hd.eth, ethPort_setEth_same, ethPort_congr heth]

end

/-- The doorbell of the receive ring places the one held frame. -/
theorem rxr_places {i : Init} {v : Word} {f : List Byte} (hn : n < 18) (hclear : clear s i (reg (ethPg n) 0x0E0) v = true)
    (hhold : (ethPort s n).rxHold = [f]) (hring : rdF s (reg (ethPg n) 0x0E4) 0 12 % ringSize s (reg (ethPg n) 0x0DC) 12 ≠
      fld v 0 12 % ringSize s (reg (ethPg n) 0x0DC) 12) :
    ∃ t, finishClock s (submitWrite s i (reg (ethPg n) 0x0E0) v) = .next t ∧ (ethPort t n).rxHold = [] ∧
      rdB t (reg (ethPg n) 0x088) 6 = true := by
  refine row_clear hclear (reg_ne_of_page (ethPg_ne hn (by decide)) (by decide) (by decide)) fun w t hl hd => ?_
  have hother {o : Nat} (ho : o < 4096) (hne : o ≠ 0x0E0) :
      rd (wr w (reg (ethPg n) 0x0E0) (w32 (fld v 0 12))) (reg (ethPg n) o) = rd s (reg (ethPg n) o) :=
    (rd_wr_other _ _ fun e => hne (reg_right_inj.1 e)).trans (hl.rd _ (booked_ethPg hn ho))
  have htail : rdF (wr w (reg (ethPg n) 0x0E0) (w32 (fld v 0 12))) (reg (ethPg n) 0x0E0) 0 12 = fld v 0 12 := by
    rw [rdF, rd_wr_same, fld_w32_fld v (by decide)]
  have hwhold : (ethPort w n).rxHold = [f] := by rw [ethPort_congr hl.eth, hhold]
  have hplaced := ringPlace_one (s := wr w (reg (ethPg n) 0x0E0) (w32 (fld v 0 12))) hn hwhold (by
    rw [htail, ringSize, rdF_congr (hother (o := 0x0DC) (by decide) (by decide)),
      rdF_congr (hother (o := 0x0E4) (by decide) (by decide))]
    exact hring)
  rw [writeEffect_rxrTail w _ v hn, rxrTail, hwhold, List.length_singleton] at hd
  refine ⟨?_, ?_⟩
  · rw [ethPort_congr hd.eth, hplaced.port]
  · rw [rdB, hd.rd]
    exact hplaced.event

/-- Settles O45: each operation of a port, by what it leaves. -/
theorem portsPauseAndTransmit : Obligations.PortsPauseAndTransmit := by
  unfold Obligations.PortsPauseAndTransmit
  intro s n p hp
  subst hp
  refine ⟨fun hpausing hlwm => ?_, fun hpaused hcor => ⟨?_, ?_⟩, ?_, fun hruns hen hwire => ⟨fun hpause hjobs => ?_,
    fun hpause hjobs => ?_⟩, fun j f rest hwire hframes hcor => ⟨?_, ?_⟩, fun i v sz old d hsz hold hd hclear hnew hone => ?_,
    fun i v f hclear hhold hring => ?_, fun up => ?_⟩
  · obtain ⟨j, hsrc, hjobs⟩ := jobs_sendPause s n.val (quantaOf s n.val)
    obtain ⟨t, hexec, heth, -⟩ := finish_ports s (sendPause s n.val (quantaOf s n.val))
    rw [exec_pauseRepeat, pauseAgain_sends hpausing hlwm]
    exact ⟨t, j, hexec, by rw [ethPort_congr heth, hjobs], hsrc⟩
  · obtain ⟨t, hexec, heth, hregs⟩ := finish_ports s (pauseEnd s n.val (ethPort s n.val).pauseQ)
    rw [exec_pauseExpiry, pauseDone_paused hpaused]
    refine ⟨t, hexec, ?_, ?_, (rd_congr hregs _).trans (rd_pauseEnd_same _ n.isLt hcor)⟩
    · rw [ethPort_congr heth, ethPort_pauseEnd]
    · rw [sameJobs, ethPort_congr heth, ethPort_pauseEnd]
      exact ⟨rfl, rfl⟩
  · obtain ⟨hport, h40, hevt⟩ := pauseWatch_ends n.isLt hpaused hcor
    obtain ⟨t, hexec, heth, hregs⟩ := finish_ports s (pauseWatch s n.val)
    rw [exec_pauseWatchdog]
    refine ⟨t, hexec, ?_⟩
    rw [sameJobs, ethPort_congr heth, hport, cnt, rd_congr hregs, rdB, rd_congr hregs]
    exact ⟨rfl, rfl, ⟨rfl, rfl⟩, h40, hevt⟩
  · obtain ⟨t, hexec, heth, -⟩ := finish_ports s (holdEnd s n.val)
    rw [exec_holdoffEnd]
    refine ⟨t, hexec, ?_⟩
    rw [sameJobs, ethPort_congr heth, holdEnd, ethPort_setEth_same]
    exact ⟨rfl, rfl, rfl⟩
  · obtain ⟨j, hj, hport⟩ := txStart_starts hruns hen hwire hpause hjobs
    obtain ⟨hmem, hleast⟩ := bestJob_least hj
    obtain ⟨t, hexec, heth, -⟩ := finish_ports s (txStart s n.val)
    rw [exec_txFrameStart]
    refine ⟨t, j, hexec, ?_⟩
    rw [ethPort_congr heth, hport]
    exact ⟨rfl, hmem, hleast, rfl⟩
  · obtain ⟨t, hexec, heth, -⟩ := finish_ports s s
    rw [exec_txFrameStart, txStart_paused hwire hpause hjobs]
    refine ⟨t, hexec, ?_⟩
    rw [sameJobs, ethPort_congr heth]
    exact ⟨rfl, rfl⟩
  · have hsent := txEnd_sends n.isLt hwire hframes hcor
    obtain ⟨t, hexec, heth, hregs⟩ := finish_ports s (txEnd s n.val)
    rw [exec_txFrameEnd]
    refine ⟨t, hexec, ?_⟩
    rw [ethPort_congr heth, cnt, rd_congr hregs, rdB, rd_congr hregs, rdF, rd_congr hregs]
    exact hsent
  · obtain ⟨hport, h37, h25, hevt, hthr⟩ := txDry_ends n.isLt hwire hcor
    obtain ⟨t, hexec, heth, hregs⟩ := finish_ports s (txDry s n.val)
    rw [exec_txUnderrun]
    refine ⟨t, hexec, ?_⟩
    rw [ethPort_congr heth, hport]
    refine ⟨rfl, rfl, (rd_congr hregs _).trans h37, (rd_congr hregs _).trans h25, ?_, ?_⟩
    · rw [rdB, rd_congr hregs]
      exact hevt
    · rw [rdF, rd_congr hregs]
      exact hthr
  · have haddr : d = descAddr s n.val old := hd
    rw [exec_ethTxrTail, haddr]
    exact ⟨txr_notOwned n.isLt hclear hsz hold hnew hone, txr_owned n.isLt hclear hsz hold hnew hone⟩
  · rw [exec_ethRxrTail]
    exact rxr_places n.isLt hclear hhold hring
  · obtain ⟨hlink, hevt⟩ := linkSet_shows (s := s) n.isLt up
    obtain ⟨t, hexec, heth, hregs⟩ := finish_ports s (linkSet s n.val up)
    rw [exec_ethLinkChange]
    refine ⟨t, hexec, ?_⟩
    rw [ethPort_congr heth, rdB, rd_congr hregs]
    exact ⟨hlink, hevt⟩

end Sys2Proof.Proofs
end

section
/-!
PROOFS. Sessions and their messages (chapter 9, R223–R232, R343): what a message sent to a session leaves, what the close of a
session leaves, and how the session service carries out a message that it grants at once.
-/

namespace Sys2Proof.Proofs

open Sys2Proof.Machine Sys2Proof.Laws

variable {s t u : State}

/-! ### Session slots -/

@[simp] theorem session_setSess_same (s : State) (n : Nat) (x : Session) : session (setSess s n x) n = x := look_put_same _ _ _ _

theorem session_congr (h : t.opx = s.opx) (n : Nat) : session t n = session s n := by
  unfold session
  rw [h]

/-! ### A message to a session (R223, R226) -/

/-- One state is another after a message to a session: it follows those sent before, its session's SEQ has counted, and beside the
engine a port and FRAMES_TX have changed. -/
structure Sent (n : Nat) (x : OpxOut) (s t : State) : Prop where
  rest : t = { s with regs := t.regs, eth := t.eth, opx := t.opx }
  opx : t.opx = { s.opx with
    sess := put .free s.opx.sess n { session s n with txSeq := (session s n).txSeq + 1 }, outq := s.opx.outq ++ [x] }
  rd : ∀ a, a ≠ reg pOPX 0x0AC → rd t a = rd s a

/-- An open session with SEQs left is sent what is queued for it. -/
theorem sent_opxSendAt (pos ty fl : Nat) (c : Cls) (req out : Nat) (body : List Byte) {n : Nat}
    (hopen : (session s n).open_ = true) (hseq : (session s n).txSeq < 0xFFFFFFFF) :
    Sent n ⟨ty, fl, c, n, req, out, body⟩ s (opxSendAt s pos n ty fl c req out body) := by
  unfold opxSendAt
  dsimp only
  rw [if_neg (by rw [hopen]; decide), if_neg (by omega)]
  exact ⟨rfl, rfl, fun a ha => rd_bump_other (setEth (setSess s n _) _ _) ha⟩

section

variable {n : Nat} {x : OpxOut} (h : Sent n x s t)

include h

theorem Sent.outq : t.opx.outq = s.opx.outq ++ [x] := by rw [h.opx]
theorem Sent.upd : t.upd = s.upd := by rw [h.rest]
theorem Sent.clk : t.clk = s.clk := by rw [h.rest]
theorem Sent.session : session t n = { session s n with txSeq := (session s n).txSeq + 1 } := by
  rw [Machine.session, h.opx]
  exact look_put_same _ _ _ _

end

/-! ### Changes entered in the Daybook -/

theorem light_tollUse (s : State) (w : Who) (c : Cls) (k n : Nat) : Light s (tollUse s w c k n) := by
  constructor <;> intros <;> rfl

theorem booked_tollCount {k : Nat} (c : Cls) {o : Nat} (hk : k ≤ 8) (ho : o ≤ 8) :
    booked (reg pTOLL (0x200 + 0x40 * resNum k + 0x0C * clsN c + o)) = true := by
  have := resNum_le hk
  have := clsN_le c
  unfold booked
  rw [pageOf_tollCount k c hk ho, offOf_reg _ (by omega)]
  simp
  omega

theorem light_tollCount (s : State) {k : Nat} (c : Cls) {o : Nat} (n : Nat) (hk : k ≤ 8) (ho : o ≤ 8) :
    Light s (tollCount s k c o n) := light_wr s _ _ (booked_tollCount c hk ho)

theorem light_tollServed (s : State) (w : Who) (c : Cls) {k : Nat} (n : Nat) (hk : k ≤ 8) : Light s (tollServed s w c k n) := by
  unfold tollServed
  split
  · exact .refl s
  · exact (light_tollUse s w c k n).trans (light_tollCount _ c n hk (by decide))

/-- A change that no initiator asks admission for changes the accounts alone, whether it is logged or lost. -/
theorem light_logMade (s : State) (w : Who) (c : Change) : Light s (logMade s w c) := by
  unfold logMade
  split
  · exact (light_tollServed s w c.cls 1 (by decide)).trans (light_dayReserve _ c)
  · have hlost : Light s { s with dayb := { s.dayb with lost := s.dayb.lost + 1 } } := by
      constructor <;> intros <;> rfl
    exact (hlost.trans (light_wr _ _ _ (by decide))).trans (light_ev_dayb true _ 2)

/-! ### A session closed (R231, R343) -/

theorem evtAddr_opx : evtAddr pOPX = some (reg pOPX 0x088) := by decide

theorem booked_opx {o : Nat} (ho : o < 4096) : booked (reg pOPX o) = false := booked_of_page ho (by decide) (by decide)

theorem leaseShow_blocks (s : State) : (leaseShow s).opx = s.opx ∧ (leaseShow s).toll = s.toll := by
  unfold leaseShow
  rw [ev_opx, ev_toll, wrB_opx, wrB_opx, wrB_toll, wrB_toll]
  exact ⟨rfl, rfl⟩

theorem leaseGone_blocks (s : State) : (leaseGone s).opx = s.opx ∧ (leaseGone s).toll = s.toll := by
  unfold leaseGone
  rw [(leaseShow_blocks _).1, (leaseShow_blocks _).2, wr_opx, wr_opx, wr_opx, wr_toll, wr_toll, wr_toll]
  exact ⟨rfl, rfl⟩

/-- The end of a lease is Cobbler's alone. -/
theorem leaseEnd_blocks (s : State) : (leaseEnd s).opx = s.opx ∧ (leaseEnd s).toll = s.toll := by
  have hgone : (ev (leaseGone s) pUPD 3).opx = s.opx ∧ (ev (leaseGone s) pUPD 3).toll = s.toll := by
    rw [ev_opx, ev_toll]
    exact leaseGone_blocks s
  unfold leaseEnd
  dsimp only
  split
  · exact ⟨rfl, rfl⟩
  · split
    · rw [updGo, wrF_opx, wrF_toll, updClear, wrF_opx, wrF_toll]
      exact hgone
    · exact hgone

/-- A closed session's slot, and what is left of its messages. -/
theorem closeFree_opx {n : Nat} (hopen : (session s n).open_ = true) : (closeFree s n).opx = { s.opx with
    sess := put .free s.opx.sess n { Session.free with gen := (session s n).gen }
    inbox := s.opx.inbox.filter fun m => m.slot != n
    outq := s.opx.outq.filter fun m => m.slot != n } := by
  unfold closeFree
  dsimp only
  rw [hopen, if_neg (by decide), ev_opx]
  split
  · rw [updLog, logHw, (light_logMade _ _ _).opx, (leaseEnd_blocks _).1]
  · rfl

theorem closeFree_ten (s : State) (n : Nat) : (closeFree s n).toll.ten = s.toll.ten := by
  unfold closeFree
  dsimp only
  split
  · rfl
  · rw [ev_toll]
    split
    · rw [updLog, logHw, (light_logMade _ _ _).ten, (leaseEnd_blocks _).2]
    · rfl

theorem closed_closeFree {n : Nat} (hopen : (session s n).open_ = true) : closed s (closeFree s n) n := by
  have hsess : session (closeFree s n) n = { Session.free with gen := (session s n).gen } := by
    rw [session, closeFree_opx hopen]
    exact look_put_same _ _ _ _
  refine ⟨by rw [hsess]; rfl, by rw [hsess]; rfl, by rw [hsess], fun m hm => ?_, ?_⟩
  · rw [closeFree_opx hopen] at hm
    simpa using (List.mem_filter.1 hm).2
  · unfold closeFree
    dsimp only
    rw [hopen, if_neg (by decide)]
    exact rdB_ev_same _ evtAddr_opx (by decide)

/-- A close is seen in the engine and its events alone. -/
theorem closed_congr {s' t' : State} {n : Nat} (hs : s'.opx = s.opx) (ht : t'.opx = t.opx)
    (hevt : rd t' (reg pOPX 0x088) = rd t (reg pOPX 0x088)) (h : closed s t n) : closed s' t' n := by
  unfold closed at h ⊢
  rwa [session_congr hs, session_congr ht, ht, rdB, hevt]

theorem closed_closeAs {n : Nat} (w : Who) (c : Cls) (hopen : (session s n).open_ = true) : closed s (closeAs s n w c) n := by
  have hl := light_logMade (closeFree s n) w (closeEntry s n w c)
  unfold closeAs
  rw [if_pos hopen]
  exact closed_congr rfl hl.opx (hl.rd _ (booked_opx (by decide))) (closed_closeFree hopen)

/-- A close of the module's own keeps the slot's generation and the tenant table. -/
theorem closeSession_keeps (s : State) (n : Nat) :
    (session (closeSession s n) n).gen = (session s n).gen ∧ (closeSession s n).toll.ten = s.toll.ten := by
  by_cases hopen : (session s n).open_ = true
  · have hclosed := closed_closeAs (.hw (Fin.ofNat 128 pOPX)) .control hopen
    refine ⟨hclosed.2.2.1, ?_⟩
    unfold closeSession closeAs
    rw [if_pos hopen, (light_logMade _ _ _).ten, closeFree_ten]
  · have hnone : closeSession s n = s := if_neg hopen
    rw [hnone]
    exact ⟨rfl, rfl⟩

/-! ### A message that the session service grants at once (R232, R234) -/

/-- The first element with a property that has another one is the first with both. -/
theorem find?_and_of_find? {α : Type} {p q : α → Bool} {l : List α} {x : α} (h : l.find? p = some x) (hq : q x = true) :
    l.find? (fun y => p y && q y) = some x := by
  obtain ⟨hp, as, bs, hl, hnone⟩ := List.find?_eq_some_iff_append.1 h
  refine List.find?_eq_some_iff_append.2 ⟨by rw [hp, hq]; rfl, as, bs, hl, fun a ha => ?_⟩
  have := hnone a ha
  simp_all

theorem inboxMsg_names {n sq : Nat} {m : OpxMsg} (h : inboxMsg s n sq = some m) : m.slot = n ∧ m.sq = sq := by
  have hm := List.find?_some h
  simpa using hm

theorem inboxMsg_congr (h : t.opx = s.opx) (n sq : Nat) : inboxMsg t n sq = inboxMsg s n sq := by
  unfold inboxMsg
  rw [h]

theorem tollGrant_win {r : Req} {k : Nat} (ks : List Nat) (d : Bool) (h : overBudget s r.who r.cls k 1 = false) :
    (tollGrant s r k ks d).toll.win = s.toll.win := by
  have hcheck : budgetCheck s r.who r.cls k 1 = s := by
    rw [budgetCheck, h]
    rfl
  unfold tollGrant
  dsimp only
  rw [hcheck]
  split <;> rfl

/-- Grants within budget begin no window. -/
theorem passes_win {ks : List Nat} {r : Req} (h : passes ks s r = some u) : u.toll.win = s.toll.win := by
  induction ks generalizing s with
  | nil =>
    cases h
    rfl
  | cons k ks ih =>
    unfold passes at h
    split at h
    · rename_i hgrant
      simp only [Bool.and_eq_true, Bool.not_eq_true'] at hgrant
      exact (ih h).trans (tollGrant_win ks false hgrant.2)
    · cases h

/-- The request of a message. -/
def msgReq (s : State) (n sq : Nat) (m : OpxMsg) : Req := newReq s (sessWho n) m.cls (.message n sq) .none

theorem msgReq_congr (hclk : t.clk = s.clk) (hwin : t.toll.win = s.toll.win) (n sq : Nat) (m : OpxMsg) :
    msgReq t n sq m = msgReq s n sq m := by
  unfold msgReq newReq count
  rw [hclk, hwin]

theorem rateCount_msgReq (n sq : Nat) (m : OpxMsg) : rateCount s (msgReq s n sq m) = s := by
  have hrated : rated (msgReq s n sq m) = false := rfl
  unfold rateCount
  dsimp only
  rw [hrated, if_neg (by decide)]

/-- What the session service finds as it grants a message at once. -/
structure Serving (s u : State) (n sq : Nat) (m : OpxMsg) : Prop where
  light : Light s u
  win : u.toll.win = s.toll.win
  slot : m.slot = n
  seq : m.sq = sq
  inbox : inboxMsg u n sq = some m
  open_ : (session s n).open_ = true
  txSeq : (session s n).txSeq < 0xFFFFFFFF

section

variable {n sq ty : Nat} {m : OpxMsg} (h : msgServed s n sq ty m u)

include h

theorem serving_of_msgServed : Serving s u n sq m := by
  obtain ⟨⟨hinbox, -, -, -, -, -, -, hopen, hseq⟩, hentered, -⟩ := h
  obtain ⟨hslot, hsq⟩ := inboxMsg_names hinbox
  change entered s (msgReq s n sq m) = some u at hentered
  have hpath : ∀ k ∈ (msgReq s n sq m).path, k < 7 := fun k hk => by
    have : k = 6 := List.mem_singleton.1 hk
    omega
  have hlight := (light_entered hpath hentered).1
  refine ⟨hlight, ?_, hslot, hsq, (inboxMsg_congr hlight.opx n sq).trans hinbox, hopen, hseq⟩
  unfold entered at hentered
  split at hentered
  · rw [rateCount_msgReq] at hentered
    exact passes_win hentered
  · cases hentered

/-- A message granted at once goes on with its right, its admission where it makes a change, and its effect. -/
theorem submitMsg_served : submitMsg s (· == ty) n sq =
    if (msgChange u m oSERVED).isSome then
      walk finLoggedAny s.toll.waiting.length [8] u { msgReq s n sq m with path := [], logging := true }
    else messageDo u m oSERVED := by
  have hserving := serving_of_msgServed h
  obtain ⟨⟨hinbox, htype, hwaits, -, -, hroom, hruns, -⟩, hentered, hright, hlease⟩ := h
  have hfind : s.opx.inbox.find? (fun x => x.slot == n && x.sq == sq && x.type_ == ty) = some m :=
    find?_and_of_find? hinbox (by simpa using htype)
  have hnowait : s.toll.waiting.any (fun r => r.body == .message n sq) = false := by
    simpa [List.any_eq_false] using hwaits
  have hlacks : (match typeRight m.type_ with | some k => !hasRight u (sessWho n) k | none => false) = false := by
    split
    · rename_i k hk
      rw [hright k (by rw [← htype, hk])]
      rfl
    · rfl
  unfold submitMsg
  rw [hfind]
  dsimp only
  rw [hnowait, hruns, if_neg (by simp; omega), enter_entered finAny hentered]
  change finMsg s.toll.waiting.length u { msgReq s n sq m with path := [] } n sq = _
  unfold finMsg
  rw [hserving.inbox]
  dsimp only
  change (if (match typeRight m.type_ with | some k => !hasRight u (sessWho n) k | none => false) = true ∨ leaseRefused u m = true
    then _ else _) = _
  rw [hlacks, hlease, if_neg (by decide)]
  rfl

/-- A message that makes no change of its own has its effect at once. -/
theorem submitMsg_unlogged (hchange : msgChange u m oSERVED = none) : submitMsg s (· == ty) n sq = messageDo u m oSERVED := by
  rw [submitMsg_served h, hchange, if_neg (by decide)]

/-- A message whose change the Daybook admits at once has its effect on a state that the accounts alone set apart. -/
theorem submitMsg_logged (hchange : (msgChange u m oSERVED).isSome = true) (hlogged : msgLogged u m) :
    ∃ v, Light s v ∧ submitMsg s (· == ty) n sq = messageDo v m oSERVED := by
  have hserving := serving_of_msgServed h
  have hreq : ({ newReq u (sessWho m.slot) m.cls (.message m.slot m.sq) .none with path := [], logging := true } : Req) =
      { msgReq s n sq m with path := [], logging := true } := by
    rw [hserving.slot, hserving.seq, ← msgReq_congr hserving.light.clk hserving.win]
    rfl
  obtain ⟨x, hx⟩ := Option.isSome_iff_exists.1 hlogged
  rw [hreq] at hx
  have hlight := hserving.light.trans (light_passes (by decide) hx).1
  have hinbox : inboxMsg x n sq = some m :=
    (inboxMsg_congr (hlight.opx.trans hserving.light.opx.symm) n sq).trans hserving.inbox
  have hdone : submitMsg s (· == ty) n sq = loggedMsg x m oSERVED := by
    rw [submitMsg_served h, hchange, if_pos rfl, walk_passes finLoggedAny _ hx]
    change (match inboxMsg x n sq with | some m => loggedMsg x m oSERVED | none => x) = _
    rw [hinbox]
  rw [hdone]
  unfold loggedMsg
  split
  · exact ⟨_, hlight.trans (light_dayReserve x _), rfl⟩
  · exact ⟨x, hlight, rfl⟩

end

end Sys2Proof.Proofs
end

section
/-!
PROOFS. The life of a session (chapter 9, R224–R231, R236): a frame taken by the engine, an OPEN carried out, and the ways in which
a session ends.
-/

namespace Sys2Proof.Proofs

open Sys2Proof.Machine Sys2Proof.Laws

variable {n k : Nat} {s t u : State} {f : List Byte}

/-- What a command of the engine leaves is what its meaning leaves. -/
theorem finish_opx (s u : State) : ∃ t, finish s u = .next t ∧ t.eth = u.eth ∧ t.opx = u.opx ∧ t.regs = u.regs :=
  ⟨_, rfl, rfl, rfl, rfl⟩

theorem finishGuard_opx (s u : State) : ∃ t, finishGuard s u = .next t ∧ t.opx = u.opx ∧ t.regs = u.regs := ⟨_, rfl, rfl, rfl⟩

/-! ### The port whose frame the engine takes (R236) -/

/-- The one frame at a port is the frame it offers while the OPERATOR queue has room. -/
theorem offered_one {x : Nat × List Byte} (hroom : opWaiting s < 4096) (hq : (ethPort s n).rxq = [x]) : offered s n = some x := by
  unfold offered
  rw [hq, decide_eq_false (by omega)]
  unfold bestFrame
  rw [if_neg (by simp)]
  rfl

/-- The engine takes the one frame of a port when no port before it offers one. -/
theorem opxTake_one {x : Nat × List Byte} (hruns : runs s pOPX = true) (hbefore : ∀ m < n, offered s m = none)
    (hroom : opWaiting s < 4096) (hq : (ethPort s n).rxq = [x]) :
    ∃ e, (ethPort { s with eth := e } n).rxq = [] ∧ opxTake s n = takeFrame { s with eth := e } n x.2 x.1 := by
  have hfell := flowed_occFell (setEth s n { ethPort s n with rxq := [] }) n
  have hempty := hfell.rxq
  rw [ethPort_setEth_same] at hempty
  refine ⟨_, hempty, ?_⟩
  have hnone : ((List.range n).any fun m => (offered s m).isSome) = false := by
    rw [List.any_eq_false]
    intro m hm
    rw [hbefore m (List.mem_range.1 hm)]
    decide
  have hdrop : dropFirst x [x] = [] := if_pos rfl
  unfold opxTake
  dsimp only
  rw [hruns, hnone, offered_one hroom hq, hq, if_neg (by decide)]
  dsimp only
  rw [hdrop, hfell.rest]
  rfl

/-! ### A frame of a session (R224–R227) -/

/-- A frame, its UDP header at `o - 8`, that carries a message of an open session in one fragment: everything about it but its
tag. -/
structure OfSession (s : State) (n : Nat) (f : List Byte) (o : Nat) (h : OpxHdr) (k : Nat) : Prop where
  udp : opxUdpOff s n f = some (o - 8)
  after : 8 ≤ o
  header : h = opxHdr f o
  slot : k = sessSlot h.session
  magic : h.magic = 0x4F58
  version : h.version = 1
  message : h.type_ ≠ 0x10
  length : beAt f (o - 4) 2 = 8 + 40 + h.payLen + 16
  open_ : (session s k).open_ = true
  gen : (session s k).gen = sessGen h.session
  tenant : h.tenant = (session s k).tenant

/-- The tag that a frame of a session should carry (R225). -/
def tagFor (s : State) (f : List Byte) (o : Nat) (h : OpxHdr) (k : Nat) : List Byte :=
  leBytes 16 (Crypto.gcmTag (session s k).key (slice f o 40) (nonce h.session h.sq h.frag false) (slice f (o + 40) h.payLen)).toNat

/-- The session after a frame of it verified (R224, R231). -/
def heard (s : State) (n : Nat) (f : List Byte) (o k : Nat) : Session :=
  { session s k with port := n + 1, peer := f.take (o - 8 + 2), lastAuth := s.clk.fabric }

/-- The text of a verified frame. -/
def textOf (s : State) (f : List Byte) (o : Nat) (h : OpxHdr) (k : Nat) : List Byte :=
  Crypto.gcmText (session s k).key (nonce h.session h.sq h.frag false) (slice f (o + 40) h.payLen)

section

variable {o : Nat} {h : OpxHdr} (hf : OfSession s n f o h k)

include hf

theorem takeFrame_session (arr : Nat) : takeFrame s n f arr =
    if tagFor s f o h k ≠ slice f (o + 40 + h.payLen) 16 then authFail s
    else if !replayOk (heard s n f o k) h.sq then ev (bump (setSess s k (heard s n f o k)) (reg pOPX 0x0B4)) pOPX 3
    else joinFrag (setSess s k (heard s n f o k)) k h (textOf s f o h k) arr := by
  obtain ⟨hudp, hafter, hheader, hslot, hmagic, hversion, hmessage, hlength, hopen, hgen, htenant⟩ := hf
  have ho : o - 8 + 8 = o := by omega
  have hlen : o - 8 + 4 = o - 4 := by omega
  unfold takeFrame
  rw [hudp]
  dsimp only
  rw [ho, hlen, ← hheader, ← hslot, if_neg hmessage, if_neg (by simp [hmagic, hversion, hlength]), if_neg hmessage,
    if_neg (by simp [hopen, hgen, htenant])]
  rfl

/-- A frame whose tag fails counts in AUTH_FAIL and reaches no session. -/
theorem takeFrame_tagFails (arr : Nat) (htag : tagFor s f o h k ≠ slice f (o + 40 + h.payLen) 16) :
    takeFrame s n f arr = authFail s := by
  rw [takeFrame_session hf, if_pos htag]

/-- A frame whose tag verifies and whose SEQ the window takes joins its message. -/
theorem takeFrame_verifies (arr : Nat) (htag : tagFor s f o h k = slice f (o + 40 + h.payLen) 16)
    (hreplay : replayOk (session s k) h.sq = true) :
    takeFrame s n f arr = joinFrag (setSess s k (heard s n f o k)) k h (textOf s f o h k) arr := by
  have hheard : replayOk (heard s n f o k) h.sq = true := hreplay
  rw [takeFrame_session hf, if_neg (not_not_intro htag), hheard, if_neg (by decide)]

end

/-- A SEQ that the window has taken is a replay (R226). -/
theorem replayOk_windowTake (x : Session) {sq : Nat} (h : replayOk x sq = true) : replayOk (windowTake x sq) sq = false := by
  unfold replayOk at h
  unfold windowTake
  split at h
  case isTrue hnew =>
    rw [if_pos hnew]
    unfold replayOk
    simp
  case isFalse hold =>
    have hin : x.rxTop - sq < 64 := by
      simp only [Bool.and_eq_true, decide_eq_true_eq] at h
      omega
    rw [if_neg hold]
    unfold replayOk
    rw [if_neg hold]
    simp [hin]

/-- A message whole in one fragment is delivered with its window (R227). -/
theorem joinFrag_whole {h : OpxHdr} (pay : List Byte) (arr : Nat) (hreasm : (session s k).reasm = []) (hlast : h.flags % 2 = 1)
    (hfirst : h.frag = 0) :
    (joinFrag s k h pay arr).eth = s.eth ∧
      (joinFrag s k h pay arr).opx.inbox =
        s.opx.inbox ++ [⟨h.type_, h.flags, clsOf h.cls, k, h.sq, h.srcCycle, h.srcAngle, pay, arr⟩] ∧
      session (joinFrag s k h pay arr) k = windowTake (session s k) h.sq := by
  have hjoin : joinFrag s k h pay arr = joinFrag.deliver s k
      ⟨h.sq, h.type_, h.flags, h.cls, h.srcCycle, h.srcAngle, none, []⟩ pay arr := by
    unfold joinFrag
    dsimp only
    rw [hreasm, List.find?_nil, if_pos ⟨hlast, hfirst⟩]
  rw [hjoin]
  exact ⟨rfl, rfl, look_put_same _ _ _ _⟩

/-- Messages of the types that a peer sends are refused none. -/
theorem refuseTypes_peer (h : ∀ m ∈ s.opx.inbox, peerType m.type_ = true) : refuseTypes s = s := by
  have hnone : (s.opx.inbox.filter fun m => !peerType m.type_) = [] := by
    rw [List.filter_eq_nil_iff]
    intro m hm
    rw [h m hm]
    decide
  unfold refuseTypes
  rw [hnone]
  rfl

theorem evtAddr_opx_ne {o : Nat} (h : o ≠ 0x088) : evtAddr pOPX ≠ some (reg pOPX o) := by
  rw [evtAddr_opx]
  intro he
  exact h (reg_right_inj.1 (Option.some.inj he)).symm

/-- AUTH_FAIL counts. -/
theorem rd_authFail (hcor : corMode s pOPX = false) : rd (authFail s) (reg pOPX 0x0B0) = rd s (reg pOPX 0x0B0) + 1 := by
  unfold authFail
  rw [rd_ev_other _ _ _ (evtAddr_opx_ne (by decide)), rd_bump_same s (by decide) hcor]

theorem exec_opxFrameTake (n : Fin 18) (s : State) : exec (.opxFrameTake n) s = finish s (refuseTypes (opxTake s n.val)) := rfl

section

variable {n : Fin 18} {o arr : Nat} {h : OpxHdr} (hf : OfSession s n.val f o h k) (hruns : runs s pOPX = true)
  (hbefore : ∀ m < n.val, offered s m = none) (hroom : opWaiting s < 4096) (hq : (ethPort s n.val).rxq = [(arr, f)])
  (hpeers : ∀ m ∈ s.opx.inbox, peerType m.type_ = true)

include hf hruns hbefore hroom hq hpeers

/-- The engine takes a frame of a session: one whose tag fails is counted. -/
theorem opxFrameTake_tagFails (hcor : corMode s pOPX = false) (htag : tagFor s f o h k ≠ slice f (o + 40 + h.payLen) 16) :
    ∃ t, exec (.opxFrameTake n) s = .next t ∧ (ethPort t n.val).rxq = [] ∧ t.opx.inbox = s.opx.inbox ∧ t.opx.sess = s.opx.sess ∧
      rd t (reg pOPX 0x0B0) = rd s (reg pOPX 0x0B0) + 1 := by
  obtain ⟨e, hempty, htake⟩ := opxTake_one hruns hbefore hroom hq
  have hfails : takeFrame { s with eth := e } n.val f arr = authFail { s with eth := e } :=
    takeFrame_tagFails (s := { s with eth := e }) { hf with } arr htag
  have hopx : (authFail { s with eth := e }).opx = s.opx := ev_opx _ _ _
  have heth : (authFail { s with eth := e }).eth = e := ev_eth _ _ _
  rw [exec_opxFrameTake, htake, hfails, refuseTypes_peer (by rwa [hopx])]
  obtain ⟨t, ht, hteth, htopx, hregs⟩ := finish_opx s (authFail { s with eth := e })
  refine ⟨t, ht, ?_, by rw [htopx, hopx], by rw [htopx, hopx], ?_⟩
  · rw [ethPort_congr (s := { s with eth := e }) (hteth.trans heth)]
    exact hempty
  · rw [rd_congr hregs, rd_authFail (s := { s with eth := e }) hcor]
    rfl

/-- The engine takes a frame of a session: one that verifies and is new brings its message. -/
theorem opxFrameTake_verifies (htag : tagFor s f o h k = slice f (o + 40 + h.payLen) 16)
    (hreplay : replayOk (session s k) h.sq = true) (hreasm : (session s k).reasm = []) (hlast : h.flags % 2 = 1)
    (hfirst : h.frag = 0) (htype : peerType h.type_ = true) :
    ∃ t, exec (.opxFrameTake n) s = .next t ∧ (ethPort t n.val).rxq = [] ∧
      t.opx.inbox = s.opx.inbox ++ [⟨h.type_, h.flags, clsOf h.cls, k, h.sq, h.srcCycle, h.srcAngle, textOf s f o h k, arr⟩] ∧
      (session t k).port = n.val + 1 ∧ replayOk (session t k) h.sq = false := by
  obtain ⟨e, hempty, htake⟩ := opxTake_one hruns hbefore hroom hq
  have hjoins := takeFrame_verifies (s := { s with eth := e }) { hf with } arr htag hreplay
  have hheard := session_setSess_same { s with eth := e } k (heard s n.val f o k)
  obtain ⟨heth, hinbox, hsess⟩ := joinFrag_whole (s := setSess { s with eth := e } k (heard s n.val f o k))
    (textOf s f o h k) arr (by rw [hheard]; exact hreasm) hlast hfirst
  rw [hheard] at hsess
  generalize hr : joinFrag (setSess { s with eth := e } k (heard s n.val f o k)) k h (textOf s f o h k) arr = r at heth hinbox hsess
  have hpeer : ∀ m ∈ r.opx.inbox, peerType m.type_ = true := by
    rw [hinbox]
    exact List.forall_mem_append.2 ⟨hpeers, List.forall_mem_singleton.2 htype⟩
  have hresult : refuseTypes (opxTake s n.val) = r := by
    rw [htake, hjoins]
    exact hr ▸ refuseTypes_peer (hr ▸ hpeer)
  obtain ⟨t, ht, hteth, htopx, -⟩ := finish_opx s r
  rw [exec_opxFrameTake, hresult]
  refine ⟨t, ht, ?_, htopx ▸ hinbox, ?_, ?_⟩
  · rw [ethPort_congr (s := { s with eth := e }) (hteth.trans heth)]
    exact hempty
  · rw [session_congr htopx, hsess]
    unfold windowTake
    split <;> rfl
  · rw [session_congr htopx, hsess]
    exact replayOk_windowTake _ hreplay

end

end Sys2Proof.Proofs
end

section
/-!
PROOFS. Sessions opened and closed (chapter 9, R228–R231): an OPEN carried out, and the ways in which a session ends.
-/

namespace Sys2Proof.Proofs

open Sys2Proof.Machine Sys2Proof.Laws

variable {n k : Nat} {s t u : State} {f : List Byte}

/-! ### An OPEN carried out (R228–R230) -/

/-- A generation that a slot opens with is never 0 (R229). -/
theorem openGen_pos (g : Nat) : 0 < openGen g := by
  unfold openGen
  split <;> omega

theorem grantRights_congr (h : t.toll.ten = s.toll.ten) (ten req rights : Nat) :
    grantRights t ten req rights = grantRights s ten req rights := by
  unfold grantRights tenWord
  rw [h]

/-- A session put into its slot, shown, logged and answered has its first SEQ behind it. -/
theorem opened_answered (v : State) {x : Session} (c : Change) (ty fl : Nat) (cl : Cls) (req out : Nat) (body : List Byte)
    (hopen : x.open_ = true) (hseq : x.txSeq = 0) :
    session (opxSend (logChange (ev (setSess v n x) pOPX 0) c) n ty fl cl req out body) n = { x with txSeq := 1 } ∧
      rdB (opxSend (logChange (ev (setSess v n x) pOPX 0) c) n ty fl cl req out body) (reg pOPX 0x088) 0 = true := by
  have hlight := light_dayReserve (ev (setSess v n x) pOPX 0) c
  have hsess : session (logChange (ev (setSess v n x) pOPX 0) c) n = x := by
    rw [logChange, session_congr (hlight.opx.trans (ev_opx _ _ _)), session_setSess_same]
  have hsent := sent_opxSendAt (s := logChange (ev (setSess v n x) pOPX 0) c) (n := n)
    (count (logChange (ev (setSess v n x) pOPX 0) c)) ty fl cl req out body (by rw [hsess, hopen]) (by rw [hsess, hseq]; decide)
  refine ⟨?_, ?_⟩
  · rw [opxSend, hsent.session, hsess, hseq]
  · rw [opxSend, rdB, hsent.rd _ (by decide), logChange, hlight.rd _ (booked_opx (by decide))]
    exact rdB_ev_same _ evtAddr_opx (by decide)

/-- An OPEN that passes every check opens its slot under the key's tenant, with the rights granted and the next generation. -/
theorem openAccept_opens (s : State) (port : Nat) (f : List Byte) (n key d : Nat) {o : Nat}
    (ho : o = (opxUdpOff s port f).getD 0 + 8) :
    (session (openAccept s port f n key d) n).open_ = true ∧
    (session (openAccept s port f n key d) n).tenant = (slot s key).tenant ∧
    (session (openAccept s port f n key d) n).keySlot = key ∧
    (session (openAccept s port f n key d) n).gen = openGen (session s n).gen ∧
    (session (openAccept s port f n key d) n).rights = grantRights s (slot s key).tenant (beAt f (o + 44) 2) (slot s key).rights ∧
    (session (openAccept s port f n key d) n).ceiling =
      sessCeiling (slot s key).tenant (session (openAccept s port f n key d) n).rights ∧
    (session (openAccept s port f n key d) n).txSeq = 1 ∧
    rdB (openAccept s port f n key d) (reg pOPX 0x088) 0 = true := by
  have hcounted : Light s (tollCount (tollUse s (.opx (Fin.ofNat 2048 n)) .operator 8 1) 8 .operator (if 0 < d then 4 else 0) 1) :=
    (light_tollUse s _ _ _ _).trans (light_tollCount _ _ _ (by decide) (by split <;> decide))
  unfold openAccept
  dsimp only
  generalize tollCount (tollUse s (.opx (Fin.ofNat 2048 n)) .operator 8 1) 8 .operator (if 0 < d then 4 else 0) 1 = v at hcounted ⊢
  obtain ⟨hgen, hten⟩ := closeSession_keeps v n
  generalize closeSession v n = w at hgen hten ⊢
  rw [session_congr hcounted.opx] at hgen
  rw [hgen, grantRights_congr (hten.trans hcounted.ten), ← ho]
  generalize (draw w).2 = r
  rw [(opened_answered r _ _ _ _ _ _ _ rfl rfl).1]
  exact ⟨rfl, rfl, rfl, rfl, rfl, rfl, rfl, (opened_answered r _ _ _ _ _ _ _ rfl rfl).2⟩

/-- An OPEN that waits, with the keyed slot it names, and nothing to refuse it but its proof. -/
structure Opens (s : State) (n : Nat) (f : List Byte) (o key k : Nat) (ks : KeySlot) : Prop where
  runs : Machine.runs s pOPX = true
  waits : s.opx.opens = [⟨n, f, none⟩]
  after : o = (opxUdpOff s n f).getD 0 + 8
  names : key = beAt f (o + 40) 2
  inRange : key < 64
  slot : ks = Machine.slot s key
  kind : ks.kind = 2
  unlocked : mLOCK s = false
  role : roleSet s = true
  notSafe : s.guard.safe = false
  notDead : s.guard.dead = false
  enabled : bit (tenWord s ks.tenant 0) 31 = true
  room : sessOpen s ks.tenant < min 2048 (fld (tenWord s ks.tenant 0) 0 12)
  ready : s.vault.ready = true
  rng : rngOk s = true
  cell : cellOut s pLOCK key = false
  pick : pickSlot s (beAt f (o + 42) 2) key = .inl k
  loggable : logOk s .operator = true
  now : openWaits s = false

/-- The proof that an OPEN carries is the keyed slot's. -/
def proves (f : List Byte) (o : Nat) (ks : KeySlot) : Prop :=
  leBytes 16 (Crypto.hmac ks.val (slice f o 60)).toNat = slice f (o + 60) 16

section

variable {o key : Nat} {ks : KeySlot} (h : Opens s n f o key k ks)

include h

theorem openDo_fails (hproof : ¬ proves f o ks) : openDo s n = authFail { s with opx := { s.opx with opens := [] } } := by
  obtain ⟨hruns, hwaits, ho, hkey, hlt, hks, hkind, hlock, -, -, -, -, -, hready, -, -, -, -, -⟩ := h
  have hfind : s.opx.opens.find? (fun e => e.port == n) = some ⟨n, f, none⟩ := by
    rw [hwaits]
    simp
  have hdrop : dropFirst (⟨n, f, none⟩ : OpenReq) [⟨n, f, none⟩] = [] := if_pos rfl
  unfold openDo
  rw [hruns, hready, if_neg (by decide), hfind]
  dsimp only
  rw [hwaits, hdrop, ← ho, ← hkey, Nat.mod_eq_of_lt hlt, ← hks, if_pos (.inr (.inr (.inr hproof)))]

theorem openDo_accepts (hproof : proves f o ks) :
    openDo s n = openAccept { s with opx := { s.opx with opens := [] } } n f k key 0 := by
  obtain ⟨hruns, hwaits, ho, hkey, hlt, hks, hkind, hlock, hrole, hsafe, hdead, henabled, hroom, hready, hrng, hcell, hpick, hlog,
    hnow⟩ := h
  have hfind : s.opx.opens.find? (fun e => e.port == n) = some ⟨n, f, none⟩ := by
    rw [hwaits]
    simp
  have hdrop : dropFirst (⟨n, f, none⟩ : OpenReq) [⟨n, f, none⟩] = [] := if_pos rfl
  have hchecks : ¬ (64 ≤ key ∨ ks.kind ≠ 2 ∨ mLOCK s = true ∨
      leBytes 16 (Crypto.hmac ks.val (slice f o 60)).toNat ≠ slice f (o + 40 + 20) 16) := by
    rintro (hbig | hother | hlocked | hbad)
    · omega
    · exact hother hkind
    · exact absurd (hlock.symm.trans hlocked) (by decide)
    · exact hbad hproof
  unfold openDo
  rw [hruns, hready, if_neg (by decide), hfind]
  dsimp only
  rw [hwaits, hdrop, ← ho, ← hkey, Nat.mod_eq_of_lt hlt, ← hks, if_neg hchecks, hrole, hsafe, hdead, if_neg (by decide), henabled,
    if_neg (by decide), if_neg (by omega), hpick]
  dsimp only
  rw [hrng, hcell, if_neg (by decide), hlog, if_neg (by decide), hnow, if_neg (by decide)]
  rfl

end

theorem exec_openSession (n : Fin 18) (s : State) : exec (.openSession n) s = finishGuard s (openDo s n.val) := rfl

/-- An OPEN carried out: its proof decides whether the slot opens. -/
theorem openSession_opens {n : Fin 18} {o key : Nat} {ks : KeySlot} (h : Opens s n.val f o key k ks) (hcor : corMode s pOPX = false) :
    ∃ t, exec (.openSession n) s = .next t ∧
      (proves f o ks → (session t k).open_ = true ∧ (session t k).tenant = ks.tenant ∧ (session t k).keySlot = key ∧
        (session t k).gen = openGen (session s k).gen ∧ 0 < (session t k).gen ∧
        (session t k).rights = grantRights s ks.tenant (beAt f (o + 44) 2) ks.rights ∧
        (session t k).ceiling = sessCeiling ks.tenant (session t k).rights ∧ (session t k).txSeq = 1 ∧
        rdB t (reg pOPX 0x088) 0 = true) ∧
      (¬ proves f o ks → t.opx.sess = s.opx.sess ∧ rd t (reg pOPX 0x0B0) = rd s (reg pOPX 0x0B0) + 1) := by
  obtain ⟨t, ht, hopx, hregs⟩ := finishGuard_opx s (openDo s n.val)
  rw [exec_openSession]
  refine ⟨t, ht, fun hproof => ?_, fun hproof => ?_⟩
  · obtain ⟨hopen, htenant, hkey, hgen, hrights, hceiling, hseq, hevt⟩ :=
      openAccept_opens { s with opx := { s.opx with opens := [] } } n.val f k key 0 h.after
    rw [openDo_accepts h hproof] at hopx hregs
    rw [session_congr hopx, rdB, rd_congr hregs, h.slot]
    refine ⟨hopen, htenant, hkey, hgen, ?_, hrights, hceiling, hseq, hevt⟩
    rw [hgen]
    exact openGen_pos _
  · rw [openDo_fails h hproof] at hopx hregs
    rw [hopx, rd_congr hregs, rd_authFail (s := { s with opx := { s.opx with opens := [] } }) hcor, authFail, ev_opx]
    exact ⟨rfl, rfl⟩

/-! ### The ends of messages and sessions (R227, R231) -/

theorem exec_reassemblyTimeout (n : Fin 2048) (sq : Word) (s : State) :
    exec (.reassemblyTimeout n sq) s = finish s (reasmTimeout s n.val sq.toNat) := rfl

/-- An incomplete message is discarded at its timeout. -/
theorem reassemblyTimeout_discards (n : Fin 2048) (sq : Word) (hcor : corMode s pOPX = false)
    (hwaits : ∃ r ∈ (session s n.val).reasm, r.sq = sq.toNat) :
    ∃ t, exec (.reassemblyTimeout n sq) s = .next t ∧ (∀ r ∈ (session t n.val).reasm, r.sq ≠ sq.toNat) ∧
      rd t (reg pOPX 0x0BC) = rd s (reg pOPX 0x0BC) + 1 ∧ rdB t (reg pOPX 0x088) 4 = true := by
  obtain ⟨x, hx⟩ : ∃ x, x = { session s n.val with reasm := (session s n.val).reasm.filter fun r => r.sq != sq.toNat } := ⟨_, rfl⟩
  have hany : ((session s n.val).reasm.any fun r => r.sq == sq.toNat) = true := by
    obtain ⟨r, hr, hsq⟩ := hwaits
    exact List.any_eq_true.2 ⟨r, hr, by rw [hsq, beq_self_eq_true]⟩
  have hdiscard : reasmTimeout s n.val sq.toNat = ev (bump (setSess s n.val x) (reg pOPX 0x0BC)) pOPX 4 := by
    unfold reasmTimeout
    dsimp only
    rw [hany, if_pos rfl, hx]
  obtain ⟨t, ht, -, hopx, hregs⟩ := finish_opx s (ev (bump (setSess s n.val x) (reg pOPX 0x0BC)) pOPX 4)
  have hsess : session t n.val = x := by
    rw [session_congr (hopx.trans (ev_opx _ _ _))]
    exact session_setSess_same s n.val x
  rw [exec_reassemblyTimeout, hdiscard]
  refine ⟨t, ht, fun r hr => ?_, ?_, ?_⟩
  · rw [hsess, hx] at hr
    simpa using (List.mem_filter.1 hr).2
  · rw [rd_congr hregs, rd_ev_other _ _ _ (evtAddr_opx_ne (by decide)), rd_bump_same (setSess s n.val x) (by decide) hcor]
    rfl
  · rw [rdB, rd_congr hregs]
    exact rdB_ev_same _ evtAddr_opx (by decide)

theorem exec_sessionIdleTimeout (n : Fin 2048) (s : State) :
    exec (.sessionIdleTimeout n) s = finishGuard s (closeSession s n.val) := rfl

theorem sessionIdleTimeout_closes (n : Fin 2048) (hopen : (session s n.val).open_ = true) :
    ∃ t, exec (.sessionIdleTimeout n) s = .next t ∧ closed s t n.val := by
  obtain ⟨t, ht, hopx, hregs⟩ := finishGuard_opx s (closeSession s n.val)
  rw [exec_sessionIdleTimeout]
  exact ⟨t, ht, closed_congr rfl hopx (rd_congr hregs _) (closed_closeAs _ _ hopen)⟩

theorem writeEffect_sessClose (s : State) (i : Init) (v : Word) :
    writeEffect s i (reg pOPX 0x0A4) v = writeOpx s i.who 0x0A4 v := by
  have hrow : (rowOf (reg pOPX 0x0A4)).isNone = false := by decide
  unfold writeEffect writeBlock
  dsimp only
  rw [hrow, pageOf_reg _ (by decide), offOf_reg _ (by decide)]
  simp [isLoopbank, pOPX, pMOD, pPROT, pINTC, pFLTM, pTOLL, pLAC, pSCAN, pSCANDBG, pPGMX, pFORCE, pWGHEN, pWGHPQ, pFACT, pFACTQ,
    pPTS, pDAYB, pETH]

theorem exec_sessClose (i : Init) (v : Word) (s : State) :
    exec (.sessClose i v) s = finishClock s (submitWrite s i (reg pOPX 0x0A4) v) := rfl

theorem sessClose_closes {i : Init} {v : Word} (hclear : clear s i (reg pOPX 0x0A4) v = true) (hbit : bit v 31 = true)
    (hslot : fld v 0 11 = n) (hopen : (session s n).open_ = true) :
    ∃ t, exec (.sessClose i v) s = .next t ∧ closed s t n := by
  rw [exec_sessClose]
  refine row_clear hclear (by decide) fun s' t hlight hdone => ?_
  have hopen' : (session s' n).open_ = true := by rwa [session_congr hlight.opx]
  have heffect : writeEffect s' ⟨i.who, clsFor s i⟩ (reg pOPX 0x0A4) v = closeAs s' n i.who .operator := by
    rw [writeEffect_sessClose, writeOpx, if_pos rfl, hbit, if_pos rfl, hslot, closeBy]
  rw [heffect] at hdone
  exact closed_congr hlight.opx.symm hdone.opx (hdone.rd _) (closed_closeAs i.who .operator hopen')

theorem exec_close (n : Fin 2048) (sq : Word) (s : State) :
    exec (.close n sq) s = finishClock s (submitMsg s (· == 0x12) n.val sq.toNat) := rfl

/-- CLOSE taken as a message: it leaves the inbox, and the session is closed. -/
theorem messageDo_close {m : OpxMsg} (out : Nat) (htype : m.type_ = 0x12) : messageDo s m out = closeFree (msgTake s m) m.slot := by
  unfold messageDo
  dsimp only
  rw [htype]
  rfl

/-- CLOSE of an open session is a change of its own (R231). -/
theorem msgChange_close {m : OpxMsg} (out : Nat) (htype : m.type_ = 0x12) (hopen : (session s m.slot).open_ = true) :
    (msgChange s m out).isSome = true := by
  unfold msgChange
  rw [if_pos htype, if_pos hopen]
  rfl

theorem close_closes {n : Fin 2048} {sq : Word} {m : OpxMsg} (hserved : msgServed s n.val sq.toNat 0x12 m u)
    (hlogged : msgLogged u m) : ∃ t, exec (.close n sq) s = .next t ∧ closed s t n.val := by
  have hserving := serving_of_msgServed hserved
  have htype : m.type_ = 0x12 := hserved.1.2.1
  have hopen {w : State} (hw : Light s w) : (session w m.slot).open_ = true := by
    rw [hserving.slot, session_congr hw.opx, hserving.open_]
  obtain ⟨v, hlight, hdo⟩ := submitMsg_logged hserved (msgChange_close oSERVED htype (hopen hserving.light)) hlogged
  obtain ⟨t, ht, hdone, -⟩ := finishClock_done s (closeFree (msgTake v m) m.slot)
  rw [exec_close, hdo, messageDo_close oSERVED htype]
  obtain ⟨hshut, hreasm, hgen, hinbox, hevt⟩ := closed_closeFree (s := msgTake v m) (n := m.slot) (hopen (w := v) hlight)
  refine ⟨t, ht, ?_⟩
  unfold closed
  rw [session_congr hdone.opx, hdone.opx, rdB, hdone.rd, ← hserving.slot]
  refine ⟨hshut, hreasm, hgen.trans ?_, hinbox, hevt⟩
  exact congrArg Session.gen (session_congr hlight.opx m.slot)

/-- Settles O46: a frame goes by its tag, an OPEN by its proof, and the ends of a message and of a session leave their slot free of
it. -/
theorem sessionsOpenAndClose : Obligations.SessionsOpenAndClose := by
  unfold Obligations.SessionsOpenAndClose
  intro s
  refine ⟨?frame, ?opens, fun n => ⟨fun sq hcor hwaits => reassemblyTimeout_discards n sq hcor hwaits,
    fun hopen => ⟨sessionIdleTimeout_closes n hopen, fun i v hclear hbit hslot => sessClose_closes hclear hbit hslot hopen,
      fun sq m u hserved hlogged => close_closes hserved hlogged⟩⟩⟩
  case frame =>
    intro n f arr o h k hruns hq hbefore hudp hafter hheader hslot hmagic hversion hmessage hlength hroom hopen hgen htenant hlast
      hfirst hreplay hreasm hpeers htype hcor hdr ct hhdr hct tag htag
    subst hhdr hct
    have hf : OfSession s n.val f o h k :=
      ⟨hudp, hafter, hheader, hslot, hmagic, hversion, hmessage, hlength, hopen, hgen, htenant⟩
    by_cases hverifies : tag = slice f (o + 40 + h.payLen) 16
    · obtain ⟨t, ht, hempty, hinbox, hport, hwindow⟩ := opxFrameTake_verifies hf hruns hbefore hroom hq hpeers
        (htag.symm.trans hverifies) hreplay hreasm hlast hfirst htype
      exact ⟨t, ht, hempty, fun _ => ⟨hinbox, hport, hwindow⟩, fun hfails => absurd hverifies hfails⟩
    · obtain ⟨t, ht, hempty, hinbox, hsess, hcount⟩ := opxFrameTake_tagFails hf hruns hbefore hroom hq hpeers hcor
        fun htagFor => hverifies (htag.trans htagFor)
      exact ⟨t, ht, hempty, fun hok => absurd hok hverifies, fun _ => ⟨hinbox, hsess, hcount⟩⟩
  case opens =>
    intro n f o key k ks hruns hwaits hafter hnames hlt hks hkind hlock hrole hsafe hdead henabled hroom hready hrng hcell hpick hlog
      hnow hcor
    exact openSession_opens ⟨hruns, hwaits, hafter, hnames, hlt, hks, hkind, hlock, hrole, hsafe, hdead, henabled, hroom, hready,
      hrng, hcell, hpick, hlog, hnow⟩ hcor

end Sys2Proof.Proofs
end

section
/-!
PROOFS. The update lease over OPX, and the engine's periodic messages (R233, R237, R342, R343).
-/

namespace Sys2Proof.Proofs

open Sys2Proof.Machine Sys2Proof.Laws

variable {n sq : Nat} {m : OpxMsg} {s t u v x : State}

/-! ### The lease (R343) -/

/-- A field written leaves the bits beside it. -/
theorem rdB_wrF_outside (s : State) (a : Nat) {lo w i : Nat} (c : Nat) (h : lo + w ≤ 32) (hi : i < lo ∨ lo + w ≤ i) :
    rdB (wrF s a lo w c) a i = rdB s a i := by
  unfold rdB wrF
  rw [rd_wr_same, bit_eq_fld, bit_eq_fld]
  rcases hi with hbelow | habove
  · rw [fld_setFld_below _ _ h hbelow]
  · rw [fld_setFld_above _ _ h habove]

/-- No event shows in Cobbler's status. -/
theorem rd_ev_updStat (s : State) {p : Nat} (b : Nat) (h : p = pOPX ∨ p = pUPD) : rd (ev s p b) updStatA = rd s updStatA := by
  refine rd_ev_other s p b ?_
  rcases h with rfl | rfl <;> decide

/-- The lease's two status bits show whether it is held. -/
theorem leaseShow_shows (s : State) :
    (leaseShow s).upd = s.upd ∧ rdB (leaseShow s) updStatA 3 = s.upd.lease.isSome := by
  unfold leaseShow
  dsimp only
  rw [ev_upd, rdB, rd_ev_updStat _ _ (.inl rfl), rd_wrB_other _ _ _ (by decide)]
  exact ⟨rfl, rdB_wrB_same s _ (by decide)⟩

/-- A free lease goes to the initiator that takes it. -/
theorem leaseTake_takes (w : Who) (org : Word) (hfree : s.upd.lease = none) :
    (leaseTake s w org).opx = s.opx ∧
      (leaseTake s w org).upd.lease = some ⟨w, org, (s.upd.leases + 1) % 2 ^ 32, s.clk.fabric⟩ ∧
      rdB (leaseTake s w org) updStatA 3 = true := by
  obtain ⟨y, hopx, hlease, htake⟩ : ∃ y : State, y.opx = s.opx ∧
      y.upd.lease = some ⟨w, org, (s.upd.leases + 1) % 2 ^ 32, s.clk.fabric⟩ ∧ leaseTake s w org = leaseShow y := by
    unfold leaseTake
    rw [hfree, if_neg (by decide)]
    exact ⟨_, by split <;> rfl, by split <;> rfl, rfl⟩
  obtain ⟨hupd, hbit⟩ := leaseShow_shows y
  rw [htake, hupd, hbit, (leaseShow_blocks y).1, hopx, hlease]
  exact ⟨rfl, rfl, rfl⟩

theorem leaseGone_gone (s : State) :
    (leaseGone s).upd = { s.upd with lease := none } ∧ rdB (leaseGone s) updStatA 3 = false := by
  unfold leaseGone
  dsimp only
  rw [(leaseShow_shows _).1, (leaseShow_shows _).2]
  exact ⟨rfl, rfl⟩

theorem rdB_updClear (s : State) (a i : Nat) : rdB (updClear s) a i = rdB s a i := rfl

/-- The end of a held lease frees it; RECEIVING gives up its patch. -/
theorem leaseEnd_ends (hheld : s.upd.lease.isSome = true) :
    (leaseEnd s).upd.lease = none ∧ rdB (leaseEnd s) updStatA 3 = false ∧
      (updState s = 1 → updState (leaseEnd s) = 0 ∧ (leaseEnd s).upd.patch = []) := by
  obtain ⟨y, hy⟩ : ∃ y, y = ev (leaseGone s) pUPD 3 := ⟨_, rfl⟩
  obtain ⟨hupd, hbit⟩ := leaseGone_gone s
  have hylease : y.upd.lease = none := by rw [hy, ev_upd, hupd]
  have hybit : rdB y updStatA 3 = false := by rw [hy, rdB, rd_ev_updStat _ _ (.inr rfl), ← rdB, hbit]
  have hend : leaseEnd s = if updState s = 1 ∨ updState s = 2 then updGo (updClear (wrF y updStatA 8 4 8)) 0 else y := by
    unfold leaseEnd
    rw [if_neg (by rw [Option.isNone_eq_false_iff.2 hheld]; decide), hy]
  rw [hend]
  split
  case isTrue hleaves =>
    rw [updGo, wrF_upd, rdB_wrF_outside _ _ _ (by decide) (by decide), rdB_updClear,
      rdB_wrF_outside y _ _ (by decide) (by decide), updClear, wrF_upd]
    exact ⟨hylease, hybit, fun _ => ⟨rd_wrF_same _ 0 (by decide), rfl⟩⟩
  case isFalse hstays => exact ⟨hylease, hybit, fun hreceiving => absurd (.inl hreceiving) hstays⟩

/-- The renewal of a held lease notes the time and changes nothing else of Cobbler. -/
theorem leaseRenew_renews {l : Lease} (h : s.upd.lease = some l) :
    leaseRenew s = { s with upd := { s.upd with lease := some { l with at_ := s.clk.fabric } } } := by
  unfold leaseRenew
  rw [h]

/-! ### The chunks of a patch (R342) -/

/-- Bytes put into a patch stand at their offset, and nowhere else. -/
theorem get?_foldl_ins (bs : List Byte) (i off : Nat) (p : List (Nat × Byte)) (k : Nat) :
    get? ((bs.zipIdx i).foldl (fun q e => ins q (off + e.2) e.1) p) k =
      if off + i ≤ k ∧ k < off + i + bs.length then some (nthD bs (k - (off + i)) 0) else get? p k := by
  induction bs generalizing i p with
  | nil => rw [List.zipIdx_nil, List.foldl_nil, if_neg (by simp)]
  | cons b bs ih =>
    rw [List.zipIdx_cons, List.foldl_cons, ih (i + 1) (ins p (off + i) b), get?_ins]
    rcases lt_trichotomy k (off + i) with hbelow | rfl | habove
    · rw [if_neg (by omega), if_neg (by omega), if_neg (by omega)]
    · rw [if_neg (by omega), if_pos rfl, if_pos (by simp), Nat.sub_self]
      rfl
    · by_cases hin : k < off + (i + 1) + bs.length
      · rw [if_pos ⟨by omega, hin⟩, if_pos ⟨by omega, by simp; omega⟩, show k - (off + i) = k - (off + (i + 1)) + 1 by omega]
        rfl
      · rw [if_neg (by omega), if_neg (by omega), if_neg (by simp; omega)]

theorem length_ins_le {α : Type} (p : List (Nat × α)) (a : Nat) (b : α) : (ins p a b).length ≤ p.length + 1 := by
  induction p with
  | nil => exact le_refl _
  | cons e p ih =>
    unfold ins
    split
    · exact le_refl _
    · split
      · exact Nat.le_succ _
      · exact Nat.succ_le_succ ih

theorem length_foldl_ins_le (bs : List Byte) (i off : Nat) (p : List (Nat × Byte)) :
    ((bs.zipIdx i).foldl (fun q e => ins q (off + e.2) e.1) p).length ≤ p.length + bs.length := by
  induction bs generalizing i p with
  | nil => exact le_refl _
  | cons b bs ih =>
    rw [List.zipIdx_cons, List.foldl_cons]
    have hrest := ih (i + 1) (ins p (off + i) b)
    have hone := length_ins_le p (off + i) b
    calc _ ≤ (ins p (off + i) b).length + bs.length := hrest
      _ ≤ p.length + (b :: bs).length := by rw [List.length_cons]; omega

/-- A chunk of a patch whose header is not yet whole: its bytes go in, and the lease is renewed. -/
theorem patchChunk_short {l : Lease} (off : Nat) (bs : List Byte) (hlease : s.upd.lease = some l)
    (hshort : s.upd.patch.length + bs.length < 128) : patchChunk s off bs = { s with upd := { s.upd with
      patch := bs.zipIdx.foldl (fun q e => ins q (off + e.2) e.1) s.upd.patch
      lease := some { l with at_ := s.clk.fabric } } } := by
  have hlength := length_foldl_ins_le bs 0 off s.upd.patch
  unfold patchChunk
  dsimp only
  generalize bs.zipIdx.foldl (fun q e => ins q (off + e.2) e.1) s.upd.patch = p at hlength ⊢
  have hrenewed : leaseRenew { s with upd := { s.upd with patch := p } } =
      { s with upd := { s.upd with patch := p, lease := some { l with at_ := s.clk.fabric } } } :=
    leaseRenew_renews (s := { s with upd := { s.upd with patch := p } }) hlease
  have hhead : decide (128 ≤ p.length) = false := decide_eq_false (by omega)
  rw [hhead, Bool.false_and, if_neg (by simp), if_neg (by decide)]
  exact hrenewed

/-! ### What a message is answered with (R232) -/

/-- A reply to a message that the session service grants at once goes out on whatever its effect leaves of Cobbler. -/
theorem sent_opxReply (h : Serving s u n sq m) (hlight : Light s v) (hopx : x.opx = (msgTake v m).opx) (ty out : Nat)
    (body : List Byte) : Sent m.slot ⟨ty, 3, m.cls, m.slot, m.sq, out, body⟩ x (opxReply x m ty out body) := by
  have hsess : session x m.slot = session s n := by
    rw [← h.slot, session_congr hopx]
    exact session_congr hlight.opx m.slot
  exact sent_opxSendAt _ ty 3 m.cls m.sq out body (by rw [hsess, h.open_]) (by rw [hsess]; exact h.txSeq)

/-- What a command leaves whose message was answered. -/
theorem finishClock_replied (h : Serving s u n sq m) (hlight : Light s v) (hopx : x.opx = (msgTake v m).opx) (ty out : Nat)
    (body : List Byte) : ∃ t, finishClock s (opxReply x m ty out body) = .next t ∧ t.upd = x.upd ∧
      (∀ a, a ≠ reg pOPX 0x0AC → rd t a = rd x a) ∧ replied s t m ty out body := by
  have hsent := sent_opxReply h hlight hopx ty out body
  obtain ⟨t, ht, hdone, -⟩ := finishClock_done s (opxReply x m ty out body)
  refine ⟨t, ht, hdone.upd.trans hsent.upd, fun a ha => (hdone.rd a).trans (hsent.rd a ha), ?_⟩
  unfold replied
  rw [hdone.opx, hsent.outq, hopx, ← hlight.opx]
  rfl

/-- The payload of a reply to LEASE. -/
def leaseBody (s : State) (m : OpxMsg) (res : Nat) : List Byte :=
  [BitVec.ofNat 8 (beAt m.body 0 1), BitVec.ofNat 8 res, 0, 0] ++ beBytes 4 (rd s (reg pUPD 0x09C)).toNat ++
    beBytes 4 (rd s (reg pUPD 0x0A0)).toNat ++ beBytes 4 (rd s (reg pUPD 0x0A4)).toNat

theorem leaseReply_eq (s : State) (m : OpxMsg) (out res : Nat) : leaseReply s m out res = opxReply s m 0xC out (leaseBody s m res) := rfl

theorem result_leaseBody (s : State) (m : OpxMsg) {res : Nat} (h : res < 256) : beAt (leaseBody s m res) 1 1 = res := by
  have hbyte : beAt (leaseBody s m res) 1 1 = (BitVec.ofNat 8 res).toNat := by simp [beAt, slice, leaseBody, leNat]
  rw [hbyte, BitVec.toNat_ofNat, Nat.mod_eq_of_lt h]

theorem messageDo_lease (s : State) (out : Nat) (htype : m.type_ = 0xC) : messageDo s m out = leaseDo (msgTake s m) m out := by
  unfold messageDo
  dsimp only
  rw [htype]
  rfl

theorem messageDo_chunk (s : State) (out : Nat) (htype : m.type_ = 0xA) : messageDo s m out = chunkDo (msgTake s m) m out := by
  unfold messageDo
  dsimp only
  rw [htype]
  rfl

/-- A message that moves neither Cobbler's state nor its lease is no change. -/
theorem msgChange_eq_none (out : Nat) (htype : m.type_ ≠ 0x12) (hsame : stepMsg m = false ∨
    updState (messageDo s m out) = updState s ∧ (messageDo s m out).upd.lease.isSome = s.upd.lease.isSome) :
    msgChange s m out = none := by
  unfold msgChange
  rw [if_neg htype]
  dsimp only
  rw [if_pos (by simpa using hsame)]

/-- A step of Cobbler that takes or frees the lease is a change. -/
theorem msgChange_isSome (out : Nat) (htype : m.type_ ≠ 0x12) (hstep : stepMsg m = true)
    (hmoves : (messageDo s m out).upd.lease.isSome ≠ s.upd.lease.isSome) : (msgChange s m out).isSome = true := by
  unfold msgChange
  rw [if_neg htype]
  dsimp only
  rw [if_neg (by simp [hstep, hmoves])]
  rfl

end Sys2Proof.Proofs
end

section
/-!
PROOFS. The lease commands and the periodic sends carried out (R233, R237, R342, R343).
-/

namespace Sys2Proof.Proofs

open Sys2Proof.Machine Sys2Proof.Laws

/-! ### Which command a LEASE is -/

section

variable {n sq ty op : Nat} {ops : List Nat} {m : OpxMsg} {s : State} (h : inboxMsg s n sq = some m)

include h

theorem submitMsgOp_eq (hop : beAt m.body 0 1 = op) : submitMsgOp s ty op n sq = submitMsg s (· == ty) n sq := by
  obtain ⟨hslot, hsq⟩ := inboxMsg_names h
  exact if_pos (List.any_eq_true.2 ⟨m, List.mem_of_find?_eq_some h, by simp [hslot, hsq, hop]⟩)

theorem submitMsgElse_eq (hop : beAt m.body 0 1 ∉ ops) : submitMsgElse s ty ops n sq = submitMsg s (· == ty) n sq := by
  obtain ⟨hslot, hsq⟩ := inboxMsg_names h
  exact if_pos (List.any_eq_true.2 ⟨m, List.mem_of_find?_eq_some h, by simp [hslot, hsq, hop]⟩)

end

/-! ### The effects of a LEASE, each with its reply -/

/-- What a take of a free lease leaves, before its reply. -/
def taken (s : State) (m : OpxMsg) : State := leaseTake (msgTake s m) (sessWho m.slot) (origin (msgTake s m) (sessWho m.slot))

theorem taken_takes {s : State} (m : OpxMsg) (hfree : s.upd.lease = none) :
    (taken s m).opx = (msgTake s m).opx ∧
      (∃ l, (taken s m).upd.lease = some l ∧ l.holder = sessWho m.slot ∧ l.at_ = s.clk.fabric) ∧
      rdB (taken s m) updStatA 3 = true := by
  obtain ⟨hopx, hlease, hbit⟩ :=
    leaseTake_takes (s := msgTake s m) (sessWho m.slot) (origin (msgTake s m) (sessWho m.slot)) hfree
  exact ⟨hopx, ⟨_, hlease, rfl, rfl⟩, hbit⟩

section

variable {m : OpxMsg} {s : State} (htype : m.type_ = 0xC)

include htype

theorem messageDo_take (hop : beAt m.body 0 1 = 1) (hfree : s.upd.lease = none) :
    messageDo s m oSERVED = opxReply (taken s m) m 0xC oSERVED (leaseBody (taken s m) m 0) := by
  have hnone : (msgTake s m).upd.lease = none := hfree
  rw [messageDo_lease s oSERVED htype, leaseDo, if_pos hop, hnone, if_neg (by decide), leaseReply_eq, taken]

theorem messageDo_busy (hop : beAt m.body 0 1 = 1) (hheld : s.upd.lease.isSome = true) :
    messageDo s m oSERVED = opxReply (msgTake s m) m 0xC oSERVED (leaseBody (msgTake s m) m 1) := by
  have hsome : (msgTake s m).upd.lease.isSome = true := hheld
  rw [messageDo_lease s oSERVED htype, leaseDo, if_pos hop, hsome, if_pos rfl, leaseReply_eq]

theorem messageDo_renew (hop : beAt m.body 0 1 = 2) :
    messageDo s m oSERVED = opxReply (leaseRenew (msgTake s m)) m 0xC oSERVED (leaseBody (leaseRenew (msgTake s m)) m 0) := by
  rw [messageDo_lease s oSERVED htype, leaseDo, hop, if_neg (by decide), if_pos rfl, leaseReply_eq]

theorem messageDo_release (hop : beAt m.body 0 1 = 3) :
    messageDo s m oSERVED = opxReply (leaseEnd (msgTake s m)) m 0xC oSERVED (leaseBody (leaseEnd (msgTake s m)) m 2) := by
  rw [messageDo_lease s oSERVED htype, leaseDo, hop, if_neg (by decide), if_neg (by decide), leaseReply_eq]

end

/-! ### The lease commands -/

theorem exec_leaseTake (n : Fin 2048) (sq : Word) (s : State) :
    exec (.leaseTake n sq) s = finishClock s (submitMsgOp s 0xC 1 n.val sq.toNat) := rfl
theorem exec_leaseRenew (n : Fin 2048) (sq : Word) (s : State) :
    exec (.leaseRenew n sq) s = finishClock s (submitMsgOp s 0xC 2 n.val sq.toNat) := rfl
theorem exec_leaseRelease (n : Fin 2048) (sq : Word) (s : State) :
    exec (.leaseRelease n sq) s = finishClock s (submitMsgElse s 0xC [1, 2] n.val sq.toNat) := rfl
theorem exec_updateChunk (n : Fin 2048) (sq : Word) (s : State) :
    exec (.updateChunk n sq) s = finishClock s (submitMsg s (· == 0xA) n.val sq.toNat) := rfl

theorem updState_light {s t : State} (h : Light s t) : updState t = updState s :=
  rdF_congr (h.rd _ (booked_of_page (p := pUPD) (by decide) (by decide) (by decide))) _ _

section

variable {n : Fin 2048} {sq : Word} {m : OpxMsg} {s u : State} (h : msgServed s n.val sq.toNat 0xC m u)

include h

theorem leaseTake_free (hop : beAt m.body 0 1 = 1) (hfree : s.upd.lease = none) (hlogged : msgLogged u m) :
    ∃ t l b, exec (.leaseTake n sq) s = .next t ∧ t.upd.lease = some l ∧ l.holder = sessWho n.val ∧ l.at_ = s.clk.fabric ∧
      rdB t updStatA 3 = true ∧ replied s t m 0xC oSERVED b ∧ beAt b 1 1 = 0 := by
  have hserving := serving_of_msgServed h
  have htype : m.type_ = 0xC := h.1.2.1
  have hfreeOn {v : State} (hv : Light s v) : v.upd.lease = none := by rw [hv.upd, hfree]
  have hchange : (msgChange u m oSERVED).isSome = true := by
    obtain ⟨hopx, ⟨l, hlease, -, -⟩, -⟩ := taken_takes m (hfreeOn hserving.light)
    refine msgChange_isSome oSERVED (by rw [htype]; decide) (by simp [stepMsg, htype, hop]) ?_
    rw [messageDo_take htype hop (hfreeOn hserving.light), (sent_opxReply hserving hserving.light hopx _ _ _).upd, hlease,
      hfreeOn hserving.light]
    simp
  obtain ⟨v, hlight, hsubmit⟩ := submitMsg_logged h hchange hlogged
  obtain ⟨hopx, ⟨l, hlease, hholder, hat⟩, hbit⟩ := taken_takes m (hfreeOn hlight)
  obtain ⟨t, ht, hupd, hrd, hreplied⟩ := finishClock_replied hserving hlight hopx 0xC oSERVED (leaseBody (taken v m) m 0)
  refine ⟨t, l, _, ?_, by rw [hupd, hlease], by rw [hholder, hserving.slot], by rw [hat, hlight.clk], ?_, hreplied,
    result_leaseBody _ m (by decide)⟩
  · rw [exec_leaseTake, submitMsgOp_eq h.1.1 hop, hsubmit, messageDo_take htype hop (hfreeOn hlight), ht]
  · rw [rdB, hrd _ (by decide)]
    exact hbit

/-- A LEASE that takes finds a held lease busy. -/
theorem leaseTake_busy (hop : beAt m.body 0 1 = 1) {l : Lease} (hheld : s.upd.lease = some l) :
    ∃ t b, exec (.leaseTake n sq) s = .next t ∧ t.upd.lease = some l ∧ replied s t m 0xC oSERVED b ∧ beAt b 1 1 = 1 := by
  have hserving := serving_of_msgServed h
  have htype : m.type_ = 0xC := h.1.2.1
  have hlease : u.upd.lease = some l := by rw [hserving.light.upd, hheld]
  have hdo := messageDo_busy htype hop (s := u) (by rw [hlease]; rfl)
  have hsent := sent_opxReply hserving hserving.light (x := msgTake u m) rfl 0xC oSERVED (leaseBody (msgTake u m) m 1)
  have hchange : msgChange u m oSERVED = none := by
    refine msgChange_eq_none oSERVED (by rw [htype]; decide) (.inr ?_)
    rw [hdo, hsent.upd, updState, rdF_congr (hsent.rd _ (by decide))]
    exact ⟨rfl, rfl⟩
  obtain ⟨t, ht, hupd, -, hreplied⟩ :=
    finishClock_replied hserving hserving.light (x := msgTake u m) rfl 0xC oSERVED (leaseBody (msgTake u m) m 1)
  refine ⟨t, _, ?_, by rw [hupd]; exact hlease, hreplied, result_leaseBody _ m (by decide)⟩
  rw [exec_leaseTake, submitMsgOp_eq h.1.1 hop, submitMsg_unlogged h hchange, hdo, ht]

theorem leaseRenew_held (hop : beAt m.body 0 1 = 2) {l : Lease} (hheld : s.upd.lease = some l) :
    ∃ t b, exec (.leaseRenew n sq) s = .next t ∧ t.upd.lease = some { l with at_ := s.clk.fabric } ∧ replied s t m 0xC oSERVED b := by
  have hserving := serving_of_msgServed h
  have htype : m.type_ = 0xC := h.1.2.1
  have hlease : (msgTake u m).upd.lease = some l := hserving.light.upd ▸ hheld
  have hrenewed := leaseRenew_renews hlease
  have hchange : msgChange u m oSERVED = none :=
    msgChange_eq_none oSERVED (by rw [htype]; decide) (.inl (by simp [stepMsg, htype, hop]))
  obtain ⟨t, ht, hupd, -, hreplied⟩ := finishClock_replied hserving hserving.light (x := leaseRenew (msgTake u m))
    (by rw [hrenewed]) 0xC oSERVED (leaseBody (leaseRenew (msgTake u m)) m 0)
  refine ⟨t, _, ?_, ?_, hreplied⟩
  · rw [exec_leaseRenew, submitMsgOp_eq h.1.1 hop, submitMsg_unlogged h hchange, messageDo_renew htype hop, ht]
  · rw [hupd, hrenewed, ← hserving.light.clk]
    rfl

theorem leaseRelease_held (hop : beAt m.body 0 1 = 3) (hheld : s.upd.lease.isSome = true) (hlogged : msgLogged u m) :
    ∃ t b, exec (.leaseRelease n sq) s = .next t ∧ t.upd.lease = none ∧ rdB t updStatA 3 = false ∧
      (updState s = 1 → updState t = 0 ∧ t.upd.patch = []) ∧ replied s t m 0xC oSERVED b ∧ beAt b 1 1 = 2 := by
  have hserving := serving_of_msgServed h
  have htype : m.type_ = 0xC := h.1.2.1
  have hheldOn {v : State} (hv : Light s v) : (msgTake v m).upd.lease.isSome = true := hv.upd ▸ hheld
  have hchange : (msgChange u m oSERVED).isSome = true := by
    refine msgChange_isSome oSERVED (by rw [htype]; decide) (by simp [stepMsg, htype, hop]) ?_
    rw [messageDo_release htype hop, (sent_opxReply hserving hserving.light (leaseEnd_blocks (msgTake u m)).1 _ _ _).upd,
      (leaseEnd_ends (hheldOn hserving.light)).1]
    exact fun hsame => absurd (hsame.trans (hheldOn hserving.light)) (by decide)
  obtain ⟨v, hlight, hsubmit⟩ := submitMsg_logged h hchange hlogged
  obtain ⟨hnone, hbit, hreceiving⟩ := leaseEnd_ends (hheldOn hlight)
  obtain ⟨t, ht, hupd, hrd, hreplied⟩ :=
    finishClock_replied hserving hlight (leaseEnd_blocks (msgTake v m)).1 0xC oSERVED (leaseBody (leaseEnd (msgTake v m)) m 2)
  refine ⟨t, _, ?_, by rw [hupd, hnone], ?_, fun hstate => ?_, hreplied, result_leaseBody _ m (by decide)⟩
  · rw [exec_leaseRelease, submitMsgElse_eq h.1.1 (by rw [hop]; decide), hsubmit, messageDo_release htype hop, ht]
  · rw [rdB, hrd _ (by decide)]
    exact hbit
  · rw [updState, rdF_congr (hrd updStatA (by decide)), hupd]
    exact hreceiving ((updState_light hlight).trans hstate)

end

/-- The holder's chunk of a patch, its header not yet whole. -/
theorem updateChunk_short {n : Fin 2048} {sq : Word} {m : OpxMsg} {s u : State} {l : Lease}
    (h : msgServed s n.val sq.toNat 0xA m u) (hheld : s.upd.lease = some l) (hstate : updState s = 1)
    (hshort : s.upd.patch.length + (m.body.drop 8).length < 128) :
    ∃ t, exec (.updateChunk n sq) s = .next t ∧ t.upd.lease = some { l with at_ := s.clk.fabric } ∧ updState t = 1 ∧
      t.upd.patch = (m.body.drop 8).zipIdx.foldl (fun q e => ins q (beAt m.body 4 4 + e.2) e.1) s.upd.patch ∧
      replied s t m 0xA oSERVED (m.body.take 8) := by
  have hserving := serving_of_msgServed h
  have htype : m.type_ = 0xA := h.1.2.1
  have hupd : (msgTake u m).upd = s.upd := hserving.light.upd
  have hreceiving : updState (msgTake u m) = 1 := (updState_light hserving.light).trans hstate
  obtain ⟨x, hx⟩ : ∃ x, x = patchChunk (msgTake u m) (beAt m.body 4 4) (m.body.drop 8) := ⟨_, rfl⟩
  have hput := patchChunk_short (s := msgTake u m) (beAt m.body 4 4) (m.body.drop 8) (by rw [hupd, hheld]) (by rw [hupd]; exact hshort)
  rw [← hx, hupd] at hput
  have hdo : messageDo u m oSERVED = opxReply x m 0xA oSERVED (m.body.take 8) := by
    rw [messageDo_chunk u oSERVED htype, chunkDo, if_pos hreceiving, hx]
  have hopx : x.opx = (msgTake u m).opx := by rw [hput]
  have hxstate : updState x = 1 := by
    rw [hput]
    exact hreceiving
  have hsent := sent_opxReply hserving hserving.light hopx 0xA oSERVED (m.body.take 8)
  have hchange : msgChange u m oSERVED = none := by
    refine msgChange_eq_none oSERVED (by rw [htype]; decide) (.inr ?_)
    rw [hdo, hsent.upd, updState, rdF_congr (hsent.rd _ (by decide)), ← updState, hxstate, updState_light hserving.light, hstate, hput,
      hserving.light.upd, hheld]
    exact ⟨rfl, rfl⟩
  obtain ⟨t, ht, htupd, hrd, hreplied⟩ := finishClock_replied hserving hserving.light hopx 0xA oSERVED (m.body.take 8)
  refine ⟨t, ?_, ?_, ?_, ?_, hreplied⟩
  · rw [exec_updateChunk, submitMsg_unlogged h hchange, hdo, ht]
  · rw [htupd, hput, ← hserving.light.clk]
    rfl
  · rw [updState, rdF_congr (hrd updStatA (by decide)), ← updState, hxstate]
  · rw [htupd, hput]

/-! ### The periodic messages (R233, R237) -/

theorem exec_statusPeriodSend (s : State) : exec .statusPeriodSend s = finish s (statusSend s) := rfl
theorem exec_timeRefSend (s : State) : exec .timeRefSend s = finishClock s (trefSend s) := rfl

theorem trefSlots_congr {s t : State} (h : t.opx = s.opx) : trefSlots t = trefSlots s := by
  unfold trefSlots
  rw [h]

theorem length_trefBody (s : State) (n : Nat) : (trefBody s n).length = 16 := by simp [trefBody, beBytes]

section

variable {n : Nat} {s : State} (hruns : runs s pOPX = true) (hopen : (session s n).open_ = true)
  (hseq : (session s n).txSeq < 0xFFFFFFFF)

include hruns hopen hseq

theorem statusPeriodSend_one (hperiod : rdF s (reg pOPX 0x08C) 16 8 ≠ 0) (hslots : openSlots s = [n]) :
    ∃ t, exec .statusPeriodSend s = .next t ∧
      t.opx.outq = s.opx.outq ++ [⟨0xB, 0, .operator, n, 0, 0, statusBody s n⟩] := by
  have hsends : statusSend s = opxSend s n 0xB 0 .operator 0 0 (statusBody s n) := by
    unfold statusSend
    rw [hruns, hslots, if_neg (by simp [hperiod])]
    rfl
  have hsent := sent_opxSendAt (count s) 0xB 0 .operator 0 0 (statusBody s n) hopen hseq
  obtain ⟨t, ht, -, hopx, -⟩ := finish_opx s (statusSend s)
  rw [exec_statusPeriodSend]
  refine ⟨t, ht, ?_⟩
  rw [hopx, hsends]
  exact hsent.outq

theorem timeRefSend_one (hmaster : rdB s (reg pOPX 0x090) 24 = true) (hslots : trefSlots s = [n]) (hmoves : s.clk.moves = true) :
    ∃ t b, exec .timeRefSend s = .next t ∧ b.length = 16 ∧ t.opx.outq = s.opx.outq ++ [⟨8, 0, .control, n, 0, 0, b⟩] ∧
      fromAngle (count s) (rdF s (reg pOPX 0x090) 0 16) ≤ count t := by
  obtain ⟨p, hp⟩ : ∃ p, p = fromAngle (count s) (rdF s (reg pOPX 0x090) 0 16) := ⟨_, rfl⟩
  obtain ⟨b, hb⟩ : ∃ b, b = trefBody (reachPos s p) n := ⟨_, rfl⟩
  obtain ⟨x, hx⟩ : ∃ x, x = opxSendAt (reachPos s p) p n 8 0 .control 0 0 b := ⟨_, rfl⟩
  have hopx : (reachPos s p).opx = s.opx := reachPos_opx s p
  obtain ⟨f, hsends⟩ : ∃ f, trefSend s = { x with free := f } := by
    unfold trefSend
    dsimp only
    rw [hmaster, hruns, ← hp, trefSlots_congr hopx, hslots, if_neg (by decide), List.foldl_cons, List.foldl_nil, ← hb, ← hx]
    exact ⟨_, rfl⟩
  have hsent := sent_opxSendAt (s := reachPos s p) p 8 0 .control 0 0 b
    (by rw [session_congr hopx, hopen]) (by rw [session_congr hopx]; exact hseq)
  rw [← hx] at hsent
  obtain ⟨t, ht, hdone, -⟩ := finishClock_done s { x with free := f }
  have hclk : t.clk = s.clk.later (reachPos s p).clk := hdone.clk.trans (congrArg s.clk.later hsent.clk)
  refine ⟨t, b, ?_, ?_, by rw [hdone.opx, hsent.outq, hopx], ?_⟩
  · rw [exec_timeRefSend, hsends, ht]
  · rw [hb, length_trefBody]
  · calc fromAngle (count s) (rdF s (reg pOPX 0x090) 0 16) = p := hp.symm
      _ ≤ count (reachPos s p) := le_count_reachPos p hmoves
      _ ≤ count t := by
        unfold count
        rw [hclk]
        exact Nat.div_le_div_right (later_ge _ _).2

end

/-- Settles O48: a LEASE goes by its operation and by whether the lease is held, a chunk's bytes stand at their offset, and each
periodic send is one message to the one session that it goes to. -/
theorem leasesAndPeriodicMessages : Obligations.LeasesAndPeriodicMessages := by
  unfold Obligations.LeasesAndPeriodicMessages
  intro s u n sq m
  refine ⟨fun hserved hop => ⟨fun hfree hlogged => leaseTake_free hserved hop hfree hlogged,
      fun l hheld => leaseTake_busy hserved hop hheld⟩,
    fun l hheld _ => ⟨fun hserved hop => leaseRenew_held hserved hop hheld,
      fun hserved hop hlogged => leaseRelease_held hserved hop (by rw [hheld]; rfl) hlogged, ?chunk⟩,
    fun hruns hopen hseq => ⟨fun hperiod hslots => statusPeriodSend_one hruns hopen hseq hperiod hslots,
      fun hmaster hslots hmoves => timeRefSend_one hruns hopen hseq hmaster hslots hmoves⟩⟩
  intro hserved _ hstate hshort
  obtain ⟨t, ht, hlease, hupdState, hpatch, hreplied⟩ := updateChunk_short hserved hheld hstate hshort
  refine ⟨t, ht, hlease, hupdState, hreplied, fun j hj => ?_, fun k hk => ?_⟩
  · rw [hpatch, get?_foldl_ins, if_pos ⟨by omega, by omega⟩, Nat.add_zero, Nat.add_sub_cancel_left]
  · rw [hpatch, get?_foldl_ins, if_neg (by omega)]

end Sys2Proof.Proofs
end

section
/-!
PROOFS. The page of a multi-drop bus (chapter 10, R240–R252): its registers, what its events and its waking leave as they were, and
what a write to it does.
-/

namespace Sys2Proof.Proofs

open Sys2Proof.Machine Sys2Proof.Laws

variable {s t : State} {n : Fin 8}

/-! ### The registers of a bus -/

theorem mbPg_ne {p : Nat} (n : Fin 8) (hp : p < 0x60 ∨ 0x67 < p) : mbPg n.val ≠ p := by
  unfold mbPg pMB
  omega

theorem evtAddr_mbPg : evtAddr (mbPg n.val) = some (reg (mbPg n.val) 0x08C) := by
  have hall : ∀ m : Fin 8, evtAddr (mbPg m.val) = some (reg (mbPg m.val) 0x08C) := by decide
  exact hall n

theorem booked_mbPg {o : Nat} (ho : o < 4096) : booked (reg (mbPg n.val) o) = false :=
  booked_of_page ho (mbPg_ne n (by decide)) (mbPg_ne n (by decide))

/-- A request's way changes no register of a bus. -/
theorem Light.rd_mb (hl : Light s t) {o : Nat} (ho : o < 4096) : rd t (reg (mbPg n.val) o) = rd s (reg (mbPg n.val) o) :=
  hl.rd _ (booked_mbPg ho)

theorem reg_add (p o k : Nat) : reg p o + k = reg p (o + k) := Nat.add_assoc _ _ _

theorem txObj_add (n o k : Nat) : txObj n o + k = reg (mbPg n) (0x600 + 0x50 * o + k) := reg_add _ _ _

theorem rxObj_eq (n o : Nat) : rxObj n o = reg (mbPg n) (0xB00 + 0x50 * o) := rfl

theorem rxObj_add (n o k : Nat) : rxObj n o + k = reg (mbPg n) (0xB00 + 0x50 * o + k) := reg_add _ _ _

theorem rd_wr_offset (s : State) {p q o : Nat} (v : Word) (h : q ≠ o) : rd (wr s (reg p o) v) (reg p q) = rd s (reg p q) :=
  rd_wr_other s v fun e => h (reg_right_inj.1 e)

theorem rd_wrF_offset (s : State) {p q o : Nat} (lo k v : Nat) (h : q ≠ o) :
    rd (wrF s (reg p o) lo k v) (reg p q) = rd s (reg p q) := rd_wr_offset s _ h

theorem rd_wrB_offset (s : State) {p q o : Nat} (i : Nat) (b : Bool) (h : q ≠ o) :
    rd (wrB s (reg p o) i b) (reg p q) = rd s (reg p q) := rd_wr_offset s _ h

theorem rd_bump_offset (s : State) {p q o : Nat} (h : q ≠ o) : rd (bump s (reg p o)) (reg p q) = rd s (reg p q) :=
  rd_wr_offset s _ h

/-- Registers written in turn at other addresses leave a register. -/
theorem rd_foldl_wr_other {α : Type} {f : α → Nat} {g : α → Word} {b : Nat} (l : List α) (h : ∀ x ∈ l, f x ≠ b) (s : State) :
    rd (l.foldl (fun t x => wr t (f x) (g x)) s) b = rd s b := by
  induction l generalizing s with
  | nil => rfl
  | cons x xs ih =>
    rw [List.foldl_cons, ih (fun y hy => h y (List.mem_cons_of_mem _ hy)), rd_wr_other _ _ (h x List.mem_cons_self).symm]

/-- A register written in turn with others reads as written, when all that stand at its address have one value. -/
theorem rd_foldl_wr_mem {α : Type} {f : α → Nat} {g : α → Word} {x : α} (l : List α) (hx : x ∈ l)
    (h : ∀ y ∈ l, f y = f x → g y = g x) (s : State) : rd (l.foldl (fun t y => wr t (f y) (g y)) s) (f x) = g x := by
  induction l generalizing s x with
  | nil => cases hx
  | cons y ys ih =>
    rw [List.foldl_cons]
    by_cases hlater : ∃ z ∈ ys, f z = f x
    · obtain ⟨z, hz, hfz⟩ := hlater
      have hgz := h z (List.mem_cons_of_mem _ hz) hfz
      rw [← hfz, ← hgz]
      exact ih hz (fun w hw hfw => (h w (List.mem_cons_of_mem _ hw) (hfw.trans hfz)).trans hgz.symm) _
    · have hyx : f y = f x := by
        rcases List.mem_cons.1 hx with rfl | hx
        · rfl
        · exact absurd ⟨x, hx, rfl⟩ hlater
      rw [rd_foldl_wr_other ys (fun z hz hfz => hlater ⟨z, hz, hfz⟩), ← hyx, rd_wr_same]
      exact h y List.mem_cons_self hyx

/-! ### A bus and its counters -/

theorem bus_congr (h : t.bus = s.bus) (n : Nat) : bus t n = bus s n := by
  unfold bus
  rw [h]

@[simp] theorem bus_setBus_same (s : State) (n : Nat) (b : Bus) : bus (setBus s n b) n = b := look_put_same _ _ _ _

@[simp] theorem bus_wr (s : State) (a : Nat) (v : Word) (n : Nat) : bus (wr s a v) n = bus s n := rfl
@[simp] theorem bus_wrF (s : State) (a lo k v n : Nat) : bus (wrF s a lo k v) n = bus s n := rfl
@[simp] theorem bus_wrB (s : State) (a i : Nat) (b : Bool) (n : Nat) : bus (wrB s a i b) n = bus s n := rfl
@[simp] theorem bus_bump (s : State) (a n : Nat) : bus (bump s a) n = bus s n := rfl
@[simp] theorem bus_ev (s : State) (p b n : Nat) : bus (ev s p b) n = bus s n := bus_congr (ev_bus ..) n
@[simp] theorem bus_evIf (c : Bool) (s : State) (p b n : Nat) : bus (evIf c s p b) n = bus s n := bus_congr (evIf_bus ..) n

/-- A counter of a bus counts one. -/
theorem rd_bump_mb {o : Nat} (ho : o < 4096) (hcor : corMode s (mbPg n.val) = false) :
    rd (bump s (reg (mbPg n.val) o)) (reg (mbPg n.val) o) = rd s (reg (mbPg n.val) o) + 1 := by
  have hpage : statPage (reg (mbPg n.val) o) = mbPg n.val := by
    unfold statPage
    rw [pageOf_reg _ ho, if_neg (mbPg_ne n (by decide))]
  exact rd_bump_same s hpage hcor

/-! ### Events of a bus -/

theorem rd_evMb_other (s : State) (b : Nat) {o : Nat} (h : o ≠ 0x08C) :
    rd (ev s (mbPg n.val) b) (reg (mbPg n.val) o) = rd s (reg (mbPg n.val) o) :=
  rd_ev_other s _ b fun e => h (reg_right_inj.1 (Option.some.inj (evtAddr_mbPg.symm.trans e))).symm

theorem rd_evIfMb_other (c : Bool) (s : State) (b : Nat) {o : Nat} (h : o ≠ 0x08C) :
    rd (evIf c s (mbPg n.val) b) (reg (mbPg n.val) o) = rd s (reg (mbPg n.val) o) := by
  cases c
  · rfl
  · exact rd_evMb_other s b h

theorem rdB_evMb_same (s : State) {b : Nat} (hb : b < 32) : rdB (ev s (mbPg n.val) b) (reg (mbPg n.val) 0x08C) b = true :=
  rdB_ev_same s evtAddr_mbPg hb

/-! ### A bus wakes (R251, R252) -/

theorem stbyFollow_eq (u s : State) : ∃ p, stbyFollow u s = { s with pins := p } := by
  unfold stbyFollow
  split
  · exact ⟨_, rfl⟩
  · exact ⟨_, rfl⟩

/-- A bus that is not asleep has nothing to wake from. -/
theorem busWake_awake {n : Nat} (h : (bus s n).sleeping = false) : busWake s n = s := by
  unfold busWake
  dsimp only
  rw [h, if_neg Bool.false_ne_true]

/-- A sleeping bus wakes with EVT.WAKE. -/
theorem busWake_asleep {n : Nat} (h : (bus s n).sleeping = true) : ∃ p, busWake s n = { ev (setBus s n
    { bus s n with sleeping := false, sleepReq := false, trefPrev := none }) (mbPg n) 8 with pins := p } := by
  unfold busWake
  dsimp only
  rw [h, if_pos rfl]
  exact stbyFollow_eq _ _

/-- What waking a bus leaves: all but its sleep, its event register and the pins. -/
structure Woken (n : Fin 8) (s t : State) : Prop where
  clk : t.clk = s.clk
  guard : t.guard = s.guard
  toll : t.toll = s.toll
  staged : t.staged = s.staged
  rd : ∀ o, o ≠ 0x08C → rd t (reg (mbPg n.val) o) = rd s (reg (mbPg n.val) o)
  events : ∀ k, rdB s (reg (mbPg n.val) 0x08C) k = true → rdB t (reg (mbPg n.val) 0x08C) k = true
  awake : (bus t n.val).sleeping = false

theorem woken_busWake (s : State) (n : Fin 8) : Woken n s (busWake s n.val) := by
  cases h : (bus s n.val).sleeping with
  | false =>
    rw [busWake_awake h]
    exact ⟨rfl, rfl, rfl, rfl, fun _ _ => rfl, fun _ h => h, h⟩
  | true =>
    obtain ⟨p, hp⟩ := busWake_asleep h
    rw [hp]
    exact ⟨ev_clk .., ev_guard .., ev_toll .., ev_staged .., fun o ho => rd_evMb_other _ 8 ho, fun k => rdB_ev_mono (setBus s _ _) _ 8,
      congrArg Bus.sleeping ((bus_ev ..).trans (bus_setBus_same s n.val _))⟩

theorem rdB_busWake (h : (bus s n.val).sleeping = true) : rdB (busWake s n.val) (reg (mbPg n.val) 0x08C) 8 = true := by
  obtain ⟨p, hp⟩ := busWake_asleep h
  rw [hp]
  exact rdB_evMb_same _ (by decide)

/-! ### A write to a bus's page -/

/-- From 0x080 on, the registers of a bus's page are its block's. -/
theorem writeEffect_mb (s : State) (i : Init) {o : Nat} (v : Word) (ho : o < 4096) (hblock : 0x080 ≤ o)
    (hrow : (rowOf (reg (mbPg n.val) o)).isNone = false) :
    writeEffect s i (reg (mbPg n.val) o) v = writeMb s i.who n.val o v := by
  have hbank : isLoopbank (mbPg n.val) = false := by
    have hall : ∀ m : Fin 8, isLoopbank (mbPg m.val) = false := by decide
    exact hall n
  have hlow : 0x60 ≤ mbPg n.val := Nat.le_add_right _ _
  have hhigh : mbPg n.val ≤ 0x67 := by
    unfold mbPg pMB
    omega
  have hbus : mbPg n.val - pMB = n.val := Nat.add_sub_cancel_left _ _
  have hne {p : Nat} (hp : p < 0x60) : mbPg n.val ≠ p := by omega
  have hand {p : Nat} (hp : p < 0x60) (q : Prop) : ¬ (mbPg n.val = p ∧ q) := fun h => hne hp h.1
  unfold writeEffect writeBlock
  dsimp only
  rw [hrow, pageOf_reg _ ho, offOf_reg _ ho, hbank, if_neg Bool.false_ne_true, if_neg Bool.false_ne_true, if_neg (by omega),
    if_neg (hne (by decide)), if_neg (hne (by decide)), if_neg (hne (by decide)), if_neg (hand (by decide) _),
    if_neg (hne (by decide)), if_neg (hand (by decide) _), if_neg (hand (by decide) _), if_neg (by omega),
    if_neg (by unfold pSCAN pSCANDBG pPGMX pFORCE; omega), if_neg (by unfold pWGHEN; omega), if_neg (hand (by decide) _),
    if_neg (by unfold pFACT pFACTQ; omega), if_neg (hne (by decide)), if_neg (hne (by decide)), if_neg (by omega),
    if_neg (hne (by decide)), if_pos ⟨hlow, hhigh⟩, hbus]

/-- No register before the transmit objects is one of theirs. -/
theorem txobjAt_below {o : Nat} (ho : o < 0x600) : txobjAt (reg (mbPg n.val) o) = none := by
  unfold txobjAt
  dsimp only
  rw [offOf_reg _ (by omega)]
  exact if_neg (by omega)

section

variable (s : State) (w : Who) (n : Fin 8) (v : Word)

theorem writeMb_ctrl : writeMb s w n.val 0x080 v = mbCtrl s n.val v := by
  unfold writeMb
  dsimp only
  rw [txobjAt_below (by decide)]
  rfl

theorem writeMb_cmd : writeMb s w n.val 0x084 v = mbCmd s n.val (fld v 0 3) := by
  unfold writeMb
  dsimp only
  rw [txobjAt_below (by decide)]
  rfl

theorem writeMb_headZero : writeMb s w n.val 0x0E0 v = mbHead s n.val 0 v := by
  unfold writeMb
  dsimp only
  rw [txobjAt_below (by decide)]
  rfl

theorem writeMb_headOne : writeMb s w n.val 0x0E4 v = mbHead s n.val 1 v := by
  unfold writeMb
  dsimp only
  rw [txobjAt_below (by decide)]
  rfl

theorem writeMb_tail : writeMb s w n.val 0x0F4 v = mbTail s n.val v := by
  unfold writeMb
  dsimp only
  rw [txobjAt_below (by decide)]
  rfl

end

/-- A write to a bus's page that meets nothing on its way is the bus's own. -/
theorem mbRow_clear {i : Init} {o : Nat} {v : Word} (h : clear s i (reg (mbPg n.val) o) v = true) (ho : o < 4096)
    (hblock : 0x080 ≤ o) (hrow : (rowOf (reg (mbPg n.val) o)).isNone = false) {p : State → Prop}
    (hp : ∀ w t, Light s w → Done s (writeMb w i.who n.val o v) t → p t) :
    ∃ t, finishClock s (submitWrite s i (reg (mbPg n.val) o) v) = .next t ∧ p t := by
  refine row_clear h (reg_ne_of_page (mbPg_ne n (by decide)) ho (by decide)) fun w t hl hd => hp w t hl ?_
  rwa [writeEffect_mb w _ v ho hblock hrow] at hd

/-- CTRL, CMD, the heads of the queues and the tail of the transmit ring: the registers that commands of their own write. -/
theorem mbCommand_clear {i : Init} {o : Nat} {v : Word} (h : clear s i (reg (mbPg n.val) o) v = true)
    (ho : o ∈ [0x080, 0x084, 0x0E0, 0x0E4, 0x0F4]) {p : State → Prop}
    (hp : ∀ w t, Light s w → Done s (writeMb w i.who n.val o v) t → p t) :
    ∃ t, finishClock s (submitWrite s i (reg (mbPg n.val) o) v) = .next t ∧ p t := by
  have hall : ∀ m : Fin 8, ∀ o ∈ [0x080, 0x084, 0x0E0, 0x0E4, 0x0F4],
      o < 4096 ∧ 0x080 ≤ o ∧ (rowOf (reg (mbPg m.val) o)).isNone = false := by decide
  obtain ⟨hlt, hblock, hrow⟩ := hall n o ho
  exact mbRow_clear h hlt hblock hrow hp

end Sys2Proof.Proofs
end

section
/-!
PROOFS. The transmit objects of a bus and its transmit ring (chapter 10, R245, R246, R251, R351): what staging, committing and the
ring's tail leave.
-/

namespace Sys2Proof.Proofs

open Sys2Proof.Machine Sys2Proof.Laws

variable {s t : State} {n : Fin 8} {i : Init} {v : Word}

/-! ### Where a transmit object stands -/

theorem txobjAt_txObj {o k : Nat} (ho : o < 16) (hk : k < 20) : txobjAt (txObj n.val o + 4 * k) = some (n.val, o, k) := by
  have hlow : pMB ≤ mbPg n.val := Nat.le_add_right _ _
  have hhigh : mbPg n.val ≤ 0x67 := by
    unfold mbPg pMB
    omega
  unfold txobjAt
  dsimp only
  rw [txObj_add, pageOf_reg _ (by omega), offOf_reg _ (by omega), if_pos ⟨hlow, hhigh, by omega, by omega⟩]
  simp only [Option.some.injEq, Prod.mk.injEq]
  exact ⟨Nat.add_sub_cancel_left _ _, by omega, by omega⟩

theorem pageRows_mbPg : pageRows (mbPg n.val) = headerRows ++ mbRows := by
  have hall : ∀ m : Fin 8, pageRows (mbPg m.val) = headerRows ++ mbRows := by decide
  exact hall n

/-- ID and the data words of a transmit object are RW throughout. -/
theorem rowOf_txObj (o : Fin 16) {k : Fin 20} (hk : k.val = 0 ∨ 4 ≤ k.val) :
    ∃ r, rowOf (txObj n.val o.val + 4 * k.val) = some r ∧ r.rw = full := by
  have hall : ∀ (o : Fin 16) (k : Fin 20), (k.val = 0 ∨ 4 ≤ k.val) →
      ((headerRows ++ mbRows).find? fun r => r.covers (0x600 + 0x50 * o.val + 4 * k.val)).map RegRow.rw = some full := by decide
  unfold rowOf
  rw [txObj_add, pageOf_reg _ (by omega), offOf_reg _ (by omega), pageRows_mbPg]
  exact Option.map_eq_some_iff.1 (hall o k hk)

theorem rowOf_txCtl {o : Nat} (ho : o < 16) : (rowOf (txObj n.val o + 4)).isNone = false := by
  have hmem : rRW 0x604 0xF 0 16 0x50 ∈ pageRows (mbPg n.val) := by
    rw [pageRows_mbPg]
    decide
  rw [txObj_add, show 0x600 + 0x50 * o + 4 = 0x604 + 0x50 * o by omega]
  exact rowOf_isNone_of_mem hmem (by decide) ho (by simp only [rRW]; omega)

/-! ### Staged words (R245, R351) -/

/-- Words discarded at a commit are gone. -/
theorem get?_unstage_mem (w : Who) {a : Nat} {as : List Nat} (ha : a ∈ as) (s : State) :
    get? (unstage s w as).staged (initKey w a) = none := by
  have hfold : ∀ (as : List Nat) (m : List (Nat × Word)), (a ∈ as ∨ get? m (initKey w a) = none) →
      get? (as.foldl (fun m a => del m (initKey w a)) m) (initKey w a) = none := by
    intro as
    induction as with
    | nil => exact fun m h => h.resolve_left List.not_mem_nil
    | cons b bs ih =>
      intro m h
      refine ih _ ?_
      rw [get?_del]
      split
      · exact .inr rfl
      · rename_i hne
        refine h.imp_left fun hmem => (List.mem_cons.1 hmem).resolve_left ?_
        rintro rfl
        exact hne rfl
  exact hfold as s.staged (.inl ha)

theorem mem_stagedObj {w : Who} {n o j : Nat} {x : Word} :
    (j, x) ∈ stagedObj s w n o ↔ (j < 20 ∧ j ≠ 1) ∧ get? s.staged (initKey w (txObj n o + 4 * j)) = some x := by
  unfold stagedObj
  simp only [List.mem_filterMap, List.mem_filter, List.mem_range, bne_iff_ne]
  constructor
  · rintro ⟨k, hk, h⟩
    split at h
    · rename_i y hy
      cases h
      exact ⟨hk, hy⟩
    · cases h
  · rintro ⟨hj, h⟩
    exact ⟨j, hj, by rw [h]⟩

/-- The staged words written: each word of the object reads as staged, else as it was. -/
theorem rd_stagedObj (s u : State) (w : Who) {n o j : Nat} (hj : j < 20) (hne : j ≠ 1) :
    rd ((stagedObj s w n o).foldl (fun t e => wr t (txObj n o + 4 * e.1) e.2) u) (txObj n o + 4 * j) =
      stagedOr s w (txObj n o + 4 * j) (rd u (txObj n o + 4 * j)) := by
  unfold stagedOr
  cases h : get? s.staged (initKey w (txObj n o + 4 * j)) with
  | none =>
    refine rd_foldl_wr_other _ (fun e he hat => ?_) u
    have hk : e.1 = j := by omega
    have hstaged := (mem_stagedObj.1 he).2
    rw [hk, h] at hstaged
    cases hstaged
  | some x =>
    refine rd_foldl_wr_mem (f := fun e : Nat × Word => txObj n o + 4 * e.1) (x := (j, x)) _ (mem_stagedObj.2 ⟨⟨hj, hne⟩, h⟩)
      (fun e he hat => ?_) u
    have hk : e.1 = j := by
      dsimp only at hat
      omega
    have hstaged := (mem_stagedObj.1 he).2
    rw [hk, h] at hstaged
    exact (Option.some.inj hstaged).symm

/-! ### An object becomes pending (R245, R251) -/

/-- What making a transmit object pending leaves: PENDING set in its CTRL word; of the other registers of the bus at most the
events change, and none of them is taken back. -/
structure Pended (n : Fin 8) (o : Nat) (s t : State) : Prop where
  clk : t.clk = s.clk
  toll : t.toll = s.toll
  staged : t.staged = s.staged
  ctl : rd t (txObj n.val o + 4) = setFld (rd s (txObj n.val o + 4)) 8 1 1
  rd : ∀ q, q ≠ 0x08C → q ≠ 0x604 + 0x50 * o → rd t (reg (mbPg n.val) q) = rd s (reg (mbPg n.val) q)
  events : ∀ k, rdB s (reg (mbPg n.val) 0x08C) k = true → rdB t (reg (mbPg n.val) 0x08C) k = true
  awake : (bus s n.val).sleeping = false → (bus t n.val).sleeping = false

theorem txCtl_eq (n o : Nat) : txObj n o + 4 = reg (mbPg n) (0x604 + 0x50 * o) := by
  rw [txObj_add]
  congr 1
  omega

theorem pended_objPending (s : State) (n : Fin 8) (o : Nat) : Pended n o s (objPending s n.val o) := by
  obtain ⟨b, hb⟩ : ∃ b, b = { bus s n.val with
      failed := (bus s n.val).failed.filter (· != o)
      again := (bus s n.val).again || decide ((bus s n.val).onBus = some (BusTx.obj o)) } := ⟨_, rfl⟩
  obtain ⟨u, hu⟩ : ∃ u, u = wrB (setBus s n.val b) (txObj n.val o + 4) 8 true := ⟨_, rfl⟩
  have hobj : objPending s n.val o = if rdB u (reg (mbPg n.val) 0x080) 6 then busWake u n.val else u := by
    rw [hu, hb]
    rfl
  have hother {q : Nat} (hq : q ≠ 0x604 + 0x50 * o) : rd u (reg (mbPg n.val) q) = rd s (reg (mbPg n.val) q) := by
    rw [hu, txCtl_eq, rd_wrB_offset _ _ _ hq, rd_setBus]
  have hpend : Pended n o s u := by
    refine ⟨by rw [hu]; rfl, by rw [hu]; rfl, by rw [hu]; rfl, ?_, fun q _ hq => hother hq, fun k hk => ?_, fun h => ?_⟩
    · rw [hu]
      exact rd_wr_same _ _ _
    · rw [rdB, hother (by omega)]
      exact hk
    · rw [hu, bus_wrB, bus_setBus_same, hb]
      exact h
  rw [hobj]
  split
  · have hw := woken_busWake u n
    refine ⟨hw.clk.trans hpend.clk, hw.toll.trans hpend.toll, hw.staged.trans hpend.staged, ?_,
      fun q hev hq => (hw.rd q hev).trans (hpend.rd q hev hq), fun k hk => hw.events k (hpend.events k hk), fun _ => hw.awake⟩
    rw [← hpend.ctl, txCtl_eq]
    exact hw.rd _ (by omega)
  · exact hpend

/-! ### The commands -/

theorem exec_txobjStage (i : Init) (n : Fin 8) (o : Fin 16) (k : Fin 20) (v : Word) (s : State) :
    exec (.txobjStage i n o k v) s = finishClock s (submitWrite s i (txObj n.val o.val + 4 * k.val) v) := rfl
theorem exec_txobjCommit (i : Init) (n : Fin 8) (o : Fin 16) (v : Word) (s : State) :
    exec (.txobjCommit i n o v) s = finishClock s (submitWrite s i (txObj n.val o.val + 4) v) := rfl
theorem exec_mbTxrTail (i : Init) (n : Fin 8) (v : Word) (s : State) :
    exec (.mbTxrTail i n v) s = finishClock s (submitWrite s i (reg (mbPg n.val) 0x0F4) v) := rfl

theorem writeMb_stage (s : State) (w : Who) {o k : Nat} (v : Word) (ho : o < 16) (hk : k < 20) (hword : k = 0 ∨ 4 ≤ k) :
    writeMb s w n.val (0x600 + 0x50 * o + 4 * k) v = stage s w (txObj n.val o + 4 * k) v := by
  unfold writeMb
  dsimp only
  rw [← txObj_add, txobjAt_txObj ho hk]
  dsimp only
  rw [if_neg (by omega), if_neg (by omega)]

theorem writeMb_commit (s : State) (w : Who) {o : Nat} (v : Word) (ho : o < 16) :
    writeMb s w n.val (0x600 + 0x50 * o + 4) v =
      objCommit (unstage s w ((List.range 20).map fun j => txObj n.val o + 4 * j)) n.val o (stagedObj s w n.val o) (fld v 0 4) := by
  unfold writeMb
  dsimp only
  rw [← txObj_add, txobjAt_txObj (k := 1) ho (by decide)]
  rfl

/-- TXOBJ_STAGE: the word is held for its initiator, the object stands. -/
theorem txobjStage_stages {o : Fin 16} {k : Fin 20} (hk : k.val = 0 ∨ 4 ≤ k.val)
    (h : clear s i (txObj n.val o.val + 4 * k.val) v = true) :
    ∃ t, exec (.txobjStage i n o k v) s = .next t ∧ stagedOr t i.who (txObj n.val o.val + 4 * k.val) 0 = v ∧ t.bus = s.bus ∧
      ∀ j < 20, rd t (txObj n.val o.val + 4 * j) = rd s (txObj n.val o.val + 4 * j) := by
  obtain ⟨r, hr, hrw⟩ := rowOf_txObj (n := n) o hk
  rw [exec_txobjStage]
  rw [txObj_add] at h ⊢
  refine mbRow_clear h (by omega) (by omega) (by rw [← txObj_add, hr]; rfl) fun w t hl hd => ?_
  rw [writeMb_stage w i.who v o.isLt k.isLt hk, stage_whole w i.who v hr hrw] at hd
  refine ⟨?_, hd.bus.trans hl.bus, fun j hj => ?_⟩
  · rw [← txObj_add, stagedOr, hd.staged, get?_ins_same]
    rfl
  · rw [hd.rd, rd_with_staged, txObj_add]
    exact Light.rd_mb hl (by omega)

/-- TXOBJ_COMMIT: the words staged by the initiator and DLC together, and the object is pending. -/
theorem txobjCommit_commits {o : Fin 16} (h : clear s i (txObj n.val o.val + 4) v = true) :
    ∃ t, exec (.txobjCommit i n o v) s = .next t ∧ rdF t (txObj n.val o.val + 4) 0 4 = fld v 0 4 ∧
      rdB t (txObj n.val o.val + 4) 8 = true ∧
      ∀ j < 20, j ≠ 1 → get? t.staged (initKey i.who (txObj n.val o.val + 4 * j)) = none ∧
        rd t (txObj n.val o.val + 4 * j) = stagedOr s i.who (txObj n.val o.val + 4 * j) (rd s (txObj n.val o.val + 4 * j)) := by
  have hrow := rowOf_txCtl (n := n) o.isLt
  rw [exec_txobjCommit]
  rw [txObj_add] at h hrow ⊢
  refine mbRow_clear h (by omega) (by omega) hrow fun w t hl hd => ?_
  rw [writeMb_commit w i.who v o.isLt] at hd
  obtain ⟨u, hu⟩ : ∃ u, u = unstage w i.who ((List.range 20).map fun j => txObj n.val o.val + 4 * j) := ⟨_, rfl⟩
  obtain ⟨x, hx⟩ : ∃ x, x = wrF ((stagedObj w i.who n.val o.val).foldl (fun t e => wr t (txObj n.val o.val + 4 * e.1) e.2) u)
    (txObj n.val o.val + 4) 0 4 (fld v 0 4) := ⟨_, rfl⟩
  have hcommit : objCommit u n.val o.val (stagedObj w i.who n.val o.val) (fld v 0 4) = objPending x n.val o.val := by
    rw [hx]
    rfl
  have hp := pended_objPending x n o.val
  rw [← hu, hcommit] at hd
  have hdlc : rdF x (txObj n.val o.val + 4) 0 4 = fld v 0 4 := by
    rw [hx, rd_wrF_same _ _ (by decide)]
    exact Nat.mod_mod _ _
  rw [← txObj_add]
  refine ⟨?_, ?_, fun j hj hne => ⟨?_, ?_⟩⟩
  · rw [rdF, hd.rd, hp.ctl, fld_setFld_below _ _ (by decide) (by decide)]
    exact hdlc
  · rw [rdB, hd.rd, hp.ctl]
    exact (bit_setFld_one _ true 8 (by decide)).trans (if_pos rfl)
  · have hstaged : x.staged = u.staged := by
      rw [hx, wrF_staged]
      exact foldl_keeps State.staged (fun t (e : Nat × Word) => wr_staged t (txObj n.val o.val + 4 * e.1) e.2) _ _
    rw [hd.staged, hp.staged, hstaged, hu]
    exact get?_unstage_mem i.who (List.mem_map.2 ⟨j, List.mem_range.2 hj, rfl⟩) w
  · have hpend : rd t (txObj n.val o.val + 4 * j) = rd x (txObj n.val o.val + 4 * j) := by
      rw [hd.rd, txObj_add]
      exact hp.rd _ (by omega) (by omega)
    have hsame : rd u (txObj n.val o.val + 4 * j) = rd s (txObj n.val o.val + 4 * j) := by
      rw [hu, unstage, rd_with_staged, txObj_add]
      exact Light.rd_mb hl (by omega)
    rw [hpend, hx, rd_wrF_other _ _ _ _ (by omega), rd_stagedObj w u i.who hj hne, stagedOr_congr hl.staged, hsame]

/-- MB_TXR_TAIL: the tail takes its value, and without AUTO_WAKE nothing else of the bus changes. -/
theorem mbTxrTail_tails (h : clear s i (reg (mbPg n.val) 0x0F4) v = true) :
    ∃ t, exec (.mbTxrTail i n v) s = .next t ∧ rdF t (reg (mbPg n.val) 0x0F4) 0 10 = fld v 0 10 ∧
      (rdB s (reg (mbPg n.val) 0x080) 6 = false → t.bus = s.bus) := by
  rw [exec_mbTxrTail]
  refine mbCommand_clear h (by decide) fun w t hl hd => ?_
  obtain ⟨u, hu⟩ : ∃ u, u = wr w (reg (mbPg n.val) 0x0F4) (w32 (fld v 0 10)) := ⟨_, rfl⟩
  have htail : writeMb w i.who n.val 0x0F4 v =
      if rdB u (reg (mbPg n.val) 0x080) 6 ∧ (ringHead u n.val).isSome then busWake u n.val else u := by
    rw [writeMb_tail, hu]
    rfl
  have hval : rdF u (reg (mbPg n.val) 0x0F4) 0 10 = fld v 0 10 := by
    rw [rdF, hu, rd_wr_same, fld_w32_fld v (by decide)]
  have hauto : rdB u (reg (mbPg n.val) 0x080) 6 = rdB s (reg (mbPg n.val) 0x080) 6 := by
    rw [rdB, hu, rd_wr_offset _ _ (by decide), Light.rd_mb hl (by decide)]
    rfl
  rw [htail, hauto] at hd
  refine ⟨?_, fun hno => ?_⟩
  · rw [rdF, hd.rd, ← hval]
    split
    · rw [(woken_busWake u n).rd 0x0F4 (by decide)]
      rfl
    · rfl
  · rw [hno, if_neg (by simp), hu] at hd
    exact hd.bus.trans hl.bus

end Sys2Proof.Proofs
end

section
/-!
PROOFS. Transmission on a bus (chapter 10, R241, R245, R246, R250–R252): which frame the controller offers, what the end of a
transmission leaves, and the enabling, the sleep and the recovery of a bus.
-/

namespace Sys2Proof.Proofs

open Sys2Proof.Machine Sys2Proof.Laws

variable {s t : State} {n : Fin 8} {i : Init} {v : Word}

/-! ### The frame that wins arbitration (R246) -/

/-- The better of the best object so far and the next: the lower key wins, the earlier object on a tie. -/
def arbStep (key : Nat → Nat) (acc : Option (Nat × Nat)) (o : Nat) : Option (Nat × Nat) :=
  match acc with
  | none => some (key o, o)
  | some (k, o') => if key o < k then some (key o, o) else some (k, o')

/-- The best of some objects in rising order has the least key, and the lowest number among those of that key. -/
theorem arbStep_least (key : Nat → Nat) {l : List Nat} (hsorted : l.Pairwise (· < ·)) (hne : l ≠ []) :
    ∃ o ∈ l, l.foldl (arbStep key) none = some (key o, o) ∧ ∀ p ∈ l, key o ≤ key p ∧ (key o = key p → o ≤ p) := by
  induction l using List.reverseRecOn with
  | nil => exact absurd rfl hne
  | append_singleton l x ih =>
    obtain ⟨hl, -, hlast⟩ := List.pairwise_append.1 hsorted
    rw [List.foldl_append, List.foldl_cons, List.foldl_nil]
    cases l with
    | nil => exact ⟨x, by simp, rfl, by simp⟩
    | cons y ys =>
      obtain ⟨o, ho, hbest, hleast⟩ := ih hl (List.cons_ne_nil _ _)
      have hox : o < x := hlast o ho x (by simp)
      rw [hbest]
      by_cases hlt : key x < key o
      · refine ⟨x, by simp, if_pos hlt, fun p hp => ?_⟩
        rcases List.mem_append.1 hp with hp | hp
        · have := (hleast p hp).1
          omega
        · rw [List.mem_singleton.1 hp]
          exact ⟨le_refl _, fun _ => le_refl _⟩
      · refine ⟨o, List.mem_append_left _ ho, if_neg hlt, fun p hp => ?_⟩
        rcases List.mem_append.1 hp with hp | hp
        · exact hleast p hp
        · rw [List.mem_singleton.1 hp]
          omega

/-- The objects of a bus that may be offered: pending, not failed under ONESHOT, FD only while FD_EN is 1. -/
def offered (s : State) (n : Nat) : List Nat := (List.range 16).filter fun o =>
  rdB s (txObj n o + 4) 8 && !(bus s n).failed.contains o && fdOk s n (rd s (txObj n o))

/-- The record at the head of a bus's ring, when it may be offered. -/
def offeredRing (s : State) (n : Nat) : Option Nat := (ringHead s n).filter fun a => fdOk s n (w32 (ramNat s a 4))

/-- The arbitration field of a transmit object as a number. -/
def objKey (s : State) (n o : Nat) : Nat := arbKey (rd s (txObj n o))

theorem mem_offered {n o : Nat} : o ∈ offered s n ↔
    o < 16 ∧ rdB s (txObj n o + 4) 8 = true ∧ o ∉ (bus s n).failed ∧ fdOk s n (rd s (txObj n o)) = true := by
  unfold offered
  simp [and_assoc]

theorem offered_sorted (s : State) (n : Nat) : (offered s n).Pairwise (· < ·) := List.pairwise_lt_range.filter _

theorem mbNext_tref {n : Nat} (h : (bus s n).tref.isSome = true) : mbNext s n = some .tref := by
  unfold mbNext
  dsimp only
  rw [if_pos h]

/-- Without a time reference, what is offered is the best object or the ring's head. -/
theorem mbNext_offers {n : Nat} (h : (bus s n).tref = none) : mbNext s n =
    match offeredRing s n, (offered s n).foldl (arbStep (objKey s n)) none with
    | some a, some (k, o) => if arbKey (w32 (ramNat s a 4)) < k then some .ring else some (.obj o)
    | some _, none => some .ring
    | none, some (_, o) => some (.obj o)
    | none, none => none := by
  unfold mbNext
  dsimp only
  rw [h, if_neg (by simp)]
  rfl

/-- The frame offered wins against every object that may be offered, an object on a tie against the ring's too. -/
theorem mbNext_wins {n o' : Nat} {x : BusTx} (htref : (bus s n).tref = none) (hnext : mbNext s n = some x) (ho' : o' ∈ offered s n) :
    (∀ o, x = .obj o → objKey s n o ≤ objKey s n o' ∧ (objKey s n o = objKey s n o' → o ≤ o') ∧
      ∀ a, offeredRing s n = some a → objKey s n o ≤ arbKey (w32 (ramNat s a 4))) ∧
    (x = .ring → ∃ a, offeredRing s n = some a ∧ arbKey (w32 (ramNat s a 4)) < objKey s n o') := by
  obtain ⟨o, -, hbest, hleast⟩ := arbStep_least (objKey s n) (offered_sorted s n) (List.ne_nil_of_mem ho')
  obtain ⟨hle, htie⟩ := hleast o' ho'
  rw [mbNext_offers htref, hbest] at hnext
  cases hring : offeredRing s n with
  | none =>
    rw [hring] at hnext
    cases hnext
    refine ⟨fun p hp => ?_, fun h => (nomatch h)⟩
    cases hp
    exact ⟨hle, htie, fun a ha => (nomatch ha)⟩
  | some a =>
    rw [hring] at hnext
    dsimp only at hnext
    split at hnext
    · rename_i hlt
      cases hnext
      exact ⟨fun _ h => (nomatch h), fun _ => ⟨a, rfl, by omega⟩⟩
    · rename_i hge
      cases hnext
      refine ⟨fun p hp => ?_, fun h => (nomatch h)⟩
      cases hp
      refine ⟨hle, htie, fun b hb => ?_⟩
      cases hb
      omega

theorem offeredRing_eq_some {n a : Nat} :
    offeredRing s n = some a ↔ ringHead s n = some a ∧ fdOk s n (w32 (ramNat s a 4)) = true := Option.filter_eq_some_iff

/-- The next frame starts on the bus. -/
theorem mbStart_starts {n : Nat} {x : BusTx} (hon : busOn s n = true) (hawake : (bus s n).sleeping = false)
    (hoff : (bus s n).busOff = false) (hidle : (bus s n).onBus = none) (hsettled : stbySettled s = true) (hnext : mbNext s n = some x) :
    ∃ b, mbStart s n = setBus s n b ∧ b.onBus = some x := by
  unfold mbStart
  dsimp only
  rw [if_neg (by simp [hon, hawake, hoff, hidle, hsettled]), hnext]
  dsimp only
  split
  · exact ⟨_, rfl, rfl⟩
  · exact ⟨_, rfl, rfl⟩

/-! ### The error counters (R250) -/

section

variable (s) (n) (k : Nat)

/-- TEC moved: an event, the counter, and at 256 the bus off. -/
theorem rd_tecTo_other {o : Nat} (hev : o ≠ 0x08C) (htec : o ≠ 0x098) (hoff : o ≠ 0x0DC) :
    rd (tecTo s n.val k) (reg (mbPg n.val) o) = rd s (reg (mbPg n.val) o) := by
  unfold tecTo
  dsimp only
  split
  · rw [rd_evMb_other _ _ hev, rd_bump_offset _ hoff, rd_setBus, rd_wrF_offset _ _ _ _ htec, rd_evIfMb_other _ _ _ hev]
  · rw [rd_wrF_offset _ _ _ _ htec, rd_evIfMb_other _ _ _ hev]

theorem rdB_evIf_mono (c : Bool) (p b : Nat) {a j : Nat} (h : rdB s a j = true) : rdB (evIf c s p b) a j = true := by
  cases c
  · exact h
  · exact rdB_ev_mono s p b h

theorem rdB_tecTo_mono {j : Nat} (h : rdB s (reg (mbPg n.val) 0x08C) j = true) :
    rdB (tecTo s n.val k) (reg (mbPg n.val) 0x08C) j = true := by
  have hpassive := rdB_evIf_mono s
    (decide (rdF s (reg (mbPg n.val) 0x098) 0 8 < 128) && decide (128 ≤ k)) (mbPg n.val) 5 h
  unfold tecTo
  dsimp only
  split
  · refine rdB_ev_mono _ _ _ ?_
    rw [rdB, rd_bump_offset _ (by decide), rd_setBus, rd_wrF_offset _ _ _ _ (by decide)]
    exact hpassive
  · rw [rdB, rd_wrF_offset _ _ _ _ (by decide)]
    exact hpassive

variable {k}

/-- Below 256 the bus stays as it is. -/
theorem tecTo_below (h : k < 256) :
    (tecTo s n.val k).bus = s.bus ∧ rdF (tecTo s n.val k) (reg (mbPg n.val) 0x098) 0 8 = k := by
  unfold tecTo
  dsimp only
  rw [if_neg (by omega)]
  refine ⟨evIf_bus .., ?_⟩
  rw [rd_wrF_same _ _ (by decide)]
  omega

/-- At 256 the bus is off. -/
theorem tecTo_off (h : 256 ≤ k) :
    (∃ r, bus (tecTo s n.val k) n.val = { bus s n.val with busOff := true, recovering := r }) ∧
      rdB (tecTo s n.val k) (reg (mbPg n.val) 0x08C) 6 = true := by
  unfold tecTo
  dsimp only
  rw [if_pos h]
  refine ⟨?_, rdB_evMb_same _ (by decide)⟩
  rw [bus_ev, bus_bump, bus_setBus_same, bus_wrF, bus_evIf]
  exact ⟨_, rfl⟩

end

/-! ### The end of a transmission (R246, R250) -/

/-- A bus that is not asked to sleep does not fall asleep at the end of its frame. -/
theorem sleepSettle_none {n : Nat} (h : (bus s n).sleepReq = false) : sleepSettle s n = s := by
  unfold sleepSettle
  dsimp only
  rw [if_neg (by simp [h])]

/-- An object that was not sent: the bus is free, the object as it was but for its failure under ONESHOT. -/
theorem mbFailed_obj (s : State) (n o : Nat) : ∃ c l, mbFailed s n (.obj o) =
    evIf c (setBus s n { bus s n with onBus := none, again := false, failed := l }) (mbPg n) 4 := by
  unfold mbFailed
  dsimp only
  split
  · exact ⟨true, _, rfl⟩
  · exact ⟨false, _, rfl⟩

section

variable {o : Nat} (hwire : (bus s n.val).onBus = some (.obj o)) (hcor : corMode s (mbPg n.val) = false)
  (hstay : (bus s n.val).sleepReq = false)

include hwire

theorem mbEnd_sent : mbEnd s n.val .sent = sleepSettle (tecTo
    (ev (bump (wrB (setBus s n.val { bus s n.val with onBus := none, again := false }) (txObj n.val o + 4) 8 (bus s n.val).again)
      (reg (mbPg n.val) 0x0C4)) (mbPg n.val) 3) n.val (rdF s (reg (mbPg n.val) 0x098) 0 8 - 1)) n.val := by
  have htec {u : State} (hu : rd u (reg (mbPg n.val) 0x098) = rd s (reg (mbPg n.val) 0x098)) :
      rdF u (reg (mbPg n.val) 0x098) 0 8 = rdF s (reg (mbPg n.val) 0x098) 0 8 := rdF_congr hu 0 8
  unfold mbEnd
  rw [hwire]
  dsimp only
  unfold mbSent
  dsimp only
  rw [htec]
  rw [rd_evMb_other _ _ (by decide), rd_bump_offset _ (by decide), txCtl_eq, rd_wrB_offset _ _ _ (by omega), rd_setBus]

theorem mbEnd_lostArb : mbEnd s n.val .lostArb =
    sleepSettle (bump (mbFailed s n.val (.obj o)) (reg (mbPg n.val) 0x0D4)) n.val := by
  unfold mbEnd
  rw [hwire]

theorem mbEnd_error : mbEnd s n.val .error = sleepSettle (tecTo (bump (mbFailed s n.val (.obj o)) (reg (mbPg n.val) 0x0D0)) n.val
    (rdF s (reg (mbPg n.val) 0x098) 0 8 + 8)) n.val := by
  unfold mbEnd
  rw [hwire]

include hcor hstay

/-- A sent object: pending no more unless it was replaced meanwhile, counted, TEC one less. -/
theorem mbEnd_sent_leaves : (bus (mbEnd s n.val .sent) n.val).onBus = none ∧
    rdB (mbEnd s n.val .sent) (txObj n.val o + 4) 8 = (bus s n.val).again ∧
    rdB (mbEnd s n.val .sent) (reg (mbPg n.val) 0x08C) 3 = true ∧
    rd (mbEnd s n.val .sent) (reg (mbPg n.val) 0x0C4) = rd s (reg (mbPg n.val) 0x0C4) + 1 ∧
    rdF (mbEnd s n.val .sent) (reg (mbPg n.val) 0x098) 0 8 = rdF s (reg (mbPg n.val) 0x098) 0 8 - 1 := by
  obtain ⟨k, hk⟩ : ∃ k, k = rdF s (reg (mbPg n.val) 0x098) 0 8 - 1 := ⟨_, rfl⟩
  have hlt : k < 256 := by
    have : rdF s (reg (mbPg n.val) 0x098) 0 8 < 2 ^ 8 := Nat.mod_lt _ (by decide)
    omega
  obtain ⟨u, hu⟩ : ∃ u, u = wrB (setBus s n.val { bus s n.val with onBus := none, again := false }) (txObj n.val o + 4) 8
    (bus s n.val).again := ⟨_, rfl⟩
  have hbus : bus u n.val = { bus s n.val with onBus := none, again := false } := by
    rw [hu, bus_wrB, bus_setBus_same]
  have hrd {q : Nat} (hq : q ≠ 0x604 + 0x50 * o) : rd u (reg (mbPg n.val) q) = rd s (reg (mbPg n.val) q) := by
    rw [hu, txCtl_eq, rd_wrB_offset _ _ _ hq, rd_setBus]
  obtain ⟨x, hx⟩ : ∃ x, x = ev (bump u (reg (mbPg n.val) 0x0C4)) (mbPg n.val) 3 := ⟨_, rfl⟩
  obtain ⟨htbus, htec⟩ := tecTo_below x n hlt
  have htu : bus (tecTo x n.val k) n.val = bus u n.val := by
    rw [bus_congr htbus, hx, bus_ev, bus_bump]
  have hend : mbEnd s n.val .sent = tecTo x n.val k := by
    rw [mbEnd_sent hwire, ← hk, ← hu, ← hx]
    exact sleepSettle_none (by rw [htu, hbus]; exact hstay)
  rw [hend]
  refine ⟨by rw [htu, hbus], ?_, rdB_tecTo_mono x n k ?_, ?_, htec.trans hk⟩
  · rw [txCtl_eq, rdB, rd_tecTo_other x n k (by omega) (by omega) (by omega), hx, rd_evMb_other _ _ (by omega),
      rd_bump_offset _ (by omega), ← txCtl_eq, hu]
    exact rdB_wrB_same _ _ (by decide)
  · rw [hx]
    exact rdB_evMb_same _ (by decide)
  · rw [rd_tecTo_other x n k (by decide) (by decide) (by decide), hx, rd_evMb_other _ _ (by decide), rd_bump_mb (by decide),
      hrd (by omega)]
    rw [corMode_congr (s := s) (by rw [hu]; rfl) (hrd (by omega))]
    exact hcor

omit hwire hstay in
/-- A counter counts a transmission that did not succeed: the bus is free, the object stands. -/
theorem mbFailed_counted {c : Nat} (hc : c < 4096) (hpage : 0x098 < c ∧ c < 0x600) : ∃ l,
    bus (bump (mbFailed s n.val (.obj o)) (reg (mbPg n.val) c)) n.val =
      { bus s n.val with onBus := none, again := false, failed := l } ∧
    rd (bump (mbFailed s n.val (.obj o)) (reg (mbPg n.val) c)) (reg (mbPg n.val) c) = rd s (reg (mbPg n.val) c) + 1 ∧
    ∀ q, q ≠ 0x08C → q ≠ c →
      rd (bump (mbFailed s n.val (.obj o)) (reg (mbPg n.val) c)) (reg (mbPg n.val) q) = rd s (reg (mbPg n.val) q) := by
  obtain ⟨b, l, hfailed⟩ := mbFailed_obj s n.val o
  have hrd {q : Nat} (hq : q ≠ 0x08C) : rd (mbFailed s n.val (.obj o)) (reg (mbPg n.val) q) = rd s (reg (mbPg n.val) q) := by
    rw [hfailed, rd_evIfMb_other _ _ _ hq, rd_setBus]
  have hguard : (mbFailed s n.val (.obj o)).guard = s.guard := by rw [hfailed, evIf_guard, setBus_guard]
  refine ⟨l, ?_, ?_, fun q hev hq => (rd_bump_offset _ hq).trans (hrd hev)⟩
  · rw [bus_bump, hfailed, bus_evIf, bus_setBus_same]
  · rw [rd_bump_mb hc ((corMode_congr hguard (hrd (by decide))).trans hcor), hrd (by omega)]

/-- Arbitration lost: counted, the object as it was. -/
theorem mbEnd_lostArb_leaves : (bus (mbEnd s n.val .lostArb) n.val).onBus = none ∧
    rdB (mbEnd s n.val .lostArb) (txObj n.val o + 4) 8 = rdB s (txObj n.val o + 4) 8 ∧
    rd (mbEnd s n.val .lostArb) (reg (mbPg n.val) 0x0D4) = rd s (reg (mbPg n.val) 0x0D4) + 1 := by
  obtain ⟨l, hbus, hcount, hrd⟩ := mbFailed_counted (o := o) hcor (c := 0x0D4) (by decide) (by decide)
  rw [mbEnd_lostArb hwire, sleepSettle_none (by rw [hbus]; exact hstay)]
  refine ⟨by rw [hbus], ?_, hcount⟩
  rw [txCtl_eq, rdB, rdB, hrd _ (by omega) (by omega)]

/-- An error: counted, TEC 8 more, the bus off at 256; the object as it was. -/
theorem mbEnd_error_leaves : (bus (mbEnd s n.val .error) n.val).onBus = none ∧
    rdB (mbEnd s n.val .error) (txObj n.val o + 4) 8 = rdB s (txObj n.val o + 4) 8 ∧
    rd (mbEnd s n.val .error) (reg (mbPg n.val) 0x0D0) = rd s (reg (mbPg n.val) 0x0D0) + 1 ∧
    (rdF s (reg (mbPg n.val) 0x098) 0 8 < 248 →
      rdF (mbEnd s n.val .error) (reg (mbPg n.val) 0x098) 0 8 = rdF s (reg (mbPg n.val) 0x098) 0 8 + 8 ∧
        (bus (mbEnd s n.val .error) n.val).busOff = (bus s n.val).busOff) ∧
    (248 ≤ rdF s (reg (mbPg n.val) 0x098) 0 8 →
      (bus (mbEnd s n.val .error) n.val).busOff = true ∧ rdB (mbEnd s n.val .error) (reg (mbPg n.val) 0x08C) 6 = true) := by
  obtain ⟨l, hbus, hcount, hrd⟩ := mbFailed_counted (o := o) hcor (c := 0x0D0) (by decide) (by decide)
  have herror := mbEnd_error hwire
  obtain ⟨u, hu⟩ : ∃ u, u = bump (mbFailed s n.val (.obj o)) (reg (mbPg n.val) 0x0D0) := ⟨_, rfl⟩
  obtain ⟨k, hk⟩ : ∃ k, k = rdF s (reg (mbPg n.val) 0x098) 0 8 + 8 := ⟨_, rfl⟩
  rw [← hu] at hbus hcount hrd herror
  rw [← hk] at herror
  have hshape : (k < 256 → bus (tecTo u n.val k) n.val = bus u n.val) ∧
      (256 ≤ k → ∃ r, bus (tecTo u n.val k) n.val = { bus u n.val with busOff := true, recovering := r }) :=
    ⟨fun h => bus_congr (tecTo_below u n h).1 n.val, fun h => (tecTo_off u n h).1⟩
  have hend : mbEnd s n.val .error = tecTo u n.val k ∧ (bus (tecTo u n.val k) n.val).onBus = none := by
    have hfree : (bus (tecTo u n.val k) n.val).sleepReq = false ∧ (bus (tecTo u n.val k) n.val).onBus = none := by
      rcases Nat.lt_or_ge k 256 with h | h
      · rw [hshape.1 h, hbus]
        exact ⟨hstay, rfl⟩
      · obtain ⟨r, hr⟩ := hshape.2 h
        rw [hr, hbus]
        exact ⟨hstay, rfl⟩
    exact ⟨herror.trans (sleepSettle_none hfree.1), hfree.2⟩
  rw [hend.1]
  refine ⟨hend.2, ?_, ?_, fun hlow => ?_, fun hhigh => ?_⟩
  · rw [txCtl_eq, rdB, rdB, rd_tecTo_other u n k (by omega) (by omega) (by omega), hrd _ (by omega) (by omega)]
  · rw [rd_tecTo_other u n k (by decide) (by decide) (by decide), hcount]
  · obtain ⟨hsame, htec⟩ := tecTo_below u n (k := k) (by omega)
    exact ⟨htec.trans hk, by rw [bus_congr hsame, hbus]⟩
  · obtain ⟨⟨r, hr⟩, hevent⟩ := tecTo_off u n (k := k) (by omega)
    exact ⟨by rw [hr], hevent⟩

end

/-! ### A bus enabled (R241) -/

/-- The entry of a bus's time reference is none of the bus's registers. -/
theorem trefPlace_leaves (s : State) (n : Fin 8) : (trefPlace s n.val).bus = s.bus ∧
    ∀ o < 4096, rd (trefPlace s n.val) (reg (mbPg n.val) o) = rd s (reg (mbPg n.val) o) := by
  have hset (x y : Word) : (aetSet s (14 + n.val) x y).bus = s.bus ∧
      ∀ o < 4096, rd (aetSet s (14 + n.val) x y) (reg (mbPg n.val) o) = rd s (reg (mbPg n.val) o) := by
    refine ⟨rfl, fun o ho => rd_aetSet_other s x y fun w hw => (aetAddr_ne_reg hw ho (.inr ?_) (by omega)).symm⟩
    exact Nat.lt_of_lt_of_le (by decide) (Nat.le_add_right pMB n.val)
  unfold trefPlace
  dsimp only
  split
  · exact hset _ _
  · exact hset _ _

theorem ratesOk_congr (hn : rd t (reg (mbPg n.val) 0x090) = rd s (reg (mbPg n.val) 0x090))
    (hd : rd t (reg (mbPg n.val) 0x094) = rd s (reg (mbPg n.val) 0x094)) : ratesOk t n.val = ratesOk s n.val := by
  unfold ratesOk
  rw [hn, hd]

section

variable (hoff : rdB s (reg (mbPg n.val) 0x080) 0 = false) (hen : bit v 0 = true)

theorem bit_and_low (v : Word) : bit (v &&& 0x7F) 0 = bit v 0 := by
  rw [bit_eq_fld, bit_eq_fld, fld_and_of_full v (by decide)]

include hoff hen

/-- EN is taken at rates within the ranges: the bus starts anew. -/
theorem mbCtrl_enables (hrates : ratesOk s n.val = true) :
    rd (mbCtrl s n.val v) (reg (mbPg n.val) 0x080) = v &&& 0x7F#32 ∧ rd (mbCtrl s n.val v) (reg (mbPg n.val) 0x098) = 0 ∧
      (bus (mbCtrl s n.val v) n.val).got = [] ∧ (bus (mbCtrl s n.val v) n.val).busOff = false ∧
      (bus (mbCtrl s n.val v) n.val).since = count s := by
  obtain ⟨u, hu⟩ : ∃ u, u = wr (wr s (reg (mbPg n.val) 0x080) (v &&& 0x7F#32)) (reg (mbPg n.val) 0x098) 0 := ⟨_, rfl⟩
  have hctrl : ∃ b : Bus, mbCtrl s n.val v = stbyFollow s (trefPlace (setBus u n.val b) n.val) ∧ b.got = [] ∧ b.busOff = false ∧
      b.since = count s := by
    unfold mbCtrl
    dsimp only
    rw [if_neg (by rw [show bit (rd s (reg (mbPg n.val) 0x080)) 0 = false from hoff]; decide), bit_and_low, hen, hrates, hu]
    exact ⟨_, rfl, rfl, rfl, rfl⟩
  obtain ⟨b, hctrl, hgot, hbusOff, hsince⟩ := hctrl
  obtain ⟨p, hp⟩ := stbyFollow_eq s (trefPlace (setBus u n.val b) n.val)
  obtain ⟨htbus, htrd⟩ := trefPlace_leaves (setBus u n.val b) n
  have hbus : bus (mbCtrl s n.val v) n.val = b := by
    rw [hctrl, hp]
    exact (bus_congr htbus n.val).trans (bus_setBus_same u n.val b)
  have hrd {o : Nat} (ho : o < 4096) : rd (mbCtrl s n.val v) (reg (mbPg n.val) o) = rd u (reg (mbPg n.val) o) := by
    rw [hctrl, hp]
    exact htrd o ho
  rw [hbus]
  refine ⟨?_, ?_, hgot, hbusOff, hsince⟩
  · rw [hrd (by decide), hu, rd_wr_offset _ _ (by decide), rd_wr_same]
  · rw [hrd (by decide), hu, rd_wr_same]

/-- A rate outside the ranges refuses EN. -/
theorem mbCtrl_refuses (hrates : ratesOk s n.val = false) : rdB (mbCtrl s n.val v) (reg (mbPg n.val) 0x080) 0 = false ∧
    rdB (mbCtrl s n.val v) (reg (mbPg n.val) 0x08C) 10 = true := by
  have hctrl : mbCtrl s n.val v = ev (wr s (reg (mbPg n.val) 0x080) (setFld (v &&& 0x7F#32) 0 1 0)) (mbPg n.val) 10 := by
    unfold mbCtrl
    dsimp only
    rw [if_neg (by rw [show bit (rd s (reg (mbPg n.val) 0x080)) 0 = false from hoff]; decide), bit_and_low, hen, hrates]
    rfl
  rw [hctrl]
  refine ⟨?_, rdB_evMb_same _ (by decide)⟩
  rw [rdB, rd_evMb_other _ _ (by decide), rd_wr_same]
  exact (bit_setFld_one _ false 0 (by decide)).trans (if_pos rfl)

end

/-! ### The commands -/

theorem exec_mbFrameSend (n : Fin 8) (s : State) : exec (.mbFrameSend n) s = finish s (mbStart s n.val) := rfl
theorem exec_mbTxDone (n : Fin 8) (r : BusEnd) (s : State) : exec (.mbTxDone n r) s = finish s (mbEnd s n.val r) := rfl
theorem exec_busOffRecovery (n : Fin 8) (s : State) : exec (.busOffRecovery n) s = finish s (mbRecovered s n.val) := rfl
theorem exec_mbEnable (i : Init) (n : Fin 8) (v : Word) (s : State) :
    exec (.mbEnable i n v) s = finishClock s (submitWrite s i (reg (mbPg n.val) 0x080) v) := rfl
theorem exec_mbSleep (i : Init) (n : Fin 8) (s : State) :
    exec (.mbSleep i n) s = finishClock s (submitWrite s i (reg (mbPg n.val) 0x084) 1) := rfl
theorem exec_mbWake (i : Init) (n : Fin 8) (s : State) :
    exec (.mbWake i n) s = finishClock s (submitWrite s i (reg (mbPg n.val) 0x084) 2) := rfl
theorem exec_mbRecover (i : Init) (n : Fin 8) (s : State) :
    exec (.mbRecover i n) s = finishClock s (submitWrite s i (reg (mbPg n.val) 0x084) 3) := rfl

/-- A command that moves neither the clock nor the guard leaves the buses and the registers as its operation does. -/
theorem finish_buses (s u : State) : ∃ t, finish s u = .next t ∧ t.bus = u.bus ∧ ∀ a, rd t a = rd u a :=
  ⟨_, rfl, rfl, fun _ => rfl⟩

/-- MB_FRAME_SEND: a time reference first, else the frame that wins. -/
theorem mbFrameSend_sends (hon : busOn s n.val = true) (hawake : (bus s n.val).sleeping = false)
    (hoff : (bus s n.val).busOff = false) (hidle : (bus s n.val).onBus = none) (hsettled : stbySettled s = true)
    (hsome : (mbNext s n.val).isSome = true) :
    ∃ t x, exec (.mbFrameSend n) s = .next t ∧ (bus t n.val).onBus = some x ∧ ((bus s n.val).tref.isSome = true → x = .tref) ∧
      ((bus s n.val).tref = none → ∀ o' ∈ offered s n.val,
        (∀ o, x = .obj o → objKey s n.val o ≤ objKey s n.val o' ∧ (objKey s n.val o = objKey s n.val o' → o ≤ o') ∧
          ∀ a, offeredRing s n.val = some a → objKey s n.val o ≤ arbKey (w32 (ramNat s a 4))) ∧
        (x = .ring → ∃ a, offeredRing s n.val = some a ∧ arbKey (w32 (ramNat s a 4)) < objKey s n.val o')) := by
  obtain ⟨x, hx⟩ := Option.isSome_iff_exists.1 hsome
  obtain ⟨b, hstart, hb⟩ := mbStart_starts hon hawake hoff hidle hsettled hx
  obtain ⟨t, ht, hbus, -⟩ := finish_buses s (mbStart s n.val)
  refine ⟨t, x, ht, ?_, fun htref => ?_, fun htref o' ho' => mbNext_wins htref hx ho'⟩
  · rw [bus_congr hbus, hstart, bus_setBus_same, hb]
  · rw [mbNext_tref htref] at hx
    exact (Option.some.inj hx).symm

/-- BUS_OFF_RECOVERY: the bus is on again, its counters cleared. -/
theorem busOffRecovery_recovers (hoff : (bus s n.val).busOff = true) (hrec : (bus s n.val).recovering = true)
    (hon : busOn s n.val = true) :
    ∃ t, exec (.busOffRecovery n) s = .next t ∧ (bus t n.val).busOff = false ∧ rd t (reg (mbPg n.val) 0x098) = 0 ∧
      rdB t (reg (mbPg n.val) 0x08C) 7 = true := by
  have hop : mbRecovered s n.val = ev (wr (setBus s n.val { bus s n.val with busOff := false, recovering := false })
      (reg (mbPg n.val) 0x098) 0) (mbPg n.val) 7 := by
    unfold mbRecovered
    dsimp only
    rw [if_pos ⟨hoff, hrec, hon⟩]
  obtain ⟨t, ht, hbus, hrd⟩ := finish_buses s (mbRecovered s n.val)
  refine ⟨t, ht, ?_, ?_, ?_⟩
  · rw [bus_congr hbus, hop, bus_ev, bus_wr, bus_setBus_same]
  · rw [hrd, hop, rd_evMb_other _ _ (by decide), rd_wr_same]
  · rw [rdB, hrd, hop]
    exact rdB_evMb_same _ (by decide)

/-- MB_ENABLE. -/
theorem mbEnable_enables (h : clear s i (reg (mbPg n.val) 0x080) v = true) (hoff : rdB s (reg (mbPg n.val) 0x080) 0 = false)
    (hen : bit v 0 = true) :
    (ratesOk s n.val = true → ∃ t, exec (.mbEnable i n v) s = .next t ∧ rd t (reg (mbPg n.val) 0x080) = v &&& 0x7F#32 ∧
      rd t (reg (mbPg n.val) 0x098) = 0 ∧ (bus t n.val).got = [] ∧ (bus t n.val).busOff = false ∧
      (bus t n.val).since = count s) ∧
    (ratesOk s n.val = false → ∃ t, exec (.mbEnable i n v) s = .next t ∧ rdB t (reg (mbPg n.val) 0x080) 0 = false ∧
      rdB t (reg (mbPg n.val) 0x08C) 10 = true) := by
  rw [exec_mbEnable]
  constructor
  · intro hrates
    refine mbCommand_clear h (by decide) fun w t hl hd => ?_
    rw [writeMb_ctrl] at hd
    obtain ⟨hctrl, herr, hgot, hon, hsince⟩ := mbCtrl_enables (s := w) (v := v)
      (by rw [rdB, Light.rd_mb hl (by decide)]; exact hoff) hen
      (by rw [ratesOk_congr (Light.rd_mb hl (by decide)) (Light.rd_mb hl (by decide))]; exact hrates)
    rw [hd.rd, hd.rd, bus_congr hd.bus, ← count_congr hl.clk]
    exact ⟨hctrl, herr, hgot, hon, hsince⟩
  · intro hrates
    refine mbCommand_clear h (by decide) fun w t hl hd => ?_
    rw [writeMb_ctrl] at hd
    rw [rdB, rdB, hd.rd, hd.rd]
    exact mbCtrl_refuses (by rw [rdB, Light.rd_mb hl (by decide)]; exact hoff) hen
      (by rw [ratesOk_congr (Light.rd_mb hl (by decide)) (Light.rd_mb hl (by decide))]; exact hrates)

/-- MB_SLEEP: a bus with no frame in progress sleeps at once. -/
theorem mbSleep_sleeps (h : clear s i (reg (mbPg n.val) 0x084) 1 = true) (hon : rdB s (reg (mbPg n.val) 0x080) 0 = true)
    (hawake : (bus s n.val).sleeping = false) (hidle : (bus s n.val).onBus = none) :
    ∃ t, exec (.mbSleep i n) s = .next t ∧ (bus t n.val).sleeping = true := by
  rw [exec_mbSleep]
  refine mbCommand_clear h (by decide) fun w t hl hd => ?_
  obtain ⟨b, hb⟩ : ∃ b, b = { bus w n.val with sleepReq := true } := ⟨_, rfl⟩
  have hcmd : mbCmd w n.val (fld 1 0 3) = setBus (setBus w n.val b) n.val { b with sleeping := true, sleepReq := false } := by
    have hcond : rdB w (reg (mbPg n.val) 0x080) 0 = true ∧ (!(bus w n.val).sleeping) = true := by
      rw [rdB, Light.rd_mb hl (by decide), bus_congr hl.bus, hawake]
      exact ⟨hon, rfl⟩
    have hask : b.sleepReq = true ∧ b.onBus.isNone = true := by
      rw [hb, bus_congr hl.bus, hidle]
      exact ⟨rfl, rfl⟩
    unfold mbCmd
    dsimp only
    rw [if_pos (by decide), if_pos hcond, ← hb]
    unfold sleepSettle
    dsimp only
    rw [bus_setBus_same, if_pos hask]
  rw [writeMb_cmd, hcmd] at hd
  rw [bus_congr hd.bus, bus_setBus_same]

/-- MB_WAKE. -/
theorem mbWake_wakes (h : clear s i (reg (mbPg n.val) 0x084) 2 = true) (hasleep : (bus s n.val).sleeping = true) :
    ∃ t, exec (.mbWake i n) s = .next t ∧ (bus t n.val).sleeping = false ∧ rdB t (reg (mbPg n.val) 0x08C) 8 = true := by
  rw [exec_mbWake]
  refine mbCommand_clear h (by decide) fun w t hl hd => ?_
  have hcmd : writeMb w i.who n.val 0x084 2 = busWake w n.val := by
    rw [writeMb_cmd]
    rfl
  rw [hcmd] at hd
  rw [bus_congr hd.bus, rdB, hd.rd]
  exact ⟨(woken_busWake w n).awake, rdB_busWake (by rw [bus_congr hl.bus]; exact hasleep)⟩

/-- MB_RECOVER. -/
theorem mbRecover_begins (h : clear s i (reg (mbPg n.val) 0x084) 3 = true) (hoff : (bus s n.val).busOff = true) :
    ∃ t, exec (.mbRecover i n) s = .next t ∧ (bus t n.val).recovering = true := by
  rw [exec_mbRecover]
  refine mbCommand_clear h (by decide) fun w t hl hd => ?_
  have hcmd : writeMb w i.who n.val 0x084 3 = setBus w n.val { bus w n.val with recovering := true } := by
    rw [writeMb_cmd]
    unfold mbCmd
    dsimp only
    rw [if_neg (by decide), if_neg (by decide), if_pos (by decide), if_pos (by rw [bus_congr hl.bus]; exact hoff)]
  rw [hcmd] at hd
  rw [bus_congr hd.bus, bus_setBus_same]

/-- MB_TX_DONE leaves the buses and the registers as its operation does. -/
theorem mbTxDone_ends {r : BusEnd} {p : State → Prop} (hp : ∀ t, t.bus = (mbEnd s n.val r).bus →
    (∀ a, rd t a = rd (mbEnd s n.val r) a) → p t) : ∃ t, exec (.mbTxDone n r) s = .next t ∧ p t := by
  obtain ⟨t, ht, hbus, hrd⟩ := finish_buses s (mbEnd s n.val r)
  exact ⟨t, ht, hp t hbus hrd⟩

/-- Settles O50: an object's words wait under their initiator's keys until its CTRL commits them; the frame offered is the least of
the arbitration fields in the order of the objects; the end of a transmission, the enabling, the sleep and the recovery of a bus
have each their operation's effect. -/
theorem busesSend : Obligations.BusesSend := by
  unfold Obligations.BusesSend
  rintro s n b rfl
  refine ⟨fun i o v => ⟨fun k hk => txobjStage_stages hk, txobjCommit_commits, mbTxrTail_tails⟩, ?send, ?done,
    fun hoff hrec hon => busOffRecovery_recovers hoff hrec hon,
    fun i v => ⟨mbEnable_enables, mbSleep_sleeps, mbWake_wakes, mbRecover_begins⟩⟩
  case send =>
    intro hon hawake hoff hidle hsettled hsome
    obtain ⟨t, x, ht, hx, href, hwins⟩ := mbFrameSend_sends hon hawake hoff hidle hsettled hsome
    refine ⟨t, x, ht, hx, href, fun htref o' ho' hpend hfailed hfd => ?_⟩
    obtain ⟨hobj, hring⟩ := hwins htref o' (mem_offered.2 ⟨ho', hpend, hfailed, hfd⟩)
    refine ⟨fun o ho => ?_, fun hx => ?_⟩
    · obtain ⟨hle, htie, hhead⟩ := hobj o ho
      exact ⟨hle, htie, fun a ha hfd => hhead a (offeredRing_eq_some.2 ⟨ha, hfd⟩)⟩
    · obtain ⟨a, ha, hlt⟩ := hring hx
      obtain ⟨hhead, hfd⟩ := offeredRing_eq_some.1 ha
      exact ⟨a, hhead, hfd, hlt⟩
  case done =>
    intro o _ hwire hcor hstay
    refine ⟨mbTxDone_ends fun t hbus hrd => ?_, mbTxDone_ends fun t hbus hrd => ?_, mbTxDone_ends fun t hbus hrd => ?_⟩ <;>
      simp only [bus_congr hbus, rdF, rdB, hrd]
    · exact mbEnd_sent_leaves hwire hcor hstay
    · exact mbEnd_lostArb_leaves hwire hcor hstay
    · exact mbEnd_error_leaves hwire hcor hstay

end Sys2Proof.Proofs
end

section
/-!
PROOFS. Frame groups (chapter 10, R247): what a frame that a receive object holds makes of its groups, and that a group which
completes feeds its points within the budgets.
-/

namespace Sys2Proof.Proofs

open Sys2Proof.Machine Sys2Proof.Laws

variable {s t u : State} {n : Fin 8} {o : Nat} {f : BusFrame}

/-! ### The filters, the groups and the receive objects of a bus -/

/-- The groups, the filters and the receive objects of a bus read alike. -/
def sameSetup (n : Fin 8) (s t : State) : Prop :=
  ∀ q < 4096, (0x100 ≤ q ∧ q < 0x600 ∨ 0xB00 ≤ q) → rd t (reg (mbPg n.val) q) = rd s (reg (mbPg n.val) q)

theorem groupMembers_congr (h : sameSetup n s t) {g : Nat} (hg : g < 8) : groupMembers t n.val g = groupMembers s n.val g := by
  unfold groupMembers
  rw [h (0x100 + 4 * g) (by omega) (by omega)]

/-- The members of a group are receive objects (R247). -/
theorem groupMembers_lt {g k : Nat} (h : k ∈ groupMembers s n.val g) : k < 16 := by
  unfold groupMembers at h
  obtain ⟨j, -, hj⟩ := List.mem_filterMap.1 h
  split at hj
  · cases hj
    omega
  · cases hj

theorem rxData_congr (h : sameSetup n s t) {k : Nat} (hk : k < 16) : rxData t n.val k = rxData s n.val k := by
  unfold rxData
  refine congrArg List.flatten (List.map_congr_left fun j hj => ?_)
  have hj := List.mem_range.1 hj
  rw [Nat.add_assoc, rxObj_add, h _ (by omega) (by omega)]

/-- The data of a group's members read alike. -/
theorem groupData_congr (h : sameSetup n s t) {g : Nat} (hg : g < 8) :
    (groupMembers t n.val g).map (rxData t n.val) = (groupMembers s n.val g).map (rxData s n.val) := by
  rw [groupMembers_congr h hg]
  exact List.map_congr_left fun k hk => rxData_congr h (groupMembers_lt hk)

theorem groupCost_congr (h : sameSetup n s t) (o : Nat) (f : BusFrame) : groupCost t n.val o f = groupCost s n.val o f := by
  unfold groupCost
  dsimp only
  refine congrArg List.sum (List.map_congr_left fun g hg => ?_)
  rw [groupMembers_congr h (List.mem_range.1 hg)]
  refine congrArg (fun l => (Config.groupMap n.val g l).length) (List.map_congr_left fun k hk => ?_)
  split
  · rfl
  · exact rxData_congr h (groupMembers_lt hk)

theorem filterFor_congr (h : sameSetup n s t) (f : BusFrame) : filterFor t n.val f = filterFor s n.val f := by
  unfold filterFor
  dsimp only
  have hfind : ((List.range 64).find? fun k =>
      rdB t (reg (mbPg n.val) (0x200 + 16 * k)) 31 && (rdB t (reg (mbPg n.val) (0x200 + 16 * k)) 29 == f.ide) &&
        decide ((f.id ^^^ BitVec.ofNat 29 (rdF t (reg (mbPg n.val) (0x200 + 16 * k)) 0 29)) &&&
          BitVec.ofNat 29 (rdF t (reg (mbPg n.val) (0x200 + 16 * k) + 4) 0 29) = 0)) =
      (List.range 64).find? fun k =>
        rdB s (reg (mbPg n.val) (0x200 + 16 * k)) 31 && (rdB s (reg (mbPg n.val) (0x200 + 16 * k)) 29 == f.ide) &&
          decide ((f.id ^^^ BitVec.ofNat 29 (rdF s (reg (mbPg n.val) (0x200 + 16 * k)) 0 29)) &&&
            BitVec.ofNat 29 (rdF s (reg (mbPg n.val) (0x200 + 16 * k) + 4) 0 29) = 0) := by
    refine List.find?_congr fun k hk => ?_
    have hk := List.mem_range.1 hk
    simp only [rdB, rdF, reg_add, h (0x200 + 16 * k) (by omega) (by omega), h (0x200 + 16 * k + 4) (by omega) (by omega)]
  rw [hfind]
  refine Option.map_congr fun k hk => ?_
  have hk := List.mem_range.1 (List.mem_of_find?_eq_some hk)
  rw [h (0x208 + 16 * k) (by omega) (by omega)]

/-- ACTION has two bits, OBJ four. -/
theorem filterFor_lt {a : Nat} (h : filterFor s n.val f = some (a, o)) : a < 4 ∧ o < 16 := by
  obtain ⟨k, -, hk⟩ := Option.map_eq_some_iff.1 h
  cases hk
  exact ⟨Nat.mod_lt _ (by decide), Nat.mod_lt _ (by decide)⟩

/-! ### Points fed within the budgets (R26) -/

/-- A bus may feed this many points within the budgets. -/
def busCalm (s : State) (n : Fin 8) (m : Nat) : Prop := ptCalm s (.hw (Fin.ofNat 128 (mbPg n.val))) m

theorem busCalm_mono {k m : Nat} (hkm : k ≤ m) (h : busCalm s n m) : busCalm s n k := fun r hr => overBudget_mono hkm (h r hr)

/-- What feeding at most `c` points leaves of a bus: its registers but the events and the transmit objects, the events raised
before, and a bus that is awake; no budget fault is new, and the budgets have room for as many points less. -/
structure Fed (n : Fin 8) (c : Nat) (s t : State) : Prop where
  clk : t.clk = s.clk
  faulted : t.toll.faulted = s.toll.faulted
  room : ∀ m, busCalm s n (c + m) → busCalm t n m
  rd : ∀ q < 4096, q ≠ 0x08C → (q < 0x600 ∨ 0xB00 ≤ q) → rd t (reg (mbPg n.val) q) = rd s (reg (mbPg n.val) q)
  events : ∀ k, rdB s (reg (mbPg n.val) 0x08C) k = true → rdB t (reg (mbPg n.val) 0x08C) k = true
  awake : (bus s n.val).sleeping = false → (bus t n.val).sleeping = false

theorem Fed.setup {c : Nat} (h : Fed n c s t) : sameSetup n s t := fun q hq hin => h.rd q hq (by omega) (by omega)

theorem Fed.trans {c d : Nat} (h : Fed n c s t) (k : Fed n d t u) : Fed n (c + d) s u where
  clk := k.clk.trans h.clk
  faulted := k.faulted.trans h.faulted
  room := fun m hm => k.room m (h.room (d + m) (by rwa [← Nat.add_assoc]))
  rd := fun q hq hne hout => (k.rd q hq hne hout).trans (h.rd q hq hne hout)
  events := fun j hj => k.events j (h.events j hj)
  awake := fun hs => k.awake (h.awake hs)

theorem Fed.mono {c d : Nat} (hcd : c ≤ d) (h : Fed n c s t) : Fed n d s t :=
  { h with room := fun m hm => h.room m (busCalm_mono (by omega) hm) }

/-- A step of a bus that feeds no point. -/
theorem fed_of_toll (hclk : t.clk = s.clk) (htoll : t.toll = s.toll)
    (hrd : ∀ q, q ≠ 0x08C → (q < 0x600 ∨ 0xB00 ≤ q) → rd t (reg (mbPg n.val) q) = rd s (reg (mbPg n.val) q))
    (hev : ∀ k, rdB s (reg (mbPg n.val) 0x08C) k = true → rdB t (reg (mbPg n.val) 0x08C) k = true)
    (hawake : (bus s n.val).sleeping = false → (bus t n.val).sleeping = false) : Fed n 0 s t where
  clk := hclk
  faulted := by rw [htoll]
  room := fun m hm r hr => overBudget_of_accounts (s := s) (m := 0) hclk (by rw [htoll]) (by rw [htoll]; exact fun _ hx => hx)
    (by unfold usedOf; rw [htoll, Nat.add_zero]) (hm r hr)
  rd := fun q _ => hrd q
  events := hev
  awake := hawake

theorem Fed.refl (n : Fin 8) (s : State) : Fed n 0 s s := fed_of_toll rfl rfl (fun _ _ _ => rfl) (fun _ h => h) fun h => h

/-- States with the same clock, accounts, registers and buses. -/
theorem fed_of_eq (hclk : t.clk = s.clk) (htoll : t.toll = s.toll) (hregs : t.regs = s.regs) (hbus : t.bus = s.bus) : Fed n 0 s t :=
  fed_of_toll hclk htoll (fun _ _ _ => rd_congr hregs _) (fun k hk => by rw [rdB, rd_congr hregs]; exact hk)
    fun h => by rw [bus_congr hbus]; exact h

theorem fed_setBus {b : Bus} (s : State) (h : b.sleeping = (bus s n.val).sleeping) : Fed n 0 s (setBus s n.val b) :=
  fed_of_toll rfl rfl (fun _ _ _ => rfl) (fun _ hk => hk) fun hs => by rw [bus_setBus_same, h, hs]

theorem fed_ev (s : State) (b : Nat) : Fed n 0 s (ev s (mbPg n.val) b) :=
  fed_of_toll (ev_clk ..) (ev_toll ..) (fun _ hq _ => rd_evMb_other s b hq) (fun _ => rdB_ev_mono s _ b) fun h => by
    rw [bus_ev]
    exact h

theorem fed_objPending (s : State) (ho : o < 16) : Fed n 0 s (objPending s n.val o) := by
  have hp := pended_objPending s n o
  exact fed_of_toll hp.clk hp.toll (fun q hq hout => hp.rd q hq (by omega)) hp.events hp.awake

theorem fed_foldl {α : Type} {g : State → α → State} (hg : ∀ (t : State) (x : α), Fed n 0 t (g t x)) (l : List α) (s : State) :
    Fed n 0 s (l.foldl g s) := by
  induction l generalizing s with
  | nil => exact .refl n s
  | cons x xs ih => exact (hg s x).trans (ih (g s x))

/-- A bus's path to the point store: the ports of its region and of Loom's, and the point-store port. -/
theorem ptPath_bus : ptPath (.hw (Fin.ofNat 128 (mbPg n.val))) = [0, 2, 7] := by
  have hall : ∀ m : Fin 8, ptPath (.hw (Fin.ofNat 128 (mbPg m.val))) = [0, 2, 7] := by decide
  exact hall n

theorem hwGrants_bus (w : Who) (c : Cls) (ks : List Nat) (m : Nat) (s : State) : (hwGrants s w c ks m).bus = s.bus := by
  have hone (k : Nat) (js : List Nat) (s : State) : (hwGrant s w c k js m).bus = s.bus := by
    have hmark : (if overBudget s w c k m then budgetMark s w c k else s).bus = s.bus := by
      split
      · unfold budgetMark
        dsimp only
        rw [wr_bus, ev_bus]
      · rfl
    unfold hwGrant
    dsimp only
    split
    · exact hmark
    · exact hmark
  induction ks generalizing s with
  | nil => rfl
  | cons k ks ih =>
    unfold hwGrants
    split
    · rfl
    · rw [ih, hone]

/-- Points fed within the budgets. -/
theorem fed_ptUse {c : Nat} (h : busCalm s n c) : Fed n c s (ptUse s (.hw (Fin.ofNat 128 (mbPg n.val))) c) := by
  have hbus : (ptUse s (.hw (Fin.ofNat 128 (mbPg n.val))) c).bus = s.bus := hwGrants_bus _ _ _ _ _
  have hg : Granted [0, 2, 7] .control c s (ptUse s (.hw (Fin.ofNat 128 (mbPg n.val))) c) := by
    unfold busCalm ptCalm at h
    rw [ptPath_bus] at h
    unfold ptUse
    rw [ptPath_bus]
    exact granted_hwGrants (by decide) (by decide) h
  have hrd {q : Nat} (hq : q < 4096) : rd (ptUse s (.hw (Fin.ofNat 128 (mbPg n.val))) c) (reg (mbPg n.val) q) =
      rd s (reg (mbPg n.val) q) := hg.rd _ (by rw [pageOf_reg _ hq]; exact mbPg_ne n (by decide))
  refine ⟨hg.clk, hg.faulted, fun m hm r hr => ?_, fun q hq _ _ => hrd hq, fun k hk => ?_, fun hs => ?_⟩
  · refine overBudget_of_accounts (s := s) (m := c) hg.clk hg.budget (by rw [hg.faulted]; exact fun _ hx => hx) ?_ (hm r hr)
    rw [ptPath_bus] at hr
    rw [hg.used r _ (by decide), if_pos ⟨hr, rfl⟩]
  · rw [rdB, hrd (by decide)]
    exact hk
  · rw [bus_congr hbus]
    exact hs

/-- INPUT points that take their values: the point store and what was noted of it. -/
theorem fed_imagePoints (s : State) (w : Word) (vals : List (Nat × (Word × Nat))) : Fed n 0 s (imagePoints s w vals) := by
  refine fed_foldl (fun t e => ?_) vals s
  unfold ptInput
  dsimp only
  split
  · exact fed_of_eq rfl rfl rfl rfl
  · exact .refl n t

/-- An image put before Loom. -/
theorem fed_stationArrive (s : State) (sel : StationT → Bool) (im : StImage) : Fed n 0 s (stationArrive s sel im) := by
  unfold stationArrive
  split
  · exact .refl n s
  · refine fed_foldl (fun t k => ?_) _ s
    split
    · split
      · exact fed_of_eq rfl rfl rfl rfl
      · exact .refl n t
    · exact .refl n t

/-! ### A group completes (R247) -/

/-- The points that a group feeds when it completes. -/
def groupPoints (s : State) (n g : Nat) : Nat := (Config.groupMap n g ((groupMembers s n g).map (rxData s n))).length

theorem groupPoints_congr (h : sameSetup n s t) {g : Nat} (hg : g < 8) : groupPoints t n.val g = groupPoints s n.val g := by
  unfold groupPoints
  rw [groupData_congr h hg]

/-- A completed group feeds its points and raises EVT.GROUP_DONE. -/
theorem groupDone_feeds {g : Nat} (h : busCalm s n (groupPoints s n.val g)) :
    Fed n (groupPoints s n.val g) s (groupDone s n.val g) ∧ rdB (groupDone s n.val g) (reg (mbPg n.val) 0x08C) 12 = true := by
  obtain ⟨sel, im, w, vals, back, hvals, hdone⟩ : ∃ sel im w vals, ∃ back : List Nat, vals.length = groupPoints s n.val g ∧
      groupDone s n.val g = back.foldl (fun t o => objPending t n.val (o % 16)) (ev (imagePoints
        (ptUse (stationArrive s sel im) (.hw (Fin.ofNat 128 (mbPg n.val))) vals.length) w vals) (mbPg n.val) 12) :=
    ⟨_, _, _, _, _, List.length_map _, rfl⟩
  rw [hdone, hvals]
  have harrive := fed_stationArrive (n := n) s sel im
  have hfed := fed_ptUse (harrive.room _ (by rwa [Nat.zero_add]))
  have hpoints := fed_imagePoints (n := n) (ptUse (stationArrive s sel im) (.hw (Fin.ofNat 128 (mbPg n.val)))
    (groupPoints s n.val g)) w vals
  obtain ⟨x, hx⟩ : ∃ x, x = imagePoints (ptUse (stationArrive s sel im) (.hw (Fin.ofNat 128 (mbPg n.val)))
    (groupPoints s n.val g)) w vals := ⟨_, rfl⟩
  rw [← hx] at hpoints ⊢
  have hback : Fed n 0 (ev x (mbPg n.val) 12) (back.foldl (fun t o => objPending t n.val (o % 16)) (ev x (mbPg n.val) 12)) :=
    fed_foldl (fun t o => fed_objPending t (Nat.mod_lt o (by decide))) back _
  refine ⟨?_, hback.events 12 (rdB_evMb_same _ (by decide))⟩
  exact ((((harrive.trans hfed).trans hpoints).trans (fed_ev x 12)).trans hback).mono (by omega)

/-- What a frame in receive object `o` makes of one group. -/
def groupVisit (n o : Nat) (t : State) (g : Nat) : State :=
  let ms := groupMembers t n g
  if rdB t (reg (mbPg n) (0x100 + 4 * g)) 31 && ms.contains o then
    let b := bus t n
    let have_ := o :: look [] b.group g
    if ms.all have_.contains then groupDone (setBus t n { b with group := put [] b.group g [] }) n g
    else setBus t n { b with group := put [] b.group g have_ }
  else t

theorem groupStep_eq (s : State) (n o : Nat) : groupStep s n o = (List.range 8).foldl (groupVisit n o) s := rfl

/-- A group of one object completes with it. -/
theorem groupVisit_feeds {g : Nat} (hg : g < 8) (h : busCalm s n (groupPoints s n.val g)) :
    Fed n (groupPoints s n.val g) s (groupVisit n.val o s g) ∧
      (rdB s (reg (mbPg n.val) (0x100 + 4 * g)) 31 = true → groupMembers s n.val g = [o] →
        rdB (groupVisit n.val o s g) (reg (mbPg n.val) 0x08C) 12 = true) := by
  unfold groupVisit
  dsimp only
  by_cases hmine : (rdB s (reg (mbPg n.val) (0x100 + 4 * g)) 31 && (groupMembers s n.val g).contains o) = true
  · rw [if_pos hmine]
    by_cases hall : ((groupMembers s n.val g).all (o :: look [] (bus s n.val).group g).contains) = true
    · rw [if_pos hall]
      have hset := fed_setBus (n := n) (b := { bus s n.val with group := put [] (bus s n.val).group g [] }) s rfl
      have hpoints := groupPoints_congr hset.setup hg
      have hdone := groupDone_feeds (s := setBus s n.val { bus s n.val with group := put [] (bus s n.val).group g [] }) (g := g)
        (n := n) (by rw [hpoints]; exact hset.room _ (by rwa [Nat.zero_add]))
      rw [hpoints] at hdone
      exact ⟨(hset.trans hdone.1).mono (by omega), fun _ _ => hdone.2⟩
    · rw [if_neg hall]
      have hset := fed_setBus (n := n) (b := { bus s n.val with
        group := put [] (bus s n.val).group g (o :: look [] (bus s n.val).group g) }) s rfl
      refine ⟨hset.mono (Nat.zero_le _), fun _ hone => absurd ?_ hall⟩
      rw [hone]
      simp
  · rw [if_neg hmine]
    refine ⟨(Fed.refl n s).mono (Nat.zero_le _), fun hen hone => absurd ?_ hmine⟩
    rw [hen, hone]
    simp

/-- A frame's groups within the budgets: each feeds its points when it completes. -/
theorem groups_feed {l : List Nat} (hl : ∀ g ∈ l, g < 8) (h : busCalm s n (l.map (groupPoints s n.val)).sum) :
    Fed n (l.map (groupPoints s n.val)).sum s (l.foldl (groupVisit n.val o) s) ∧
      ∀ g ∈ l, rdB s (reg (mbPg n.val) (0x100 + 4 * g)) 31 = true → groupMembers s n.val g = [o] →
        rdB (l.foldl (groupVisit n.val o) s) (reg (mbPg n.val) 0x08C) 12 = true := by
  induction l generalizing s with
  | nil => exact ⟨.refl n s, fun g hg => absurd hg List.not_mem_nil⟩
  | cons g gs ih =>
    rw [List.map_cons, List.sum_cons] at h ⊢
    obtain ⟨hfed, hone⟩ := groupVisit_feeds (o := o) (hl g List.mem_cons_self) (busCalm_mono (Nat.le_add_right _ _) h)
    have hsum : (gs.map (groupPoints (groupVisit n.val o s g) n.val)).sum = (gs.map (groupPoints s n.val)).sum :=
      congrArg List.sum (List.map_congr_left fun k hk => groupPoints_congr hfed.setup (hl k (List.mem_cons_of_mem _ hk)))
    obtain ⟨hrest, hdone⟩ := ih (s := groupVisit n.val o s g) (fun k hk => hl k (List.mem_cons_of_mem _ hk))
      (by rw [hsum]; exact hfed.room _ h)
    rw [hsum] at hrest
    refine ⟨hfed.trans hrest, fun k hk hen hmem => ?_⟩
    rw [List.foldl_cons]
    rcases List.mem_cons.1 hk with rfl | hk
    · exact hrest.events 12 (hone hen hmem)
    · have hk8 := hl k (List.mem_cons_of_mem _ hk)
      refine hdone k hk ?_ ((groupMembers_congr hfed.setup hk8).trans hmem)
      rw [rdB, hfed.setup _ (by omega) (by omega)]
      exact hen

end Sys2Proof.Proofs
end

section
/-!
PROOFS. Reception on a bus (chapter 10, R242–R244, R247, R252): where a frame's filter sends it, what a queue or a receive object
then holds, and what the clearing of a queue, a TIMEOUT and a wake leave.
-/

namespace Sys2Proof.Proofs

open Sys2Proof.Machine Sys2Proof.Laws

variable {s t u : State} {n : Fin 8} {o : Nat} {f : BusFrame} {i : Init} {v : Word}

/-! ### A frame in a receive object (R244) -/

/-- The words of a frame record written to a receive object. -/
def rxWords (s : State) (n o : Nat) (f : BusFrame) (ts : Nat) : State :=
  let a := rxObj n o
  let s := wr s a (frameId f)
  let s := wr s (a + 4) (w32 (f.dlc.toNat + 256 + rdF s (a + 4) 16 16 * 65536))
  let s := wr64 s (a + 8) ts
  (List.range 16).foldl (fun t j => wr t (a + 0x10 + 4 * j) (frameData f j)) s

/-- A frame held in a receive object, its groups not yet visited. -/
def rxHeld (s : State) (n o : Nat) (f : BusFrame) (ts : Nat) : State :=
  let s := rxWords (notePast s 2 (16 * n + o) 2 0 (busSource s n o)) n o f ts
  let b := bus s n
  setBus s n { b with got := if b.got.contains o then b.got else o :: b.got }

theorem rxStore_eq (s : State) (n o : Nat) (f : BusFrame) (ts : Nat) :
    rxStore s n o f ts = groupStep (rxHeld s n o f ts) n o := rfl

theorem rxWords_foldl (s : State) (n o : Nat) (f : BusFrame) (ts : Nat) : ∃ u, u = wr64 (wr (wr s (rxObj n o) (frameId f))
      (rxObj n o + 4) (w32 (f.dlc.toNat + 256 + rdF (wr s (rxObj n o) (frameId f)) (rxObj n o + 4) 16 16 * 65536)))
      (rxObj n o + 8) ts ∧
    rxWords s n o f ts = (List.range 16).foldl (fun t j => wr t (rxObj n o + 0x10 + 4 * j) (frameData f j)) u := ⟨_, rfl, rfl⟩

/-- The data words of a frame record. -/
theorem rd_rxWords_data (s : State) (n o : Nat) (f : BusFrame) (ts : Nat) {j : Nat} (hj : j < 16) :
    rd (rxWords s n o f ts) (rxObj n o + 0x10 + 4 * j) = frameData f j := by
  obtain ⟨u, -, hwords⟩ := rxWords_foldl s n o f ts
  rw [hwords]
  refine rd_foldl_wr_mem (f := fun j => rxObj n o + 0x10 + 4 * j) (g := frameData f) _ (List.mem_range.2 hj) (fun k _ hk => ?_) u
  congr 1
  omega

/-- Every word but the data. -/
theorem rd_rxWords_head (s : State) (n o : Nat) (f : BusFrame) (ts : Nat) {a : Nat}
    (ha : a < rxObj n o + 0x10 ∨ rxObj n o + 0x50 ≤ a) : rd (rxWords s n o f ts) a =
    if a = rxObj n o + 12 then hi32 ts else if a = rxObj n o + 8 then lo32 ts
    else if a = rxObj n o + 4 then w32 (f.dlc.toNat + 256 + rdF s (rxObj n o + 4) 16 16 * 65536)
    else if a = rxObj n o then frameId f else rd s a := by
  obtain ⟨u, hu, hwords⟩ := rxWords_foldl s n o f ts
  have hctl : rdF (wr s (rxObj n o) (frameId f)) (rxObj n o + 4) 16 16 = rdF s (rxObj n o + 4) 16 16 := by
    rw [rdF, rd_wr_other _ _ (by omega)]
    rfl
  rw [hwords, rd_foldl_wr_other _ (fun k hk => ?_), hu, hctl]
  · unfold wr64
    rw [rd_wr, rd_wr, rd_wr, rd_wr]
  · have := List.mem_range.1 hk
    omega

theorem rd_rxHeld (s : State) (n o : Nat) (f : BusFrame) (ts a : Nat) : rd (rxHeld s n o f ts) a =
    rd (rxWords (notePast s 2 (16 * n + o) 2 0 (busSource s n o)) n o f ts) a := by
  unfold rxHeld
  rw [rd_setBus]

/-- The words of a record change the registers only. -/
theorem rxWords_keeps {α : Type} (p : State → α) (hp : ∀ s a v, p (wr s a v) = p s) (s : State) (n o : Nat) (f : BusFrame) (ts : Nat) :
    p (rxWords s n o f ts) = p s := by
  obtain ⟨u, hu, hwords⟩ := rxWords_foldl s n o f ts
  rw [hwords, foldl_keeps p (fun _ _ => hp _ _ _), hu, wr64, hp, hp, hp, hp]

/-- The fields of a receive object's CTRL word: DLC, NEW, no STALE, the TIMEOUT as it was. -/
theorem rxCtl_fields (d : BitVec 4) {h : Nat} (hh : h < 65536) : fld (w32 (d.toNat + 256 + h * 65536)) 0 4 = d.toNat ∧
    bit (w32 (d.toNat + 256 + h * 65536)) 8 = true ∧ bit (w32 (d.toNat + 256 + h * 65536)) 9 = false ∧
    fld (w32 (d.toNat + 256 + h * 65536)) 16 16 = h := by
  have hd : d.toNat < 16 := d.isLt
  have hlt : d.toNat + 256 + h * 65536 < 2 ^ 32 := by omega
  unfold fld bit w32
  rw [BitVec.toNat_ofNat, Nat.mod_eq_of_lt hlt, beq_iff_eq, beq_eq_false_iff_ne]
  refine ⟨?_, ?_, ?_, ?_⟩ <;> omega

/-- What receive object `o` holds of a frame. -/
def holds (s t : State) (n : Fin 8) (o : Nat) (f : BusFrame) (ts : Nat) : Prop :=
  rd t (rxObj n.val o) = frameId f ∧ rdF t (rxObj n.val o + 4) 0 4 = f.dlc.toNat ∧ rdB t (rxObj n.val o + 4) 8 = true ∧
    rdB t (rxObj n.val o + 4) 9 = false ∧ rdF t (rxObj n.val o + 4) 16 16 = rdF s (rxObj n.val o + 4) 16 16 ∧
    rd64 t (rxObj n.val o + 8) = ts % 2 ^ 64 ∧ ∀ j < 16, rd t (rxObj n.val o + 0x10 + 4 * j) = frameData f j

theorem holds_rxHeld (s : State) (n : Fin 8) (o : Nat) (f : BusFrame) (ts : Nat) : holds s (rxHeld s n.val o f ts) n o f ts := by
  have hhead {a : Nat} (ha : a < rxObj n.val o + 0x10) := rd_rxWords_head
    (notePast s 2 (16 * n.val + o) 2 0 (busSource s n.val o)) n.val o f ts (.inl ha)
  have hctl : rd (rxHeld s n.val o f ts) (rxObj n.val o + 4) =
      w32 (f.dlc.toNat + 256 + rdF s (rxObj n.val o + 4) 16 16 * 65536) := by
    rw [rd_rxHeld, hhead (by omega), if_neg (by omega), if_neg (by omega), if_pos rfl]
    rfl
  obtain ⟨hdlc, hnew, hstale, htimeout⟩ := rxCtl_fields f.dlc (h := rdF s (rxObj n.val o + 4) 16 16)
    (Nat.mod_lt _ (by decide))
  refine ⟨?_, ?_, ?_, ?_, ?_, ?_, fun j hj => (rd_rxHeld ..).trans (rd_rxWords_data _ _ _ _ _ hj)⟩
  · rw [rd_rxHeld, hhead (by omega), if_neg (by omega), if_neg (by omega), if_neg (by omega), if_pos rfl]
  · rw [rdF, hctl, hdlc]
  · rw [rdB, hctl, hnew]
  · rw [rdB, hctl, hstale]
  · rw [rdF, hctl, htimeout]
  · rw [← rd64_wr64_same s (rxObj n.val o + 8) ts]
    refine rd64_congr ?_ ?_
    · rw [rd_rxHeld, hhead (by omega), if_neg (by omega), if_pos rfl, wr64, rd_wr_other _ _ (by omega), rd_wr_same]
    · rw [rd_rxHeld, hhead (by omega), if_pos rfl, wr64, rd_wr_same]

/-- Every other register of the bus stands. -/
theorem rd_rxHeld_other (s : State) (f : BusFrame) (ts : Nat) {q : Nat} (hq : q < 0xB00 + 0x50 * o ∨ 0xB50 + 0x50 * o ≤ q) :
    rd (rxHeld s n.val o f ts) (reg (mbPg n.val) q) = rd s (reg (mbPg n.val) q) := by
  have hbase : rxObj n.val o = mbPg n.val * 4096 + (0xB00 + 0x50 * o) := rfl
  have hat : reg (mbPg n.val) q = mbPg n.val * 4096 + q := rfl
  rw [rd_rxHeld, rd_rxWords_head _ _ _ _ _ (by omega), if_neg (by omega), if_neg (by omega), if_neg (by omega), if_neg (by omega)]
  rfl

/-- The points that the groups of a receive object feed are those of the frame it holds. -/
theorem groupCost_rxHeld (s : State) (f : BusFrame) (ts : Nat) :
    groupCost s n.val o f = ((List.range 8).map (groupPoints (rxHeld s n.val o f ts) n.val)).sum := by
  have hdata {k : Nat} (hk : k < 16) : rxData (rxHeld s n.val o f ts) n.val k =
      if k = o then (List.range 16).flatMap fun j => leBytes 4 (frameData f j).toNat else rxData s n.val k := by
    split_ifs with hko
    · subst hko
      refine congrArg List.flatten (List.map_congr_left fun j hj => ?_)
      rw [rd_rxHeld, rd_rxWords_data _ _ _ _ _ (List.mem_range.1 hj)]
    · refine congrArg List.flatten (List.map_congr_left fun j hj => ?_)
      have hj := List.mem_range.1 hj
      rw [Nat.add_assoc, rxObj_add, rd_rxHeld_other s f ts (by omega)]
  unfold groupCost
  dsimp only
  refine congrArg List.sum (List.map_congr_left fun g hg => ?_)
  have hmembers : groupMembers (rxHeld s n.val o f ts) n.val g = groupMembers s n.val g := by
    have := List.mem_range.1 hg
    unfold groupMembers
    rw [rd_rxHeld_other s f ts (by omega)]
  unfold groupPoints
  rw [hmembers]
  refine congrArg (fun l => (Config.groupMap n.val g l).length) (List.map_congr_left fun k hk => ?_)
  exact (hdata (groupMembers_lt hk)).symm

/-- A frame stored, its groups within the budgets. -/
theorem rxStore_stores (ts : Nat) (ho : o < 16) (hcalm : busCalm s n (groupCost s n.val o f)) :
    holds s (rxStore s n.val o f ts) n o f ts ∧ (rxStore s n.val o f ts).toll.faulted = s.toll.faulted ∧
      (∀ q < 0x600, q ≠ 0x08C → rd (rxStore s n.val o f ts) (reg (mbPg n.val) q) = rd s (reg (mbPg n.val) q)) ∧
      (∀ k, rdB s (reg (mbPg n.val) 0x08C) k = true → rdB (rxStore s n.val o f ts) (reg (mbPg n.val) 0x08C) k = true) ∧
      ((bus s n.val).sleeping = false → (bus (rxStore s n.val o f ts) n.val).sleeping = false) ∧
      ∀ g < 8, rdB s (reg (mbPg n.val) (0x100 + 4 * g)) 31 = true → groupMembers s n.val g = [o] →
        rdB (rxStore s n.val o f ts) (reg (mbPg n.val) 0x08C) 12 = true := by
  have hheld := holds_rxHeld s n o f ts
  have hother {q : Nat} (hq : q < 0xB00) := rd_rxHeld_other (n := n) (o := o) s f ts (q := q) (.inl (by omega))
  have hcost := groupCost_rxHeld (n := n) (o := o) s f ts
  have hclk : (rxHeld s n.val o f ts).clk = s.clk := by
    rw [rxHeld, setBus_clk, rxWords_keeps State.clk fun _ _ _ => rfl]
    rfl
  have htoll : (rxHeld s n.val o f ts).toll = s.toll := by
    rw [rxHeld, setBus_toll, rxWords_keeps State.toll fun _ _ _ => rfl]
    rfl
  have hsleep : (bus (rxHeld s n.val o f ts) n.val).sleeping = (bus s n.val).sleeping := by
    rw [rxHeld, bus_setBus_same, bus_congr (rxWords_keeps State.bus (fun _ _ _ => rfl) ..)]
    rfl
  obtain ⟨x, hx⟩ : ∃ x, x = rxHeld s n.val o f ts := ⟨_, rfl⟩
  rw [rxStore_eq, groupStep_eq]
  rw [← hx] at hheld hother hcost hclk htoll hsleep ⊢
  rw [hcost] at hcalm
  have hcalm' : busCalm x n ((List.range 8).map (groupPoints x n.val)).sum := fun r hr =>
    overBudget_of_accounts (s := s) (m := 0) hclk (by rw [htoll]) (by rw [htoll]; exact fun _ h => h)
      (by unfold usedOf; rw [htoll, Nat.add_zero]) (by rw [Nat.zero_add]; exact hcalm r hr)
  obtain ⟨hfed, hdone⟩ := groups_feed (o := o) (fun g hg => List.mem_range.1 hg) hcalm'
  have hword {k : Nat} (hk : k < 0x50) : rd ((List.range 8).foldl (groupVisit n.val o) x) (rxObj n.val o + k) =
      rd x (rxObj n.val o + k) := by
    rw [rxObj_add]
    exact hfed.rd _ (by omega) (by omega) (by omega)
  obtain ⟨hid, hdlc, hnew, hstale, htimeout, hts, hdata⟩ := hheld
  refine ⟨⟨?_, ?_, ?_, ?_, ?_, ?_, fun j hj => ?_⟩, ?_, fun q hq hne => ?_, fun k hk => ?_, fun hs => ?_, fun g hg hen hmem => ?_⟩
  · have hfirst := hword (k := 0) (by decide)
    rw [Nat.add_zero] at hfirst
    exact hfirst.trans hid
  · rwa [rdF, hword (by decide)]
  · rwa [rdB, hword (by decide)]
  · rwa [rdB, hword (by decide)]
  · rwa [rdF, hword (by decide)]
  · rwa [rd64_congr (hword (k := 8) (by decide)) (hword (k := 12) (by decide))]
  · rw [Nat.add_assoc, hword (by omega), ← Nat.add_assoc, hdata j hj]
  · rw [hfed.faulted, htoll]
  · rw [hfed.rd q (by omega) hne (by omega), hother (by omega)]
  · refine hfed.events k ?_
    rw [rdB, hother (by decide)]
    exact hk
  · exact hfed.awake (hsleep.trans hs)
  · refine hdone g (List.mem_range.2 hg) ?_ ?_
    · rw [rdB, hother (by omega)]
      exact hen
    · rw [← hmem]
      unfold groupMembers
      rw [hother (by omega)]

/-! ### A frame in a queue (R242) -/

section

variable (s n f) (ts : Nat)

theorem queuePut_zero (h : (bus s n.val).q0.length < 64) : queuePut s n.val 0 f ts =
    ev (setBus s n.val { bus s n.val with q0 := (bus s n.val).q0 ++ [⟨f, ts⟩] }) (mbPg n.val) 0 := by
  unfold queuePut
  dsimp only
  rw [if_pos rfl, if_pos rfl, if_neg (by omega), if_pos rfl]

theorem queuePut_one (h : (bus s n.val).q1.length < 32) : queuePut s n.val 1 f ts =
    ev (setBus s n.val { bus s n.val with q1 := (bus s n.val).q1 ++ [⟨f, ts⟩] }) (mbPg n.val) 1 := by
  unfold queuePut
  dsimp only
  rw [if_neg Nat.one_ne_zero, if_neg Nat.one_ne_zero, if_neg (by omega), if_neg Nat.one_ne_zero]

theorem queuePut_zero_full (h : 64 ≤ (bus s n.val).q0.length) :
    queuePut s n.val 0 f ts = ev (bump s (reg (mbPg n.val) 0x0CC)) (mbPg n.val) 2 := by
  unfold queuePut
  dsimp only
  rw [if_pos rfl, if_pos rfl, if_pos h]

/-- A frame put into a queue changes the bus's queues, or counts. -/
theorem queuePut_cases (q : Nat) : queuePut s n.val q f ts = ev (bump s (reg (mbPg n.val) 0x0CC)) (mbPg n.val) 2 ∨
    ∃ b : Bus, b.sleeping = (bus s n.val).sleeping ∧ queuePut s n.val q f ts = ev (setBus s n.val b) (mbPg n.val) q := by
  unfold queuePut
  dsimp only
  generalize (if q = 0 then 64 else 32) = size
  generalize (if q = 0 then (bus s n.val).q0 else (bus s n.val).q1) = l
  by_cases hfull : size ≤ l.length
  · rw [if_pos hfull]
    exact .inl rfl
  · rw [if_neg hfull]
    refine .inr ⟨_, ?_, rfl⟩
    split <;> rfl

end

/-! ### A frame routed (R242) -/

/-- A frame counted as received, REC one less. -/
def mbHeard (s : State) (n : Nat) : State :=
  let s := bump s (reg (mbPg n) 0x0C0)
  wrF s (reg (mbPg n) 0x098) 8 8 (rdF s (reg (mbPg n) 0x098) 8 8 - 1)

/-- Where a filter's ACTION, or its absence, sends a frame. -/
def routeBy (s : State) (n : Nat) (f : BusFrame) (ts : Nat) : Option (Nat × Nat) → State
  | some (1, _) => queuePut s n 0 f ts
  | some (2, _) => queuePut s n 1 f ts
  | some (3, o) => rxStore s n o f ts
  | some _ => bump s (reg (mbPg n) 0x0C8)
  | none => if rdB s (reg (mbPg n) 0x080) 4 then queuePut s n 1 f ts else bump s (reg (mbPg n) 0x0C8)

theorem routeBy_none (s : State) (n : Nat) (f : BusFrame) (ts : Nat) : routeBy s n f ts none =
    if rdB s (reg (mbPg n) 0x080) 4 then queuePut s n 1 f ts else bump s (reg (mbPg n) 0x0C8) := rfl

theorem rd_mbHeard_other (s : State) {q : Nat} (hcount : q ≠ 0x0C0) (herr : q ≠ 0x098) :
    rd (mbHeard s n.val) (reg (mbPg n.val) q) = rd s (reg (mbPg n.val) q) := by
  unfold mbHeard
  dsimp only
  rw [rd_wrF_offset _ _ _ _ herr, rd_bump_offset _ hcount]

theorem rd_mbHeard_count (hcor : corMode s (mbPg n.val) = false) :
    rd (mbHeard s n.val) (reg (mbPg n.val) 0x0C0) = rd s (reg (mbPg n.val) 0x0C0) + 1 := by
  unfold mbHeard
  dsimp only
  rw [rd_wrF_offset _ _ _ _ (by decide), rd_bump_mb (by decide) hcor]

theorem setup_mbHeard (s : State) (n : Fin 8) : sameSetup n s (mbHeard s n.val) :=
  fun _ _ hin => rd_mbHeard_other s (by omega) (by omega)

@[simp] theorem bus_mbHeard (s : State) (n : Fin 8) : bus (mbHeard s n.val) n.val = bus s n.val := rfl

theorem corMode_mbHeard (hcor : corMode s (mbPg n.val) = false) : corMode (mbHeard s n.val) (mbPg n.val) = false :=
  (corMode_congr (s := s) (t := mbHeard s n.val) rfl (rd_mbHeard_other s (by decide) (by decide))).trans hcor

theorem mbRoute_eq (s : State) (n : Fin 8) (f : BusFrame) :
    mbRoute s n.val f = routeBy (mbHeard s n.val) n.val f (count s) (filterFor s n.val f) := by
  rw [← filterFor_congr (setup_mbHeard s n) f]
  rfl

/-- The frame that a receive object is to hold feeds its points within the budgets. -/
theorem busCalm_mbHeard (hcalm : groupCalm s n f) (hf : filterFor s n.val f = some (3, o)) :
    busCalm (mbHeard s n.val) n (groupCost (mbHeard s n.val) n.val o f) := by
  rw [groupCost_congr (setup_mbHeard s n)]
  exact hcalm o hf

/-- What a routed frame leaves, wherever it goes. -/
structure Routed (n : Fin 8) (s t : State) : Prop where
  faulted : t.toll.faulted = s.toll.faulted
  count : rd t (reg (mbPg n.val) 0x0C0) = rd s (reg (mbPg n.val) 0x0C0)
  events : ∀ k, rdB s (reg (mbPg n.val) 0x08C) k = true → rdB t (reg (mbPg n.val) 0x08C) k = true
  awake : (bus s n.val).sleeping = false → (bus t n.val).sleeping = false

theorem routed_bump (s : State) {q : Nat} (hev : q ≠ 0x08C) (hq : q ≠ 0x0C0) : Routed n s (bump s (reg (mbPg n.val) q)) :=
  ⟨rfl, rd_bump_offset s hq.symm, fun k hk => by rw [rdB, rd_bump_offset s hev.symm]; exact hk, fun h => h⟩

theorem Routed.ev (h : Routed n s t) (b : Nat) : Routed n s (ev t (mbPg n.val) b) where
  faulted := by rw [ev_toll, h.faulted]
  count := (rd_evMb_other t b (by decide)).trans h.count
  events := fun k hk => rdB_ev_mono t _ b (h.events k hk)
  awake := fun hs => by rw [bus_ev, h.awake hs]

theorem routed_queuePut (s : State) (n : Fin 8) (q : Nat) (f : BusFrame) (ts : Nat) : Routed n s (queuePut s n.val q f ts) := by
  rcases queuePut_cases s n f ts q with h | ⟨b, hb, h⟩ <;> rw [h]
  · exact (routed_bump s (by decide) (by decide)).ev 2
  · exact Routed.ev (s := s) (t := setBus s n.val b) ⟨rfl, rfl, fun _ hk => hk, fun hs => by rw [bus_setBus_same, hb, hs]⟩ q

theorem routed_mbRoute (hcalm : groupCalm s n f) : Routed n (mbHeard s n.val) (mbRoute s n.val f) := by
  rw [mbRoute_eq]
  cases hf : filterFor s n.val f with
  | none =>
    rw [routeBy_none]
    split
    · exact routed_queuePut _ n 1 f _
    · exact routed_bump _ (by decide) (by decide)
  | some e =>
    obtain ⟨a, o⟩ := e
    obtain ⟨ha, ho⟩ := filterFor_lt hf
    match a, ha with
    | 0, _ => exact routed_bump _ (by decide) (by decide)
    | 1, _ => exact routed_queuePut _ n 0 f _
    | 2, _ => exact routed_queuePut _ n 1 f _
    | 3, _ =>
      obtain ⟨-, hfaulted, hrd, hev, hawake, -⟩ := rxStore_stores (count s) ho (busCalm_mbHeard hcalm hf)
      exact ⟨hfaulted, hrd _ (by decide) (by decide), hev, hawake⟩

/-! ### How a reception ends -/

/-- Nothing is settled where no budget fault is new. -/
theorem budgetSettle_of_faulted (h : t.toll.faulted = s.toll.faulted) : budgetSettle s t = t := by
  have hnone : (t.toll.faulted.filter fun k => !s.toll.faulted.contains k) = [] := by
    rw [h]
    exact List.filter_eq_nil_iff.2 fun k hk => by simp [hk]
  unfold budgetSettle
  rw [hnone]
  rfl

theorem finishGuard_settled {p : State → Prop} (h : u.toll.faulted = s.toll.faulted)
    (hp : ∀ t, t.bus = u.bus → (∀ a, rd t a = rd u a) → p t) : ∃ t, finishGuard s (budgetSettle s u) = .next t ∧ p t := by
  rw [budgetSettle_of_faulted h]
  exact ⟨_, rfl, hp _ rfl fun _ => rfl⟩

theorem exec_mbFrameReceive (n : Fin 8) (f : BusFrame) (s : State) :
    exec (.mbFrameReceive n f) s = finishGuard s (budgetSettle s (mbReceive s n.val f)) := rfl
theorem exec_busWakeEvent (n : Fin 8) (f : Option BusFrame) (s : State) :
    exec (.busWakeEvent n f) s = finishGuard s (budgetSettle s (mbWakeEvent s n.val f)) := rfl
theorem exec_objectTimeout (n : Fin 8) (o : Fin 16) (s : State) :
    exec (.objectTimeout n o) s = finish s (mbStale s n.val o.val) := rfl
theorem exec_mbQHead_zero (i : Init) (n : Fin 8) (v : Word) (s : State) :
    exec (.mbQHead i n 0 v) s = finishClock s (submitWrite s i (reg (mbPg n.val) 0x0E0) v) := rfl
theorem exec_mbQHead_one (i : Init) (n : Fin 8) (v : Word) (s : State) :
    exec (.mbQHead i n 1 v) s = finishClock s (submitWrite s i (reg (mbPg n.val) 0x0E4) v) := rfl
theorem exec_clearQ0 (i : Init) (n : Fin 8) (s : State) :
    exec (.clearQ0 i n) s = finishClock s (submitWrite s i (reg (mbPg n.val) 0x084) 4) := rfl
theorem exec_clearQ1 (i : Init) (n : Fin 8) (s : State) :
    exec (.clearQ1 i n) s = finishClock s (submitWrite s i (reg (mbPg n.val) 0x084) 5) := rfl

/-! ### MB_FRAME_RECEIVE -/

/-- Where a routed frame has gone, by its first matching filter. -/
def gone (s t : State) (n : Fin 8) (f : BusFrame) : Prop :=
  rd t (reg (mbPg n.val) 0x0C0) = rd s (reg (mbPg n.val) 0x0C0) + 1 ∧
    (∀ o, filterFor s n.val f = some (1, o) →
      ((bus s n.val).q0.length < 64 → (bus t n.val).q0 = (bus s n.val).q0 ++ [⟨f, count s⟩] ∧
        rdB t (reg (mbPg n.val) 0x08C) 0 = true) ∧
      (64 ≤ (bus s n.val).q0.length → bus t n.val = bus s n.val ∧ rdB t (reg (mbPg n.val) 0x08C) 2 = true ∧
        rd t (reg (mbPg n.val) 0x0CC) = rd s (reg (mbPg n.val) 0x0CC) + 1)) ∧
    (((∃ o, filterFor s n.val f = some (2, o)) ∨ (filterFor s n.val f = none ∧ rdB s (reg (mbPg n.val) 0x080) 4 = true)) →
      (bus s n.val).q1.length < 32 → (bus t n.val).q1 = (bus s n.val).q1 ++ [⟨f, count s⟩] ∧
        rdB t (reg (mbPg n.val) 0x08C) 1 = true) ∧
    (((∃ o, filterFor s n.val f = some (0, o)) ∨ (filterFor s n.val f = none ∧ rdB s (reg (mbPg n.val) 0x080) 4 = false)) →
      bus t n.val = bus s n.val ∧ rd t (reg (mbPg n.val) 0x0C8) = rd s (reg (mbPg n.val) 0x0C8) + 1) ∧
    ∀ o < 16, filterFor s n.val f = some (3, o) → holds s t n o f (count s) ∧
      ∀ g < 8, rdB s (reg (mbPg n.val) (0x100 + 4 * g)) 31 = true → groupMembers s n.val g = [o] →
        rdB t (reg (mbPg n.val) 0x08C) 12 = true

theorem mbRoute_gone (hcor : corMode s (mbPg n.val) = false) (hcalm : groupCalm s n f) : gone s (mbRoute s n.val f) n f := by
  have hcount := (routed_mbRoute hcalm).count.trans (rd_mbHeard_count hcor)
  have hdefault : rdB (mbHeard s n.val) (reg (mbPg n.val) 0x080) 4 = rdB s (reg (mbPg n.val) 0x080) 4 :=
    congrArg (bit · 4) (rd_mbHeard_other s (by decide) (by decide))
  refine ⟨hcount, fun o hf => ⟨fun hroom => ?_, fun hfull => ?_⟩, fun hroute hroom => ?_, fun hroute => ?_, fun o ho hf => ?_⟩
  · have hput : mbRoute s n.val f = queuePut (mbHeard s n.val) n.val 0 f (count s) := by rw [mbRoute_eq, hf]; rfl
    rw [hput, queuePut_zero (mbHeard s n.val) n f _ hroom]
    exact ⟨by rw [bus_ev, bus_setBus_same]; rfl, rdB_evMb_same _ (by decide)⟩
  · have hput : mbRoute s n.val f = queuePut (mbHeard s n.val) n.val 0 f (count s) := by rw [mbRoute_eq, hf]; rfl
    rw [hput, queuePut_zero_full (mbHeard s n.val) n f _ hfull]
    refine ⟨by rw [bus_ev, bus_bump, bus_mbHeard], rdB_evMb_same _ (by decide), ?_⟩
    rw [rd_evMb_other _ _ (by decide), rd_bump_mb (by decide) (corMode_mbHeard hcor), rd_mbHeard_other s (by decide) (by decide)]
  · have hput : mbRoute s n.val f = queuePut (mbHeard s n.val) n.val 1 f (count s) := by
      rw [mbRoute_eq]
      rcases hroute with ⟨o, hf⟩ | ⟨hf, hd⟩
      · rw [hf]
        rfl
      · rw [hf]
        exact if_pos (hdefault.trans hd)
    rw [hput, queuePut_one (mbHeard s n.val) n f _ hroom]
    exact ⟨by rw [bus_ev, bus_setBus_same]; rfl, rdB_evMb_same _ (by decide)⟩
  · have hdrop : mbRoute s n.val f = bump (mbHeard s n.val) (reg (mbPg n.val) 0x0C8) := by
      rw [mbRoute_eq]
      rcases hroute with ⟨o, hf⟩ | ⟨hf, hd⟩
      · rw [hf]
        rfl
      · rw [hf]
        exact if_neg (by rw [hdefault, hd]; decide)
    rw [hdrop]
    exact ⟨rfl, by rw [rd_bump_mb (by decide) (corMode_mbHeard hcor), rd_mbHeard_other s (by decide) (by decide)]⟩
  · have hstore : mbRoute s n.val f = rxStore (mbHeard s n.val) n.val o f (count s) := by rw [mbRoute_eq, hf]; rfl
    obtain ⟨⟨hid, hdlc, hnew, hstale, htimeout, hts, hdata⟩, -, -, -, -, hdone⟩ :=
      rxStore_stores (count s) ho (busCalm_mbHeard hcalm hf)
    rw [hstore]
    refine ⟨⟨hid, hdlc, hnew, hstale, htimeout.trans ?_, hts, hdata⟩, fun g hg hen hmem => hdone g hg ?_ ?_⟩
    · rw [rdF, rxObj_add, rd_mbHeard_other s (by omega) (by omega)]
      rfl
    · rw [rdB, rd_mbHeard_other s (by omega) (by omega)]
      exact hen
    · rw [groupMembers_congr (setup_mbHeard s n) hg, hmem]

theorem mbFrameReceive_routes (hon : busOn s n.val = true) (hawake : (bus s n.val).sleeping = false)
    (hoff : (bus s n.val).busOff = false) (hfd : f.fdf = true → rdB s (reg (mbPg n.val) 0x080) 1 = true)
    (hcor : corMode s (mbPg n.val) = false) (hcalm : groupCalm s n f) :
    ∃ t, exec (.mbFrameReceive n f) s = .next t ∧ gone s t n f := by
  have hreceive : mbReceive s n.val f = mbRoute s n.val f := by
    unfold mbReceive
    dsimp only
    refine if_neg ?_
    rw [hon, hawake, hoff]
    rintro (h | h | h | ⟨hf, h⟩)
    · cases h
    · cases h
    · cases h
    · rw [hfd hf] at h
      cases h
  have hgone := mbRoute_gone hcor hcalm
  rw [exec_mbFrameReceive, hreceive]
  refine finishGuard_settled (routed_mbRoute hcalm).faulted fun t hbus hrd => ?_
  unfold gone holds rd64 rdF rdB at hgone ⊢
  rw [bus_congr hbus]
  simp only [hrd]
  exact hgone

/-! ### OBJECT_TIMEOUT (R244) -/

theorem objectTimeout_stales (o : Fin 16) {due : Nat}
    (hdue : due = rxSince s n.val o.val + rdF s (rxObj n.val o.val + 4) 16 16 * 65536) (hon : busOn s n.val = true)
    (htimeout : rdF s (rxObj n.val o.val + 4) 16 16 ≠ 0) :
    ∃ t, exec (.objectTimeout n o) s = .next t ∧ t.bus = s.bus ∧
      (due ≤ count s → rdB t (rxObj n.val o.val + 4) 9 = true ∧ rdB t (reg (mbPg n.val) 0x08C) 11 = true) ∧
      (count s < due → rdB t (rxObj n.val o.val + 4) 9 = rdB s (rxObj n.val o.val + 4) 9) := by
  obtain ⟨t, ht, hbus, hrd⟩ := finish_buses s (mbStale s n.val o.val)
  rw [exec_objectTimeout]
  rcases Nat.lt_or_ge (count s) due with hearly | hlate
  · have hop : mbStale s n.val o.val = s := if_pos (.inr (.inr (by rw [← hdue]; exact hearly)))
    rw [hop] at hbus hrd
    refine ⟨t, ht, hbus, fun h => absurd hearly (Nat.not_lt.2 h), fun _ => ?_⟩
    rw [rdB, hrd]
    rfl
  · have hop : mbStale s n.val o.val =
        ev (wrB (notePast s 2 (16 * n.val + o.val) 2 0 (busSource s n.val o.val)) (rxObj n.val o.val + 4) 9 true) (mbPg n.val) 11 := by
      refine if_neg ?_
      rw [hon, ← hdue]
      rintro (h | h | h)
      · exact htimeout h
      · cases h
      · exact absurd h (Nat.not_lt.2 hlate)
    rw [hop] at hbus hrd
    refine ⟨t, ht, by rw [hbus, ev_bus, wrB_bus]; rfl, fun _ => ⟨?_, ?_⟩, fun h => absurd h (Nat.not_lt.2 hlate)⟩
    · rw [rdB, hrd, rxObj_add, rd_evMb_other _ _ (by omega)]
      exact rdB_wrB_same _ _ (by decide)
    · rw [rdB, hrd]
      exact rdB_evMb_same _ (by decide)

/-! ### The heads of the queues and their clearing (R242, R243) -/

theorem w32_mod_pow (v : Word) {k : Nat} (hk : k < 32) : w32 (v.toNat % 2 ^ k) = v &&& w32 (2 ^ k - 1) := by
  have hlt : 2 ^ k < 2 ^ 32 := Nat.pow_lt_pow_right (by decide) hk
  refine BitVec.eq_of_toNat_eq ?_
  unfold w32
  rw [BitVec.toNat_and, BitVec.toNat_ofNat, BitVec.toNat_ofNat, Nat.mod_eq_of_lt (by omega : 2 ^ k - 1 < 2 ^ 32),
    Nat.and_two_pow_sub_one_eq_mod]
  exact Nat.mod_eq_of_lt ((Nat.mod_lt _ (by positivity)).trans hlt)

theorem mbQHead_zero (h : clear s i (reg (mbPg n.val) 0x0E0) v = true) :
    ∃ t, exec (.mbQHead i n 0 v) s = .next t ∧
      (bus t n.val).q0 = (bus s n.val).q0.drop ((v.toNat % 64 + 64 - (rd s (reg (mbPg n.val) 0x0E0)).toNat % 64) % 64) ∧
      (bus t n.val).q1 = (bus s n.val).q1 ∧ rd t (reg (mbPg n.val) 0x0E0) = v &&& 0x3F#32 := by
  rw [exec_mbQHead_zero]
  refine mbCommand_clear h (by decide) fun w t hl hd => ?_
  have hhead : writeMb w i.who n.val 0x0E0 v = wr (setBus w n.val { bus w n.val with
      q0 := (bus w n.val).q0.drop ((v.toNat % 64 + 64 - (rd w (reg (mbPg n.val) 0x0E0)).toNat % 64) % 64) })
      (reg (mbPg n.val) 0x0E0) (w32 (v.toNat % 64)) :=
    writeMb_headZero w i.who n v
  rw [hhead, Light.rd_mb hl (by decide), bus_congr hl.bus] at hd
  rw [bus_congr hd.bus, bus_wr, bus_setBus_same, hd.rd, rd_wr_same]
  exact ⟨rfl, rfl, w32_mod_pow v (k := 6) (by decide)⟩

theorem mbQHead_one (h : clear s i (reg (mbPg n.val) 0x0E4) v = true) :
    ∃ t, exec (.mbQHead i n 1 v) s = .next t ∧
      (bus t n.val).q1 = (bus s n.val).q1.drop ((v.toNat % 32 + 32 - (rd s (reg (mbPg n.val) 0x0E4)).toNat % 32) % 32) ∧
      (bus t n.val).q0 = (bus s n.val).q0 ∧ rd t (reg (mbPg n.val) 0x0E4) = v &&& 0x1F#32 := by
  rw [exec_mbQHead_one]
  refine mbCommand_clear h (by decide) fun w t hl hd => ?_
  have hhead : writeMb w i.who n.val 0x0E4 v = wr (setBus w n.val { bus w n.val with
      q1 := (bus w n.val).q1.drop ((v.toNat % 32 + 32 - (rd w (reg (mbPg n.val) 0x0E4)).toNat % 32) % 32) })
      (reg (mbPg n.val) 0x0E4) (w32 (v.toNat % 32)) :=
    writeMb_headOne w i.who n v
  rw [hhead, Light.rd_mb hl (by decide), bus_congr hl.bus] at hd
  rw [bus_congr hd.bus, bus_wr, bus_setBus_same, hd.rd, rd_wr_same]
  exact ⟨rfl, rfl, w32_mod_pow v (k := 5) (by decide)⟩

theorem clearQ0_empties (h : clear s i (reg (mbPg n.val) 0x084) 4 = true) :
    ∃ t, exec (.clearQ0 i n) s = .next t ∧ (bus t n.val).q0 = [] ∧ (bus t n.val).q1 = (bus s n.val).q1 := by
  rw [exec_clearQ0]
  refine mbCommand_clear h (by decide) fun w t hl hd => ?_
  have hclear : ∃ x, writeMb w i.who n.val 0x084 4 =
      wr (setBus w n.val { bus w n.val with q0 := [] }) (reg (mbPg n.val) 0x0E0) x := ⟨_, writeMb_cmd w i.who n 4⟩
  obtain ⟨x, hclear⟩ := hclear
  rw [hclear] at hd
  rw [bus_congr hd.bus, bus_wr, bus_setBus_same, bus_congr hl.bus]
  exact ⟨rfl, rfl⟩

theorem clearQ1_empties (h : clear s i (reg (mbPg n.val) 0x084) 5 = true) :
    ∃ t, exec (.clearQ1 i n) s = .next t ∧ (bus t n.val).q1 = [] ∧ (bus t n.val).q0 = (bus s n.val).q0 := by
  rw [exec_clearQ1]
  refine mbCommand_clear h (by decide) fun w t hl hd => ?_
  have hclear : ∃ x, writeMb w i.who n.val 0x084 5 =
      wr (setBus w n.val { bus w n.val with q1 := [] }) (reg (mbPg n.val) 0x0E4) x := ⟨_, writeMb_cmd w i.who n 5⟩
  obtain ⟨x, hclear⟩ := hclear
  rw [hclear] at hd
  rw [bus_congr hd.bus, bus_wr, bus_setBus_same, bus_congr hl.bus]
  exact ⟨rfl, rfl⟩

/-! ### BUS_WAKE_EVENT (R252) -/

section

variable (hasleep : (bus s n.val).sleeping = true) (hen : rdB s (reg (mbPg n.val) 0x080) 0 = true)

include hasleep hen

/-- A dominant level wakes a bus in edge mode. -/
theorem busWakeEvent_edge (hmode : rdB s (reg (mbPg n.val) 0x080) 5 = false) (g : Option BusFrame) :
    ∃ t, exec (.busWakeEvent n g) s = .next t ∧ (bus t n.val).sleeping = false ∧ rdB t (reg (mbPg n.val) 0x08C) 8 = true := by
  have hop : mbWakeEvent s n.val g = busWake s n.val := by
    unfold mbWakeEvent
    dsimp only
    rw [hasleep, hen, hmode]
    rfl
  have hw := woken_busWake s n
  rw [exec_busWakeEvent, hop]
  refine finishGuard_settled (by rw [hw.toll]) fun t hbus hrd => ?_
  rw [bus_congr hbus, rdB, hrd]
  exact ⟨hw.awake, rdB_busWake hasleep⟩

/-- In frame mode a frame wakes the bus when it matches, and is then received. -/
theorem mbWakeEvent_frame (hmode : rdB s (reg (mbPg n.val) 0x080) 5 = true) (f : BusFrame) : mbWakeEvent s n.val (some f) =
    if wakeMatch s n.val f then mbRoute (busWake s n.val) n.val f else s := by
  unfold mbWakeEvent
  dsimp only
  rw [hasleep, hen, hmode]
  rfl

theorem busWakeEvent_match (hmode : rdB s (reg (mbPg n.val) 0x080) 5 = true) (hmatch : wakeMatch s n.val f = true)
    (hcor : corMode s (mbPg n.val) = false) (hcalm : groupCalm s n f) :
    ∃ t, exec (.busWakeEvent n (some f)) s = .next t ∧ (bus t n.val).sleeping = false ∧
      rdB t (reg (mbPg n.val) 0x08C) 8 = true ∧ rd t (reg (mbPg n.val) 0x0C0) = rd s (reg (mbPg n.val) 0x0C0) + 1 := by
  have hw := woken_busWake s n
  have hsetup : sameSetup n s (busWake s n.val) := fun q _ hin => hw.rd q (by omega)
  have hcalm' : groupCalm (busWake s n.val) n f := by
    intro o hf r hr
    rw [filterFor_congr hsetup] at hf
    rw [groupCost_congr hsetup]
    exact overBudget_of_accounts (s := s) (m := 0) hw.clk (by rw [hw.toll]) (by rw [hw.toll]; exact fun _ h => h)
      (by unfold usedOf; rw [hw.toll, Nat.add_zero]) (by rw [Nat.zero_add]; exact hcalm o hf r hr)
  have hrouted := routed_mbRoute hcalm'
  rw [exec_busWakeEvent, mbWakeEvent_frame hasleep hen hmode, if_pos hmatch]
  refine finishGuard_settled (hrouted.faulted.trans (congrArg Toll.faulted hw.toll)) fun t hbus hrd => ?_
  rw [bus_congr hbus, rdB, hrd, hrd]
  refine ⟨hrouted.awake hw.awake, hrouted.events 8 ?_, ?_⟩
  · rw [rdB, rd_mbHeard_other _ (by decide) (by decide)]
    exact rdB_busWake hasleep
  · rw [hrouted.count, rd_mbHeard_count ((corMode_congr hw.guard (hw.rd _ (by decide))).trans hcor), hw.rd _ (by decide)]

theorem busWakeEvent_other (hmode : rdB s (reg (mbPg n.val) 0x080) 5 = true) (hmatch : wakeMatch s n.val f = false) :
    ∃ t, exec (.busWakeEvent n (some f)) s = .next t ∧ t.bus = s.bus := by
  rw [exec_busWakeEvent, mbWakeEvent_frame hasleep hen hmode, hmatch, if_neg Bool.false_ne_true]
  exact finishGuard_settled rfl fun t hbus _ => hbus

end

/-- Settles O49: a frame is counted and goes where the first matching filter sends it (`mbRoute_gone`), the groups of a receive
object within the budgets; a queue's head frees its frames, an object goes STALE at its due position, and a wake frame is received
by the bus that it has woken. -/
theorem busesReceive : Obligations.BusesReceive := by
  unfold Obligations.BusesReceive
  rintro s n f b rfl
  refine ⟨fun hon hawake hoff hfd hcor hcalm => ?receive, fun o due hdue hon htimeout => objectTimeout_stales o hdue hon htimeout,
    fun i v => ⟨mbQHead_zero, mbQHead_one, clearQ0_empties, clearQ1_empties⟩,
    fun hasleep hen => ⟨busWakeEvent_edge hasleep hen, fun hmode =>
      ⟨busWakeEvent_match hasleep hen hmode, busWakeEvent_other hasleep hen hmode⟩⟩⟩
  case receive =>
    obtain ⟨t, ht, hcount, hzero, hone, hreject, hobject⟩ := mbFrameReceive_routes hon hawake hoff hfd hcor hcalm
    refine ⟨t, ht, hcount, hzero, hone, hreject, fun o ho hf => ?_⟩
    obtain ⟨⟨hid, hdlc, hnew, hstale, htimeout, hts, hdata⟩, hgroups⟩ := hobject o ho hf
    exact ⟨hid, hdlc, hnew, hstale, htimeout, hts, hdata, hgroups⟩

end Sys2Proof.Proofs
end

section
/-!
PROOFS. What every command keeps and where the module starts (R324, R335, R337, R340, R344, R345, R377): a step runs the front of
the queue, every command completes, the guard is kept by every step but a module reset, and the state after power-on.
-/

namespace Sys2Proof.Proofs

open Sys2Proof.Machine Sys2Proof.Laws

/-! ### A step and the commands -/

/-- Settles O1: both halves are the two cases of `step`. -/
theorem stepRunsTheFront : Obligations.StepRunsTheFront := by
  unfold Obligations.StepRunsTheFront
  exact ⟨fun c cs s => rfl, fun s => rfl⟩

/-- Settles O2: each of the four ways in which a command ends answers a next state with the queue as it was. -/
theorem everyCommandCompletes : Obligations.EveryCommandCompletes := by
  unfold Obligations.EveryCommandCompletes
  intro c s
  rcases exec_form c s with ⟨u, hu⟩ | ⟨u, hu⟩ | ⟨u, hu⟩ | ⟨-, u, hu⟩ <;> exact ⟨_, hu, rfl⟩

/-! ### The guard (R2, R285, R286, R324, R335, R340, R344, R345) -/

theorem kept_self (g : Guard) : g.kept g :=
  ⟨id, id, id, le_rfl, le_rfl, le_rfl, le_rfl, rfl, rfl, rfl, fun h _ => h⟩

/-- METER stands unless SCMD_CTR has risen: the command keeps bit 2 of the old mode. -/
theorem advance_meter (a b : Guard) (hset : a.mode.getLsbD 2 = true) (hctr : a.scmdCtr = (a.advance b).scmdCtr) :
    (a.advance b).mode.getLsbD 2 = true := by
  have hle : ¬ a.scmdCtr < b.scmdCtr := by
    have hmax : (a.advance b).scmdCtr = max a.scmdCtr b.scmdCtr := rfl
    omega
  have hmode : (a.advance b).mode = b.mode ||| (a.mode &&& 4) := by simp [Guard.advance, hle]
  have hfour : BitVec.getLsbD (4 : BitVec 8) 2 = true := by decide
  rw [hmode, BitVec.getLsbD_or, BitVec.getLsbD_and, hset, hfour, Bool.and_self, Bool.or_true]

/-- What a command that may change the guard leaves of it keeps what only a module reset takes back. -/
theorem kept_advance (a b : Guard) : a.kept (a.advance b) := by
  refine ⟨?protLock, ?operational, ?dead, le_max_left _ _, le_max_left _ _, le_max_left _ _, le_max_left _ _, rfl, rfl, rfl,
    advance_meter a b⟩ <;> intro h <;> simp [Guard.advance, h]

theorem exec_kept {c : Instr} {s t : State} (hc : resets c = false) (h : exec c s = .next t) : s.guard.kept t.guard := by
  rcases exec_form c s with ⟨u, hu⟩ | ⟨u, hu⟩ | ⟨u, hu⟩ | ⟨hreset, -⟩
  · cases hu.symm.trans h
    exact kept_self _
  · cases hu.symm.trans h
    exact kept_advance _ _
  · cases hu.symm.trans h
    exact kept_advance _ _
  · rw [hc] at hreset
    cases hreset

/-- Settles O4: an idle fabric cycle leaves the guard, and a command other than a module reset ends with it as it was or advanced. -/
theorem guardIsKept : Obligations.GuardIsKept := by
  unfold Obligations.GuardIsKept
  intro s t hfront hstep
  unfold step at hstep
  cases hp : s.pending with
  | nil =>
    rw [hp] at hstep
    cases hstep
    exact kept_self _
  | cons c cs =>
    rw [hp] at hstep
    exact exec_kept (s := { s with pending := cs }) (hfront c (by rw [hp]; rfl)) hstep

/-! ### The state at power-on (R337, R377) -/

/-- Settles O60: `State.reset` lists nothing, so that every register, point, session and slot reads as an unlisted one does. -/
theorem resetState : Obligations.ResetState := by
  unfold Obligations.ResetState
  exact ⟨fun _ => rfl, rfl, rfl, rfl, rfl, rfl, fun _ => rfl, fun _ => rfl, rfl, rfl, fun _ => rfl, rfl, rfl, by decide⟩

end Sys2Proof.Proofs
end

section
/-!
PROOFS. The interrupt registers (chapter 15, R359–R363): what the set and clear registers of the pages and of INTC leave, and what
INTC.TOPn shows.
-/

namespace Sys2Proof.Proofs

open Sys2Proof.Machine Sys2Proof.Laws

/-! ### The set and clear registers of a page header (R359) -/

/-- The row of a header offset of a page with a header. -/
theorem rowOf_headerRow {p o : Nat} {r : RegRow} (hp : headed p = true) (ho : o < 0x080)
    (hr : headerRows.find? (fun x => x.covers o) = some r) : rowOf (reg p o) = some r := by
  unfold headed at hp
  simp only [Bool.and_eq_true, Bool.not_eq_true'] at hp
  unfold rowOf pageRows
  rw [pageOf_reg p (by omega), offOf_reg p (by omega), hp.2]
  simp [hp.1, List.find?_append, hr]

/-- A write to a register without RW and WO bits is not logged. -/
theorem logsWrite_w1 {a : Nat} {r : RegRow} (v : Word) (hr : rowOf a = some r) (hw : r.rw = 0) (ho : r.wo = 0) :
    logsWrite a v = false := by
  simp [logsWrite, writable, hr, hw, ho]

/-- An events register stands on its own page, outside the header. -/
theorem evtAddr_page {p e : Nat} (hp : p < 128) (he : evtAddr p = some e) : pageOf e = p ∧ 0x080 ≤ offOf e ∧ offOf e < 0x200 := by
  have hall : ∀ p < 128, ∀ e ∈ evtAddr p, pageOf e = p ∧ 0x080 ≤ offOf e ∧ offOf e < 0x200 := by decide
  exact hall p hp e he

/-- What a W1S or W1C write to a header register works on: the header, the events and the bits that the fabric cycle has set,
as they stood. -/
structure HeaderKept (s s' : State) (p : Nat) : Prop where
  header : ∀ o < 0x080, rd s' (reg p o) = rd s (reg p o)
  event : ∀ e, evtAddr p = some e → rd s' e = rd s e
  fresh : ∀ a, freshBits s' a = freshBits s a

theorem freshBits_congr {s t : State} (hf : t.fresh = s.fresh) (hc : t.clk = s.clk) (a : Nat) : freshBits t a = freshBits s a := by
  unfold freshBits freshOf
  rw [hf, hc]

/-- A W1S or W1C write to a header register that meets nothing on its way. -/
theorem headerWrite_clear {s : State} {i : Init} {p o : Nat} {v : Word} {r : RegRow} (hp : headed p = true) (h128 : p < 128)
    (ho : o < 0x080) (hr : headerRows.find? (fun x => x.covers o) = some r) (hw : r.rw = 0) (hwo : r.wo = 0)
    (h : clear s i (reg p o) v = true) {q : State → Prop}
    (hq : ∀ s' t, HeaderKept s s' p → (∀ a, rd t a = rd (writeHeader s' p o v) a) → q t) :
    ∃ t, finishClock s (submitWrite s i (reg p o) v) = .next t ∧ q t := by
  have hrow := rowOf_headerRow hp ho hr
  have hlock : reg p o ≠ reg pLOCK 0x090 := by unfold reg pLOCK; omega
  refine row_clear_unlogged h hlock (logsWrite_w1 v hrow hw hwo) fun s' t hl _ hf hrd hd => hq s' t ⟨?_, ?_, ?_⟩ ?_
  · exact fun n hn => hl.rd _ (booked_header hn)
  · intro e he
    obtain ⟨hpage, -, hoff⟩ := evtAddr_page h128 he
    by_cases htoll : p = pTOLL
    · refine hl.rd e ?_
      unfold booked
      rw [hpage, htoll]
      simp [pTOLL, pDAYB, Nat.not_le.2 hoff]
    · exact hrd e (by rw [hpage]; exact htoll)
  · exact freshBits_congr hf hl.clk
  · intro a
    rw [hd.rd, writeEffect_header s' _ v hp ho (by rw [hr]; rfl)]

theorem irqPendSet_sets {s : State} {i : Init} {v : Word} (p : Fin 128) (hp : headed p.val = true)
    (h : clear s i (reg p.val 0x014) v = true) :
    ∃ t, exec (.irqPendSet i p v) s = .next t ∧ rd t (reg p.val 0x010) = rd s (reg p.val 0x010) ||| v := by
  refine headerWrite_clear (r := rS 0x014 full) hp p.isLt (by decide) (by decide) rfl rfl h fun s' t hk ht => ?_
  have heff : writeHeader s' p.val 0x014 v = setBits s' (reg p.val 0x010) v := rfl
  rw [ht, heff, rd_setBits_same, hk.header 0x010 (by decide)]

theorem irqPendClr_clears {s : State} {i : Init} {v : Word} (p : Fin 128) (hp : headed p.val = true)
    (h : clear s i (reg p.val 0x018) v = true) :
    ∃ t, exec (.irqPendClr i p v) s = .next t ∧ rd t (reg p.val 0x010) = rd s (reg p.val 0x010) &&& ~~~v ∧
      ∀ e, evtAddr p.val = some e → rd t e = rd s e &&& ~~~(v &&& ~~~(freshBits s e)) := by
  refine headerWrite_clear (r := rC 0x018 full) hp p.isLt (by decide) (by decide) rfl rfl h fun s' t hk ht => ?_
  obtain ⟨u, hu⟩ : ∃ u, u = wr s' (reg p.val 0x010) (rd s' (reg p.val 0x010) &&& ~~~v) := ⟨_, rfl⟩
  have hsoft : rd u (reg p.val 0x010) = rd s (reg p.val 0x010) &&& ~~~v := by
    rw [hu, rd_wr_same, hk.header 0x010 (by decide)]
  have heff : writeHeader s' p.val 0x018 v = match evtAddr p.val with | some e => clearBits u e v | none => u := by
    rw [hu]; rfl
  cases he : evtAddr p.val with
  | none =>
    rw [he] at heff
    exact ⟨by rw [ht, heff, hsoft], fun e h => by cases h⟩
  | some e =>
    rw [he] at heff
    obtain ⟨hpage, hoff, -⟩ := evtAddr_page p.isLt he
    have hne : reg p.val 0x010 ≠ e := by
      intro heq
      rw [← heq, offOf_reg _ (by decide)] at hoff
      omega
    refine ⟨by rw [ht, heff, rd_clearBits_other _ _ hne, hsoft], fun e' h => ?_⟩
    cases h
    have hfresh : freshBits u e = freshBits s e := by rw [hu, ← hk.fresh]; rfl
    have hevt : rd u e = rd s e := by rw [hu, rd_wr_other _ _ hne.symm, hk.event e he]
    rw [ht, heff, rd_clearBits_same, hfresh, hevt]

theorem irqMaskSet_sets {s : State} {i : Init} {v : Word} (p : Fin 128) (hp : headed p.val = true)
    (h : clear s i (reg p.val 0x020) v = true) :
    ∃ t, exec (.irqMaskSet i p v) s = .next t ∧ rd t (reg p.val 0x01C) = rd s (reg p.val 0x01C) ||| v := by
  refine headerWrite_clear (r := rS 0x020 full) hp p.isLt (by decide) (by decide) rfl rfl h fun s' t hk ht => ?_
  have heff : writeHeader s' p.val 0x020 v = wr s' (reg p.val 0x01C) (rd s' (reg p.val 0x01C) ||| v) := rfl
  rw [ht, heff, rd_wr_same, hk.header 0x01C (by decide)]

theorem irqMaskClr_clears {s : State} {i : Init} {v : Word} (p : Fin 128) (hp : headed p.val = true)
    (h : clear s i (reg p.val 0x024) v = true) :
    ∃ t, exec (.irqMaskClr i p v) s = .next t ∧ rd t (reg p.val 0x01C) = rd s (reg p.val 0x01C) &&& ~~~v := by
  refine headerWrite_clear (r := rC 0x024 full) hp p.isLt (by decide) (by decide) rfl rfl h fun s' t hk ht => ?_
  have heff : writeHeader s' p.val 0x024 v = wr s' (reg p.val 0x01C) (rd s' (reg p.val 0x01C) &&& ~~~v) := rfl
  rw [ht, heff, rd_wr_same, hk.header 0x01C (by decide)]

/-! ### LAC.EVT, a W1C events register -/

theorem rowOf_lacEvt : rowOf (reg pLAC 0x088) = some (rC 0x088 0x1FF) := by decide

theorem writeEffect_lacEvt (s : State) (i : Init) (v : Word) :
    writeEffect s i (reg pLAC 0x088) v = mergeRw s (reg pLAC 0x088) v := rfl

/-- A register of W1C bits alone loses those written 1, but for the ones that the fabric cycle has set. -/
theorem rd_mergeRw_w1c (s : State) {a : Nat} {r : RegRow} (v : Word) (hr : rowOf a = some r) (hw : r.rw = 0) (hs : r.w1s = 0) :
    rd (mergeRw s a v) a = rd s a &&& ~~~(v &&& w32 r.w1c &&& ~~~(freshBits s a)) := by
  have hno : w32 0 = 0#32 := rfl
  have hall : ~~~(0#32) = BitVec.allOnes 32 := rfl
  unfold mergeRw
  rw [hr]
  simp only [rd_wr_same, hw, hs, hno, BitVec.and_zero, BitVec.or_zero, hall, BitVec.and_allOnes]

theorem lacEvt_clears {s : State} {i : Init} {v : Word} (h : clear s i (reg pLAC 0x088) v = true) :
    ∃ t m, exec (.registerWrite i (BitVec.ofNat 20 (reg pLAC 0x088)) 0xF v) s = .next t ∧
      (rowOf (reg pLAC 0x088)).map (·.w1c) = some m ∧
      rd t (reg pLAC 0x088) = rd s (reg pLAC 0x088) &&& ~~~(v &&& w32 m &&& ~~~(freshBits s (reg pLAC 0x088))) := by
  obtain ⟨t, ht, hrd⟩ : ∃ t, finishClock s (submitWrite s i (reg pLAC 0x088) v) = .next t ∧
      rd t (reg pLAC 0x088) = rd s (reg pLAC 0x088) &&& ~~~(v &&& w32 0x1FF &&& ~~~(freshBits s (reg pLAC 0x088))) := by
    refine row_clear_unlogged h (by decide) (logsWrite_w1 v rowOf_lacEvt rfl rfl) fun s' t hl _ hf _ hd => ?_
    rw [hd.rd, writeEffect_lacEvt, rd_mergeRw_w1c s' v rowOf_lacEvt rfl rfl, hl.rd _ (by decide), freshBits_congr hf hl.clk]
    rfl
  exact ⟨t, 0x1FF, (exec_registerWrite_whole s i _ v).trans ht, rfl, hrd⟩

/-! ### The set and clear registers of INTC (R361, R363) -/

theorem rowOf_pendSet {k : Nat} (hk : k < 8) : rowOf (reg pINTC (0x0A0 + 4 * k)) = some (rS 0x0A0 full 8) :=
  rowOf_nth (j := 18) (r := rS 0x0A0 full 8) (by decide) (by decide) hk (by decide) (by simp only [rS]; omega)

theorem rowOf_pendClr {k : Nat} (hk : k < 8) : rowOf (reg pINTC (0x0C0 + 4 * k)) = some (rC 0x0C0 full 8) :=
  rowOf_nth (j := 19) (r := rC 0x0C0 full 8) (by decide) (by decide) hk (by decide) (by simp only [rC]; omega)

theorem rowOf_maskSet {k : Nat} (hk : k < 8) : rowOf (reg pINTC (0x100 + 4 * k)) = some (rS 0x100 full 8) :=
  rowOf_nth (j := 21) (r := rS 0x100 full 8) (by decide) (by decide) hk (by decide) (by simp only [rS]; omega)

theorem rowOf_maskClr {k : Nat} (hk : k < 8) : rowOf (reg pINTC (0x120 + 4 * k)) = some (rC 0x120 full 8) :=
  rowOf_nth (j := 22) (r := rC 0x120 full 8) (by decide) (by decide) hk (by decide) (by simp only [rC]; omega)

/-- A block register of INTC takes a write by INTC's own rule. -/
theorem writeEffect_intcBlock (s : State) (i : Init) {o : Nat} {r : RegRow} (v : Word) (hr : rowOf (reg pINTC o) = some r)
    (ho : o < 4096) (hw : 0x080 ≤ o) : writeEffect s i (reg pINTC o) v = writeIntc s o v := by
  unfold writeEffect writeBlock
  dsimp only
  rw [hr, pageOf_reg _ ho, offOf_reg _ ho]
  simp [isLoopbank, pINTC, pMOD, pPROT, show ¬ o < 0x080 by omega]

/-- A W1S or W1C write to a block register of INTC that meets nothing on its way. -/
theorem intcWrite_clear {s : State} {i : Init} {o : Nat} {v : Word} {r : RegRow} (ho : o < 4096) (hlow : 0x080 ≤ o)
    (hr : rowOf (reg pINTC o) = some r) (hw : r.rw = 0) (hwo : r.wo = 0) (h : clear s i (reg pINTC o) v = true)
    {q : State → Prop}
    (hq : ∀ s' t, (∀ n < 4096, rd s' (reg pINTC n) = rd s (reg pINTC n)) → (∀ a, freshBits s' a = freshBits s a) →
      (∀ a, rd t a = rd (writeIntc s' o v) a) → q t) :
    ∃ t, finishClock s (submitWrite s i (reg pINTC o) v) = .next t ∧ q t := by
  have hlock : reg pINTC o ≠ reg pLOCK 0x090 := reg_ne_of_page (by decide) ho (by decide)
  refine row_clear_unlogged h hlock (logsWrite_w1 v hr hw hwo) fun s' t hl _ hf _ hd => hq s' t ?_ (freshBits_congr hf hl.clk) ?_
  · exact fun n hn => hl.rd _ (booked_of_page hn (by decide) (by decide))
  · intro a
    rw [hd.rd, writeEffect_intcBlock s' _ v hr ho hlow]

/-- Which word of its set a register of INTC names: the sets stand at multiples of 0x20. -/
theorem word_of_set {b k : Nat} (hb : b % 0x20 = 0) (hk : k < 8) : (b + 4 * k) % 0x20 = 4 * k := by omega

theorem intcPendSet_sets {s : State} {i : Init} {v : Word} (k : Fin 8)
    (h : clear s i (reg pINTC (0x0A0 + 4 * k.val)) v = true) :
    ∃ t, exec (.intcPendSet i k v) s = .next t ∧
      rd t (reg pINTC (0x080 + 4 * k.val)) = rd s (reg pINTC (0x080 + 4 * k.val)) ||| v := by
  have hk := k.isLt
  refine intcWrite_clear (by omega) (by omega) (rowOf_pendSet hk) rfl rfl h fun s' t hkeep _ ht => ?_
  have heff : writeIntc s' (0x0A0 + 4 * k.val) v = setBits s' (reg pINTC (0x080 + 4 * k.val)) v := by
    unfold writeIntc
    dsimp only
    rw [if_pos (by omega), word_of_set rfl hk]
  rw [ht, heff, rd_setBits_same, hkeep _ (by omega)]

theorem intcPendClr_clears {s : State} {i : Init} {v : Word} (k : Fin 8)
    (h : clear s i (reg pINTC (0x0C0 + 4 * k.val)) v = true) :
    ∃ t, exec (.intcPendClr i k v) s = .next t ∧
      rd t (reg pINTC (0x080 + 4 * k.val)) = rd s (reg pINTC (0x080 + 4 * k.val)) &&&
        ~~~(v &&& ~~~(freshBits s (reg pINTC (0x080 + 4 * k.val)))) := by
  have hk := k.isLt
  refine intcWrite_clear (by omega) (by omega) (rowOf_pendClr hk) rfl rfl h fun s' t hkeep hfresh ht => ?_
  have heff : writeIntc s' (0x0C0 + 4 * k.val) v = clearBits s' (reg pINTC (0x080 + 4 * k.val)) v := by
    unfold writeIntc
    dsimp only
    rw [if_neg (by omega), if_pos (by omega), word_of_set rfl hk]
  rw [ht, heff, rd_clearBits_same, hkeep _ (by omega), hfresh]

theorem intcMaskSet_sets {s : State} {i : Init} {v : Word} (k : Fin 8)
    (h : clear s i (reg pINTC (0x100 + 4 * k.val)) v = true) :
    ∃ t, exec (.intcMaskSet i k v) s = .next t ∧
      rd t (reg pINTC (0x0E0 + 4 * k.val)) = rd s (reg pINTC (0x0E0 + 4 * k.val)) ||| v := by
  have hk := k.isLt
  refine intcWrite_clear (by omega) (by omega) (rowOf_maskSet hk) rfl rfl h fun s' t hkeep _ ht => ?_
  have heff : writeIntc s' (0x100 + 4 * k.val) v =
      wr s' (reg pINTC (0x0E0 + 4 * k.val)) (rd s' (reg pINTC (0x0E0 + 4 * k.val)) ||| v) := by
    unfold writeIntc
    dsimp only
    rw [if_neg (by omega), if_neg (by omega), if_pos (by omega), word_of_set rfl hk]
  rw [ht, heff, rd_wr_same, hkeep _ (by omega)]

theorem intcMaskClr_clears {s : State} {i : Init} {v : Word} (k : Fin 8)
    (h : clear s i (reg pINTC (0x120 + 4 * k.val)) v = true) :
    ∃ t, exec (.intcMaskClr i k v) s = .next t ∧
      rd t (reg pINTC (0x0E0 + 4 * k.val)) = rd s (reg pINTC (0x0E0 + 4 * k.val)) &&& ~~~v := by
  have hk := k.isLt
  refine intcWrite_clear (by omega) (by omega) (rowOf_maskClr hk) rfl rfl h fun s' t hkeep _ ht => ?_
  have heff : writeIntc s' (0x120 + 4 * k.val) v =
      wr s' (reg pINTC (0x0E0 + 4 * k.val)) (rd s' (reg pINTC (0x0E0 + 4 * k.val)) &&& ~~~v) := by
    unfold writeIntc
    dsimp only
    rw [if_neg (by omega), if_neg (by omega), if_neg (by omega), if_pos (by omega), word_of_set rfl hk]
  rw [ht, heff, rd_wr_same, hkeep _ (by omega)]

/-- Settles O10: each set and clear register is the one operation of its kind on the header, or on INTC's word of the same
number. -/
theorem interruptBits : Obligations.InterruptBits := by
  unfold Obligations.InterruptBits
  exact fun s i v =>
    ⟨fun p hp => ⟨irqPendSet_sets p hp, irqPendClr_clears p hp, irqMaskSet_sets p hp, irqMaskClr_clears p hp⟩, lacEvt_clears,
      fun k => ⟨intcPendSet_sets k, intcPendClr_clears k, intcMaskSet_sets k, intcMaskClr_clears k⟩⟩

/-! ### INTC.TOPn (R362, R363) -/

/-- A candidate of a target that was pending before the fabric cycle. -/
def shownSource (s : State) (t n : Nat) : Bool := candidate s t n && srcBefore s n

/-- One source taken into the search for the highest priority. -/
def higherOf (s : State) (t : Nat) (b : Option Nat) (n : Nat) : Option Nat :=
  if shownSource s t n then
    match b with
    | none => some n
    | some m => if srcPrio s m < srcPrio s n then some n else some m
  else b

theorem topSource_eq (s : State) (t : Nat) : topSource s t =
    match (List.range 256).foldl (higherOf s t) none with
    | none => 0x3FF
    | some n => w32 (n + srcPrio s n * 65536) := rfl

/-- `b` is the first of the shown sources below `k` of highest priority, if there is one. -/
def TopBelow (s : State) (t k : Nat) (b : Option Nat) : Prop :=
  match b with
  | none => ∀ n < k, shownSource s t n = false
  | some n => n < k ∧ shownSource s t n = true ∧ ∀ m < k, shownSource s t m = true →
      srcPrio s m < srcPrio s n ∨ (srcPrio s m = srcPrio s n ∧ n ≤ m)

theorem topBelow_step {s : State} {t k : Nat} {b : Option Nat} (h : TopBelow s t k b) :
    TopBelow s t (k + 1) (higherOf s t b k) := by
  unfold higherOf
  by_cases hk : shownSource s t k = true
  · rw [if_pos hk]
    cases b with
    | none =>
      refine ⟨Nat.lt_succ_self k, hk, fun m hm hs => ?_⟩
      have hmk : ¬ m < k := fun hlt => by simp [h m hlt] at hs
      exact .inr ⟨by rw [show m = k by omega], by omega⟩
    | some n =>
      obtain ⟨hn, hshown, hbest⟩ := h
      dsimp only
      split
      case isTrue hlt =>
        refine ⟨Nat.lt_succ_self k, hk, fun m hm hs => ?_⟩
        by_cases hmk : m < k
        · have := hbest m hmk hs
          exact .inl (by omega)
        · exact .inr ⟨by rw [show m = k by omega], by omega⟩
      case isFalse hge =>
        refine ⟨by omega, hshown, fun m hm hs => ?_⟩
        by_cases hmk : m < k
        · exact hbest m hmk hs
        · rw [show m = k by omega]
          omega
  · rw [if_neg hk]
    have hlast : ∀ m < k + 1, shownSource s t m = true → m < k := fun m hm hs => by
      rcases Nat.lt_succ_iff_lt_or_eq.1 hm with hlt | rfl
      · exact hlt
      · exact absurd hs hk
    cases b with
    | none =>
      refine fun n hn => Bool.eq_false_iff.2 fun hs => ?_
      rw [h n (hlast n hn hs)] at hs
      cases hs
    | some n => exact ⟨by have := h.1; omega, h.2.1, fun m hm hs => h.2.2 m (hlast m hm hs) hs⟩

theorem topBelow_fold (s : State) (t k : Nat) : TopBelow s t k ((List.range k).foldl (higherOf s t) none) := by
  induction k with
  | zero => exact fun n hn => absurd hn (by omega)
  | succ k ih =>
    rw [List.range_succ, List.foldl_append]
    exact topBelow_step ih

theorem shownSource_iff {s : State} {t n : Nat} :
    shownSource s t n = true ↔ candidate s t n = true ∧ srcBefore s n = true := by simp [shownSource]

theorem topSource_none {s : State} {t : Nat} (h : ∀ n < 256, candidate s t n = true → srcBefore s n = false) :
    topSource s t = 0x3FF#32 := by
  rw [topSource_eq]
  have hbest := topBelow_fold s t 256
  cases hb : (List.range 256).foldl (higherOf s t) none with
  | none => rfl
  | some n =>
    rw [hb] at hbest
    obtain ⟨hn, hshown, -⟩ := hbest
    obtain ⟨hcand, hbefore⟩ := shownSource_iff.1 hshown
    rw [h n hn hcand] at hbefore
    cases hbefore

theorem topSource_some {s : State} {t m : Nat} (hm : m < 256) (hcand : candidate s t m = true) (hbefore : srcBefore s m = true) :
    ∃ n < 256, topSource s t = w32 (n + srcPrio s n * 65536) ∧ candidate s t n = true ∧ srcBefore s n = true ∧
      ∀ k < 256, candidate s t k = true → srcBefore s k = true →
        srcPrio s k < srcPrio s n ∨ (srcPrio s k = srcPrio s n ∧ n ≤ k) := by
  rw [topSource_eq]
  have hbest := topBelow_fold s t 256
  cases hb : (List.range 256).foldl (higherOf s t) none with
  | none =>
    rw [hb] at hbest
    have hno := hbest m hm
    rw [shownSource_iff.2 ⟨hcand, hbefore⟩] at hno
    cases hno
  | some n =>
    rw [hb] at hbest
    obtain ⟨hn, hshown, htop⟩ := hbest
    obtain ⟨hc, hbf⟩ := shownSource_iff.1 hshown
    exact ⟨n, hn, rfl, hc, hbf, fun k hk hkc hkb => htop k hk (shownSource_iff.2 ⟨hkc, hkb⟩)⟩

/-- A fabric cycle that has set nothing leaves every register as the cycle before did. -/
theorem rdBefore_of_stale {s : State} (h : s.fresh.1 ≠ s.clk.fabric) (a : Nat) : rdBefore s a = rd s a := by
  have hall : ~~~(0 : Word) = BitVec.allOnes 32 := rfl
  unfold rdBefore freshOf
  rw [if_neg h, hall, BitVec.and_allOnes]

theorem srcBefore_of_stale {s : State} (h : s.fresh.1 ≠ s.clk.fabric) (n : Nat) : srcBefore s n = srcPending s n := by
  unfold srcBefore srcPending pageReq irqPend
  simp only [rdBefore_of_stale h]
  rw [show rdB s (reg pINTC (0x080 + 4 * (n / 32))) (n % 32) = bit (rd s (reg pINTC (0x080 + 4 * (n / 32)))) (n % 32) from rfl]
  cases decide (n < 128) <;> cases !isLoopbank n <;> rfl

/-- Settles O11: the search keeps the first shown source of highest priority, number by number. -/
theorem topSourceIsHighest : Obligations.TopSourceIsHighest := by
  unfold Obligations.TopSourceIsHighest
  exact fun s t => ⟨topSource_none, fun m hm hc hb => topSource_some hm hc hb, srcBefore_of_stale⟩

end Sys2Proof.Proofs
end

section
/-!
PROOFS. An element that fails its power-on test (R310, R337): what step 5 of the start-up leaves of it when it still
stands in the queue of the elements that wait for a test.
-/

namespace Sys2Proof.Proofs

open Sys2Proof.Machine Sys2Proof.Laws

/-- The page record that is taken when pages are retired changes no element. -/
theorem freezePage_elems (s : State) (p : Nat) : (freezePage s p).fltm.elems = s.fltm.elems := by
  simp only [freezePage]

theorem freezeRetired_elems (s t : State) : (freezeRetired s t).fltm.elems = t.fltm.elems := by
  unfold freezeRetired
  generalize (List.range 128).filter _ = pages
  induction pages generalizing t with
  | nil => rfl
  | cons p ps ih => rw [List.foldl_cons, ih, freezePage_elems]

/-- A start-up step leaves the elements as its meaning on the state does. -/
theorem exec_startUp_elems (k : Fin 9) (x : StartUp) (s : State) :
    ∃ t, exec (.startUp k x) s = .next t ∧ ∀ w, elemSt t w = elemSt (startUpOp s (k.val + 1) x) w :=
  ⟨_, rfl, fun w => congrArg (look ElemSt.ok · w) (freezeRetired_elems s (startUpOp s (k.val + 1) x))⟩

/-- Cell 0 of the backup-domain block. -/
def backupCell : Element := ⟨0, 0, 0x7B, 0⟩

/-- Step 5 of a start-up, a cell in service waiting for the test that it asked for on this fabric cycle. -/
def startWithQueuedCell : State :=
  { State.reset with
    guard := { State.reset.guard with step := 5 }
    fltm := { State.reset.fltm with queue := [elementWord backupCell] } }

/-- The failed test of that cell. -/
def backupCellFails : StartUp := ⟨true, 0, [], [backupCell]⟩

/-- Its retirement takes its block below the minimum of R306; the block's error absorbs the queued cell and returns it to service. -/
theorem startUpOp_backupCell :
    (elemSt (startUpOp startWithQueuedCell 5 backupCellFails) (elementWord backupCell)).phase = .service := by
  decide +kernel

/-- Refutes O58: the retirement of the cell fences its block, and the block's error absorbs what waits below it, the retired cell with
it, which is in service again at the end of step 5. -/
theorem not_modesStartUpAndResets : ¬ Obligations.ModesStartUpAndResets := by
  unfold Obligations.ModesStartUpAndResets
  intro h
  obtain ⟨-, -, -, -, hstart, -⟩ := h startWithQueuedCell
  obtain ⟨-, -, -, -, -, hfive, -⟩ := hstart rfl rfl backupCellFails
  obtain ⟨-, hbad, -⟩ := hfive rfl rfl
  obtain ⟨hcell, -⟩ := hbad backupCell _ rfl rfl rfl (by decide) (by decide)
  obtain ⟨t, hexec, hphase, -⟩ := hcell (by decide)
  obtain ⟨u, hexec', helem⟩ := exec_startUp_elems 4 backupCellFails startWithQueuedCell
  cases hexec.symm.trans hexec'
  have hback : (elemSt t (elementWord backupCell)).phase = .service := by
    rw [helem]
    exact startUpOp_backupCell
  rw [hback] at hphase
  cases hphase

end Sys2Proof.Proofs
end

section
/-!
PROOFS. Requests for regions of the panel (chapter 11, R271–R273): what a write to a region record stages and commits, and what
LOAD_LUT and BALANCE leave.
-/

namespace Sys2Proof.Proofs

open Sys2Proof.Machine Sys2Proof.Laws

/-! ### Fields of registers over a request's accounts and the end of its command -/

theorem rdB_done {s u t : State} (h : Done s u t) (a i : Nat) : rdB t a i = rdB u a i := congrArg (bit · i) (h.rd a)

theorem rdF_done {s u t : State} (h : Done s u t) (a lo n : Nat) : rdF t a lo n = rdF u a lo n := congrArg (fld · lo n) (h.rd a)

/-- The pages whose registers no request accounts on. -/
theorem rd_light {s t : State} (h : Light s t) {p : Nat} (o : Nat) (ho : o < 4096) (ht : p ≠ pTOLL) (hd : p ≠ pDAYB) :
    rd t (reg p o) = rd s (reg p o) := h.rd _ (booked_of_page ho ht hd)

theorem rd64_light {s t : State} (h : Light s t) {p : Nat} (o : Nat) (ho : o + 4 < 4096) (ht : p ≠ pTOLL) (hd : p ≠ pDAYB) :
    rd64 t (reg p o) = rd64 s (reg p o) := by
  unfold rd64
  rw [rd_light h o (by omega) ht hd, show reg p o + 4 = reg p (o + 4) from reg_add p o 4, rd_light h (o + 4) ho ht hd]

/-! ### Region records -/

/-- The writable bits of the staged words of a region record. -/
def regionMask (j : Nat) : Word :=
  if j = 0 then 0x07FF07FF else if j = 1 then 0x0FFF0FFF else if j = 4 then 0xFFFF else 0xFFFFFFFF

/-- The staged words of a region record have rows of their own. -/
theorem rowOf_regionWord (r : Fin 32) (w : Fin 6) :
    ∃ row, rowOf (rgA r.val (4 * w.val)) = some row ∧ w32 row.rw = regionMask w.val := by
  have hall : ∀ (r : Fin 32) (w : Fin 6), ((rowOf (rgA r.val (4 * w.val))).map fun row => w32 row.rw) = some (regionMask w.val) := by
    decide +kernel
  obtain ⟨row, hrow, hmask⟩ := Option.map_eq_some_iff.1 (hall r w)
  exact ⟨row, hrow, hmask⟩

theorem rowOf_regionCtrl_isNone (r : Fin 32) : (rowOf (rgA r.val 0x18)).isNone = false := by
  revert r
  decide

theorem rgA_inj {r q m n : Nat} (hm : m < 0x20) (hn : n < 0x20) : rgA r m = rgA q n ↔ r = q ∧ m = n := by
  unfold rgA reg
  omega

theorem pageOf_rgA {r m : Nat} (hr : r < 32) (hm : m < 0x20) : pageOf (rgA r m) = pSGNRG := pageOf_reg _ (by omega)

theorem booked_rgA {r m : Nat} (hr : r < 32) (hm : m < 0x20) : booked (rgA r m) = false :=
  booked_of_page (by omega) (by decide) (by decide)

theorem rgA_ne_lock {r m : Nat} (hr : r < 32) (hm : m < 0x20) : rgA r m ≠ reg pLOCK 0x090 :=
  reg_ne_of_page (by decide) (by omega) (by decide)

theorem regionAt_rgA {r m : Nat} (hr : r < 32) (hm : m < 0x20) : regionAt (rgA r m) = some (r, m / 4) := by
  unfold regionAt
  rw [pageOf_rgA hr hm, rgA, offOf_reg _ (by omega), if_pos ⟨rfl, by omega, by omega⟩]
  have hrec : (0x100 + 0x20 * r + m - 0x100) / 0x20 = r := by omega
  have hword : (0x100 + 0x20 * r + m - 0x100) % 0x20 = m := by omega
  rw [hrec, hword]

/-- A write to a register of a region record is the region's own. -/
theorem writeEffect_rgA (s : State) (i : Init) {r m : Nat} (v : Word) (hr : r < 32) (hm : m < 0x20)
    (hrow : (rowOf (rgA r m)).isNone = false) : writeEffect s i (rgA r m) v = writeRegion s i.who (rgA r m) v := by
  have hblock : writeBlock s i (rgA r m) v = writeRegion s i.who (rgA r m) v := by
    unfold writeBlock
    simp only [pageOf_rgA hr hm]
    rfl
  have hoff : ¬ offOf (rgA r m) < 0x080 := by
    rw [rgA, offOf_reg _ (by omega)]
    omega
  unfold writeEffect
  dsimp only
  rw [hrow, pageOf_rgA hr hm, if_neg hoff, hblock]
  rfl

/-- A word of a region record is staged for its initiator. -/
theorem regionStage (s : State) (w : Who) (r : Fin 32) (j : Fin 6) (v : Word) :
    writeRegion s w (rgA r.val (4 * j.val)) v =
      { s with staged := ins s.staged (initKey w (rgA r.val (4 * j.val))) (v &&& regionMask j.val) } := by
  obtain ⟨row, hrow, hmask⟩ := rowOf_regionWord r j
  have hat : regionAt (rgA r.val (4 * j.val)) = some (r.val, j.val) := by
    rw [regionAt_rgA r.isLt (by omega), show 4 * j.val / 4 = j.val by omega]
  unfold writeRegion
  split
  case h_1 h =>
    have := congrArg Prod.snd (Option.some.inj (hat.symm.trans h))
    exact absurd this (by dsimp only; omega)
  case h_2 h =>
    cases hat.symm.trans h
    rw [if_pos j.isLt]
    unfold stage
    rw [hrow, ← hmask]
  case h_3 h => exact nomatch hat.symm.trans h

/-! ### GO (R272) -/

/-- The words that a GO commits. -/
def regionWords (s : State) (w : Who) (r : Nat) : List Word :=
  (List.range 6).map fun j => stagedOr s w (rgA r (4 * j)) (rd s (rgA r (4 * j)))

/-- The addresses of the staged words of a region record. -/
def regionAddrs (r : Nat) : List Nat := (List.range 6).map fun j => rgA r (4 * j)

theorem nthD_regionWords (s : State) (w : Who) (r : Nat) {j : Nat} (hj : j < 6) :
    nthD (regionWords s w r) j 0 = stagedOr s w (rgA r (4 * j)) (rd s (rgA r (4 * j))) := by
  simp [nthD, regionWords, hj]

theorem mem_regionAddrs (r : Nat) {j : Nat} (hj : j < 6) : rgA r (4 * j) ∈ regionAddrs r :=
  List.mem_map.2 ⟨j, List.mem_range.2 hj, rfl⟩

/-- GO in CTRL commits the staged words of its initiator. -/
theorem writeRegion_go (s : State) (w : Who) (r : Fin 32) {v : Word} (hgo : bit v 2 = true) :
    writeRegion s w (rgA r.val 0x18) v = rgCommit (unstage s w (regionAddrs r.val)) r.val (regionWords s w r.val) v := by
  unfold writeRegion
  rw [regionAt_rgA r.isLt (by decide)]
  exact if_pos hgo

/-- The request that words and a CTRL make. -/
def goRequest (s : State) (r : Nat) (words : List Word) (ctrl : Word) : RgnReq :=
  let w (j : Nat) : Word := nthD words j 0
  { region := r, x := fld (w 0) 0 11, y := fld (w 0) 16 11, w := fld (w 1) 0 12, h := fld (w 1) 16 12
    img := cat64 (w 3) (w 2) / 64 * 64, stride := fld (w 4) 0 16, id := w 5, safety := bit ctrl 1, merge := bit ctrl 0
    seq := s.sgn.seq + 1 }

/-- The record as a commit writes it, its request counted. -/
def recordWritten (s : State) (r : Nat) (words : List Word) (ctrl : Word) : State :=
  let t := wr ((List.range 6).foldl (fun t j => wr t (rgA r (4 * j)) (nthD words j 0)) s) (rgA r 0x18) (ctrl &&& 3)
  setSgn t { t.sgn with seq := t.sgn.seq + 1 }

/-- The flags of a region whose new request waits behind `running` work and replaces a queued one. -/
def waitFlags (s : State) (r : Nat) (behind replaces : Bool) : State :=
  let s := if behind then wrB s (rgA r 0x1C) 3 true else s
  if replaces then wrB s (rgA r 0x1C) 4 true else s

theorem foldl_wr_sgn (l : List Nat) (f : Nat → Nat) (g : Nat → Word) (s : State) :
    (l.foldl (fun t j => wr t (f j) (g j)) s).sgn = s.sgn := by
  induction l generalizing s with
  | nil => rfl
  | cons x xs ih => exact ih _

theorem recordWritten_sgn (s : State) (r : Nat) (words : List Word) (ctrl : Word) :
    (recordWritten s r words ctrl).sgn = { s.sgn with seq := s.sgn.seq + 1 } := by
  unfold recordWritten setSgn
  simp only [wr_sgn, foldl_wr_sgn]

theorem recordWritten_staged (s : State) (r : Nat) (words : List Word) (ctrl : Word) :
    (recordWritten s r words ctrl).staged = s.staged := by
  have hfold : ∀ (l : List Nat) (u : State), (l.foldl (fun t j => wr t (rgA r (4 * j)) (nthD words j 0)) u).staged = u.staged := by
    intro l
    induction l with
    | nil => exact fun u => rfl
    | cons x xs ih => exact fun u => ih _
  exact hfold _ s

theorem rd_recordWritten_word (s : State) (r : Nat) (words : List Word) (ctrl : Word) {j : Nat} (hj : j < 6) :
    rd (recordWritten s r words ctrl) (rgA r (4 * j)) = nthD words j 0 := by
  have hne : rgA r (4 * j) ≠ rgA r 0x18 := fun h => by
    have := (rgA_inj (by omega) (by omega)).1 h
    omega
  refine (rd_wr_other _ _ hne).trans ?_
  refine rd_foldl_wr_mem (f := fun j => rgA r (4 * j)) (List.range 6) (List.mem_range.2 hj) (fun k hk h => ?_) s
  have : 4 * k = 4 * j := ((rgA_inj (by have := List.mem_range.1 hk; omega) (by omega)).1 h).2
  rw [show k = j by omega]

theorem rd_recordWritten_ctrl (s : State) (r : Nat) (words : List Word) (ctrl : Word) :
    rd (recordWritten s r words ctrl) (rgA r 0x18) = ctrl &&& 3 := rd_wr_same _ _ _

/-- A commit: the record is written; a MERGE or SAFETY request joins, another is the region's queued one. -/
theorem rgCommit_eq (s : State) (r : Nat) (words : List Word) (ctrl : Word) :
    rgCommit s r words ctrl =
      let q := goRequest s r words ctrl
      let u := recordWritten s r words ctrl
      if bit ctrl 0 = true ∨ bit ctrl 1 = true then setSgn u { u.sgn with joining := u.sgn.joining ++ [q] }
      else
        let t := waitFlags u r (decide ((get? u.sgn.running r).isSome ∨ reqBusy u q ∨ heldBack u))
          (get? u.sgn.queued r).isSome
        setSgn t { t.sgn with queued := ins t.sgn.queued r q } := by
  have hseq : ∀ u : State, u.sgn = s.sgn → goRequest u r words ctrl = goRequest s r words ctrl := fun u h => by
    unfold goRequest
    rw [h]
  unfold rgCommit
  dsimp only
  rw [← hseq _ (show (wr ((List.range 6).foldl (fun t j => wr t (rgA r (4 * j)) (nthD words j 0)) s) (rgA r 0x18) (ctrl &&& 3)).sgn
    = s.sgn from foldl_wr_sgn _ _ _ s)]
  unfold waitFlags
  simp only [decide_eq_true_eq]
  rfl

/-- What the flags leave beside the region's STAT. -/
theorem waitFlags_keeps (s : State) (r : Nat) (behind replaces : Bool) :
    (waitFlags s r behind replaces).sgn = s.sgn ∧ (waitFlags s r behind replaces).staged = s.staged ∧
      ∀ a, a ≠ rgA r 0x1C → rd (waitFlags s r behind replaces) a = rd s a := by
  unfold waitFlags
  cases behind <;> cases replaces <;> refine ⟨rfl, rfl, fun a ha => ?_⟩
  · rfl
  · exact rd_wrB_other _ _ _ ha
  · exact rd_wrB_other _ _ _ ha
  · exact (rd_wrB_other _ _ _ ha).trans (rd_wrB_other _ _ _ ha)

theorem rdB_waitFlags_behind (s : State) (r : Nat) (replaces : Bool) :
    rdB (waitFlags s r true replaces) (rgA r 0x1C) 3 = true := by
  unfold waitFlags
  cases replaces
  · exact rdB_wrB_same _ _ (by decide)
  · exact (rdB_wrF_outside _ _ _ (by decide) (.inl (by decide))).trans (rdB_wrB_same _ _ (by decide))

theorem rdB_waitFlags_replaces (s : State) (r : Nat) (behind : Bool) :
    rdB (waitFlags s r behind true) (rgA r 0x1C) 4 = true := rdB_wrB_same _ _ (by decide)

/-- What a commit leaves. -/
structure GoCommitted (s : State) (r : Nat) (words : List Word) (ctrl : Word) (t : State) : Prop where
  words_eq : ∀ j < 6, rd t (rgA r (4 * j)) = nthD words j 0
  ctrl_eq : rd t (rgA r 0x18) = ctrl &&& 3
  staged : t.staged = s.staged
  running : t.sgn.running = s.sgn.running
  busy : t.sgn.busy = s.sgn.busy
  joins : bit ctrl 0 = true ∨ bit ctrl 1 = true →
    t.sgn.joining = s.sgn.joining ++ [goRequest s r words ctrl] ∧ t.sgn.queued = s.sgn.queued
  queues : bit ctrl 0 = false → bit ctrl 1 = false →
    get? t.sgn.queued r = some (goRequest s r words ctrl) ∧ t.sgn.joining = s.sgn.joining ∧
      ((get? s.sgn.running r).isSome = true → rdB t (rgA r 0x1C) 3 = true) ∧
      ((get? s.sgn.queued r).isSome = true → rdB t (rgA r 0x1C) 4 = true)

theorem rgCommit_committed (s : State) (r : Nat) (words : List Word) (ctrl : Word) :
    GoCommitted s r words ctrl (rgCommit s r words ctrl) := by
  rw [rgCommit_eq]
  dsimp only
  have hsgn := recordWritten_sgn s r words ctrl
  have hstaged := recordWritten_staged s r words ctrl
  have hword := fun j hj => rd_recordWritten_word s r words ctrl (j := j) hj
  have hctrl := rd_recordWritten_ctrl s r words ctrl
  revert hsgn hstaged hword hctrl
  generalize recordWritten s r words ctrl = u
  intro hsgn hstaged hword hctrl
  have hrunning : u.sgn.running = s.sgn.running := by rw [hsgn]
  have hbusy : u.sgn.busy = s.sgn.busy := by rw [hsgn]
  have hjoining : u.sgn.joining = s.sgn.joining := by rw [hsgn]
  have hqueued : u.sgn.queued = s.sgn.queued := by rw [hsgn]
  split
  case isTrue hjoin =>
    refine ⟨hword, hctrl, hstaged, hrunning, hbusy, fun _ => ⟨?_, hqueued⟩, fun hm hs => ?_⟩
    · exact congrArg (· ++ _) hjoining
    · rw [hm, hs] at hjoin
      simp at hjoin
  case isFalse hqueue =>
    rw [hrunning, hqueued]
    obtain ⟨hflags, hst, hrd⟩ := waitFlags_keeps u r
      (decide ((get? s.sgn.running r).isSome = true ∨ reqBusy u (goRequest s r words ctrl) = true ∨ heldBack u = true))
      (get? s.sgn.queued r).isSome
    have hne : ∀ m, m < 0x1C → rgA r m ≠ rgA r 0x1C := fun m hm h => by
      have := (rgA_inj (by omega) (by decide)).1 h
      omega
    refine ⟨fun j hj => (hrd _ (hne _ (by omega))).trans (hword j hj), (hrd _ (hne _ (by decide))).trans hctrl, hst.trans hstaged,
      (congrArg _ hflags).trans hrunning, (congrArg _ hflags).trans hbusy, fun h => absurd h hqueue, fun _ _ =>
        ⟨get?_ins_same _ _ _, (congrArg _ hflags).trans hjoining, fun hrun => ?_, fun hold => ?_⟩⟩
    · rw [decide_eq_true (Or.inl hrun)]
      exact rdB_waitFlags_behind u r _
    · rw [hold]
      exact rdB_waitFlags_replaces u r _

/-- REGION_GO commits the words of its initiator as they stand once the request is accounted for. -/
theorem exec_regionGo {s : State} {i : Init} {r : Fin 32} {v : Word} (h : clear s i (rgA r.val 0x18) v = true)
    (hgo : bit v 2 = true) :
    ∃ t, exec (.regionGo i r v) s = .next t ∧ ∃ u, Light s u ∧
      Done s (rgCommit (unstage u i.who (regionAddrs r.val)) r.val (regionWords u i.who r.val) v) t := by
  refine row_clear h (rgA_ne_lock r.isLt (by decide)) fun s' t hl hd => ⟨s', hl, ?_⟩
  rwa [writeEffect_rgA s' _ v r.isLt (by decide) (rowOf_regionCtrl_isNone r), writeRegion_go _ _ _ hgo] at hd

theorem lutBase_light {s t : State} (h : Light s t) : lutBase t = lutBase s :=
  rd64_light h 0x094 (by decide) (by decide) (by decide)

/-- Settles O53: each clause is the effect of its register on the state with the accounts of its request. -/
theorem regionRequests : Obligations.RegionRequests := by
  unfold Obligations.RegionRequests
  refine fun s i => ⟨fun r w v h => ?_, fun r v W h hgo hW => ?_, fun h => ?_, fun h => ?_⟩
  · have hrow : (rowOf (rgA r.val (4 * w.val))).isNone = false := by
      obtain ⟨row, hrow, -⟩ := rowOf_regionWord r w
      rw [hrow]
      rfl
    refine row_clear h (rgA_ne_lock r.isLt (by omega)) fun s' t hl hd => ?_
    rw [writeEffect_rgA s' _ v r.isLt (by omega) hrow, regionStage] at hd
    refine ⟨?_, hd.sgn.trans hl.sgn, fun j hj => (hd.rd _).trans (hl.rd _ (booked_rgA r.isLt (by omega)))⟩
    rw [stagedOr_congr hd.staged, stagedOr, get?_ins_same]
    rfl
  · obtain ⟨t, hexec, u, hl, hd⟩ := exec_regionGo h hgo
    have hc := rgCommit_committed (unstage u i.who (regionAddrs r.val)) r.val (regionWords u i.who r.val) v
    have hwords : ∀ j < 6, nthD (regionWords u i.who r.val) j 0 = W j := fun j hj => by
      rw [nthD_regionWords _ _ _ hj, hW, stagedOr_congr hl.staged, hl.rd _ (booked_rgA r.isLt (by omega))]
    have hrect := hwords 0 (by decide)
    have hsize := hwords 1 (by decide)
    refine ⟨t, goRequest (unstage u i.who (regionAddrs r.val)) r.val (regionWords u i.who r.val) v, hexec,
      fun j hj => ⟨?_, ?_⟩, (hd.rd _).trans hc.ctrl_eq, rfl, congrArg (fld · 0 11) hrect, congrArg (fld · 16 11) hrect,
      congrArg (fld · 0 12) hsize, congrArg (fld · 16 12) hsize, congrArg (fld · 0 16) (hwords 4 (by decide)),
      hwords 5 (by decide), rfl, rfl, ?_⟩
    · rw [hd.rd, hc.words_eq j hj, hwords j hj]
    · rw [hd.staged, hc.staged]
      exact get?_unstage_mem _ (mem_regionAddrs _ hj) _
    · have hsgn : (unstage u i.who (regionAddrs r.val)).sgn = s.sgn := hl.sgn
      have hrunning := hc.running
      have hbusy := hc.busy
      have hjoins := hc.joins
      have hqueues := hc.queues
      rw [hsgn, ← hd.sgn] at hrunning hbusy hjoins hqueues
      simp only [← rdB_done hd] at hqueues
      exact ⟨hrunning, hbusy, hjoins, hqueues⟩
  · refine row_clear h (by decide) fun s' t hl hd => ?_
    have heff : writeEffect s' ⟨i.who, clsFor s i⟩ (reg pSGN 0x0A8) 1 = loadLutOp s' := rfl
    rw [heff] at hd
    refine ⟨(rdB_done hd _ _).trans (rdB_wrB_same _ _ (by decide)), ?_⟩
    rw [hd.rd, loadLutOp, rd_wrB_other _ _ _ (by decide), rd_wr_same, ramBytes_congr hl.dram, lutBase_light hl]
  · refine row_clear h (by decide) fun s' t hl hd => ?_
    have heff : writeEffect s' ⟨i.who, clsFor s i⟩ (reg pSGN 0x0A8) 2 = balanceOp s' := rfl
    rw [heff] at hd
    exact congrArg Sgn.balReq hd.sgn

end Sys2Proof.Proofs
end

section
/-!
PROOFS. PG_CTRL (chapter 15, R351, R360): what a write of ENABLE leaves where the page list marks it writable and elsewhere, and what
SOFT_RESET discards.
-/

namespace Sys2Proof.Proofs

open Sys2Proof.Machine Sys2Proof.Laws

/-- A write to PG_CTRL of a page with a header that meets nothing on its way. -/
theorem pgCtrl_clear {s : State} {i : Init} {p : Nat} {v : Word} (hp : headed p = true)
    (h : clear s i (reg p 0x008) v = true) {q : State → Prop}
    (hq : ∀ s' t, Light s s' → Done s (writeHeader s' p 0x008 v) t → q t) :
    ∃ t, finishClock s (submitWrite s i (reg p 0x008) v) = .next t ∧ q t := by
  refine row_clear h (by unfold reg pLOCK; omega) fun s' t hl hd => hq s' t hl ?_
  rwa [writeEffect_header s' _ v hp (by decide) (by decide)] at hd

/-- ENABLE as a write leaves it: written where it is writable, and as it stood elsewhere. -/
theorem enabled_pageEnableSet (s : State) (p : Nat) (on : Bool) :
    enabled (pageEnableSet s p on) p = if enableWritable p then on else enabled s p := by
  unfold pageEnableSet
  dsimp only
  split
  case isTrue hkeep =>
    cases hw : enableWritable p with
    | false => rfl
    | true =>
      rw [hw] at hkeep
      exact hkeep.resolve_left (by decide)
  case isFalse hset =>
    have hw : enableWritable p = true := by
      by_contra hno
      exact hset (.inl (by rw [Bool.not_eq_true] at hno; rw [hno]; rfl))
    rw [hw]
    exact rdB_wrB_same _ _ (by decide)

/-- A write of PG_CTRL without SOFT_RESET. -/
theorem writeHeader_enable (s : State) (p : Nat) (on : Bool) : writeHeader s p 0x008 (w32 (b2n on)) = pageEnableSet s p on := by
  cases on <;> rfl

/-- A write of PG_CTRL with SOFT_RESET. -/
theorem writeHeader_restart (s u : State) (p : Nat) :
    writeHeader s p 0x008 (restartWord u p) = softReset (pageEnableSet s p (enabled u p)) p := by
  unfold restartWord
  cases enabled u p <;> rfl

/-! ### SOFT_RESET (R307, R351, R360) -/

/-- A restart leaves no staged word of the pages of its block. -/
theorem staged_blockRestart (s : State) (p : Nat) :
    ∀ e ∈ (blockRestart s p).staged, blockPage (pageOf (e.1 % 2 ^ 20)) ≠ blockPage p := by
  intro e he
  have hkept := (List.mem_filter.1 he).2
  simpa using hkept

/-- A restart of the angle event table's block leaves no deferred action. -/
theorem deferred_softReset (s : State) : (softReset s pAET).lac.deferred = [] := by
  have hcount : ∀ (u : State) (n : Nat), (countDiscard u pAET n).lac = u.lac := fun u n => by
    unfold countDiscard
    split <;> rfl
  have hrestart : ∀ u : State, (blockRestart u pAET).lac = u.lac := fun u => rfl
  have hdiscard : ∀ u : State, (blockDiscard u pAET).lac.deferred = [] := fun u => congrArg Lac.deferred (hcount _ _)
  exact (congrArg Lac.deferred (hrestart _)).trans (hdiscard _)

/-- Settles O12: PG_CTRL is written on the state with the accounts of its request, whose headers stand as they stood. -/
theorem pageEnableAndRestart : Obligations.PageEnableAndRestart := by
  unfold Obligations.PageEnableAndRestart
  refine fun s i p hp => ⟨fun on h => ?_, fun h => ?_⟩
  · refine pgCtrl_clear hp h fun s' t hl hd => ?_
    rw [writeHeader_enable] at hd
    have hstood : enabled s' p.val = enabled s p.val := congrArg (bit · 0) (hl.rd _ (booked_header (by decide)))
    exact (rdB_done hd _ 0).trans ((enabled_pageEnableSet s' p.val on).trans (by rw [hstood]))
  · refine pgCtrl_clear hp h fun s' t _ hd => ?_
    rw [writeHeader_restart] at hd
    refine ⟨fun e he => ?_, fun haet => ?_⟩
    · rw [hd.staged] at he
      exact staged_blockRestart _ _ e he
    · rw [hd.lac, haet]
      exact deferred_softReset _

end Sys2Proof.Proofs
end

section
/-!
PROOFS. The frame of the session service and of the answers to requests (chapters 1 and 9, R29, R224–R238, R358): what closing
sessions, sending to them and answering requests leave as it stands.
-/

namespace Sys2Proof.Proofs

open Sys2Proof.Machine Sys2Proof.Laws

/-- The pages on which requests, their answers and the sessions show: TOLL, DAYB, OPX, UPD and HOSTP. -/
def answerPage (p : Nat) : Bool := p == pTOLL || p == pDAYB || p == pOPX || p == pUPD || p == pHOSTP

/-- The fault registers of a page header (R300, R303): FLT_STAT, FLT_CAPT and FLT_COUNT; TOLL's FLT_CAPT holds the record of a budget
fault (R26). -/
def faultHead (a : Nat) : Bool :=
  decide (0x028 ≤ offOf a ∧ offOf a < 0x038) && !(pageOf a == pTOLL && (offOf a == 0x02C || offOf a == 0x030))

/-- The registers of those pages that requests, answers and sessions may change. -/
def answerReg (a : Nat) : Bool := answerPage (pageOf a) && !faultHead a

theorem faultHead_of_off {a : Nat} (h : 0x038 ≤ offOf a) : faultHead a = false := by
  unfold faultHead
  rw [decide_eq_false (by omega), Bool.false_and]

theorem faultHead_reg {p o : Nat} (ho : o < 4096) (h : 0x038 ≤ o) : faultHead (reg p o) = false :=
  faultHead_of_off (by rwa [offOf_reg p ho])

theorem faultHead_evtAddr {p a : Nat} (h : evtAddr p = some a) : faultHead a = false := by
  unfold evtAddr at h
  split_ifs at h <;> cases h <;> exact faultHead_reg (by decide) (by decide)

theorem answerReg_of_page {a : Nat} (h : answerPage (pageOf a) = false) : answerReg a = false := by
  rw [answerReg, h, Bool.false_and]

/-- One state is another after messages and answers: beside the accounts, the ports, the sessions, the update lease, what initiators
have staged and latched, and the answers themselves, nothing has changed, and no request has come to wait. -/
structure Apart (s t : State) : Prop where
  rest : t = { s with regs := t.regs, staged := t.staged, latch := t.latch, toll := t.toll, dayb := t.dayb, eth := t.eth
                      opx := t.opx, upd := t.upd, fresh := t.fresh, replies := t.replies }
  held : t.toll.held = s.toll.held
  waiting : ∀ r ∈ t.toll.waiting, r ∈ s.toll.waiting
  rd : ∀ a, answerReg a = false → rd t a = rd s a

section

variable {s t u : State}

theorem Apart.refl (s : State) : Apart s s := ⟨rfl, rfl, fun _ h => h, fun _ _ => rfl⟩

theorem Apart.trans (h : Apart s t) (k : Apart t u) : Apart s u where
  rest := by
    rw [k.rest, h.rest]
  held := k.held.trans h.held
  waiting := fun r hr => h.waiting r (k.waiting r hr)
  rd := fun a ha => (k.rd a ha).trans (h.rd a ha)

theorem Apart.foldl {α : Type} {f : State → α → State} (l : List α) (h : ∀ s, ∀ x ∈ l, Apart s (f s x)) (s : State) :
    Apart s (l.foldl f s) := by
  induction l generalizing s with
  | nil => exact .refl s
  | cons x xs ih =>
    exact (h s x List.mem_cons_self).trans (ih (fun t y hy => h t y (List.mem_cons_of_mem _ hy)) (f s x))

theorem Apart.wr (h : Apart s t) {a : Nat} (v : Word) (ha : answerReg a = true) : Apart s (wr t a v) :=
  h.trans ⟨rfl, rfl, fun _ hr => hr, fun b hb => rd_wr_other t v fun e => by rw [e, ha] at hb; cases hb⟩

theorem Apart.wrF (h : Apart s t) {a : Nat} (lo n v : Nat) (ha : answerReg a = true) : Apart s (wrF t a lo n v) :=
  h.wr _ ha
theorem Apart.wrB (h : Apart s t) {a : Nat} (i : Nat) (b : Bool) (ha : answerReg a = true) : Apart s (wrB t a i b) :=
  h.wr _ ha
theorem Apart.bump (h : Apart s t) {a : Nat} (ha : answerReg a = true) : Apart s (bump t a) := h.wr _ ha

theorem Apart.ev (h : Apart s t) {p : Nat} (b : Nat) (hp : answerPage p = true) : Apart s (ev t p b) := by
  unfold Machine.ev
  split
  · rename_i a ha
    have hpage : answerReg a = true := by
      rw [answerReg, pageOf_evtAddr ha, hp, faultHead_evtAddr ha]
      rfl
    exact h.trans ⟨rfl, rfl, fun _ hr => hr, fun c hc => rd_setBits_other t _ fun e => by rw [e, hpage] at hc; cases hc⟩
  · exact h

/-- The accounts of a request. -/
theorem apart_of_light (h : Light s t) : Apart s t where
  rest := by
    obtain ⟨⟩ := s
    obtain ⟨⟩ := t
    cases h
    simp_all
  held := h.held
  waiting := fun r hr => by rwa [h.waiting] at hr
  rd := fun a ha => h.rd a (by
    cases hb : booked a with
    | false => rfl
    | true =>
      have hpage : answerPage (pageOf a) = true ∧ 0x038 ≤ offOf a := by
        unfold booked at hb
        simp only [Bool.or_eq_true, Bool.and_eq_true, beq_iff_eq, decide_eq_true_eq] at hb
        rcases hb with ⟨hp, ho⟩ | ⟨hp, ho⟩ <;> rw [hp] <;> exact ⟨rfl, by omega⟩
      rw [answerReg, hpage.1, faultHead_of_off hpage.2] at ha
      cases ha)

/-! ### Sessions closed, and messages sent -/

theorem apart_leaseEnd (s : State) : Apart s (leaseEnd s) := by
  have hgone : Apart s (leaseGone s) := by
    have hfree : Apart s { s with upd := { s.upd with lease := none } } := ⟨rfl, rfl, fun _ h => h, fun _ _ => rfl⟩
    have hclears := ((hfree.wr (a := reg pUPD 0x09C) 0 (by decide)).wr (a := reg pUPD 0x0A0) 0 (by decide)).wr
      (a := reg pUPD 0x0A4) 0 (by decide)
    unfold leaseGone leaseShow
    exact ((hclears.wrB _ _ (by decide)).wrB _ _ (by decide)).ev 6 (by decide)
  have hclear (t : State) : Apart t (updClear t) := ⟨rfl, rfl, fun _ h => h, fun _ _ => rfl⟩
  have hev := hgone.ev (p := pUPD) 3 (by decide)
  unfold leaseEnd
  dsimp only
  split
  · exact .refl s
  · split
    · exact ((hev.wrF 8 4 8 (by decide)).trans (hclear _)).wrF 0 3 0 (by decide)
    · exact hev

theorem apart_closeFree (s : State) (n : Nat) : Apart s (closeFree s n) := by
  unfold closeFree
  dsimp only
  split
  · exact .refl s
  · refine .ev ?_ 1 (by decide)
    have hslot : ∀ (x : Opx) (st lt : List (Nat × Word)) (as : List Assembly) (p : Req → Bool),
        Apart s { s with opx := x, staged := st, latch := lt
                         toll := { s.toll with waiting := s.toll.waiting.filter p, asm := as } } :=
      fun x st lt as p => ⟨rfl, rfl, fun r hr => (List.mem_filter.1 hr).1, fun _ _ => rfl⟩
    split
    · unfold updLog logHw
      exact ((hslot _ _ _ _ _).trans (apart_leaseEnd _)).trans (apart_of_light (light_logMade _ _ _))
    · exact hslot _ _ _ _ _

theorem apart_closeSession (s : State) (n : Nat) : Apart s (closeSession s n) := by
  unfold closeSession closeAs
  split
  · exact (apart_closeFree s n).trans (apart_of_light (light_logMade _ _ _))
  · exact .refl s

theorem apart_dropFrames (s : State) (n : Nat) : Apart s (dropFrames s n) := by
  have hports : ∀ e : List (Nat × EthPort), Apart s { s with eth := e } := fun e => ⟨rfl, rfl, fun _ h => h, fun _ _ => rfl⟩
  exact hports _

theorem apart_closeMute (s : State) (n : Nat) : Apart s (closeMute s n) := (apart_closeSession s n).trans (apart_dropFrames _ n)

theorem apart_closeAll (s : State) : Apart s (closeAll s) := Apart.foldl _ (fun t n _ => apart_closeMute t n) s

theorem apart_closeBySlot (s : State) (k : Nat) : Apart s (closeBySlot s k) := Apart.foldl _ (fun t n _ => apart_closeMute t n) s

theorem apart_opxSend (s : State) (n ty fl : Nat) (c : Cls) (req out : Nat) (body : List Byte) :
    Apart s (opxSend s n ty fl c req out body) := by
  unfold opxSend opxSendAt
  dsimp only
  split
  · exact .refl s
  · split
    · exact apart_closeSession s n
    · have hcount : ∀ (x y : Opx) (e : List (Nat × EthPort)),
          Apart s { Machine.bump { s with opx := x, eth := e } (reg pOPX 0x0AC) with opx := y } := fun x y e =>
        Apart.trans (t := Machine.bump { s with opx := x, eth := e } (reg pOPX 0x0AC))
          (Apart.bump (t := { s with opx := x, eth := e }) ⟨rfl, rfl, fun _ h => h, fun _ _ => rfl⟩ (by decide))
          ⟨rfl, rfl, fun _ h => h, fun _ _ => rfl⟩
      exact hcount _ _ _

/-! ### Answers -/

theorem apart_asmReply (s : State) (m : Assembly) : Apart s (asmReply s m) := by
  unfold asmReply
  dsimp only
  split
  · exact ⟨rfl, rfl, fun _ h => h, fun _ _ => rfl⟩
  · split
    · exact apart_opxSend s _ _ _ _ _ _ _
    · exact apart_opxSend s _ _ _ _ _ _ _

theorem apart_withAsm (s : State) (l : List Assembly) : Apart s { s with toll := { s.toll with asm := l } } :=
  ⟨rfl, rfl, fun _ h => h, fun _ _ => rfl⟩

theorem apart_asmFlush (s : State) : Apart s (asmFlush s) :=
  (apart_withAsm s _).trans (Apart.foldl _ (fun t m _ => apart_asmReply t m) _)

theorem apart_asmJoin (s : State) (mine : Assembly → Bool) (k : Nat) (a : Answer) : Apart s (asmJoin s mine k a) :=
  (apart_withAsm s _).trans (apart_asmFlush _)

theorem apart_hostRecord (s : State) (off : Nat) (isWr : Bool) (out : Nat) : Apart s (hostRecord s off isWr out) := by
  have hwrite : ∀ x y, Apart s (Machine.ev (Machine.bump (Machine.wr (Machine.wr s (reg pHOSTP 0x08C) x) (reg pHOSTP 0x090) y)
      (reg pHOSTP 0x0A8)) pHOSTP 2) := fun x y =>
    ((((Apart.refl s).wr x (by decide)).wr y (by decide)).bump (by decide)).ev 2 (by decide)
  have hread : ∀ x y, Apart s (Machine.wr (Machine.wr s (reg pHOSTP 0x094) x) (reg pHOSTP 0x098) y) := fun x y =>
    ((Apart.refl s).wr x (by decide)).wr y (by decide)
  unfold hostRecord
  dsimp only
  split
  · exact .refl s
  · split
    · exact hwrite _ _
    · split
      · exact (hread _ _).bump (by decide)
      · exact hread _ _

theorem apart_withReplies (s : State) (l : List Reply) : Apart s { s with replies := l } := ⟨rfl, rfl, fun _ h => h, fun _ _ => rfl⟩

theorem apart_answer (s : State) (r : Req) (out : Nat) (d : List Word) : Apart s (answer s r out d) := by
  unfold answer
  dsimp only
  split
  · exact .refl s
  · split
    · exact apart_hostRecord s _ _ _
    · exact (apart_hostRecord s _ _ _).trans (apart_withReplies _ _)
  · exact apart_asmJoin s _ _ _
  · exact apart_asmJoin s _ _ _
  · exact apart_withReplies _ _

theorem apart_msgReply (s : State) (n sq out : Nat) : Apart s (msgReply s n sq out) := by
  have hinbox : ∀ l : List OpxMsg, Apart s { s with opx := { s.opx with inbox := l } } := fun l =>
    ⟨rfl, rfl, fun _ h => h, fun _ _ => rfl⟩
  unfold msgReply
  split
  · exact .refl s
  · dsimp only
    split
    · exact hinbox _
    · exact (hinbox _).trans (apart_opxSend _ _ _ _ _ _ _ _)

theorem apart_discardReq (s : State) (r : Req) : Apart s (discardReq s r) := by
  unfold discardReq
  dsimp only
  split
  · exact apart_msgReply s _ _ _
  · exact apart_answer s _ _ _

theorem apart_countDiscard (s : State) {p : Nat} (n : Nat) (hp : answerPage p = true) : Apart s (countDiscard s p n) := by
  unfold countDiscard
  split
  · exact .refl s
  · refine (Apart.refl s).wr _ ?_
    rw [answerReg, pageOf_reg _ (by decide), hp, faultHead_reg (by decide) (by decide)]
    rfl

/-- Requests that wait and are discarded end with their answers. -/
theorem apart_reqDiscard (s : State) {p : Nat} (sel : Req → Bool) (hp : answerPage p = true) : Apart s (reqDiscard s p sel) := by
  have hkept : Apart s { s with toll := { s.toll with waiting := s.toll.waiting.filter fun r => !sel r } } :=
    ⟨rfl, rfl, fun r hr => (List.mem_filter.1 hr).1, fun _ _ => rfl⟩
  exact (hkept.trans (Apart.foldl _ (fun t r _ => apart_discardReq t r) _)).trans (apart_countDiscard _ _ hp)

/-- None of the discarded requests waits any longer. -/
theorem waiting_reqDiscard (s : State) (p : Nat) (sel : Req → Bool) : ∀ r ∈ (reqDiscard s p sel).toll.waiting, sel r = false := by
  have hgone := Apart.foldl (f := discardReq) (s.toll.waiting.filter sel) (fun t r _ => apart_discardReq t r)
    { s with toll := { s.toll with waiting := s.toll.waiting.filter fun r => !sel r } }
  have hcount : ∀ (u : State) (n : Nat), (countDiscard u p n).toll = u.toll := fun u n => by
    unfold countDiscard
    split <;> rfl
  intro r hr
  rw [reqDiscard, hcount] at hr
  simpa using (List.mem_filter.1 (hgone.waiting r hr)).2

/-! ### What stands -/

theorem Apart.clk (h : Apart s t) : t.clk = s.clk := by rw [h.rest]
theorem Apart.guard (h : Apart s t) : t.guard = s.guard := by rw [h.rest]
theorem Apart.dram (h : Apart s t) : t.dram = s.dram := by rw [h.rest]
theorem Apart.lac (h : Apart s t) : t.lac = s.lac := by rw [h.rest]
theorem Apart.loom (h : Apart s t) : t.loom = s.loom := by rw [h.rest]
theorem Apart.pts (h : Apart s t) : t.pts = s.pts := by rw [h.rest]
theorem Apart.vault (h : Apart s t) : t.vault = s.vault := by rw [h.rest]
theorem Apart.fltm (h : Apart s t) : t.fltm = s.fltm := by rw [h.rest]
theorem Apart.pins (h : Apart s t) : t.pins = s.pins := by rw [h.rest]

end

end Sys2Proof.Proofs
end

section
/-!
PROOFS. Sleep and wake, the host link, PERST and the service port (chapter 15, R347, R348, R358, R365).
-/

namespace Sys2Proof.Proofs

open Sys2Proof.Machine Sys2Proof.Laws

variable {s t u : State}

/-! ### SLEEP.GO (R365) -/

theorem wakeEn_light (h : Light s t) {n : Nat} (hn : n < 256) : wakeEn t n = wakeEn s n :=
  congrArg (bit · (n % 32)) (rd_light h (p := pINTC) (0x140 + 4 * (n / 32)) (by omega) (by decide) (by decide))

/-- A request's accounts make no source pending but the Daybook's. -/
theorem srcPending_light (h : Light s t) {n : Nat} (hn : n < 256) (hd : n ≠ pDAYB) : srcPending t n = srcPending s n := by
  have hlatch := rd_light h (p := pINTC) (0x080 + 4 * (n / 32)) (by omega) (by decide) (by decide)
  have hpend : n < 128 → pageReq t n = pageReq s n := fun h128 => by
    have hevt : ∀ e, evtAddr n = some e → rd t e = rd s e := fun e he => by
      obtain ⟨hpage, hlow, hoff⟩ := evtAddr_page h128 he
      refine h.rd e ?_
      unfold booked
      simp [hpage, hd, Nat.not_le.2 hoff]
    unfold pageReq irqPend
    rw [h.rd _ (booked_header (by decide)), h.rd _ (booked_header (by decide))]
    cases he : evtAddr n with
    | none => rfl
    | some e => simp only [hevt e he]
  unfold srcPending rdB
  rw [hlatch]
  by_cases h128 : n < 128
  · rw [hpend h128]
  · rw [decide_eq_false h128, Bool.false_and, Bool.false_and]

theorem sleepResult_light (h : Light s t) (hd : wakeEn s pDAYB = false) : sleepResult t = sleepResult s := by
  have hany : ((List.range 256).any fun n => wakeEn t n && srcPending t n) =
      (List.range 256).any fun n => wakeEn s n && srcPending s n := by
    rw [Bool.eq_iff_iff]
    simp only [List.any_eq_true, List.mem_range]
    refine exists_congr fun n => and_congr_right fun hn => ?_
    rw [wakeEn_light h hn]
    by_cases hday : n = pDAYB
    · rw [hday, hd]
      rfl
    · rw [srcPending_light h hn hday]
  unfold sleepResult roleSet mFLOOR mDISTRICT
  rw [h.guard, hany]

theorem sleepResult_role (h : roleSet s = true ∨ s.guard.safe = true) : sleepResult s = 2 := if_pos h

/-- A quiet module sleeps. -/
theorem sleepOp_sleeps (h : sleepResult s = 1) : (sleepOp s).guard.asleep = true := by
  unfold sleepOp
  rw [h]
  dsimp only
  split
  case isTrue hkeep => exact hkeep.resolve_left (by decide)
  case isFalse => rfl

/-- SLEEP.GO is refused. -/
theorem sleepOp_refused (h : sleepResult s = 2) : sleepOp s = wrF s (reg pINTC 0x174) 0 2 2 := by
  unfold sleepOp
  rw [h]
  exact if_pos (.inl (by decide))

/-- SLEEP.GO that meets nothing on its way. -/
theorem sleepGo_clear {i : Init} (h : clear s i (reg pINTC 0x170) 1 = true) {p : State → Prop}
    (hp : ∀ s' t, Light s s' → Done s (sleepOp s') t → p t) : ∃ t, exec (.sleepGo i) s = .next t ∧ p t :=
  row_clear h (by decide) hp

/-! ### A wake-enabled source ends the sleep -/

theorem wakeOp_wakes {n : Nat} (hasleep : s.guard.asleep = true) (hsrc : sleepSource n = true) (hen : wakeEn s n = true)
    (hpend : srcPending s n = true) :
    (wakeOp s n).guard.asleep = false ∧ rd (wakeOp s n) (reg pINTC 0x174) = rd (wrF s (reg pINTC 0x174) 2 8 n) (reg pINTC 0x174) ∧
      (rdF s (reg pINTC (0x400 + 4 * n)) 4 1 = 0 → (wakeOp s n).pins.pcieWakeN = false ∧ (wakeOp s n).pins.wakeAt = s.clk.fabric) := by
  unfold wakeOp
  dsimp only
  rw [if_neg (by simp [hasleep, hsrc, hen, hpend])]
  refine ⟨rfl, rfl, fun hroute => ?_⟩
  have htarget : (rdF (wrF s (reg pINTC 0x174) 2 8 n) (reg pINTC (0x400 + 4 * n)) 4 1 == 0) = true := by
    unfold rdF at hroute ⊢
    rw [rd_wrF_other _ _ _ _ (by unfold reg; omega), hroute]
    rfl
  rw [htarget]
  exact ⟨rfl, rfl⟩

/-! ### The host link and PERST (R347, R348) -/

theorem evtAddr_hostp : evtAddr pHOSTP = some (reg pHOSTP 0x088) := by decide

/-- A register whose field is written. -/
theorem rd_wrF_word (s : State) (a lo n v : Nat) : rd (wrF s a lo n v) a = setFld (rd s a) lo n v := rd_wr_same s a _

/-- HOSTP.STAT written. -/
def linkWritten (s : State) (up : Bool) (sp w : Nat) : State :=
  wrF (wrF (wrB s (reg pHOSTP 0x084) 1 up) (reg pHOSTP 0x084) 2 2 (if up then sp else 0)) (reg pHOSTP 0x084) 4 2 (if up then w else 0)

theorem rd_hostLink (s : State) (up : Bool) (sp w : Nat) :
    rd (hostLink s up sp w) (reg pHOSTP 0x084) = rd (linkWritten s up sp w) (reg pHOSTP 0x084) := by
  have hrd : ∀ (u : State) (p : Pins) (c : Bool),
      rd (evIf c { u with pins := p } pHOSTP 0) (reg pHOSTP 0x084) = rd u (reg pHOSTP 0x084) := fun u p c =>
    rd_evIf_other c { u with pins := p } pHOSTP 0 (by decide)
  exact hrd (linkWritten s up sp w) _ _

/-- HOSTP.STAT after a change of the link. -/
theorem hostLink_shows (s : State) (up : Bool) {sp w : Nat} (hsp : sp < 4) (hw : w < 4) :
    rdB (hostLink s up sp w) (reg pHOSTP 0x084) 1 = up ∧
      rdF (hostLink s up sp w) (reg pHOSTP 0x084) 2 2 = (if up then sp else 0) ∧
      rdF (hostLink s up sp w) (reg pHOSTP 0x084) 4 2 = if up then w else 0 := by
  have hword : rd (hostLink s up sp w) (reg pHOSTP 0x084) =
      setFld (setFld (setFld (rd s (reg pHOSTP 0x084)) 1 1 (b2n up)) 2 2 (if up then sp else 0)) 4 2 (if up then w else 0) := by
    rw [rd_hostLink, linkWritten, rd_wrF_word, rd_wrF_word, wrB, rd_wrF_word]
  generalize rd s (reg pHOSTP 0x084) = x at hword
  have hspeed : (if up then sp else 0) % 2 ^ 2 = if up then sp else 0 := by split <;> omega
  have hwidth : (if up then w else 0) % 2 ^ 2 = if up then w else 0 := by split <;> omega
  unfold rdB rdF
  rw [hword]
  refine ⟨?_, ?_, ?_⟩
  · rw [bit_eq_fld, fld_setFld_below _ _ (by decide) (by decide), fld_setFld_below _ _ (by decide) (by decide), ← bit_eq_fld,
      bit_setFld_one _ _ _ (by decide), if_pos rfl]
  · rw [fld_setFld_below _ _ (by decide) (by decide), fld_setFld_same _ _ (by decide), hspeed]
  · rw [fld_setFld_same _ _ (by decide), hwidth]

/-- A change of the link is HOSTP's and the pins'. -/
theorem hostLink_keeps (s : State) (up : Bool) (sp w : Nat) :
    (hostLink s up sp w).toll = s.toll ∧ (hostLink s up sp w).loom = s.loom ∧ (hostLink s up sp w).lac = s.lac ∧
      (hostLink s up sp w).pts = s.pts ∧ (hostLink s up sp w).pins.clkreqN = !up := by
  unfold hostLink
  rw [evIf_toll, evIf_loom, evIf_lac, evIf_pts, evIf_pins]
  exact ⟨rfl, rfl, rfl, rfl, rfl⟩

/-- PERST takes the link down and gives up the host's requests; of the rest of the module only the answers show. -/
theorem perstOp_spec (s : State) :
    rdB (perstOp s) (reg pHOSTP 0x084) 1 = false ∧ rdB (perstOp s) (reg pHOSTP 0x088) 1 = true ∧
      (∀ r ∈ (perstOp s).toll.waiting, r.who ≠ .host) ∧ (∀ r ∈ (perstOp s).toll.held, r.who ≠ .host) ∧
      (perstOp s).loom = s.loom ∧ (perstOp s).lac = s.lac ∧ (perstOp s).pts = s.pts := by
  have hgone := apart_reqDiscard s (p := pHOSTP) (fun r => r.who == .host) (by decide)
  have hwaiting := waiting_reqDiscard s pHOSTP fun r => r.who == .host
  obtain ⟨v, hv⟩ : ∃ v, v = reqDiscard s pHOSTP fun r => r.who == .host := ⟨_, rfl⟩
  rw [← hv] at hgone hwaiting
  obtain ⟨u, hu⟩ : ∃ u, u = wrB (dropHeld v .host) (reg pHOSTP 0x084) 6 false := ⟨_, rfl⟩
  have hop : perstOp s = ev (hostLink u false 0 0) pHOSTP 1 := by rw [hu, hv]; rfl
  have hdrop : u.toll = { v.toll with held := v.toll.held.filter fun r => r.who != .host } ∧ u.loom = v.loom ∧ u.lac = v.lac ∧
      u.pts = v.pts := by
    rw [hu]
    exact ⟨rfl, rfl, rfl, rfl⟩
  obtain ⟨htoll, hloom, hlac, hpts⟩ := hdrop
  obtain ⟨ktoll, kloom, klac, kpts, -⟩ := hostLink_keeps u false 0 0
  rw [hop]
  refine ⟨?_, rdB_ev_same _ evtAddr_hostp (by decide), ?_, ?_, ?_, ?_, ?_⟩
  · rw [rdB, rd_ev_other _ _ _ (by decide)]
    exact (hostLink_shows u false (sp := 0) (w := 0) (by decide) (by decide)).1
  · rw [ev_toll, ktoll, htoll]
    intro r hr
    simpa using hwaiting r hr
  · rw [ev_toll, ktoll, htoll]
    intro r hr
    simpa using (List.mem_filter.1 hr).2
  · rw [ev_loom, kloom, hloom, hgone.loom]
  · rw [ev_lac, klac, hlac, hgone.lac]
  · rw [ev_pts, kpts, hpts, hgone.pts]

/-! ### The service port (R358) -/

theorem svcOn_attaches (h : s.pins.svc = false) :
    (svcOn s).pins.svc = true ∧ rdB (svcOn s) (reg pHOSTP 0x088) 5 = true := by
  unfold svcOn
  rw [h, if_neg (by decide), ev_pins]
  exact ⟨rfl, rdB_ev_same _ evtAddr_hostp (by decide)⟩

/-- Settles O13: each command's operation is evaluated on the state with the accounts of its request, if it has one. -/
theorem sleepLinkAndService : Obligations.SleepLinkAndService := by
  unfold Obligations.SleepLinkAndService
  refine fun s => ⟨fun i h => ⟨fun hres hday => ?_, fun hrole => ?_⟩, fun n hasleep hsrc hen hpend => ?_, fun hover => ?_, fun hyet => ?_,
    fun up sp w => ?_, ?_, fun hoff => ?_, ?_⟩
  · refine sleepGo_clear h fun s' t hl hd => ?_
    rw [hd.guard]
    exact sleepOp_sleeps ((sleepResult_light hl hday).trans hres)
  · refine sleepGo_clear h fun s' t hl hd => ?_
    have hres : sleepResult s' = 2 := by
      refine sleepResult_role ?_
      unfold roleSet mFLOOR mDISTRICT at hrole ⊢
      rwa [hl.guard]
    rw [sleepOp_refused hres] at hd
    refine ⟨?_, (rdF_done hd _ _ _).trans (rd_wrF_same _ _ (by decide))⟩
    rw [hd.guard, wrF_guard, hl.guard]
    rfl
  · obtain ⟨hawake, hres, hpin⟩ := wakeOp_wakes hasleep hsrc hen hpend
    refine (finishGuard_next _ _).2 ⟨hawake, ?_, hpin⟩
    refine (congrArg (fld · 2 8) hres).trans ((rd_wrF_same _ _ (by decide)).trans (Nat.mod_eq_of_lt n.isLt))
  · refine (finish_next _ _).2 ?_
    unfold wakeTimeout
    rw [if_pos hover]
    rfl
  · refine (finish_next _ _).2 ?_
    unfold wakeTimeout
    rw [if_neg (Nat.not_le.2 hyet)]
    rfl
  · obtain ⟨hup, hspeed, hwidth⟩ := hostLink_shows s up sp.isLt w.isLt
    exact (finish_next _ _).2 ⟨hup, hspeed, hwidth, (hostLink_keeps s up sp.toNat w.toNat).2.2.2.2⟩
  · exact (finish_next _ _).2 (perstOp_spec s)
  · exact (finish_next _ _).2 (svcOn_attaches hoff)
  · refine (finish_next _ _).2 ⟨rfl, fun m hm => ?_, fun r hr => ?_, fun r hr => ?_⟩
    · simpa using (List.mem_filter.1 hm).2
    · simpa using (List.mem_filter.1 hr).2
    · simpa using (List.mem_filter.1 hr).2

end Sys2Proof.Proofs
end

section
/-!
PROOFS. Requests that enter at once, whatever their answer goes to (chapters 1 and 15, R13–R30, R349, R356): host accesses to DRAM
through HOSTWIN_C.
-/

namespace Sys2Proof.Proofs

open Sys2Proof.Machine Sys2Proof.Laws

variable {s t u : State}

/-! ### The way through the resources does not depend on the messages under way, nor on where the answer goes -/

/-- A state with other messages under way. -/
def withAsm (s : State) (l : List Assembly) : State := { s with toll := { s.toll with asm := l } }

theorem tollGrant_withAsm (s : State) (l : List Assembly) (r : Req) (k : Nat) (ks : List Nat) (d : Bool)
    (h : overBudget s r.who r.cls k 1 = false) : tollGrant (withAsm s l) r k ks d = withAsm (tollGrant s r k ks d) l := by
  have hin : budgetCheck s r.who r.cls k 1 = s := if_neg (by rw [h]; decide)
  have hin' : budgetCheck (withAsm s l) r.who r.cls k 1 = withAsm s l :=
    if_neg (by rw [show overBudget (withAsm s l) r.who r.cls k 1 = overBudget s r.who r.cls k 1 from rfl, h]; decide)
  unfold tollGrant
  rw [hin, hin']
  dsimp only
  split <;> rfl

theorem passes_withAsm (ks : List Nat) (s : State) (l : List Assembly) (r : Req) (k : Sink) :
    passes ks (withAsm s l) { r with sink := k } = (passes ks s r).map fun u => withAsm u l := by
  induction ks generalizing s with
  | nil => rfl
  | cons j js ih =>
    unfold passes
    have harrive : arrive (withAsm s l) { r with sink := k } j = arrive s r j := rfl
    have hover : overBudget (withAsm s l) r.who r.cls j 1 = overBudget s r.who r.cls j 1 := rfl
    rw [harrive, hover]
    split
    · rename_i hpass
      have hin : overBudget s r.who r.cls j 1 = false := by simpa using (Bool.and_eq_true_iff.1 hpass).2
      have hgrant : tollGrant (withAsm s l) { r with sink := k } j js false = withAsm (tollGrant s r j js false) l :=
        tollGrant_withAsm s l r j js false hin
      rw [hgrant]
      exact ih _
    · rfl

theorem entered_withAsm (s : State) (l : List Assembly) (r : Req) (k : Sink) :
    entered (withAsm s l) { r with sink := k } = (entered s r).map fun u => withAsm u l := by
  have hcount : rateCount (withAsm s l) { r with sink := k } = withAsm (rateCount s r) l := by
    have hrated : rated { r with sink := k } = rated r := rfl
    unfold rateCount
    rw [hrated]
    split <;> rfl
  have hceil : ceiling (withAsm s l) r.who = ceiling s r.who := rfl
  have hrate : rateOver (withAsm s l) { r with sink := k } = rateOver s r := rfl
  unfold entered
  rw [hcount, hceil, hrate, passes_withAsm]
  split <;> rfl

/-- A request that enters at once goes on with its last stage, on a state in which only TOLL's accounts have changed. -/
theorem submitPlain_room {w : Who} {c : Cls} {b : Body} {r : Req} (hr : r = { newReq s w c b .none with path := [] })
    (hpath : ∀ k ∈ pathOf w b, k < 7) (h : room s w c b = true) :
    ∃ u, Light s u ∧ ∀ (l : List Assembly) (k : Sink), submitPlain (withAsm s l) w c b k =
      finPlain s.toll.waiting.length (withAsm u l) { r with sink := k } := by
  unfold room at h
  obtain ⟨hopen, hentered⟩ := Bool.and_eq_true_iff.1 h
  obtain ⟨u, hu⟩ := Option.isSome_iff_exists.1 hentered
  refine ⟨u, (light_entered hpath hu).1, fun l k => ?_⟩
  have hopen' : portOpen (withAsm s l) w = true := hopen
  have hu' := entered_withAsm s l (newReq s w c b .none) k
  rw [hu] at hu'
  rw [submitPlain_open c b k hopen', hr]
  exact enter_entered finPlain hu'

/-- The same with the messages under way as they stand. -/
theorem submitPlain_room_same {w : Who} {c : Cls} {b : Body} {r : Req} (hr : r = { newReq s w c b .none with path := [] })
    (hpath : ∀ k ∈ pathOf w b, k < 7) (h : room s w c b = true) (k : Sink) :
    ∃ u, Light s u ∧ submitPlain s w c b k = finPlain s.toll.waiting.length u { r with sink := k } := by
  obtain ⟨u, hlight, hsub⟩ := submitPlain_room hr hpath h
  exact ⟨u, hlight, by
    have := hsub s.toll.asm k
    rwa [show withAsm s s.toll.asm = s from rfl, show withAsm u s.toll.asm = u from by rw [← hlight.asm]; rfl] at this⟩

/-! ### Rights over a request's accounts -/

theorem rightsOf_light (h : Light s t) (w : Who) : rightsOf t w = rightsOf s w := by
  cases w with
  | host => exact congrArg (fld · 0 9) (rd_light h 0x090 (by decide) (by decide) (by decide))
  | service => exact congrArg (fld · 0 9) (rd_light h 0x094 (by decide) (by decide) (by decide))
  | opx n => exact congrArg Session.rights (session_congr h.opx n.val)
  | _ => rfl

theorem hasRight_light (h : Light s t) (w : Who) (n : Nat) : hasRight t w n = hasRight s w n := by
  unfold hasRight
  rw [rightsOf_light h]

/-- A request that is served without having waited is answered SERVED. -/
theorem endServed_now {r : Req} (hlater : r.later = false) (code : Nat) (d : List Word) (hcode : code = oSERVED) :
    endServed s r code d = answer s r oSERVED d := by
  have hdelay : delayOf s r false = 0 := by
    unfold delayOf
    rw [hlater]
    rfl
  unfold endServed
  rw [hdelay, hcode]
  rfl

/-! ### DRAM -/

theorem ramByte_congr (h : t.dram = s.dram) (a : Nat) : ramByte t a = ramByte s a := by
  unfold ramByte
  rw [h]

theorem dramPath_lt (w : Who) : ∀ k ∈ fabricPath (srcRegion w) none ++ [5], k < 7 := by
  intro k hk
  rcases List.mem_append.1 hk with hk | hk
  · exact fabricPath_lt (srcRegion_le w) (fun j hj => by cases hj) k hk
  · rw [List.mem_singleton] at hk
    omega

/-- A write to addressable DRAM by an initiator that may write stores its bytes. -/
theorem finPlain_dramWrite (n : Nat) {r : Req} {a : Nat} {bs : List Byte} (hbody : r.body = .dramWrite a bs)
    (hlater : r.later = false) (hfits : a + bs.length ≤ Config.dramBytes) (hright : hasRight s r.who rWRITE = true)
    (hmay : dramAllowed s r.who = true) : finPlain n s r = answer (ramWrite s a bs) r oSERVED [] := by
  unfold finPlain
  dsimp only
  rw [hbody]
  dsimp only
  rw [if_neg (by omega), hright, hmay, if_neg (by decide), endServed_now hlater _ _ rfl]

/-- A read of addressable DRAM by an initiator that may read returns the bytes that stand there. -/
theorem finPlain_dramRead (n : Nat) {r : Req} {a m : Nat} (hbody : r.body = .dramRead a m) (hlater : r.later = false)
    (hfits : a + m ≤ Config.dramBytes) (hright : hasRight s r.who rREAD = true) :
    finPlain n s r = answer s r oSERVED (wordsOf (ramBytes s a m)) := by
  unfold finPlain
  dsimp only
  rw [hbody]
  dsimp only
  rw [if_neg (by omega), hright, if_neg (by decide), endServed_now hlater _ _ rfl]

/-! ### HOSTWIN_C (R349) -/

theorem hostDram_write (s : State) (off : Nat) (bs : List Byte) (n : Nat) {base : Nat}
    (hbase : base = rd64 s (reg pHOSTP 0x09C) / 2 ^ 26 * 2 ^ 26 + off) :
    hostDram s off (some bs) n = submitPlain s .host (clsFor s ⟨.host, .operator⟩) (.dramWrite base bs) (.host (2 ^ 31 + off) true) := by
  rw [hbase]
  rfl

theorem hostDram_read (s : State) (off : Nat) (n : Nat) {base : Nat}
    (hbase : base = rd64 s (reg pHOSTP 0x09C) / 2 ^ 26 * 2 ^ 26 + off) :
    hostDram s off none n = submitPlain s .host (clsFor s ⟨.host, .operator⟩) (.dramRead base n) (.host (2 ^ 31 + off) false) := by
  rw [hbase]
  rfl

/-- The host's answer to a served write is none: it is posted. -/
theorem answer_hostWrite {r : Req} {off : Nat} (hsink : r.sink = .host off true) (d : List Word) :
    answer s r oSERVED d = s := by
  unfold answer
  rw [hsink]
  rfl

/-- The host's answer to a served read of DRAM is its data. -/
theorem answer_hostRead {r : Req} {off a n : Nat} (hsink : r.sink = .host off false) (hbody : r.body = .dramRead a n) (d : List Word) :
    answer s r oSERVED d = { s with replies := s.replies ++ [⟨.host, off, oSERVED, d⟩] } := by
  unfold answer
  rw [hsink, hbody]
  rfl

/-- Settles O14: the access enters at once, passes its rights, and is carried out on DRAM as it stood. -/
theorem hostApertureReachesDram : Obligations.HostApertureReachesDram := by
  unfold Obligations.HostApertureReachesDram
  refine fun s off bs n base hup hbase => ⟨fun hfits hright hsafe hdead hroom => ?_, fun hfits hright hroom => ?_⟩
  · obtain ⟨r, hr⟩ : ∃ r : Req, r = { newReq s .host (clsFor s ⟨.host, .operator⟩) (.dramWrite base bs) .none with path := [] } :=
      ⟨_, rfl⟩
    obtain ⟨u, hl, hsub⟩ := submitPlain_room_same hr (dramPath_lt .host) hroom (.host (2 ^ 31 + off.toNat) true)
    have hmay : dramAllowed u .host = true := by
      unfold dramAllowed
      rw [hl.guard, hsafe, hdead]
      rfl
    have hop : hostDram s off.toNat (some bs) n = ramWrite u base bs := by
      rw [hostDram_write s _ _ n hbase, hsub, finPlain_dramWrite _ (by rw [hr]; rfl) (by rw [hr]; rfl) hfits
        (by rw [hr]; exact (hasRight_light hl _ _).trans hright) (by rw [hr]; exact hmay), answer_hostWrite rfl]
    obtain ⟨t, hexec, hd, -⟩ := finishClock_done s (hostDram s off.toNat (some bs) n)
    rw [hop] at hd
    have hbyte : ∀ a, ramByte t a = if base ≤ a ∧ a < base + bs.length then nthD bs (a - base) 0 else ramByte s a := fun a => by
      have hu : ramByte u a = ramByte s a := ramByte_congr hl.dram a
      rw [← hu, ← ramByte_write bs u base a hfits]
      exact ramByte_congr hd.dram a
    refine ⟨t, hexec, fun j hj => ?_, fun a ha => ?_⟩
    · rw [hbyte, if_pos ⟨by omega, by omega⟩, Nat.add_sub_cancel_left]
    · rw [hbyte, if_neg (by omega)]
  · obtain ⟨r, hr⟩ : ∃ r : Req, r = { newReq s .host (clsFor s ⟨.host, .operator⟩) (.dramRead base n) .none with path := [] } :=
      ⟨_, rfl⟩
    obtain ⟨u, hl, hsub⟩ := submitPlain_room_same hr (dramPath_lt .host) hroom (.host (2 ^ 31 + off.toNat) false)
    have hop : hostDram s off.toNat none n =
        { u with replies := u.replies ++ [⟨.host, 2 ^ 31 + off.toNat, oSERVED, wordsOf (ramBytes u base n)⟩] } := by
      rw [hostDram_read s _ n hbase, hsub, finPlain_dramRead _ (by rw [hr]; rfl) (by rw [hr]; rfl) hfits
        (by rw [hr]; exact (hasRight_light hl _ _).trans hright), answer_hostRead rfl (by rw [hr]; rfl)]
    obtain ⟨t, hexec, hd, hreplies⟩ := finishClock_done s (hostDram s off.toNat none n)
    rw [hop] at hd hreplies
    refine ⟨t, hexec, hd.dram.trans hl.dram, hreplies.trans ?_⟩
    rw [ramBytes_congr hl.dram, hl.replies]

end Sys2Proof.Proofs
end

section
/-!
PROOFS. Register writes that meet nothing on their way, wherever their answer goes (chapters 1 and 12, R29, R200, R281).
-/

namespace Sys2Proof.Proofs

open Sys2Proof.Machine Sys2Proof.Laws

/-- A write of an initiator and class meets nothing on its way, when its answer goes to a sink: as in `clear`. -/
structure WriteClear (s : State) (w : Who) (c : Cls) (a : Nat) (v : Word) (k : Sink) (u : State) : Prop where
  isOpen : portOpen s w = true
  enters : entered s (newReq s w c (.regWrite a v) k) = some u
  exists_ : pageAbsent u w (pageOf a) = false
  present : fusedOff u (pageOf a) = false
  accepted : writeRefusal u w c a v = none
  booked : logsWrite a v = true → (passes [8] u { newReq s w c (.regWrite a v) k with path := [], logging := true }).isSome = true

/-- What `clear` says of an initiator's own write. -/
theorem writeClear_of_clear {s : State} {i : Init} {a : Nat} {v : Word} (h : clear s i a v = true) :
    WriteClear s i.who (clsFor s i) a v (ownSink i.who a true) (atPage s i a v) := by
  unfold clear at h
  dsimp only at h
  simp only [Bool.and_eq_true, Bool.or_eq_true, Bool.not_eq_true', Option.isNone_iff_eq_none] at h
  obtain ⟨⟨⟨⟨⟨hopen, henter⟩, hpage⟩, hfuse⟩, hright⟩, hlog⟩ := h
  obtain ⟨u, hu⟩ := Option.isSome_iff_exists.1 henter
  refine ⟨hopen, ?_, hpage, hfuse, hright, fun hl => hlog.resolve_left (by rw [hl]; decide)⟩
  unfold atPage
  rw [hu]
  exact hu

theorem delayOf_now {s : State} {r : Req} (h : r.later = false) : delayOf s r false = 0 := by
  unfold delayOf
  rw [h]
  rfl

/-- A logged write carried out without having waited: its entries are the Daybook's, its effect and code follow. -/
theorem writeLogged_spec (s : State) {r : Req} {a : Nat} {v : Word} (hlater : r.later = false) :
    ∃ t, Light s t ∧ writeLogged s r a v =
      answer (writeEffect t ⟨r.who, r.cls⟩ a v) r (finalOut (writeCode s a v) 0) [w32 a, v] := by
  unfold writeLogged
  dsimp only
  generalize (writeChange _ _ _ _ _ _ _ _ : Change) = entry
  generalize (writeChange _ _ _ _ _ _ _ _ : Change) = absent
  refine ⟨_, ?_, by unfold endServed; rw [delayOf_now hlater]⟩
  have hentry : Light s (logChange s entry) := light_dayReserve s entry
  split
  · exact hentry.trans (light_logRefusal _ _)
  · exact hentry

/-- A write that meets nothing on its way has the effect of its register, on a state with the accounts of its request, and ends
with its register's code. -/
theorem submitPlain_regWrite {s u : State} {w : Who} {c : Cls} {a : Nat} {v : Word} {k : Sink} (h : WriteClear s w c a v k u) :
    ∃ x t r, Light s x ∧ Light s t ∧ r.sink = k ∧ r.body = .regWrite a v ∧ submitPlain s w c (.regWrite a v) k =
      answer (writeEffect t ⟨w, c⟩ a v) r (finalOut (writeCode x a v) 0) [w32 a, v] := by
  obtain ⟨r, hr⟩ : ∃ r : Req, r = { newReq s w c (.regWrite a v) k with path := [] } := ⟨_, rfl⟩
  have hwho : r.who = w := by rw [hr]; rfl
  have hcls : r.cls = c := by rw [hr]; rfl
  have hbody : r.body = .regWrite a v := by rw [hr]; rfl
  have hlater : r.later = false := by rw [hr]; rfl
  have hlight := (light_entered (regPath_lt w (pageOf a)) h.enters).1
  have hfin : submitPlain s w c (.regWrite a v) k = if logsWrite a v then logStage s.toll.waiting.length u r
      else endServed (writeEffect u ⟨w, c⟩ a v) r (writeCode u a v) [w32 a, v] := by
    rw [submitPlain_open c _ k h.isOpen, enter_entered finPlain h.enters, ← hr]
    unfold finPlain
    dsimp only
    rw [hbody, hwho, hcls]
    dsimp only
    rw [h.exists_, h.present, h.accepted]
    rfl
  rw [hfin]
  cases hlogs : logsWrite a v with
  | false =>
    refine ⟨u, u, r, hlight, hlight, by rw [hr]; rfl, hbody, ?_⟩
    rw [if_neg (by decide)]
    unfold endServed
    rw [delayOf_now hlater]
  | true =>
    obtain ⟨x, hx⟩ := Option.isSome_iff_exists.1 (h.booked hlogs)
    obtain ⟨q, hq⟩ : ∃ q : Req, q = { newReq s w c (.regWrite a v) k with path := [], logging := true } := ⟨_, rfl⟩
    rw [← hq] at hx
    have hstage : logStage s.toll.waiting.length u r = writeLogged x q a v := by
      unfold logStage
      rw [show ({ r with logging := true } : Req) = q by rw [hr, hq]]
      refine (walk_passes _ _ hx).trans ?_
      rw [hq]
      rfl
    obtain ⟨t, ht, hwritten⟩ := writeLogged_spec x (r := q) (a := a) (v := v) (by rw [hq]; rfl)
    have hx' := hlight.trans (light_passes (by simp) hx).1
    refine ⟨x, t, q, hx', hx'.trans ht, by rw [hq]; rfl, by rw [hq]; rfl, ?_⟩
    rw [if_pos rfl, hstage, hwritten, hq]
    rfl

end Sys2Proof.Proofs
end

section
/-!
PROOFS. Service-port requests of one word (chapter 15, R358): each is carried out as it enters, and answered with the words that its
reply carries.
-/

namespace Sys2Proof.Proofs

open Sys2Proof.Machine Sys2Proof.Laws

variable {s t u : State}

/-! ### Replies of messages over OPX leave the port's replies alone -/

/-- No reply has left a port, and no message has come under way. -/
structure Unanswered (s t : State) : Prop where
  replies : t.replies = s.replies
  asm : ∀ m ∈ t.toll.asm, m ∈ s.toll.asm

theorem Unanswered.refl (s : State) : Unanswered s s := ⟨rfl, fun _ h => h⟩

theorem Unanswered.trans (h : Unanswered s t) (k : Unanswered t u) : Unanswered s u :=
  ⟨k.replies.trans h.replies, fun m hm => h.asm m (k.asm m hm)⟩

theorem unanswered_of_light (h : Light s t) : Unanswered s t := ⟨h.replies, fun m hm => by rwa [h.asm] at hm⟩

theorem Unanswered.ev (h : Unanswered s t) (p b : Nat) : Unanswered s (ev t p b) :=
  ⟨(ev_replies t p b).trans h.replies, fun m hm => by rw [ev_toll] at hm; exact h.asm m hm⟩

theorem unanswered_leaseEnd (s : State) : Unanswered s (leaseEnd s) := by
  have hgone : (ev (leaseGone s) pUPD 3).replies = s.replies := by
    unfold leaseGone leaseShow
    rw [ev_replies, ev_replies, wrB_replies, wrB_replies, wr_replies, wr_replies, wr_replies]
  refine ⟨?_, fun m hm => by rwa [(leaseEnd_blocks s).2] at hm⟩
  unfold leaseEnd
  dsimp only
  split
  · rfl
  · split
    · have hclear : ∀ v : State, (updClear v).replies = v.replies := fun _ => rfl
      rw [updGo, wrF_replies, hclear, wrF_replies, hgone]
    · exact hgone

theorem unanswered_closeSession (s : State) (n : Nat) : Unanswered s (closeSession s n) := by
  have hfree : Unanswered s (closeFree s n) := by
    unfold closeFree
    dsimp only
    split
    · exact .refl s
    · refine .ev ?_ pOPX 1
      have hslot : ∀ (x : Opx) (st lt : List (Nat × Word)) (ws : List Req) (p : Assembly → Bool),
          Unanswered s { s with opx := x, staged := st, latch := lt
                                toll := { s.toll with waiting := ws, asm := s.toll.asm.filter p } } :=
        fun x st lt ws p => ⟨rfl, fun m hm => (List.mem_filter.1 hm).1⟩
      split
      · exact ((hslot _ _ _ _ _).trans (unanswered_leaseEnd _)).trans (unanswered_of_light (light_logMade _ _ _))
      · exact hslot _ _ _ _ _
  unfold closeSession closeAs
  split
  · exact hfree.trans (unanswered_of_light (light_logMade _ _ _))
  · exact .refl s

theorem unanswered_opxSend (s : State) (n ty fl : Nat) (c : Cls) (req out : Nat) (body : List Byte) :
    Unanswered s (opxSend s n ty fl c req out body) := by
  unfold opxSend opxSendAt
  dsimp only
  split
  · exact .refl s
  · split
    · exact unanswered_closeSession s n
    · exact ⟨rfl, fun _ h => h⟩

theorem unanswered_asmReply {m : Assembly} (h : m.svc = false) (s : State) : Unanswered s (asmReply s m) := by
  unfold asmReply
  rw [h, if_neg (by decide)]
  dsimp only
  split
  · exact unanswered_opxSend s _ _ _ _ _ _ _
  · exact unanswered_opxSend s _ _ _ _ _ _ _

theorem unanswered_asmReplies (l : List Assembly) (h : ∀ m ∈ l, m.svc = false) (s : State) : Unanswered s (l.foldl asmReply s) := by
  induction l generalizing s with
  | nil => exact .refl s
  | cons m ms ih =>
    exact (unanswered_asmReply (h m List.mem_cons_self) s).trans (ih (fun x hx => h x (List.mem_cons_of_mem _ hx)) _)

/-! ### Whole messages answered -/

/-- Without a service request under way nothing leaves the service port. -/
theorem unanswered_asmFlush (h : ∀ m ∈ s.toll.asm, m.svc = false) : Unanswered s (asmFlush s) := by
  have hready : ∀ m ∈ asmReady s.toll.asm, m.svc = false := by
    intro m hm
    rcases List.mem_append.1 hm with hm | hm
    · exact h m (List.mem_filter.1 hm).1
    · exact h m (List.mem_filter.1 (List.takeWhile_subset _ hm)).1
  have hkept : Unanswered s { s with toll := { s.toll with asm := s.toll.asm.filter fun m => !(asmReady s.toll.asm).contains m } } :=
    ⟨rfl, fun m hm => (List.mem_filter.1 hm).1⟩
  exact hkept.trans (unanswered_asmReplies _ hready _)

/-- The service port's reply to a message. -/
def svcReply (m : Assembly) : Reply := ⟨.service, m.tag, (svcData m.got).1, (svcData m.got).2⟩

/-- A whole service request that is the only one under way is answered, and none is under way after it. -/
theorem asmFlush_svc {l : List Assembly} {m : Assembly} (hs : s.toll.asm = l ++ [m]) (hl : ∀ x ∈ l, x.svc = false)
    (hm : m.svc = true) (hwhole : m.whole = true) :
    (asmFlush s).replies = s.replies ++ [svcReply m] ∧ ∀ x ∈ (asmFlush s).toll.asm, x.svc = false := by
  have hothers : l.filter (fun x => x.svc) = [] := List.filter_eq_nil_iff.2 fun x hx => by rw [hl x hx]; decide
  have hready : asmReady s.toll.asm = (l.filter fun x => !x.svc && x.whole) ++ [m] := by
    unfold asmReady
    rw [hs, List.filter_append, List.filter_append, hothers]
    simp [hm, hwhole]
  obtain ⟨u, hu⟩ : ∃ u, u = { s with toll := { s.toll with asm := s.toll.asm.filter fun x => !(asmReady s.toll.asm).contains x } } :=
    ⟨_, rfl⟩
  have hleft : ∀ x ∈ u.toll.asm, x.svc = false := by
    intro x hx
    rw [hu] at hx
    obtain ⟨hin, hnot⟩ := List.mem_filter.1 hx
    rw [hs] at hin
    rcases List.mem_append.1 hin with hin | hin
    · exact hl x hin
    · rw [List.mem_singleton.1 hin, hready] at hnot
      simp at hnot
  have hsent := unanswered_asmReplies (l.filter fun x => !x.svc && x.whole) (fun x hx => hl x (List.mem_filter.1 hx).1) u
  have hlast : ∀ v : State, asmReply v m = { v with replies := v.replies ++ [svcReply m] } := fun v => by
    unfold asmReply
    rw [hm]
    rfl
  have hflush : asmFlush s = asmReply ((l.filter fun x => !x.svc && x.whole).foldl asmReply u) m := by
    unfold asmFlush
    dsimp only
    rw [← hu, hready, List.foldl_append]
    rfl
  rw [hflush, hlast]
  refine ⟨congrArg (· ++ _) (hsent.replies.trans (by rw [hu])), fun x hx => hleft x (hsent.asm x hx)⟩

/-! ### A request of one word -/

/-- A service request of one word as it is taken. -/
def svcMessage (op : Nat) (c : Cls) (tag : Nat) : Assembly :=
  { svc := true, slot := 0, tag := tag, op := op, cls := c, outcome := 0, need := 1, got := [], todo := [] }

/-- The state in which the word of a service request is submitted. -/
def svcTaken (s : State) (op : Nat) (c : Cls) (tag : Nat) : State := withAsm s (s.toll.asm ++ [svcMessage op c tag])

theorem submitSvc_one (hsvc : s.pins.svc = true) (op : Nat) (c : Cls) (tag : Nat) (b : Body) :
    submitSvc s op c tag [b] = asmFlush (submitPlain (svcTaken s op c tag) .service c b (.svc tag 0)) := by
  unfold submitSvc
  dsimp only
  rw [hsvc]
  rfl

theorem mapFirst_append {α : Type} {p : α → Bool} (f : α → α) {l : List α} (x : α) (hl : ∀ y ∈ l, p y = false) (hx : p x = true) :
    mapFirst p f (l ++ [x]) = l ++ [f x] := by
  induction l with
  | nil => simp [mapFirst, hx]
  | cons y ys ih =>
    rw [List.cons_append, mapFirst, hl y List.mem_cons_self, if_neg (by decide), ih fun z hz => hl z (List.mem_cons_of_mem _ hz)]
    rfl

/-- A word that is answered at once ends its request: the reply carries the word's index and data. -/
theorem svc_answered {op tag : Nat} {c : Cls} {b : Body} {r : Req} {d : List Word} (hidle : ∀ m ∈ s.toll.asm, m.svc = false)
    (hu : u.toll.asm = (svcTaken s op c tag).toll.asm) (hsink : r.sink = .svc tag 0) (hbody : r.body = b) :
    (asmFlush (answer u r oSERVED d)).replies = u.replies ++ [⟨.service, tag, oSERVED, 0xFFFF#32 :: plainData b d⟩] ∧
      Apart u (asmFlush (answer u r oSERVED d)) := by
  obtain ⟨m, hm⟩ : ∃ m, m = { svcMessage op c tag with got := [(0, ⟨oSERVED, plainData b d⟩)] } := ⟨_, rfl⟩
  have hjoin : answer u r oSERVED d = asmFlush (withAsm u (s.toll.asm ++ [m])) := by
    have hmap : mapFirst (fun x => (x.svc && x.tag == tag) && (get? x.got 0).isNone)
        (fun x => { x with got := ins x.got 0 ⟨oSERVED, plainData b d⟩ }) (s.toll.asm ++ [svcMessage op c tag]) =
        s.toll.asm ++ [m] := by
      rw [mapFirst_append _ _ (fun y hy => by rw [hidle y hy]; rfl) (by simp [svcMessage, get?]), hm]
      rfl
    unfold answer
    rw [hsink, hbody]
    dsimp only
    unfold asmJoin
    rw [hu, show (svcTaken s op c tag).toll.asm = s.toll.asm ++ [svcMessage op c tag] from rfl, if_pos (by decide), hmap]
    rfl
  have hreply : svcReply m = ⟨.service, tag, oSERVED, 0xFFFF#32 :: plainData b d⟩ := by
    rw [hm]
    unfold svcReply svcData
    simp [firstRefused, oSERVED, svcMessage]
  obtain ⟨hreplies, hnone⟩ := asmFlush_svc (s := withAsm u (s.toll.asm ++ [m])) (m := m) rfl hidle (by rw [hm]; rfl) (by rw [hm]; rfl)
  rw [hjoin]
  refine ⟨?_, ((apart_withAsm u _).trans (apart_asmFlush _)).trans (apart_asmFlush _)⟩
  rw [(unanswered_asmFlush hnone).replies, hreplies, hreply]
  rfl

/-! ### The words of a request -/

/-- A word that enters at once goes on with its last stage. -/
theorem svc_room {c : Cls} {b : Body} (op tag : Nat) (hpath : ∀ k ∈ pathOf .service b, k < 7) (h : room s .service c b = true) :
    ∃ u r n, Light s u ∧ r.who = .service ∧ r.body = b ∧ r.sink = .svc tag 0 ∧ r.later = false ∧
      submitPlain (svcTaken s op c tag) .service c b (.svc tag 0) =
        finPlain n (withAsm u (svcTaken s op c tag).toll.asm) r := by
  obtain ⟨u, hl, hsub⟩ := submitPlain_room rfl hpath h
  exact ⟨u, _, _, hl, rfl, rfl, rfl, rfl, hsub _ _⟩

/-- A word that is served as it enters ends its request SERVED, with its data; the rest stands as the word left it. -/
theorem svc_served {c : Cls} {tag op : Nat} {b : Body} {v : State} {r : Req} {d : List Word} (hsvc : s.pins.svc = true)
    (hidle : ∀ m ∈ s.toll.asm, m.svc = false)
    (hsub : submitPlain (svcTaken s op c tag) .service c b (.svc tag 0) = answer v r oSERVED d)
    (hv : v.toll.asm = (svcTaken s op c tag).toll.asm) (hreplies : v.replies = s.replies) (hsink : r.sink = .svc tag 0)
    (hbody : r.body = b) :
    ∃ t, finishClock s (submitSvc s op c tag [b]) = .next t ∧
      t.replies = s.replies ++ [⟨.service, tag, oSERVED, 0xFFFF#32 :: plainData b d⟩] ∧ ∃ u, Apart v u ∧ Done s u t := by
  obtain ⟨hanswered, hapart⟩ := svc_answered (u := v) (d := d) hidle hv hsink hbody
  obtain ⟨t, hnext, hdone, hrep⟩ := finishClock_done s (submitSvc s op c tag [b])
  rw [submitSvc_one hsvc, hsub] at hdone hrep
  exact ⟨t, hnext, by rw [hrep, hanswered, hreplies], _, hapart, hdone⟩

/-! ### BKP's scratch registers -/

theorem latch_scratch {k : Nat} (hk : k < 16) :
    latchLow (reg pBKP (0x100 + 4 * k)) = false ∧ latchHigh (reg pBKP (0x100 + 4 * k)) = false := by
  revert k
  decide

theorem fusedOff_bkp (s : State) : fusedOff s pBKP = false := by
  simp [fusedOff, featureD, featureM, featureE, pBKP]

/-- A scratch register reads as it stands, and a read of it changes nothing. -/
theorem read_scratch (s : State) (w : Who) {k : Nat} (hk : k < 16) (hret : retiredPg s pBKP = false) :
    readEffect s w (reg pBKP (0x100 + 4 * k)) false = s ∧
      readVal s w (reg pBKP (0x100 + 4 * k)) = rd s (reg pBKP (0x100 + 4 * k)) := by
  obtain ⟨hlow, hhigh⟩ := latch_scratch hk
  have hrow := rowOf_scratch hk
  have hpage : pageOf (reg pBKP (0x100 + 4 * k)) = pBKP := pageOf_reg _ (by omega)
  have hoff : offOf (reg pBKP (0x100 + 4 * k)) = 0x100 + 4 * k := offOf_reg _ (by omega)
  have hstat : isStat (reg pBKP (0x100 + 4 * k)) = false := by
    unfold isStat
    rw [hpage, hrow]
    rfl
  have hclears : clearsOnRead s (reg pBKP (0x100 + 4 * k)) = false := by
    unfold clearsOnRead
    rw [hstat, hrow]
    rfl
  have hne : ∀ q n, n < 4096 → pBKP ≠ q → reg pBKP (0x100 + 4 * k) ≠ reg q n := fun q n hn h => reg_ne_of_page h (by omega) hn
  constructor
  · unfold readEffect readDo
    rw [hpage, fusedOff_bkp, hrow, hlow, hhigh, hclears]
    simp (disch := decide) only [hne, Option.isNone_some, Bool.false_eq_true, or_self, if_false]
  · have hblock : blockView s w pBKP (0x100 + 4 * k) = rd s (reg pBKP (0x100 + 4 * k)) := rfl
    have hbank : isLoopbank pBKP = false := by decide
    have htype : (pageType pBKP).isNone = false := by decide
    unfold readVal view
    dsimp only
    rw [hhigh, hpage, hoff, fusedOff_bkp, hret, hrow, hbank, htype, hblock, if_neg (show ¬ 0x100 + 4 * k < 0x080 by omega)]
    rfl

theorem finPlain_readScratch (n : Nat) {r : Req} {k : Nat} (hk : k < 16) (hbody : r.body = .regRead (reg pBKP (0x100 + 4 * k)))
    (hwho : r.who = .service) (hlater : r.later = false) (hright : hasRight s .service rREG = true) (hret : retiredPg s pBKP = false) :
    finPlain n s r = answer s r oSERVED [w32 (reg pBKP (0x100 + 4 * k)), rd s (reg pBKP (0x100 + 4 * k))] := by
  obtain ⟨heff, hval⟩ := read_scratch s .service hk hret
  have hpage : pageAbsent s .service (pageOf (reg pBKP (0x100 + 4 * k))) = false := by
    rw [pageOf_reg _ (by omega)]
    rfl
  unfold finPlain
  dsimp only
  rw [hbody, hwho]
  dsimp only
  rw [hpage, hright, if_neg (by decide), if_neg (by decide), heff, hval, endServed_now hlater _ _ rfl]

/-- No page rule refuses a write to a scratch register. -/
theorem pageRefusal_scratch (s : State) (w : Who) {k : Nat} (v : Word) (hk : k < 16) :
    pageRefusal s w (reg pBKP (0x100 + 4 * k)) v = none := by
  have hinert : inert (reg pBKP (0x100 + 4 * k)) = false := by
    unfold inert
    rw [rowOf_scratch hk]
    rfl
  have hsealed : sealedReg (reg pBKP (0x100 + 4 * k)) = false ∧ clearCmd (reg pBKP (0x100 + 4 * k)) v = false := by
    have hne : reg pBKP (0x100 + 4 * k) ≠ reg pWGHEN 0x080 := reg_ne_of_page (by decide) (by omega) (by decide)
    unfold sealedReg clearCmd
    rw [pageOf_reg _ (by omega), beq_eq_false_iff_ne.2 hne]
    exact ⟨rfl, rfl⟩
  unfold pageRefusal
  dsimp only
  rw [hinert, hsealed.1, hsealed.2, pageOf_reg _ (by omega), offOf_reg _ (by omega)]
  simp [isLoopbank, pBKP, pMOD, pPROT, pINTC, pTOLL, pSCAN, pSCANDBG, pPGMX, pFORCE, pFACT, pFACTQ, pPTS, pDAYB, pETH, pMB, pFIO,
    pSGNRG, pLOCK, pWTCH, pSCRV, pUPD, show ¬ 0x100 + 4 * k = 0x038 by omega, show ¬ 0x100 + 4 * k < 0x080 by omega, show ¬ 0x100 + 4 * k = 0x088 by omega]

/-- Whether a write to a scratch register is refused does not depend on the messages under way. -/
theorem writeRefusal_scratch (l : List Assembly) (w : Who) (c : Cls) {k : Nat} (v : Word) (hk : k < 16)
    (h : writeRefusal s w c (reg pBKP (0x100 + 4 * k)) v = none) :
    writeRefusal (withAsm s l) w c (reg pBKP (0x100 + 4 * k)) v = none := by
  have hform : ∀ x : State, writeRefusal x w c (reg pBKP (0x100 + 4 * k)) v =
      if (!hasRight x w rREG || (mLOCK x && !lockdownPass x w c (reg pBKP (0x100 + 4 * k)) v) ||
        !stoppedPass x w (reg pBKP (0x100 + 4 * k)) v) = true then some (doorbellRefused x (reg pBKP (0x100 + 4 * k))) else none := by
    intro x
    unfold writeRefusal
    rw [pageRefusal_scratch x w v hk]
    dsimp only
    cases hasRight x w rREG <;> cases mLOCK x <;> cases lockdownPass x w c (reg pBKP (0x100 + 4 * k)) v <;>
      cases stoppedPass x w (reg pBKP (0x100 + 4 * k)) v <;> rfl
  rw [hform] at h ⊢
  split at h
  · cases h
  · rename_i hpass
    exact if_neg hpass

/-- A write to a scratch register that meets nothing on its way meets nothing as a word of a service request. -/
theorem writeClear_svc {c : Cls} {v : Word} {k : Nat} (op tag : Nat) (hk : k < 16)
    (h : clear s ⟨.service, c⟩ (reg pBKP (0x100 + 4 * k)) v = true) :
    ∃ u, WriteClear (svcTaken s op c tag) .service c (reg pBKP (0x100 + 4 * k)) v (.svc tag 0) u := by
  obtain ⟨u, hu⟩ : ∃ u, u = atPage s ⟨.service, c⟩ (reg pBKP (0x100 + 4 * k)) v := ⟨_, rfl⟩
  have hc := writeClear_of_clear h
  rw [← hu] at hc
  obtain ⟨hopen, hentered, habsent, hfused, haccepted, hbooked⟩ := hc
  have henters := entered_withAsm s (svcTaken s op c tag).toll.asm (newReq s .service c (.regWrite (reg pBKP (0x100 + 4 * k)) v)
    (ownSink .service (reg pBKP (0x100 + 4 * k)) true)) (.svc tag 0)
  rw [show entered s (newReq s .service c (.regWrite (reg pBKP (0x100 + 4 * k)) v)
    (ownSink .service (reg pBKP (0x100 + 4 * k)) true)) = some u from hentered] at henters
  refine ⟨withAsm u (svcTaken s op c tag).toll.asm, hopen, henters, habsent, hfused, writeRefusal_scratch _ _ _ _ hk haccepted,
    fun hl => ?_⟩
  have hpass := passes_withAsm [8] u (svcTaken s op c tag).toll.asm { newReq s .service c (.regWrite (reg pBKP (0x100 + 4 * k)) v)
    (ownSink .service (reg pBKP (0x100 + 4 * k)) true) with path := [], logging := true } (.svc tag 0)
  refine (congrArg Option.isSome hpass).trans ?_
  rw [Option.isSome_map]
  exact hbooked hl

/-! ### The Daybook window -/

theorem dayPath_lt {off : Nat} (h : 0xE00000 ≤ off) : ∀ k ∈ pathOf .service (.winRead off), k < 7 := by
  have hpath : pathOf .service (.winRead off) = fabricPath (srcRegion .service) (some 3) := by
    show (if off < 0x900000 then _ else if off < 0xD00000 then _ else _) = _
    rw [if_neg (by omega), if_neg (by omega)]
  rw [hpath]
  exact fabricPath_lt (srcRegion_le _) (fun j hj => by cases hj; decide)

/-- The word of the Daybook window at an offset, as the ring holds it. -/
def ringWord (ring : List (Nat × DayEntry)) (off : Nat) : Word :=
  match get? ring ((off - 0xE00000) / 64) with
  | some e => w32 (leAt (dayBytes e) (off % 64) 4)
  | none => 0

/-- A word of the Daybook window is what the ring holds. -/
theorem windowWord_day (s : State) (w : Who) {off : Nat} (hlo : 0xE00000 ≤ off) (hhi : off < 0xF00000) :
    windowWord s w off = (oSERVED, ringWord s.dayb.ring off) := by
  unfold windowWord
  rw [if_neg (by omega), if_neg (by omega), if_neg (by omega), if_neg (by omega)]
  rfl

theorem finPlain_winRead (n : Nat) {r : Req} {off : Nat} (hbody : r.body = .winRead off) (hwho : r.who = .service)
    (hlater : r.later = false) (hright : hasRight s .service rREAD = true) (hlo : 0xE00000 ≤ off) (hhi : off < 0xF00000) :
    finPlain n s r = answer s r oSERVED [(windowWord s .service off).2] := by
  unfold finPlain
  dsimp only
  rw [hbody, hwho]
  dsimp only
  rw [windowWord_day s .service hlo hhi]
  dsimp only
  rw [if_neg (by decide), hright, if_neg (by decide), if_neg (by decide), endServed_now hlater _ _ rfl]

/-! ### The requests -/

/-- REG_READ of a scratch register. -/
theorem regRead_served {c : Cls} {tag : Word} {k : Nat} {a : DWord} (hsvc : s.pins.svc = true) (hidle : ∀ m ∈ s.toll.asm, m.svc = false)
    (hk : k < 16) (ha : a.toNat = reg pBKP (0x100 + 4 * k)) (hret : retiredPg s pBKP = false)
    (hroom : room s .service c (.regRead a.toNat) = true) (hright : hasRight s .service rREG = true) :
    ∃ t, exec (.regRead c tag a 1) s = .next t ∧
      t.replies = s.replies ++ [⟨.service, tag.toNat, oSERVED, [0xFFFF#32, rd s a.toNat]⟩] := by
  obtain ⟨u, r, n, hl, hwho, hbody, hsink, hlater, hsub⟩ := svc_room (b := .regRead a.toNat) 1 tag.toNat (regPath_lt _ _) hroom
  rw [ha] at hbody
  have hrd : rd u a.toNat = rd s a.toNat := by
    rw [ha]
    exact rd_light hl _ (by omega) (by decide) (by decide)
  have hret' : retiredPg u pBKP = false := by
    unfold retiredPg rdB at hret ⊢
    rwa [rd_light hl 0x028 (by decide) (by decide) (by decide)]
  have hserved := hsub.trans (finPlain_readScratch n hk hbody hwho hlater
    (s := withAsm u (svcTaken s 1 c tag.toNat).toll.asm) ((hasRight_light hl _ _).trans hright) hret')
  obtain ⟨t, hexec, hreply, -⟩ := svc_served hsvc hidle hserved rfl hl.replies hsink (hbody.trans (by rw [ha]))
  refine ⟨t, hexec, hreply.trans ?_⟩
  rw [← hrd, ha]
  rfl

/-- REG_WRITE of a scratch register. -/
theorem regWrite_served {c : Cls} {tag v : Word} {k : Nat} {a : DWord} (hsvc : s.pins.svc = true)
    (hidle : ∀ m ∈ s.toll.asm, m.svc = false) (hk : k < 16) (ha : a.toNat = reg pBKP (0x100 + 4 * k))
    (h : clear s ⟨.service, c⟩ a.toNat v = true) :
    ∃ t, exec (.regWrite c tag a [v]) s = .next t ∧ rd t a.toNat = v ∧
      t.replies = s.replies ++ [⟨.service, tag.toNat, oSERVED, [0xFFFF#32]⟩] := by
  have hexec : exec (.regWrite c tag a [v]) s = finishClock s (submitSvc s 2 c tag.toNat [.regWrite a.toNat v]) := rfl
  rw [hexec]
  rw [ha] at h ⊢
  obtain ⟨u, hu⟩ := writeClear_svc 2 tag.toNat hk h
  obtain ⟨x, y, r, -, hl, hsink, hbody, hsub⟩ := submitPlain_regWrite hu
  have hrow := rowOf_scratch hk
  have hcode : writeCode x (reg pBKP (0x100 + 4 * k)) v = oSERVED := by
    have hne : reg pBKP (0x100 + 4 * k) ≠ reg pLOCK 0x090 := reg_ne_of_page (by decide) (by omega) (by decide)
    unfold writeCode
    simp [hne]
  have heff := writeEffect_bkp y ⟨.service, c⟩ v hrow (by omega) (by omega)
  rw [hcode, heff] at hsub
  have hkeeps : ∀ w : State, (mergeRw w (reg pBKP (0x100 + 4 * k)) v).toll = w.toll ∧
      (mergeRw w (reg pBKP (0x100 + 4 * k)) v).replies = w.replies := fun w => by
    unfold mergeRw
    rw [hrow]
    exact ⟨rfl, rfl⟩
  obtain ⟨t, hnext, hreply, z, hz, hdone⟩ := svc_served hsvc hidle hsub (by rw [(hkeeps y).1, hl.asm]) (by rw [(hkeeps y).2, hl.replies]; rfl)
    hsink hbody
  refine ⟨t, hnext, ?_, hreply⟩
  rw [hdone.rd, hz.rd _ (answerReg_of_page (by rw [pageOf_reg _ (by omega)]; decide)), rd_mergeRw_plain y v hrow rfl rfl]
  exact merge_full _ v

/-- MEM_READ of a word of addressable DRAM. -/
theorem memRead_served {c : Cls} {tag : Word} {a : DWord} (hsvc : s.pins.svc = true) (hidle : ∀ m ∈ s.toll.asm, m.svc = false)
    (hfits : a.toNat + 4 ≤ Config.dramBytes) (hroom : room s .service c (.dramRead a.toNat 4) = true)
    (hright : hasRight s .service rREAD = true) :
    ∃ t, exec (.memRead c tag a 1) s = .next t ∧
      t.replies = s.replies ++ [⟨.service, tag.toNat, oSERVED, 0xFFFF#32 :: wordsOf (ramBytes s a.toNat 4)⟩] := by
  obtain ⟨u, r, n, hl, hwho, hbody, hsink, hlater, hsub⟩ := svc_room (b := .dramRead a.toNat 4) 3 tag.toNat (dramPath_lt _) hroom
  have hserved := hsub.trans (finPlain_dramRead n hbody hlater hfits
    (s := withAsm u (svcTaken s 3 c tag.toNat).toll.asm) (by rw [hwho]; exact (hasRight_light hl _ _).trans hright))
  obtain ⟨t, hexec, hreply, -⟩ := svc_served hsvc hidle hserved rfl hl.replies hsink hbody
  refine ⟨t, hexec, hreply.trans ?_⟩
  rw [← ramBytes_congr (show (withAsm u (svcTaken s 3 c tag.toNat).toll.asm).dram = s.dram from hl.dram)]
  rfl

/-- MEM_WRITE of a word of addressable DRAM. -/
theorem memWrite_served {c : Cls} {tag v : Word} {a : DWord} (hsvc : s.pins.svc = true) (hidle : ∀ m ∈ s.toll.asm, m.svc = false)
    (hfits : a.toNat + 4 ≤ Config.dramBytes) (hroom : room s .service c (.dramWrite a.toNat (leBytes 4 v.toNat)) = true)
    (hright : hasRight s .service rWRITE = true) (hsafe : s.guard.safe = false) :
    ∃ t, exec (.memWrite c tag a [v]) s = .next t ∧ ramNat t a.toNat 4 = v.toNat ∧
      t.replies = s.replies ++ [⟨.service, tag.toNat, oSERVED, [0xFFFF#32]⟩] := by
  obtain ⟨u, r, n, hl, hwho, hbody, hsink, hlater, hsub⟩ := svc_room (b := .dramWrite a.toNat (leBytes 4 v.toNat)) 4 tag.toNat (dramPath_lt _) hroom
  have hlen : (leBytes 4 v.toNat).length = 4 := length_leBytes 4 _
  obtain ⟨y, hy⟩ : ∃ y, y = withAsm u (svcTaken s 4 c tag.toNat).toll.asm := ⟨_, rfl⟩
  have hmay : dramAllowed y .service = true := by
    have hguard : y.guard = s.guard := by rw [hy]; exact hl.guard
    unfold dramAllowed
    rw [hguard, hsafe]
    simp [isCore]
  rw [← hy] at hsub
  have hserved := hsub.trans (finPlain_dramWrite n hbody hlater (s := y) (by rw [hlen]; exact hfits)
    (by rw [hwho, hy]; exact (hasRight_light hl _ _).trans hright) (by rw [hwho]; exact hmay))
  obtain ⟨m, hm⟩ := ramWrite_eq (leBytes 4 v.toNat) y a.toNat
  obtain ⟨t, hexec, hreply, z, hz, hdone⟩ := svc_served hsvc hidle hserved (by rw [hm, hy]; rfl) (by rw [hm, hy]; exact hl.replies) hsink
    hbody
  refine ⟨t, hexec, ?_, hreply⟩
  have hwritten := ramNat_ramWrite y (a := a.toNat) (o := 0) (n := 4) (bs := leBytes 4 v.toNat) (by rw [hlen]) (by rw [hlen]; exact hfits)
  rw [ramNat_congr (hdone.dram.trans hz.dram)]
  refine hwritten.trans ?_
  have hle := leAt_leBytes_append 4 v.toNat []
  rw [List.append_nil] at hle
  rw [hle]
  exact Nat.mod_eq_of_lt (by have := v.isLt; omega)

/-- WIN_READ of a word of the Daybook window. -/
theorem winRead_served {c : Cls} {tag : Word} {a : DWord} (hsvc : s.pins.svc = true) (hidle : ∀ m ∈ s.toll.asm, m.svc = false)
    (hlo : 0xE00000 ≤ a.toNat) (hhi : a.toNat < 0xF00000) (hright : hasRight s .service rREAD = true)
    (hroom : room s .service c (.winRead a.toNat) = true) :
    ∃ t, exec (.winRead c tag a 1) s = .next t ∧
      t.replies = s.replies ++ [⟨.service, tag.toNat, oSERVED, [0xFFFF#32, (windowWord s .service a.toNat).2]⟩] := by
  have hbodies : (svcAddrs a 1).map winBody = [.winRead a.toNat] := by
    have hbody : winBody a.toNat = .winRead a.toNat := if_neg (by omega)
    rw [← hbody]
    rfl
  have hexec : exec (.winRead c tag a 1) s = finishClock s (submitSvc s 5 c tag.toNat [.winRead a.toNat]) := by
    rw [← hbodies]
    rfl
  obtain ⟨u, r, n, hl, hwho, hbody, hsink, hlater, hsub⟩ := svc_room 5 tag.toNat (dayPath_lt hlo) hroom
  have hserved := hsub.trans (finPlain_winRead n hbody hwho hlater (s := withAsm u (svcTaken s 5 c tag.toNat).toll.asm)
    ((hasRight_light hl _ _).trans hright) hlo hhi)
  obtain ⟨t, hnext, hreply, -⟩ := svc_served hsvc hidle hserved rfl hl.replies hsink hbody
  refine ⟨t, hexec.trans hnext, hreply.trans ?_⟩
  rw [windowWord_day _ _ hlo hhi, windowWord_day _ _ hlo hhi, show (withAsm u (svcTaken s 5 c tag.toNat).toll.asm).dayb.ring =
    s.dayb.ring from hl.ring]
  rfl

/-- Settles O15: the word enters at once, and its answer is the whole request's. -/
theorem servicePortRequests : Obligations.ServicePortRequests := by
  unfold Obligations.ServicePortRequests
  exact fun s c tag hsvc hidle => ⟨fun k hk a ha => ⟨regRead_served hsvc hidle hk ha, fun v => regWrite_served hsvc hidle hk ha⟩,
    fun a hfits => ⟨memRead_served hsvc hidle hfits, fun v => memWrite_served hsvc hidle hfits⟩,
    fun a hlo hhi => winRead_served hsvc hidle hlo hhi⟩

end Sys2Proof.Proofs
end

section
/-!
PROOFS. Locksmith (chapter 12, R279–R289): which sessions the close of a slot's sessions and the destruction of keys leave open, what
each command leaves of the slots, and its outcome.
-/

namespace Sys2Proof.Proofs

open Sys2Proof.Machine Sys2Proof.Laws

variable {s t u : State}

/-! ### Sessions closed together (R238, R284, R289) -/

theorem session_closeFree (s : State) (n m : Nat) (hopen : (session s n).open_ = true) :
    session (closeFree s n) m = if m = n then { Session.free with gen := (session s n).gen } else session s m := by
  unfold session at hopen ⊢
  rw [closeFree_opx hopen]
  split
  · rename_i h
    rw [h]
    exact look_put_same _ _ _ _
  · rename_i h
    exact look_put_other _ _ _ _ h

/-- A closed session is not open; no other session opens. -/
theorem open_closeMute (s : State) (n m : Nat) :
    (session (closeMute s n) m).open_ = (decide (m ≠ n) && (session s m).open_) := by
  have hports : ∀ (x : State) (e : List (Nat × EthPort)), ({ x with eth := e } : State).opx = x.opx := fun _ _ => rfl
  rw [session_congr (show (closeMute s n).opx = (closeSession s n).opx from hports _ _)]
  by_cases hopen : (session s n).open_ = true
  · have hclose : session (closeSession s n) m = session (closeFree s n) m := by
      unfold closeSession closeAs
      rw [if_pos hopen]
      exact session_congr (light_logMade _ _ _).opx m
    rw [hclose, session_closeFree s n m hopen]
    by_cases h : m = n
    · simp [h, Session.free]
    · simp [h]
  · have hnone : closeSession s n = s := if_neg hopen
    rw [hnone]
    by_cases h : m = n
    · rw [h, Bool.eq_false_iff.2 hopen]
      simp
    · simp [h]

/-- Of sessions closed in turn none is open. -/
theorem open_foldl_closeMute (l : List Nat) (s : State) (m : Nat) :
    (session (l.foldl closeMute s) m).open_ = (decide (m ∉ l) && (session s m).open_) := by
  induction l generalizing s with
  | nil => simp
  | cons n ns ih =>
    rw [List.foldl_cons, ih, open_closeMute]
    by_cases h : m = n <;> simp [h]

/-- An open session stands in the list of the slots. -/
theorem mem_sess_of_open {m : Nat} (h : (session s m).open_ = true) : (m, session s m) ∈ s.opx.sess := by
  have hget : ∀ l : List (Nat × Session), (look .free l m).open_ = true → (m, look .free l m) ∈ l := by
    intro l
    induction l with
    | nil =>
      intro hfree
      cases hfree
    | cons e es ih =>
      obtain ⟨k, x⟩ := e
      by_cases hk : k = m
      · intro _
        simp [look, get?, hk]
      · intro hopen
        have hlook : look .free ((k, x) :: es) m = look .free es m := by simp [look, get?, hk]
        rw [hlook] at hopen ⊢
        exact List.mem_cons_of_mem _ (ih hopen)
  exact hget _ h

theorem open_closeAll (s : State) (m : Nat) : (session (closeAll s) m).open_ = false := by
  unfold closeAll
  rw [open_foldl_closeMute]
  by_cases hopen : (session s m).open_ = true
  · have hmem : m ∈ s.opx.sess.map Prod.fst := List.mem_map.2 ⟨_, mem_sess_of_open hopen, rfl⟩
    simp [hmem]
  · rw [Bool.eq_false_iff.2 hopen, Bool.and_false]

/-- The sessions opened with a slot are closed. -/
theorem open_closeBySlot {k m : Nat} (hopen : (session s m).open_ = true) (hslot : (session s m).keySlot = k) :
    (session (closeBySlot s k) m).open_ = false := by
  have hmem : m ∈ (s.opx.sess.filter fun e => e.2.open_ && e.2.keySlot == k).map Prod.fst :=
    List.mem_map.2 ⟨(m, session s m), List.mem_filter.2 ⟨mem_sess_of_open hopen, by simp [hopen, hslot]⟩, rfl⟩
  unfold closeBySlot
  rw [open_foldl_closeMute, decide_eq_false (not_not_intro hmem), Bool.false_and]

/-! ### Slots -/

theorem slot_congr (h : t.vault = s.vault) (n : Nat) : slot t n = slot s n := by
  unfold slot
  rw [h]

theorem slot_setSlot_same (s : State) (n : Nat) (k : KeySlot) : slot (setSlot s n k) n = k := look_put_same _ _ _ _

theorem slot_setSlot_other (s : State) {n j : Nat} (k : KeySlot) (h : j ≠ n) : slot (setSlot s n k) j = slot s j :=
  look_put_other _ _ _ _ h

/-! ### The destruction of every key (R286, R289) -/

/-- Every slot EMPTY, its generation advanced once. -/
theorem look_zeroSlots (m : List (Nat × KeySlot)) {j : Nat} (hj : j < 64) :
    look .empty ((List.range 64).foldl (fun x j =>
      put KeySlot.empty x j { KeySlot.empty with gen := nextGen (look .empty m j).gen }) []) j =
      { KeySlot.empty with gen := nextGen (look .empty m j).gen } := by
  have hfold : ∀ (n : Nat) (x : List (Nat × KeySlot)), j < n → look .empty ((List.range n).foldl (fun x j =>
      put KeySlot.empty x j { KeySlot.empty with gen := nextGen (look .empty m j).gen }) x) j =
      { KeySlot.empty with gen := nextGen (look .empty m j).gen } := by
    intro n
    induction n with
    | zero => exact fun x h => absurd h (by omega)
    | succ n ih =>
      intro x h
      rw [List.range_succ, List.foldl_append]
      by_cases hn : j = n
      · rw [hn]
        exact look_put_same _ _ _ _
      · exact (look_put_other _ _ _ _ hn).trans (ih x (by omega))
  exact hfold 64 [] hj

/-- What the destruction of every key leaves. -/
structure Zeroed (s t : State) : Prop where
  slots : ∀ j < 64, slot t j = { KeySlot.empty with gen := nextGen (slot s j).gen }
  scramble : t.vault.scramble = []
  rootOf : t.vault.rootOf = s.vault.rootOf
  closed : ∀ m, (session t m).open_ = false
  guard : t.guard = s.guard
  clk : t.clk = s.clk
  shown : rdB t (reg pLOCK 0x084) 4 = true
  rd : ∀ a, answerPage (pageOf a) = false → pageOf a ≠ pLOCK → rd t a = rd s a
  stat : ∀ i, i ≠ 4 → rdB t (reg pLOCK 0x084) i = rdB s (reg pLOCK 0x084) i
  tick : t.vault.tickAt = s.vault.tickAt ∧ t.vault.tickBase = s.vault.tickBase

theorem evtAddr_lock : evtAddr pLOCK = some (reg pLOCK 0x088) := by decide

theorem zeroed_zeroKeys (s : State) : Zeroed s (zeroKeys s) := by
  obtain ⟨x, hx⟩ : ∃ x : State, x = { s with vault := { s.vault with
      slots := (List.range 64).foldl (fun m j =>
        put KeySlot.empty m j { KeySlot.empty with gen := nextGen (look .empty s.vault.slots j).gen }) []
      scramble := [], data := [] } } := ⟨_, rfl⟩
  obtain ⟨v, hv⟩ : ∃ v, v = wrB x (reg pLOCK 0x084) 4 true := ⟨_, rfl⟩
  have hop : zeroKeys s = ev (closeAll v) pLOCK 1 := by rw [hv, hx]; rfl
  have hapart := apart_closeAll v
  have hvault : (zeroKeys s).vault = v.vault := by rw [hop, ev_vault, hapart.vault]
  have hvx : v.vault = x.vault := by rw [hv]; rfl
  have hevent : ∀ a, a ≠ reg pLOCK 0x088 → answerPage (pageOf a) = false → rd (zeroKeys s) a = rd v a := fun a ha hp => by
    rw [hop, rd_ev_other _ _ _ (by rw [evtAddr_lock]; exact fun h => ha (Option.some.inj h).symm), hapart.rd a (answerReg_of_page hp)]
  have hstat := hevent (reg pLOCK 0x084) (by decide) (by decide)
  have hword : ∀ a, rd x a = rd s a := fun a => by rw [hx]; rfl
  constructor
  · intro j hj
    rw [slot_congr hvault, slot_congr hvx, hx]
    exact look_zeroSlots _ hj
  · rw [hvault, hvx, hx]
  · rw [hvault, hvx, hx]
  · intro m
    rw [hop, session_congr (ev_opx _ _ _)]
    exact open_closeAll v m
  · rw [hop, ev_guard, hapart.guard, hv, hx]
    rfl
  · rw [hop, ev_clk, hapart.clk, hv, hx]
    rfl
  · rw [rdB, hstat, hv]
    exact rdB_wrB_same _ _ (by decide)
  · intro a hp hl
    have hne : ∀ o < 4096, a ≠ reg pLOCK o := fun o ho e => hl (by rw [e, pageOf_reg _ ho])
    rw [hevent a (hne _ (by decide)) hp, hv, rd_wrB_other _ _ _ (hne _ (by decide)), hword]
  · intro i hi
    rw [rdB, hstat, hv]
    refine (rdB_wrF_outside x _ _ (by decide) (by omega)).trans ?_
    exact congrArg (bit · i) (hword _)
  · rw [hvault, hvx, hx]
    exact ⟨rfl, rfl⟩

/-! ### A command that meets nothing on its way (R281) -/

theorem lockCheck_light (h : Light s t) (cmd : Nat) : lockCheck t cmd = lockCheck s cmd := by
  have hfence : rd t (reg pLOCK 0x028) = rd s (reg pLOCK 0x028) := rd_light h 0x028 (by decide) (by decide) (by decide)
  have hmeta : rd t (reg pLOCK 0x094) = rd s (reg pLOCK 0x094) := rd_light h 0x094 (by decide) (by decide) (by decide)
  have hsel : rd t (reg pLOCK 0x08C) = rd s (reg pLOCK 0x08C) := rd_light h 0x08C (by decide) (by decide) (by decide)
  unfold lockCheck lockTarget lockDst lockSel fenced retiredPg cellOut elemSt rdB rdF slot
  rw [hfence, hmeta, hsel, h.vault, h.fltm, h.guard]

theorem lockSel_light (h : Light s t) : lockSel t = lockSel s :=
  congrArg (fld · 0 6) (rd_light h 0x08C (by decide) (by decide) (by decide))

theorem lockDst_light (h : Light s t) : lockDst t = lockDst s :=
  congrArg (fld · 24 6) (rd_light h 0x094 (by decide) (by decide) (by decide))

theorem lockTarget_light (h : Light s t) (cmd : Nat) : lockTarget t cmd = lockTarget s cmd := by
  unfold lockTarget
  rw [lockSel_light h, lockDst_light h]

theorem lockData_light (h : Light s t) : lockData t = lockData s := by
  unfold lockData
  rw [h.vault]

/-- A command to a ready Locksmith whose check passes is carried out, and ends SERVED. -/
theorem lockDo_served {cmd : Nat} (h1 : 1 ≤ cmd) (h8 : cmd ≤ 8) (hready : s.vault.ready = true) (hcheck : lockCheck s cmd = oSERVED) :
    lockDo s cmd = lockEnd (lockEffect s cmd) cmd (lockTarget s cmd) oSERVED := by
  unfold lockDo lockRun
  dsimp only
  rw [if_neg (by omega), hready, hcheck, if_neg (by decide), if_pos rfl]

/-- What the end of a command leaves. -/
theorem lockEnd_spec (s : State) (cmd sl : Nat) :
    rd (lockEnd s cmd sl oSERVED) (reg pLOCK 0x09C) = w32 (oSERVED + cmd * 2 ^ 16 + sl * 2 ^ 24) ∧
      rdB (lockEnd s cmd sl oSERVED) (reg pLOCK 0x088) 0 = true := by
  refine ⟨?_, rdB_ev_same _ evtAddr_lock (by decide)⟩
  unfold lockEnd
  rw [rd_ev_other _ _ _ (by decide), rd_wr_same]

theorem rd_lockEnd_other (s : State) (cmd sl : Nat) {a : Nat} (hr : a ≠ reg pLOCK 0x09C) (he : a ≠ reg pLOCK 0x088) :
    rd (lockEnd s cmd sl oSERVED) a = rd s a := by
  unfold lockEnd
  rw [rd_ev_other _ _ _ (by rw [evtAddr_lock]; exact fun h => he (Option.some.inj h).symm), rd_wr_other _ _ hr]

theorem lockEnd_blocks (s : State) (cmd sl : Nat) :
    (lockEnd s cmd sl oSERVED).vault = s.vault ∧ (lockEnd s cmd sl oSERVED).opx = s.opx ∧ (lockEnd s cmd sl oSERVED).guard = s.guard := by
  unfold lockEnd
  rw [ev_vault, ev_opx, ev_guard, wr_vault, wr_opx, wr_guard]
  exact ⟨rfl, rfl, rfl⟩

/-- How a command ends: its outcome, and beside it what its effect made of the state with its request's accounts. -/
structure LockServed (s : State) (cmd : Nat) (u t : State) : Prop where
  light : Light s u
  result : rd t (reg pLOCK 0x09C) = w32 (oSERVED + cmd * 2 ^ 16 + lockTarget s cmd * 2 ^ 24)
  done : rdB t (reg pLOCK 0x088) 0 = true
  vault : t.vault = (lockEffect u cmd).vault
  opx : t.opx = (lockEffect u cmd).opx
  guard : t.guard = s.guard.advance (lockEffect u cmd).guard
  rd : ∀ a, a ≠ reg pLOCK 0x09C → a ≠ reg pLOCK 0x088 → rd t a = rd (lockEffect u cmd) a

theorem writeEffect_lockCmd (s : State) (i : Init) (v : Word) : writeEffect s i (reg pLOCK 0x090) v = lockDo s (fld v 0 4) := by
  have hrow : (rowOf (reg pLOCK 0x090)).isNone = false := by decide
  have hbank : isLoopbank pLOCK = false := by decide
  unfold writeEffect writeBlock
  dsimp only
  rw [hrow, pageOf_reg _ (by decide), offOf_reg _ (by decide), hbank]
  rfl

/-- A Locksmith command that meets nothing on its way and whose check passes is carried out. -/
theorem lockCommand_clear {i : Init} {v : Word} {cmd : Nat} (h1 : 1 ≤ cmd) (h8 : cmd ≤ 8) (hv : fld v 0 4 = cmd)
    (hready : s.vault.ready = true) (h : clear s i (reg pLOCK 0x090) v = true) (hcheck : lockCheck s cmd = oSERVED) {p : State → Prop}
    (hp : ∀ u t, LockServed s cmd u t → p t) : ∃ t, finishClock s (submitWrite s i (reg pLOCK 0x090) v) = .next t ∧ p t := by
  obtain ⟨x, u, r, hlx, hlu, hsink, hbody, hsub⟩ := submitPlain_regWrite (writeClear_of_clear h)
  have hcode : writeCode x (reg pLOCK 0x090) v = oSERVED := by
    unfold writeCode
    dsimp only
    rw [hv, lockCheck_light hlx, hcheck, ite_self]
  have heff : writeEffect u ⟨i.who, clsFor s i⟩ (reg pLOCK 0x090) v = lockEnd (lockEffect u cmd) cmd (lockTarget s cmd) oSERVED := by
    rw [writeEffect_lockCmd, hv, lockDo_served h1 h8 (by rw [hlu.vault]; exact hready) ((lockCheck_light hlu cmd).trans hcheck), lockTarget_light hlu]
  have hanswer : submitWrite s i (reg pLOCK 0x090) v =
      served (lockEnd (lockEffect u cmd) cmd (lockTarget s cmd) oSERVED) i (reg pLOCK 0x090) := by
    rw [submitWrite, hsub, hcode, heff]
    exact answer_served _ s i _ v _ r hsink hbody
  have hblocks := lockEnd_blocks (lockEffect u cmd) cmd (lockTarget s cmd)
  obtain ⟨hvault, hopx, hguard⟩ := hblocks
  obtain ⟨hresult, hdone⟩ := lockEnd_spec (lockEffect u cmd) cmd (lockTarget s cmd)
  obtain ⟨y, hy⟩ : ∃ y, y = lockEnd (lockEffect u cmd) cmd (lockTarget s cmd) oSERVED := ⟨_, rfl⟩
  rw [← hy] at hanswer hvault hopx hguard hresult hdone
  have hserved : ∃ l, served y i (reg pLOCK 0x090) = { y with replies := l } := by
    unfold served
    split
    · exact ⟨_, rfl⟩
    · exact ⟨_, rfl⟩
  obtain ⟨l, hl⟩ := hserved
  obtain ⟨t, hnext, hd, -⟩ := finishClock_done s (submitWrite s i (reg pLOCK 0x090) v)
  rw [hanswer, hl] at hd
  refine ⟨t, hnext, hp u t ⟨hlu, (hd.rd _).trans hresult, (rdB_done hd _ _).trans hdone, hd.vault.trans hvault, hd.opx.trans hopx, ?_, ?_⟩⟩
  · rw [hd.guard]
    exact congrArg _ hguard
  · intro a hr he
    refine (hd.rd a).trans ?_
    show rd y a = _
    rw [hy]
    exact rd_lockEnd_other _ _ _ hr he

/-! ### What the checks say (R281, R286) -/

/-- A check that passes finds Locksmith and the target in service. -/
theorem lockCheck_inService {cmd : Nat} (h : lockCheck s cmd = oSERVED) :
    ¬ (fenced s pLOCK = true ∨ retiredPg s pLOCK = true ∨ (cmd < 7 ∧ cellOut s pLOCK (lockTarget s cmd) = true)) := by
  intro hout
  unfold lockCheck at h
  dsimp only at h
  rw [if_pos hout] at h
  cases h

theorem lockCheck_commit (h : lockCheck s 2 = oSERVED) : (slot s (lockSel s)).stage.isSome = true := by
  have hin := lockCheck_inService h
  unfold lockCheck at h
  dsimp only at h
  rw [if_neg hin, if_neg (by decide), if_pos rfl] at h
  cases hstage : (slot s (lockSel s)).stage with
  | some x => rfl
  | none =>
    rw [hstage] at h
    cases h

theorem lockCheck_lifecycle {cmd : Nat} (hc : cmd = 7 ∨ cmd = 8) (h : lockCheck s cmd = oSERVED) : s.guard.lifecycle = cmd - 6 := by
  have hin := lockCheck_inService h
  unfold lockCheck at h
  dsimp only at h
  rw [if_neg hin] at h
  by_contra hno
  rcases hc with rfl | rfl
  · rw [if_neg (by decide), if_neg (by decide), if_neg (by decide), if_neg (by decide), if_neg (by decide), if_pos rfl, if_neg hno] at h
    cases h
  · rw [if_neg (by decide), if_neg (by decide), if_neg (by decide), if_neg (by decide), if_neg (by decide), if_neg (by decide), if_pos rfl,
      if_neg hno] at h
    cases h

/-! ### The effects of the commands (R281–R286) -/

theorem lockEffect_stage (s : State) : (lockEffect s 1).vault =
    { (setSlot s (lockSel s) { slot s (lockSel s) with stage := some (rdF s (reg pLOCK 0x094) 0 4, rdF s (reg pLOCK 0x094) 8 8,
        rdF s (reg pLOCK 0x094) 16 8, lockData s) }).vault with data := [] } := rfl

theorem lockEffect_commit {kd tn rt : Nat} {v : List Byte} (h : (slot s (lockSel s)).stage = some (kd, tn, rt, v)) :
    lockEffect s 2 =
      let t := setSlot s (lockSel s)
        ⟨kd, tn, rt, nextGen (slot s (lockSel s)).gen, v, none, (slot s (lockSel s)).mask⟩
      if (slot s (lockSel s)).kind = 2 then closeBySlot t (lockSel s) else t := by
  unfold lockEffect
  dsimp only
  rw [if_neg (by decide), if_pos rfl, h]

theorem lockEffect_cancel (s : State) :
    lockEffect s 3 = setSlot s (lockSel s) { slot s (lockSel s) with stage := none } := rfl

theorem lockEffect_erase (s : State) : lockEffect s 4 =
    let t := setSlot s (lockSel s) { KeySlot.empty with gen := nextGen (slot s (lockSel s)).gen }
    if (slot s (lockSel s)).kind = 2 then closeBySlot t (lockSel s) else t := rfl

/-- The key that DERIVE leaves in its destination. -/
def derivedKey (s : State) : KeySlot :=
  { kind := 5, tenant := (slot s (lockSel s)).tenant, rights := (Config.freeWord s.free).toNat % 256
    gen := nextGen (slot s (lockDst s)).gen
    val := leBytes 32 (Crypto.hmac (slot s (lockSel s)).val ([0, 0, 0, 1] ++
      ramBytes s (rd64 s (reg pLOCK 0x0A8)) (rdF s (reg pLOCK 0x0B0) 0 9) ++ [0, 0, 1, 0])).toNat
    stage := none, mask := (slot s (lockDst s)).mask }

theorem lockEffect_derive (s : State) : lockEffect s 5 =
    let t := setSlot { s with free := s.free + 1 } (lockDst s) (derivedKey s)
    if (slot s (lockDst s)).kind = 2 then closeBySlot t (lockDst s) else t := by
  have hlabel : lockEffect.beDword 1 = [0, 0, 0, 1] := by decide
  have hlength : lockEffect.beDword 256 = [0, 0, 1, 0] := by decide
  unfold lockEffect derivedKey
  dsimp only
  rw [if_neg (by decide), if_neg (by decide), if_neg (by decide), if_neg (by decide), if_pos rfl, hlabel, hlength]

/-- What ATTEST computes its HMAC over. -/
def attested (s : State) : List Byte :=
  leBytes 32 (Crypto.hmac (slot s (lockSel s)).val (lockData s ++ leBytes 16 Config.moduleIdentity.toNat ++
    leBytes 1 s.guard.lifecycle ++ s.vault.measure ++ (leBytes 8 (s.guard.attCtr + 1)).reverse)).toNat

theorem lockEffect_attest (s : State) : lockEffect s 6 =
    wr64 (lockOut { s with guard := { s.guard with attCtr := s.guard.attCtr + 1 } } (attested s)) (reg pLOCK 0x0A0)
      (s.guard.attCtr + 1) := rfl

/-- A slot written, and the sessions opened with it closed when it was OPX_OPEN. -/
def slotWritten (s : State) (n : Nat) (k : KeySlot) (closes : Prop) [Decidable closes] : State :=
  if closes then closeBySlot (setSlot s n k) n else setSlot s n k

theorem slotWritten_vault (s : State) (n : Nat) (k : KeySlot) (closes : Prop) [Decidable closes] :
    (slotWritten s n k closes).vault = (setSlot s n k).vault := by
  unfold slotWritten
  split
  · exact (apart_closeBySlot _ n).vault
  · rfl

/-- What a command that writes one slot leaves. -/
theorem slotWritten_spec (s : State) (n : Nat) (k : KeySlot) (closes : Prop) [Decidable closes] :
    slot (slotWritten s n k closes) n = k ∧ (∀ j, j ≠ n → slot (slotWritten s n k closes) j = slot s j) ∧
      (closes → ∀ m, (session s m).open_ = true → (session s m).keySlot = n → (session (slotWritten s n k closes) m).open_ = false) ∧
      (¬ closes → (slotWritten s n k closes).opx = s.opx) := by
  have hvault := slotWritten_vault s n k closes
  refine ⟨(slot_congr hvault n).trans (slot_setSlot_same s n k), fun j hj => (slot_congr hvault j).trans (slot_setSlot_other s k hj),
    fun hc m hopen hslot => ?_, fun hc => ?_⟩
  · rw [slotWritten, if_pos hc]
    exact open_closeBySlot hopen hslot
  · rw [slotWritten, if_neg hc]
    rfl

/-- A command that writes one slot. -/
theorem slotCommand_served {n cmd : Nat} {u t : State} {k : KeySlot} (hs : LockServed s cmd u t)
    (heff : lockEffect u cmd = slotWritten u n k ((slot s n).kind = 2)) :
    slot t n = k ∧ ((slot s n).kind = 2 → ∀ m, (session s m).open_ = true → (session s m).keySlot = n → (session t m).open_ = false) ∧
      ((slot s n).kind ≠ 2 → t.opx = s.opx) ∧ ∀ j, j ≠ n → slot t j = slot s j := by
  obtain ⟨hslot, hothers, hcloses, hkeeps⟩ := slotWritten_spec u n k ((slot s n).kind = 2)
  have hvault := hs.vault
  have hopx := hs.opx
  rw [heff] at hvault hopx
  refine ⟨(slot_congr hvault n).trans hslot, fun hk m hopen hm => ?_, fun hk => ?_, fun j hj => ?_⟩
  · rw [session_congr hopx]
    exact hcloses hk m (by rwa [session_congr hs.light.opx]) (by rwa [session_congr hs.light.opx])
  · rw [hopx, hkeeps hk, hs.light.opx]
  · rw [slot_congr hvault, hothers j hj, slot_congr hs.light.vault]

section

variable {n : Nat} (hn : n = lockSel s) (hready : s.vault.ready = true) {i : Init}

include hn hready

theorem lockStage_served (h : clear s i (reg pLOCK 0x090) 1 = true) (hcheck : lockCheck s 1 = oSERVED) :
    ∃ t, exec (.lockStage i) s = .next t ∧ ∃ u, LockServed s 1 u t ∧
      slot t n = { slot s n with stage := some (rdF s (reg pLOCK 0x094) 0 4, rdF s (reg pLOCK 0x094) 8 8,
        rdF s (reg pLOCK 0x094) 16 8, lockData s) } ∧ t.vault.data = [] ∧ ∀ j, j ≠ n → slot t j = slot s j := by
  refine lockCommand_clear (by decide) (by decide) (by decide) hready h hcheck fun u t hs => ⟨u, hs, ?_⟩
  have hmeta : rd u (reg pLOCK 0x094) = rd s (reg pLOCK 0x094) := rd_light hs.light 0x094 (by decide) (by decide) (by decide)
  have hvault := hs.vault
  have hslots : ∀ j, slot t j = slot (setSlot u (lockSel u) { slot u (lockSel u) with stage := some (rdF u (reg pLOCK 0x094) 0 4,
      rdF u (reg pLOCK 0x094) 8 8, rdF u (reg pLOCK 0x094) 16 8, lockData u) }) j := fun j => by
    rw [slot, hvault, lockEffect_stage]
    rfl
  simp only [rdF, hmeta, lockSel_light hs.light, lockData_light hs.light, slot_congr hs.light.vault, ← hn] at hslots
  refine ⟨(hslots n).trans (slot_setSlot_same _ _ _), by rw [hvault, lockEffect_stage], fun j hj => ?_⟩
  rw [hslots, slot_setSlot_other _ _ hj, slot_congr hs.light.vault]

theorem lockCommit_served (h : clear s i (reg pLOCK 0x090) 2 = true) (hcheck : lockCheck s 2 = oSERVED) :
    ∃ t, exec (.lockCommit i) s = .next t ∧ ∃ u, LockServed s 2 u t ∧
      (∀ kd tn rt v, (slot s n).stage = some (kd, tn, rt, v) → slot t n = ⟨kd, tn, rt, nextGen (slot s n).gen, v, none, (slot s n).mask⟩) ∧
      ((slot s n).kind = 2 → ∀ m, (session s m).open_ = true → (session s m).keySlot = n → (session t m).open_ = false) ∧
      ((slot s n).kind ≠ 2 → t.opx = s.opx) ∧ ∀ j, j ≠ n → slot t j = slot s j := by
  have hstaged : ∃ kd tn rt v, (slot s n).stage = some (kd, tn, rt, v) := by
    obtain ⟨x, hx⟩ := Option.isSome_iff_exists.1 (lockCheck_commit hcheck)
    rw [hn]
    exact ⟨x.1, x.2.1, x.2.2.1, x.2.2.2, hx⟩
  refine lockCommand_clear (by decide) (by decide) (by decide) hready h hcheck fun u t hs => ⟨u, hs, ?_⟩
  obtain ⟨kd, tn, rt, v, hst⟩ := hstaged
  have hsel : lockSel u = n := (lockSel_light hs.light).trans hn.symm
  have hslot : slot u n = slot s n := slot_congr hs.light.vault n
  have heff : lockEffect u 2 = slotWritten u n ⟨kd, tn, rt, nextGen (slot s n).gen, v, none, (slot s n).mask⟩ ((slot s n).kind = 2) := by
    have hcommit := lockEffect_commit (s := u) (kd := kd) (tn := tn) (rt := rt) (v := v) (by rw [hsel, hslot, hst])
    rw [hsel, hslot] at hcommit
    exact hcommit
  obtain ⟨hnew, hrest⟩ := slotCommand_served hs heff
  refine ⟨fun kd' tn' rt' v' hst' => ?_, hrest⟩
  rw [hst] at hst'
  cases hst'
  exact hnew

theorem lockCancel_served (h : clear s i (reg pLOCK 0x090) 3 = true) (hcheck : lockCheck s 3 = oSERVED) :
    ∃ t, exec (.lockCancel i) s = .next t ∧ ∃ u, LockServed s 3 u t ∧
      slot t n = { slot s n with stage := none } ∧ ∀ j, j ≠ n → slot t j = slot s j := by
  refine lockCommand_clear (by decide) (by decide) (by decide) hready h hcheck fun u t hs => ⟨u, hs, ?_⟩
  have hvault := hs.vault
  rw [lockEffect_cancel, (lockSel_light hs.light).trans hn.symm, slot_congr hs.light.vault] at hvault
  refine ⟨(slot_congr hvault n).trans (slot_setSlot_same _ _ _), fun j hj => ?_⟩
  rw [slot_congr hvault, slot_setSlot_other _ _ hj, slot_congr hs.light.vault]

theorem lockErase_served (h : clear s i (reg pLOCK 0x090) 4 = true) (hcheck : lockCheck s 4 = oSERVED) :
    ∃ t, exec (.lockErase i) s = .next t ∧ ∃ u, LockServed s 4 u t ∧ slot t n = { KeySlot.empty with gen := nextGen (slot s n).gen } ∧
      ((slot s n).kind = 2 → ∀ m, (session s m).open_ = true → (session s m).keySlot = n → (session t m).open_ = false) ∧
      ((slot s n).kind ≠ 2 → t.opx = s.opx) ∧ ∀ j, j ≠ n → slot t j = slot s j := by
  refine lockCommand_clear (by decide) (by decide) (by decide) hready h hcheck fun u t hs => ⟨u, hs, slotCommand_served hs ?_⟩
  rw [lockEffect_erase, (lockSel_light hs.light).trans hn.symm, slot_congr hs.light.vault]
  rfl

theorem derive_served {d : Nat} (hd : d = lockDst s) (h : clear s i (reg pLOCK 0x090) 5 = true) (hcheck : lockCheck s 5 = oSERVED) :
    ∃ t, exec (.derive i) s = .next t ∧ ∃ u, LockServed s 5 u t ∧ (slot t d).kind = 5 ∧ (slot t d).tenant = (slot s n).tenant ∧
      (slot t d).gen = nextGen (slot s d).gen ∧ (slot t d).stage = none ∧
      (slot t d).val = leBytes 32 (Crypto.hmac (slot s n).val ([0, 0, 0, 1] ++
        ramBytes s (rd64 s (reg pLOCK 0x0A8)) (rdF s (reg pLOCK 0x0B0) 0 9) ++ [0, 0, 1, 0])).toNat ∧
      ∀ j, j ≠ d → slot t j = slot s j := by
  refine lockCommand_clear (by decide) (by decide) (by decide) hready h hcheck fun u t hs => ⟨u, hs, ?_⟩
  have hdst : lockDst u = d := (lockDst_light hs.light).trans hd.symm
  obtain ⟨k, hk⟩ : ∃ k, k = derivedKey u := ⟨_, rfl⟩
  have heff : (lockEffect u 5).vault = (setSlot { u with free := u.free + 1 } d k).vault := by
    rw [lockEffect_derive, hdst, hk]
    exact slotWritten_vault { u with free := u.free + 1 } d (derivedKey u) ((slot u d).kind = 2)
  have hvault := hs.vault.trans heff
  have hkey : slot t d = k := (slot_congr hvault d).trans (slot_setSlot_same _ _ _)
  have hval : k.val = leBytes 32 (Crypto.hmac (slot s n).val ([0, 0, 0, 1] ++
      ramBytes s (rd64 s (reg pLOCK 0x0A8)) (rdF s (reg pLOCK 0x0B0) 0 9) ++ [0, 0, 1, 0])).toNat := by
    have hlen : rdF u (reg pLOCK 0x0B0) 0 9 = rdF s (reg pLOCK 0x0B0) 0 9 :=
      congrArg (fld · 0 9) (rd_light hs.light 0x0B0 (by decide) (by decide) (by decide))
    rw [hk, derivedKey, lockSel_light hs.light, ← hn, slot_congr hs.light.vault, hlen,
      rd64_light hs.light 0x0A8 (by decide) (by decide) (by decide), ramBytes_congr hs.light.dram]
  have hgen : k.gen = nextGen (slot s d).gen := by
    rw [hk]
    show nextGen (slot u (lockDst u)).gen = _
    rw [hdst, slot_congr hs.light.vault]
  have hten : k.tenant = (slot s n).tenant := by
    rw [hk]
    show (slot u (lockSel u)).tenant = _
    rw [lockSel_light hs.light, ← hn, slot_congr hs.light.vault]
  rw [hkey]
  refine ⟨by rw [hk]; rfl, hten, hgen, by rw [hk]; rfl, hval, fun j hj => ?_⟩
  rw [slot_congr hvault, slot_setSlot_other _ _ hj]
  exact slot_congr hs.light.vault j

end

/-- The bytes put into LOCK.OUT0–7. -/
theorem rd_lockOut (s : State) (bs : List Byte) {j : Nat} (hj : j < 8) :
    rd (lockOut s bs) (reg pLOCK (0x0E0 + 4 * j)) = w32 (leAt bs (4 * j) 4) := by
  refine rd_foldl_wr_mem (f := fun j => reg pLOCK (0x0E0 + 4 * j)) (List.range 8) (List.mem_range.2 hj) (fun k _ h => ?_) s
  have : 0x0E0 + 4 * k = 0x0E0 + 4 * j := reg_right_inj.1 h
  rw [show k = j by omega]

theorem lockOut_blocks (s : State) (bs : List Byte) : (lockOut s bs).vault = s.vault ∧ (lockOut s bs).guard = s.guard := by
  unfold lockOut
  generalize List.range 8 = l
  induction l generalizing s with
  | nil => exact ⟨rfl, rfl⟩
  | cons j l ih => exact ih _

theorem attest_served (hready : s.vault.ready = true) {i : Init} (h : clear s i (reg pLOCK 0x090) 6 = true) (hcheck : lockCheck s 6 = oSERVED) :
    ∃ t, exec (.attest i) s = .next t ∧ ∃ u, LockServed s 6 u t ∧ t.guard.attCtr = s.guard.attCtr + 1 ∧
      rd64 t (reg pLOCK 0x0A0) = (s.guard.attCtr + 1) % 2 ^ 64 ∧ t.vault.slots = s.vault.slots ∧
      ∀ j < 8, rd t (reg pLOCK (0x0E0 + 4 * j)) = w32 (leAt (attested s) (4 * j) 4) := by
  refine lockCommand_clear (by decide) (by decide) (by decide) hready h hcheck fun u t hs => ⟨u, hs, ?_⟩
  have hguard := hs.guard
  have hvault := hs.vault
  have hrd := hs.rd
  have hctr : u.guard.attCtr = s.guard.attCtr := congrArg Guard.attCtr hs.light.guard
  have hatt : attested u = attested s := by
    unfold attested
    rw [lockSel_light hs.light, slot_congr hs.light.vault, lockData_light hs.light, hs.light.guard, hs.light.vault]
  rw [lockEffect_attest, hctr, hatt] at hguard hvault hrd
  refine ⟨?_, ?_, ?_, fun j hj => ?_⟩
  · rw [hguard, wr64_guard, (lockOut_blocks _ _).2]
    exact Nat.max_eq_right (Nat.le_succ _)
  · rw [rd64_congr (hrd _ (by decide) (by decide)) (hrd _ (by decide) (by decide)), rd64_wr64_same]
  · rw [hvault, wr64_vault, (lockOut_blocks _ _).1]
    exact congrArg Vault.slots hs.light.vault
  · have hne : ∀ o, o < 0x0E0 → reg pLOCK (0x0E0 + 4 * j) ≠ reg pLOCK o := fun o ho e => by
      have := reg_right_inj.1 e
      omega
    rw [hrd _ (hne _ (by decide)) (hne _ (by decide)), wr64, reg_add, rd_wr_other _ _ (hne _ (by decide)), rd_wr_other _ _ (hne _ (by decide)),
      rd_lockOut _ _ hj]

theorem lcOwn_served (hready : s.vault.ready = true) {i : Init} (h : clear s i (reg pLOCK 0x090) 7 = true) (hcheck : lockCheck s 7 = oSERVED) :
    ∃ t, exec (.lcOwn i) s = .next t ∧ ∃ u, LockServed s 7 u t ∧ s.guard.lifecycle = 1 ∧ t.guard.lifecycle = 2 ∧
      t.vault.ownerRoot = lockData s ∧ rdB t (reg pLOCK 0x084) 6 = true ∧ t.vault.rootOf = s.vault.rootOf ∧
      t.vault.slots = s.vault.slots := by
  refine lockCommand_clear (by decide) (by decide) (by decide) hready h hcheck fun u t hs => ⟨u, hs, ?_⟩
  have hlife := lockCheck_lifecycle (.inl rfl) hcheck
  have heff : lockEffect u 7 = wrB { u with guard := { u.guard with lifecycle := 2 }, vault := { u.vault with ownerRoot := lockData u } }
      (reg pLOCK 0x084) 6 true := rfl
  have hguard := hs.guard
  have hvault := hs.vault
  have hrd := hs.rd (reg pLOCK 0x084) (by decide) (by decide)
  rw [heff] at hguard hvault hrd
  refine ⟨hlife, ?_, ?_, ?_, ?_, ?_⟩
  · rw [hguard]
    show max s.guard.lifecycle 2 = 2
    rw [hlife]
    rfl
  · rw [hvault, ← lockData_light hs.light]
    rfl
  · rw [rdB, hrd]
    exact rdB_wrB_same _ _ (by decide)
  · rw [hvault]
    show u.vault.rootOf = _
    rw [hs.light.vault]
  · rw [hvault]
    show u.vault.slots = _
    rw [hs.light.vault]

theorem lcRetire_served (hready : s.vault.ready = true) {i : Init} (h : clear s i (reg pLOCK 0x090) 8 = true) (hcheck : lockCheck s 8 = oSERVED) :
    ∃ t, exec (.lcRetire i) s = .next t ∧ ∃ u, LockServed s 8 u t ∧ s.guard.lifecycle = 2 ∧ t.guard.lifecycle = 3 ∧
      rdB t (reg pLOCK 0x084) 6 = true ∧ t.vault.rootOf = s.vault.rootOf ∧ rdB t (reg pLOCK 0x084) 4 = true ∧
      (∀ m, (session t m).open_ = false) ∧ ∀ j < 64, slot t j = { KeySlot.empty with gen := nextGen (slot s j).gen } := by
  refine lockCommand_clear (by decide) (by decide) (by decide) hready h hcheck fun u t hs => ⟨u, hs, ?_⟩
  have hlife := lockCheck_lifecycle (.inr rfl) hcheck
  obtain ⟨x, hx⟩ : ∃ x, x = wrB { u with guard := { u.guard with lifecycle := 3 } } (reg pLOCK 0x084) 6 true := ⟨_, rfl⟩
  have heff : lockEffect u 8 = zeroKeys x := by rw [hx]; rfl
  have hz := zeroed_zeroKeys x
  have hguard := hs.guard
  have hvault := hs.vault
  have hopx := hs.opx
  have hrd := hs.rd (reg pLOCK 0x084) (by decide) (by decide)
  rw [heff] at hguard hvault hopx hrd
  have hxvault : x.vault = s.vault := by rw [hx]; exact hs.light.vault
  refine ⟨hlife, ?_, ?_, ?_, ?_, fun m => ?_, fun j hj => ?_⟩
  · rw [hguard, hz.guard, hx]
    show max s.guard.lifecycle 3 = 3
    rw [hlife]
    rfl
  · rw [rdB, hrd]
    refine (hz.stat 6 (by decide)).trans ?_
    rw [hx]
    exact rdB_wrB_same _ _ (by decide)
  · rw [hvault, hz.rootOf, hxvault]
  · rw [rdB, hrd]
    exact hz.shown
  · rw [session_congr hopx]
    exact hz.closed m
  · rw [slot_congr hvault, hz.slots j hj, slot_congr hxvault]

/-! ### READY and the masks (R280) -/

/-- Slots re-masked in turn, with the draws that follow. -/
theorem slot_foldl_mask (n : Nat) (x : State) : ∃ y, y = (List.range n).foldl (fun t j =>
      let (m, t) := draw t
      setSlot t j { slot t j with mask := m }) x ∧
    y.vault.draws = x.vault.draws + n ∧ y.vault.remaskAt = x.vault.remaskAt ∧
    ∀ j, slot y j = if j < n then { slot x j with mask := leBytes 32 (Config.randomBytes (x.vault.draws + j)).toNat } else slot x j := by
  induction n with
  | zero => exact ⟨x, rfl, rfl, rfl, fun j => (if_neg (by omega)).symm⟩
  | succ n ih =>
    obtain ⟨y, hy, hdraws, hat, hslot⟩ := ih
    rw [List.range_succ, List.foldl_append, ← hy]
    refine ⟨_, rfl, ?_, ?_, fun j => ?_⟩
    · show y.vault.draws + 1 = _
      rw [hdraws, Nat.add_assoc]
    · exact hat
    · show slot (setSlot (draw y).2 n { slot (draw y).2 n with mask := (draw y).1 }) j = _
      have hdrawn : ∀ k, slot (draw y).2 k = slot y k := fun k => rfl
      by_cases hj : j = n
      · rw [hj, slot_setSlot_same, hdrawn, hslot, if_neg (by omega), if_pos (by omega)]
        show { slot x n with mask := leBytes 32 (Config.randomBytes y.vault.draws).toNat } = _
        rw [hdraws]
      · rw [slot_setSlot_other _ _ hj, hdrawn, hslot]
        by_cases h : j < n
        · rw [if_pos h, if_pos (by omega)]
        · rw [if_neg h, if_neg (by omega)]

theorem remaskAll_waits (h : s.clk.fabric < s.vault.remaskAt + remaskPeriod s * Config.fabricHz) : remaskAll s = s := by
  unfold remaskAll
  rw [if_pos (.inr (.inr (.inr h)))]

theorem remaskAll_due (hready : s.vault.ready = true) (hon : rdB s (reg pLOCK 0x080) 1 = true) (hrng : rngOk s = true)
    (h : s.vault.remaskAt + remaskPeriod s * Config.fabricHz ≤ s.clk.fabric) :
    (remaskAll s).vault.remaskAt = s.clk.fabric ∧
      ∀ j < 64, slot (remaskAll s) j = { slot s j with mask := leBytes 32 (Config.randomBytes (s.vault.draws + j)).toNat } := by
  obtain ⟨y, hy, -, hat, hslot⟩ := slot_foldl_mask 64 { s with vault := { s.vault with remaskAt := s.clk.fabric } }
  have hop : remaskAll s = y := by
    rw [hy]
    unfold remaskAll
    rw [if_neg (by rw [hready, hon, hrng]; simp; omega)]
  rw [hop]
  exact ⟨hat, fun j hj => (hslot j).trans (if_pos hj)⟩

/-- Settles O54: a command that meets nothing on its way is carried out on the slots as they stood. -/
theorem keyCommands : Obligations.KeyCommands := by
  unfold Obligations.KeyCommands
  intro s i n d k R hn hd hk hR
  subst hk
  have hres : ∀ {c u t}, LockServed s c u t → R c t := fun hs => (hR _ _).2 ⟨hs.result, hs.done⟩
  refine ⟨fun hready hfence hret hnone => ?_, fun hready hon hrng due hdue => ?_, fun hready => ⟨fun h hc => ?_, fun h hc => ?_,
    fun h hc => ?_, fun h hc => ?_, fun h hc => ?_, fun h hc => ?_, fun h hc => ?_, fun h hc => ?_⟩⟩
  · refine (finishGuard_next s (lockReady s)).2 ?_
    have hop : lockReady s = wrB { s with vault := { s.vault with
          ready := true, scramble := leBytes 32 (Config.randomBytes s.vault.draws).toNat, waiting := [],
          remaskAt := s.clk.fabric, draws := s.vault.draws + 1 } } (reg pLOCK 0x084) 5 true := by
      unfold lockReady
      rw [if_neg (by rw [hready, hfence, hret]; decide)]
      dsimp only
      rw [show (draw s).2.vault.waiting = [] from hnone]
      rfl
    rw [hop]
    exact ⟨rfl, rdB_wrB_same _ _ (by decide), rfl, rfl⟩
  · refine (finish_next s (remaskAll s)).2 ⟨fun hyet => ?_, fun hover => ?_⟩
    · rw [remaskAll_waits (hdue ▸ hyet)]
      rfl
    · exact remaskAll_due hready hon hrng (hdue ▸ hover)
  · obtain ⟨t, hexec, u, hs, hrest⟩ := lockStage_served hn hready h hc
    exact ⟨t, hexec, hres hs, hrest⟩
  · obtain ⟨t, hexec, u, hs, hrest⟩ := lockCommit_served hn hready h hc
    exact ⟨t, hexec, hres hs, hrest⟩
  · obtain ⟨t, hexec, u, hs, hrest⟩ := lockCancel_served hn hready h hc
    exact ⟨t, hexec, hres hs, hrest⟩
  · obtain ⟨t, hexec, u, hs, hrest⟩ := lockErase_served hn hready h hc
    exact ⟨t, hexec, hres hs, hrest⟩
  · obtain ⟨t, hexec, u, hs, hrest⟩ := derive_served hn hready hd h hc
    exact ⟨t, hexec, hres hs, hrest⟩
  · obtain ⟨t, hexec, u, hs, hctr, hshown, hslots, hout⟩ := attest_served hready h hc
    refine ⟨t, hexec, hres hs, hctr, hshown, hslots, fun x hx j hj => ?_⟩
    rw [hout j hj, hx, attested, ← hn]
  · obtain ⟨t, hexec, u, hs, hrest⟩ := lcOwn_served hready h hc
    exact ⟨t, hexec, hres hs, hrest⟩
  · obtain ⟨t, hexec, u, hs, hrest⟩ := lcRetire_served hready h hc
    exact ⟨t, hexec, hres hs, hrest⟩

end Sys2Proof.Proofs
end

section
/-!
PROOFS. The field update (R342–R345): the lease, the patch and its states, and what entering DEAD stops.
-/

namespace Sys2Proof.Proofs

open Sys2Proof.Machine Sys2Proof.Laws

variable {s t u v : State}

/-! ### Fields beside the one written -/

theorem rdF_wrF_outside (s : State) (a : Nat) {lo w l m : Nat} (c : Nat) (h : lo + w ≤ 32) (hd : l + m ≤ lo ∨ lo + w ≤ l) :
    rdF (wrF s a lo w c) a l m = rdF s a l m := by
  unfold rdF
  rw [rd_wrF_word]
  rcases hd with hbelow | habove
  · exact fld_setFld_below _ _ h hbelow
  · exact fld_setFld_above _ _ h habove

theorem evtAddr_upd : evtAddr pUPD = some (reg pUPD 0x08C) := by decide

/-! ### The end of a command -/

/-- What a command's end leaves as it was made. -/
structure Ends (u t : State) : Prop where
  rd : ∀ a, rd t a = rd u a
  upd : t.upd = u.upd
  loom : t.loom = u.loom
  vault : t.vault = u.vault
  opx : t.opx = u.opx
  regs : t.regs = u.regs

theorem Ends.rdB (h : Ends u t) (a i : Nat) : rdB t a i = Machine.rdB u a i := congrArg (bit · i) (h.rd a)
theorem Ends.rdF (h : Ends u t) (a lo n : Nat) : rdF t a lo n = Machine.rdF u a lo n := congrArg (fld · lo n) (h.rd a)
theorem Ends.updState (h : Ends u t) : updState t = Machine.updState u := h.rdF _ _ _
theorem Ends.aetW0 (h : Ends u t) (n : Nat) : aetW0 t n = Machine.aetW0 u n := h.rd _
theorem Ends.aetW1 (h : Ends u t) (n : Nat) : aetW1 t n = Machine.aetW1 u n := h.rd _

theorem finish_ends (s u : State) : ∃ t, finish s u = .next t ∧ Ends u t :=
  ⟨_, rfl, fun _ => rfl, rfl, rfl, rfl, rfl, rfl⟩

theorem finishGuard_ends (s u : State) : ∃ t, finishGuard s u = .next t ∧ Ends u t ∧ t.guard = s.guard.advance u.guard :=
  ⟨_, rfl, ⟨fun _ => rfl, rfl, rfl, rfl, rfl, rfl⟩, rfl⟩

/-- A write to UPD.CMD that meets nothing on its way. -/
theorem updCmd_clear {i : Init} {v : Word} {cmd : Nat} (hv : fld v 0 3 = cmd) (h : clear s i (reg pUPD 0x084) v = true)
    {p : State → Prop} (hp : ∀ x t, Light s x → Done s (updCmd x i.who cmd) t → p t) :
    ∃ t, finishClock s (submitWrite s i (reg pUPD 0x084) v) = .next t ∧ p t := by
  subst hv
  exact row_clear h (by decide) hp

/-! ### The lease (R343) -/

theorem rd_leaseShow (s : State) {a : Nat} (hu : a ≠ updStatA) (hp : pageOf a ≠ pOPX) : rd (leaseShow s) a = rd s a := by
  have hne : ∀ o < 4096, a ≠ reg pOPX o := fun o ho e => hp (by rw [e, pageOf_reg _ ho])
  unfold leaseShow
  dsimp only
  rw [rd_ev_other _ _ _ fun e => hp (pageOf_evtAddr e), rd_wrB_other _ _ _ (hne _ (by decide)), rd_wrB_other _ _ _ hu]

theorem rdF_leaseShow (s : State) {l m : Nat} (h : l + m ≤ 3 ∨ 4 ≤ l) : rdF (leaseShow s) updStatA l m = rdF s updStatA l m := by
  unfold leaseShow
  dsimp only
  rw [rdF, rd_ev_updStat _ _ (.inl rfl), rd_wrB_other _ _ _ (by decide), ← rdF]
  exact rdF_wrF_outside s _ _ (by decide) h

theorem leaseShow_keeps (s : State) : (leaseShow s).guard = s.guard ∧ (leaseShow s).loom = s.loom := by
  unfold leaseShow
  dsimp only
  rw [ev_guard, ev_loom]
  exact ⟨rfl, rfl⟩

/-- A free lease taken: its number, its holder and RECEIVING where Cobbler was IDLE. -/
theorem leaseTake_shows (w : Who) (org : Word) (hfree : s.upd.lease = none) :
    rd (leaseTake s w org) (reg pUPD 0x09C) = w32 (s.upd.leases + 1) ∧ rd (leaseTake s w org) (reg pUPD 0x0A0) = org ∧
      updState (leaseTake s w org) = if updState s = 0 then 1 else updState s := by
  obtain ⟨y, hy⟩ : ∃ y, y = wr (wr (wr { s with upd := { s.upd with
      lease := some ⟨w, org, (s.upd.leases + 1) % 2 ^ 32, s.clk.fabric⟩, leases := s.upd.leases + 1, patch := [], staged := none } }
      (reg pUPD 0x09C) (w32 (s.upd.leases + 1))) (reg pUPD 0x0A0) org) (reg pUPD 0x0A4) 0 := ⟨_, rfl⟩
  have htake : leaseTake s w org = leaseShow (if updState y = 0 then updGo y 1 else y) := by
    unfold leaseTake
    rw [hfree, if_neg (by decide), hy]
  have hstate : updState y = updState s := by
    rw [hy]
    show fld (rd _ _) 0 3 = _
    rw [rd_wr_other _ _ (by decide), rd_wr_other _ _ (by decide), rd_wr_other _ _ (by decide)]
    rfl
  have hgo : ∀ a, a ≠ updStatA → rd (if updState y = 0 then updGo y 1 else y) a = rd y a := fun a ha => by
    split
    · exact rd_wrF_other y 0 3 1 ha
    · rfl
  rw [htake, rd_leaseShow _ (by decide) (by decide), rd_leaseShow _ (by decide) (by decide), hgo _ (by decide), hgo _ (by decide),
    ← hstate]
  refine ⟨?_, ?_, (rdF_leaseShow _ (by decide)).trans ?_⟩
  · rw [hy, rd_wr_other _ _ (by decide), rd_wr_other _ _ (by decide), rd_wr_same]
  · rw [hy, rd_wr_other _ _ (by decide), rd_wr_same]
  · split
    · exact rd_wrF_same y 1 (by decide)
    · rfl

/-- What the end of a lease leaves of Cobbler's status. -/
theorem leaseGone_keeps (s : State) : (leaseGone s).guard = s.guard ∧ (∀ a, pageOf a ≠ pUPD → pageOf a ≠ pOPX → rd (leaseGone s) a = rd s a) ∧
    ∀ l m, l + m ≤ 3 ∨ 4 ≤ l → rdF (leaseGone s) updStatA l m = rdF s updStatA l m := by
  have hne : ∀ {a o : Nat}, pageOf a ≠ pUPD → o < 4096 → a ≠ reg pUPD o := fun ha ho e => ha (by rw [e, pageOf_reg _ ho])
  unfold leaseGone
  dsimp only
  refine ⟨(leaseShow_keeps _).1, fun a ha hp => ?_, fun l m h => ?_⟩
  · rw [rd_leaseShow _ (hne ha (by decide)) hp, rd_wr_other _ _ (hne ha (by decide)), rd_wr_other _ _ (hne ha (by decide)),
      rd_wr_other _ _ (hne ha (by decide))]
    rfl
  · rw [rdF_leaseShow _ h, rdF, rd_wr_other _ _ (by decide), rd_wr_other _ _ (by decide), rd_wr_other _ _ (by decide)]
    rfl

/-- The end of a held lease: its event, and from RECEIVING and BUILDING the patch given up, with its cause. -/
theorem leaseEnd_shows (hheld : s.upd.lease.isSome = true) :
    rdB (leaseEnd s) (reg pUPD 0x08C) 3 = true ∧ (updState s = 1 ∨ updState s = 2 →
      updState (leaseEnd s) = 0 ∧ (leaseEnd s).upd.patch = [] ∧ rdF (leaseEnd s) updStatA 8 4 = 8) := by
  obtain ⟨y, hy⟩ : ∃ y, y = ev (leaseGone s) pUPD 3 := ⟨_, rfl⟩
  have hevent : rdB y (reg pUPD 0x08C) 3 = true := by
    rw [hy]
    exact rdB_ev_same _ evtAddr_upd (by decide)
  have hend : leaseEnd s = if updState s = 1 ∨ updState s = 2 then updGo (updClear (wrF y updStatA 8 4 8)) 0 else y := by
    unfold leaseEnd
    rw [if_neg (by rw [Option.isNone_eq_false_iff.2 hheld]; decide), hy]
  obtain ⟨z, hz⟩ : ∃ z, z = wrF y updStatA 8 4 8 := ⟨_, rfl⟩
  have hcause : rdF z updStatA 8 4 = 8 := by
    rw [hz]
    exact rd_wrF_same y 8 (by decide)
  have hevz : rd z (reg pUPD 0x08C) = rd y (reg pUPD 0x08C) := by
    rw [hz]
    exact rd_wrF_other y 8 4 8 (by decide)
  rw [hend, ← hz]
  split
  case isTrue hleaves =>
    refine ⟨?_, fun _ => ⟨rd_wrF_same _ 0 (by decide), rfl, ?_⟩⟩
    · rw [updGo, rdB, rd_wrF_other _ _ _ _ (by decide)]
      exact (congrArg (bit · 3) hevz).trans hevent
    · rw [updGo, rdF_wrF_outside _ _ _ (by decide) (by decide)]
      exact hcause
  case isFalse hstays => exact ⟨hevent, fun hleaves => absurd hleaves hstays⟩

section

variable {i : Init}

theorem updTakeLease_takes (h : clear s i (reg pUPD 0x084) 1 = true) : ∃ t, exec (.updTakeLease i) s = .next t ∧
    (s.upd.lease = none → t.upd.lease = some ⟨i.who, origin s i.who, (s.upd.leases + 1) % 2 ^ 32, s.clk.fabric⟩ ∧
      rd t (reg pUPD 0x09C) = w32 (s.upd.leases + 1) ∧ rd t (reg pUPD 0x0A0) = origin s i.who ∧
      rdF t (reg pUPD 0x088) 4 2 = 1 ∧ rdB t (reg pUPD 0x088) 3 = true ∧
      updState t = (if updState s = 0 then 1 else updState s)) ∧
    (s.upd.lease.isSome = true → t.upd.lease = s.upd.lease ∧ rdF t (reg pUPD 0x088) 4 2 = 2 ∧
      rd t (reg pUPD 0x0A0) = rd s (reg pUPD 0x0A0)) := by
  refine updCmd_clear (cmd := 1) rfl h fun x t hl hd => ⟨fun hfree => ?_, fun hheld => ?_⟩
  · rw [← hl.upd] at hfree
    obtain ⟨-, hlease, hbit⟩ := leaseTake_takes i.who (origin x i.who) hfree
    obtain ⟨hnumber, hholder, hstate⟩ := leaseTake_shows i.who (origin x i.who) hfree
    obtain ⟨y, hy⟩ : ∃ y, y = leaseTake x i.who (origin x i.who) := ⟨_, rfl⟩
    have hop : updCmd x i.who 1 = wrF y updStatA 4 2 1 := by
      unfold updCmd
      dsimp only
      rw [if_pos rfl, hfree, ← hy]
      rfl
    rw [hop] at hd
    rw [← hy] at hlease hbit hnumber hholder hstate
    rw [hd.upd, hd.rd, hd.rd, rdF_done hd, rdB_done hd, show updState t = updState (wrF y updStatA 4 2 1) from rdF_done hd _ _ _,
      rd_wrF_other _ _ _ _ (by decide), rd_wrF_other _ _ _ _ (by decide), hnumber, hholder, ← updState_light hl, ← hstate,
      wrF_upd, hlease, origin_congr hl.opx, hl.upd, hl.clk]
    exact ⟨rfl, rfl, rfl, rd_wrF_same y 1 (by decide), (rdB_wrF_outside y _ _ (by decide) (by decide)).trans hbit,
      rdF_wrF_outside y _ _ (by decide) (by decide)⟩
  · have hop : updCmd x i.who 1 = wrF x updStatA 4 2 2 := by
      unfold updCmd leaseTake
      dsimp only
      rw [if_pos rfl, hl.upd, hheld]
      rfl
    rw [hop] at hd
    refine ⟨?_, (rdF_done hd _ _ _).trans (rd_wrF_same x 2 (by decide)), ?_⟩
    · rw [hd.upd, wrF_upd, hl.upd]
    · rw [hd.rd, rd_wrF_other _ _ _ _ (by decide), hl.rd _ (by decide)]

theorem updRenew_renews (h : clear s i (reg pUPD 0x084) 2 = true) : ∃ t, exec (.updRenew i) s = .next t ∧
    ∀ l, s.upd.lease = some l → t.upd.lease = some { l with at_ := s.clk.fabric } := by
  refine updCmd_clear (cmd := 2) rfl h fun x t hl hd l hlease => ?_
  rw [hd.upd, show updCmd x i.who 2 = leaseRenew x from rfl, leaseRenew_renews (by rw [hl.upd, hlease]), hl.clk]

theorem updRelease_ends (h : clear s i (reg pUPD 0x084) 3 = true) (hheld : s.upd.lease.isSome = true) :
    ∃ t, exec (.updRelease i) s = .next t ∧ t.upd.lease = none ∧ rdF t (reg pUPD 0x088) 4 2 = 3 ∧ rdB t (reg pUPD 0x088) 3 = false ∧
      rdB t (reg pUPD 0x08C) 3 = true ∧ (updState s = 1 ∨ updState s = 2 → updState t = 0 ∧ t.upd.patch = [] ∧
        rdF t (reg pUPD 0x088) 8 4 = 8) := by
  refine updCmd_clear (cmd := 3) rfl h fun x t hl hd => ?_
  rw [← hl.upd] at hheld
  obtain ⟨hlease, hbit, -⟩ := leaseEnd_ends hheld
  obtain ⟨hevent, hleaves⟩ := leaseEnd_shows hheld
  obtain ⟨y, hy⟩ : ∃ y, y = leaseEnd x := ⟨_, rfl⟩
  have hop : updCmd x i.who 3 = wrF y updStatA 4 2 3 := by rw [hy]; rfl
  rw [hop] at hd
  rw [← hy] at hlease hbit hevent hleaves
  refine ⟨by rw [hd.upd, wrF_upd, hlease], (rdF_done hd _ _ _).trans (rd_wrF_same y 3 (by decide)),
    ((rdB_done hd _ _).trans (rdB_wrF_outside y _ _ (by decide) (by decide))).trans hbit, ?_, fun hstate => ?_⟩
  · rw [rdB_done hd, rdB, rd_wrF_other _ _ _ _ (by decide)]
    exact hevent
  · rw [← updState_light hl] at hstate
    obtain ⟨hidle, hpatch, hcause⟩ := hleaves hstate
    exact ⟨((rdF_done hd _ _ _).trans (rdF_wrF_outside y _ _ (by decide) (by decide))).trans hidle, by rw [hd.upd, wrF_upd, hpatch],
      ((rdF_done hd _ _ _).trans (rdF_wrF_outside y _ _ (by decide) (by decide))).trans hcause⟩

end

end Sys2Proof.Proofs
end

section
/-!
PROOFS. The patch of a field update (R341–R345): its checks, its target, arming, confirming, and entering DEAD.
-/

namespace Sys2Proof.Proofs

open Sys2Proof.Machine Sys2Proof.Laws

variable {s t u : State}

/-! ### A patch submitted (R342) -/

theorem patchCause_light (h : Light s t) (b : List Byte) (full : Bool) : patchCause t b full = patchCause s b full := by
  unfold patchCause rootForce
  rw [h.vault, h.upd, h.guard]

theorem patchCause_lt (s : State) (b : List Byte) (full : Bool) : patchCause s b full < 16 := by
  unfold patchCause
  dsimp only
  split_ifs <;> decide

/-- A patch rejected out of DEAD: its cause and its event, RECEIVING again. -/
theorem patchReject_shows {cause : Nat} (hc : cause < 16) (hdead : updState s ≠ 5) :
    updState (patchReject s cause) = 1 ∧ rdF (patchReject s cause) updStatA 8 4 = cause ∧
      rdB (patchReject s cause) (reg pUPD 0x08C) 2 = true ∧ (patchReject s cause).upd.image = s.upd.image := by
  obtain ⟨y, hy⟩ : ∃ y, y = ev (wrF s updStatA 8 4 cause) pUPD 2 := ⟨_, rfl⟩
  have hstat : rd y updStatA = rd (wrF s updStatA 8 4 cause) updStatA := by
    rw [hy]
    exact rd_ev_updStat _ _ (.inr rfl)
  have hcause : rdF y updStatA 8 4 = cause := by
    rw [rdF, hstat, ← rdF, rd_wrF_same s cause (by decide), Nat.mod_eq_of_lt (show cause < 2 ^ 4 from hc)]
  have hevent : rdB y (reg pUPD 0x08C) 2 = true := by
    rw [hy]
    exact rdB_ev_same _ evtAddr_upd (by decide)
  have hstate : updState y = updState s := by
    unfold updState
    rw [rdF, hstat]
    exact rdF_wrF_outside s _ _ (by decide) (by decide)
  have hupd : y.upd = s.upd := by
    rw [hy, ev_upd]
    rfl
  have hop : patchReject s cause = updClear (updGo y 1) := by
    unfold patchReject
    dsimp only
    rw [← hy, if_neg (by rwa [hstate])]
  rw [hop]
  refine ⟨rd_wrF_same y 1 (by decide), (rdF_wrF_outside y _ _ (by decide) (by decide)).trans hcause, ?_, ?_⟩
  · exact (congrArg (bit · 2) (rd_wrF_other y 0 3 1 (by decide))).trans hevent
  · show y.upd.image = _
    rw [hupd]

/-- The bytes of a patch that its chunks have brought whole. -/
theorem map_snd_zipIdx_swap (b : List Byte) : ((b.zipIdx.map fun e => (e.2, e.1)).map Prod.snd : List Byte) = b := by
  rw [List.map_map]
  exact List.zipIdx_map_fst 0 b

theorem patchCheck_accepts {b : List Byte} (hc : patchCause s b (updState s == 5) = 0) (hdead : updState s ≠ 5) :
    updState (patchCheck s b) = 2 ∧ patchBytes (patchCheck s b) = b ∧ (patchCheck s b).upd.sq = leAt b 0x48 4 ∧
      (patchCheck s b).upd.group = leAt b 0x4C 4 ∧ (patchCheck s b).upd.actTime = leAt b 0x50 8 := by
  obtain ⟨y, hy⟩ : ∃ y, y = wr { s with upd := { s.upd with
      patch := b.zipIdx.map fun e => (e.2, e.1), sq := leAt b 0x48 4, group := leAt b 0x4C 4, actTime := leAt b 0x50 8 } }
      (reg pUPD 0x0A4) (w32 (leAt b 0x48 4)) := ⟨_, rfl⟩
  have hstate : updState y = updState s := by
    unfold updState
    rw [hy, rdF, rd_wr_other _ _ (by decide)]
    rfl
  have hop : patchCheck s b = wrF (updGo y 2) updStatA 8 4 0 := by
    unfold patchCheck
    dsimp only
    rw [hc, if_neg (by decide), ← hy, if_neg (by rwa [hstate])]
  have hupd : (patchCheck s b).upd = y.upd := by rw [hop]; rfl
  refine ⟨?_, ?_, by rw [hupd, hy]; rfl, by rw [hupd, hy]; rfl, by rw [hupd, hy]; rfl⟩
  · rw [hop]
    exact (rdF_wrF_outside (updGo y 2) _ _ (by decide) (by decide)).trans (rd_wrF_same y 2 (by decide))
  · rw [patchBytes, hupd, hy]
    exact map_snd_zipIdx_swap b

theorem updSubmit_checks {i : Init} {b : List Byte} (hb : b = ramBytes s (rd64 s (reg pUPD 0x090)) (rdF s (reg pUPD 0x098) 0 27))
    (h : clear s i (reg pUPD 0x084) 4 = true) (hstate : updState s = 1) : ∃ t, exec (.updSubmit i) s = .next t ∧
      (patchCause s b false = 0 → updState t = 2 ∧ patchBytes t = b ∧ t.upd.sq = leAt b 0x48 4 ∧
        t.upd.group = leAt b 0x4C 4 ∧ t.upd.actTime = leAt b 0x50 8) ∧
      (patchCause s b false ≠ 0 → updState t = 1 ∧ rdF t (reg pUPD 0x088) 8 4 = patchCause s b false ∧
        rdB t (reg pUPD 0x08C) 2 = true ∧ t.upd.image = s.upd.image) := by
  refine updCmd_clear (cmd := 4) rfl h fun x t hl hd => ?_
  have hxstate : updState x = 1 := (updState_light hl).trans hstate
  have hfive : (updState x == 5) = false := by rw [hxstate]; rfl
  have hbytes : ramBytes x (rd64 x (reg pUPD 0x090)) (rdF x (reg pUPD 0x098) 0 27) = b := by
    rw [hb, ramBytes_congr hl.dram, rd64_light hl 0x090 (by decide) (by decide) (by decide)]
    exact congrArg (ramBytes s _) (congrArg (fld · 0 27) (rd_light hl 0x098 (by decide) (by decide) (by decide)))
  have hop : updCmd x i.who 4 = patchCheck x b := by
    unfold updCmd
    dsimp only
    rw [if_neg (by decide), if_neg (by decide), if_neg (by decide), if_pos rfl, hxstate, hbytes]
    rfl
  rw [hop] at hd
  have hcause : patchCause x b (updState x == 5) = patchCause s b false := by rw [hfive, patchCause_light hl]
  have hdead : updState x ≠ 5 := by rw [hxstate]; decide
  refine ⟨fun hok => ?_, fun hbad => ?_⟩
  · obtain ⟨hgo, hpatch, hsq, hgroup, hact⟩ := patchCheck_accepts (hcause.trans hok) hdead
    rw [patchBytes, hd.upd]
    exact ⟨(rdF_done hd _ _ _).trans hgo, hpatch, hsq, hgroup, hact⟩
  · have hrej : patchCheck x b = patchReject x (patchCause s b false) := by
      unfold patchCheck
      dsimp only
      rw [hcause, if_pos hbad]
    rw [hrej] at hd
    obtain ⟨hgo, hfield, hevent, himage⟩ := patchReject_shows (patchCause_lt s b false) hdead
    exact ⟨(rdF_done hd _ _ _).trans hgo, (rdF_done hd _ _ _).trans hfield, (rdB_done hd _ _).trans hevent, by rw [hd.upd, himage, hl.upd]⟩

end Sys2Proof.Proofs
end

section
/-!
PROOFS. The frame of Factor's block fault (R182): what the discarded work and its completions leave as it stands.
-/

namespace Sys2Proof.Proofs

open Sys2Proof.Machine Sys2Proof.Laws

variable {s t u : State}

/-- The registers that Factor's own work can change: those of its pages and TOLL's but for their fault registers, and the tail of a
completion ring. -/
def solverReg (a : Nat) : Bool :=
  (pageOf a == pTOLL || pageOf a == pFACT || pageOf a == pFACTQ) && !faultHead a || a % 64 == 32

/-- One state is another after work of Factor's: beside its own structures, DRAM, TOLL's accounts and the events nothing has changed. -/
structure Solving (s t : State) : Prop where
  rest : t = { s with regs := t.regs, toll := t.toll, dram := t.dram, fact := t.fact, fresh := t.fresh }
  rd : ∀ a, solverReg a = false → rd t a = rd s a

theorem Solving.refl (s : State) : Solving s s := ⟨rfl, fun _ _ => rfl⟩

theorem Solving.trans (h : Solving s t) (k : Solving t u) : Solving s u where
  rest := by rw [k.rest, h.rest]
  rd := fun a ha => (k.rd a ha).trans (h.rd a ha)

theorem Solving.foldl {α : Type} {f : State → α → State} (l : List α) (h : ∀ s, ∀ x ∈ l, Solving s (f s x)) (s : State) :
    Solving s (l.foldl f s) := by
  induction l generalizing s with
  | nil => exact .refl s
  | cons x xs ih =>
    exact (h s x List.mem_cons_self).trans (ih (fun t y hy => h t y (List.mem_cons_of_mem _ hy)) (f s x))

theorem Solving.wr (h : Solving s t) {a : Nat} (v : Word) (ha : solverReg a = true) : Solving s (wr t a v) :=
  h.trans ⟨rfl, fun b hb => rd_wr_other t v fun e => by rw [e, ha] at hb; cases hb⟩

theorem Solving.bump (h : Solving s t) {a : Nat} (ha : solverReg a = true) : Solving s (bump t a) := h.wr _ ha

theorem Solving.ev (h : Solving s t) {p : Nat} (b : Nat) (hp : ∀ a, evtAddr p = some a → solverReg a = true) : Solving s (ev t p b) := by
  unfold Machine.ev
  split
  · rename_i a ha
    exact h.trans ⟨rfl, fun c hc => rd_setBits_other t _ fun e => by rw [e, hp a ha] at hc; cases hc⟩
  · exact h

theorem Solving.withFact (h : Solving s t) (x : Fact) : Solving s { t with fact := x } := h.trans ⟨rfl, fun _ _ => rfl⟩

theorem Solving.loom (h : Solving s t) : t.loom = s.loom := by rw [h.rest]
theorem Solving.vault (h : Solving s t) : t.vault = s.vault := by rw [h.rest]
theorem Solving.opx (h : Solving s t) : t.opx = s.opx := by rw [h.rest]
theorem Solving.guard (h : Solving s t) : t.guard = s.guard := by rw [h.rest]
theorem Solving.clk (h : Solving s t) : t.clk = s.clk := by rw [h.rest]
theorem Solving.fltm (h : Solving s t) : t.fltm = s.fltm := by rw [h.rest]

/-! ### Requests to DRAM and completions (R161, R169) -/

theorem solverReg_factq (q : Nat) : solverReg (fq q 0x0A0) = true := by
  unfold solverReg fq reg
  have : (pFACTQ * 4096 + (0x0A0 + 0x40 * q)) % 64 = 32 := by
    show (0x31 * 4096 + (0x0A0 + 0x40 * q)) % 64 = 32
    omega
  simp [this]

theorem solving_hwGrant (s : State) (w : Who) (c : Cls) {k : Nat} (ks : List Nat) (n : Nat) (hk : k ≤ 8) :
    Solving s (hwGrant s w c k ks n) := by
  have htoll : ∀ (t : State) (x : Toll), Solving t { t with toll := x } := fun t x => ⟨rfl, fun _ _ => rfl⟩
  have hmark : Solving s (if overBudget s w c k n then budgetMark s w c k else s) := by
    split
    · exact ((htoll s _).ev 0 (by decide)).wr _ (by decide)
    · exact .refl s
  have huse : Solving s (tollUse (if overBudget s w c k n then budgetMark s w c k else s) w c k n) := hmark.trans (htoll _ _)
  unfold hwGrant
  dsimp only
  split
  · exact huse
  · refine huse.wr _ ?_
    have hpage := pageOf_tollCount k c (o := 0) hk (by decide)
    have hhead : faultHead (reg pTOLL (0x200 + 0x40 * resNum k + 12 * clsN c + 0)) = false := by
      have hres := resNum_le hk
      have hcls := clsN_le c
      exact faultHead_reg (by omega) (by omega)
    unfold solverReg
    rw [hpage, hhead]
    rfl

theorem solving_hwGrants (s : State) (w : Who) (c : Cls) {ks : List Nat} (n : Nat) (hks : ∀ k ∈ ks, k ≤ 8) :
    Solving s (hwGrants s w c ks n) := by
  induction ks generalizing s with
  | nil => exact .refl s
  | cons k ks ih =>
    unfold hwGrants
    split
    · exact .refl s
    · exact (solving_hwGrant s w c ks n (hks k List.mem_cons_self)).trans (ih _ fun j hj => hks j (List.mem_cons_of_mem _ hj))

theorem solving_factIssue (s : State) (c : Cls) (n : Nat) : Solving s (factIssue s c n) :=
  (solving_hwGrants s whoFact c n (by decide)).withFact _

theorem solving_ramWrite (s : State) (a : Nat) (bs : List Byte) : Solving s (ramWrite s a bs) := by
  obtain ⟨m, hm⟩ := ramWrite_eq bs s a
  rw [hm]
  exact ⟨rfl, fun _ _ => rfl⟩

theorem solving_postOne (s : State) (p : Post) : Solving s (postOne s p) := by
  unfold postOne
  dsimp only
  refine .ev (.ev ?_ 0 (by decide)) p.q (by decide)
  have hposted := fun x a bs v => ((((solving_factIssue s p.cls 1).trans (solving_ramWrite _ a bs)).wr v (solverReg_factq p.q)).withFact x)
  split
  · exact (hposted _ _ _ _).bump (by decide)
  · exact hposted _ _ _ _

theorem solving_postFlush (k : Nat) (s : State) : Solving s (postFlush s k) := by
  induction k generalizing s with
  | zero => exact .refl s
  | succ k ih =>
    unfold postFlush
    split
    · exact .refl s
    · exact (((Solving.refl s).withFact _).trans (solving_postOne _ _)).trans (ih _)

theorem solving_postAll (s : State) (ps : List Post) : Solving s (postAll s ps) :=
  ((Solving.refl s).withFact _).trans (solving_postFlush _ _)

/-! ### Work discarded (R182) -/

theorem solving_sqTake (s : State) {q : Nat} (i : Nat) (hq : q < 2) : Solving s (sqTake s q i) := by
  unfold sqTake
  refine ((Solving.refl s).withFact _).wr _ ?_
  have hpage : pageOf (fq q 0x090) = pFACTQ := pageOf_reg _ (by omega)
  have hhead : faultHead (fq q 0x090) = false := faultHead_reg (by omega) (by omega)
  unfold solverReg
  rw [hpage, hhead]
  rfl

theorem solving_jobEnd_discarded (s : State) (j : Solve) (hkind : j.kind = 0) : Solving s (jobEnd s j 6) := by
  have hop : jobEnd s j 6 = complete { s with fact := { s.fact with run := none } } j.q j.desc (jobCompl s j 6 j.x) j.start := by
    unfold jobEnd
    rw [hkind]
    rfl
  rw [hop]
  exact ((Solving.refl s).withFact _).trans (solving_postAll _ _)

theorem solving_factDiscard (s : State) : Solving s (factDiscard s) := by
  unfold factDiscard
  dsimp only
  split
  · exact (((Solving.refl s).withFact _).trans (solving_jobEnd_discarded _ _ rfl)).bump (by decide)
  · exact ((((Solving.refl s).withFact _).withFact _).trans (solving_postAll _ _)).bump (by decide)
  · exact (Solving.refl s).withFact _

theorem solving_factBlockFault (s : State) : Solving s (factBlockFault s) := by
  have htaken : ∀ (l : List Nat) (t : State), (∀ q ∈ l, q < 2) →
      Solving t (l.foldl (fun t q => (fqPend t q).foldl (fun u e => sqTake u q e.1) t) t) := fun l t hl =>
    Solving.foldl l (fun t q hq => Solving.foldl _ (fun u e _ => solving_sqTake u e.1 (hl q hq)) t) t
  unfold factBlockFault
  dsimp only
  exact ((((solving_factDiscard s).trans (htaken _ _ (by decide))).withFact _).wr _ (by decide)).trans (solving_postAll _ _)

end Sys2Proof.Proofs
end

section
/-!
PROOFS. How a field update ends (R342–R345): the target built and armed, cancelled, confirmed, or DEAD; and the settled obligation.
-/

namespace Sys2Proof.Proofs

open Sys2Proof.Machine Sys2Proof.Laws

variable {s t u : State}

/-! ### A step that no request waits on (R342) -/

theorem light_updLog (old s : State) : Light s (updLog old s) := light_logMade _ _ _

theorem rd_updLog (old s : State) {o : Nat} (ho : o < 4096) : rd (updLog old s) (reg pUPD o) = rd s (reg pUPD o) :=
  rd_light (light_updLog old s) o ho (by decide) (by decide)

theorem updState_updLog (old s : State) : updState (updLog old s) = updState s := updState_light (light_updLog old s)

/-! ### Entry 42 (R344) -/

theorem rd_aetSet_page (s : State) {n a : Nat} (x y : Word) (hn : n < 64) (ha : pageOf a ≠ pAET) : rd (aetSet s n x y) a = rd s a :=
  rd_aetSet_other s x y fun w hw e => ha (by
    rw [e, aetAddr, pageOf_reg _ (by omega)]
    omega)

theorem aetSet_upd (s : State) (n : Nat) (x y : Word) : (aetSet s n x y).upd = s.upd := rfl

/-- The entry that arms the activation. -/
theorem aetPlace_armed (s : State) : aetW0 (aetPlace s 42 0 0 0 1 0xB 0) 42 = 0x90000000#32 ∧
    fld (aetW1 (aetPlace s 42 0 0 0 1 0xB 0) 42) 0 8 = 0xB := by
  unfold aetPlace
  rw [aetW0_aetSet_same, aetW1_aetSet_same]
  decide

/-! ### PATCH_BUILD_DONE (R341, R342) -/

/-- The state once a target stands in staging. -/
def targetStaged (s : State) (img : List Byte) : State :=
  wr (ev (updGo { s with upd := { s.upd with staged := some img } } 3) pUPD 0) (reg pUPD 0x0B4) (w32 s.upd.group)

theorem targetStaged_shows (s : State) (img : List Byte) : updState (targetStaged s img) = 3 ∧
    rdB (targetStaged s img) (reg pUPD 0x08C) 0 = true ∧
    (targetStaged s img).upd = { s.upd with staged := some img } := by
  obtain ⟨y, hy⟩ : ∃ y, y = { s with upd := { s.upd with staged := some img } } := ⟨_, rfl⟩
  have hop : targetStaged s img = wr (ev (updGo y 3) pUPD 0) (reg pUPD 0x0B4) (w32 s.upd.group) := by rw [hy]; rfl
  rw [hop]
  refine ⟨?_, ?_, ?_⟩
  · rw [updState, rdF, rd_wr_other _ _ (by decide), rd_ev_updStat _ _ (.inr rfl), ← rdF]
    exact rd_wrF_same y 3 (by decide)
  · rw [rdB, rd_wr_other _ _ (by decide), ← rdB]
    exact rdB_ev_same _ evtAddr_upd (by decide)
  · rw [wr_upd, ev_upd, hy]
    rfl

/-- The target staged, and entry 42 enabled where the activation waits for no time. -/
def targetArmed (s : State) (img : List Byte) : State :=
  if s.upd.actTime = 0 then aetPlace (targetStaged s img) 42 0 0 0 1 0xB 0 else targetStaged s img

theorem targetArmed_shows (s : State) (img : List Byte) : updState (targetArmed s img) = 3 ∧
    rdB (targetArmed s img) (reg pUPD 0x08C) 0 = true ∧ (targetArmed s img).upd = { s.upd with staged := some img } ∧
    (s.upd.actTime = 0 → bit (aetW0 (targetArmed s img) 42) 31 = true) := by
  obtain ⟨hstate, hevent, hupd⟩ := targetStaged_shows s img
  unfold targetArmed
  split
  · refine ⟨?_, ?_, (aetSet_upd _ _ _ _).trans hupd, fun _ => ?_⟩
    · rw [updState, rdF, aetPlace, rd_aetSet_page _ _ _ (by decide) (by decide)]
      exact hstate
    · rw [rdB, aetPlace, rd_aetSet_page _ _ _ (by decide) (by decide)]
      exact hevent
    · rw [(aetPlace_armed _).1]
      decide
  · rename_i hlater
    exact ⟨hstate, hevent, hupd, fun h => absurd h hlater⟩

/-- What a build out of DEAD makes of a target. -/
def targetTaken (s : State) (nandOk : Bool) (img : List Byte) : State :=
  if (Crypto.sha256 img).toNat ≠ leAt (patchBytes s) 0x28 32 then patchReject s 6
  else if !nandOk then patchReject s 7 else targetArmed s img

/-- The target that a patch's operations make. -/
def target (s : State) (b : List Byte) : Option (List Byte) :=
  patchRun (patchBase s b) (leAt b 0x5C 4) (((b.drop 128).take (leAt b 0x58 4)).length + 1) ((b.drop 128).take (leAt b 0x58 4)) []

theorem building (hstate : updState s = 2) : ¬ (updState s ≠ 2 ∧ !(updState s == 5 && !(patchBytes s).isEmpty)) := fun h => h.1 hstate

theorem buildDone_none (hstate : updState s = 2) (nandOk : Bool) (h : target s (patchBytes s) = none) :
    buildDone s nandOk = updLog s (patchReject s 5) := by
  unfold target at h
  unfold buildDone
  dsimp only
  rw [if_neg (building hstate), h]

theorem buildDone_some (hstate : updState s = 2) (nandOk : Bool) {img : List Byte} (h : target s (patchBytes s) = some img) :
    buildDone s nandOk = updLog s (targetTaken s nandOk img) := by
  have hupd : (ev (updGo { s with upd := { s.upd with staged := some img } } 3) pUPD 0).upd = { s.upd with staged := some img } := by
    rw [ev_upd]
    rfl
  unfold target at h
  unfold buildDone targetTaken targetArmed targetStaged
  dsimp only
  rw [if_neg (building hstate), h]
  dsimp only
  rw [if_neg (show ¬ updState s = 5 by rw [hstate]; decide), wr_upd, hupd]

theorem patchReject_logged {cause : Nat} (hc : cause < 16) (hstate : updState s = 2) :
    updState (updLog s (patchReject s cause)) = 1 ∧ rdF (updLog s (patchReject s cause)) (reg pUPD 0x088) 8 4 = cause ∧
      rdB (updLog s (patchReject s cause)) (reg pUPD 0x08C) 2 = true ∧ (updLog s (patchReject s cause)).upd.image = s.upd.image := by
  obtain ⟨hgo, hcause, hevent, himage⟩ := patchReject_shows hc (s := s) (by rw [hstate]; decide)
  refine ⟨(updState_updLog _ _).trans hgo, (congrArg (fld · 8 4) (rd_updLog _ _ (by decide))).trans hcause,
    (congrArg (bit · 2) (rd_updLog _ _ (by decide))).trans hevent, ?_⟩
  rw [(light_updLog _ _).upd, himage]

theorem patchBuildDone_builds (hstate : updState s = 2) (nandOk : Bool) {b : List Byte} {R : Option (List Byte)} (hb : b = patchBytes s)
    (hR : R = patchRun (patchBase s b) (leAt b 0x5C 4) (((b.drop 128).take (leAt b 0x58 4)).length + 1)
      ((b.drop 128).take (leAt b 0x58 4)) []) :
    ∃ t, exec (.patchBuildDone nandOk) s = .next t ∧ t.upd.image = s.upd.image ∧
      (R = none → updState t = 1 ∧ rdF t (reg pUPD 0x088) 8 4 = 5 ∧ rdB t (reg pUPD 0x08C) 2 = true) ∧
      ∀ img, R = some img →
        ((Crypto.sha256 img).toNat = leAt b 0x28 32 → nandOk = true → updState t = 3 ∧ t.upd.staged = some img ∧
          rdB t (reg pUPD 0x08C) 0 = true ∧ (s.upd.actTime = 0 → bit (aetW0 t 42) 31 = true)) ∧
        ((Crypto.sha256 img).toNat = leAt b 0x28 32 → nandOk = false → updState t = 1 ∧
          rdF t (reg pUPD 0x088) 8 4 = 7) ∧
        ((Crypto.sha256 img).toNat ≠ leAt b 0x28 32 → updState t = 1 ∧ rdF t (reg pUPD 0x088) 8 4 = 6) := by
  obtain ⟨t, hexec, he⟩ := finish_ends s (buildDone s nandOk)
  refine ⟨t, hexec, ?_⟩
  have hrun : target s (patchBytes s) = R := by rw [hR, hb]; rfl
  rw [he.upd, he.updState, he.rdF, he.rdB, he.rdB, he.aetW0]
  cases R with
  | none =>
    rw [buildDone_none hstate nandOk hrun]
    obtain ⟨hgo, hcause, hevent, himage⟩ := patchReject_logged (cause := 5) (by decide) hstate
    exact ⟨himage, fun _ => ⟨hgo, hcause, hevent⟩, nofun⟩
  | some img =>
    rw [buildDone_some hstate nandOk hrun, targetTaken, ← hb]
    by_cases hhash : (Crypto.sha256 img).toNat = leAt b 0x28 32
    · rw [if_neg (not_not.2 hhash)]
      cases nandOk with
      | false =>
        obtain ⟨hgo, hcause, hevent, himage⟩ := patchReject_logged (cause := 7) (by decide) hstate
        refine ⟨himage, nofun, fun img' h => ?_⟩
        cases h
        exact ⟨fun _ h => (by cases h), fun _ _ => ⟨hgo, hcause⟩, fun h => absurd hhash h⟩
      | true =>
        obtain ⟨hgo, hevent, hupd, hentry⟩ := targetArmed_shows s img
        have hl := light_updLog s (targetArmed s img)
        refine ⟨?_, nofun, fun img' h => ?_⟩
        · show (updLog s (targetArmed s img)).upd.image = _
          rw [hl.upd, hupd]
        · cases h
          refine ⟨fun _ _ => ⟨(updState_updLog _ _).trans hgo, ?_, (congrArg (bit · 0) (rd_updLog _ _ (by decide))).trans hevent,
            fun h0 => ?_⟩, fun _ h => (by cases h), fun h => absurd hhash h⟩
          · show (updLog s (targetArmed s img)).upd.staged = _
            rw [hl.upd, hupd]
          · exact (congrArg (bit · 31) (hl.rd _ (by decide))).trans (hentry h0)
    · rw [if_pos hhash]
      obtain ⟨hgo, hcause, hevent, himage⟩ := patchReject_logged (cause := 6) (by decide) hstate
      refine ⟨himage, nofun, fun img' h => ?_⟩
      cases h
      exact ⟨fun h => absurd h hhash, fun h => absurd h hhash, fun _ => ⟨hgo, hcause⟩⟩

/-! ### CANCEL, CONFIRM, and what passes of itself (R342–R344) -/

theorem updCancel_cancels {i : Init} (h : clear s i (reg pUPD 0x084) 5 = true) (hstate : updState s = 3) :
    ∃ t, exec (.updCancel i) s = .next t ∧ updState t = 0 ∧
      t.upd.lease = none ∧ t.upd.staged = none ∧ bit (aetW0 t 42) 31 = false ∧ t.upd.image = s.upd.image := by
  refine updCmd_clear (cmd := 5) rfl h fun x t hl hd => ?_
  obtain ⟨y, hy⟩ : ∃ y, y = updClear (wr (aetDisable x 42) (reg pUPD 0x0B4) 0) := ⟨_, rfl⟩
  have hop : updCmd x i.who 5 = updGo (leaseGone y) 0 := by
    rw [hy]
    show updCancelled x = _
    unfold updCancelled
    rw [if_neg (by rw [updState_light hl, hstate]; decide)]
  have hentries : (aetDisable x 42).upd = x.upd := aetSet_upd x 42 _ _
  have hupd : y.upd = { x.upd with patch := [], staged := none } := by rw [hy, updClear, wr_upd, hentries]
  have hentry : bit (aetW0 y 42) 31 = false := by
    have hclear : ∀ w n, aetW0 (updClear w) n = aetW0 w n := fun _ _ => rfl
    rw [hy, hclear, aetW0, rd_wr_other _ _ (by decide), ← aetW0, bit_aetDisable]
    rfl
  obtain ⟨hgone, -⟩ := leaseGone_gone y
  obtain ⟨-, hothers, -⟩ := leaseGone_keeps y
  obtain ⟨z, hz⟩ : ∃ z, z = leaseGone y := ⟨_, rfl⟩
  rw [← hz] at hop hgone hothers
  rw [hop] at hd
  have htupd : t.upd = { x.upd with patch := [], staged := none, lease := none } := by
    rw [hd.upd, updGo, wrF_upd, hgone, hupd]
  refine ⟨(rdF_done hd _ _ _).trans (rd_wrF_same z 0 (by decide)), by rw [htupd], by rw [htupd], ?_, by rw [htupd, hl.upd]⟩
  have hword : aetW0 t 42 = aetW0 y 42 :=
    ((hd.rd _).trans (rd_wrF_other z 0 3 0 (by decide))).trans (hothers _ (by decide) (by decide))
  rw [hword, hentry]

theorem updConfirm_confirms {i : Init} (h : clear s i (reg pUPD 0x084) 6 = true) (hstate : updState s = 4) :
    ∃ t, exec (.updConfirm i) s = .next t ∧ updState t = 0 ∧
      t.upd.lease = none ∧ rdB t (reg pUPD 0x08C) 1 = true ∧ t.upd.image = s.upd.image := by
  refine updCmd_clear (cmd := 6) rfl h fun x t hl hd => ?_
  obtain ⟨hgone, -⟩ := leaseGone_gone x
  obtain ⟨z, hz⟩ : ∃ z, z = leaseGone x := ⟨_, rfl⟩
  have hop : updCmd x i.who 6 = ev (updGo z 0) pUPD 1 := by
    rw [hz]
    show updConfirmed x = _
    unfold updConfirmed
    rw [if_neg (by rw [updState_light hl, hstate]; decide)]
  rw [← hz] at hgone
  rw [hop] at hd
  have htupd : t.upd = { x.upd with lease := none } := by rw [hd.upd, ev_upd, updGo, wrF_upd, hgone]
  refine ⟨?_, by rw [htupd], (rdB_done hd _ _).trans (rdB_ev_same _ evtAddr_upd (by decide)), by rw [htupd, hl.upd]⟩
  exact ((rdF_done hd _ _ _).trans (congrArg (fld · 0 3) (rd_ev_updStat _ _ (.inr rfl)))).trans (rd_wrF_same z 0 (by decide))

theorem leaseOver_iff {l : Lease} (h : s.upd.lease = some l) : leaseOver s = true ↔
    l.at_ + max 1 (rdF s (reg pUPD 0x080) 8 8) * (60 * Config.fabricHz) ≤ s.clk.fabric := by
  rw [leaseOver, h, Option.any_some, decide_eq_true_iff]

theorem leaseExpiry_ends {l : Lease} {ends : Nat} (hlease : s.upd.lease = some l)
    (hends : ends = l.at_ + max 1 (rdF s (reg pUPD 0x080) 8 8) * (60 * Config.fabricHz)) : ∃ t, exec .leaseExpiry s = .next t ∧
      (updState s = 3 ∨ updState s = 4 ∨ s.clk.fabric < ends → t.upd.lease = s.upd.lease) ∧
      (updState s ≠ 3 → updState s ≠ 4 → ends ≤ s.clk.fabric → t.upd.lease = none ∧ rdB t (reg pUPD 0x08C) 3 = true) := by
  obtain ⟨t, hexec, he⟩ := finish_ends s (leaseExpire s)
  have hover := leaseOver_iff hlease
  rw [← hends] at hover
  refine ⟨t, hexec, fun hstays => ?_, fun h3 h4 hlate => ?_⟩
  · have hop : leaseExpire s = s := by
      unfold leaseExpire
      rw [if_pos]
      refine hstays.imp_right fun h => h.imp_right fun hearly => ?_
      have : leaseOver s = false := by
        rw [Bool.eq_false_iff]
        exact fun h => absurd (hover.1 h) (by omega)
      rw [this]
      rfl
    rw [he.upd, hop]
  · have hheld : s.upd.lease.isSome = true := by rw [hlease]; rfl
    have hop : leaseExpire s = updLog s (leaseEnd s) := by
      unfold leaseExpire
      rw [if_neg (by rw [hover.2 hlate]; simp [h3, h4])]
    rw [he.upd, he.rdB, hop, (light_updLog _ _).upd, rdB, rd_updLog _ _ (by decide)]
    exact ⟨(leaseEnd_ends hheld).1, (leaseEnd_shows hheld).1⟩

theorem actTimeReached_arms (hstate : updState s = 3) : ∃ t, exec .actTimeReached s = .next t ∧ updState t = 3 ∧
    (s.upd.actTime / 2 ^ 11 ≤ (calStamp s).toNat / 2 ^ 11 → aetW0 t 42 = 0x90000000#32 ∧ fld (aetW1 t 42) 0 8 = 0xB) ∧
    ((calStamp s).toNat / 2 ^ 11 < s.upd.actTime / 2 ^ 11 → t.regs = s.regs) := by
  obtain ⟨t, hexec, he⟩ := finish_ends s (actTimeOp s)
  refine ⟨t, hexec, ?_⟩
  rw [he.updState, he.aetW0, he.aetW1, he.regs]
  unfold actTimeOp
  split
  · rename_i hdue
    refine ⟨?_, fun _ => aetPlace_armed s, fun hearly => absurd hdue.2 (by omega)⟩
    rw [updState, rdF, aetPlace, rd_aetSet_page _ _ _ (by decide) (by decide)]
    exact hstate
  · rename_i hearly
    exact ⟨hstate, fun hdue => absurd ⟨hstate, hdue⟩ hearly, fun _ => rfl⟩

/-! ### DEAD (R345) -/

theorem doSync_guard (s : State) : (doSync s).guard = s.guard := by
  unfold doSync doRefresh
  dsimp only
  rw [wr_guard]
  refine foldl_keeps State.guard (fun t k => ?_) _ s
  unfold doFollow
  dsimp only
  split <;> rfl

theorem doSync_eng (s : State) : (doSync s).loom.eng = s.loom.eng := by
  rw [(outward_doSync s).loom]

/-- What entering DEAD leaves. -/
theorem deadEnter_enters (h : s.guard.dead = false) : (deadEnter s).guard.dead = true ∧ updState (deadEnter s) = 5 ∧
    rdB (deadEnter s) (reg pUPD 0x08C) 4 = true ∧ (deadEnter s).loom.eng = .stop := by
  obtain ⟨x, hx⟩ : ∃ x, x = setEngine { loopDiscardAll (scanDiscard (trackerStart s)) with
      loom := { (loopDiscardAll (scanDiscard (trackerStart s))).loom with
        prev := none, stopPending := false, paused := false, held := false, stepping := 0 } } .stop := ⟨_, rfl⟩
  have heng : x.loom.eng = .stop := by rw [hx, setEngine_loom]
  obtain ⟨c, hc⟩ : ∃ c, c = closeAll (factBlockFault ([0, 1, 2, 3].foldl aetDisable x)) := ⟨_, rfl⟩
  have hloom : c.loom = x.loom := by
    rw [hc, (apart_closeAll _).loom, (solving_factBlockFault _).loom]
    exact foldl_keeps State.loom (fun t n => (aetDisable_keeps t n).1) _ _
  obtain ⟨y, hy⟩ : ∃ y, y = { c with guard := { c.guard with dead := true } } := ⟨_, rfl⟩
  have hop : deadEnter s = doSync (ev (updGo y 5) pUPD 4) := by
    unfold deadEnter
    rw [if_neg (by rw [h]; decide), hy, hc, hx]
  have hydead : y.guard.dead = true := by rw [hy]
  have hyeng : y.loom.eng = .stop := by
    rw [hy]
    exact (congrArg Loom.eng hloom).trans heng
  rw [hop, doSync_guard, ev_guard, doSync_eng, ev_loom]
  refine ⟨hydead, ?_, ?_, hyeng⟩
  · rw [updState, rdF, rd_doSync_other _ (by decide), rd_ev_updStat _ _ (.inr rfl), ← rdF]
    exact rd_wrF_same y 5 (by decide)
  · rw [rdB, rd_doSync_other _ (by decide), ← rdB]
    exact rdB_ev_same _ evtAddr_upd (by decide)

theorem advance_dead (old : Guard) {new : Guard} (h : new.dead = true) : (old.advance new).dead = true := by
  show (old.dead || new.dead) = true
  rw [h, Bool.or_true]

theorem updFail_fails {i : Init} (h : clear s i (reg pUPD 0x084) 7 = true) (hstate : updState s = 4) (halive : s.guard.dead = false) :
    ∃ t, exec (.updFail i) s = .next t ∧
      t.guard.dead = true ∧ updState t = 5 ∧ rdB t (reg pUPD 0x08C) 4 = true ∧ t.loom.eng = .stop := by
  refine updCmd_clear (cmd := 7) rfl h fun x t hl hd => ?_
  obtain ⟨hdead, hgo, hevent, heng⟩ := deadEnter_enters (s := x) (by rw [hl.guard, halive])
  have hop : updCmd x i.who 7 = deadEnter x := by
    show updDead x = _
    unfold updDead
    rw [if_neg (by rw [updState_light hl, hstate]; decide)]
  rw [hop] at hd
  rw [hd.guard, hd.loom]
  exact ⟨advance_dead _ hdead, (rdF_done hd _ _ _).trans hgo, (rdB_done hd _ _).trans hevent, heng⟩

theorem checkTimeout_dead {ends : Nat} (hends : ends = s.upd.since + max 1 (rdF s (reg pUPD 0x080) 0 8) * Config.fabricHz)
    (hstate : updState s = 4) (halive : s.guard.dead = false) : ∃ t, exec .checkTimeout s = .next t ∧
      (ends ≤ s.clk.fabric → t.guard.dead = true ∧ updState t = 5 ∧ rdB t (reg pUPD 0x08C) 4 = true) ∧
      (s.clk.fabric < ends → t.guard = s.guard ∧ updState t = 4) := by
  obtain ⟨t, hexec, he, hguard⟩ := finishGuard_ends s (checkLate s)
  have hover : checkOver s = true ↔ ends ≤ s.clk.fabric := by
    rw [hends]
    exact decide_eq_true_iff
  refine ⟨t, hexec, ?_⟩
  rw [hguard, he.updState, he.rdB]
  refine ⟨fun hlate => ?_, fun hearly => ?_⟩
  · have hop : checkLate s = updLog s (deadEnter s) := by
      unfold checkLate updDead
      rw [if_neg (by rw [hover.2 hlate, hstate]; decide), if_neg (by rw [hstate]; decide)]
    obtain ⟨hdead, hgo, hevent, -⟩ := deadEnter_enters halive
    rw [hop, (light_updLog _ _).guard, updState_updLog, rdB, rd_updLog _ _ (by decide)]
    exact ⟨advance_dead _ hdead, hgo, hevent⟩
  · have hop : checkLate s = s := by
      unfold checkLate
      rw [if_pos (.inr (by rw [Bool.eq_false_iff.2 fun h => absurd (hover.1 h) (by omega)]; rfl))]
    rw [hop, advance_self]
    exact ⟨rfl, hstate⟩

/-- Settles O59: the commands of the lease and of the patch, and the steps that no request waits on, each by its own lemma. -/
theorem fieldUpdate : Obligations.FieldUpdate := by
  unfold Obligations.FieldUpdate
  intro s
  refine ⟨fun i => ⟨updTakeLease_takes, updRenew_renews, updRelease_ends, fun b hb => updSubmit_checks hb, updCancel_cancels,
    updConfirm_confirms, updFail_fails⟩, fun hstate b R nandOk => patchBuildDone_builds hstate nandOk, fun l ends => leaseExpiry_ends,
    actTimeReached_arms, fun ends => checkTimeout_dead⟩

end Sys2Proof.Proofs
end

section
/-!
PROOFS. Scrivener (R316–R321): the firings of triggers, captures, the records in MRAM, and the freeze.
-/

namespace Sys2Proof.Proofs

open Sys2Proof.Machine Sys2Proof.Laws

variable {s t u : State}

theorem evtAddr_scrv : evtAddr pSCRV = some (reg pSCRV 0x08C) := by decide

/-! ### A request's accounts do not show -/

theorem rdF_light (h : Light s t) {p o : Nat} (lo n : Nat) (ho : o < 4096) (ht : p ≠ pTOLL) (hd : p ≠ pDAYB) :
    rdF t (reg p o) lo n = rdF s (reg p o) lo n := congrArg (fld · lo n) (rd_light h o ho ht hd)

theorem runs_light (h : Light s t) {p : Nat} (ht : p ≠ pTOLL) (hd : p ≠ pDAYB) : runs t p = runs s p := by
  have hctrl : rd t (reg p 0x008) = rd s (reg p 0x008) := rd_light h 0x008 (by decide) ht hd
  have hfault : rd t (reg p 0x028) = rd s (reg p 0x028) := rd_light h 0x028 (by decide) ht hd
  unfold runs enabled fenced retiredPg fusedOff modeRuns roleSet mFLOOR mDISTRICT mLOCK mMETER rdB
  rw [hctrl, hfault, h.guard]

theorem corMode_light (h : Light s t) {p : Nat} (ht : p ≠ pTOLL) (hd : p ≠ pDAYB) : corMode t p = corMode s p :=
  corMode_congr h.guard (rd_light h 0x028 (by decide) ht hd)

theorem tcfg_light (h : Light s t) (k : Nat) : tcfg t k = tcfg s k := by
  unfold tcfg
  rw [h.scrv]

/-- A write to SCRV.CMD that meets nothing on its way. -/
theorem scrvCmd_clear {i : Init} {v : Word} {cmd : Nat} (hv : fld v 0 3 = cmd) (h : clear s i (reg pSCRV 0x084) v = true)
    {p : State → Prop} (hp : ∀ x t, Light s x → Done s (scrvCmd x (clsFor s i) cmd) t → p t) :
    ∃ t, finishClock s (submitWrite s i (reg pSCRV 0x084) v) = .next t ∧ p t := by
  subst hv
  exact row_clear h (by decide) hp

/-- What the end of a command leaves of Scrivener and the registers. -/
structure Recorded (u t : State) : Prop where
  rd : ∀ a, rd t a = rd u a
  scrv : t.scrv = u.scrv

theorem Recorded.rdB (h : Recorded u t) (a i : Nat) : rdB t a i = Machine.rdB u a i := congrArg (bit · i) (h.rd a)

theorem finish_recorded (s u : State) : ∃ t, finish s u = .next t ∧ Recorded u t := ⟨_, rfl, fun _ => rfl, rfl⟩

/-! ### Firings (R316, R317) -/

/-- A firing is put behind those before it and, on its fabric cycle, behind those of no higher trigger. -/
theorem firingPut_between (f : Firing) (l : List Firing) : ∃ a b, l = a ++ b ∧ firingPut f l = a ++ f :: b ∧
    (∀ g ∈ b.head?, g.at_ = f.at_ ∧ f.trig < g.trig) ∧ ∀ g ∈ a, g.at_ = f.at_ → g.trig ≤ f.trig := by
  induction l with
  | nil => exact ⟨[], [], rfl, rfl, nofun, nofun⟩
  | cons g gs ih =>
    unfold firingPut
    split
    case isTrue hbefore =>
      exact ⟨[], g :: gs, rfl, rfl, fun x hx => by obtain rfl := Option.some.inj hx; exact hbefore, nofun⟩
    case isFalse hbehind =>
      obtain ⟨a, b, hl, hput, hhead, ha⟩ := ih
      refine ⟨g :: a, b, by rw [hl]; rfl, by rw [hput]; rfl, hhead, fun x hx hat => ?_⟩
      rcases List.mem_cons.1 hx with rfl | hx
      · by_contra hlate
        exact hbehind ⟨hat, by omega⟩
      · exact ha x hx hat

section

variable {n : Nat} {c : Cls} {pos : Nat} {late : Bool}

theorem scrvFire_disabled (h : bit (tcfg s n) 31 = false) : scrvFire s n c pos late = s := by
  unfold scrvFire
  dsimp only
  rw [if_pos (.inl (by rw [h]; rfl))]

section

variable (hon : bit (tcfg s n) 31 = true) (hoff : s.scrv.off = false) (hruns : runs s pSCRV = true)
include hon hoff hruns

theorem scrvFire_near {l : Nat} (hlast : get? s.scrv.last n = some l) (h : cycleOf pos < l + fld (tcfg s n) 8 8) :
    scrvFire s n c pos late = bump s (reg pSCRV 0x09C) := by
  unfold scrvFire
  dsimp only
  rw [if_neg (by rw [hon, hoff, hruns]; decide), hlast]
  exact if_pos (decide_eq_true h)

theorem scrvFire_recorded (h : ∀ l, get? s.scrv.last n = some l → l + fld (tcfg s n) 8 8 ≤ cycleOf pos) : scrvFire s n c pos late =
    if 64 ≤ s.scrv.queue.length then scrvLose s
    else { s with scrv := { s.scrv with
      queue := firingPut ⟨n, c, pos, late, s.clk.fabric⟩ s.scrv.queue, last := ins s.scrv.last n (cycleOf pos) } } := by
  unfold scrvFire
  dsimp only
  rw [if_neg (by rw [hon, hoff, hruns]; decide)]
  cases hlast : get? s.scrv.last n with
  | none => exact if_neg Bool.false_ne_true
  | some l =>
    have hfar := h l hlast
    exact if_neg (by rw [decide_eq_true_iff]; omega)

end

end

/-- A firing or capture lost is counted and shown. -/
theorem scrvLose_loses (s : State) : (scrvLose s).scrv = { s.scrv with lost := s.scrv.lost + 1 } ∧
    rdB (scrvLose s) (reg pSCRV 0x08C) 1 = true ∧ ∀ a, a ≠ reg pSCRV 0x098 → a ≠ reg pSCRV 0x08C → rd (scrvLose s) a = rd s a := by
  unfold scrvLose
  refine ⟨by rw [ev_scrv, bump_scrv], rdB_ev_same _ evtAddr_scrv (by decide), fun a hcount hevent => ?_⟩
  rw [rd_ev_other _ _ _ (by rw [evtAddr_scrv]; exact fun h => hevent (Option.some.inj h).symm), rd_bump_other _ hcount]
  rfl

theorem rd_bump_wraps {a : Nat} (h : corMode s (statPage a) = false) : rd (bump s a) a = rd s a + 1 := by
  unfold bump bumpBy countUp
  rw [rd_wr_same, h]
  refine BitVec.eq_of_toNat_eq ?_
  simp [w32, BitVec.toNat_add]

/-- A firing asked for by SCRV.CMD. -/
theorem fire_fires {i : Init} {k : Nat} (hk : k = rdF s (reg pSCRV 0x0A0) 0 6) (h : clear s i (reg pSCRV 0x084) 3 = true)
    (hruns : runs s pSCRV = true) (hoff : s.scrv.off = false) : ∃ t, exec (.fire i) s = .next t ∧
      (bit (tcfg s k) 31 = false → t.scrv = s.scrv) ∧
      (bit (tcfg s k) 31 = true →
        (∀ l, get? s.scrv.last k = some l → cycleOf (count s) < l + fld (tcfg s k) 8 8 → t.scrv = s.scrv ∧
          (corMode s pSCRV = false → rd t (reg pSCRV 0x09C) = rd s (reg pSCRV 0x09C) + 1)) ∧
        ((∀ l, get? s.scrv.last k = some l → l + fld (tcfg s k) 8 8 ≤ cycleOf (count s)) →
          (s.scrv.queue.length < 64 →
            (∃ (a b : List Firing) (f : Firing), f = ⟨k, clsFor s i, count s, false, s.clk.fabric⟩ ∧ s.scrv.queue = a ++ b ∧
              t.scrv.queue = a ++ f :: b ∧ (∀ g ∈ b.head?, g.at_ = f.at_ ∧ f.trig < g.trig) ∧
              ∀ g ∈ a, g.at_ = f.at_ → g.trig ≤ f.trig) ∧
            get? t.scrv.last k = some (cycleOf (count s))) ∧
          (64 ≤ s.scrv.queue.length → t.scrv.queue = s.scrv.queue ∧ t.scrv.lost = s.scrv.lost + 1 ∧
            rdB t (reg pSCRV 0x08C) 1 = true))) := by
  refine scrvCmd_clear (cmd := 3) rfl h fun x t hl hd => ?_
  have hop : scrvCmd x (clsFor s i) 3 = scrvFire x k (clsFor s i) (count s) false := by
    rw [hk, ← rdF_light hl 0 6 (by decide) (by decide) (by decide), ← count_congr hl.clk]
    rfl
  rw [hop] at hd
  have hcfg := tcfg_light hl k
  have hxruns : runs x pSCRV = true := (runs_light hl (by decide) (by decide)).trans hruns
  have hxoff : x.scrv.off = false := by rw [hl.scrv, hoff]
  refine ⟨fun hdis => ?_, fun hon => ?_⟩
  · rw [hd.scrv, scrvFire_disabled (by rw [hcfg, hdis]), hl.scrv]
  rw [← hcfg] at hon
  refine ⟨fun l hlast hnear => ?_, fun hfar => ?_⟩
  · rw [scrvFire_near hon hxoff hxruns (by rw [hl.scrv, hlast]) (by rw [hcfg]; exact hnear)] at hd
    refine ⟨by rw [hd.scrv, bump_scrv, hl.scrv], fun hcor => ?_⟩
    have hwraps : corMode x (statPage (reg pSCRV 0x09C)) = false := by
      rw [show statPage (reg pSCRV 0x09C) = pSCRV by decide, corMode_light hl (by decide) (by decide), hcor]
    rw [hd.rd, rd_bump_wraps hwraps, hl.rd _ (by decide)]
  · rw [scrvFire_recorded hon hxoff hxruns (by rw [hl.scrv, hcfg]; exact hfar), hl.scrv, hl.clk] at hd
    refine ⟨fun hroom => ?_, fun hfull => ?_⟩
    · rw [if_neg (by omega)] at hd
      obtain ⟨a, b, hqueue, hput, hhead, ha⟩ := firingPut_between ⟨k, clsFor s i, count s, false, s.clk.fabric⟩ s.scrv.queue
      rw [hd.scrv]
      exact ⟨⟨a, b, _, rfl, hqueue, hput, hhead, ha⟩, get?_ins_same _ _ _⟩
    · rw [if_pos hfull] at hd
      obtain ⟨hscrv, hevent, -⟩ := scrvLose_loses x
      rw [hd.scrv, hscrv, hl.scrv]
      exact ⟨rfl, rfl, (rdB_done hd _ _).trans hevent⟩

/-! ### Captures (R317, R318) -/

/-- The FROZEN flag of a record. -/
theorem testBit_captureFlags (l f n o : Bool) : (b2n l * 2 + b2n f * 4 + b2n n * 8 + b2n o * 16).testBit 2 = f := by
  cases l <;> cases f <;> cases n <;> cases o <;> rfl

theorem captureRec_words (s : State) (f : Firing) : (captureRec s f).words =
    (List.range (min 24 (fld (tcfg s f.trig) 0 5))).map fun k => (captureWord s (trigList s f.trig k).toNat).1 := by
  unfold captureRec captureWords
  dsimp only
  rw [List.map_map]
  rfl

theorem captureRec_count (s : State) (f : Firing) : (captureRec s f).count = (captureRec s f).words.length := by
  unfold captureRec
  dsimp only
  rw [List.length_map]

theorem capture_waits (hbusy : s.clk.fabric < s.scrv.pathAt) : ∃ t, exec .capture s = .next t ∧ t.scrv = s.scrv := by
  obtain ⟨t, hexec, he⟩ := finish_recorded s (captureOp s)
  have hop : captureOp s = s := by
    unfold captureOp
    split
    · rfl
    · exact if_pos (.inr (.inr hbusy))
  exact ⟨t, hexec, by rw [he.scrv, hop]⟩

section

variable {f : Firing} {q : List Firing} (hqueue : s.scrv.queue = f :: q) (hruns : runs s pSCRV = true) (hoff : s.scrv.off = false)
  (hfree : s.scrv.pathAt ≤ s.clk.fabric)
include hqueue hruns hoff hfree

theorem captureOp_eq : captureOp s =
    if 32 ≤ s.scrv.hold.length then scrvLose { s with scrv := { s.scrv with queue := q } }
    else tally { s with scrv := { s.scrv with
      queue := q, hold := s.scrv.hold ++ [captureRec s f], lost := 0
      pathAt := s.clk.fabric + (captureRec s f).count } } (reg pSCRV 0x090) := by
  unfold captureOp
  rw [hqueue]
  dsimp only
  rw [if_neg (by rw [hoff, hruns]; simp; omega)]

/-- A capture takes the oldest firing. -/
theorem capture_takes : ∃ t, exec .capture s = .next t ∧ t.scrv.queue = q ∧
    (s.scrv.hold.length < 32 → ∃ r, t.scrv.hold = s.scrv.hold ++ [r] ∧ r.seq = (rd s (reg pSCRV 0x090)).toNat ∧
      r.trig = f.trig ∧ r.cls = f.cls ∧ r.pos = f.pos ∧ r.cal = calStamp s ∧ r.lost = min 65535 s.scrv.lost ∧
      r.count = r.words.length ∧ (r.flags.testBit 2 = true ↔ s.scrv.frozen = true) ∧
      r.words = (List.range (min 24 (fld (tcfg s f.trig) 0 5))).map (fun k => (captureWord s (trigList s f.trig k).toNat).1) ∧
      rd t (reg pSCRV 0x090) = rd s (reg pSCRV 0x090) + 1 ∧ t.scrv.lost = 0 ∧ t.scrv.pathAt = s.clk.fabric + r.count) ∧
    (32 ≤ s.scrv.hold.length → t.scrv.hold = s.scrv.hold ∧ t.scrv.lost = s.scrv.lost + 1 ∧
      rdB t (reg pSCRV 0x08C) 1 = true ∧ rd t (reg pSCRV 0x090) = rd s (reg pSCRV 0x090)) := by
  obtain ⟨t, hexec, he⟩ := finish_recorded s (captureOp s)
  refine ⟨t, hexec, ?_⟩
  rw [he.scrv, he.rdB, he.rd, captureOp_eq hqueue hruns hoff hfree]
  by_cases hfull : 32 ≤ s.scrv.hold.length
  · rw [if_pos hfull]
    obtain ⟨hscrv, hevent, hrd⟩ := scrvLose_loses { s with scrv := { s.scrv with queue := q } }
    rw [hscrv, hrd _ (by decide) (by decide)]
    exact ⟨rfl, fun hroom => absurd hfull (by omega), fun _ => ⟨rfl, rfl, hevent, rfl⟩⟩
  · rw [if_neg hfull]
    refine ⟨rfl, fun _ => ⟨captureRec s f, rfl, rfl, rfl, rfl, rfl, rfl, rfl, captureRec_count s f, ?_, captureRec_words s f,
      rd_wr_same _ _ _, rfl, rfl⟩, fun h => absurd h hfull⟩
    rw [show (captureRec s f).flags.testBit 2 = s.scrv.frozen from testBit_captureFlags _ _ _ _]

end

/-! ### Records in MRAM (R319, R321) -/

theorem key_mem_of_get? {α : Type} {m : List (Nat × α)} {a : Nat} (h : (get? m a).isSome = true) : a ∈ m.map Prod.fst := by
  induction m with
  | nil => cases h
  | cons e m ih =>
    obtain ⟨k, x⟩ := e
    by_cases hk : k = a
    · rw [hk]
      exact List.mem_cons_self
    · rw [get?, if_neg hk] at h
      exact List.mem_cons_of_mem _ (ih h)

/-- Where the permanent area is not full, one of its slots in service is empty. -/
theorem permSlot_empty (h : permFull s = false) : ∃ k < 2048, permSlot s = some k ∧ get? s.scrv.slots k = none := by
  unfold permSlot
  rw [h, if_neg Bool.false_ne_true]
  cases hfind : (List.range 2048).find? fun k => (get? s.scrv.slots k).isNone && !s.scrv.bad.contains k with
  | some k =>
    have hk := List.find?_some hfind
    have hmem := List.mem_of_find?_eq_some hfind
    simp only [Bool.and_eq_true, Option.isNone_iff_eq_none] at hk
    exact ⟨k, List.mem_range.1 hmem, rfl, hk.1⟩
  | none =>
    exfalso
    have hused : List.range 2048 ⊆ (s.scrv.slots.filter fun e => decide (e.1 < 2048)).map Prod.fst ++
        s.scrv.bad.filter fun b => decide (b < 2048) := by
      intro k hk
      have hlt := List.mem_range.1 hk
      have hno := List.find?_eq_none.1 hfind k hk
      by_cases hslot : (get? s.scrv.slots k).isSome = true
      · obtain ⟨e, he, rfl⟩ := List.mem_map.1 (key_mem_of_get? hslot)
        exact List.mem_append_left _ (List.mem_map_of_mem (List.mem_filter.2 ⟨he, decide_eq_true hlt⟩))
      · refine List.mem_append_right _ (List.mem_filter.2 ⟨?_, decide_eq_true hlt⟩)
        have hnone : (get? s.scrv.slots k).isNone = true := by simpa using hslot
        simpa [hnone] using hno
    have hcount := (List.nodup_range.subperm hused).length_le
    rw [List.length_append, List.length_map, List.length_range] at hcount
    have hroom := of_decide_eq_false h
    unfold permFill at hroom
    exact hroom hcount

section

variable {r : ScrvRec} {h : List ScrvRec} (hhold : s.scrv.hold = r :: h)
include hhold

/-- The slot that a held record is written to, and what else its writing changes. -/
theorem recordPut_writes : ∃ k r', (recordPut s).scrv = { s.scrv with hold := h, slots := ins s.scrv.slots k r' } ∧
    rdB (recordPut s) (reg pSCRV 0x08C) 0 = true ∧
    (permFull s = false → k < 2048 ∧ get? s.scrv.slots k = none ∧ r' = { r with flags := r.flags + 1 }) ∧
    (permFull s = true → s.scrv.bad = [] → k = rdF s (reg pSCRV 0x094) 0 13 ∧ r' = r ∧
      rd (recordPut s) (reg pSCRV 0x094) = w32 (circNext k)) := by
  obtain ⟨x, hx⟩ : ∃ x, x = { s with scrv := { s.scrv with hold := h } } := ⟨_, rfl⟩
  have hslot : permSlot x = permSlot s := by rw [hx]; rfl
  cases hfull : permFull s with
  | false =>
    obtain ⟨k, hk, hperm, hnone⟩ := permSlot_empty hfull
    obtain ⟨y, hy⟩ : ∃ y, y = ev { x with scrv := { x.scrv with slots := ins x.scrv.slots k { r with flags := r.flags + 1 } } } pSCRV 0 :=
      ⟨_, rfl⟩
    obtain ⟨b, hb⟩ : ∃ b, recordPut s = evIf b y pSCRV 3 := by
      refine ⟨permFull { x with scrv := { x.scrv with slots := ins x.scrv.slots k { r with flags := r.flags + 1 } } }, ?_⟩
      unfold recordPut
      rw [hhold]
      dsimp only
      rw [← hx, hslot, hperm, hy, hx]
    have hscrv : y.scrv = { s.scrv with hold := h, slots := ins s.scrv.slots k { r with flags := r.flags + 1 } } := by
      rw [hy, ev_scrv, hx]
    have hevent : rdB y (reg pSCRV 0x08C) 0 = true := by
      rw [hy]
      exact rdB_ev_same _ evtAddr_scrv (by decide)
    rw [hb]
    refine ⟨k, _, (evIf_scrv _ _ _ _).trans hscrv, ?_, fun _ => ⟨hk, hnone, rfl⟩, nofun⟩
    exact rdB_evIf_mono _ _ _ _ hevent
  | true =>
    obtain ⟨k, hk⟩ : ∃ k, k = circSlot s.scrv.bad (rdF s (reg pSCRV 0x094) 0 13) s.scrv.bad.length := ⟨_, rfl⟩
    obtain ⟨y, hy⟩ : ∃ y, y = ev { x with scrv := { x.scrv with slots := ins x.scrv.slots k r } } pSCRV 0 := ⟨_, rfl⟩
    have hput : recordPut s = wr y (reg pSCRV 0x094) (w32 (circSlot s.scrv.bad (circNext k) s.scrv.bad.length)) := by
      have hnone : permSlot s = none := if_pos hfull
      unfold recordPut
      rw [hhold]
      dsimp only
      rw [← hx, hslot, hnone, hy, hk, hx]
      rfl
    have hscrv : y.scrv = { s.scrv with hold := h, slots := ins s.scrv.slots k r } := by
      rw [hy, ev_scrv, hx]
    have hevent : rdB y (reg pSCRV 0x08C) 0 = true := by
      rw [hy]
      exact rdB_ev_same _ evtAddr_scrv (by decide)
    rw [hput]
    refine ⟨k, _, hscrv, ?_, nofun, fun _ hbad => ?_⟩
    · rw [rdB, rd_wr_other _ _ (by decide), ← rdB, hevent]
    · rw [hbad] at hk ⊢
      exact ⟨hk, rfl, rd_wr_same _ _ _⟩

end

theorem recordWrite_writes {r : ScrvRec} {h : List ScrvRec} (hhold : s.scrv.hold = r :: h) (hfrozen : s.scrv.frozen = false)
    (hoff : s.scrv.off = false) (hruns : runs s pSCRV = true) :
    ∃ t, exec .recordWrite s = .next t ∧ t.scrv.hold = h ∧ rdB t (reg pSCRV 0x08C) 0 = true ∧
      (permFull s = false → ∃ k < 2048, get? s.scrv.slots k = none ∧
        get? t.scrv.slots k = some { r with flags := r.flags + 1 } ∧
        ∀ j, j ≠ k → get? t.scrv.slots j = get? s.scrv.slots j) ∧
      (permFull s = true → s.scrv.bad = [] → ∀ k, k = rdF s (reg pSCRV 0x094) 0 13 → get? t.scrv.slots k = some r ∧
        rdF t (reg pSCRV 0x094) 0 13 = (if 8191 ≤ k then 2048 else k + 1) ∧
        ∀ j, j ≠ k → get? t.scrv.slots j = get? s.scrv.slots j) := by
  obtain ⟨t, hexec, he⟩ := finish_recorded s (recordOp s)
  obtain ⟨k, r', hscrv, hevent, hperm, hcirc⟩ := recordPut_writes hhold
  have hop : recordOp s = recordPut s := by
    unfold recordOp
    rw [if_neg (by rw [hfrozen, hoff, hruns]; decide)]
  rw [hop] at he
  refine ⟨t, hexec, ?_⟩
  rw [he.scrv, he.rdB, hscrv]
  refine ⟨rfl, hevent, fun hroom => ?_, fun hfull hbad k' hk' => ?_⟩
  · obtain ⟨hk, hnone, rfl⟩ := hperm hroom
    exact ⟨k, hk, hnone, get?_ins_same _ _ _, fun j hj => get?_ins_other _ _ hj⟩
  · obtain ⟨hk, rfl, hnext⟩ := hcirc hfull hbad
    obtain rfl : k' = k := hk'.trans hk.symm
    refine ⟨get?_ins_same _ _ _, ?_, fun j hj => get?_ins_other _ _ hj⟩
    have hlt : k' < 2 ^ 13 := by rw [hk']; exact Nat.mod_lt _ (by decide)
    rw [rdF, he.rd, hnext]
    unfold circNext
    split
    · decide
    · rw [fld, w32, BitVec.toNat_ofNat]
      omega

/-! ### The freeze (R320) -/

/-- Every held record written. -/
theorem recordAll_empties (n : Nat) : ∀ s : State, s.scrv.hold.length ≤ n → (recordAll s n).scrv.hold = [] ∧
    (recordAll s n).scrv.frozen = s.scrv.frozen := by
  induction n with
  | zero => exact fun s hn => ⟨List.length_eq_zero_iff.1 (Nat.le_zero.1 hn), rfl⟩
  | succ n ih =>
    intro s hn
    cases hhold : s.scrv.hold with
    | nil =>
      have hput : recordPut s = s := by
        unfold recordPut
        rw [hhold]
      rw [recordAll, hput]
      exact ih s (by rw [hhold]; exact Nat.zero_le _)
    | cons r h =>
      obtain ⟨k, r', hscrv, -⟩ := recordPut_writes hhold
      rw [hhold, List.length_cons] at hn
      obtain ⟨hempty, hfrozen⟩ := ih (recordPut s) (by rw [hscrv]; exact Nat.le_of_succ_le_succ hn)
      exact ⟨hempty, by rw [recordAll, hfrozen, hscrv]⟩

theorem scrvUnfreeze_writes (h : s.scrv.frozen = true) : (scrvUnfreeze s).scrv.frozen = false ∧ (scrvUnfreeze s).scrv.hold = [] := by
  unfold scrvUnfreeze
  rw [if_pos h]
  obtain ⟨hempty, hfrozen⟩ := recordAll_empties s.scrv.hold.length { s with scrv := { s.scrv with frozen := false } } (Nat.le_refl _)
  exact ⟨hfrozen, hempty⟩

theorem freezeOver_iff (h : s.scrv.frozen = true) : freezeOver s = true ↔
    s.scrv.frozenAt + max 1 (rdF s (reg pSCRV 0x080) 0 8) * Config.fabricHz ≤ s.clk.fabric := by
  rw [freezeOver, h, Bool.true_and, decide_eq_true_iff]

theorem frozen_lasts {ends : Nat} (hends : ends = s.scrv.frozenAt + max 1 (rdF s (reg pSCRV 0x080) 0 8) * Config.fabricHz)
    (hfrozen : s.scrv.frozen = true) : (∃ t, exec .recordWrite s = .next t ∧ t.scrv = s.scrv) ∧
      ∃ t, exec .freezeTimeout s = .next t ∧ (s.clk.fabric < ends → t.scrv = s.scrv) ∧
        (ends ≤ s.clk.fabric → t.scrv.frozen = false ∧ t.scrv.hold = [] ∧ rdB t (reg pSCRV 0x08C) 2 = true) := by
  have hover := freezeOver_iff hfrozen
  rw [← hends] at hover
  constructor
  · obtain ⟨t, hexec, he⟩ := finish_recorded s (recordOp s)
    exact ⟨t, hexec, he.scrv.trans (congrArg State.scrv (if_pos (.inl hfrozen)))⟩
  · obtain ⟨t, hexec, he⟩ := finish_recorded s (freezeLimit s)
    refine ⟨t, hexec, ?_⟩
    rw [he.scrv, he.rdB]
    refine ⟨fun hearly => ?_, fun hlate => ?_⟩
    · have hnot : ¬ freezeOver s = true := fun h => absurd (hover.1 h) (by omega)
      rw [freezeLimit, if_neg hnot]
    · obtain ⟨hthawed, hempty⟩ := scrvUnfreeze_writes hfrozen
      rw [freezeLimit, if_pos (hover.2 hlate), ev_scrv]
      exact ⟨hthawed, hempty, rdB_ev_same _ evtAddr_scrv (by decide)⟩

theorem get?_filter_permanent {α : Type} (m : List (Nat × α)) (k : Nat) :
    get? (m.filter fun e => decide (2048 ≤ e.1)) k = if k < 2048 then none else get? m k := by
  induction m with
  | nil => exact (ite_self _).symm
  | cons e m ih =>
    obtain ⟨j, x⟩ := e
    by_cases hj : 2048 ≤ j
    · rw [List.filter_cons_of_pos (by simpa using hj), get?, get?, ih]
      by_cases hjk : j = k
      · rw [if_pos hjk, if_pos hjk, if_neg (by omega)]
      · rw [if_neg hjk, if_neg hjk]
    · rw [List.filter_cons_of_neg (by simpa using hj), ih]
      by_cases hk : k < 2048
      · rw [if_pos hk, if_pos hk]
      · rw [if_neg hk, if_neg hk, get?, if_neg (by omega)]

/-- Settles O57: SCRV.CMD's commands, the captures, the records and the freeze, each by its own lemma. -/
theorem theRecorderRecords : Obligations.TheRecorderRecords := by
  unfold Obligations.TheRecorderRecords
  intro s i
  refine ⟨fun k => fire_fires, capture_waits, fun f q => capture_takes, fun r h => recordWrite_writes, fun ends => frozen_lasts,
    fun h => ?_, fun h => ?_, fun h => ?_⟩
  · refine scrvCmd_clear (cmd := 1) rfl h fun x t hl hd => ?_
    rw [hd.scrv, ← hl.scrv, ← hl.clk]
    show (scrvFreeze x).scrv = _
    unfold scrvFreeze
    split <;> rfl
  · refine scrvCmd_clear (cmd := 2) rfl h fun x t hl hd => ?_
    rw [hd.scrv, ← hl.scrv]
    show (scrvUnfreeze x).scrv.frozen = false ∧ (_ → (scrvUnfreeze x).scrv.hold = [])
    cases hfrozen : x.scrv.frozen with
    | true =>
      obtain ⟨hthawed, hempty⟩ := scrvUnfreeze_writes hfrozen
      exact ⟨hthawed, fun _ => hempty⟩
    | false =>
      unfold scrvUnfreeze
      rw [hfrozen]
      exact ⟨hfrozen, nofun⟩
  · refine scrvCmd_clear (cmd := 4) rfl h fun x t hl hd => ?_
    have hslots : t.scrv.slots = s.scrv.slots.filter fun e => decide (2048 ≤ e.1) := by
      rw [hd.scrv, ← hl.scrv]
      rfl
    rw [hslots]
    exact ⟨fun k hk => (get?_filter_permanent _ k).trans (if_pos hk), fun k hk => (get?_filter_permanent _ k).trans (if_neg (by omega))⟩

end Sys2Proof.Proofs
end

section
/-!
PROOFS. A due frame starts (R267, R269–R272): what choosing its work leaves as it stands, and a queued request that starts with it.
-/

namespace Sys2Proof.Proofs

open Sys2Proof.Machine Sys2Proof.Laws

variable {s t u : State}

/-! ### The end of a command -/

/-- What a command's end leaves of the display. -/
structure Panel (u t : State) : Prop where
  rd : ∀ a, rd t a = rd u a
  sgn : t.sgn = u.sgn
  dram : t.dram = u.dram

theorem Panel.rdB (h : Panel u t) (a i : Nat) : rdB t a i = Machine.rdB u a i := congrArg (bit · i) (h.rd a)
theorem Panel.rdF (h : Panel u t) (a lo n : Nat) : rdF t a lo n = Machine.rdF u a lo n := congrArg (fld · lo n) (h.rd a)

theorem finish_panel (s u : State) : ∃ t, finish s u = .next t ∧ Panel u t := ⟨_, rfl, fun _ => rfl, rfl, rfl⟩

/-- No budget fault is settled where none is new. -/
theorem budgetSettle_faulted (h : t.toll.faulted = s.toll.faulted) : budgetSettle s t = t := by
  have hnone : (t.toll.faulted.filter fun k => !s.toll.faulted.contains k) = [] := by
    rw [h]
    exact List.filter_eq_nil_iff.2 fun k hk => by simp [hk]
  rw [budgetSettle, hnone]
  rfl

theorem frameStart_panel (h : (frameStartOp s).toll.faulted = s.toll.faulted) :
    ∃ t, exec .frameStart s = .next t ∧ Panel (frameStartOp s) t := by
  refine ⟨_, rfl, ?_⟩
  rw [budgetSettle_faulted h]
  exact ⟨fun _ => rfl, rfl, rfl⟩

theorem evtAddr_sgn : evtAddr pSGN = some (reg pSGN 0x0B0) := by decide

/-- The display's own registers are none of a region's. -/
theorem rgA_ne_sgn (r m : Nat) {o : Nat} (ho : o < 4096) : rgA r m ≠ reg pSGN o := by
  unfold rgA reg
  show 0x71 * 4096 + _ ≠ 0x70 * 4096 + o
  omega

/-! ### Reading pixels and waveforms -/

theorem pxAddr_congr (hlo : rd t (reg pSGN 0x09C) = rd s (reg pSGN 0x09C)) (hhi : rd t (reg pSGN 0x0A0) = rd s (reg pSGN 0x0A0)) (p : Nat) :
    pxAddr t p = pxAddr s p := by
  unfold pxAddr
  rw [rd64_congr hlo hhi]

theorem lutBase_congr (hlo : rd t (reg pSGN 0x094) = rd s (reg pSGN 0x094)) (hhi : rd t (reg pSGN 0x098) = rd s (reg pSGN 0x098)) :
    lutBase t = lutBase s := rd64_congr hlo hhi

theorem pxF_congr {p : Nat} (hd : t.dram = s.dram) (ha : pxAddr t p = pxAddr s p) (lo n : Nat) : pxF t p lo n = pxF s p lo n := by
  unfold pxF
  rw [ha, ramNat_congr hd]

theorem lutCode_congr (hd : t.dram = s.dram) (hb : lutBase t = lutBase s) (b i f : Nat) : lutCode t b i f = lutCode s b i f := by
  unfold lutCode
  rw [hb, ramNat_congr hd]

theorem lutLen_congr (hd : t.dram = s.dram) (hb : lutBase t = lutBase s) (b i : Nat) : lutLen t b i = lutLen s b i := by
  unfold lutLen
  simp only [lutCode_congr hd hb]

/-! ### Pixels that start (R271) -/

/-- One state is another after work on pixels: of the state their words and which of them are busy have changed. -/
structure Driven (s t : State) : Prop where
  rest : t = { s with dram := t.dram, sgn := { s.sgn with busy := t.sgn.busy } }

theorem Driven.refl (s : State) : Driven s s := ⟨rfl⟩

theorem Driven.trans (h : Driven s t) (k : Driven t u) : Driven s u := ⟨by rw [k.rest, h.rest]⟩

theorem Driven.foldl {α : Type} {f : State → α → State} (h : ∀ s x, Driven s (f s x)) (l : List α) (s : State) :
    Driven s (l.foldl f s) := by
  induction l generalizing s with
  | nil => exact .refl s
  | cons x xs ih => exact (h s x).trans (ih _)

theorem driven_ramWrite (s : State) (a : Nat) (bs : List Byte) : Driven s (ramWrite s a bs) := by
  obtain ⟨m, hm⟩ := ramWrite_eq bs s a
  rw [hm]
  exact ⟨rfl⟩

theorem driven_pxSet (s : State) (p cur tgt frame busy band : Nat) (l : Int) : Driven s (pxSet s p cur tgt frame busy band l) := by
  unfold pxSet
  exact driven_ramWrite s _ _

theorem driven_busy (s : State) (l : List Nat) : Driven s (setSgn s { s.sgn with busy := l }) := ⟨rfl⟩

theorem driven_pxStart (s : State) (p new : Nat) : Driven s (pxStart s p new) := by
  unfold pxStart
  dsimp only
  split
  · exact driven_pxSet s _ _ _ _ _ _ _
  · exact (driven_pxSet s _ _ _ _ _ _ _).trans (driven_busy _ _)

theorem driven_pxTake (s : State) (p new : Nat) : Driven s (pxTake s p new) := by
  unfold pxTake
  split
  · exact .refl s
  · exact driven_pxStart s p new

theorem Driven.sgn (h : Driven s t) : t.sgn = { s.sgn with busy := t.sgn.busy } := congrArg State.sgn h.rest
theorem Driven.rd (h : Driven s t) (a : Nat) : rd t a = rd s a := by rw [h.rest]; rfl

/-! ### The frame's work is chosen (R271–R275) -/

/-- One state is another after a frame's work has been chosen: registers, DRAM, free choices and the display alone have changed,
and no frame has become due. -/
structure Prepared (s t : State) : Prop where
  rest : t = { s with regs := t.regs, dram := t.dram, free := t.free, sgn := t.sgn }
  due : t.sgn.due = s.sgn.due

theorem Prepared.refl (s : State) : Prepared s s := ⟨rfl, rfl⟩

theorem Prepared.trans (h : Prepared s t) (k : Prepared t u) : Prepared s u := ⟨by rw [k.rest, h.rest], k.due.trans h.due⟩

theorem Prepared.foldl {α : Type} {f : State → α → State} (h : ∀ s x, Prepared s (f s x)) (l : List α) (s : State) :
    Prepared s (l.foldl f s) := by
  induction l generalizing s with
  | nil => exact .refl s
  | cons x xs ih => exact (h s x).trans (ih _)

theorem Driven.prepared (h : Driven s t) : Prepared s t := ⟨by rw [h.rest], by rw [h.sgn]⟩

theorem Prepared.byDriven (k : Driven t u) (h : Prepared s t) : Prepared s u := h.trans k.prepared
theorem Prepared.set (h : Prepared s t) {g : Sgn} (hg : g.due = t.sgn.due) : Prepared s (setSgn t g) := h.trans ⟨rfl, hg⟩
theorem Prepared.wr (h : Prepared s t) (a : Nat) (v : Word) : Prepared s (wr t a v) := h.trans ⟨rfl, rfl⟩

theorem prepared_rgRun (s : State) (r : RgnReq) : Prepared s (rgRun s r) := by
  unfold rgRun recBegin
  dsimp only
  exact .set (.wr (.set (.refl s) rfl) _ _) rfl

theorem prepared_reqJoin (s : State) (r : RgnReq) : Prepared s (reqJoin s r) := by
  refine (prepared_rgRun s r).trans (Prepared.foldl (fun t e => ?_) _ _)
  split
  · exact .set (.refl t) rfl
  · exact (driven_pxTake t _ _).prepared

theorem prepared_admitQueued (s : State) : Prepared s (admitQueued s) := by
  refine Prepared.foldl (fun t r => ?_) _ s
  split
  · exact .refl t
  · split
    · exact .refl t
    · dsimp only
      refine .byDriven (Driven.foldl (fun u e => driven_pxTake u _ _) _ _) ?_
      refine .trans ?_ (prepared_rgRun _ _)
      exact .set (.refl t) rfl

theorem prepared_letIn (s : State) : Prepared s (letIn s) := by
  unfold letIn
  dsimp only
  refine .trans ?_ (prepared_admitQueued _)
  refine .trans ?_ (Prepared.foldl prepared_reqJoin _ _)
  exact .set (.refl s) rfl

/-- What a balancing pass that begins leaves: it starts pixels and changes of the registers STAT alone. -/
structure Balanced (s t : State) : Prop where
  prepared : Prepared s t
  running : t.sgn.running = s.sgn.running
  queued : t.sgn.queued = s.sgn.queued
  recs : t.sgn.recs = s.sgn.recs
  rd : ∀ a, a ≠ reg pSGN 0x0AC → rd t a = rd s a

theorem Balanced.byDriven (k : Driven t u) (h : Balanced s t) : Balanced s u :=
  ⟨h.prepared.byDriven k, by rw [k.sgn]; exact h.running, by rw [k.sgn]; exact h.queued, by rw [k.sgn]; exact h.recs,
    fun a ha => (k.rd a).trans (h.rd a ha)⟩

theorem Balanced.set (h : Balanced s t) {g : Sgn} (hdue : g.due = t.sgn.due) (hrun : g.running = t.sgn.running)
    (hqueued : g.queued = t.sgn.queued) (hrecs : g.recs = t.sgn.recs) : Balanced s (setSgn t g) :=
  ⟨h.prepared.set hdue, hrun.trans h.running, hqueued.trans h.queued, hrecs.trans h.recs, h.rd⟩

theorem Balanced.shown (h : Balanced s t) : Balanced s (balShow t) :=
  ⟨h.prepared.wr _ _, h.running, h.queued, h.recs, fun a ha => (rd_wrB_other t _ _ ha).trans (h.rd a ha)⟩

theorem Balanced.withFree (s : State) (n : Nat) : Balanced s { s with free := n } := ⟨⟨rfl, rfl⟩, rfl, rfl, rfl, fun _ _ => rfl⟩

theorem balanced_balBegin (s : State) : Balanced s (balBegin s) := by
  unfold balBegin
  dsimp only
  split
  · exact ⟨.refl s, rfl, rfl, rfl, fun _ _ => rfl⟩
  · refine .byDriven (Driven.foldl (fun t e => driven_pxStart t _ _) _ _) ?_
    refine .set ?_ rfl rfl rfl rfl
    refine .shown ?_
    exact .set (.withFree s _) rfl rfl rfl rfl

theorem prepared_balStep (s : State) : Prepared s (balStep s) := by
  unfold balStep
  split
  · exact .refl s
  · split
    · exact .refl s
    · dsimp only
      have hlet := prepared_letIn s
      generalize letIn s = x at hlet ⊢
      refine .byDriven (Driven.foldl (fun t e => driven_pxStart t _ _) _ _) ?_
      split
      · exact .set hlet rfl
      · refine .set ?_ rfl
        exact .set hlet rfl

theorem prepared_recovDrive (s : State) : Prepared s (recovDrive s) := by
  unfold recovDrive
  dsimp only
  refine .byDriven (Driven.foldl (fun t p => driven_pxStart t p _) _ _) ?_
  refine .set ?_ rfl
  exact (Driven.foldl (fun t p => driven_pxSet t p _ _ _ _ _ _) _ s).prepared

theorem prepared_waitsStart (s : State) : Prepared s (waitsStart s) := by
  refine Prepared.foldl (fun t p => ?_) _ s
  split
  · exact .refl t
  · split
    · exact .byDriven (driven_pxTake _ _ _) (.set (.refl t) rfl)
    · exact .refl t

theorem prepared_framePrepare (s : State) : Prepared s (framePrepare s) := by
  unfold framePrepare
  split
  · exact .refl s
  · split
    · exact prepared_recovDrive s
    · dsimp only
      split
      · exact ((prepared_waitsStart s).trans (prepared_balStep _)).trans (balanced_balBegin _).prepared
      · exact ((prepared_waitsStart s).trans (prepared_letIn _)).trans (balanced_balBegin _).prepared

/-! ### A queued request of an idle region (R272) -/

/-- What the start of a queued request leaves of its region. -/
structure Started (s : State) (r : Nat) (q : RgnReq) (t : State) : Prop where
  running : get? t.sgn.running r = some q
  queued : t.sgn.queued = []
  stat : rd t (rgA r 0x1C) = 1
  rec_ : ∃ u, get? t.sgn.recs r = some u ∧ u.new = q.id ∧ u.old = look 0 s.sgn.shown r ∧ u.interrupted = false

/-- The state once a queued request has left its queue and runs. -/
def runQueued (s : State) (r : Nat) (q : RgnReq) : State := rgRun (setSgn s { s.sgn with queued := del s.sgn.queued r }) q

theorem started_runQueued {r : Nat} {q : RgnReq} (hr : q.region = r) (hqueued : s.sgn.queued = [(r, q)]) :
    Started s r q (runQueued s r q) := by
  have hdel : del s.sgn.queued r = [] := by
    rw [hqueued, del, if_pos rfl]
    rfl
  have hnone : (get? (del s.sgn.queued r) q.region).isSome = false := by rw [hdel]; rfl
  unfold runQueued rgRun recBegin
  dsimp only
  subst hr
  refine ⟨get?_ins_same _ _ _, hdel, ?_, _, get?_ins_same _ _ _, rfl, rfl, rfl⟩
  refine (rd_wr_same _ _ _).trans ?_
  show w32 (if (get? (del s.sgn.queued q.region) q.region).isSome = true then _ else 1) = 1
  rw [hnone]
  rfl

theorem Started.driven {r : Nat} {q : RgnReq} (h : Started s r q t) (k : Driven t u) : Started s r q u := by
  obtain ⟨hrun, hqueued, hstat, x, hx, hnew, hold, hint⟩ := h
  have hsgn := k.sgn
  exact ⟨by rw [hsgn]; exact hrun, by rw [hsgn]; exact hqueued, (k.rd _).trans hstat, x, by rw [hsgn]; exact hx, hnew, hold, hint⟩

theorem Started.balanced {r : Nat} {q : RgnReq} (h : Started s r q t) (k : Balanced t u) : Started s r q u := by
  obtain ⟨hrun, hqueued, hstat, x, hx, hnew, hold, hint⟩ := h
  exact ⟨by rw [k.running, hrun], by rw [k.queued, hqueued], (k.rd _ (rgA_ne_sgn _ _ (by decide))).trans hstat, x, by rw [k.recs, hx],
    hnew, hold, hint⟩

/-- The step of a region's queued request. -/
def admitOne (t : State) (r : Nat) : State :=
  match get? t.sgn.queued r with
  | none => t
  | some q =>
    if heldBack t ∨ (get? t.sgn.running r).isSome ∨ reqBusy t q then t
    else (reqPx (runQueued t r q) q).foldl (fun u e => pxTake u e.1 e.2) (runQueued t r q)

theorem admitQueued_eq (s : State) : admitQueued s = (List.range 32).foldl admitOne s := rfl

theorem admitOne_none {r : Nat} (h : get? s.sgn.queued r = none) : admitOne s r = s := by
  unfold admitOne
  rw [h]

theorem foldl_admitOne_none {l : List Nat} (h : ∀ r ∈ l, get? s.sgn.queued r = none) : l.foldl admitOne s = s := by
  induction l with
  | nil => rfl
  | cons r l ih =>
    rw [List.foldl_cons, admitOne_none (h r List.mem_cons_self)]
    exact ih fun j hj => h j (List.mem_cons_of_mem _ hj)

/-- The one queued request of an idle region starts. -/
theorem admitQueued_starts {r : Nat} {q : RgnReq} (hr32 : r < 32) (hr : q.region = r) (hqueued : s.sgn.queued = [(r, q)])
    (hheld : heldBack s = false) (hidle : get? s.sgn.running r = none) (hbusy : reqBusy s q = false) :
    Started s r q (admitQueued s) := by
  obtain ⟨l, m, hlm⟩ := List.append_of_mem (List.mem_range.2 hr32)
  have hnodup : (l ++ r :: m).Nodup := hlm ▸ List.nodup_range
  have hnew : r ∉ l := fun hl => (List.disjoint_of_nodup_append hnodup) hl List.mem_cons_self
  have hbefore : ∀ j ∈ l, get? s.sgn.queued j = none := fun j hj => by
    have hne : r ≠ j := fun e => hnew (e ▸ hj)
    rw [hqueued, get?, if_neg hne]
    rfl
  have hstep : Started s r q (admitOne s r) := by
    have hget : get? s.sgn.queued r = some q := by rw [hqueued, get?, if_pos rfl]
    have hone : admitOne s r = (reqPx (runQueued s r q) q).foldl (fun u e => pxTake u e.1 e.2) (runQueued s r q) := by
      unfold admitOne
      rw [hget]
      exact if_neg (by rw [hheld, hidle, hbusy]; simp)
    rw [hone]
    exact (started_runQueued hr hqueued).driven (Driven.foldl (fun u e => driven_pxTake u _ _) _ _)
  rw [admitQueued_eq, hlm, List.foldl_append, foldl_admitOne_none hbefore, List.foldl_cons,
    foldl_admitOne_none fun j _ => by rw [hstep.queued]; rfl]
  exact hstep

theorem framePrepare_starts {r : Nat} {q : RgnReq} (hr32 : r < 32) (hr : q.region = r) (hmay : mayStart s = true) (hrecov : s.sgn.recov = 0)
    (hbal : s.sgn.bal = none) (hwaits : s.sgn.waits = []) (hjoin : s.sgn.joining = []) (hqueued : s.sgn.queued = [(r, q)])
    (hidle : get? s.sgn.running r = none) (hsafe : s.guard.safe = false) (hbusy : reqBusy s q = false) :
    Started s r q (framePrepare s) := by
  have hnow : waitsStart s = s := by
    unfold waitsStart
    rw [hwaits]
    rfl
  have hlet : letIn s = admitQueued s := by
    have hnone : joinNow s = [] := by
      unfold joinNow
      rw [hjoin]
      rfl
    have hsame : setSgn s { s.sgn with joining := s.sgn.joining.filter fun r => !([] : List RgnReq).contains r } = s := by
      rw [hjoin]
      show { s with sgn := { s.sgn with joining := [] } } = s
      rw [← hjoin]
    unfold letIn
    dsimp only
    rw [hnone, hsame]
    rfl
  have hheld : heldBack s = false := by
    unfold heldBack
    rw [hrecov, hbal, hsafe]
    rfl
  have hop : framePrepare s = balBegin (admitQueued s) := by
    unfold framePrepare
    rw [hmay, if_neg (by decide), if_neg (by rw [hrecov]; decide)]
    dsimp only
    rw [hnow, hbal, if_neg (by decide), hlet]
  rw [hop]
  exact (admitQueued_starts hr32 hr hqueued hheld hidle hbusy).balanced (balanced_balBegin _)

end Sys2Proof.Proofs
end

section
/-!
PROOFS. The commands that start a frame and move the panel's supply (R267–R270).
-/

namespace Sys2Proof.Proofs

open Sys2Proof.Machine Sys2Proof.Laws

variable {s t u : State}

/-! ### FRAME_START (R267, R269, R270) -/

/-- A hardware block's requests to DRAM change the accounts alone. -/
theorem solving_dramUse (s : State) (w : Who) (c : Cls) (bytes : Nat) (hw : ∀ k ∈ fabricPath (srcRegion w) none ++ [5], k ≤ 8) :
    Solving s (dramUse s w c bytes) := solving_hwGrants s w c _ hw

/-- The state in which a frame goes out: its work chosen, its requests made. -/
def atScanOut (s : State) : State :=
  dramUse (atFrame s) (.hw (Fin.ofNat 128 pSGN)) (scanCls (atFrame s)) (frameBytes (atFrame s))

theorem frameStartOp_goes (hdue : s.sgn.due = true) (hruns : sgnRuns s = true) (hstop : s.sgn.stopped = false)
    (hscan : s.sgn.scan = none) (hpwr : s.sgn.pwrup = true) (hgood : s.sgn.pgood = true) : frameStartOp s =
      setSgn (atScanOut s) { (atScanOut s).sgn with scan := some (frameCodes (atScanOut s)), scanAt := (atScanOut s).clk.fabric } := by
  unfold frameStartOp
  rw [if_neg (by rw [hdue, hruns, hstop]; decide), hscan, hpwr, hgood]
  rfl

/-- A calm frame's requests. -/
theorem granted_atScanOut (h : frameCalm s) : Granted (fabricPath (srcRegion (.hw (Fin.ofNat 128 pSGN))) none ++ [5])
    (scanCls (atFrame s)) (ceilDiv (frameBytes (atFrame s)) 64) (atFrame s) (atScanOut s) :=
  granted_hwGrants (by decide) (by decide) h

theorem frameCodes_congr (hd : t.dram = s.dram) (hrd : ∀ o < 4096, rd t (reg pSGN o) = rd s (reg pSGN o)) (hb : t.sgn.busy = s.sgn.busy) :
    frameCodes t = frameCodes s := by
  have hpx : ∀ p, pxAddr t p = pxAddr s p := pxAddr_congr (hrd _ (by decide)) (hrd _ (by decide))
  have hlut : lutBase t = lutBase s := lutBase_congr (hrd _ (by decide)) (hrd _ (by decide))
  unfold frameCodes
  rw [hb]
  refine List.map_congr_left fun p _ => ?_
  rw [pxF_congr hd (hpx p), pxF_congr hd (hpx p), pxF_congr hd (hpx p), pxF_congr hd (hpx p), lutCode_congr hd hlut]

theorem rdF_pwrShow (s : State) : rdF (pwrShow s) (reg pSGN 0x0AC) 0 2 = if !s.sgn.pwrup then 0 else if s.sgn.pgood then 2 else 1 := by
  unfold pwrShow
  rw [rd_wrF_same s _ (by decide)]
  split <;> [rfl; split <;> rfl]

section

variable (hdue : s.sgn.due = true) (hruns : sgnRuns s = true) (hstop : s.sgn.stopped = false)
include hdue hruns hstop

theorem frameStart_slips (hscan : s.sgn.scan.isSome = true) (hcor : corMode s pSGN = false) : ∃ t, exec .frameStart s = .next t ∧
    t.sgn.due = false ∧ rd t (reg pSGN 0x0B8) = rd s (reg pSGN 0x0B8) + 1 ∧ rdB t (reg pSGN 0x0B0) 3 = true ∧ t.dram = s.dram ∧
      t.sgn.scan = s.sgn.scan ∧ t.sgn.busy = s.sgn.busy := by
  obtain ⟨x, hx⟩ : ∃ x, x = setSgn s { s.sgn with due := false } := ⟨_, rfl⟩
  have hop : frameStartOp s = ev (bump x (reg pSGN 0x0B8)) pSGN 3 := by
    unfold frameStartOp
    rw [if_neg (by rw [hdue, hruns, hstop]; decide), if_pos hscan, hx]
  have hcount : rd (bump x (reg pSGN 0x0B8)) (reg pSGN 0x0B8) = rd s (reg pSGN 0x0B8) + 1 := by
    have hxcor : corMode x (statPage (reg pSGN 0x0B8)) = false := by
      rw [show statPage (reg pSGN 0x0B8) = pSGN by decide, hx]
      exact hcor
    rw [rd_bump_wraps hxcor, hx]
    rfl
  obtain ⟨t, hexec, hp⟩ := frameStart_panel (s := s) (by rw [hop, ev_toll, bump_toll, hx]; rfl)
  refine ⟨t, hexec, ?_⟩
  rw [hp.sgn, hp.rd, hp.rdB, hp.dram, hop, ev_sgn, ev_dram, bump_sgn, bump_dram, rd_ev_other _ _ _ (by decide), hcount, hx]
  exact ⟨rfl, rfl, rdB_ev_same _ evtAddr_sgn (by decide), rfl, rfl, rfl⟩

theorem frameStart_powers (hscan : s.sgn.scan = none) (hpwr : s.sgn.pwrup = false) : ∃ t, exec .frameStart s = .next t ∧
    t.sgn.pwrup = true ∧ t.sgn.scan = none ∧ t.dram = s.dram ∧ rdF t (reg pSGN 0x0AC) 0 2 = if s.sgn.pgood then 2 else 1 := by
  have hop : frameStartOp s = pwrShow (setSgn s { s.sgn with pwrup := true, pwrAt := s.clk.fabric }) := by
    unfold frameStartOp
    rw [if_neg (by rw [hdue, hruns, hstop]; decide), hscan, hpwr]
    rfl
  obtain ⟨t, hexec, hp⟩ := frameStart_panel (s := s) (by rw [hop]; rfl)
  refine ⟨t, hexec, ?_⟩
  rw [hp.sgn, hp.dram, hp.rdF, hop, rdF_pwrShow]
  exact ⟨rfl, hscan, rfl, rfl⟩

theorem frameStart_goes (hscan : s.sgn.scan = none) (hpwr : s.sgn.pwrup = true) (hgood : s.sgn.pgood = true) (hcalm : frameCalm s) :
    ∃ t, exec .frameStart s = .next t ∧ t.sgn.due = false ∧ t.sgn.scan = some (frameCodes t) ∧
      (mayStart s = false → t.dram = s.dram ∧ t.sgn.busy = s.sgn.busy) ∧
      ∀ r < 32, ∀ q : RgnReq, q.region = r → mayStart s = true → s.sgn.recov = 0 → s.sgn.bal = none → s.sgn.waits = [] →
        s.sgn.joining = [] → s.sgn.queued = [(r, q)] → get? s.sgn.running r = none → s.guard.safe = false →
        reqBusy s q = false → get? t.sgn.running r = some q ∧ t.sgn.queued = [] ∧ rd t (rgA r 0x1C) = 1 ∧
          ∃ u, get? t.sgn.recs r = some u ∧ u.new = q.id ∧ u.old = look 0 s.sgn.shown r ∧ u.interrupted = false := by
  have hop := frameStartOp_goes hdue hruns hstop hscan hpwr hgood
  have hgrant := granted_atScanOut hcalm
  have hsolve := solving_dramUse (atFrame s) (.hw (Fin.ofNat 128 pSGN)) (scanCls (atFrame s)) (frameBytes (atFrame s)) (by decide)
  have hgsgn : (atScanOut s).sgn = (atFrame s).sgn := by rw [atScanOut, hsolve.rest]
  obtain ⟨b, hb⟩ : ∃ b : State, b = { s with sgn := { s.sgn with due := false } } := ⟨_, rfl⟩
  have hframe : atFrame s = framePrepare b := by rw [hb]; rfl
  have hprep := prepared_framePrepare b
  have hfault : (atFrame s).toll.faulted = s.toll.faulted := by rw [hframe, hprep.rest, hb]
  generalize hg : atScanOut s = g at hop hgrant hgsgn
  obtain ⟨t, hexec, hp⟩ := frameStart_panel (s := s) (by rw [hop]; exact hgrant.faulted.trans hfault)
  rw [hop] at hp
  have hsgn : t.sgn = { (atFrame s).sgn with scan := some (frameCodes g), scanAt := g.clk.fabric } := by
    rw [hp.sgn, ← hgsgn]
    rfl
  refine ⟨t, hexec, ?_, ?_, fun hmay => ?_, fun r hr32 q hr hmay hrecov hbal hwaits hjoin hqueued hidle hsafe hbusy => ?_⟩
  · rw [hsgn]
    show (atFrame s).sgn.due = false
    rw [hframe, hprep.due, hb]
  · rw [frameCodes_congr (s := g) (t := t) hp.dram (fun o _ => hp.rd _) (by rw [hp.sgn]; rfl), hsgn]
  · have hstay : framePrepare b = b := by
      have hbmay : mayStart b = false := by rw [hb]; exact hmay
      unfold framePrepare
      rw [hbmay]
      rfl
    refine ⟨?_, ?_⟩
    · rw [hp.dram]
      refine hgrant.dram.trans ?_
      rw [hframe, hstay, hb]
    · rw [hsgn]
      show (atFrame s).sgn.busy = _
      rw [hframe, hstay, hb]
  · have hstart : Started b r q (framePrepare b) := by
      subst hb
      exact framePrepare_starts hr32 hr hmay hrecov hbal hwaits hjoin hqueued hidle hsafe hbusy
    rw [← hframe] at hstart
    obtain ⟨hrun, hq, hstat, x, hx, hnew, hold, hint⟩ := hstart
    rw [hsgn, hp.rd]
    refine ⟨hrun, hq, ?_, x, hx, hnew, ?_, hint⟩
    · refine Eq.trans (hgrant.rd _ ?_) hstat
      rw [pageOf_rgA hr32 (by decide)]
      decide
    · rw [hold, hb]

end

/-! ### The panel's supply (R267) -/

theorem recovBegin_keeps (s : State) : (recovBegin s).sgn.pgood = s.sgn.pgood ∧
    rdF (recovBegin s) (reg pSGN 0x0AC) 0 2 = rdF s (reg pSGN 0x0AC) 0 2 := by
  unfold recovBegin
  dsimp only
  split
  · exact ⟨rfl, rdF_wrF_outside (setSgn s _) _ _ (by decide) (by decide)⟩
  · exact ⟨rfl, rfl⟩

theorem epdPgoodRise_rises (hpwr : s.sgn.pwrup = true) (hgood : s.sgn.pgood = false) :
    ∃ t, exec .epdPgoodRise s = .next t ∧ t.sgn.pgood = true ∧ rdF t (reg pSGN 0x0AC) 0 2 = 2 := by
  obtain ⟨t, hexec, hp⟩ := finish_panel s (pgoodRise s)
  obtain ⟨x, hx⟩ : ∃ x, x = pwrShow (setSgn s { s.sgn with pgood := true }) := ⟨_, rfl⟩
  have hop : pgoodRise s = if (x.sgn.recs.any fun e => e.2.interrupted) && x.sgn.recov != 2 then recovBegin x else x := by
    unfold pgoodRise
    rw [if_neg (by rw [hpwr, hgood]; decide), hx]
  have hxgood : x.sgn.pgood = true := by rw [hx]; rfl
  have hxpwr : rdF x (reg pSGN 0x0AC) 0 2 = 2 := by
    rw [hx, rdF_pwrShow]
    show (if !s.sgn.pwrup then 0 else 2) = 2
    rw [hpwr]
    rfl
  refine ⟨t, hexec, ?_⟩
  rw [hp.sgn, hp.rdF, hop]
  split
  · obtain ⟨hkgood, hkpwr⟩ := recovBegin_keeps x
    exact ⟨hkgood.trans hxgood, hkpwr.trans hxpwr⟩
  · exact ⟨hxgood, hxpwr⟩

theorem pgoodTimeout_passes {by_ : Nat} (hby : by_ = s.sgn.pwrAt + rdF s (reg pSGN 0x080) 8 8 * 400000) (hpwr : s.sgn.pwrup = true)
    (hgood : s.sgn.pgood = false) : ∃ t, exec .pgoodTimeout s = .next t ∧ (s.clk.fabric < by_ → t.sgn = s.sgn) ∧
      (by_ ≤ s.clk.fabric → t.sgn.pwrup = false ∧ rdF t (reg pSGN 0x0AC) 0 2 = 0 ∧ rdB t (reg pSGN 0x0B0) 1 = true ∧
        t.sgn.due = false) := by
  obtain ⟨t, hexec, hp⟩ := finish_panel s (pgoodLate s)
  refine ⟨t, hexec, ?_⟩
  rw [hp.sgn, hp.rdF, hp.rdB]
  unfold pgoodLate
  rw [← hby, hpwr, hgood]
  refine ⟨fun hearly => ?_, fun hlate => ?_⟩
  · rw [if_pos (.inr (.inr hearly))]
  · rw [if_neg (by simp; omega), ev_sgn, rdF, rd_ev_other _ _ _ (by decide), ← rdF, rdF_pwrShow]
    exact ⟨rfl, rfl, rdB_ev_same _ evtAddr_sgn (by decide), rfl⟩

theorem panelPowerOff_drops {off : Nat} (hoff : off = s.sgn.dueAt + rdF s (reg pSGN 0x080) 16 8 * 4000000) :
    ∃ t, exec .panelPowerOff s = .next t ∧ (s.sgn.due = true ∨ s.sgn.scan.isSome = true ∨ s.clk.fabric < off → t.sgn = s.sgn) ∧
      (s.sgn.due = false → s.sgn.scan = none → off ≤ s.clk.fabric → t.sgn.pwrup = false ∧ rdF t (reg pSGN 0x0AC) 0 2 = 0) := by
  obtain ⟨t, hexec, hp⟩ := finish_panel s (panelOff s)
  refine ⟨t, hexec, ?_⟩
  rw [hp.sgn, hp.rdF]
  unfold panelOff
  rw [← hoff]
  refine ⟨fun hstays => by rw [if_pos hstays], fun hdue hscan hlate => ?_⟩
  rw [hdue, hscan, if_neg (by simp; omega), rdF_pwrShow]
  exact ⟨rfl, rfl⟩

/-! ### The loss of PGOOD (R267, R274) -/

theorem rgA_ne {r k m n : Nat} (hm : m < 0x20) (hn : n < 0x20) (h : r ≠ k) : rgA r m ≠ rgA k n := fun e => h ((rgA_inj hm hn).1 e).1

/-- Regions whose state is replaced show it. -/
theorem rdF_foldl_rgState (l : List Nat) (st : Nat) (s : State) {r : Nat} (hr : r ∈ l ∨ rdF s (rgA r 0x1C) 0 3 = st % 8) :
    rdF (l.foldl (fun t k => rgState t k st) s) (rgA r 0x1C) 0 3 = st % 8 := by
  induction l generalizing s with
  | nil => exact hr.resolve_left List.not_mem_nil
  | cons k l ih =>
    refine ih _ ?_
    by_cases hk : r = k
    · subst hk
      exact .inr (rd_wrF_same s st (by decide))
    · refine hr.imp (fun h => (List.mem_cons.1 h).resolve_left hk) fun h => ?_
      exact (congrArg (fld · 0 3) (rd_wrF_other s 0 3 st (rgA_ne (by decide) (by decide) hk))).trans h

theorem foldl_rgState_sgn (l : List Nat) (st : Nat) (s : State) : (l.foldl (fun t k => rgState t k st) s).sgn = s.sgn :=
  foldl_keeps (f := fun t k => rgState t k st) State.sgn (fun _ _ => rfl) l s

theorem pgoodLost_interrupts (hgood : s.sgn.pgood = true) (hbusy : s.sgn.busy ≠ []) : ∃ t, exec .pgoodLost s = .next t ∧
    t.sgn.pgood = false ∧ rdB t (reg pSGN 0x0B0) 2 = true ∧ t.sgn.running = [] ∧ t.sgn.busy = [] ∧
    (∀ r < 32, (get? s.sgn.running r).isSome = true → rdF t (rgA r 0x1C) 0 3 = 2) ∧ ∀ e ∈ t.sgn.recs, e.2.interrupted = true := by
  obtain ⟨t, hexec, hp⟩ := finish_panel s (pgoodFall s)
  obtain ⟨x, hx⟩ : ∃ x, x = pwrShow (setSgn s { s.sgn with pgood := false }) := ⟨_, rfl⟩
  have hxsgn : x.sgn = { s.sgn with pgood := false } := by rw [hx]; rfl
  have hop : pgoodFall s = ev (sgnInterrupt x) pSGN 2 := by
    have hnone : x.sgn.busy.isEmpty = false := by
      rw [hxsgn]
      exact List.isEmpty_eq_false_iff.2 hbusy
    unfold pgoodFall
    rw [hgood, if_neg (by decide)]
    dsimp only
    rw [← hx, hnone]
    rfl
  obtain ⟨y, hy⟩ : ∃ y, y = (x.sgn.running.map Prod.fst).foldl (fun t r => rgState t r 2) x := ⟨_, rfl⟩
  obtain ⟨z, hz⟩ : ∃ z, z = y.sgn.busy.foldl (fun t p => pxSet t p (pxF t p 0 4) (pxF t p 4 4) (pxF t p 8 6) 0 (pxF t p 16 4)
      (pxLedger t p)) y := ⟨_, rfl⟩
  have hdriven : Driven y z := hz ▸ Driven.foldl (fun t p => driven_pxSet t p _ _ _ _ _ _) _ y
  have hysgn : y.sgn = x.sgn := hy ▸ foldl_rgState_sgn _ 2 x
  have hint : sgnInterrupt x = balShow (setSgn z { z.sgn with
      running := [], busy := [], waits := [], scan := none, bal := none, recov := if z.sgn.recov = 2 then 1 else z.sgn.recov
      recs := z.sgn.recs.map fun e => (e.1, { e.2 with interrupted := true }) }) := by
    rw [hz, hy]
    rfl
  have hsgn : t.sgn = { z.sgn with
      running := [], busy := [], waits := [], scan := none, bal := none, recov := if z.sgn.recov = 2 then 1 else z.sgn.recov
      recs := z.sgn.recs.map fun e => (e.1, { e.2 with interrupted := true }) } := by
    rw [hp.sgn, hop, ev_sgn, hint]
    rfl
  refine ⟨t, hexec, ?_, ?_, by rw [hsgn], by rw [hsgn], fun r hr hrun => ?_, fun e he => ?_⟩
  · rw [hsgn]
    show z.sgn.pgood = false
    rw [hdriven.sgn, hysgn, hxsgn]
  · rw [hp.rdB, hop]
    exact rdB_ev_same _ evtAddr_sgn (by decide)
  · have hmem : r ∈ x.sgn.running.map Prod.fst := by
      rw [hxsgn]
      exact key_mem_of_get? hrun
    have hregion : rdF y (rgA r 0x1C) 0 3 = 2 := by
      rw [hy]
      exact rdF_foldl_rgState _ 2 x (.inl hmem)
    have hevent : evtAddr pSGN ≠ some (rgA r 0x1C) := fun e => rgA_ne_sgn r 0x1C (o := 0x0B0) (by decide)
      (Option.some.inj (e.symm.trans evtAddr_sgn))
    rw [hp.rdF, hop, rdF, rd_ev_other _ _ _ hevent, hint, balShow, rd_wrB_other _ _ _ (rgA_ne_sgn r 0x1C (by decide))]
    exact (congrArg (fld · 0 3) (hdriven.rd _)).trans hregion
  · rw [hsgn] at he
    obtain ⟨w, -, rfl⟩ := List.mem_map.1 he
    rfl

/-! ### TEMPERATURE_READ (R268) -/

theorem temperatureRead_band {T x w : Int} (hw : w = 256 * (max 1 (rdF s (reg pSGN 0x08C) 8 4) : Nat))
    (hx : x = T - 256 * sgn 8 (rdF s (reg pSGN 0x08C) 0 8)) : ∃ t, exec (.temperatureRead (some T)) s = .next t ∧
      (x < w → rdF t (reg pSGN 0x08C) 16 4 = 0) ∧ (15 * w ≤ x → rdF t (reg pSGN 0x08C) 16 4 = 15) ∧
      ∀ b ≤ 15, (b : Nat) * w ≤ x → x < (b + 1 : Nat) * w → rdF t (reg pSGN 0x08C) 16 4 = b := by
  obtain ⟨t, hexec, hp⟩ := finish_panel s (tempRead s (some T))
  have hpos : 0 < w := by
    rw [hw]
    have : 1 ≤ max 1 (rdF s (reg pSGN 0x08C) 8 4) := Nat.le_max_left _ _
    omega
  have hband : rdF t (reg pSGN 0x08C) 16 4 = (clampI 0 15 (x / w)).toNat % 16 := by
    rw [hp.rdF]
    refine (rd_wrF_same s _ (by decide)).trans ?_
    rw [hx, hw]
    norm_cast
  refine ⟨t, hexec, ?_⟩
  rw [hband]
  refine ⟨fun hlow => ?_, fun hhigh => ?_, fun b hb hlo hhi => ?_⟩
  · have : x / w < 1 := Int.ediv_lt_of_lt_mul hpos (by rwa [one_mul])
    unfold clampI
    split_ifs <;> omega
  · have : 15 ≤ x / w := (Int.le_ediv_iff_mul_le hpos).2 hhigh
    unfold clampI
    split_ifs <;> omega
  · have h1 : (b : Int) ≤ x / w := (Int.le_ediv_iff_mul_le hpos).2 hlo
    have h2 : x / w < (b + 1 : Nat) := Int.ediv_lt_of_lt_mul hpos hhi
    unfold clampI
    push_cast at h2
    split_ifs <;> omega

theorem temperatureRead_fails : ∃ t, exec (.temperatureRead none) s = .next t ∧ rdB t (reg pSGN 0x0B0) 4 = true ∧
    rd t (reg pSGN 0x08C) = rd s (reg pSGN 0x08C) := by
  obtain ⟨t, hexec, hp⟩ := finish_panel s (tempRead s none)
  refine ⟨t, hexec, (hp.rdB _ _).trans (rdB_ev_same _ evtAddr_sgn (by decide)), ?_⟩
  rw [hp.rd]
  exact rd_ev_other s pSGN 4 (by decide)

end Sys2Proof.Proofs
end

section
/-!
PROOFS. The end of a frame (R266, R271–R275), and the settled obligation of the display.
-/

namespace Sys2Proof.Proofs

open Sys2Proof.Machine Sys2Proof.Laws

variable {s t u : State} {p : Nat}

/-! ### A pixel's state word (R271) -/

/-- The fields of a state word as it is packed. -/
theorem pxWord_fields {cur tgt frame busy band ledger : Nat} (hc : cur < 16) (ht : tgt < 16) (hf : frame < 64) (hb : busy < 2)
    (hd : band < 16) (hl : ledger < 256) {N : Nat}
    (hN : N = cur + tgt * 16 + frame * 256 + busy * 2 ^ 15 + band * 2 ^ 16 + ledger * 2 ^ 24) : N < 256 ^ 4 ∧
      N / 2 ^ 0 % 2 ^ 4 = cur ∧ N / 2 ^ 4 % 2 ^ 4 = tgt ∧ N / 2 ^ 8 % 2 ^ 6 = frame ∧ N / 2 ^ 15 % 2 ^ 1 = busy ∧
      N / 2 ^ 16 % 2 ^ 4 = band ∧ N / 2 ^ 24 % 2 ^ 8 = ledger := by
  omega

/-- What a pixel's state word holds once it is replaced. -/
structure PxHolds (t : State) (p cur tgt frame busy band : Nat) (l : Int) : Prop where
  cur : pxF t p 0 4 = cur
  tgt : pxF t p 4 4 = tgt
  frame : pxF t p 8 6 = frame
  busy : pxF t p 15 1 = busy
  band : pxF t p 16 4 = band
  ledger : pxLedger t p = l

theorem PxHolds.congr {cur tgt frame busy band : Nat} {l : Int} (h : PxHolds t p cur tgt frame busy band l) (hd : u.dram = t.dram)
    (ha : pxAddr u p = pxAddr t p) : PxHolds u p cur tgt frame busy band l where
  cur := (pxF_congr hd ha 0 4).trans h.cur
  tgt := (pxF_congr hd ha 4 4).trans h.tgt
  frame := (pxF_congr hd ha 8 6).trans h.frame
  busy := (pxF_congr hd ha 15 1).trans h.busy
  band := (pxF_congr hd ha 16 4).trans h.band
  ledger := (congrArg (Machine.sgn 8) (pxF_congr hd ha 24 8)).trans h.ledger

/-- A ledger is read back from its low byte. -/
theorem sgn_low_byte {l : Int} (hlo : -127 ≤ l) (hhi : l ≤ 127) : Machine.sgn 8 (l % 256).toNat = l := by
  have hmod : (l % 256).toNat % 2 ^ 8 = (l % 256).toNat := Nat.mod_eq_of_lt (by omega)
  unfold Machine.sgn
  rw [hmod]
  dsimp only
  split_ifs <;> omega

theorem pxHolds_pxSet {cur tgt frame busy band : Nat} {l : Int} (hram : pxAddr s p + 4 ≤ Config.dramBytes) (hc : cur < 16) (ht : tgt < 16)
    (hf : frame < 64) (hb : busy < 2) (hd : band < 16) (hlo : -127 ≤ l) (hhi : l ≤ 127) :
    PxHolds (pxSet s p cur tgt frame busy band l) p cur tgt frame busy band l := by
  have haddr : pxAddr (pxSet s p cur tgt frame busy band l) p = pxAddr s p :=
    pxAddr_congr ((driven_pxSet s _ _ _ _ _ _ _).rd _) ((driven_pxSet s _ _ _ _ _ _ _).rd _) p
  have hl : (l % 256).toNat < 256 := by clear hram; omega
  obtain ⟨N, hN⟩ : ∃ N, N = cur + tgt * 16 + frame * 256 + busy * 2 ^ 15 + band * 2 ^ 16 + (l % 256).toNat * 2 ^ 24 := ⟨_, rfl⟩
  obtain ⟨hlt, h0, h4, h8, h15, h16, h24⟩ := pxWord_fields hc ht hf hb hd hl hN
  have hword : ramNat (pxSet s p cur tgt frame busy band l) (pxAddr s p) 4 = N := by
    unfold pxSet
    rw [Nat.mod_eq_of_lt hc, Nat.mod_eq_of_lt ht, Nat.mod_eq_of_lt hf, Nat.mod_eq_of_lt hb, Nat.mod_eq_of_lt hd, ← hN]
    have h := ramNat_ramWrite s (a := pxAddr s p) (o := 0) (n := 4) (bs := leBytes 4 N) (by rw [length_leBytes])
      (by rw [length_leBytes]; exact hram)
    rw [Nat.add_zero] at h
    rw [h]
    have happ := leAt_leBytes_append 4 N []
    rwa [List.append_nil, Nat.mod_eq_of_lt hlt] at happ
  have hfield : ∀ lo n, pxF (pxSet s p cur tgt frame busy band l) p lo n = N / 2 ^ lo % 2 ^ n := fun lo n => by
    rw [pxF, haddr, hword]
  refine ⟨(hfield _ _).trans h0, (hfield _ _).trans h4, (hfield _ _).trans h8, (hfield _ _).trans h15, (hfield _ _).trans h16, ?_⟩
  rw [pxLedger, hfield, h24, sgn_low_byte hlo hhi]

/-- One more than the last of the first `k` numbers that is not passed over. -/
theorem foldl_last_le (q : Nat → Prop) [DecidablePred q] (k : Nat) :
    (List.range k).foldl (fun n f => if q f then n else f + 1) 0 ≤ k := by
  induction k with
  | zero => exact Nat.le_refl 0
  | succ k ih =>
    rw [List.range_succ, List.foldl_append, List.foldl_cons, List.foldl_nil]
    split
    · omega
    · exact Nat.le_refl _

/-- A transition lasts at most 64 frames. -/
theorem lutLen_le (s : State) (b i : Nat) : lutLen s b i ≤ 64 := foldl_last_le (fun f => lutCode s b i f = 3) 64

/-! ### A driven pixel after its frame (R271, R273) -/

/-- A pixel's ledger after a frame's drive code, before its limits. -/
def ledgerAfter (s : State) (p c : Nat) : Int := pxLedger s p + (if c = 1 then 1 else if c = 2 then -1 else 0)

/-- A pixel's ledger after a frame's drive code. -/
def ledgerNew (s : State) (p c : Nat) : Int := clampI (-127) 127 (ledgerAfter s p c)

/-- The transition that a pixel is in. -/
def transition (s : State) (p : Nat) : Nat := 16 * pxF s p 0 4 + pxF s p 4 4

theorem pxF_lt (s : State) (p lo n : Nat) : pxF s p lo n < 2 ^ n := Nat.mod_lt _ (Nat.two_pow_pos n)

/-- EVT.LEDGER where a pixel's ledger meets its limit. -/
def ledgerShown (s : State) (p c : Nat) : State := evIf (decide (ledgerNew s p c ≠ ledgerAfter s p c)) s pSGN 9

theorem ledgerShown_shows (s : State) (p c : Nat) : (ledgerShown s p c).sgn = s.sgn ∧ (ledgerShown s p c).dram = s.dram ∧
    (∀ a, a ≠ reg pSGN 0x0B0 → rd (ledgerShown s p c) a = rd s a) ∧
    (ledgerNew s p c ≠ ledgerAfter s p c → rdB (ledgerShown s p c) (reg pSGN 0x0B0) 9 = true) := by
  unfold ledgerShown
  refine ⟨by rw [evIf_sgn], by rw [evIf_dram], fun a ha => ?_, fun h => ?_⟩
  · unfold evIf
    split
    · exact rd_ev_other s pSGN 9 (by rw [evtAddr_sgn]; exact fun e => ha (Option.some.inj e).symm)
    · rfl
  · rw [decide_eq_true h, evIf, if_pos rfl]
    exact rdB_ev_same s evtAddr_sgn (by decide)

/-- A pixel whose waveform has ended. -/
def pxEnded (s : State) (p c : Nat) : State :=
  pxSet (ledgerShown s p c) p (pxF s p 4 4) (pxF s p 4 4) 0 0 (pxF s p 16 4) (ledgerNew s p c)

/-- A pixel whose waveform goes on. -/
def pxMoved (s : State) (p c : Nat) : State :=
  pxSet (ledgerShown s p c) p (pxF s p 0 4) (pxF s p 4 4) (pxF s p 8 6 + 1) 1 (pxF s p 16 4) (ledgerNew s p c)

theorem pxAdvance_eq (s : State) (p c : Nat) : pxAdvance s (p, c) =
    if lutLen s (pxF s p 16 4) (transition s p) ≤ pxF s p 8 6 + 1 then
      setSgn (pxEnded s p c) { (pxEnded s p c).sgn with busy := (pxEnded s p c).sgn.busy.filter (· != p) }
    else pxMoved s p c := by
  have hl : (if c = 1 then pxLedger s p + 1 else if c = 2 then pxLedger s p - 1 else pxLedger s p) = ledgerAfter s p c := by
    unfold ledgerAfter
    split_ifs <;> omega
  obtain ⟨-, hdram, hrd, -⟩ := ledgerShown_shows s p c
  have hpx : ∀ lo n, pxF (ledgerShown s p c) p lo n = pxF s p lo n :=
    pxF_congr hdram (pxAddr_congr (hrd _ (by decide)) (hrd _ (by decide)) p)
  have hlen : ∀ x i, lutLen (ledgerShown s p c) x i = lutLen s x i :=
    lutLen_congr hdram (lutBase_congr (hrd _ (by decide)) (hrd _ (by decide)))
  unfold pxEnded pxMoved
  rw [← hlen, ← hpx 16 4, transition, ← hpx 0 4, ← hpx 4 4, ← hpx 8 6]
  unfold ledgerShown ledgerNew
  rw [← hl]
  rfl

theorem ledgerNew_range (s : State) (p c : Nat) : -127 ≤ ledgerNew s p c ∧ ledgerNew s p c ≤ 127 := by
  rw [ledgerNew, clampI_eq (by decide)]
  omega

theorem ramWrite_sgn (s : State) (a : Nat) (bs : List Byte) : (ramWrite s a bs).sgn = s.sgn := by
  obtain ⟨m, hm⟩ := ramWrite_eq bs s a
  rw [hm]

theorem pxSet_sgn (s : State) (p cur tgt frame busy band : Nat) (l : Int) : (pxSet s p cur tgt frame busy band l).sgn = s.sgn := by
  unfold pxSet
  exact ramWrite_sgn _ _ _

/-- What a driven pixel leaves after its frame. -/
structure Advanced (s : State) (p c : Nat) (t : State) : Prop where
  sgn : t.sgn = { s.sgn with busy := t.sgn.busy }
  rd : ∀ a, a ≠ reg pSGN 0x0B0 → rd t a = rd s a
  limit : ledgerNew s p c ≠ ledgerAfter s p c → rdB t (reg pSGN 0x0B0) 9 = true
  goes : pxF s p 8 6 + 1 < lutLen s (pxF s p 16 4) (transition s p) → t.sgn.busy = s.sgn.busy ∧
    PxHolds t p (pxF s p 0 4) (pxF s p 4 4) (pxF s p 8 6 + 1) 1 (pxF s p 16 4) (ledgerNew s p c)
  ends : lutLen s (pxF s p 16 4) (transition s p) ≤ pxF s p 8 6 + 1 → t.sgn.busy = s.sgn.busy.filter (· != p) ∧
    PxHolds t p (pxF s p 4 4) (pxF s p 4 4) 0 0 (pxF s p 16 4) (ledgerNew s p c)

theorem pxHolds_pxEnded (c : Nat) (hram : pxAddr (ledgerShown s p c) p + 4 ≤ Config.dramBytes) :
    PxHolds (pxEnded s p c) p (pxF s p 4 4) (pxF s p 4 4) 0 0 (pxF s p 16 4) (ledgerNew s p c) := by
  obtain ⟨hlo, hhi⟩ := ledgerNew_range s p c
  have htgt : pxF s p 4 4 < 16 := pxF_lt s p 4 4
  have hband : pxF s p 16 4 < 16 := pxF_lt s p 16 4
  unfold pxEnded
  exact pxHolds_pxSet hram htgt htgt (by decide) (by decide) hband hlo hhi

theorem pxHolds_pxMoved (c : Nat) (hram : pxAddr (ledgerShown s p c) p + 4 ≤ Config.dramBytes) (hframe : pxF s p 8 6 + 1 < 64) :
    PxHolds (pxMoved s p c) p (pxF s p 0 4) (pxF s p 4 4) (pxF s p 8 6 + 1) 1 (pxF s p 16 4) (ledgerNew s p c) := by
  obtain ⟨hlo, hhi⟩ := ledgerNew_range s p c
  have hcur : pxF s p 0 4 < 16 := pxF_lt s p 0 4
  have htgt : pxF s p 4 4 < 16 := pxF_lt s p 4 4
  have hband : pxF s p 16 4 < 16 := pxF_lt s p 16 4
  unfold pxMoved
  exact pxHolds_pxSet hram hcur htgt hframe (by decide) hband hlo hhi

theorem pxEnded_sgn (s : State) (p c : Nat) : (pxEnded s p c).sgn = s.sgn := by
  unfold pxEnded
  rw [pxSet_sgn]
  exact (ledgerShown_shows s p c).1

theorem pxMoved_sgn (s : State) (p c : Nat) : (pxMoved s p c).sgn = s.sgn := by
  unfold pxMoved
  rw [pxSet_sgn]
  exact (ledgerShown_shows s p c).1

theorem rd_pxEnded (s : State) (p c a : Nat) : rd (pxEnded s p c) a = rd (ledgerShown s p c) a := (driven_pxSet _ _ _ _ _ _ _ _).rd a

theorem rd_pxMoved (s : State) (p c a : Nat) : rd (pxMoved s p c) a = rd (ledgerShown s p c) a := (driven_pxSet _ _ _ _ _ _ _ _).rd a

theorem rd_setSgn (s : State) (g : Sgn) (a : Nat) : rd (setSgn s g) a = rd s a := rfl

theorem PxHolds.withSgn {cur tgt frame busy band : Nat} {l : Int} (h : PxHolds t p cur tgt frame busy band l) (g : Sgn) :
    PxHolds (setSgn t g) p cur tgt frame busy band l :=
  h.congr rfl (pxAddr_congr (rd_setSgn t g _) (rd_setSgn t g _) p)

theorem advanced_pxAdvance (s : State) {p : Nat} (c : Nat) (hram : pxAddr s p + 4 ≤ Config.dramBytes) :
    Advanced s p c (pxAdvance s (p, c)) := by
  obtain ⟨-, -, hyrd, hylimit⟩ := ledgerShown_shows s p c
  have hyram : pxAddr (ledgerShown s p c) p + 4 ≤ Config.dramBytes := by
    rwa [pxAddr_congr (hyrd _ (by decide)) (hyrd _ (by decide))]
  rw [pxAdvance_eq]
  split
  case isTrue hends =>
    have hholds := pxHolds_pxEnded c hyram
    have hzsgn := pxEnded_sgn s p c
    have hzrd := rd_pxEnded s p c
    generalize pxEnded s p c = z at hholds hzsgn hzrd
    rw [hzsgn]
    refine ⟨rfl, fun a ha => ?_, fun h => ?_, fun h => absurd hends (Nat.not_le.2 h), fun _ => ⟨rfl,
      hholds.withSgn _⟩⟩
    · rw [rd_setSgn, hzrd, hyrd a ha]
    · rw [rdB, rd_setSgn, hzrd, ← rdB, hylimit h]
  case isFalse hgoes =>
    have hframe : pxF s p 8 6 + 1 < 64 := Nat.lt_of_lt_of_le (Nat.not_le.1 hgoes) (lutLen_le s _ _)
    have hholds := pxHolds_pxMoved c hyram hframe
    have hzsgn := pxMoved_sgn s p c
    have hzrd := rd_pxMoved s p c
    generalize pxMoved s p c = z at hholds hzsgn hzrd
    exact ⟨by rw [hzsgn], fun a ha => (hzrd a).trans (hyrd a ha), fun h => (congrArg (bit · 9) (hzrd _)).trans (hylimit h),
      fun _ => ⟨by rw [hzsgn], hholds⟩, fun h => absurd h hgoes⟩

/-! ### After the pixels of a frame (R272–R275) -/

/-- What the end of a frame does once its pixels have moved on: DRAM, the busy pixels and most of the display's registers stand,
events only add up, and no recovery begins. -/
structure Closes (s t : State) : Prop where
  dram : t.dram = s.dram
  busy : t.sgn.busy = s.sgn.busy
  scan : t.sgn.scan = s.sgn.scan
  recov : t.sgn.recov = 0
  rd : ∀ o < 4096, o ≠ 0x0B0 → o ≠ 0x0AC → o ≠ 0x0BC → o ≠ 0x0C0 → rd t (reg pSGN o) = rd s (reg pSGN o)
  mono : ∀ i, rdB s (reg pSGN 0x0B0) i = true → rdB t (reg pSGN 0x0B0) i = true

theorem Closes.refl (h : s.sgn.recov = 0) : Closes s s := ⟨rfl, rfl, rfl, h, fun _ _ _ _ _ _ => rfl, fun _ h => h⟩

theorem Closes.trans (h : Closes s t) (k : Closes t u) : Closes s u :=
  ⟨k.dram.trans h.dram, k.busy.trans h.busy, k.scan.trans h.scan, k.recov,
    fun o ho h1 h2 h3 h4 => (k.rd o ho h1 h2 h3 h4).trans (h.rd o ho h1 h2 h3 h4), fun i hi => k.mono i (h.mono i hi)⟩

theorem Closes.foldl {α : Type} {f : State → α → State} (hf : ∀ s x, s.sgn.recov = 0 → Closes s (f s x)) (l : List α) (s : State)
    (h : s.sgn.recov = 0) : Closes s (l.foldl f s) := by
  induction l generalizing s with
  | nil => exact .refl h
  | cons x xs ih => exact (hf s x h).trans (ih _ (hf s x h).recov)

theorem Closes.set (h : Closes s t) {g : Sgn} (hb : g.busy = t.sgn.busy) (hs : g.scan = t.sgn.scan) (hr : g.recov = t.sgn.recov) :
    Closes s (setSgn t g) := ⟨h.dram, hb.trans h.busy, hs.trans h.scan, hr.trans h.recov, h.rd, h.mono⟩

/-- A register of the regions' page, or one that the end of a frame may replace. -/
theorem Closes.wr (h : Closes s t) {a : Nat} (v : Word) (ha : (∃ r o, a = rgA r o) ∨ a = reg pSGNRG 0x084 ∨ a = reg pSGN 0x0AC ∨
    a = reg pSGN 0x0BC ∨ a = reg pSGN 0x0C0) : Closes s (wr t a v) := by
  have hne : ∀ o < 4096, o ≠ 0x0AC → o ≠ 0x0BC → o ≠ 0x0C0 → reg pSGN o ≠ a := by
    intro o ho h2 h3 h4 e
    rcases ha with ⟨r, m, rfl⟩ | rfl | rfl | rfl | rfl
    · exact rgA_ne_sgn r m ho e.symm
    · have := congrArg pageOf e
      rw [pageOf_reg _ ho, pageOf_reg _ (by decide)] at this
      exact absurd this (by decide)
    · exact h2 (reg_right_inj.1 e)
    · exact h3 (reg_right_inj.1 e)
    · exact h4 (reg_right_inj.1 e)
  refine ⟨h.dram, h.busy, h.scan, h.recov, fun o ho h1 h2 h3 h4 => (rd_wr_other t v (hne o ho h2 h3 h4)).trans (h.rd o ho h1 h2 h3 h4),
    fun i hi => ?_⟩
  exact (congrArg (bit · i) (rd_wr_other t v (hne 0x0B0 (by decide) (by decide) (by decide) (by decide)))).trans (h.mono i hi)

theorem Closes.ev (h : Closes s t) (b : Nat) : Closes s (ev t pSGN b) where
  dram := by rw [ev_dram, h.dram]
  busy := by rw [ev_sgn, h.busy]
  scan := by rw [ev_sgn, h.scan]
  recov := by rw [ev_sgn, h.recov]
  rd := fun o ho h1 h2 h3 h4 =>
    (rd_ev_other t pSGN b (by rw [evtAddr_sgn]; exact fun e => h1 (reg_right_inj.1 (Option.some.inj e).symm))).trans (h.rd o ho h1 h2 h3 h4)
  mono := fun i hi => rdB_ev_mono t pSGN b (h.mono i hi)

theorem closes_recFrames (h : s.sgn.recov = 0) : Closes s (recFrames s) := by
  refine Closes.foldl (fun t e ht => ?_) _ s h
  dsimp only
  split
  · exact .set (.wr (.refl ht) _ (.inl ⟨_, _, rfl⟩)) rfl rfl rfl
  · exact .wr (.refl ht) _ (.inl ⟨_, _, rfl⟩)

/-- What the display holds once a region has completed, out of recovery. -/
def doneSgn (s : State) (r : RgnReq) : Sgn :=
  { s.sgn with
    running := del s.sgn.running r.region, shown := ins s.sgn.shown r.region r.id, done := ins s.sgn.done r.region r
    recs := del s.sgn.recs r.region, safeId := if r.safety then r.id else s.sgn.safeId
    recovSafe := s.sgn.recovSafe || (r.safety && decide (r.id = s.sgn.safeId)) }

theorem rgDone_eq (h : s.sgn.recov = 0) (r : RgnReq) : rgDone s r =
    ev (wrB (rgState (wr (setSgn s (doneSgn s r)) (reg pSGN 0x0C0) (doneSgn s r).safeId) r.region 0) (reg pSGNRG 0x084) r.region true)
      pSGN 0 := by
  have hno : ¬ (s.sgn.recov = 3 ∧ r.safety ∧ r.id = s.sgn.safeId) := fun hc => absurd (h.symm.trans hc.1) (by decide)
  have hno' : ∀ x : Nat, ¬ (s.sgn.recov = 3 ∧ x = 0) := fun x hc => absurd (h.symm.trans hc.1) (by decide)
  unfold rgDone doneSgn
  dsimp only
  rw [if_neg hno, if_neg (hno' _)]
  rfl

theorem closes_rgDone (h : s.sgn.recov = 0) (r : RgnReq) : Closes s (rgDone s r) := by
  rw [rgDone_eq h]
  refine .ev (.wr (.wr (.wr ?_ _ (.inr (.inr (.inr (.inr rfl))))) _ (.inl ⟨_, _, rfl⟩)) _ (.inr (.inl rfl))) 0
  exact .set (.refl h) rfl rfl rfl

/-- The end of a frame, once its regions have completed. -/
def frameRest (s : State) : State :=
  let s := recovStep (balEnd (wr s (reg pSGN 0x0BC) (w32 (overPx s).length)))
  if s.sgn.stopped then pwrShow (setSgn s { s.sgn with pwrup := false }) else s

theorem closes_balEnd (h : s.sgn.recov = 0) : Closes s (balEnd s) := by
  unfold balEnd
  split
  · exact .refl h
  · split
    · refine .wr (.ev ?_ 6) _ (.inr (.inr (.inl rfl)))
      exact .set (.refl h) rfl rfl rfl
    · exact .refl h

theorem recovStep_none (h : s.sgn.recov = 0) : recovStep s = s := by
  unfold recovStep
  rw [if_pos (.inl (by rw [h]; decide))]

theorem closes_frameRest (h : s.sgn.recov = 0) : Closes s (frameRest s) := by
  have hcount : Closes s (wr s (reg pSGN 0x0BC) (w32 (overPx s).length)) := .wr (.refl h) _ (.inr (.inr (.inr (.inl rfl))))
  have hbal := hcount.trans (closes_balEnd hcount.recov)
  unfold frameRest
  rw [recovStep_none hbal.recov]
  dsimp only
  split
  · refine .wr ?_ _ (.inr (.inr (.inl rfl)))
    exact .set hbal rfl rfl rfl
  · exact hbal

/-- What that leaves of the regions. -/
structure RegionsStand (s t : State) : Prop where
  running : t.sgn.running = s.sgn.running
  shown : t.sgn.shown = s.sgn.shown
  recs : t.sgn.recs = s.sgn.recs
  safeId : t.sgn.safeId = s.sgn.safeId
  rd : ∀ a, a ≠ reg pSGN 0x0B0 → a ≠ reg pSGN 0x0AC → a ≠ reg pSGN 0x0BC → rd t a = rd s a

theorem regionsStand_frameRest (h : s.sgn.recov = 0) : RegionsStand s (frameRest s) := by
  obtain ⟨x, hx⟩ : ∃ x, x = wr s (reg pSGN 0x0BC) (w32 (overPx s).length) := ⟨_, rfl⟩
  have hxsgn : x.sgn = s.sgn := by rw [hx]; rfl
  have hxrd : ∀ a, a ≠ reg pSGN 0x0BC → rd x a = rd s a := fun a ha => by rw [hx]; exact rd_wr_other s _ ha
  have hbal : RegionsStand x (balEnd x) := by
    unfold balEnd
    split
    · exact ⟨rfl, rfl, rfl, rfl, fun _ _ _ _ => rfl⟩
    · split
      · obtain ⟨y, hy⟩ : ∃ y, y = ev (setSgn x { x.sgn with bal := none }) pSGN 6 := ⟨_, rfl⟩
        have hysgn : y.sgn = { x.sgn with bal := none } := by rw [hy, ev_sgn]; rfl
        rw [← hy]
        have hshow : (balShow y).sgn = y.sgn := rfl
        refine ⟨by rw [hshow, hysgn], by rw [hshow, hysgn], by rw [hshow, hysgn], by rw [hshow, hysgn],
          fun a he hs _ => (rd_wrB_other y _ _ hs).trans ?_⟩
        rw [hy]
        exact rd_ev_other _ _ _ (by rw [evtAddr_sgn]; exact fun e => he (Option.some.inj e).symm)
      · exact ⟨rfl, rfl, rfl, rfl, fun _ _ _ _ => rfl⟩
  have hrecov : (balEnd x).sgn.recov = 0 := (closes_balEnd (by rw [hxsgn, h])).recov
  obtain ⟨hrun, hshown, hrecs, hsafe, hrd⟩ := hbal
  rw [hxsgn] at hrun hshown hrecs hsafe
  unfold frameRest
  rw [← hx, recovStep_none hrecov]
  generalize balEnd x = z at hrun hshown hrecs hsafe hrd
  dsimp only
  split
  · exact ⟨hrun, hshown, hrecs, hsafe, fun a he hs hc => (rd_wrF_other (setSgn z _) _ _ _ hs).trans ((hrd a he hs hc).trans (hxrd a hc))⟩
  · exact ⟨hrun, hshown, hrecs, hsafe, fun a he hs hc => (hrd a he hs hc).trans (hxrd a hc)⟩

/-- A running region that has become idle completes. -/
def rgCheck (s : State) (r : RgnReq) : State := if rgIdle s r then rgDone s r else s

/-- The regions that have become idle complete. -/
def regionsDone (s : State) : State := (s.sgn.running.map Prod.snd).foldl rgCheck s

theorem closes_regionsDone (h : s.sgn.recov = 0) : Closes s (regionsDone s) := by
  refine Closes.foldl (fun t r ht => ?_) _ s h
  unfold rgCheck
  split
  · exact closes_rgDone ht r
  · exact .refl ht

end Sys2Proof.Proofs
end

section
/-!
PROOFS. FRAME_END (R266, R271–R273), and the settled obligation of the display.
-/

namespace Sys2Proof.Proofs

open Sys2Proof.Machine Sys2Proof.Laws

variable {s t u : State} {p c : Nat}

/-- The state at which the pixels of a frame that has been shifted out move on. -/
def frameCounted (s : State) : State := bump (setSgn s { s.sgn with scan := none }) (reg pSGN 0x0B4)

/-- The state once the one pixel of a frame has moved on and the records follow it. -/
def frameMoved (s : State) (p c : Nat) : State := recFrames (pxAdvance (frameCounted s) (p, c))

theorem frameEndOp_cases (s : State) : frameEndOp s = match s.sgn.scan with
    | none => s
    | some codes => if s.clk.fabric < s.sgn.scanAt + frameLen s * pclkCycles s then s else
        frameRest (regionsDone (recFrames (codes.foldl pxAdvance (frameCounted s)))) := by
  unfold frameEndOp
  refine congrArg (fun g : List (Nat × Nat) → State => match s.sgn.scan with | none => s | some codes => g codes) (funext fun codes => ?_)
  refine congrArg (fun z => if s.clk.fabric < s.sgn.scanAt + frameLen s * pclkCycles s then s else z) ?_
  unfold frameRest regionsDone frameCounted rgCheck
  with_reducible rfl

theorem frameEndOp_eq (hscan : s.sgn.scan = some [(p, c)]) (hover : frameOver s ≤ s.clk.fabric) :
    frameEndOp s = frameRest (regionsDone (frameMoved s p c)) := by
  have hnot : ¬ s.clk.fabric < s.sgn.scanAt + frameLen s * pclkCycles s := Nat.not_lt.2 hover
  rw [frameEndOp_cases, hscan]
  dsimp only
  rw [if_neg hnot, List.foldl_cons, List.foldl_nil, frameMoved]

theorem frameEndOp_early (hearly : s.clk.fabric < frameOver s) : frameEndOp s = s := by
  have hlt : s.clk.fabric < s.sgn.scanAt + frameLen s * pclkCycles s := hearly
  rw [frameEndOp_cases]
  split
  · rfl
  · rw [if_pos hlt]

/-- The counted frame leaves the pixels as they were. -/
theorem frameCounted_keeps (s : State) : (frameCounted s).sgn = { s.sgn with scan := none } ∧ (frameCounted s).dram = s.dram ∧
    ∀ a, a ≠ reg pSGN 0x0B4 → rd (frameCounted s) a = rd s a := by
  refine ⟨rfl, rfl, fun a ha => ?_⟩
  unfold frameCounted
  rw [rd_bump_other _ ha, rd_setSgn]

theorem rd_frameCounted (h : corMode s pSGN = false) : rd (frameCounted s) (reg pSGN 0x0B4) = rd s (reg pSGN 0x0B4) + 1 := by
  have hcor : corMode (setSgn s { s.sgn with scan := none }) (statPage (reg pSGN 0x0B4)) = false := by
    rw [show statPage (reg pSGN 0x0B4) = pSGN by decide]
    exact h
  rw [frameCounted, rd_bump_wraps hcor, rd_setSgn]

theorem pxF_frameCounted (s : State) (p lo n : Nat) : pxF (frameCounted s) p lo n = pxF s p lo n := by
  obtain ⟨-, hdram, hrd⟩ := frameCounted_keeps s
  exact pxF_congr hdram (pxAddr_congr (hrd _ (by decide)) (hrd _ (by decide)) p) lo n

theorem ledgerAfter_frameCounted (s : State) (p c : Nat) : ledgerAfter (frameCounted s) p c = ledgerAfter s p c := by
  unfold ledgerAfter pxLedger
  rw [pxF_frameCounted]

theorem ledgerNew_frameCounted (s : State) (p c : Nat) : ledgerNew (frameCounted s) p c = ledgerNew s p c := by
  unfold ledgerNew
  rw [ledgerAfter_frameCounted]

theorem lutLen_frameCounted (s : State) (p : Nat) : lutLen (frameCounted s) (pxF (frameCounted s) p 16 4) (transition (frameCounted s) p) =
    lutLen s (pxF s p 16 4) (transition s p) := by
  obtain ⟨-, hdram, hrd⟩ := frameCounted_keeps s
  unfold transition
  rw [pxF_frameCounted, pxF_frameCounted, pxF_frameCounted, lutLen_congr hdram (lutBase_congr (hrd _ (by decide)) (hrd _ (by decide)))]

/-- The step of one region's record and STAT.FRAME. -/
def recFollow (t : State) (e : Nat × RgnReq) : State :=
  let f := ((rectPx t e.2.x e.2.y e.2.w e.2.h).map fun p => if t.sgn.busy.contains p then pxF t p 8 6 else 0).foldl max 0
  let f := max f (rdF t (rgA e.1 0x1C) 8 6)
  let t := wrF t (rgA e.1 0x1C) 8 6 f
  match get? t.sgn.recs e.1 with
  | some u => setSgn t { t.sgn with recs := ins t.sgn.recs e.1 { u with frame := f } }
  | none => t

theorem recFrames_eq (s : State) : recFrames s = s.sgn.running.foldl recFollow s := rfl

/-- The records that follow change nothing of which requests run or wait. -/
theorem recFrames_keeps (s : State) : (recFrames s).sgn = { s.sgn with recs := (recFrames s).sgn.recs } := by
  rw [recFrames_eq]
  have hstep : ∀ t e, { (recFollow t e).sgn with recs := [] } = { t.sgn with recs := [] } := fun t e => by
    unfold recFollow
    dsimp only
    split <;> rfl
  have h := foldl_keeps (f := recFollow) (fun u => { u.sgn with recs := [] }) hstep s.sgn.running s
  generalize (s.sgn.running.foldl recFollow s).sgn = g at h ⊢
  cases g
  simpa using h

/-! ### The one pixel of a frame -/

theorem advanced_frameCounted (c : Nat) (hram : pxAddr s p + 4 ≤ Config.dramBytes) :
    Advanced (frameCounted s) p c (pxAdvance (frameCounted s) (p, c)) := by
  obtain ⟨-, -, hrd⟩ := frameCounted_keeps s
  exact advanced_pxAdvance (frameCounted s) c (by rwa [pxAddr_congr (hrd _ (by decide)) (hrd _ (by decide))])

/-- What the end of the frame leaves of what its pixel's drive left. -/
theorem closes_frameEnd (hscan : s.sgn.scan = some [(p, c)]) (hover : frameOver s ≤ s.clk.fabric) (hrecov : s.sgn.recov = 0)
    (hram : pxAddr s p + 4 ≤ Config.dramBytes) : Closes (pxAdvance (frameCounted s) (p, c)) (frameEndOp s) := by
  have hsgn := (advanced_frameCounted c hram).sgn
  have hfirst : (pxAdvance (frameCounted s) (p, c)).sgn.recov = 0 := by
    rw [hsgn, (frameCounted_keeps s).1]
    exact hrecov
  have hmoved : Closes (pxAdvance (frameCounted s) (p, c)) (frameMoved s p c) := closes_recFrames hfirst
  have hdone := hmoved.trans (closes_regionsDone hmoved.recov)
  rw [frameEndOp_eq hscan hover]
  exact hdone.trans (closes_frameRest hdone.recov)

/-- The one running region of a frame, whose pixels have all ended, completes. -/
theorem regionsDone_one {r : Nat} {q : RgnReq} (hrun : s.sgn.running = [(r, q)]) (hbusy : s.sgn.busy = []) (hwaits : s.sgn.waits = []) :
    regionsDone s = rgDone s q := by
  have hidle : rgIdle s q = true := by
    unfold rgIdle
    rw [hbusy, hwaits]
    simp
  unfold regionsDone
  rw [hrun]
  show rgCheck s q = rgDone s q
  rw [rgCheck, hidle]
  rfl

/-- The display's own registers are none of the regions' page. -/
theorem sgn_ne_sgnrg {o : Nat} (ho : o < 4096) : reg pSGN o ≠ reg pSGNRG 0x084 := by
  intro e
  have := congrArg pageOf e
  rw [pageOf_reg _ ho, pageOf_reg _ (by decide)] at this
  exact absurd this (by decide)

/-- What a region's completion shows. -/
structure RegionDone (r : Nat) (q : RgnReq) (t : State) : Prop where
  running : t.sgn.running = []
  reg_ : rdB t (reg pSGNRG 0x084) r = true
  event : rdB t (reg pSGN 0x0B0) 0 = true
  stat : rdF t (rgA r 0x1C) 0 3 = 0
  shown : look 0 t.sgn.shown r = q.id
  rec_ : get? t.sgn.recs r = none
  safe : q.safety = true → rd t (reg pSGN 0x0C0) = q.id ∧ t.sgn.safeId = q.id

theorem regionDone_rgDone {r : Nat} {q : RgnReq} (hr32 : r < 32) (hr : q.region = r) (hrecov : s.sgn.recov = 0)
    (hrun : s.sgn.running = [(r, q)]) : RegionDone r q (rgDone s q) := by
  have hstate : rgA r 0x1C ≠ reg pSGNRG 0x084 := by
    unfold rgA reg
    omega
  have hevent : ∀ a, a ≠ reg pSGN 0x0B0 → evtAddr pSGN ≠ some a := fun a ha e => ha (Option.some.inj (e.symm.trans evtAddr_sgn))
  have hdone : ∀ (t : State) (g : Sgn), (wr (setSgn t g) (reg pSGN 0x0C0) g.safeId).sgn = g := fun _ _ => rfl
  obtain ⟨x, hx⟩ : ∃ x, x = wr (setSgn s (doneSgn s q)) (reg pSGN 0x0C0) (doneSgn s q).safeId := ⟨_, rfl⟩
  have hxsgn : x.sgn = doneSgn s q := hx ▸ hdone _ _
  rw [rgDone_eq hrecov, ← hx, hr]
  have hsgn : (ev (wrB (rgState x r 0) (reg pSGNRG 0x084) r true) pSGN 0).sgn = doneSgn s q := by
    rw [ev_sgn]
    exact hxsgn
  refine ⟨?_, ?_, rdB_ev_same _ evtAddr_sgn (by decide), ?_, ?_, ?_, fun hsafe => ⟨?_, ?_⟩⟩
  · rw [hsgn]
    show del s.sgn.running q.region = []
    rw [hrun, hr, del, if_pos rfl]
    rfl
  · rw [rdB, rd_ev_other _ _ _ (hevent _ (Ne.symm (sgn_ne_sgnrg (by decide))))]
    exact rdB_wrB_same _ _ hr32
  · rw [rdF, rd_ev_other _ _ _ (hevent _ (rgA_ne_sgn _ _ (by decide))), rd_wrB_other _ _ _ hstate]
    exact rd_wrF_same x _ (by decide)
  · rw [hsgn]
    show look 0 (ins s.sgn.shown q.region q.id) r = q.id
    rw [hr, look_ins_same]
  · rw [hsgn]
    show get? (del s.sgn.recs q.region) r = none
    rw [hr, get?_del_same]
  · rw [rd_ev_other _ _ _ (hevent _ (by decide)), rd_wrB_other _ _ _ (sgn_ne_sgnrg (by decide)), rgState,
      rd_wrF_other _ _ _ _ (Ne.symm (rgA_ne_sgn _ _ (by decide))), hx, rd_wr_same]
    show (if q.safety then q.id else _) = q.id
    rw [hsafe, if_pos rfl]
  · rw [hsgn]
    show (if q.safety then q.id else _) = q.id
    rw [hsafe, if_pos rfl]

theorem RegionDone.stand {r : Nat} {q : RgnReq} (h : RegionDone r q t) (k : RegionsStand t u) (hc : Closes t u) : RegionDone r q u := by
  have hrd : ∀ a, (∀ o < 4096, a ≠ reg pSGN o) → rd u a = rd t a := fun a ha =>
    k.rd a (ha _ (by decide)) (ha _ (by decide)) (ha _ (by decide))
  refine ⟨k.running.trans h.running, ?_, hc.mono _ h.event, ?_, ?_, ?_, fun hs => ⟨?_, k.safeId.trans (h.safe hs).2⟩⟩
  · rw [rdB, hrd _ fun o ho => Ne.symm (sgn_ne_sgnrg ho)]
    exact h.reg_
  · rw [rdF, hrd _ fun o ho => rgA_ne_sgn _ _ ho]
    exact h.stat
  · rw [k.shown, h.shown]
  · rw [k.recs, h.rec_]
  · rw [k.rd _ (by decide) (by decide) (by decide)]
    exact (h.safe hs).1

theorem regionDone_frameRest {r : Nat} {q : RgnReq} (hr32 : r < 32) (hr : q.region = r) (hrun : s.sgn.running = [(r, q)])
    (hrecov : s.sgn.recov = 0) (hbusy : s.sgn.busy = []) (hwaits : s.sgn.waits = []) : RegionDone r q (frameRest (regionsDone s)) := by
  have hdone := (closes_rgDone hrecov q).recov
  rw [regionsDone_one hrun hbusy hwaits]
  exact (regionDone_rgDone hr32 hr hrecov hrun).stand (regionsStand_frameRest hdone) (closes_frameRest hdone)

/-- The display after a counted frame `f`, its pixel `x` and its records `y`. -/
theorem sgn_of_moves {f x y : State} (hf : f.sgn = { s.sgn with scan := none }) (hx : x.sgn = { f.sgn with busy := x.sgn.busy })
    (hy : y.sgn = { x.sgn with recs := y.sgn.recs }) : y.sgn.running = s.sgn.running ∧ y.sgn.recov = s.sgn.recov ∧
      y.sgn.waits = s.sgn.waits ∧ y.sgn.busy = x.sgn.busy := by
  rw [hf] at hx
  rw [hy, hx]
  exact ⟨rfl, rfl, rfl, rfl⟩

/-- What is running and waiting stands until the regions complete. -/
theorem frameMoved_keeps (hram : pxAddr s p + 4 ≤ Config.dramBytes) : (frameMoved s p c).sgn.running = s.sgn.running ∧
    (frameMoved s p c).sgn.recov = s.sgn.recov ∧ (frameMoved s p c).sgn.waits = s.sgn.waits ∧
    (frameMoved s p c).sgn.busy = (pxAdvance (frameCounted s) (p, c)).sgn.busy := by
  unfold frameMoved
  exact sgn_of_moves (frameCounted_keeps s).1 (advanced_frameCounted c hram).sgn (recFrames_keeps _)

/-- A region whose last pixel ends completes with the frame. -/
theorem regionDone_frameEnd {r : Nat} {q : RgnReq} (hscan : s.sgn.scan = some [(p, c)]) (hover : frameOver s ≤ s.clk.fabric)
    (hrecov : s.sgn.recov = 0) (hram : pxAddr s p + 4 ≤ Config.dramBytes) (hbusy : (pxAdvance (frameCounted s) (p, c)).sgn.busy = [])
    (hr32 : r < 32) (hr : q.region = r) (hrun : s.sgn.running = [(r, q)]) (hwaits : s.sgn.waits = []) :
    RegionDone r q (frameEndOp s) := by
  obtain ⟨hmrun, hmrecov, hmwaits, hmbusy⟩ := frameMoved_keeps (s := s) (p := p) (c := c) hram
  rw [frameEndOp_eq hscan hover]
  exact regionDone_frameRest hr32 hr (hmrun.trans hrun) (hmrecov.trans hrecov) (hmbusy.trans hbusy) (hmwaits.trans hwaits)

/-! ### FRAME_END -/

theorem frameEnd_ends {l : Int} (hscan : s.sgn.scan = some [(p, c)]) (hbusy : s.sgn.busy = [p]) (hrecov : s.sgn.recov = 0)
    (hram : pxAddr s p + 4 ≤ Config.dramBytes) (hcor : corMode s pSGN = false) (hover : frameOver s ≤ s.clk.fabric)
    (hl : l = ledgerAfter s p c) :
    ∃ t, exec .frameEnd s = .next t ∧ t.sgn.scan = none ∧ rd t (reg pSGN 0x0B4) = rd s (reg pSGN 0x0B4) + 1 ∧
      pxLedger t p = max (-127) (min 127 l) ∧ (l < -127 ∨ 127 < l → rdB t (reg pSGN 0x0B0) 9 = true) ∧
      pxF t p 16 4 = pxF s p 16 4 ∧ pxF t p 4 4 = pxF s p 4 4 ∧
      (pxF s p 8 6 + 1 < lutLen s (pxF s p 16 4) (transition s p) → t.sgn.busy = [p] ∧
        pxF t p 0 4 = pxF s p 0 4 ∧ pxF t p 8 6 = pxF s p 8 6 + 1 ∧ pxF t p 15 1 = 1) ∧
      (lutLen s (pxF s p 16 4) (transition s p) ≤ pxF s p 8 6 + 1 → t.sgn.busy = [] ∧
        pxF t p 0 4 = pxF s p 4 4 ∧ pxF t p 8 6 = 0 ∧ pxF t p 15 1 = 0 ∧
        ∀ r < 32, ∀ q : RgnReq, q.region = r → s.sgn.running = [(r, q)] → s.sgn.waits = [] →
          t.sgn.running = [] ∧ rdB t (reg pSGNRG 0x084) r = true ∧ rdB t (reg pSGN 0x0B0) 0 = true ∧
          rdF t (rgA r 0x1C) 0 3 = 0 ∧ look 0 t.sgn.shown r = q.id ∧ get? t.sgn.recs r = none ∧
          (q.safety = true → rd t (reg pSGN 0x0C0) = q.id ∧ t.sgn.safeId = q.id)) := by
  obtain ⟨t, hexec, hp⟩ := finish_panel s (frameEndOp s)
  refine ⟨t, hexec, ?_⟩
  have hcloses := closes_frameEnd hscan hover hrecov hram
  have hregion := fun r q => regionDone_frameEnd (r := r) (q := q) hscan hover hrecov hram
  obtain ⟨hsgn, hrd, hlimit, hgoes, hends⟩ := advanced_frameCounted (p := p) c hram
  rw [lutLen_frameCounted, pxF_frameCounted, pxF_frameCounted, pxF_frameCounted, pxF_frameCounted, ledgerNew_frameCounted] at hgoes
  rw [lutLen_frameCounted, pxF_frameCounted, pxF_frameCounted, pxF_frameCounted, ledgerNew_frameCounted] at hends
  rw [ledgerNew_frameCounted, ledgerAfter_frameCounted] at hlimit
  rw [(frameCounted_keeps s).1] at hgoes hends hsgn
  have hclamp : ledgerNew s p c = max (-127) (min 127 l) := by rw [hl, ledgerNew, clampI_eq (by decide)]
  generalize pxAdvance (frameCounted s) (p, c) = x at hcloses hregion hsgn hrd hlimit hgoes hends
  have hframes : rd x (reg pSGN 0x0B4) = rd s (reg pSGN 0x0B4) + 1 := (hrd _ (by decide)).trans (rd_frameCounted hcor)
  have hpx : ∀ {cur tgt frame busy band : Nat} {l : Int}, PxHolds x p cur tgt frame busy band l → PxHolds t p cur tgt frame busy band l :=
    fun h => (h.congr hcloses.dram (pxAddr_congr (hcloses.rd _ (by decide) (by decide) (by decide) (by decide) (by decide))
      (hcloses.rd _ (by decide) (by decide) (by decide) (by decide) (by decide)) p)).congr hp.dram (pxAddr_congr (hp.rd _) (hp.rd _) p)
  have hheld : pxLedger t p = ledgerNew s p c ∧ pxF t p 16 4 = pxF s p 16 4 ∧ pxF t p 4 4 = pxF s p 4 4 := by
    rcases Nat.lt_or_ge (pxF s p 8 6 + 1) (lutLen s (pxF s p 16 4) (transition s p)) with h | h
    · have hpx := hpx (hgoes h).2
      exact ⟨hpx.ledger, hpx.band, hpx.tgt⟩
    · have hpx := hpx (hends h).2
      exact ⟨hpx.ledger, hpx.band, hpx.tgt⟩
  obtain ⟨hledger, hband, htgt⟩ := hheld
  refine ⟨?_, ?_, hledger.trans hclamp, fun h => ?_, hband, htgt, fun h => ?_, fun h => ?_⟩
  · rw [hp.sgn, hcloses.scan, hsgn]
  · rw [hp.rd, hcloses.rd _ (by decide) (by decide) (by decide) (by decide) (by decide), hframes]
  · rw [hp.rdB]
    refine hcloses.mono _ (hlimit ?_)
    rw [hclamp, ← hl]
    omega
  · obtain ⟨hstill, hholds⟩ := hgoes h
    have hholds := hpx hholds
    exact ⟨by rw [hp.sgn, hcloses.busy, hstill, hbusy], hholds.cur, hholds.frame, hholds.busy⟩
  · obtain ⟨hgone, hholds⟩ := hends h
    have hholds := hpx hholds
    have hnone : x.sgn.busy = [] := by
      rw [hgone, hbusy]
      simp
    refine ⟨by rw [hp.sgn, hcloses.busy, hnone], hholds.cur, hholds.frame, hholds.busy, fun r hr32 q hr hrun hwaits => ?_⟩
    have hdone := hregion r q hnone hr32 hr hrun hwaits
    rw [hp.sgn, hp.rdB, hp.rdB, hp.rdF, hp.rd]
    exact ⟨hdone.running, hdone.reg_, hdone.event, hdone.stat, hdone.shown, hdone.rec_, hdone.safe⟩

theorem frameEnd_early (hearly : s.clk.fabric < frameOver s) : ∃ t, exec .frameEnd s = .next t ∧ t.sgn = s.sgn ∧ t.dram = s.dram := by
  obtain ⟨t, hexec, hp⟩ := finish_panel s (frameEndOp s)
  rw [frameEndOp_early hearly] at hp
  exact ⟨t, hexec, hp.sgn, hp.dram⟩

/-- Settles O52: the frame that goes out, the pixels and regions at its end, and the panel's supply, each by its own lemma. -/
theorem framesDriveThePanel : Obligations.FramesDriveThePanel := by
  unfold Obligations.FramesDriveThePanel
  exact fun s => ⟨fun hdue hruns hstop => ⟨frameStart_slips hdue hruns hstop, frameStart_powers hdue hruns hstop,
      frameStart_goes hdue hruns hstop⟩,
    fun _ _ _ hscan hbusy hrecov hram hcor hover hl => frameEnd_ends hscan hbusy hrecov hram hcor hover hl, frameEnd_early,
    fun _ hby hpwr hgood => ⟨epdPgoodRise_rises hpwr hgood, pgoodTimeout_passes hby hpwr hgood⟩, pgoodLost_interrupts,
    fun _ hoff => panelPowerOff_drops hoff, fun _ _ _ hw hx => temperatureRead_band hw hx, temperatureRead_fails⟩

end Sys2Proof.Proofs
end

section
/-!
PROOFS. The calendar, its shadows and the power latch (R278, R291–R298).
-/

namespace Sys2Proof.Proofs

open Sys2Proof.Machine Sys2Proof.Laws

variable {s t u : State}

theorem evtAddr_cal : evtAddr pCAL = some (reg pCAL 0x0A4) := by decide
theorem evtAddr_bkp : evtAddr pBKP = some (reg pBKP 0x084) := by decide

/-- A register that is not its page's events stands through an event. -/
theorem rd_ev_cal (s : State) {a : Nat} (b : Nat) (ha : a ≠ reg pCAL 0x0A4) : rd (ev s pCAL b) a = rd s a :=
  rd_ev_other s pCAL b fun e => ha (Option.some.inj (e.symm.trans evtAddr_cal))

theorem rd_ev_bkp (s : State) {a : Nat} (b : Nat) (ha : a ≠ reg pBKP 0x084) : rd (ev s pBKP b) a = rd s a :=
  rd_ev_other s pBKP b fun e => ha (Option.some.inj (e.symm.trans evtAddr_bkp))

theorem rdB_wrB_beside (s : State) (a : Nat) {i j : Nat} (x : Bool) (hi : i < 32) (h : j ≠ i) : rdB (wrB s a i x) a j = rdB s a j :=
  rdB_wrF_outside s a (b2n x) (by omega) (by omega)

/-! ### The backup domain powers on; its supply is low (R278) -/

theorem vbakLow_shows (s : State) : ∃ t, exec .vbakLow s = .next t ∧ rdB t (reg pBKP 0x080) 1 = true ∧ rdB t (reg pBKP 0x084) 2 = true := by
  obtain ⟨t, hexec, he⟩ := finish_ends s (vbakLowOp s)
  refine ⟨t, hexec, ?_, (he.rdB _ _).trans (rdB_ev_same _ evtAddr_bkp (by decide))⟩
  rw [he.rdB, vbakLowOp, rdB, rd_ev_bkp _ _ (by decide)]
  exact rdB_wrB_same s _ (by decide)

/-- A register whose entry is dropped holds its reset value. -/
theorem rd_filter (s : State) (q : Nat → Bool) (a : Nat) :
    rd { s with regs := s.regs.filter fun e => q e.1 } a = if q a then rd s a else resetVal a := by
  have hget : ∀ m : List (Nat × Word), get? (m.filter fun e => q e.1) a = if q a then get? m a else none := fun m => by
    induction m with
    | nil => simp [get?]
    | cons e m ih =>
      obtain ⟨k, v⟩ := e
      by_cases hk : k = a
      · subst hk
        cases hq : q k <;> simp [hq, get?, ih]
      · cases hq : q k <;> simp [hq, get?, ih, hk]
  show look _ _ _ = _
  unfold look
  rw [hget]
  split <;> rfl

theorem backupPowerOn_empties (s : State) : ∃ t, exec .backupPowerOn s = .next t ∧ (∀ j, slot t j = KeySlot.empty) ∧
    t.vault.calNext = [] ∧
      ∀ a, rd t a = if pageOf a = pWTCH ∨ pageOf a = pCAL ∨ pageOf a = pBKP then resetVal a else rd s a := by
  obtain ⟨t, hexec, he⟩ := finish_ends s (backupOnOp s)
  refine ⟨t, hexec, fun j => ?_, by rw [he.vault]; rfl, fun a => ?_⟩
  · rw [slot, he.vault]
    rfl
  · have hfilter := rd_filter s (fun b => !(pageOf b == pWTCH || pageOf b == pCAL || pageOf b == pBKP)) a
    have hop : rd (backupOnOp s) a = _ := hfilter
    rw [he.rd, hop]
    by_cases h : pageOf a = pWTCH ∨ pageOf a = pCAL ∨ pageOf a = pBKP
    · rw [if_pos h, if_neg]
      rcases h with h | h | h <;> simp [h]
    · rw [if_neg h, if_pos]
      simp only [not_or] at h
      simp [h]

/-! ### The calendar one second later (R293) -/

/-- The fields one second later, by the carries that the second brings. -/
theorem calAdvance_fields {v : Nat → Nat} {cs cm ch cd : Bool} (hcs : cs = decide (v 0 + 1 = 60 ∨ v 0 = 63))
    (hcm : cm = (cs && decide (v 1 + 1 = 60 ∨ v 1 = 63))) (hch : ch = (cm && decide (v 2 + 1 = 24 ∨ v 2 = 31)))
    (hcd : cd = (ch && decide (v 4 = monthLen (v 5) (v 6) ∨ v 4 = 31))) : calAdvance ((List.range 7).map v) =
      [if cs then 0 else v 0 + 1, if cm then 0 else if cs then v 1 + 1 else v 1, if ch then 0 else if cm then v 2 + 1 else v 2,
        if !ch then v 3 else if v 3 + 1 = 7 ∨ v 3 = 7 then 0 else v 3 + 1, if cd then 1 else if ch then v 4 + 1 else v 4,
        if !cd then v 5 else if v 5 = 12 ∨ v 5 = 0 ∨ 13 ≤ v 5 then 1 else v 5 + 1,
        if !cd ∨ v 5 ≠ 12 then v 6 else if v 6 = 4095 then 0 else v 6 + 1] := by
  have hfree : ∀ x y z : Nat, (x + 1 ≠ y ∧ x ≠ z) = (decide (x + 1 = y ∨ x = z) = false) := fun x y z => by
    rw [decide_eq_false_iff_not, not_or]
  have hday : (v 4 ≠ monthLen (v 5) (v 6) ∧ v 4 ≠ 31) = (decide (v 4 = monthLen (v 5) (v 6) ∨ v 4 = 31) = false) := by
    rw [decide_eq_false_iff_not, not_or]
  have hadv : calAdvance ((List.range 7).map v) = calAdvance [v 0, v 1, v 2, v 3, v 4, v 5, v 6] := rfl
  rw [hadv]
  unfold calAdvance
  simp only [nthD, List.drop_zero, List.drop_succ_cons, List.headD_cons]
  simp only [hfree, hday]
  generalize decide (v 0 + 1 = 60 ∨ v 0 = 63) = a at hcs
  generalize decide (v 1 + 1 = 60 ∨ v 1 = 63) = b at hcm
  generalize decide (v 2 + 1 = 24 ∨ v 2 = 31) = c at hch
  generalize decide (v 4 = monthLen (v 5) (v 6) ∨ v 4 = 31) = d at hcd
  subst hcs hcm hch hcd
  cases cs
  case false => simp
  cases b
  case false => simp
  cases c
  case false => simp
  cases d
  case false => simp
  by_cases h12 : v 5 = 12
  · simp [h12]
  · by_cases hmo : v 5 = 0 ∨ 13 ≤ v 5
    · have hlast : ¬ (v 5 ≠ 0 ∧ v 5 < 13) := by omega
      simp [h12, hmo, hlast]
    · have hnext : v 5 ≠ 0 ∧ v 5 < 13 := by omega
      simp [h12, hnext]

/-! ### A second boundary (R293–R298) -/

/-- What a metering demand interval's end leaves: the vault, the clock, and the registers but METER's. -/
structure Metered (s t : State) : Prop where
  vault : t.vault = s.vault
  clk : t.clk = s.clk
  rd : ∀ p o, o < 4096 → p ≠ pWGH → p ≠ pWGHEN → rd t (reg p o) = rd s (reg p o)

theorem Metered.refl (s : State) : Metered s s := ⟨rfl, rfl, fun _ _ _ _ _ => rfl⟩

theorem Metered.trans (h : Metered s t) (k : Metered t u) : Metered s u :=
  ⟨k.vault.trans h.vault, k.clk.trans h.clk, fun p o ho h1 h2 => (k.rd p o ho h1 h2).trans (h.rd p o ho h1 h2)⟩

theorem metered_ivClose (s : State) (fab code : Nat) (cal : Word) (irr : Bool) : Metered s (ivClose s fab code cal irr) := by
  have hwr : ∀ (x : State) (w : Wgh), Metered x (wrB { x with wgh := w } (reg pWGHEN 0x084) 1 irr) := fun x w =>
    ⟨rfl, rfl, fun p o ho _ h2 => rd_wrB_other _ _ _ (reg_ne_of_page h2 ho (by decide))⟩
  unfold ivClose evIf
  dsimp only
  split
  · refine (hwr s _).trans ⟨ev_vault _ _ _, ev_clk _ _ _, fun p o ho h1 _ => rd_ev_other _ _ _ fun e => h1 ?_⟩
    rw [← pageOf_evtAddr e, pageOf_reg _ ho]
  · exact hwr s _

theorem metered_ivSettle (s : State) : Metered s (ivSettle s) := by
  unfold ivSettle
  split
  · exact metered_ivClose s _ _ _ _
  · exact .refl s

theorem metered_demandIrregular (s : State) : Metered s (demandIrregular s) := by
  have hset : ∀ (x : State) (w : Wgh), Metered x { x with wgh := w } := fun _ _ => ⟨rfl, rfl, fun _ _ _ _ _ => rfl⟩
  unfold demandIrregular ivFinish
  dsimp only
  split
  · split
    · exact ((metered_ivSettle s).trans (hset _ _)).trans (metered_ivSettle _)
    · exact (metered_ivSettle s).trans (hset _ _)
  · exact .refl s

/-- What the evaluation of an alarm leaves: the calendar, and events and the PON latch only set. -/
structure Alarmed (s t : State) : Prop where
  vault : t.vault = { s.vault with wokeAt := t.vault.wokeAt }
  clk : t.clk = s.clk
  rd : ∀ a, a ≠ reg pCAL 0x0A4 → a ≠ reg pBKP 0x080 → a ≠ reg pBKP 0x084 → rd t a = rd s a
  events : ∀ b, rdB s (reg pCAL 0x0A4) b = true → rdB t (reg pCAL 0x0A4) b = true
  latch : rdB s (reg pBKP 0x080) 2 = true → rdB t (reg pBKP 0x080) 2 = true

theorem Alarmed.refl (s : State) : Alarmed s s := ⟨rfl, rfl, fun _ _ _ _ => rfl, fun _ h => h, fun h => h⟩

theorem Alarmed.trans (h : Alarmed s t) (k : Alarmed t u) : Alarmed s u :=
  ⟨by rw [k.vault, h.vault], k.clk.trans h.clk, fun a h1 h2 h3 => (k.rd a h1 h2 h3).trans (h.rd a h1 h2 h3),
    fun b hb => k.events b (h.events b hb), fun hb => k.latch (h.latch hb)⟩

theorem alarmed_calEvent (s : State) (b : Nat) : Alarmed s (ev s pCAL b) :=
  ⟨by rw [ev_vault], ev_clk _ _ _, fun _ ha _ _ => rd_ev_cal s b ha, fun _ h => rdB_ev_mono s pCAL b h,
    fun h => by rw [rdB, rd_ev_cal s b (by decide)]; exact h⟩

theorem alarmed_bkpEvent (s : State) (b : Nat) : Alarmed s (ev s pBKP b) :=
  ⟨by rw [ev_vault], ev_clk _ _ _, fun _ _ _ ha => rd_ev_bkp s b ha,
    fun _ h => by rw [rdB, rd_ev_bkp s b (by decide)]; exact h, fun h => by rw [rdB, rd_ev_bkp s b (by decide)]; exact h⟩

theorem rdB_ponWake (s : State) : rdB (ponWake s) (reg pBKP 0x080) 2 = true := rdB_wrB_same { s with vault := { s.vault with wokeAt := some (tickNow s) } } _ (by decide)

theorem rd_ponWake (s : State) {a : Nat} (ha : a ≠ reg pBKP 0x080) : rd (ponWake s) a = rd s a :=
  rd_wrB_other { s with vault := { s.vault with wokeAt := some (tickNow s) } } _ _ ha

theorem alarmed_ponWake (s : State) : Alarmed s (ponWake s) :=
  ⟨rfl, rfl, fun _ _ ha _ => rd_ponWake s ha, fun b h => by rw [rdB, rd_ponWake s (by decide)]; exact h, fun _ => rdB_ponWake s⟩

/-- An alarm that fires shows it, and wakes with PON_EN. -/
theorem alarmFire_fires (s : State) {n : Nat} (hn : n < 2) (skipped : Bool) : Alarmed s (alarmFire s n skipped) ∧
    rdB (alarmFire s n skipped) (reg pCAL 0x0A4) n = true ∧
      (rdB s (reg pCAL (0x0B8 + 12 * n)) 10 = true → rdB (alarmFire s n skipped) (reg pBKP 0x080) 2 = true) := by
  have hfirst : rdB (ev s pCAL n) (reg pCAL 0x0A4) n = true := rdB_ev_same s evtAddr_cal (by omega)
  obtain ⟨x, hx⟩ : ∃ x, x = evIf skipped (ev s pCAL n) pCAL (2 + n) := ⟨_, rfl⟩
  have hsx : Alarmed (ev s pCAL n) x := by
    rw [hx, evIf]
    split
    · exact alarmed_calEvent _ _
    · exact .refl _
  have hax : Alarmed s x := (alarmed_calEvent s n).trans hsx
  have hcfg : rdB x (reg pCAL (0x0B8 + 12 * n)) 10 = rdB s (reg pCAL (0x0B8 + 12 * n)) 10 := by
    have hne : reg pCAL (0x0B8 + 12 * n) ≠ reg pCAL 0x0A4 := fun e => by
      have := reg_right_inj.1 e
      omega
    have hbkp : ∀ o < 4096, reg pCAL (0x0B8 + 12 * n) ≠ reg pBKP o := fun o ho => reg_ne_of_page (by decide) (by omega) ho
    exact congrArg (bit · 10) (hax.rd _ hne (hbkp _ (by decide)) (hbkp _ (by decide)))
  unfold alarmFire
  dsimp only
  rw [← hx, hcfg]
  split
  case isTrue h =>
    have hwake := (alarmed_ponWake x).trans (alarmed_bkpEvent _ 1)
    exact ⟨hax.trans hwake, hwake.events n (hsx.events n hfirst), fun _ => (alarmed_bkpEvent _ 1).latch (rdB_ponWake x)⟩
  case isFalse h => exact ⟨hax, hsx.events n hfirst, fun hc => absurd hc h⟩

theorem alarmEval_evaluates (s : State) {n : Nat} (hn : n < 2) (adv new : List Nat) (set : Bool) :
    Alarmed s (alarmEval s n adv new set) ∧ (alarmMatch s n new = true → rdB (alarmEval s n adv new set) (reg pCAL 0x0A4) n = true ∧
      (rdB s (reg pCAL (0x0B8 + 12 * n)) 10 = true → rdB (alarmEval s n adv new set) (reg pBKP 0x080) 2 = true)) := by
  unfold alarmEval
  dsimp only
  split
  · obtain ⟨hall, hfire⟩ := alarmFire_fires s hn true
    exact ⟨hall, fun _ => hfire⟩
  · split
    case isTrue h =>
      obtain ⟨hall, hfire⟩ := alarmFire_fires s hn false
      exact ⟨hall, fun _ => hfire⟩
    case isFalse h => exact ⟨.refl s, fun hc => absurd hc h⟩

/-- A calendar field after a second boundary: staged, or one second on. -/
def calNew (s : State) : List Nat :=
  (List.range 7).map fun f => match get? s.vault.calNext f with | some w => w.toNat | none => nthD (calAdvance (calVals s)) f 0

/-- The fields and the clock of the calendar after a second boundary. -/
def secondFields (s : State) : State :=
  let t := (List.range 7).foldl (fun t f => wr t (calReg f) (w32 (nthD (calNew s) f 0))) s
  { t with vault := { t.vault with
    calNext := t.vault.calAfter, calAfter := [], tickAt := t.clk.fabric, tickBase := 0, trimFrom := t.vault.trimFrom + 32768 } }

/-- The calendar's status after a second boundary. -/
def secondShown (s : State) : State :=
  let t := if !s.vault.calNext.isEmpty then ev (wrB (secondFields s) (reg pCAL 0x0A0) 0 true) pCAL 5 else secondFields s
  wrB t (reg pCAL 0x0A0) 1 (!t.vault.calNext.isEmpty)

/-- Both alarms evaluated at a second boundary. -/
def secondAlarms (s : State) : State :=
  alarmEval (alarmEval (secondShown s) 0 (calAdvance (calVals s)) (calNew s) (!s.vault.calNext.isEmpty)) 1 (calAdvance (calVals s))
    (calNew s) (!s.vault.calNext.isEmpty)

/-- The wake timer counts a second. -/
def wakeCount (s : State) : State :=
  if rd s (reg pBKP 0x08C) = 0 then s
  else { wr s (reg pBKP 0x08C) (rd s (reg pBKP 0x08C) - 1) with
    vault := { s.vault with wakeDue := s.vault.wakeDue || decide (rd s (reg pBKP 0x08C) = 1) } }

theorem calSecond_eq (s : State) : calSecond s = wakeCount (secondAlarms s) := rfl

/-- What a second boundary leaves of the calendar before the alarms. -/
structure Boundary (s t : State) : Prop where
  vault : t.vault = { s.vault with
    calNext := s.vault.calAfter, calAfter := [], tickAt := s.clk.fabric, tickBase := 0, trimFrom := s.vault.trimFrom + 32768 }
  clk : t.clk = s.clk
  fields : ∀ f < 7, rd t (calReg f) = w32 (nthD (calNew s) f 0)
  rd : ∀ a, (∀ f < 7, a ≠ calReg f) → a ≠ reg pCAL 0x0A0 → a ≠ reg pCAL 0x0A4 → rd t a = rd s a

theorem calReg_inj {f g : Nat} (h : calReg f = calReg g) : f = g := by
  have := reg_right_inj.1 h
  omega

theorem boundary_secondFields (s : State) : Boundary s (secondFields s) := by
  have hkeeps : ∀ g : State → Vault × Clock, (∀ s a v, g (wr s a v) = g s) →
      g ((List.range 7).foldl (fun t f => wr t (calReg f) (w32 (nthD (calNew s) f 0))) s) = g s := fun g hg =>
    foldl_keeps (f := fun t f => wr t (calReg f) (w32 (nthD (calNew s) f 0))) g (fun _ _ => hg _ _ _) _ s
  have hboth := hkeeps (fun u => (u.vault, u.clk)) fun _ _ _ => rfl
  have hfields : ∀ f < 7, rd ((List.range 7).foldl (fun t f => wr t (calReg f) (w32 (nthD (calNew s) f 0))) s) (calReg f) =
      w32 (nthD (calNew s) f 0) := fun f hf =>
    rd_foldl_wr_mem (List.range 7) (List.mem_range.2 hf) (fun g _ e => by rw [calReg_inj e]) s
  have hother : ∀ a, (∀ f < 7, a ≠ calReg f) →
      rd ((List.range 7).foldl (fun t f => wr t (calReg f) (w32 (nthD (calNew s) f 0))) s) a = rd s a := fun a ha =>
    rd_foldl_wr_other _ (fun f hf => Ne.symm (ha f (List.mem_range.1 hf))) s
  unfold secondFields
  generalize (List.range 7).foldl (fun t f => wr t (calReg f) (w32 (nthD (calNew s) f 0))) s = x at hboth hfields hother
  obtain ⟨hvault, hclk⟩ := Prod.ext_iff.1 hboth
  dsimp only at hvault hclk ⊢
  exact ⟨by rw [hvault, hclk], hclk, hfields, fun a ha _ _ => hother a ha⟩

theorem calReg_ne {f o : Nat} (hf : f < 7) (ho : 0x09C ≤ o) : calReg f ≠ reg pCAL o := fun e => by
  have := reg_right_inj.1 e
  omega

/-- Registers beside the fields change freely. -/
theorem Boundary.step {x y : State} (h : Boundary s x) (hvault : y.vault = x.vault) (hclk : y.clk = x.clk)
    (hrd : ∀ a, a ≠ reg pCAL 0x0A0 → a ≠ reg pCAL 0x0A4 → Machine.rd y a = Machine.rd x a) : Boundary s y :=
  ⟨hvault.trans h.vault, hclk.trans h.clk,
    fun f hf => (hrd _ (calReg_ne hf (by decide)) (calReg_ne hf (by decide))).trans (h.fields f hf),
    fun a h1 h2 h3 => (hrd a h2 h3).trans (h.rd a h1 h2 h3)⟩

theorem boundary_secondShown (s : State) : Boundary s (secondShown s) ∧ (s.vault.calNext ≠ [] →
    rdB (secondShown s) (reg pCAL 0x0A0) 0 = true ∧ rdB (secondShown s) (reg pCAL 0x0A4) 5 = true) := by
  have hfields := boundary_secondFields s
  unfold secondShown
  generalize secondFields s = x at hfields
  dsimp only
  split
  case isTrue h =>
    have hy : Boundary s (ev (wrB x (reg pCAL 0x0A0) 0 true) pCAL 5) := hfields.step (ev_vault _ _ _) (ev_clk _ _ _) fun a h1 h2 => by
      rw [rd_ev_cal _ _ h2, rd_wrB_other _ _ _ h1]
    have hset : rdB (ev (wrB x (reg pCAL 0x0A0) 0 true) pCAL 5) (reg pCAL 0x0A0) 0 = true := by
      rw [rdB, rd_ev_cal _ _ (by decide)]
      exact rdB_wrB_same x _ (by decide)
    have hevent : rdB (ev (wrB x (reg pCAL 0x0A0) 0 true) pCAL 5) (reg pCAL 0x0A4) 5 = true :=
      rdB_ev_same _ evtAddr_cal (by decide)
    generalize ev (wrB x (reg pCAL 0x0A0) 0 true) pCAL 5 = y at hy hset hevent
    refine ⟨hy.step rfl rfl fun a h1 _ => rd_wrB_other y _ _ h1, fun _ => ⟨?_, ?_⟩⟩
    · rw [rdB_wrB_beside y _ _ (by decide) (by decide)]
      exact hset
    · rw [rdB, rd_wrB_other y _ _ (by decide)]
      exact hevent
  case isFalse h =>
    refine ⟨hfields.step rfl rfl fun a h1 _ => rd_wrB_other x _ _ h1, fun hne => absurd ?_ h⟩
    simpa using hne

/-- The registers that neither a boundary's fields nor its status are. -/
theorem Boundary.rdAlarm (h : Boundary s t) {n k : Nat} (hn : n < 2) (hk : k < 12) :
    Machine.rd t (reg pCAL (0x0B0 + 12 * n + k)) = Machine.rd s (reg pCAL (0x0B0 + 12 * n + k)) := by
  have hne : ∀ o, o < 0x0B0 → reg pCAL (0x0B0 + 12 * n + k) ≠ reg pCAL o := fun o ho e => by
    have := reg_right_inj.1 e
    omega
  exact h.rd _ (fun f hf => hne _ (by omega)) (hne _ (by decide)) (hne _ (by decide))

/-- The match of an alarm depends on its three registers. -/
theorem alarmMatch_congr {n : Nat} (v : List Nat) (h : ∀ k, k < 12 → rd t (reg pCAL (0x0B0 + 12 * n + k)) = rd s (reg pCAL (0x0B0 + 12 * n + k))) :
    alarmMatch t n v = alarmMatch s n v := by
  have h4 : reg pCAL (0x0B4 + 12 * n) = reg pCAL (0x0B0 + 12 * n + 4) := congrArg (reg pCAL) (by omega)
  have h8 : reg pCAL (0x0B8 + 12 * n) = reg pCAL (0x0B0 + 12 * n + 8) := congrArg (reg pCAL) (by omega)
  have h0 := h 0 (by decide)
  rw [Nat.add_zero] at h0
  unfold alarmMatch
  rw [h4, h8, h0, h 4 (by decide), h 8 (by decide)]

theorem wakeCount_counts (s : State) : (wakeCount s).clk = s.clk ∧
    (wakeCount s).vault = { s.vault with wakeDue := s.vault.wakeDue || decide (rd s (reg pBKP 0x08C) = 1) } ∧
    (∀ a, a ≠ reg pBKP 0x08C → rd (wakeCount s) a = rd s a) ∧
    rd (wakeCount s) (reg pBKP 0x08C) = if rd s (reg pBKP 0x08C) = 0 then 0 else rd s (reg pBKP 0x08C) - 1 := by
  unfold wakeCount
  split
  case isTrue h =>
    refine ⟨rfl, ?_, fun _ _ => rfl, h⟩
    rw [h, decide_eq_false (by decide), Bool.or_false]
  case isFalse h => exact ⟨rfl, rfl, fun a ha => rd_wr_other s _ ha, rd_wr_same s _ _⟩

/-- PPS_OUT rises at a second boundary. -/
def ppsRisen (s : State) : State := { s with pins := { s.pins with ppsOut := s.guard.pgood } }

/-- The state after the calendar's second, before the demand intervals. -/
def secondDone (s : State) : State := ppsRisen (wrB (wakeCount (secondAlarms s)) (reg pCAL 0x0A0) 2 true)

theorem secondOp_metered (s : State) : Metered (secondDone s) (secondOp s) := by
  unfold secondOp secondDone
  rw [calSecond_eq]
  generalize wrB (wakeCount (secondAlarms s)) (reg pCAL 0x0A0) 2 true = x
  have hrisen : ppsRisen x = { x with pins := { x.pins with ppsOut := x.guard.pgood } } := rfl
  dsimp only
  rw [← hrisen]
  split
  · exact metered_demandIrregular _
  · exact .refl _

theorem rd_ppsRisen (s : State) (a : Nat) : rd (ppsRisen s) a = rd s a := rfl

/-- What the last status leaves. -/
theorem secondDone_keeps (s : State) : (secondDone s).clk = (wakeCount (secondAlarms s)).clk ∧
    (secondDone s).vault = (wakeCount (secondAlarms s)).vault ∧
    (∀ a, a ≠ reg pCAL 0x0A0 → rd (secondDone s) a = rd (wakeCount (secondAlarms s)) a) ∧
    ∀ b, b ≠ 2 → rdB (secondDone s) (reg pCAL 0x0A0) b = rdB (wakeCount (secondAlarms s)) (reg pCAL 0x0A0) b := by
  unfold secondDone
  generalize wakeCount (secondAlarms s) = x
  refine ⟨rfl, rfl, fun a ha => ?_, fun b hb => ?_⟩
  · rw [rd_ppsRisen, rd_wrB_other _ _ _ ha]
  · rw [rdB, rd_ppsRisen]
    exact rdB_wrB_beside x _ true (by decide) hb

/-- What a second boundary leaves. -/
structure Second (s t : State) : Prop where
  fields : ∀ f < 7, rd t (calReg f) = w32 (nthD (calNew s) f 0)
  staged : s.vault.calNext ≠ [] → rdB t (reg pCAL 0x0A0) 0 = true ∧ rdB t (reg pCAL 0x0A4) 5 = true
  next : t.vault.calNext = s.vault.calAfter
  after : t.vault.calAfter = []
  tick : t.vault.tickBase = 0 ∧ t.vault.tickAt = s.clk.fabric
  alarm : ∀ n < 2, alarmMatch s n (calNew s) = true → rdB t (reg pCAL (0x0B8 + 12 * n)) 8 = true ∧ rdB t (reg pCAL 0x0A4) n = true ∧
    (rdB s (reg pCAL (0x0B8 + 12 * n)) 10 = true → rdB t (reg pBKP 0x080) 2 = true)
  wake : rd t (reg pBKP 0x08C) = if rd s (reg pBKP 0x08C) = 0 then 0 else rd s (reg pBKP 0x08C) - 1
  due : rd s (reg pBKP 0x08C) = 1 → t.vault.wakeDue = true

/-- The two alarms' evaluations, of a calendar that has advanced. -/
theorem secondAlarms_evaluate (s : State) : Alarmed (secondShown s) (secondAlarms s) ∧ ∀ n < 2, alarmMatch s n (calNew s) = true →
    rdB (secondAlarms s) (reg pCAL 0x0A4) n = true ∧
      (rdB s (reg pCAL (0x0B8 + 12 * n)) 10 = true → rdB (secondAlarms s) (reg pBKP 0x080) 2 = true) := by
  obtain ⟨hshown, -⟩ := boundary_secondShown s
  unfold secondAlarms
  generalize secondShown s = b at hshown
  obtain ⟨h0, hfire0⟩ := alarmEval_evaluates b (n := 0) (by decide) (calAdvance (calVals s)) (calNew s) (!s.vault.calNext.isEmpty)
  obtain ⟨h1, hfire1⟩ := alarmEval_evaluates (alarmEval b 0 (calAdvance (calVals s)) (calNew s) (!s.vault.calNext.isEmpty)) (n := 1)
    (by decide) (calAdvance (calVals s)) (calNew s) (!s.vault.calNext.isEmpty)
  have hregs : ∀ n < 2, ∀ k < 12, rd (alarmEval b 0 (calAdvance (calVals s)) (calNew s) (!s.vault.calNext.isEmpty))
      (reg pCAL (0x0B0 + 12 * n + k)) = rd b (reg pCAL (0x0B0 + 12 * n + k)) := fun n hn k hk => by
    have hbkp : ∀ o < 4096, reg pCAL (0x0B0 + 12 * n + k) ≠ reg pBKP o := fun o ho => reg_ne_of_page (by decide) (by omega) ho
    refine h0.rd _ (fun e => ?_) (hbkp _ (by decide)) (hbkp _ (by decide))
    have := reg_right_inj.1 e
    omega
  have hcfg : ∀ n < 2, rdB b (reg pCAL (0x0B8 + 12 * n)) 10 = rdB s (reg pCAL (0x0B8 + 12 * n)) 10 := fun n hn => by
    rw [show reg pCAL (0x0B8 + 12 * n) = reg pCAL (0x0B0 + 12 * n + 8) from congrArg (reg pCAL) (by omega)]
    exact congrArg (bit · 10) (hshown.rdAlarm hn (by decide))
  refine ⟨h0.trans h1, fun n hn hmatch => ?_⟩
  have hb : alarmMatch b n (calNew s) = true := by
    rw [alarmMatch_congr _ fun k hk => hshown.rdAlarm hn hk, hmatch]
  match n, hn with
  | 0, hn =>
    obtain ⟨hevent, hpon⟩ := hfire0 hb
    exact ⟨h1.events 0 hevent, fun hc => h1.latch (hpon ((hcfg 0 hn).trans hc))⟩
  | 1, hn =>
    have hmid : rdB (alarmEval b 0 (calAdvance (calVals s)) (calNew s) (!s.vault.calNext.isEmpty)) (reg pCAL (0x0B8 + 12 * 1)) 10 =
        rdB s (reg pCAL (0x0B8 + 12 * 1)) 10 := (congrArg (bit · 10) (hregs 1 hn 8 (by decide))).trans (hcfg 1 hn)
    obtain ⟨hevent, hpon⟩ := hfire1 ((alarmMatch_congr _ fun k hk => hregs 1 hn k hk).trans hb)
    exact ⟨hevent, fun hc => hpon (hmid.trans hc)⟩

theorem second_secondOp (s : State) : Second s (secondOp s) := by
  have hmeter := secondOp_metered s
  obtain ⟨hdclk, hdvault, hdrd, hdbit⟩ := secondDone_keeps s
  obtain ⟨hwclk, hwvault, hwrd, hwake⟩ := wakeCount_counts (secondAlarms s)
  obtain ⟨halarm, hfires⟩ := secondAlarms_evaluate s
  obtain ⟨hshown, hset⟩ := boundary_secondShown s
  generalize wakeCount (secondAlarms s) = w at hdclk hdvault hdrd hdbit hwclk hwvault hwrd hwake
  generalize secondDone s = d at hmeter hdclk hdvault hdrd hdbit
  generalize secondAlarms s = a at hwclk hwvault hwrd hwake halarm hfires
  generalize secondShown s = b at halarm hshown hset
  have hvault : (secondOp s).vault = { a.vault with wakeDue := a.vault.wakeDue || decide (rd a (reg pBKP 0x08C) = 1) } :=
    hmeter.vault.trans (hdvault.trans hwvault)
  have hcal : ∀ o < 4096, o ≠ 0x0A0 → rd (secondOp s) (reg pCAL o) = rd a (reg pCAL o) := fun o ho hne => by
    have hpage : reg pCAL o ≠ reg pBKP 0x08C := reg_ne_of_page (by decide) ho (by decide)
    rw [hmeter.rd _ _ ho (by decide) (by decide), hdrd _ fun e => hne (reg_right_inj.1 e), hwrd _ hpage]
  have hstat : ∀ j, j ≠ 2 → rdB (secondOp s) (reg pCAL 0x0A0) j = rdB a (reg pCAL 0x0A0) j := fun j hj => by
    rw [rdB, hmeter.rd _ _ (by decide) (by decide) (by decide), ← rdB, hdbit j hj, rdB, hwrd _ (by decide)]
    rfl
  have hbkp : ∀ o < 4096, rd (secondOp s) (reg pBKP o) = rd w (reg pBKP o) := fun o ho => by
    have hpage : reg pBKP o ≠ reg pCAL 0x0A0 := reg_ne_of_page (by decide) ho (by decide)
    rw [hmeter.rd _ _ ho (by decide) (by decide), hdrd _ hpage]
  have hcount : rd a (reg pBKP 0x08C) = rd s (reg pBKP 0x08C) := by
    rw [halarm.rd _ (by decide) (by decide) (by decide)]
    exact hshown.rd _ (by decide) (by decide) (by decide)
  refine ⟨fun f hf => ?_, fun hne => ?_, ?_, ?_, ⟨?_, ?_⟩, fun n hn hmatch => ?_, ?_, fun hone => ?_⟩
  · have hoff : 0x080 + 4 * f < 4096 := by omega
    have hreg : ∀ o < 4096, calReg f ≠ reg pBKP o := fun o ho => reg_ne_of_page (by decide) hoff ho
    rw [calReg, hcal _ hoff (by omega), ← calReg, halarm.rd _ (calReg_ne hf (by decide)) (hreg _ (by decide)) (hreg _ (by decide)),
      hshown.fields f hf]
  · obtain ⟨hbit, hevent⟩ := hset hne
    refine ⟨?_, ?_⟩
    · rw [hstat 0 (by decide), rdB, halarm.rd _ (by decide) (by decide) (by decide)]
      exact hbit
    · rw [rdB, hcal _ (by decide) (by decide)]
      exact halarm.events 5 hevent
  · rw [hvault, halarm.vault, hshown.vault]
  · rw [hvault, halarm.vault, hshown.vault]
  · rw [hvault, halarm.vault, hshown.vault]
  · rw [hvault, halarm.vault, hshown.vault]
  · obtain ⟨hevent, hpon⟩ := hfires n hn hmatch
    have hcfg : reg pCAL (0x0B8 + 12 * n) = reg pCAL (0x0B0 + 12 * n + 8) := congrArg (reg pCAL) (by omega)
    have hbit : rdB s (reg pCAL (0x0B8 + 12 * n)) 8 = true := by
      unfold alarmMatch at hmatch
      exact (Bool.and_eq_true_iff.1 hmatch).1
    refine ⟨?_, ?_, fun hc => ?_⟩
    · have hne : ∀ o < 4096, reg pCAL (0x0B8 + 12 * n) ≠ reg pBKP o := fun o ho => reg_ne_of_page (by decide) (by omega) ho
      have hown : reg pCAL (0x0B8 + 12 * n) ≠ reg pCAL 0x0A4 := fun e => by
        have := reg_right_inj.1 e
        omega
      rw [rdB, hcal _ (by omega) (by omega), halarm.rd _ hown (hne _ (by decide)) (hne _ (by decide)), hcfg,
        hshown.rdAlarm hn (by decide), ← hcfg]
      exact hbit
    · rw [rdB, hcal _ (by decide) (by decide)]
      exact hevent
    · rw [rdB, hbkp _ (by decide), hwrd _ (by decide)]
      exact hpon hc
  · rw [hbkp _ (by decide), hwake, hcount]
  · rw [hvault]
    show (a.vault.wakeDue || decide (rd a (reg pBKP 0x08C) = 1)) = true
    rw [hcount, hone, Bool.or_eq_true]
    exact .inr rfl

/-- SECOND_BOUNDARY (R293–R298). -/
theorem secondBoundary_ticks {v : Nat → Nat} {cs cm ch cd : Bool}
    (hv : ∀ f < 7, v f = (rd s (calReg f)).toNat ∧ v f < 2 ^ nthD [6, 6, 5, 3, 5, 4, 12] f 0)
    (hcs : cs = decide (v 0 + 1 = 60 ∨ v 0 = 63)) (hcm : cm = (cs && decide (v 1 + 1 = 60 ∨ v 1 = 63)))
    (hch : ch = (cm && decide (v 2 + 1 = 24 ∨ v 2 = 31))) (hcd : cd = (ch && decide (v 4 = monthLen (v 5) (v 6) ∨ v 4 = 31))) :
    ∃ t, exec .secondBoundary s = .next t ∧
      (∀ f < 7, get? s.vault.calNext f = none → (rd t (calReg f)).toNat =
        match f with
        | 0 => if cs then 0 else v 0 + 1
        | 1 => if cm then 0 else if cs then v 1 + 1 else v 1
        | 2 => if ch then 0 else if cm then v 2 + 1 else v 2
        | 3 => if !ch then v 3 else if v 3 + 1 = 7 ∨ v 3 = 7 then 0 else v 3 + 1
        | 4 => if cd then 1 else if ch then v 4 + 1 else v 4
        | 5 => if !cd then v 5 else if v 5 = 12 ∨ v 5 = 0 ∨ 13 ≤ v 5 then 1 else v 5 + 1
        | _ => if !cd ∨ v 5 ≠ 12 then v 6 else if v 6 = 4095 then 0 else v 6 + 1) ∧
      (∀ f < 7, ∀ w, get? s.vault.calNext f = some w → rd t (calReg f) = w) ∧
      (s.vault.calNext ≠ [] → rdB t (reg pCAL 0x0A0) 0 = true ∧ rdB t (reg pCAL 0x0A4) 5 = true) ∧
      t.vault.calNext = s.vault.calAfter ∧ t.vault.calAfter = [] ∧ calTick t = 0 ∧
      (∀ n < 2, alarmMatch s n (calVals t) = true → rdB t (reg pCAL (0x0B8 + 12 * n)) 8 = true ∧
        rdB t (reg pCAL 0x0A4) n = true ∧ (rdB s (reg pCAL (0x0B8 + 12 * n)) 10 = true → rdB t (reg pBKP 0x080) 2 = true)) ∧
      rd t (reg pBKP 0x08C) = (if rd s (reg pBKP 0x08C) = 0 then 0 else rd s (reg pBKP 0x08C) - 1) ∧
      (rd s (reg pBKP 0x08C) = 1 → t.vault.wakeDue = true) := by
  obtain ⟨t, hexec, he, hclk⟩ : ∃ t, exec .secondBoundary s = .next t ∧ Ends (secondOp s) t ∧ t.clk = s.clk :=
    ⟨_, rfl, ⟨fun _ => rfl, rfl, rfl, rfl, rfl, rfl⟩, rfl⟩
  obtain ⟨hfields, hstaged, hnext, hafter, ⟨hbase, hat⟩, halarm, hwake, hdue⟩ := second_secondOp s
  have hvals : calVals s = (List.range 7).map v := List.map_congr_left fun f hf => (hv f (List.mem_range.1 hf)).1.symm
  have hlt : ∀ f < 7, v f < 4096 := fun f hf => by
    have h := (hv f hf).2
    have hpow : ∀ f < 7, 2 ^ nthD [6, 6, 5, 3, 5, 4, 12] f 0 ≤ 4096 := by decide
    exact Nat.lt_of_lt_of_le h (hpow f hf)
  have hadv := calAdvance_fields hcs hcm hch hcd
  have hnew : ∀ f < 7, nthD (calNew s) f 0 = match get? s.vault.calNext f with
      | some w => w.toNat
      | none => nthD (calAdvance (calVals s)) f 0 := fun f hf => by
    unfold calNew
    match f, hf with
    | 0, _ | 1, _ | 2, _ | 3, _ | 4, _ | 5, _ | 6, _ => rfl
  have hfit : ∀ f < 7, nthD (calAdvance (calVals s)) f 0 < 2 ^ 32 := fun f hf => by
    have h0 := hlt 0 (by decide)
    have h1 := hlt 1 (by decide)
    have h2 := hlt 2 (by decide)
    have h3 := hlt 3 (by decide)
    have h4 := hlt 4 (by decide)
    have h5 := hlt 5 (by decide)
    have h6 := hlt 6 (by decide)
    rw [hvals, hadv]
    match f, hf with
    | 0, _ | 1, _ | 2, _ | 3, _ | 4, _ | 5, _ | 6, _ =>
      simp only [nthD, List.drop_zero, List.drop_succ_cons, List.headD_cons]
      split_ifs <;> omega
  have hback : ∀ f < 7, (rd t (calReg f)).toNat = nthD (calNew s) f 0 := fun f hf => by
    rw [he.rd, hfields f hf]
    refine Nat.mod_eq_of_lt ?_
    rw [hnew f hf]
    split
    · exact BitVec.isLt _
    · exact hfit f hf
  refine ⟨t, hexec, fun f hf hnone => ?_, fun f hf w hsome => ?_, fun hne => ?_, by rw [he.vault, hnext], by rw [he.vault, hafter], ?_,
    fun n hn hmatch => ?_, by rw [he.rd, hwake], fun hone => by rw [he.vault, hdue hone]⟩
  · rw [hback f hf, hnew f hf, hnone, hvals, hadv]
    match f, hf with
    | 0, _ | 1, _ | 2, _ | 3, _ | 4, _ | 5, _ | 6, _ => rfl
  · refine BitVec.eq_of_toNat_eq ?_
    rw [hback f hf, hnew f hf, hsome]
  · rw [he.rdB, he.rdB]
    exact hstaged hne
  · unfold calTick
    rw [he.vault, hclk, hbase, hat, Nat.sub_self, Nat.zero_mul, Nat.zero_div]
    rfl
  · have hcal : calVals t = calNew s := by
      have hlist : calVals t = (List.range 7).map fun f => nthD (calNew s) f 0 :=
        List.map_congr_left fun f hf => hback f (List.mem_range.1 hf)
      rw [hlist]
      rfl
    rw [hcal] at hmatch
    obtain ⟨hon, hevent, hpon⟩ := halarm n hn hmatch
    rw [he.rdB, he.rdB, he.rdB]
    exact ⟨hon, hevent, hpon⟩

end Sys2Proof.Proofs
end

section
/-!
PROOFS. The calendar's commands, its shadows, TRIM and the power latch (R291, R292, R294, R295, R298).
-/

namespace Sys2Proof.Proofs

open Sys2Proof.Machine Sys2Proof.Laws

variable {s t u : State}

/-! ### TRIM (R292) -/

/-- The sign of CAL.TRIM by its byte. -/
theorem sgn_byte {p : Nat} (hp : p < 256) : sgn 8 p = if p < 128 then (p : Int) else p - 256 := by
  have hmod : p % 2 ^ 8 = p := Nat.mod_eq_of_lt hp
  unfold Machine.sgn
  rw [hmod]
  dsimp only
  split_ifs <;> omega

theorem trimCorrection_corrects {p : Nat} (hp : p = rdF s (reg pCAL 0x0A8) 0 8) : ∃ t, exec .trimCorrection s = .next t ∧
    (p = 0 → t.vault = s.vault) ∧
    (p ≠ 0 → s.vault.trimFrom + calTick s < (1048576 / (if p < 128 then p else 256 - p) : Nat) → t.vault = s.vault) ∧
    (p ≠ 0 → (1048576 / (if p < 128 then p else 256 - p) : Nat) ≤ s.vault.trimFrom + calTick s →
      t.vault.tickBase = s.vault.tickBase + (if p < 128 then -1 else 1) ∧ t.vault.trimFrom = -(calTick s : Int)) := by
  obtain ⟨t, hexec, he⟩ := finish_ends s (trimTick s)
  have hlt : p < 256 := hp ▸ Nat.mod_lt _ (by decide)
  have htrim : calTrim s = if p < 128 then (p : Int) else p - 256 := by rw [calTrim, ← hp, sgn_byte hlt]
  have habs : (calTrim s).natAbs = if p < 128 then p else 256 - p := by
    rw [htrim]
    split_ifs <;> omega
  have hdue : trimDue s = decide (p ≠ 0 ∧ ((1048576 / (if p < 128 then p else 256 - p) : Nat) : Int) ≤ s.vault.trimFrom + calTick s) := by
    have hzero : calTrim s ≠ 0 ↔ p ≠ 0 := by
      rw [htrim]
      split_ifs <;> omega
    unfold trimDue
    rw [habs, decide_eq_decide, hzero]
  have hstill : trimDue s = false → t.vault = s.vault := fun h => by
    rw [he.vault, trimTick, h]
    rfl
  refine ⟨t, hexec, fun h => hstill ?_, fun _ h => hstill ?_, fun hne h => ?_⟩
  · rw [hdue, decide_eq_false_iff_not]
    exact fun hc => hc.1 h
  · rw [hdue, decide_eq_false_iff_not]
    exact fun hc => absurd hc.2 (Int.not_le.2 h)
  · have hyes : trimDue s = true := by
      rw [hdue, decide_eq_true_iff]
      exact ⟨hne, h⟩
    have hneg : calTrim s < 0 ↔ ¬ p < 128 := by
      rw [htrim]
      split_ifs <;> omega
    rw [he.vault, trimTick, hyes]
    refine ⟨?_, rfl⟩
    show s.vault.tickBase + (if calTrim s < 0 then 1 else -1) = _
    by_cases hsmall : p < 128
    · rw [if_neg fun hc => hneg.1 hc hsmall, if_pos hsmall]
    · rw [if_pos (hneg.2 hsmall), if_neg hsmall]

/-! ### CALENDAR_WRITE (R294) -/

theorem writeEffect_cal (s : State) (i : Init) {f : Nat} (hf : f < 7) (v : Word) : writeEffect s i (calReg f) v = calStage s f v := by
  have hoff : 0x080 + 4 * f < 4096 := by omega
  have hrow : (rowOf (calReg f)).isNone = false := by
    match f, hf with
    | 0, _ | 1, _ | 2, _ | 3, _ | 4, _ | 5, _ | 6, _ => decide
  have hsel : (0x080 + 4 * f - 0x080) / 4 = f := by omega
  have hlow : ¬ 0x080 + 4 * f < 0x080 := by omega
  have hfield : 0x080 + 4 * f ≤ 0x098 := by omega
  unfold writeEffect writeBlock
  dsimp only
  rw [hrow, calReg, pageOf_reg _ hoff, offOf_reg _ hoff]
  simp [isLoopbank, hlow, hfield, pCAL, pMOD, pPROT, pINTC, pFLTM, pTOLL, pLAC, pSCAN, pSCANDBG, pPGMX, pFORCE, pWGHEN, pWGHPQ, pFACT,
    pFACTQ, pPTS, pDAYB, pETH, pOPX, pMB, pSF, pFIO, pSGN, pSGNRG, pLOCK]

theorem calTick_congr (hv : t.vault = s.vault) (hc : t.clk = s.clk) : calTick t = calTick s := by
  unfold calTick
  rw [hv, hc]

theorem calendarWrite_stages {i : Init} (f : Fin 7) {v m : Word} (h : clear s i (calReg f.val) v = true)
    (hm : m = v &&& w32 (2 ^ nthD [6, 6, 5, 3, 5, 4, 12] f.val 0 - 1)) : ∃ t, exec (.calendarWrite i f v) s = .next t ∧
      (∀ g < 7, rd t (calReg g) = rd s (calReg g)) ∧ rdB t (reg pCAL 0x0A0) 1 = true ∧
      (calTick s ≠ 32767 → get? t.vault.calNext f.val = some m ∧ t.vault.calAfter = s.vault.calAfter) ∧
      (calTick s = 32767 → get? t.vault.calAfter f.val = some m ∧ t.vault.calNext = s.vault.calNext) := by
  refine row_clear h (fun e => ?_) fun x t hl hd => ?_
  · exact reg_ne_of_page (by decide) (by have := f.isLt; omega) (by decide) e
  · rw [writeEffect_cal _ _ f.isLt] at hd
    have htick : calTick x = calTick s := calTick_congr hl.vault hl.clk
    obtain ⟨y, hy⟩ : ∃ y, y = if calTick x = 32767 then { x with vault := { x.vault with calAfter := ins x.vault.calAfter f.val m } }
      else { x with vault := { x.vault with calNext := ins x.vault.calNext f.val m } } := ⟨_, rfl⟩
    have hop : calStage x f.val v = wrB y (reg pCAL 0x0A0) 1 true := by rw [hy, hm, calStage]
    have hyrd : ∀ a, rd y a = rd x a := fun a => by
      rw [hy]
      split <;> rfl
    have hvault : t.vault = y.vault := by
      rw [hd.vault, hop]
      rfl
    refine ⟨fun g hg => ?_, ?_, fun hnot => ?_, fun hlast => ?_⟩
    · rw [hd.rd, hop, rd_wrB_other _ _ _ (calReg_ne hg (by decide)), hyrd]
      exact rd_light hl _ (by omega) (by decide) (by decide)
    · rw [rdB_done hd, hop]
      exact rdB_wrB_same y _ (by decide)
    · rw [hvault, hy, if_neg (by rw [htick]; exact hnot)]
      exact ⟨get?_ins_same _ _ _, by rw [hl.vault]⟩
    · rw [hvault, hy, if_pos (by rw [htick]; exact hlast)]
      exact ⟨get?_ins_same _ _ _, by rw [hl.vault]⟩

/-! ### Shadows (R295) -/

theorem tornRead_releases {w : Who} {sh : Shadow} (hsh : get? s.vault.shadows (whoIdx w) = some sh) : ∃ t, exec (.tornRead w) s = .next t ∧
    (s.clk.fabric < sh.since + Config.fabricHz → t.vault = s.vault) ∧
    (sh.since + Config.fabricHz ≤ s.clk.fabric →
      get? t.vault.shadows (whoIdx w) = none ∧ rdB t (reg pCAL 0x0A4) 4 = true) := by
  obtain ⟨t, hexec, he⟩ := finish_ends s (tornRelease s w)
  refine ⟨t, hexec, fun h => ?_, fun h => ?_⟩
  · rw [he.vault, tornRelease, hsh]
    dsimp only
    rw [if_neg (Nat.not_le.2 h)]
  · rw [he.vault, he.rdB, tornRelease, hsh]
    dsimp only
    rw [if_pos h, ev_vault]
    exact ⟨get?_del_same _ _, rdB_ev_same _ evtAddr_cal (by decide)⟩

/-- A calendar field as it is read. -/
theorem readVal_cal (s : State) (w : Who) {f : Nat} (hf : f < 7) (hr : retiredPg s pCAL = false) :
    readVal s w (calReg f) = calRead s w f := by
  have hoff : 0x080 + 4 * f < 4096 := by omega
  have hlatch : latchHigh (calReg f) = false := by
    match f, hf with
    | 0, _ | 1, _ | 2, _ | 3, _ | 4, _ | 5, _ | 6, _ => decide
  have hrow : (rowOf (calReg f)).isNone = false := by
    match f, hf with
    | 0, _ | 1, _ | 2, _ | 3, _ | 4, _ | 5, _ | 6, _ => decide
  have hpage : pageOf (calReg f) = pCAL := pageOf_reg _ hoff
  have hfused : fusedOff s pCAL = false := by simp [fusedOff, featureD, featureM, featureE, pCAL]
  have hsel : (0x080 + 4 * f - 0x080) / 4 = f := by omega
  have hlow : ¬ 0x080 + 4 * f < 0x080 := by omega
  have hfield : 0x080 + 4 * f ≤ 0x09C := by omega
  have hview : blockView s w pCAL (0x080 + 4 * f) = calRead s w f := by
    unfold blockView
    dsimp only
    simp [hfield, pCAL, pMOD, pPROT, pINTC, pFLTM, pLAC, pSCAN, pSCANDBG, pPGMX, pWGH, pLOOP, pFACT, pFACTQ, pPTS, pTEN, pDAYB,
      pETH, pOPX, pMB, pFIO, pSGN, pSGNRG, pLOCK, pWTCH]
  unfold readVal view
  dsimp only
  rw [hlatch, hrow, hpage, hr, hfused, calReg, offOf_reg _ hoff, if_neg hlow, hview]
  rfl

theorem readEffect_cal (s : State) (w : Who) {f : Nat} (hf : f < 7) : readEffect s w (calReg f) false =
    if f = 0 then calFreeze s w else if f = 6 then calRelease s w else s := by
  have hpage : pageOf (calReg f) = pCAL := pageOf_reg _ (by omega)
  have hfused : fusedOff s pCAL = false := by simp [fusedOff, featureD, featureM, featureE, pCAL]
  have hdo : readDo s w (calReg f) false = if f = 0 then calFreeze s w else if f = 6 then calRelease s w else s := by
    have hclear : ∀ f < 7, clearsOnRead s (calReg f) = false := fun f hf => by
      unfold clearsOnRead
      match f, hf with
      | 0, _ | 1, _ | 2, _ | 3, _ | 4, _ | 5, _ | 6, _ => rfl
    unfold readDo
    rw [hclear f hf]
    match f, hf with
    | 0, _ | 1, _ | 2, _ | 3, _ | 4, _ | 5, _ | 6, _ => rfl
  have hrow : (rowOf (calReg f)).isNone = false := by
    match f, hf with
    | 0, _ | 1, _ | 2, _ | 3, _ | 4, _ | 5, _ | 6, _ => decide
  unfold readEffect
  rw [hpage, hfused, hrow, hdo]
  rfl

theorem calLive_light {x : State} (hl : Light s x) {f : Nat} (hf : f < 8) : calLive x f = calLive s f := by
  unfold calLive
  rw [calTick_congr hl.vault hl.clk, rd_light hl _ (by omega) (by decide) (by decide)]

theorem calSecRead_freezes {i : Init} (hr : retiredPg s pCAL = false) (h : clearRead s i (calReg 0) = true) :
    ∃ t, exec (.calSecRead i) s = .next t ∧ t.replies = s.replies ++ [⟨i.who, calReg 0, oSERVED, [rd s (calReg 0)]⟩] ∧
      get? t.vault.shadows (whoIdx i.who) =
        some ⟨(List.range 7).map (fun f => rd s (calReg f)) ++ [w32 (calTick s)], s.clk.fabric⟩ := by
  refine read_clear h fun x t hl hd hreplies => ?_
  have hxr : retiredPg x pCAL = false := by
    rw [retiredPg, rdB, rd_light hl _ (by decide) (by decide) (by decide)]
    exact hr
  have hval : readVal x i.who (calReg 0) = rd s (calReg 0) := by
    rw [readVal_cal x _ (by decide) hxr]
    have hlive : calRead x i.who 0 = calLive x 0 := by
      unfold calRead
      split <;> rfl
    rw [hlive, calLive_light hl (by decide)]
    rfl
  rw [readEffect_cal x _ (by decide), if_pos rfl] at hreplies hd
  rw [hreplies, hval, hd.vault]
  refine ⟨congrArg (· ++ _) hl.replies, ?_⟩
  have hvals : (List.range 8).map (calLive x) = (List.range 7).map (fun f => rd s (calReg f)) ++ [w32 (calTick s)] := by
    have hsame : (List.range 8).map (calLive x) = (List.range 8).map (calLive s) :=
      List.map_congr_left fun f hf => calLive_light hl (List.mem_range.1 hf)
    rw [hsame]
    rfl
  show get? (ins x.vault.shadows (whoIdx i.who) ⟨(List.range 8).map (calLive x), x.clk.fabric⟩) (whoIdx i.who) = _
  rw [get?_ins_same, hvals, hl.clk]

theorem calYearRead_releases {i : Init} (hr : retiredPg s pCAL = false) (h : clearRead s i (calReg 6) = true) :
    ∃ t, exec (.calYearRead i) s = .next t ∧ get? t.vault.shadows (whoIdx i.who) = none ∧
      t.replies = s.replies ++ [⟨i.who, calReg 6, oSERVED,
        [match get? s.vault.shadows (whoIdx i.who) with | some sh => nthD sh.vals 6 0 | none => rd s (calReg 6)]⟩] := by
  refine read_clear h fun x t hl hd hreplies => ?_
  have hxr : retiredPg x pCAL = false := by
    rw [retiredPg, rdB, rd_light hl _ (by decide) (by decide) (by decide)]
    exact hr
  have hval : readVal x i.who (calReg 6) =
      match get? s.vault.shadows (whoIdx i.who) with | some sh => nthD sh.vals 6 0 | none => rd s (calReg 6) := by
    rw [readVal_cal x _ (by decide) hxr, calRead, hl.vault]
    cases get? s.vault.shadows (whoIdx i.who) with
    | none => exact calLive_light hl (f := 6) (by decide)
    | some sh => rfl
  rw [readEffect_cal x _ (by decide), if_neg (by decide), if_pos rfl] at hreplies hd
  rw [hreplies, hval, hd.vault]
  exact ⟨get?_del_same _ _, congrArg (· ++ _) hl.replies⟩

/-! ### The wake timer and BKP.CMD (R278, R291, R298) -/

theorem wakeTimer_wakes (h : s.vault.wakeDue = true) : ∃ t, exec .wakeTimer s = .next t ∧ rdB t (reg pBKP 0x080) 2 = true ∧
    rdB t (reg pBKP 0x084) 0 = true ∧ t.vault.wakeDue = false := by
  obtain ⟨t, hexec, he⟩ := finish_ends s (wakeTimerOp s)
  have hop : wakeTimerOp s = ev (ponWake { s with vault := { s.vault with wakeDue := false } }) pBKP 0 := by
    unfold wakeTimerOp
    rw [h]
    rfl
  refine ⟨t, hexec, ?_, ?_, ?_⟩
  · rw [he.rdB, hop]
    exact (alarmed_bkpEvent _ 0).latch (rdB_ponWake _)
  · rw [he.rdB, hop]
    exact rdB_ev_same _ evtAddr_bkp (by decide)
  · rw [he.vault, hop, ev_vault]
    rfl

/-- A command of the backup domain ends in what it makes of a state that differs in the accounts alone. -/
theorem bkpCmd_clear {i : Init} {v : Word} {cmd : Nat} (hv : fld v 0 3 = cmd) (h : clear s i (reg pBKP 0x088) v = true)
    {p : State → Prop} (hp : ∀ x t, Light s x → Done s (bkpCmd x cmd) t → p t) :
    ∃ t, finishClock s (submitWrite s i (reg pBKP 0x088) v) = .next t ∧ p t := by
  subst hv
  exact row_clear h (by decide) hp

theorem rdB_bkp_light {x : State} (hl : Light s x) {o : Nat} (b : Nat) (ho : o < 4096) :
    rdB x (reg pBKP o) b = rdB s (reg pBKP o) b := congrArg (bit · b) (rd_light hl o ho (by decide) (by decide))

theorem ponSet_sets {i : Init} (h : clear s i (reg pBKP 0x088) 1 = true) : ∃ t, exec (.ponSet i) s = .next t ∧
    rdB t (reg pBKP 0x080) 2 = true := by
  refine bkpCmd_clear (cmd := 1) rfl h fun x t _ hd => ?_
  rw [rdB_done hd]
  exact rdB_wrB_same x _ (by decide)

theorem ponRelease_releases {i : Init} (h : clear s i (reg pBKP 0x088) 2 = true) : ∃ t, exec (.ponRelease i) s = .next t ∧
    (s.vault.wokeAt ≠ some (tickNow s) → rdB t (reg pBKP 0x080) 2 = false) ∧
    (s.vault.wokeAt = some (tickNow s) → rdB t (reg pBKP 0x080) 2 = rdB s (reg pBKP 0x080) 2) := by
  refine bkpCmd_clear (cmd := 2) rfl h fun x t hl hd => ?_
  have hnow : (x.vault.wokeAt = some (tickNow x)) = (s.vault.wokeAt = some (tickNow s)) := by
    rw [tickNow, tickNow, calTick_congr hl.vault hl.clk, hl.vault]
  have hop : bkpCmd x 2 = if x.vault.wokeAt = some (tickNow x) then x else wrB x (reg pBKP 0x080) 2 false := rfl
  rw [rdB_done hd, hop]
  refine ⟨fun hno => ?_, fun hyes => ?_⟩
  · rw [if_neg (by rw [hnow]; exact hno)]
    exact rdB_wrB_same x _ (by decide)
  · rw [if_pos (by rw [hnow]; exact hyes)]
    exact rdB_bkp_light hl 2 (by decide)

theorem clearLost_clears {i : Init} (h : clear s i (reg pBKP 0x088) 3 = true) : ∃ t, exec (.clearLost i) s = .next t ∧
    rdB t (reg pBKP 0x080) 0 = false := by
  refine bkpCmd_clear (cmd := 3) rfl h fun x t _ hd => ?_
  rw [rdB_done hd]
  exact rdB_wrB_same x _ (by decide)

theorem clearTamper_clears {i : Init} (h : clear s i (reg pBKP 0x088) 4 = true) : ∃ t, exec (.clearTamper i) s = .next t ∧
    rd t (reg pBKP 0x090) = 0 ∧ rd64 t (reg pBKP 0x094) = 0 ∧ rd t (reg pBKP 0x09C) = 0 ∧ rdB t (reg pBKP 0x080) 3 = false ∧
      ∀ j < 64, rd t (reg pWTCH (0x100 + 4 * j)) = rd s (reg pWTCH (0x100 + 4 * j)) := by
  refine bkpCmd_clear (cmd := 4) rfl h fun x t hl hd => ?_
  have hop : bkpCmd x 4 = wrB (wr (wr64 (wr x (reg pBKP 0x090) 0) (reg pBKP 0x094) 0) (reg pBKP 0x09C) 0) (reg pBKP 0x080) 3 false := rfl
  have hdone : ∀ a, rd t a = rd (bkpCmd x 4) a := hd.rd
  rw [hop] at hdone
  have h64 : rd64 (wr64 (wr x (reg pBKP 0x090) 0) (reg pBKP 0x094) 0) (reg pBKP 0x094) = 0 := by rw [rd64_wr64_same]; rfl
  have hwr64 : ∀ (y : State) (a : Nat), a ≠ reg pBKP 0x094 → a ≠ reg pBKP 0x098 → rd (wr64 y (reg pBKP 0x094) 0) a = rd y a :=
    fun y a hlo hhi => (rd_wr_other (wr y (reg pBKP 0x094) (lo32 0)) (hi32 0) hhi).trans (rd_wr_other y (lo32 0) hlo)
  refine ⟨?_, ?_, ?_, ?_, fun j hj => ?_⟩
  · rw [hdone, rd_wrB_other _ _ _ (by decide), rd_wr_other _ _ (by decide), hwr64 _ _ (by decide) (by decide), rd_wr_same]
  · rw [← h64]
    exact rd64_congr (by rw [hdone, rd_wrB_other _ _ _ (by decide), rd_wr_other _ _ (by decide)])
      (by rw [hdone, rd_wrB_other _ _ _ (by decide), rd_wr_other _ _ (by decide)])
  · rw [hdone, rd_wrB_other _ _ _ (by decide), rd_wr_same]
  · rw [rdB, hdone]
    exact rdB_wrB_same _ _ (by decide)
  · have hne : ∀ o < 4096, reg pWTCH (0x100 + 4 * j) ≠ reg pBKP o := fun o ho => reg_ne_of_page (by decide) (by omega) ho
    rw [hdone, rd_wrB_other _ _ _ (hne _ (by decide)), rd_wr_other _ _ (hne _ (by decide)),
      hwr64 _ _ (hne _ (by decide)) (hne _ (by decide)), rd_wr_other _ _ (hne _ (by decide))]
    exact rd_light hl _ (by omega) (by decide) (by decide)

end Sys2Proof.Proofs
end

section
/-!
PROOFS. The frame of work that ends: what the blocks' stops, the closing of sessions, the outputs' fall to their safe values and the
release of forces leave of the vault, the fault manager, the backup domain and the fault registers.
-/

namespace Sys2Proof.Proofs

open Sys2Proof.Machine Sys2Proof.Laws

variable {s t u : State}

/-- The pages of the backup domain and of the fault manager. -/
def keptPage (p : Nat) : Bool := p == pBKP || p == pWTCH || p == pCAL || p == pFLTM

/-- The registers that no block's work ends by writing: those pages, LOCK.STAT and the fault registers of the page headers. -/
def still (a : Nat) : Bool :=
  (keptPage (pageOf a) || a == reg pLOCK 0x084 || faultHead a && !isLoopbank (pageOf a) && pageOf a != pTENQ) && a % 64 != 32

/-- One state is another after work has ended: the clock, the guard, the fault manager and those registers stand, of the vault only
what waits has changed, and no session has opened. -/
structure Stands (s t : State) : Prop where
  clk : t.clk = s.clk
  guard : t.guard = s.guard
  fltm : t.fltm = s.fltm
  vault : t.vault = { s.vault with waiting := t.vault.waiting }
  closed : ∀ m, (session s m).open_ = false → (session t m).open_ = false
  rd : ∀ a, still a = true → rd t a = rd s a

theorem Stands.refl (s : State) : Stands s s := ⟨rfl, rfl, rfl, rfl, fun _ h => h, fun _ _ => rfl⟩

theorem Stands.trans (h : Stands s t) (k : Stands t u) : Stands s u :=
  ⟨k.clk.trans h.clk, k.guard.trans h.guard, k.fltm.trans h.fltm, by rw [k.vault, h.vault], fun m hm => k.closed m (h.closed m hm),
    fun a ha => (k.rd a ha).trans (h.rd a ha)⟩

theorem Stands.foldl {α : Type} {f : State → α → State} (l : List α) (h : ∀ s, ∀ x ∈ l, Stands s (f s x)) (s : State) :
    Stands s (l.foldl f s) := by
  induction l generalizing s with
  | nil => exact .refl s
  | cons x xs ih =>
    exact (h s x List.mem_cons_self).trans (ih (fun t y hy => h t y (List.mem_cons_of_mem _ hy)) (f s x))

/-! ### Registers that are none of those -/

theorem still_reg {p o : Nat} (ho : o < 4096) (hlo : 0x038 ≤ o) (hp : keptPage p = false) (hl : p ≠ pLOCK) : still (reg p o) = false := by
  have hlock : (reg p o == reg pLOCK 0x084) = false := beq_eq_false_iff_ne.2 (reg_ne_of_page hl ho (by decide))
  unfold still
  rw [pageOf_reg _ ho, hp, hlock, faultHead_reg ho hlo]
  rfl

theorem still_evtAddr {p a : Nat} (h : evtAddr p = some a) (hp : keptPage p = false) : still a = false := by
  have hlock : a ≠ reg pLOCK 0x084 := fun e => by
    have hpage : pLOCK = p := by rw [← pageOf_evtAddr h, e, pageOf_reg _ (by decide)]
    rw [← hpage, evtAddr_lock, e] at h
    exact absurd (Option.some.inj h) (by decide)
  unfold still
  rw [pageOf_evtAddr h, hp, faultHead_evtAddr h, beq_eq_false_iff_ne.2 hlock]
  rfl

theorem answerReg_of_still {a : Nat} (h : still a = true) : answerReg a = false := by
  cases hr : answerReg a with
  | false => rfl
  | true =>
    unfold answerReg at hr
    obtain ⟨hpage, hhead⟩ := Bool.and_eq_true_iff.1 hr
    have hkept : keptPage (pageOf a) = false := by
      unfold answerPage at hpage
      simp only [Bool.or_eq_true, beq_iff_eq] at hpage
      rcases hpage with (((hp | hp) | hp) | hp) | hp <;> rw [hp] <;> rfl
    have hlock : a ≠ reg pLOCK 0x084 := fun e => by
      rw [e] at hpage
      exact absurd hpage (by decide)
    unfold still at h
    rw [hkept, beq_eq_false_iff_ne.2 hlock, (Bool.not_eq_true' _).mp hhead] at h
    cases h

theorem solverReg_of_still {a : Nat} (h : still a = true) : solverReg a = false := by
  cases hr : solverReg a with
  | false => rfl
  | true =>
    unfold still at h
    obtain ⟨hstill, hmod⟩ := Bool.and_eq_true_iff.1 h
    unfold solverReg at hr
    rcases Bool.or_eq_true_iff.1 hr with hown | hring
    · obtain ⟨hpage, hhead⟩ := Bool.and_eq_true_iff.1 hown
      have hkept : keptPage (pageOf a) = false := by
        simp only [Bool.or_eq_true, beq_iff_eq] at hpage
        rcases hpage with (hp | hp) | hp <;> rw [hp] <;> rfl
      have hlock : a ≠ reg pLOCK 0x084 := fun e => by
        rw [e] at hpage
        exact absurd hpage (by decide)
      rw [hkept, beq_eq_false_iff_ne.2 hlock, (Bool.not_eq_true' _).mp hhead] at hstill
      cases hstill
    · rw [bne, hring] at hmod
      cases hmod

/-! ### The frame's steps -/

theorem Stands.wr (h : Stands s t) {a : Nat} (v : Word) (ha : still a = false) : Stands s (wr t a v) :=
  h.trans ⟨rfl, rfl, rfl, rfl, fun _ hm => hm, fun b hb => rd_wr_other t v fun e => by rw [e, ha] at hb; cases hb⟩

theorem Stands.wrF (h : Stands s t) {a : Nat} (lo n v : Nat) (ha : still a = false) : Stands s (wrF t a lo n v) := h.wr _ ha
theorem Stands.wrB (h : Stands s t) {a : Nat} (i : Nat) (b : Bool) (ha : still a = false) : Stands s (wrB t a i b) := h.wr _ ha
theorem Stands.bump (h : Stands s t) {a : Nat} (ha : still a = false) : Stands s (bump t a) := h.wr _ ha

theorem Stands.ev (h : Stands s t) {p : Nat} (b : Nat) (hp : keptPage p = false) : Stands s (ev t p b) := by
  unfold Machine.ev
  split
  · rename_i a ha
    exact h.trans ⟨rfl, rfl, rfl, rfl, fun _ hm => hm, fun c hc => rd_setBits_other t _ fun e => by
      rw [e, still_evtAddr ha hp] at hc
      cases hc⟩
  · exact h

theorem Stands.evIf (h : Stands s t) (c : Bool) {p : Nat} (b : Nat) (hp : keptPage p = false) : Stands s (evIf c t p b) := by
  unfold Machine.evIf
  split
  · exact h.ev b hp
  · exact h

theorem stands_of_apart (h : Apart s t) (hc : ∀ m, (session s m).open_ = false → (session t m).open_ = false) : Stands s t where
  clk := h.clk
  guard := h.guard
  fltm := h.fltm
  vault := by rw [h.vault]
  closed := hc
  rd := fun a ha => h.rd a (answerReg_of_still ha)

theorem stands_of_light (h : Light s t) : Stands s t :=
  stands_of_apart (apart_of_light h) fun m hm => by rw [session_congr h.opx]; exact hm

theorem stands_of_solving (h : Solving s t) : Stands s t where
  clk := h.clk
  guard := h.guard
  fltm := h.fltm
  vault := by rw [h.vault]
  closed := fun m hm => by rw [session_congr h.opx]; exact hm
  rd := fun a ha => h.rd a (solverReg_of_still ha)

/-! ### What leaves the registers alone -/

theorem Stands.withLoom (h : Stands s t) (x : Loom) : Stands s { t with loom := x } :=
  h.trans ⟨rfl, rfl, rfl, rfl, fun _ hm => hm, fun _ _ => rfl⟩
theorem Stands.withFio (h : Stands s t) (x : Fio) : Stands s { t with fio := x } :=
  h.trans ⟨rfl, rfl, rfl, rfl, fun _ hm => hm, fun _ _ => rfl⟩
theorem Stands.withWgh (h : Stands s t) (x : Wgh) : Stands s { t with wgh := x } :=
  h.trans ⟨rfl, rfl, rfl, rfl, fun _ hm => hm, fun _ _ => rfl⟩

theorem stands_setPoint (s : State) (i : Nat) (p : Point) : Stands s (setPoint s i p) :=
  ⟨rfl, rfl, rfl, rfl, fun _ hm => hm, fun _ _ => rfl⟩

theorem stands_notePast (s : State) (kind idx sub ord : Nat) (old : Slot) : Stands s (notePast s kind idx sub ord old) :=
  ⟨rfl, rfl, rfl, rfl, fun _ hm => hm, fun _ _ => rfl⟩

theorem stands_setBus (s : State) (n : Nat) (b : Bus) : Stands s (setBus s n b) :=
  ⟨rfl, rfl, rfl, rfl, fun _ hm => hm, fun _ _ => rfl⟩

/-! ### Outputs and reserved entries -/

theorem stands_doSync (s : State) : Stands s (doSync s) := by
  have hfollow : ∀ (t : State) (k : Nat), Stands t (doFollow t (k + 1)) := fun t k => by
    unfold doFollow doDrive
    dsimp only
    split
    · exact (Stands.refl t).withFio _
    · exact .refl t
  unfold doSync doRefresh
  exact .wr (Stands.foldl _ (fun t k _ => hfollow t k) s) _ (by decide)

theorem still_aetAddr {n w : Nat} (hn : n < 512) (hw : w < 2) : still (aetAddr n w) = false := by
  have hpage : pAET + n / 256 = 0x09 ∨ pAET + n / 256 = 0x0A := by
    unfold pAET
    omega
  unfold aetAddr
  refine still_reg (by omega) (by omega) ?_ ?_ <;> rcases hpage with h | h <;> rw [h] <;> decide

theorem stands_aetSet (s : State) {n : Nat} (hn : n < 512) (w0 w1 : Word) : Stands s (aetSet s n w0 w1) := by
  unfold aetSet
  dsimp only
  exact .wr (.wr ((stands_notePast s _ _ _ _ _).trans (stands_notePast _ _ _ _ _ _)) _ (still_aetAddr hn (by decide))) _
    (still_aetAddr hn (by decide))

theorem stands_aetPlace (s : State) {n : Nat} (hn : n < 512) (a r l c x y : Nat) : Stands s (aetPlace s n a r l c x y) :=
  stands_aetSet s hn _ _

theorem stands_aetDisable (s : State) {n : Nat} (hn : n < 512) : Stands s (aetDisable s n) := stands_aetSet s hn _ _

theorem stands_doPlace (s : State) {c : Nat} (hc : c < 16) : Stands s (doPlace s c) := by
  have hon : 22 + 2 * (c - 1) < 512 := by omega
  have hoff : 23 + 2 * (c - 1) < 512 := by omega
  unfold doPlace
  dsimp only
  split
  · exact (stands_aetPlace s hon _ _ _ _ _ _).trans (stands_aetPlace _ hoff _ _ _ _ _ _)
  · exact (stands_aetDisable s hon).trans (stands_aetDisable _ hoff)

theorem stands_doPlaces (s : State) : Stands s ((List.range 8).foldl (fun t k => doPlace t (k + 1)) s) :=
  Stands.foldl _ (fun t k hk => stands_doPlace t (by have := List.mem_range.1 hk; omega)) s

theorem stands_loopPlace (s : State) : Stands s (loopPlace s) := by
  refine Stands.foldl _ (fun t j hj => ?_) s
  have hn : 4 + j < 512 := by
    have := List.mem_range.1 hj
    omega
  split
  · exact stands_aetPlace t hn _ _ _ _ _ _
  · exact stands_aetDisable t hn

theorem stands_wghPlace (s : State) : Stands s (wghPlace s) := by
  unfold wghPlace
  split
  · exact (stands_aetPlace s (by decide) _ _ _ _ _ _).trans (stands_aetPlace _ (by decide) _ _ _ _ _ _)
  · exact (stands_aetDisable s (by decide)).trans (stands_aetDisable _ (by decide))

theorem stands_sgnPlace (s : State) : Stands s (sgnPlace s) := by
  unfold sgnPlace
  split
  · exact (stands_aetPlace s (by decide) _ _ _ _ _ _).trans (stands_aetPlace _ (by decide) _ _ _ _ _ _)
  · exact (stands_aetDisable s (by decide)).trans (stands_aetDisable _ (by decide))

theorem stands_placeAll (s : State) : Stands s (placeAll s) := by
  unfold placeAll
  dsimp only
  exact ((((stands_loopPlace s).trans (stands_wghPlace _)).trans (stands_sgnPlace _)).trans (stands_doPlaces _)).trans (stands_doSync _)

/-! ### Sessions -/

theorem closed_closeMute (n m : Nat) (h : (session s m).open_ = false) : (session (closeMute s n) m).open_ = false := by
  rw [open_closeMute, h, Bool.and_false]

theorem closed_closeSession (n m : Nat) (h : (session s m).open_ = false) : (session (closeSession s n) m).open_ = false := by
  have hports : ∀ (x : State) (e : List (Nat × EthPort)), ({ x with eth := e } : State).opx = x.opx := fun _ _ => rfl
  rw [← session_congr (show (closeMute s n).opx = (closeSession s n).opx from hports _ _)]
  exact closed_closeMute n m h

theorem stands_closeSession (s : State) (n : Nat) : Stands s (closeSession s n) :=
  stands_of_apart (apart_closeSession s n) fun m h => closed_closeSession n m h

theorem stands_closeMute (s : State) (n : Nat) : Stands s (closeMute s n) :=
  stands_of_apart (apart_closeMute s n) fun m h => closed_closeMute n m h

theorem stands_closeAll (s : State) : Stands s (closeAll s) := Stands.foldl _ (fun t n _ => stands_closeMute t n) s

/-- A message to a session opens none. -/
theorem stands_opxSendAt (s : State) (pos n ty fl : Nat) (c : Cls) (req out : Nat) (body : List Byte) :
    Stands s (opxSendAt s pos n ty fl c req out body) := by
  unfold opxSendAt
  dsimp only
  split
  · exact .refl s
  case isFalse hopen =>
    split
    · exact stands_closeSession s n
    · have hset : ∀ (x : Session) (m : Nat), x.open_ = (session s n).open_ → (session s m).open_ = false →
          (session (setSess s n x) m).open_ = false := fun x m hx hm => by
        by_cases h : m = n
        · rw [h, session_setSess_same, hx, ← h, hm]
        · rw [session, setSess]
          exact (congrArg Session.open_ (look_put_other _ _ _ _ h)).trans hm
      have hsess : ∀ x : Session, x.open_ = (session s n).open_ → Stands s (setSess s n x) := fun x hx =>
        ⟨rfl, rfl, rfl, rfl, fun m hm => hset x m hx hm, fun _ _ => rfl⟩
      have hrest : ∀ (y : State) (e : List (Nat × EthPort)) (q : List OpxOut),
          Stands y { Machine.bump { y with eth := e } (reg pOPX 0x0AC) with opx := { y.opx with outq := q } } := fun y e q => by
        have hports : Stands y { y with eth := e } := ⟨rfl, rfl, rfl, rfl, fun _ h => h, fun _ _ => rfl⟩
        have hcount : Stands y (Machine.bump { y with eth := e } (reg pOPX 0x0AC)) := hports.bump (by decide)
        exact hcount.trans ⟨rfl, rfl, rfl, rfl, fun _ h => h, fun _ _ => rfl⟩
      exact (hsess { session s n with txSeq := (session s n).txSeq + 1 } rfl).trans (hrest _ _ _)

/-! ### Forces (R106–R109) -/

theorem still_forceAddr {n w : Nat} (hn : n < 256) (hw : w < 2) : still (forceAddr n w) = false :=
  still_reg (by omega) (by omega) (by decide) (by decide)

theorem stands_logHw (s : State) (p k a : Nat) (o n : DWord) (c : Cls) (out : Nat) : Stands s (logHw s p k a o n c out) :=
  stands_of_light (light_logMade _ _ _)

theorem stands_forceRefresh (s : State) : Stands s (forceRefresh s) := by
  unfold forceRefresh
  dsimp only
  refine (Stands.wr (.refl s) _ (by decide)).trans (Stands.foldl _ (fun t k hk => ?_) _)
  have := List.mem_range.1 hk
  exact .wr (.refl t) _ (still_reg (by omega) (by omega) (by decide) (by decide))

theorem stands_forceRelease (s : State) : Stands s (forceRelease s) := by
  unfold forceRelease
  dsimp only
  split
  · exact .refl s
  · refine .ev (.ev ?_ 1 (by decide)) 2 (by decide)
    refine (Stands.foldl _ (fun t n hn => ?_) s).trans (stands_forceRefresh _)
    have hlt : n < 256 := List.mem_range.1 (List.mem_filter.1 hn).1
    exact (Stands.wrB (.refl t) _ _ (still_forceAddr hlt (by decide))).trans (stands_logHw _ _ _ _ _ _ _ _)

theorem stands_forcePoints (s : State) (pos : Nat) : Stands s (forcePoints s pos) := by
  refine Stands.foldl _ (fun t p _ => ?_) s
  unfold forcePoint
  dsimp only
  split
  · exact .refl t
  · exact stands_setPoint t _ _

theorem keptPage_mbPg {n : Nat} (hn : n < 8) : keptPage (mbPg n) = false := by
  unfold keptPage mbPg pMB pBKP pWTCH pCAL pFLTM
  simp
  omega

theorem stands_objCommitLoom (s : State) {n o : Nat} (hn : n < 8) (ho : o < 16) (v : Word) : Stands s (objCommitLoom s n o v) := by
  have hobj : ∀ k < 0x50, still (txObj n o + k) = false := fun k hk => by
    have hreg : txObj n o + k = reg (mbPg n) (0x600 + 0x50 * o + k) := Nat.add_assoc _ _ _
    rw [hreg]
    refine still_reg (by omega) (by omega) (keptPage_mbPg hn) ?_
    unfold mbPg pMB pLOCK
    omega
  have hwake : ∀ t, Stands t (busWake t n) := fun t => by
    have hfollow : ∀ x y : State, Stands y (stbyFollow x y) := fun x y => by
      unfold stbyFollow
      dsimp only
      split <;> exact ⟨rfl, rfl, rfl, rfl, fun _ h => h, fun _ _ => rfl⟩
    unfold busWake
    dsimp only
    split
    · exact (Stands.ev (stands_setBus t _ _) 8 (keptPage_mbPg hn)).trans (hfollow _ _)
    · exact .refl t
  unfold objCommitLoom objPending
  dsimp only
  have hpend : ∀ b w, Stands s (Machine.wrB (setBus (Machine.wr s (txObj n o + 0x10) w) n b) (txObj n o + 4) 8 true) := fun b w =>
    .wrB ((Stands.wr (.refl s) _ (hobj _ (by decide))).trans (stands_setBus _ _ _)) _ _ (hobj _ (by decide))
  split
  · exact (hpend _ _).trans (hwake _)
  · exact hpend _ _

theorem stands_outPlace (s : State) (p : Program) (o : OutSlot) (v : Word) : Stands s (outPlace s p o v) := by
  unfold outPlace
  dsimp only
  split
  · exact (Stands.refl s).withLoom _
  · split
    · exact (Stands.refl s).withFio _
    · split
      · exact stands_objCommitLoom s (Nat.mod_lt _ (by decide)) (Nat.mod_lt _ (by decide)) _
      · exact .refl s

theorem stands_forceOut (s : State) (p : Program) (q : Nat) : Stands s (forceOut s p q) := by
  have hclear : ∀ (t : State) (o : OutSlot), Stands t (outClear t p o) := fun t o => by
    unfold outClear
    split
    · exact (Stands.refl t).withLoom _
    · split
      · exact (Stands.refl t).withFio _
      · exact .refl t
  unfold forceOut
  dsimp only
  split
  · exact .refl s
  · split
    · exact ((Stands.refl s).withLoom _).trans (Stands.foldl _ (fun t o _ => stands_outPlace t p o _) _)
    · exact ((Stands.refl s).withLoom _).trans (Stands.foldl _ (fun t o _ => hclear t o) _)

theorem stands_forceAll (s : State) (pos : Nat) : Stands s (forceAll s pos) := by
  unfold forceAll doForces
  dsimp only
  refine Stands.withFio ?_ _
  split
  · exact (stands_forcePoints s pos).trans (Stands.foldl _ (fun t q _ => stands_forceOut t _ q) _)
  · exact stands_forcePoints s pos

theorem stands_sendImages (s : State) (pos : Nat) : Stands s (sendImages s pos) := by
  unfold sendImages
  split
  · refine Stands.foldl _ (fun t k _ => ?_) s
    unfold sendSlot
    split
    · exact stands_opxSendAt t _ _ _ _ _ _ _ _
    · exact .refl t
  · exact .refl s

theorem stands_forceSettle (s : State) : Stands s (forceSettle s) := by
  unfold forceSettle
  dsimp only
  split
  · exact .refl s
  · refine .trans ?_ (stands_doSync _)
    split
    · exact stands_forceAll s _
    · exact (stands_forceAll s _).trans (stands_sendImages _ _)

theorem stands_setEngine (s : State) (e : Engine) : Stands s (setEngine s e) := by
  unfold setEngine
  split
  · exact .refl s
  · exact ((Stands.refl s).withLoom _).ev 8 (by decide)

theorem stands_scanResume (s : State) : Stands s (scanResume s) := by
  unfold scanResume
  dsimp only
  split
  · exact .refl s
  · exact .wrF (((Stands.refl s).withLoom _).trans (stands_setEngine _ _)) _ _ _ (by decide)

theorem stands_factBlockFault (s : State) : Stands s (factBlockFault s) := stands_of_solving (solving_factBlockFault s)

end Sys2Proof.Proofs
end

section
/-!
PROOFS. LOCKDOWN set by hardware, a tamper trip (R287–R291, R325), and the settled obligation of the vault's surroundings.
-/

namespace Sys2Proof.Proofs

open Sys2Proof.Machine Sys2Proof.Laws

variable {s t u : State}

/-! ### LOCKDOWN (R325) -/

/-- One state is another after LOCKDOWN's work: as work that has ended leaves it, but for the record of LOCKDOWN. -/
structure Shut (s t : State) : Prop where
  guard : t.guard = { s.guard with lockdownRec := t.guard.lockdownRec }
  vault : t.vault = { s.vault with waiting := t.vault.waiting }
  closed : ∀ m, (session s m).open_ = false → (session t m).open_ = false
  rd : ∀ a, still a = true → rd t a = rd s a

theorem Stands.shut (h : Stands s t) : Shut s t := ⟨by rw [h.guard], h.vault, h.closed, h.rd⟩

theorem Shut.trans (h : Shut s t) (k : Shut t u) : Shut s u :=
  ⟨by rw [k.guard, h.guard], by rw [k.vault, h.vault], fun m hm => k.closed m (h.closed m hm), fun a ha => (k.rd a ha).trans (h.rd a ha)⟩

theorem shut_lockdownIn (s : State) : Shut s (lockdownIn s) := by
  have hrec : Shut s { s with guard := { s.guard with lockdownRec := true } } := ⟨rfl, rfl, fun _ h => h, fun _ _ => rfl⟩
  have hev : ∀ x, Stands x (ev x pMOD 1) := fun x => (Stands.refl x).ev 1 (by decide)
  unfold lockdownIn
  exact hrec.trans (((((hev _).trans (stands_closeAll _)).trans (stands_forceRelease _)).trans (stands_forceSettle _)).trans
    (stands_scanResume _)).shut

theorem still_stat {p : Nat} (hp : p < 128) (hbank : isLoopbank p = false) : still (reg p 0x028) = true := by
  have hoff : offOf (reg p 0x028) = 0x028 := offOf_reg p (by decide)
  have hpage : pageOf (reg p 0x028) = p := pageOf_reg p (by decide)
  have hring : reg p 0x028 % 64 = 0x28 := by
    unfold reg
    omega
  have hten : (p != pTENQ) = true := by
    have hne : p ≠ pTENQ := by
      unfold pTENQ
      omega
    rw [bne_iff_ne]
    exact hne
  unfold still faultHead
  rw [hoff, hpage, hring, hbank, hten]
  simp

/-- The mode with LOCKDOWN set: no other flag changes. -/
theorem getLsbD_lockdown (m : BitVec 8) {i : Nat} (hi : i < 7) : (m ||| 128).getLsbD i = m.getLsbD i := by
  have h128 : ∀ i < 7, (128 : BitVec 8).getLsbD i = false := by decide
  rw [BitVec.getLsbD_or, h128 i hi, Bool.or_false]

theorem lockdown_set (m : BitVec 8) : (m ||| 128).getLsbD 7 = true := by
  rw [BitVec.getLsbD_or]
  exact Bool.or_true _

/-- No page's counters become clear-on-read with LOCKDOWN. -/
theorem enterCor_lockdown (hguard : t.guard = { s.guard with mode := s.guard.mode ||| 128, lockdownRec := t.guard.lockdownRec })
    (hrd : ∀ a, still a = true → rd t a = rd s a) : enterCor s t = t := by
  have hno : ∀ p ∈ List.range 128, (!corMode s p && corMode t p) = false := fun p hp => by
    have hfenced : fenced t p = fenced s p := by
      unfold fenced
      cases hbank : isLoopbank p with
      | true => rfl
      | false => rw [rdB, hrd _ (still_stat (List.mem_range.1 hp) hbank), ← rdB]
    have hop : t.guard.operational = s.guard.operational := by rw [hguard]
    have hlock : mLOCK t = true := by
      unfold mLOCK
      rw [hguard]
      exact lockdown_set _
    unfold corMode
    rw [hfenced, hop, hlock]
    cases s.guard.operational <;> cases fenced s p <;> simp
  have hfold : ∀ (l : List Nat) (x : State), (∀ p ∈ l, (!corMode s p && corMode t p) = false) →
      l.foldl (fun x p => if (pageType p).isSome && !corMode s p && corMode t p then clearStats x p else x) x = x := fun l => by
    induction l with
    | nil => exact fun _ _ => rfl
    | cons p l ih =>
      intro x hl
      have hp := hl p List.mem_cons_self
      rw [List.foldl_cons, Bool.and_assoc, hp, Bool.and_false]
      exact ih x fun q hq => hl q (List.mem_cons_of_mem _ hq)
  exact hfold _ t hno

theorem Shut.mode (h : Shut s t) : t.guard.mode = s.guard.mode := by rw [h.guard]

/-- LOCKDOWN joins the modes (R325, R326): nothing else of the modes' changes applies. -/
theorem shut_modeSet {x : State} (hx : x = { s with guard := { s.guard with mode := s.guard.mode ||| 128 } }) :
    Shut x (modeSet s (s.guard.mode ||| 128)) := by
  have hflag : ∀ i < 7, x.guard.mode.getLsbD i = s.guard.mode.getLsbD i := fun i hi => by
    rw [hx]
    exact getLsbD_lockdown _ hi
  unfold modeSet
  rw [← hx]
  extract_lets y was now t1 t2 t3 t4 t5 t6 t7 meters wgh dem t8 t9
  have h1 : Shut x t1 := ((Stands.refl x).evIf _ 0 (by decide)).shut
  have h2 : Shut x t2 := by
    show Shut x (if now mLOCK then lockdownIn t1 else t1)
    split
    · exact h1.trans (shut_lockdownIn t1)
    · exact h1
  have h3 : Shut x t3 := by
    show Shut x (if _ then forceSettle (forceRelease t2) else t2)
    split
    · exact h2.trans ((stands_forceRelease t2).trans (stands_forceSettle _)).shut
    · exact h2
  have h4 : Shut x t4 := by
    show Shut x (if was mDEBUG then scanResume t3 else t3)
    split
    · exact h3.trans (stands_scanResume t3).shut
    · exact h3
  have h5 : Shut x t5 := by
    have hno : was mFLOOR = false := by
      show (mFLOOR s && !mFLOOR x) = false
      unfold mFLOOR
      rw [hflag 0 (by decide)]
      cases s.guard.mode.getLsbD 0 <;> rfl
    show Shut x (if was mFLOOR then floorOut t4 else t4)
    rw [hno]
    exact h4
  have h6 : Shut x t6 := by
    show Shut x (if was roleSet then closeAll t5 else t5)
    split
    · exact h5.trans (stands_closeAll t5).shut
    · exact h5
  have h7 : Shut x t7 := by
    show Shut x (if _ then factBlockFault t6 else t6)
    split
    · exact h6.trans (stands_factBlockFault t6).shut
    · exact h6
  have h8 : Shut x t8 := by
    show Shut x (if _ then { t7 with wgh := { wgh with dem0 := { dem with irr := true } } } else t7)
    split
    · exact h7.trans ((Stands.refl t7).withWgh _).shut
    · exact h7
  have h9 : t9 = t8 := by
    have hisland : mISLAND s = mISLAND t8 := by
      unfold mISLAND
      rw [h8.mode, hflag _ (by decide)]
    exact if_pos hisland
  have hcor : enterCor s t8 = t8 := by
    refine enterCor_lockdown ?_ fun a ha => ?_
    · rw [h8.guard, hx]
    · rw [h8.rd a ha, hx]
      rfl
  rw [h9, hcor]
  exact h8.trans (stands_placeAll t8).shut

/-- What LOCKDOWN set by hardware leaves (R325). -/
structure Locked (s t : State) : Prop where
  lock : t.guard.mode.getLsbD 7 = true
  vault : t.vault = { s.vault with waiting := t.vault.waiting }
  closed : ∀ m, (session s m).open_ = false → (session t m).open_ = false
  rd : ∀ a, still a = true → rd t a = rd s a

theorem locked_lockdownHw (s : State) : Locked s (lockdownHw s) := by
  unfold lockdownHw modeHw
  split
  case isTrue h => exact ⟨by rw [← h]; exact lockdown_set _, rfl, fun _ hm => hm, fun _ _ => rfl⟩
  case isFalse =>
    have hshut := (shut_modeSet rfl : Shut _ (modeSet s (s.guard.mode ||| 128))).trans
      (stands_logHw _ pMOD 3 (reg pMOD 0x080) (BitVec.ofNat 64 s.guard.mode.toNat)
        (BitVec.ofNat 64 (modeSet s (s.guard.mode ||| 128)).guard.mode.toNat) .safety oSERVED).shut
    refine ⟨?_, hshut.vault, hshut.closed, hshut.rd⟩
    rw [hshut.mode]
    exact lockdown_set _

/-! ### The record of a trip (R289) -/

/-- The registers of the vault's surroundings that a trip's record does not write. -/
structure Tampered (s : State) (c cal : Nat) (t : State) : Prop where
  vault : t.vault = s.vault
  opx : t.opx = s.opx
  guard : t.guard = s.guard
  cause : rd t (reg pBKP 0x090) = rd s (reg pBKP 0x090) ||| w32 c
  count : (rd t (reg pBKP 0x09C)).toNat = min (2 ^ 32 - 1) ((rd s (reg pBKP 0x09C)).toNat + 1)
  shown : rdB t (reg pBKP 0x080) 3 = true
  time : rd64 t (reg pBKP 0x094) = if rd s (reg pBKP 0x090) = 0 then cal else rd64 s (reg pBKP 0x094)
  lock : rd t (reg pLOCK 0x084) = rd s (reg pLOCK 0x084)
  watch : rd t (reg pWTCH 0x08C) = rd s (reg pWTCH 0x08C)

/-- The last step of a trip's record: WTCH.LOG. -/
def tamperLog (s : State) (c situation : Nat) (cal : Nat) : State :=
  let next := rdF s (reg pWTCH 0x090) 0 4
  let total := rdF s (reg pWTCH 0x090) 16 16
  let last := reg pWTCH (0x100 + 0x10 * ((next + 15) % 16))
  if 0 < total ∧ rd64 s last = cal then wr s (last + 8) (rd s (last + 8) ||| w32 c)
  else
    let a := reg pWTCH (0x100 + 0x10 * next)
    wr (wr64 (wr s (a + 8) (w32 (c + situation * 65536))) a cal) (reg pWTCH 0x090)
      (w32 ((next + 1) % 16 + (total + 1) % 65536 * 65536))

/-- The record in the backup domain. -/
def tamperBkp (s : State) (c cal : Nat) : State :=
  let t := if rd s (reg pBKP 0x090) = 0 then wr64 s (reg pBKP 0x094) cal else s
  let t := wr t (reg pBKP 0x090) (rd t (reg pBKP 0x090) ||| w32 c)
  wrB (wr t (reg pBKP 0x09C) (w32 (countUp true 32 (rd t (reg pBKP 0x09C)).toNat 1))) (reg pBKP 0x080) 3 true

theorem tamperRecord_eq (s : State) (c k : Nat) : tamperRecord s c k = 
    tamperLog (tamperBkp s c (calStamp s).toNat) c k (calStamp s).toNat := rfl

/-- WTCH.LOG is written in its own registers. -/
theorem tamperLog_keeps (s : State) (c k cal : Nat) : (tamperLog s c k cal).vault = s.vault ∧ (tamperLog s c k cal).opx = s.opx ∧
    (tamperLog s c k cal).guard = s.guard ∧ ∀ a, (∀ o < 4096, 0x090 ≤ o → a ≠ reg pWTCH o) → rd (tamperLog s c k cal) a = rd s a := by
  have hnext : rdF s (reg pWTCH 0x090) 0 4 < 16 := Nat.mod_lt _ (by decide)
  unfold tamperLog
  dsimp only
  generalize rdF s (reg pWTCH 0x090) 0 4 = next at hnext
  have hlast : (next + 15) % 16 < 16 := Nat.mod_lt _ (by decide)
  generalize (next + 15) % 16 = last at hlast
  generalize rdF s (reg pWTCH 0x090) 16 16 = total
  have hadd : ∀ j d : Nat, reg pWTCH (0x100 + 0x10 * j) + d = reg pWTCH (0x100 + 0x10 * j + d) := fun _ _ => Nat.add_assoc _ _ _
  split
  · refine ⟨rfl, rfl, rfl, fun a ha => rd_wr_other s _ ?_⟩
    rw [hadd]
    exact ha _ (by omega) (by omega)
  · refine ⟨rfl, rfl, rfl, fun a ha => ?_⟩
    have hne : ∀ d < 16, a ≠ reg pWTCH (0x100 + 0x10 * next) + d := fun d hd => by
      rw [hadd]
      exact ha _ (by omega) (by omega)
    rw [rd_wr_other _ _ (ha _ (by decide) (by decide)), wr64, rd_wr_other _ _ (hne 4 (by decide)),
      rd_wr_other _ _ (ha _ (by omega) (by omega)), rd_wr_other _ _ (hne 8 (by decide))]

theorem tampered_tamperBkp (s : State) (c : Nat) {cal : Nat} (hcal : cal < 2 ^ 64) : Tampered s c cal (tamperBkp s c cal) := by
  obtain ⟨x, hx⟩ : ∃ x, x = if rd s (reg pBKP 0x090) = 0 then wr64 s (reg pBKP 0x094) cal else s := ⟨_, rfl⟩
  have hkeeps : x.vault = s.vault ∧ x.opx = s.opx ∧ x.guard = s.guard := by
    rw [hx]
    split <;> exact ⟨rfl, rfl, rfl⟩
  have hxrd : ∀ a, a ≠ reg pBKP 0x094 → a ≠ reg pBKP 0x098 → rd x a = rd s a := fun a hlo hhi => by
    have hwr64 : ∀ v : Nat, rd (wr64 s (reg pBKP 0x094) v) a = rd s a := fun v =>
      (rd_wr_other (wr s (reg pBKP 0x094) (lo32 v)) (hi32 v) hhi).trans (rd_wr_other s (lo32 v) hlo)
    rw [hx]
    split
    · exact hwr64 _
    · rfl
  have hxtime : rd64 x (reg pBKP 0x094) = if rd s (reg pBKP 0x090) = 0 then cal else rd64 s (reg pBKP 0x094) := by
    rw [hx]
    split
    · rw [rd64_wr64_same, Nat.mod_eq_of_lt hcal]
    · rfl
  obtain ⟨y, hy⟩ : ∃ y, y = wr x (reg pBKP 0x090) (rd x (reg pBKP 0x090) ||| w32 c) := ⟨_, rfl⟩
  obtain ⟨z, hz⟩ : ∃ z, z = wr y (reg pBKP 0x09C) (w32 (countUp true 32 (rd y (reg pBKP 0x09C)).toNat 1)) := ⟨_, rfl⟩
  have hop : tamperBkp s c cal = wrB z (reg pBKP 0x080) 3 true := by
    unfold tamperBkp
    dsimp only
    rw [← hx, ← hy, ← hz]
  have hother : ∀ a, a ≠ reg pBKP 0x080 → a ≠ reg pBKP 0x09C → a ≠ reg pBKP 0x090 → rd (tamperBkp s c cal) a = rd x a := fun a h1 h2 h3 => by
    rw [hop, rd_wrB_other _ _ _ h1, hz, rd_wr_other _ _ h2, hy, rd_wr_other _ _ h3]
  have hsame : (tamperBkp s c cal).vault = x.vault ∧ (tamperBkp s c cal).opx = x.opx ∧ (tamperBkp s c cal).guard = x.guard := by
    have hwr : ∀ (w : State) (a : Nat) (v : Word), (wr w a v).vault = w.vault ∧ (wr w a v).opx = w.opx ∧ (wr w a v).guard = w.guard :=
      fun _ _ _ => ⟨rfl, rfl, rfl⟩
    rw [hop, wrB, wrF, (hwr _ _ _).1, (hwr _ _ _).2.1, (hwr _ _ _).2.2, hz, (hwr _ _ _).1, (hwr _ _ _).2.1, (hwr _ _ _).2.2, hy]
    exact hwr _ _ _
  obtain ⟨hvault, hopx, hguard⟩ := hkeeps
  obtain ⟨hvault', hopx', hguard'⟩ := hsame
  refine ⟨hvault'.trans hvault, hopx'.trans hopx, hguard'.trans hguard, ?_, ?_, ?_, ?_, ?_, ?_⟩
  · rw [hop, rd_wrB_other _ _ _ (by decide), hz, rd_wr_other _ _ (by decide), hy, rd_wr_same, hxrd _ (by decide) (by decide)]
  · have hold : rd y (reg pBKP 0x09C) = rd s (reg pBKP 0x09C) := by rw [hy, rd_wr_other _ _ (by decide), hxrd _ (by decide) (by decide)]
    rw [hop, rd_wrB_other _ _ _ (by decide), hz, rd_wr_same, hold, countUp, if_pos rfl, w32, BitVec.toNat_ofNat]
    omega
  · rw [hop]
    exact rdB_wrB_same z _ (by decide)
  · rw [← hxtime]
    exact rd64_congr (hother _ (by decide) (by decide) (by decide)) (hother _ (by decide) (by decide) (by decide))
  · rw [hother _ (by decide) (by decide) (by decide), hxrd _ (by decide) (by decide)]
  · rw [hother _ (by decide) (by decide) (by decide), hxrd _ (by decide) (by decide)]

theorem tampered_tamperRecord (s : State) (c k : Nat) : Tampered s c (calStamp s).toNat (tamperRecord s c k) := by
  obtain ⟨hvault, hopx, hguard, hcause, hcount, hshown, htime, hlock, hwatch⟩ := tampered_tamperBkp s c (calStamp s).isLt
  rw [tamperRecord_eq]
  generalize (calStamp s).toNat = cal at hvault hopx hguard hcause hcount hshown htime hlock hwatch ⊢
  generalize tamperBkp s c cal = x at hvault hopx hguard hcause hcount hshown htime hlock hwatch
  obtain ⟨hv, ho, hg, hrd⟩ := tamperLog_keeps x c k cal
  have hpage : ∀ p m, m < 4096 → p ≠ pWTCH → rd (tamperLog x c k cal) (reg p m) = rd x (reg p m) := fun p m hm hp =>
    hrd _ fun o ho _ => reg_ne_of_page hp hm ho
  have hbkp : ∀ m < 4096, rd (tamperLog x c k cal) (reg pBKP m) = rd x (reg pBKP m) := fun m hm => hpage _ m hm (by decide)
  refine ⟨hv.trans hvault, ho.trans hopx, hg.trans hguard, (hbkp _ (by decide)).trans hcause, ?_, ?_, ?_,
    (hpage _ _ (by decide) (by decide)).trans hlock, (hrd _ fun o _ hlo e => ?_).trans hwatch⟩
  · rw [hbkp _ (by decide), hcount]
  · rw [rdB, hbkp _ (by decide)]
    exact hshown
  · rw [← htime]
    exact rd64_congr (hbkp 0x094 (by decide)) (hbkp 0x098 (by decide))
  · have := reg_right_inj.1 e
    omega

/-! ### TAMPER_TRIP (R287–R290) -/

theorem stands_lockEndWait (s : State) (e : Nat × Nat) (code : Nat) : Stands s (lockEndWait s e code) := by
  have hday : ∀ (t : State) (q k : Nat) (n : Option DWord), Stands t (dayEnd t q k n) := fun _ _ _ _ =>
    ⟨rfl, rfl, rfl, rfl, fun _ h => h, fun _ _ => rfl⟩
  unfold lockEndWait lockEnd
  exact (Stands.ev (.wr (.refl s) _ (by decide)) 0 (by decide)).trans (hday _ _ _ _)

/-- The key operations that a trip ends. -/
theorem stands_tamperedOps (l : List (Nat × Nat)) (s : State) :
    Stands s (l.foldl (fun u e => ev (lockEndWait u e oTAMPERED) pLOCK 4) s) :=
  Stands.foldl l (fun t e _ => (stands_lockEndWait t e _).ev 4 (by decide)) s

theorem calStamp_congr (hv : calTick t = calTick s) (hrd : ∀ o, 0x080 ≤ o → o ≤ 0x098 → rd t (reg pCAL o) = rd s (reg pCAL o)) :
    calStamp t = calStamp s := by
  unfold calStamp rdF
  rw [hv, hrd 0x080 (by decide) (by decide), hrd 0x084 (by decide) (by decide), hrd 0x088 (by decide) (by decide),
    hrd 0x090 (by decide) (by decide), hrd 0x094 (by decide) (by decide), hrd 0x098 (by decide) (by decide)]

/-- Before its record, a trip destroys the keys if it is the first, and ends the operations that wait. -/
def tamperFirst (s : State) : State :=
  s.vault.waiting.foldl (fun u e => ev (lockEndWait u e oTAMPERED) pLOCK 4)
    (if rd s (reg pBKP 0x090) = 0 then destroyKeys s else s)

/-- What a trip leaves before its record. -/
structure Tripped (s t : State) : Prop where
  cal : calStamp t = calStamp s
  guard : t.guard = s.guard
  bkp : ∀ o < 4096, o % 64 ≠ 32 → rd t (reg pBKP o) = rd s (reg pBKP o)
  later : rd s (reg pBKP 0x090) ≠ 0 → t.vault.slots = s.vault.slots
  first : rd s (reg pBKP 0x090) = 0 → (∀ j < 64, slot t j = { KeySlot.empty with gen := nextGen (slot s j).gen }) ∧
    t.vault.scramble = [] ∧ (∀ m, (session t m).open_ = false) ∧ rdB t (reg pLOCK 0x084) 4 = true ∧ rdB t (reg pWTCH 0x08C) 0 = true

theorem destroyKeys_destroys (s : State) : Zeroed { s with vault := { s.vault with waiting := [] } }
      (zeroKeys { s with vault := { s.vault with waiting := [] } }) ∧
    destroyKeys s = ev (zeroKeys { s with vault := { s.vault with waiting := [] } }) pWTCH 0 := ⟨zeroed_zeroKeys _, rfl⟩

theorem evtAddr_wtch : evtAddr pWTCH = some (reg pWTCH 0x08C) := by decide

/-- The keys' destruction, before the operations that waited end. -/
theorem tripped_destroyKeys (hfirst : rd s (reg pBKP 0x090) = 0) : Tripped s (destroyKeys s) := by
  obtain ⟨hzero, hop⟩ := destroyKeys_destroys s
  obtain ⟨hslots, hscramble, -, hclosed, hguard, hclk, hshown, hrd, -, hat, hbase⟩ := hzero
  rw [hop]
  generalize zeroKeys { s with vault := { s.vault with waiting := [] } } = z at hslots hscramble hclosed hguard hclk hshown hrd hat hbase
  have hevent : ∀ a, a ≠ reg pWTCH 0x08C → rd (ev z pWTCH 0) a = rd z a := fun a ha =>
    rd_ev_other z pWTCH 0 fun e => ha (Option.some.inj (e.symm.trans evtAddr_wtch))
  have hpage : ∀ p o, o < 4096 → p ≠ pWTCH → answerPage p = false → p ≠ pLOCK → rd (ev z pWTCH 0) (reg p o) = rd s (reg p o) :=
    fun p o ho hw ha hl => by
      rw [hevent _ (reg_ne_of_page hw ho (by decide)), hrd _ (by rw [pageOf_reg _ ho]; exact ha) (by rw [pageOf_reg _ ho]; exact hl)]
      rfl
  have htick : calTick (ev z pWTCH 0) = calTick s := by
    unfold calTick
    rw [ev_vault, ev_clk, hat, hbase, hclk]
  refine ⟨calStamp_congr htick fun o _ ho => hpage _ o (by omega) (by decide) (by decide) (by decide), (ev_guard _ _ _).trans hguard,
    fun o ho _ => hpage _ o ho (by decide) (by decide) (by decide), fun hlater => absurd hfirst hlater, fun _ => ⟨fun j hj => ?_, ?_, fun m => ?_,
    ?_, rdB_ev_same _ evtAddr_wtch (by decide)⟩⟩
  · rw [slot_congr (ev_vault _ _ _)]
    exact hslots j hj
  · rw [ev_vault]
    exact hscramble
  · rw [session_congr (ev_opx _ _ _)]
    exact hclosed m
  · rw [rdB, hevent _ (by decide)]
    exact hshown

theorem still_kept {p o : Nat} (hp : keptPage p = true) (ho : o < 4096) (hm : o % 64 ≠ 32) : still (reg p o) = true := by
  have hring : reg p o % 64 ≠ 32 := by
    unfold reg
    omega
  unfold still
  rw [pageOf_reg _ ho, hp, bne_iff_ne.2 hring]
  rfl

theorem Stands.calTick (h : Stands s t) : calTick t = Machine.calTick s := by
  unfold Machine.calTick
  rw [h.clk, h.vault]

theorem Stands.calStamp (h : Stands s t) : calStamp t = Machine.calStamp s := by
  have hcal : ∀ o ∈ [0x080, 0x084, 0x088, 0x090, 0x094, 0x098], Machine.rd t (reg pCAL o) = Machine.rd s (reg pCAL o) := fun o ho =>
    Stands.rd h _ ((by decide : ∀ o ∈ [0x080, 0x084, 0x088, 0x090, 0x094, 0x098], still (reg pCAL o) = true) o ho)
  unfold Machine.calStamp rdF
  rw [h.calTick, hcal 0x080 (by decide), hcal 0x084 (by decide), hcal 0x088 (by decide), hcal 0x090 (by decide), hcal 0x094 (by decide),
    hcal 0x098 (by decide)]

theorem Tripped.stands (h : Tripped s t) (k : Stands t u) : Tripped s u := by
  obtain ⟨hcal, hguard, hbkp, hlater, hfirst⟩ := h
  refine ⟨k.calStamp.trans hcal, k.guard.trans hguard, fun o ho hm => (k.rd _ (still_kept (by decide) ho hm)).trans (hbkp o ho hm),
    fun hne => ?_, fun heq => ?_⟩
  · rw [k.vault]
    exact hlater hne
  · obtain ⟨hslots, hscramble, hclosed, hlock, hwatch⟩ := hfirst heq
    refine ⟨fun j hj => ?_, ?_, fun m => k.closed m (hclosed m), ?_, ?_⟩
    · rw [slot, k.vault]
      exact hslots j hj
    · rw [k.vault]
      exact hscramble
    · rw [rdB, k.rd _ (by decide)]
      exact hlock
    · rw [rdB, k.rd _ (by decide)]
      exact hwatch

theorem tripped_tamperFirst (s : State) : Tripped s (tamperFirst s) := by
  unfold tamperFirst
  refine Tripped.stands ?_ (stands_tamperedOps _ _)
  split
  case isTrue h => exact tripped_destroyKeys h
  case isFalse h => exact ⟨rfl, rfl, fun _ _ _ => rfl, fun _ => rfl, fun heq => absurd heq h⟩

end Sys2Proof.Proofs
end

section
/-!
PROOFS. TAMPER_TRIP (R287–R291), and the settled obligation of the vault's surroundings.
-/

namespace Sys2Proof.Proofs

open Sys2Proof.Machine Sys2Proof.Laws

variable {s t u : State}

/-- What an armed trip leaves, its causes, its LOCKDOWN and its stamp given (R287–R290). -/
structure TripDone (s : State) (causes : Nat) (lockdown : Bool) (cal : Nat) (t : State) : Prop where
  cause : rd t (reg pBKP 0x090) = rd s (reg pBKP 0x090) ||| w32 causes
  count : (rd t (reg pBKP 0x09C)).toNat = min (2 ^ 32 - 1) ((rd s (reg pBKP 0x09C)).toNat + 1)
  shown : rdB t (reg pBKP 0x080) 3 = true
  lock : lockdown = true → t.guard.mode.getLsbD 7 = true
  later : rd s (reg pBKP 0x090) ≠ 0 → t.vault.slots = s.vault.slots ∧ rd64 t (reg pBKP 0x094) = rd64 s (reg pBKP 0x094)
  first : rd s (reg pBKP 0x090) = 0 → (∀ j < 64, slot t j = { KeySlot.empty with gen := nextGen (slot s j).gen }) ∧
    t.vault.scramble = [] ∧ (∀ m, (session t m).open_ = false) ∧ rd64 t (reg pBKP 0x094) = cal ∧ rdB t (reg pLOCK 0x084) 4 = true ∧
    rdB t (reg pWTCH 0x08C) 0 = true

/-- The record of a trip after the destruction of the keys. -/
theorem Tripped.record (h : Tripped s t) {c cal : Nat} (k : Tampered t c cal u) : TripDone s c false cal u := by
  obtain ⟨-, -, hbkp, hlater, hfirst⟩ := h
  obtain ⟨hvault, hopx, -, hcause, hcount, hshown, htime, hlock, hwatch⟩ := k
  have hold : rd t (reg pBKP 0x090) = rd s (reg pBKP 0x090) := hbkp 0x090 (by decide) (by decide)
  rw [hold] at hcause htime
  refine ⟨hcause, ?_, hshown, nofun, fun hne => ⟨?_, ?_⟩, fun heq => ?_⟩
  · rw [hcount, hbkp 0x09C (by decide) (by decide)]
  · rw [hvault]
    exact hlater hne
  · rw [htime, if_neg hne]
    exact rd64_congr (hbkp 0x094 (by decide) (by decide)) (hbkp 0x098 (by decide) (by decide))
  · obtain ⟨hslots, hscramble, hclosed, hempty, hdone⟩ := hfirst heq
    refine ⟨fun j hj => ?_, ?_, fun m => ?_, ?_, ?_, ?_⟩
    · rw [slot_congr hvault]
      exact hslots j hj
    · rw [hvault]
      exact hscramble
    · rw [session_congr hopx]
      exact hclosed m
    · rw [htime, if_pos heq]
    · rw [rdB, hlock]
      exact hempty
    · rw [rdB, hwatch]
      exact hdone

/-- What the hardware's log and LOCKDOWN leave of a trip. -/
theorem TripDone.after {causes cal : Nat} {b lockdown : Bool} (h : TripDone s causes b cal t)
    (hvault : u.vault = { t.vault with waiting := u.vault.waiting })
    (hclosed : ∀ m, (session t m).open_ = false → (session u m).open_ = false) (hrd : ∀ a, still a = true → rd u a = rd t a)
    (hlock : lockdown = true → u.guard.mode.getLsbD 7 = true) : TripDone s causes lockdown cal u := by
  obtain ⟨hcause, hcount, hshown, -, hlater, hfirst⟩ := h
  have htime : rd64 u (reg pBKP 0x094) = rd64 t (reg pBKP 0x094) :=
    rd64_congr (hrd (reg pBKP 0x094) (by decide)) (hrd (reg pBKP 0x098) (by decide))
  refine ⟨(hrd _ (by decide)).trans hcause, ?_, ?_, hlock, fun hne => ⟨?_, ?_⟩, fun heq => ?_⟩
  · rw [hrd _ (by decide), hcount]
  · rw [rdB, hrd _ (by decide)]
    exact hshown
  · rw [hvault]
    exact (hlater hne).1
  · rw [htime]
    exact (hlater hne).2
  · obtain ⟨hslots, hscramble, hopen, hstamp, hempty, hdone⟩ := hfirst heq
    refine ⟨fun j hj => ?_, ?_, fun m => hclosed m (hopen m), htime.trans hstamp, ?_, ?_⟩
    · rw [slot, hvault]
      exact hslots j hj
    · rw [hvault]
      exact hscramble
    · rw [rdB, hrd _ (by decide)]
      exact hempty
    · rw [rdB, hrd _ (by decide)]
      exact hdone

theorem tamperSituation_awake (hop : s.guard.operational = true) (hpg : s.guard.pgood = true) (has : s.guard.asleep = false) :
    tamperSituation s ≠ 3 := by
  unfold tamperSituation
  rw [hop, hpg, has, if_neg (by decide), if_neg (by decide)]
  split <;> decide

/-- A trip after its record: the hardware's log entry and LOCKDOWN. -/
def tamperLast (s t : State) (c situation : Nat) : State :=
  let t := if rd s (reg pBKP 0x090) = 0 ∧ situation ≠ 3 then logHw t pWTCH 2 0 0 (BitVec.ofNat 64 c) else t
  if situation = 3 ∨ (!s.guard.operational ∧ s.guard.step ≤ 8) then t else lockdownHw t

theorem tamperOp_eq (s : State) (c : Nat) : tamperOp s c = if armedCauses s c = 0 then s else
    tamperLast s (tamperRecord (tamperFirst s) (armedCauses s c) (tamperSituation s)) (armedCauses s c) (tamperSituation s) := by
  unfold tamperOp tamperLast tamperFirst
  with_reducible rfl

/-- An armed trip (R287–R290). -/
theorem tripDone_tamperOp {c : Nat} (h : armedCauses s c ≠ 0) :
    TripDone s (armedCauses s c) (s.guard.operational && s.guard.pgood && !s.guard.asleep) (calStamp s).toNat (tamperOp s c) := by
  rw [tamperOp_eq, if_neg h]
  have hfirst := tripped_tamperFirst s
  have hrecord := hfirst.record (tampered_tamperRecord (tamperFirst s) (armedCauses s c) (tamperSituation s))
  rw [hfirst.cal] at hrecord
  generalize tamperRecord (tamperFirst s) (armedCauses s c) (tamperSituation s) = x at hrecord ⊢
  unfold tamperLast
  dsimp only
  obtain ⟨y, hy⟩ : ∃ y, y = if rd s (reg pBKP 0x090) = 0 ∧ tamperSituation s ≠ 3 then
      logHw x pWTCH 2 0 0 (BitVec.ofNat 64 (armedCauses s c)) else x := ⟨_, rfl⟩
  have hlog : Stands x y := by
    rw [hy]
    split
    · exact stands_logHw _ _ _ _ _ _ _ _
    · exact .refl x
  rw [← hy]
  split
  case isTrue hout =>
    refine hrecord.after hlog.vault hlog.closed hlog.rd fun hawake => ?_
    simp only [Bool.and_eq_true, Bool.not_eq_true'] at hawake
    obtain ⟨⟨hop, hpg⟩, has⟩ := hawake
    rcases hout with hsit | ⟨hnot, -⟩
    · exact absurd hsit (tamperSituation_awake hop hpg has)
    · rw [hop] at hnot
      cases hnot
  case isFalse =>
    have hlocked := locked_lockdownHw y
    exact (hrecord.after (lockdown := false) hlog.vault hlog.closed hlog.rd nofun).after hlocked.vault hlocked.closed hlocked.rd
      fun _ => hlocked.lock

/-- What the sensors show (R291). -/
def tamperShown (s : State) (c : Nat) : State :=
  let t := wrF s (reg pWTCH 0x088) 0 10 c
  if c / 512 % 2 = 1 then wrB t (reg pCAL 0x0A0) 2 false else t

theorem tamperTripOp_eq (s : State) (c : Nat) : tamperTripOp s c = tamperOp (tamperShown s c) c := rfl

structure Shown (s : State) (c : Nat) (t : State) : Prop where
  vault : t.vault = s.vault
  opx : t.opx = s.opx
  guard : t.guard = s.guard
  clk : t.clk = s.clk
  shown : rdF t (reg pWTCH 0x088) 0 10 = c % 1024
  rd : ∀ a, a ≠ reg pWTCH 0x088 → a ≠ reg pCAL 0x0A0 → rd t a = rd s a

theorem shown_tamperShown (s : State) (c : Nat) : Shown s c (tamperShown s c) := by
  unfold tamperShown
  dsimp only
  split
  · refine ⟨rfl, rfl, rfl, rfl, ?_, fun a h88 ha0 => (rd_wrB_other _ _ _ ha0).trans (rd_wrF_other s _ _ _ h88)⟩
    rw [rdF, rd_wrB_other _ _ _ (by decide)]
    exact rd_wrF_same s c (by decide)
  · exact ⟨rfl, rfl, rfl, rfl, rd_wrF_same s c (by decide), fun a h88 _ => rd_wrF_other s _ _ _ h88⟩

theorem Shown.armed {c : Nat} (h : Shown s c t) (k : Nat) : armedCauses t k = armedCauses s k := by
  unfold armedCauses rdB rdF
  rw [h.rd _ (by decide) (by decide)]

theorem Shown.stamp {c : Nat} (h : Shown s c t) : calStamp t = calStamp s := by
  have htick : calTick t = calTick s := by
    unfold calTick
    rw [h.vault, h.clk]
  refine calStamp_congr htick fun o hlo hhi => h.rd _ (reg_ne_of_page (by decide) (by omega) (by decide)) fun e => ?_
  have := reg_right_inj.1 e
  omega

/-- A trip of armed sensors leaves the same as without their showing. -/
theorem TripDone.beside {c causes cal : Nat} {b : Bool} (k : TripDone t causes b cal u) (h : Shown s c t) : TripDone s causes b cal u := by
  obtain ⟨hcause, hcount, hshown, hlock, hlater, hfirst⟩ := k
  have hbkp : ∀ o < 4096, rd t (reg pBKP o) = rd s (reg pBKP o) := fun o ho =>
    h.rd _ (reg_ne_of_page (by decide) ho (by decide)) (reg_ne_of_page (by decide) ho (by decide))
  have htime : rd64 t (reg pBKP 0x094) = rd64 s (reg pBKP 0x094) := rd64_congr (hbkp 0x094 (by decide)) (hbkp 0x098 (by decide))
  have hslot : ∀ j, slot t j = slot s j := slot_congr h.vault
  rw [hbkp _ (by decide)] at hcause hcount hlater hfirst
  rw [htime, h.vault] at hlater
  exact ⟨hcause, hcount, hshown, hlock, hlater, fun heq => by simpa only [hslot] using hfirst heq⟩

theorem or_kept (m : BitVec 8) : m ||| (m &&& 4) = m := by
  ext i hi
  simp
  tauto

/-- A trip without an armed sensor only shows (R288). -/
theorem tamperTrip_shows {cause : BitVec 10} (h : armedCauses s cause.toNat = 0) : ∃ t, exec (.tamperTrip cause) s = .next t ∧
    t.vault = s.vault ∧ t.opx = s.opx ∧ t.guard.mode = s.guard.mode ∧ rdF t (reg pWTCH 0x088) 0 10 = cause.toNat ∧
    rd t (reg pBKP 0x090) = rd s (reg pBKP 0x090) := by
  obtain ⟨t, hrun, hends, hguard⟩ := finishGuard_ends s (tamperTripOp s cause.toNat)
  have hshown := shown_tamperShown s cause.toNat
  have hop : tamperTripOp s cause.toNat = tamperShown s cause.toNat := by
    rw [tamperTripOp_eq, tamperOp_eq, hshown.armed, if_pos h]
  rw [hop] at hends hguard
  refine ⟨t, hrun, hends.vault.trans hshown.vault, hends.opx.trans hshown.opx, ?_, ?_, ?_⟩
  · rw [hguard, hshown.guard]
    show (if s.guard.scmdCtr < s.guard.scmdCtr then _ else _) = _
    rw [if_neg (Nat.lt_irrefl _)]
    exact or_kept _
  · rw [hends.rdF, hshown.shown, Nat.mod_eq_of_lt cause.isLt]
  · rw [hends.rd, hshown.rd _ (by decide) (by decide)]

/-- A trip of an armed sensor (R287–R290). -/
theorem tamperTrip_destroys {cause : BitVec 10} (h : armedCauses s cause.toNat ≠ 0) : ∃ t, exec (.tamperTrip cause) s = .next t ∧
    TripDone s (armedCauses s cause.toNat) (s.guard.operational && s.guard.pgood && !s.guard.asleep) (calStamp s).toNat t := by
  obtain ⟨t, hrun, hends, hguard⟩ := finishGuard_ends s (tamperTripOp s cause.toNat)
  have hshown := shown_tamperShown s cause.toNat
  have hdone := tripDone_tamperOp (s := tamperShown s cause.toNat) (c := cause.toNat) (by rw [hshown.armed]; exact h)
  rw [← tamperTripOp_eq, hshown.armed, hshown.guard, hshown.stamp] at hdone
  refine ⟨t, hrun, (hdone.beside hshown).after (by rw [hends.vault]) (fun m hm => ?_) (fun a _ => hends.rd a) fun hawake => ?_⟩
  · rw [session_congr hends.opx]
    exact hm
  · have hbit := hdone.lock hawake
    rw [hguard]
    show (if s.guard.scmdCtr < (tamperTripOp s cause.toNat).guard.scmdCtr then _ else _ : BitVec 8).getLsbD 7 = true
    split
    · exact hbit
    · rw [BitVec.getLsbD_or, hbit, Bool.true_or]

/-- Settles O55, by what each command leaves of the keys, the calendar and the backup domain. -/
theorem tamperCalendarAndPower : Obligations.TamperCalendarAndPower := by
  unfold Obligations.TamperCalendarAndPower
  intro s
  refine ⟨fun cause => ⟨tamperTrip_shows, fun h => ?_⟩, backupPowerOn_empties s, vbakLow_shows s,
    fun _ _ _ _ _ hv hcs hcm hch hcd => secondBoundary_ticks hv hcs hcm hch hcd, fun _ hp => trimCorrection_corrects hp,
    fun _ f _ _ h hm => calendarWrite_stages f h hm, fun hr i => ⟨calSecRead_freezes hr, calYearRead_releases hr⟩,
    fun _ _ hsh => tornRead_releases hsh, wakeTimer_wakes, fun i => ⟨ponSet_sets, ponRelease_releases, clearLost_clears, clearTamper_clears⟩⟩
  obtain ⟨t, hrun, hcause, hcount, hshown, hlock, hlater, hfirst⟩ := tamperTrip_destroys h
  exact ⟨t, hrun, hcause, hcount, hshown, fun hop hpg has => hlock (by rw [hop, hpg, has]; rfl), hlater, hfirst⟩

end Sys2Proof.Proofs
end

section
/-!
PROOFS. A completion that waits to be posted to a queue that Factor does not have: the event bit that FACTQ.EVT would show for it does
not exist (R311, R169).
-/

namespace Sys2Proof.Proofs

open Sys2Proof.Machine Sys2Proof.Laws

/-- A word has 32 bits. -/
theorem bit_beyond (w : Word) {i : Nat} (h : 32 ≤ i) : bit w i = false := by
  rw [bit_eq_testBit, BitVec.testBit_toNat, BitVec.getLsbD_of_ge w i h]

/-- The discarded completion of a descriptor of queue 32. -/
def strayPost : Post := ⟨32, 9, { status := 6, outcome := oDISCARDED }, 0, .operator, true⟩

/-- The state after reset, that completion waiting to be posted. -/
def startWithStrayPost : State := { State.reset with fact := { State.reset.fact with posts := [strayPost] } }

/-- It is the next to be posted, and Factor has room to write it. -/
theorem strayPost_postable : startWithStrayPost.fact.posts.find? (postable startWithStrayPost) = some strayPost ∧
    factRoom startWithStrayPost strayPost.cls 1 = true := by
  decide +kernel

/-- Refutes O56: posting a completion of a queue beyond Factor's two sets no bit of FACTQ.EVT, which has 32. -/
theorem not_faultsAreHandled : ¬ Obligations.FaultsAreHandled := by
  unfold Obligations.FaultsAreHandled
  intro h
  obtain ⟨hnext, hroom⟩ := strayPost_postable
  obtain ⟨-, -, -, hpost, -⟩ := h startWithStrayPost
  obtain ⟨t, -, hposted, -⟩ := hpost strayPost hnext hroom
  obtain ⟨-, -, hevent, -⟩ := hposted
  rw [rdB, bit_beyond _ (by decide)] at hevent
  cases hevent

end Sys2Proof.Proofs
end
